-- ==== Sys2Proof/Word.lean ====
section
/-! DEFINITION. Words, addresses and tags (01 R5, 03 R34, R55), and the plain reading of a bit field. -/

namespace Sys2Proof

/-- A 32-bit register or instruction word (03 R34). -/
abbrev Word := BitVec 32

/-- A 64-bit code or data address (07 R144, 17 R367). -/
abbrev Addr := BitVec 64

/-- A 4-bit format tag code (03 R55). -/
abbrev Tag := BitVec 4

/-- Bits `[lo + len - 1 : lo]` of a number (01 R5). -/
def fieldNat (w lo len : Nat) : Nat := w / 2 ^ lo % 2 ^ len

/-- Bit `n` of a number (01 R5). -/
def bitAt (w n : Nat) : Bool := w / 2 ^ n % 2 == 1

/-- Bits `[lo + len - 1 : lo]` of a number as a field of its own width. -/
def fieldBits (w lo len : Nat) : BitVec len := BitVec.ofNat len (w / 2 ^ lo)

end Sys2Proof
end

