-- ==== Sys2Proof/Syntax.lean ====
section
/-! DEFINITION. The instruction set: one constructor for each row of spec/opcode_table.json.
The first are the instruction words of 03 R50 and R51; a word names its chain bit `c` and uniform bit `u` where R38 and
R42 leave them free, and its fields as the table gives them (a pair field is half its register number, a quad field a
quarter, a tile field an eighth). The others are the events of 95_what_each_step_holds.md, which have no encoding; their
arguments name the object the event meets and the data that comes from outside. -/

namespace Sys2Proof

/-- Every row of the opcode table. -/
inductive Instr where
  /-- IADD (R96). Writes (x + y) mod 2^32. -/
  | iadd (c u : Bool) (d a b : BitVec 7)
  /-- ISUB (R96). Writes (x - y) mod 2^32. -/
  | isub (c u : Bool) (d a b : BitVec 7)
  /-- IMIN_S32 (R96). Writes the signed minimum. -/
  | iminS32 (c u : Bool) (d a b : BitVec 7)
  /-- IMAX_S32 (R96). Writes the signed maximum. -/
  | imaxS32 (c u : Bool) (d a b : BitVec 7)
  /-- IMIN_N32 (R96). Writes the unsigned minimum. -/
  | iminN32 (c u : Bool) (d a b : BitVec 7)
  /-- IMAX_N32 (R96). Writes the unsigned maximum. -/
  | imaxN32 (c u : Bool) (d a b : BitVec 7)
  /-- IABSD (R96). Writes the absolute signed difference as unsigned. -/
  | iabsd (c u : Bool) (d a b : BitVec 7)
  /-- INEG (R96). Writes (0 - x) mod 2^32. -/
  | ineg (c u : Bool) (d a : BitVec 7)
  /-- IMUL (R97). Writes (x x y) mod 2^32. -/
  | imul (c u : Bool) (d a b : BitVec 7)
  /-- IMULH_S32 (R97). Writes the high 32 bits of the signed product. -/
  | imulhS32 (c u : Bool) (d a b : BitVec 7)
  /-- IMULH_N32 (R97). Writes the high 32 bits of the unsigned product. -/
  | imulhN32 (c u : Bool) (d a b : BitVec 7)
  /-- IMAD (R97). Writes (v(d) + x x y) mod 2^32. -/
  | imad (c u : Bool) (d a b : BitVec 7)
  /-- IDIV_S32 (R83). Writes the signed quotient with the special cases of R83. -/
  | idivS32 (c u : Bool) (d a b : BitVec 7)
  /-- IDIV_N32 (R97). Writes the unsigned quotient; x/0 gives 0xFFFF_FFFF. -/
  | idivN32 (c u : Bool) (d a b : BitVec 7)
  /-- IREM_S32 (R83). Writes the signed remainder with the special cases of R83. -/
  | iremS32 (c u : Bool) (d a b : BitVec 7)
  /-- IREM_N32 (R97). Writes the unsigned remainder; x rem 0 gives x. -/
  | iremN32 (c u : Bool) (d a b : BitVec 7)
  /-- IADD_D (R98). Writes the 64-bit sum of two pairs. -/
  | iaddD (c u : Bool) (d a b : BitVec 6)
  /-- ISUB_D (R98). Writes the 64-bit difference of two pairs. -/
  | isubD (c u : Bool) (d a b : BitVec 6)
  /-- IMUL_D (R98). Writes the 64-bit product of two pairs. -/
  | imulD (c u : Bool) (d a b : BitVec 6)
  /-- IMADW_S32 (R98). Adds the signed 64-bit product of two singles to the destination pair. -/
  | imadwS32 (c u : Bool) (d : BitVec 6) (a b : BitVec 7)
  /-- IMADW_N32 (R98). Adds the unsigned 64-bit product of two singles to the destination pair. -/
  | imadwN32 (c u : Bool) (d : BitVec 6) (a b : BitVec 7)
  /-- SHL_D (R101). Shifts a pair left by an unreduced count. -/
  | shlD (c u : Bool) (d a : BitVec 6) (b : BitVec 7)
  /-- SHR_D (R101). Shifts a pair right with zero fill by an unreduced count. -/
  | shrD (c u : Bool) (d a : BitVec 6) (b : BitVec 7)
  /-- SAR_D (R101). Shifts a pair right with sign fill by an unreduced count. -/
  | sarD (c u : Bool) (d a : BitVec 6) (b : BitVec 7)
  /-- AND (R99). Writes x AND y. -/
  | and (c u : Bool) (d a b : BitVec 7)
  /-- OR (R99). Writes x OR y. -/
  | or (c u : Bool) (d a b : BitVec 7)
  /-- XOR (R99). Writes x XOR y. -/
  | xor (c u : Bool) (d a b : BitVec 7)
  /-- ANDN (R99). Writes x AND NOT y. -/
  | andn (c u : Bool) (d a b : BitVec 7)
  /-- ORN (R99). Writes x OR NOT y. -/
  | orn (c u : Bool) (d a b : BitVec 7)
  /-- XNOR (R99). Writes NOT (x XOR y). -/
  | xnor (c u : Bool) (d a b : BitVec 7)
  /-- NOT (R99). Writes NOT x. -/
  | not (c u : Bool) (d a : BitVec 7)
  /-- MOV (R99). Copies all 32 bits and the tag, copying a pending handle's reference. -/
  | mov (c u : Bool) (d a : BitVec 7)
  /-- SHL (R101). Shifts left by an unreduced count. -/
  | shl (c u : Bool) (d a b : BitVec 7)
  /-- SHR (R101). Shifts right with zero fill by an unreduced count. -/
  | shr (c u : Bool) (d a b : BitVec 7)
  /-- SAR (R101). Shifts right with sign fill by an unreduced count. -/
  | sar (c u : Bool) (d a b : BitVec 7)
  /-- ROTL (R100). Rotates left by y mod 32. -/
  | rotl (c u : Bool) (d a b : BitVec 7)
  /-- POPC (R100). Writes the number of 1 bits. -/
  | popc (c u : Bool) (d a : BitVec 7)
  /-- CLZ (R100). Writes the number of leading zeros. -/
  | clz (c u : Bool) (d a : BitVec 7)
  /-- BREV (R100). Reverses the bit order. -/
  | brev (c u : Bool) (d a : BitVec 7)
  /-- FFS (R100). Writes the index of the lowest 1 bit, or all ones for zero. -/
  | ffs (c u : Bool) (d a : BitVec 7)
  /-- BFX_S32 (R102). Extracts a sign-extended bit field. -/
  | bfxS32 (c u : Bool) (d a b : BitVec 7)
  /-- BFX_N32 (R102). Extracts a zero-extended bit field. -/
  | bfxN32 (c u : Bool) (d a b : BitVec 7)
  /-- BFI (R102). Inserts a bit field into v(d). -/
  | bfi (c u : Bool) (d a b : BitVec 7)
  /-- PERM (R102). Permutes bytes of x and old v(d) under control nibbles. -/
  | perm (c u : Bool) (d a b : BitVec 7)
  /-- SHF (R102). Funnel-shifts v(d):x right by y mod 32. -/
  | shf (c u : Bool) (d a b : BitVec 7)
  /-- IADDS_S32 (R102). Writes the clamped signed sum. -/
  | iaddsS32 (c u : Bool) (d a b : BitVec 7)
  /-- ISUBS_S32 (R102). Writes the clamped signed difference. -/
  | isubsS32 (c u : Bool) (d a b : BitVec 7)
  /-- IADDS_N32 (R102). Writes the clamped unsigned sum. -/
  | iaddsN32 (c u : Bool) (d a b : BitVec 7)
  /-- IADDI (R103). Adds a sign-extended 10-bit immediate. -/
  | iaddi (c u : Bool) (d a : BitVec 7) (imm : BitVec 10)
  /-- ANDI (R103). ANDs with a sign-extended immediate. -/
  | andi (c u : Bool) (d a : BitVec 7) (imm : BitVec 10)
  /-- ORI (R103). ORs with a sign-extended immediate. -/
  | ori (c u : Bool) (d a : BitVec 7) (imm : BitVec 10)
  /-- XORI (R103). XORs with a sign-extended immediate. -/
  | xori (c u : Bool) (d a : BitVec 7) (imm : BitVec 10)
  /-- SHFI (R103). Shifts or rotates by an immediate count, the kind chosen by imm10[9:8]. -/
  | shfi (c u : Bool) (d a : BitVec 7) (sc : BitVec 2) (n : BitVec 6)
  /-- IMULI (R103). Multiplies by a sign-extended immediate. -/
  | imuli (c u : Bool) (d a : BitVec 7) (imm : BitVec 10)
  /-- LEAI (R103). Adds a sign-extended immediate to a 64-bit pair. -/
  | leai (c u : Bool) (d a : BitVec 6) (imm : BitVec 10)
  /-- MOVI (R104). Writes a sign-extended 17-bit immediate with tag RAW. -/
  | movi (c u : Bool) (d : BitVec 7) (imm : BitVec 17)
  /-- MOVHI (R104). Replaces bits [31:15] of v(d) with the immediate. -/
  | movhi (c u : Bool) (d : BitVec 7) (imm : BitVec 17)
  /-- KLD (R104). Reads a word of the team's constant bank. -/
  | kld (c u : Bool) (d : BitVec 7) (k : BitVec 10)
  /-- ISETP (R106). Compares two integers and sets or combines a predicate. -/
  | isetp (c u : Bool) (f : BitVec 3) (e : BitVec 2) (p : BitVec 3) (a b : BitVec 7)
  /-- FSETP (R106). Compares two F32 values and sets or combines a predicate. -/
  | fsetp (c u : Bool) (f : BitVec 3) (e : BitVec 2) (p : BitVec 3) (a b : BitVec 7)
  /-- PAND (R108). ANDs two predicates. -/
  | pand (c u : Bool) (d a b : BitVec 3)
  /-- POR (R108). ORs two predicates. -/
  | por (c u : Bool) (d a b : BitVec 3)
  /-- PXOR (R108). XORs two predicates. -/
  | pxor (c u : Bool) (d a b : BitVec 3)
  /-- PNOT (R108). Negates a predicate. -/
  | pnot (c u : Bool) (d a : BitVec 3)
  /-- P2V (R108). Writes p7..p0 to a register. -/
  | p2v (c u : Bool) (d : BitVec 7)
  /-- V2P (R108). Writes all eight predicates from a register's low bits. -/
  | v2p (c u : Bool) (a : BitVec 7)
  /-- PSET (R108). Sets a predicate to an immediate bit. -/
  | pset (c u : Bool) (d : BitVec 3) (b : BitVec 1)
  /-- SELP (R109). Copies one of two registers selected by a predicate. -/
  | selp (c u : Bool) (d a b : BitVec 7) (p : BitVec 3)
  /-- MAND (R110). ANDs two group masks. -/
  | mand (c u : Bool) (d a b : BitVec 4)
  /-- MOR (R110). ORs two group masks. -/
  | mor (c u : Bool) (d a b : BitVec 4)
  /-- MXOR (R110). XORs two group masks. -/
  | mxor (c u : Bool) (d a b : BitVec 4)
  /-- MNOT (R110). Negates a group mask. -/
  | mnot (c u : Bool) (d a : BitVec 4)
  /-- MFROMV (R110). Sets a mask from the lowest active lane's register. -/
  | mfromv (c u : Bool) (d : BitVec 4) (a : BitVec 7)
  /-- MTOV (R110). Writes a mask to every active thread's register. -/
  | mtov (c u : Bool) (d : BitVec 7) (a : BitVec 4)
  /-- MPOPC (R110). Writes a mask's population count to every active thread. -/
  | mpopc (c u : Bool) (d : BitVec 7) (a : BitVec 4)
  /-- MSELF (R110). Sets a mask to the home lanes of the active threads. -/
  | mself (c u : Bool) (d : BitVec 4)
  /-- FADD (R115). Writes the F32 sum rounded to nearest. -/
  | fadd (c u : Bool) (d a b : BitVec 7)
  /-- FSUB (R115). Writes the F32 difference. -/
  | fsub (c u : Bool) (d a b : BitVec 7)
  /-- FMUL (R115). Writes the F32 product. -/
  | fmul (c u : Bool) (d a b : BitVec 7)
  /-- FMIN (R115). Writes the smaller F32 value under R69. -/
  | fmin (c u : Bool) (d a b : BitVec 7)
  /-- FMAX (R115). Writes the larger F32 value under R69. -/
  | fmax (c u : Bool) (d a b : BitVec 7)
  /-- FABS (R115). Clears bit 31. -/
  | fabs (c u : Bool) (d a : BitVec 7)
  /-- FNEG (R115). Inverts bit 31. -/
  | fneg (c u : Bool) (d a : BitVec 7)
  /-- FCPSGN (R115). Copies v(a) with the sign bit of v(b). -/
  | fcpsgn (c u : Bool) (d a b : BitVec 7)
  /-- FMA (R116). Writes x x y + z with one rounding. -/
  | fma (c u : Bool) (d a b : BitVec 7)
  /-- FMS (R116). Writes x x y - z with one rounding. -/
  | fms (c u : Bool) (d a b : BitVec 7)
  /-- FNMA (R116). Writes -(x x y) - z with one rounding. -/
  | fnma (c u : Bool) (d a b : BitVec 7)
  /-- FNMS (R116). Writes -(x x y) + z with one rounding. -/
  | fnms (c u : Bool) (d a b : BitVec 7)
  /-- FRCP (R118). Writes 1/x within 1 ulp. -/
  | frcp (c u : Bool) (d a : BitVec 7)
  /-- FRSQ (R118). Writes 1/sqrt(x) within 1 ulp. -/
  | frsq (c u : Bool) (d a : BitVec 7)
  /-- FSQRTA (R118). Writes sqrt(x) within 1 ulp. -/
  | fsqrta (c u : Bool) (d a : BitVec 7)
  /-- FEX2 (R118). Writes 2^x within 2 ulp. -/
  | fex2 (c u : Bool) (d a : BitVec 7)
  /-- FLG2 (R118). Writes log2 x. -/
  | flg2 (c u : Bool) (d a : BitVec 7)
  /-- FSINP (R118). Writes sin(pi x). -/
  | fsinp (c u : Bool) (d a : BitVec 7)
  /-- FCOSP (R118). Writes cos(pi x). -/
  | fcosp (c u : Bool) (d a : BitVec 7)
  /-- FTANH (R118). Writes tanh x within 2 ulp. -/
  | ftanh (c u : Bool) (d a : BitVec 7)
  /-- FDIV (R120). Writes the correctly rounded quotient. -/
  | fdiv (c u : Bool) (d a b : BitVec 7)
  /-- FSQRT (R120). Writes the correctly rounded square root. -/
  | fsqrt (c u : Bool) (d a : BitVec 7)
  /-- FRINT_RN (R120). Rounds to an integral value, ties to even. -/
  | frintRn (c u : Bool) (d a : BitVec 7)
  /-- FRINT_RZ (R120). Rounds to an integral value toward zero. -/
  | frintRz (c u : Bool) (d a : BitVec 7)
  /-- FRINT_RD (R120). Rounds to an integral value toward minus infinity. -/
  | frintRd (c u : Bool) (d a : BitVec 7)
  /-- FRINT_RU (R120). Rounds to an integral value toward plus infinity. -/
  | frintRu (c u : Bool) (d a : BitVec 7)
  /-- FCLASS (R121). Writes a one-hot class mask of v(a). -/
  | fclass (c u : Bool) (d a : BitVec 7)
  /-- FSCALB (R122). Writes x x 2^n with n from an F32 operand. -/
  | fscalb (c u : Bool) (d a b : BitVec 7)
  /-- CVT (R124). Converts or retags a register under the selector in b, with rounding and saturate from fn. -/
  | cvt (c u : Bool) (sc : BitVec 1) (r : BitVec 2) (d a b : BitVec 7)
  /-- PKBF (R126). Packs two F32 values as BF16x2. -/
  | pkbf (c u : Bool) (d a b : BitVec 7)
  /-- PKE4_LO (R126). Packs two F32 values into E4M3 elements 0 and 1. -/
  | pke4Lo (c u : Bool) (d a b : BitVec 7)
  /-- PKE4_HI (R126). Packs two F32 values into E4M3 elements 2 and 3. -/
  | pke4Hi (c u : Bool) (d a b : BitVec 7)
  /-- PKE5_LO (R126). Packs two F32 values into E5M2 elements 0 and 1. -/
  | pke5Lo (c u : Bool) (d a b : BitVec 7)
  /-- PKE5_HI (R126). Packs two F32 values into E5M2 elements 2 and 3. -/
  | pke5Hi (c u : Bool) (d a b : BitVec 7)
  /-- PKPS_LO (R126). Packs two F32 values into PS8 elements 0 and 1. -/
  | pkpsLo (c u : Bool) (d a b : BitVec 7)
  /-- PKPS_HI (R126). Packs two F32 values into PS8 elements 2 and 3. -/
  | pkpsHi (c u : Bool) (d a b : BitVec 7)
  /-- UNPK (R127). Unpacks one element of a packed register to F32 or INT. -/
  | unpk (c u : Bool) (d a : BitVec 7) (j : BitVec 2)
  /-- DOT2_BF16 (R129). Adds the exact sum of two BF16 products to v(d) with one rounding. -/
  | dot2Bf16 (c u : Bool) (d a b : BitVec 7)
  /-- DOT4_E4M3 (R129). Adds the exact sum of four E4M3 products to v(d). -/
  | dot4E4m3 (c u : Bool) (d a b : BitVec 7)
  /-- DOT4_E5M2 (R129). Adds the exact sum of four E5M2 products to v(d). -/
  | dot4E5m2 (c u : Bool) (d a b : BitVec 7)
  /-- DOT4_PS8 (R129). Adds the exact sum of four PS8 products to v(d). -/
  | dot4Ps8 (c u : Bool) (d a b : BitVec 7)
  /-- DOT4_S8 (R129). Adds four signed byte products to v(d) modulo 2^32. -/
  | dot4S8 (c u : Bool) (d a b : BitVec 7)
  /-- DOT4_N8 (R129). Adds four unsigned byte products to v(d) modulo 2^32. -/
  | dot4N8 (c u : Bool) (d a b : BitVec 7)
  /-- HADD2_BF16 (R130). Adds two BF16 pairs element by element. -/
  | hadd2Bf16 (c u : Bool) (d a b : BitVec 7)
  /-- HMUL2_BF16 (R130). Multiplies two BF16 pairs element by element. -/
  | hmul2Bf16 (c u : Bool) (d a b : BitVec 7)
  /-- BRM (R146). Multi-way branch on up to four predicate pairs with fall-through, exit or trap default. -/
  | brm (u : Bool) (n f : BitVec 2) (w x y z : BitVec 4)
  /-- TGT (R146). Holds two packet-offset targets of a BRM header; executes only as part of it. -/
  | tgt (g h : BitVec 12)
  /-- JMP (R147). Jumps by a signed packet offset. -/
  | jmp (u : Bool) (imm : BitVec 17)
  /-- CALL (R147). Writes the link pair and jumps by a signed packet offset. -/
  | call (u : Bool) (d : BitVec 6) (imm : BitVec 17)
  /-- JMPR (R148). Transfers to the address in a pair, checked under R144. -/
  | jmpr (a : BitVec 6)
  /-- CALLR (R148). Writes the link pair and transfers to the address in a pair. -/
  | callr (d a : BitVec 6)
  /-- RET (R148). Transfers to a pair's address as JMPR, with a return hint. -/
  | ret (a : BitVec 6)
  /-- EXIT (R149). Ends the thread after its chain commits, dropping outstanding loads. -/
  | exit
  /-- SPAWN (R151). Places a new thread into a spawn bin keyed by team and entry, writing a status. -/
  | spawn (c : Bool) (d : BitVec 7) (a : BitVec 6) (b : BitVec 7)
  /-- SPAWNF (R152). Spawns as SPAWN and ends the bin's timer at once. -/
  | spawnf (c : Bool) (d : BitVec 7) (a : BitVec 6) (b : BitVec 7)
  /-- TRAP (R154). Commits its chain and raises cause TRAP with the code in TRAPINFO0. -/
  | trap (c : Bool) (b : BitVec 7)
  /-- BKPT (R154). Raises BREAKPOINT with nothing of its chain committed. -/
  | bkpt (c : Bool)
  /-- NOP (R155). Does nothing. -/
  | nop (c : Bool)
  /-- PAUSE (R155). Sets the thread paused for up to 65,535 core cycles, or clears it. -/
  | pause (c : Bool) (a : BitVec 7)
  /-- YIELD (R155). Sets the thread yielding until other ready pens have issued or FAIRLIM passes. -/
  | yield (c : Bool)
  /-- FFENCE (R155). Discards fetched and decoded words so later fetches see ordered code writes. -/
  | ffence (c : Bool)
  /-- CLKRD (R155). Reads CLK into a pair. -/
  | clkrd (c : Bool) (d : BitVec 6)
  /-- RENEW (R155). Asks the home slice for a fresh lease on a line at once. -/
  | renew (c : Bool) (a : BitVec 6)
  /-- RESUME (R155). Blocks on FHANDLE, clears the continuation flag and transfers to FPC. -/
  | resume (c : Bool)
  /-- SHFL_IDX (R159). Reads v(a) of the participant on the lane named by v(d). -/
  | shflIdx (c : Bool) (d a : BitVec 7) (m : BitVec 4)
  /-- SHFL_XOR (R159). Reads v(a) of the lane h xor v(d). -/
  | shflXor (c : Bool) (d a : BitVec 7) (m : BitVec 4)
  /-- SHFL_UP (R159). Reads v(a) of the lane h - v(d). -/
  | shflUp (c : Bool) (d a : BitVec 7) (m : BitVec 4)
  /-- SHFL_DN (R159). Reads v(a) of the lane h + v(d). -/
  | shflDn (c : Bool) (d a : BitVec 7) (m : BitVec 4)
  /-- VOTE_ALL (R160). Sets a predicate to the AND of a predicate over the set. -/
  | voteAll (c : Bool) (d : BitVec 3) (n : BitVec 1) (a : BitVec 3) (m : BitVec 4)
  /-- VOTE_ANY (R160). Sets a predicate to the OR of a predicate over the set. -/
  | voteAny (c : Bool) (d : BitVec 3) (n : BitVec 1) (a : BitVec 3) (m : BitVec 4)
  /-- BALLOT (R160). Writes a mask of each participant's predicate. -/
  | ballot (c : Bool) (d : BitVec 7) (n : BitVec 1) (a : BitVec 3) (m : BitVec 4)
  /-- MATCH (R160). Writes a mask of participants whose v(a) equals the thread's own. -/
  | matchLanes (c : Bool) (d a : BitVec 7) (m : BitVec 4)
  /-- RADD (R161). Writes the sum of v(a) over the set modulo 2^32. -/
  | radd (c : Bool) (d a : BitVec 7) (m : BitVec 4)
  /-- RMIN_S32 (R161). Writes the smallest signed value over the set. -/
  | rminS32 (c : Bool) (d a : BitVec 7) (m : BitVec 4)
  /-- RMAX_S32 (R161). Writes the largest signed value over the set. -/
  | rmaxS32 (c : Bool) (d a : BitVec 7) (m : BitVec 4)
  /-- RAND (R161). Writes the AND over the set. -/
  | rand (c : Bool) (d a : BitVec 7) (m : BitVec 4)
  /-- ROR (R161). Writes the OR over the set. -/
  | ror (c : Bool) (d a : BitVec 7) (m : BitVec 4)
  /-- RXOR (R161). Writes the XOR over the set. -/
  | rxor (c : Bool) (d a : BitVec 7) (m : BitVec 4)
  /-- RFADD (R161). Writes the exact F32 sum over the set rounded once. -/
  | rfadd (c : Bool) (d a : BitVec 7) (m : BitVec 4)
  /-- RMIN_N32 (R161). Writes the smallest unsigned value over the set. -/
  | rminN32 (c : Bool) (d a : BitVec 7) (m : BitVec 4)
  /-- BAR_SYNC (R284). Arrives at a named barrier and waits for the phase to complete. -/
  | barSync (c : Bool) (n : BitVec 4)
  /-- BAR_ARV (R284). Arrives at a named barrier and writes the phase token. -/
  | barArv (c : Bool) (d : BitVec 7) (n : BitVec 4)
  /-- BAR_WAIT (R284). Waits until the barrier's phase differs from the token. -/
  | barWait (c : Bool) (d : BitVec 7) (n : BitVec 4)
  /-- BAR_CLU (R289). Arrives and waits at the cluster barrier. -/
  | barClu (c : Bool)
  /-- BAR_GRID (R290). Arrives and waits at the grid barrier of a co-resident launch. -/
  | barGrid (c : Bool)
  /-- GSYNC (R291). Synchronises the group's threads named in a mask. -/
  | gsync (c : Bool) (m : BitVec 4)
  /-- BAR_TEST (R284). Writes 1 if the barrier's phase has moved past the token, without waiting. -/
  | barTest (c : Bool) (d : BitVec 7) (n : BitVec 4)
  /-- BAR_SET (R286). Sets the barrier's count at once or as pending for the next phase. -/
  | barSet (c : Bool) (d : BitVec 7) (n : BitVec 4)
  /-- WAIT_NE (R297). Waits until the watched word differs from the compare value or the limit passes. -/
  | waitNe (c : Bool) (d : BitVec 7) (a : BitVec 6) (b : BitVec 7)
  /-- WAIT_EQ (R297). Waits until the watched word equals the compare value or the limit passes. -/
  | waitEq (c : Bool) (d : BitVec 7) (a : BitVec 6) (b : BitVec 7)
  /-- WAIT_GE (R297). Waits until the word is at or past the compare value in sequence order. -/
  | waitGe (c : Bool) (d : BitVec 7) (a : BitVec 6) (b : BitVec 7)
  /-- WATCH (R298). Arms the thread's watch slot on a word and reads it. -/
  | watch (c : Bool) (d : BitVec 7) (a : BitVec 6)
  /-- UNWATCH (R298). Writes the fired bit and disarms the watch slot. -/
  | unwatch (c : Bool) (d : BitVec 7)
  /-- WAKE (R298). Fires every watcher of a word on the device. -/
  | wake (c : Bool) (a : BitVec 6)
  /-- LD (R243). Relaxed global load of 1 to 16 bytes with a request type. -/
  | ld (c u : Bool) (t : BitVec 2) (z : BitVec 3) (d : BitVec 7) (b : BitVec 6) (o : BitVec 5)
  /-- ST (R243). Relaxed global store of 1 to 16 bytes with a request type. -/
  | st (c u : Bool) (t : BitVec 2) (z : BitVec 3) (d : BitVec 7) (b : BitVec 6) (o : BitVec 5)
  /-- LDS (R243). Team-local, cluster-remote or stash load. -/
  | lds (c u : Bool) (t : BitVec 2) (z : BitVec 3) (d b : BitVec 7) (o : BitVec 5)
  /-- STS (R243). Team-local, cluster-remote or stash store. -/
  | sts (c u : Bool) (t : BitVec 2) (z : BitVec 3) (d b : BitVec 7) (o : BitVec 5)
  /-- LDF (R243). Global 4-byte load that sets the named format tag. -/
  | ldf (c u : Bool) (t : BitVec 2) (f : BitVec 3) (d : BitVec 7) (b : BitVec 6) (o : BitVec 5)
  /-- ATOM_ADD (R244). Atomic add returning the old value. -/
  | atomAdd (c u : Bool) (w : BitVec 1) (r : BitVec 2) (sc : BitVec 3) (d : BitVec 5) (a : BitVec 4) (b : BitVec 5)
  /-- ATOM_MIN_S32 (R244). Atomic signed minimum. -/
  | atomMinS32 (c u : Bool) (w : BitVec 1) (r : BitVec 2) (sc : BitVec 3) (d : BitVec 5) (a : BitVec 4) (b : BitVec 5)
  /-- ATOM_MAX_S32 (R244). Atomic signed maximum. -/
  | atomMaxS32 (c u : Bool) (w : BitVec 1) (r : BitVec 2) (sc : BitVec 3) (d : BitVec 5) (a : BitVec 4) (b : BitVec 5)
  /-- ATOM_MIN_N32 (R244). Atomic unsigned minimum. -/
  | atomMinN32 (c u : Bool) (w : BitVec 1) (r : BitVec 2) (sc : BitVec 3) (d : BitVec 5) (a : BitVec 4) (b : BitVec 5)
  /-- ATOM_MAX_N32 (R244). Atomic unsigned maximum. -/
  | atomMaxN32 (c u : Bool) (w : BitVec 1) (r : BitVec 2) (sc : BitVec 3) (d : BitVec 5) (a : BitVec 4) (b : BitVec 5)
  /-- ATOM_AND (R244). Atomic AND. -/
  | atomAnd (c u : Bool) (w : BitVec 1) (r : BitVec 2) (sc : BitVec 3) (d : BitVec 5) (a : BitVec 4) (b : BitVec 5)
  /-- ATOM_OR (R244). Atomic OR. -/
  | atomOr (c u : Bool) (w : BitVec 1) (r : BitVec 2) (sc : BitVec 3) (d : BitVec 5) (a : BitVec 4) (b : BitVec 5)
  /-- ATOM_XOR (R244). Atomic XOR. -/
  | atomXor (c u : Bool) (w : BitVec 1) (r : BitVec 2) (sc : BitVec 3) (d : BitVec 5) (a : BitVec 4) (b : BitVec 5)
  /-- ATOMX_XCHG (R244). Atomic exchange. -/
  | atomxXchg (c u : Bool) (w : BitVec 1) (r : BitVec 2) (sc : BitVec 3) (d : BitVec 5) (a : BitVec 4) (b : BitVec 5)
  /-- ATOMX_CAS (R244). Atomic compare-and-swap; a failed compare is a read only. -/
  | atomxCas (c u : Bool) (w : BitVec 1) (r : BitVec 2) (sc : BitVec 3) (d : BitVec 5) (a : BitVec 4) (b : BitVec 5)
  /-- ATOMX_INCW (R244). Atomic wrapping increment. -/
  | atomxIncw (c u : Bool) (w : BitVec 1) (r : BitVec 2) (sc : BitVec 3) (d : BitVec 5) (a : BitVec 4) (b : BitVec 5)
  /-- ATOMX_DECW (R244). Atomic wrapping decrement. -/
  | atomxDecw (c u : Bool) (w : BitVec 1) (r : BitVec 2) (sc : BitVec 3) (d : BitVec 5) (a : BitVec 4) (b : BitVec 5)
  /-- ATOMX_FADD_F32 (R244). Atomic F32 add rounded once where performed. -/
  | atomxFaddF32 (c u : Bool) (r : BitVec 2) (sc : BitVec 3) (d : BitVec 5) (a : BitVec 4) (b : BitVec 5)
  /-- ATOMX_FMIN_F32 (R244). Atomic F32 minimum. -/
  | atomxFminF32 (c u : Bool) (r : BitVec 2) (sc : BitVec 3) (d : BitVec 5) (a : BitVec 4) (b : BitVec 5)
  /-- ATOMX_FMAX_F32 (R244). Atomic F32 maximum. -/
  | atomxFmaxF32 (c u : Bool) (r : BitVec 2) (sc : BitVec 3) (d : BitVec 5) (a : BitVec 4) (b : BitVec 5)
  /-- LDA (R247). Acquire load of 4 or 8 bytes at its scope. -/
  | lda (c u : Bool) (w : BitVec 1) (sc : BitVec 3) (d : BitVec 5) (a : BitVec 4)
  /-- STL (R247). Release store of 4 or 8 bytes at its scope. -/
  | stl (c u : Bool) (w : BitVec 1) (sc : BitVec 3) (a : BitVec 4) (b : BitVec 5)
  /-- FENCE (R213). Acquire, release or acquire-release fence at its scope. -/
  | fence (c u : Bool) (r : BitVec 2) (sc : BitVec 3)
  /-- FENCE_SC (R214). Acquire-release fence in the total order of R214. -/
  | fenceSc (c u : Bool) (sc : BitVec 3)
  /-- LDAP (R219). Promoting acquire load that recalls the line and promotes core-scope releases. -/
  | ldap (c u : Bool) (w : BitVec 1) (sc : BitVec 3) (d : BitVec 5) (a : BitVec 4)
  /-- ATOMP (R248). Promoting atomic add with a recall of the line. -/
  | atomp (c u : Bool) (w : BitVec 1) (r : BitVec 2) (sc : BitVec 3) (d : BitVec 5) (a : BitVec 4) (b : BitVec 5)
  /-- PREF (R249). Prefetches a line leased, owned or to the home slice. -/
  | pref (c u : Bool) (a : BitVec 6) (h : BitVec 2)
  /-- FLUSH (R249). Writes back an owned or dirty line and keeps a leased copy. -/
  | flush (c u : Bool) (a : BitVec 6)
  /-- INVAL (R249). Drops the L1 copy of a line after writing back dirty words. -/
  | inval (c u : Bool) (a : BitVec 6)
  /-- STASH_MAP (R250). Maps the team's stash window onto global memory, dropping any earlier window. -/
  | stashMap (c u : Bool) (a : BitVec 6) (b : BitVec 7)
  /-- STASH_WB (R250). Writes back every dirty line of the stash window. -/
  | stashWb (c u : Bool)
  /-- STASH_DROP (R250). Writes back, gives up ownership and unmaps the stash window. -/
  | stashDrop (c u : Bool)
  /-- CPY_G2S (R306). Appends a global-to-team-local element to the open batch. -/
  | cpyG2s (c : Bool) (z : BitVec 2) (d : BitVec 7) (a : BitVec 6)
  /-- CPY_S2G (R306). Appends a team-local-to-global element to the open batch. -/
  | cpyS2g (c : Bool) (z : BitVec 2) (d : BitVec 6) (a : BitVec 7)
  /-- CPY_G2G (R306). Appends a global-to-global element to the open batch. -/
  | cpyG2g (c : Bool) (z : BitVec 2) (d a : BitVec 6)
  /-- CPY_S2S (R306). Appends a cluster-remote element to the open batch. -/
  | cpyS2s (c : Bool) (z : BitVec 2) (d a : BitVec 7)
  /-- CPY_FLAG (R310). Attaches a flag word and value to the open batch. -/
  | cpyFlag (c : Bool) (a b : BitVec 7)
  /-- CPY_COMMIT (R310). Closes the open batch with a scope and writes a pending handle. -/
  | cpyCommit (c : Bool) (d : BitVec 7) (sc : BitVec 3)
  /-- HTEST (R312). Sets a predicate to whether a handle has resolved. -/
  | htest (c : Bool) (d : BitVec 3) (a : BitVec 7)
  /-- HCANCEL (R313). Requests cancellation of the operation a handle names. -/
  | hcancel (c : Bool) (a : BitVec 7)
  /-- HWAIT (R312). Waits until a handle resolves, consuming it as an acquire. -/
  | hwait (c : Bool) (a : BitVec 7)
  /-- CNTRD (R312). Reads the thread's four outstanding counters. -/
  | cntrd (c : Bool) (d : BitVec 7)
  /-- WAITC (R315). Waits until each outstanding counter is at or below its field. -/
  | waitc (c : Bool) (l sc k t : BitVec 6)
  /-- MX_ISSUE (R344). Checks a parameter block and queues a press operation, writing a pending handle. -/
  | mxIssue (c : Bool) (d a : BitVec 7)
  /-- MX_READY (R329). Publishes the thread's B tiles for quad mode and writes a handle. -/
  | mxReady (c : Bool) (d : BitVec 7) (a : BitVec 4) (q : BitVec 1)
  /-- MX_CANCEL (R343). Cancels every unresolved MX.ISSUE operation of the group. -/
  | mxCancel (c : Bool)
  /-- MX_QUIESCE (R343). Holds the thread until every earlier entry of its team has resolved. -/
  | mxQuiesce (c : Bool)
  /-- PL_ZERO (R343). Queues zeroing of a plate with a format. -/
  | plZero (c : Bool) (a : BitVec 7) (f : BitVec 1)
  /-- PL_CLAIM (R346). Claims a plate with an invalid tag for the context, level and entry. -/
  | plClaim (c : Bool) (a : BitVec 7) (l : BitVec 1)
  /-- PL_FREE (R343). Queues invalidating a plate's owner tag and discarding it. -/
  | plFree (c : Bool) (a : BitVec 7)
  /-- PL_LD (R347). Queues loading a plate from a 4 KiB-aligned global address. -/
  | plLd (c : Bool) (f : BitVec 1) (a : BitVec 7) (b : BitVec 6)
  /-- PL_ST (R347). Queues storing a plate to a 4 KiB-aligned global address. -/
  | plSt (c : Bool) (a : BitVec 7) (b : BitVec 6)
  /-- PL_RD (R347). Reads plate element (HOMELANE, col) into a register. -/
  | plRd (c : Bool) (d a : BitVec 7) (k : BitVec 5)
  /-- PL_WR (R347). Writes a register to plate element (HOMELANE, col). -/
  | plWr (c : Bool) (d a : BitVec 7) (k : BitVec 5)
  /-- PL_SCALE (R348). Queues multiplying every plate element by an F32 scale. -/
  | plScale (c : Bool) (a b : BitVec 7)
  /-- PL_SAVE (R346). Spills a plate owned by another into its owner's spill slot and invalidates the tag. -/
  | plSave (c : Bool) (a : BitVec 7)
  /-- PL_RST (R346). Restores a spilled entry's plate from its spill slot. -/
  | plRst (c : Bool) (a : BitVec 7)
  /-- TLD (R349). Loads 32 team-local bytes into a tile with a format tag. -/
  | tld (c : Bool) (d : BitVec 4) (a : BitVec 7) (f : BitVec 3)
  /-- TST (R349). Stores a tile's 32 bytes to team-local memory. -/
  | tst (c : Bool) (d : BitVec 4) (a : BitVec 7)
  /-- TCVT (R350). Converts the thread's plate row into a packed tile. -/
  | tcvt (c : Bool) (d : BitVec 4) (a : BitVec 7) (h sc : BitVec 1) (r : BitVec 2) (f : BitVec 3)
  /-- TZERO (R349). Writes a tile of zeros in a format. -/
  | tzero (c : Bool) (d : BitVec 4) (f : BitVec 3)
  /-- TTRN (R351). Transposes bytes of tiles across the participating lanes as a collective. -/
  | ttrn (c : Bool) (d a m : BitVec 4)
  /-- PLW_LOOP (R359). Sets the count of a plough loop level. -/
  | plwLoop (c : Bool) (l : BitVec 2) (a : BitVec 7)
  /-- PLW_STRM (R360). Defines a plough stream's size, type, strides and per-lane bases. -/
  | plwStrm (c : Bool) (t z q : BitVec 2) (a : BitVec 6) (b : BitVec 5)
  /-- PLW_GO (R361). Captures the named streams, empties their furrows and starts the plough. -/
  | plwGo (c : Bool) (m : BitVec 4)
  /-- PLW_STOP (R361). Stops address generation, discarding reads in flight. -/
  | plwStop (c : Bool)
  /-- QPOP (R362). Removes the head entry of the lane's furrow into a register. -/
  | qpop (c : Bool) (d : BitVec 7) (n : BitVec 2)
  /-- QPEEK (R362). Reads the head entry of the lane's furrow without removing it. -/
  | qpeek (c : Bool) (d : BitVec 7) (n : BitVec 2)
  /-- QLEN (R362). Reads the lane's furrow length and status without blocking. -/
  | qlen (c : Bool) (d : BitVec 7) (n : BitVec 2)
  /-- PLW_STAT (R363). Reads the plough context's state. -/
  | plwStat (c : Bool) (d : BitVec 7)
  /-- LAUNCH (R197). Appends a launch record to a queue and writes a pending handle. -/
  | launch (c : Bool) (d : BitVec 7) (a b : BitVec 6)
  /-- QPUSH (R197). Appends a launch record to a queue and writes a status. -/
  | qpush (c : Bool) (d : BitVec 7) (a b : BitVec 6)
  /-- KSTAT (R199). Reads the steward's snapshot of a launch. -/
  | kstat (c : Bool) (d a : BitVec 6)
  /-- QSTAT (R199). Reads the steward's snapshot of a queue. -/
  | qstat (c : Bool) (d : BitVec 7) (a : BitVec 6)
  /-- SRD (R430). Reads a status word into a register or pair. -/
  | srd (c : Bool) (d : BitVec 7) (imm : BitVec 9)
  /-- SWR (R430). Writes a register or pair to a status word. -/
  | swr (c : Bool) (d : BitVec 7) (imm : BitVec 9)
  /-- TRET (R432). Returns from a trap to TRAPPC at the level in TRAPCAUSE, or from an emulation routine. -/
  | tret (c : Bool)
  /-- ECALL (R433). Calls the supervisor from user level or firmware from supervisor level. -/
  | ecall (c : Bool) (d : BitVec 7) (imm : BitVec 9)
  /-- CTX_STOP (R393). Posts a stop of a context; its cores halt issue and become quiescent. -/
  | ctxStop (c : Bool) (d : BitVec 7)
  /-- CTX_SAVE (R397). Posts a save of a context into its save area. -/
  | ctxSave (c : Bool) (d : BitVec 7)
  /-- CTX_RST (R410). Posts a resume of a context, optionally from a checkpoint. -/
  | ctxRst (c : Bool) (d : BitVec 6) (f : BitVec 1)
  /-- PREEMPT (R405). Posts a spatial pre-emption of n cores of a context. -/
  | preempt (c : Bool) (d : BitVec 5) (imm : BitVec 9)
  /-- CKPT_MARK (R417). Posts a full or incremental checkpoint mark. -/
  | ckptMark (c : Bool) (d : BitVec 7) (f : BitVec 1)
  /-- CKPT_STAT (R420). Reads the state of a checkpoint by sequence number. -/
  | ckptStat (c : Bool) (d : BitVec 6)
  /-- PATCH_LOAD (R473). Posts a load of a signed stencil image into a slot. -/
  | patchLoad (c : Bool) (d : BitVec 6) (sc : BitVec 4)
  /-- PATCH_ARM (R474). Posts arming of a loaded stencil slot. -/
  | patchArm (c : Bool) (sc : BitVec 4)
  /-- PATCH_DISARM (R474). Posts disarming of an armed stencil slot, which then drains. -/
  | patchDisarm (c : Bool) (sc : BitVec 4)
  /-- PATCH_QRY (R465). Reads a stencil slot's status word. -/
  | patchQry (c : Bool) (d : BitVec 7) (sc : BitVec 4)
  /-- PSTATE_SET (R479). Posts a P-state change for a set of field dies. -/
  | pstateSet (c : Bool) (d : BitVec 7) (p : BitVec 3)
  /-- PARK (R480). Posts parking of a set of empty running field dies. -/
  | park (c : Bool) (d : BitVec 7)
  /-- UNPARK (R481). Posts waking of a set of parked field dies. -/
  | unpark (c : Bool) (d : BitVec 7)
  /-- ERRQ_SET (R436). Sets or disables the context's error queue base and length. -/
  | errqSet (c : Bool) (d : BitVec 6) (l : BitVec 5)
  /-- TLB_INV (R386). Invalidates translations of an address or the whole context as a device-scope release. -/
  | tlbInv (c : Bool) (d : BitVec 6) (w : BitVec 1)
  /-- FENCE_TLB (R386). Waits until no agent uses an invalidated translation. -/
  | fenceTlb (c : Bool)
  /-- ISSUE_GROUP (R135). Each core cycle the gleaner of a croft picks a pen and issues the chain at its PC for at most one ready thread per home lane. -/
  | issueGroup (croft : Nat)
  /-- PEN_STARVED (R141). A pen whose fairness counter reaches FAIRLIM becomes starved and is chosen first by the gleaner. -/
  | penStarved (croft pen : Nat)
  /-- PAUSE_EXPIRY (R155). A paused thread's pause count runs out and its paused flag lapses. -/
  | pauseExpiry (th : Nat)
  /-- YIELD_END (R155). A yielding thread's flag lapses once the other ready pens have issued or FAIRLIM core cycles pass. -/
  | yieldEnd (th : Nat)
  /-- TICK (R28). The fabric timer's accumulator reaches or passes a multiple of 128 and a tick reaches every core, raising each CLK by 1. -/
  | tick
  /-- REBASE_SWEEP (R271). When a core's CLK passes B + 2^23 the sweep sets B' = B + 2^22, flips the generation, raises clocks and rewrites stored times. -/
  | rebaseSweep
  /-- REBASE_SWEEP_COMPLETE (R271). The rebase sweep finishes rewriting stored times and accesses that waited for it proceed. -/
  | rebaseSweepComplete
  /-- LOAD_DATA_RETURN (R240). Load, typed-load, acquire or atomic data returns and is written to its pending destination registers through the scoreboard. -/
  | loadDataReturn (acc : Nat)
  /-- RENEW_REQUEST (R257). The home slice serves a lease renewal, recalling other owners, granting rts = max(CLK, wts) + LEASELEN and replying with lease or data. -/
  | renewRequest (acc : Nat)
  /-- RENEW_REPLY (R257). A renewal reply reaches the core, which makes ClockAdvance(h.wts) and updates its L1 copy's times and data. -/
  | renewReply (acc : Nat)
  /-- HOME_STORE (R258). A posted store is established at its home slice with t = max(CLK, rts + 1), waking lookout watchers and replying to the core. -/
  | homeStore (acc : Nat)
  /-- OWNED_REQUEST (R261). The home grants a line owned to a core after recalling any other owner and back-invalidating the host copy. -/
  | ownedRequest (acc : Nat)
  /-- HOME_ATOMIC (R245). An atomic is performed at the place its scope names, after recalling or downgrading every owned copy elsewhere. -/
  | homeAtomic (acc : Nat)
  /-- RECALL (R263). An owner answers a recall with its dirty words and wts after draining its release list, and the home merges them. -/
  | recallLine (line : Nat)
  /-- PERSISTENT_REQUEST (R276). After 16 refusals an owned request becomes persistent and is served in arrival order among the slice's 64 persistent entries. -/
  | persistentRequest (slice : Nat)
  /-- SLICE_EVICTION (R281). A home slice evicts a line, writing dirty words to DRAM and raising memts to the line's rts. -/
  | sliceEviction (line : Nat)
  /-- HOST_MEM_ACCESS (R280). A host read or write over CXL.mem is served at its home slice as a system-scope access, setting hshare on cacheable reads. -/
  | hostMemAccess (op : BitVec 2) (addr size : Nat) (data : BitVec 64) (cache : Bool)
  /-- BACK_INVALIDATION_RESPONSE (R280). The host's back-invalidation response clears hshare and the held device request and conflict queue are served. -/
  | backInvalidationResponse (line : Nat)
  /-- HOST_SNOOP (R277). A host snoop of a host line is answered by the device slice holding it, as written back with data in flight where they cross. -/
  | hostSnoop (line : Nat) (inval : Bool)
  /-- SURVEYOR_WALK (R371). The die's surveyor walks the three-level table for a TLB miss, joining concurrent misses to one walk and setting A and D. -/
  | surveyorWalk (core ctx va : Nat)
  /-- HOLD_LIMIT_EXPIRY (R372). An access held on a migrating page for HOLDLIM ticks soft-faults. -/
  | holdLimitExpiry (th : Nat)
  /-- PAGE_FAULT_SERVICE (R490). The page-fault service makes a far page near or fills an absent servable page once for all accesses that faulted on it. -/
  | pageFaultService (ctx va : Nat)
  /-- DROVER_COMMAND (R374). The drover takes a command record from the ring to make a page near or far, check it out or return a checkout. -/
  | droverCommand (ctx : Nat)
  /-- MIGRATION (R373). The drover marks a page migrating, shoots down TLBs, recalls lines and copies 64 KiB to the target frame. -/
  | migration (ctx va : Nat)
  /-- MIGRATION_COMPLETE (R373). The drover writes frame and state with a release, releases held accesses and resolves waiting soft-fault handles. -/
  | migrationComplete (ctx va : Nat)
  /-- FAR_PAGE_PROMOTION (R375). A far-direct page's access count reaches 16 x thresh and the drover starts making it near. -/
  | farPagePromotion (ctx va : Nat)
  /-- PAGE_LEASE_END (R383). The last page lease on a demoted read-shared page ends and the waiting write is performed. -/
  | pageLeaseEnd (page : Nat)
  /-- TIME_SYNC_SEND (R447). Every 1,024 ticks the time master sends a time-sync flit on each route. -/
  | timeSyncSend
  /-- TIME_SYNC_RECEIVE (R447). A receiver corrects its DTICK by the measured route delay, never stepping it back. -/
  | timeSyncReceive (dtick : BitVec 48) (delay : Nat)
  /-- SYNC_LOSS_TIMEOUT (R447). A device that receives no sync for 65,536 ticks treats its page leases as ended and grants none. -/
  | syncLossTimeout
  /-- FLIT_RECEIVE (R445). A scale-up flit arrives and is delivered through the reorder buffer in order for ordered flows, discarding duplicates and bad kinds. -/
  | flitReceive (port : Nat) (header : BitVec 64) (payload : BitVec 384) (good : Bool)
  /-- FLIT_REPLAY (R444). A flit whose check code fails is replayed from the sender's replay buffer. -/
  | flitReplay (port : Nat)
  /-- TRAINING_SUCCESS (R448). Port training succeeds and the port becomes up, or degraded at half width or less. -/
  | trainingSuccess (port lanes : Nat)
  /-- TRAINING_TIMEOUT (R448). A port that has not trained within 100 ms goes down and is retried every second. -/
  | trainingTimeout (port : Nat)
  /-- TRAINING_RETRY (R448). A down port's one-second retry timer starts training again. -/
  | trainingRetry (port : Nat)
  /-- LINK_RETRAIN (R448). Eight replays of one flit in a row, or loss of lanes, send an up or degraded port back to training. -/
  | linkRetrain (port : Nat)
  /-- ROUTE_FAILURE (R449). A message lost to a fence is resent on another route, or its request fails as an uncorrectable data error when none remains. -/
  | routeFailure (req : Nat)
  /-- STEWARD_TAKE (R191). The steward sees a link store through the lookout and takes the record with an acquire, writing taken and checking it. -/
  | stewardTake (ctx qix : Nat)
  /-- QUEUE_ENABLE_CHANGE (R192). A write of ctl.enable disables a queue or returns a disabled or faulted queue to idle. -/
  | queueEnableChange (ctx qix : Nat)
  /-- DEPENDENCES_MET (R191). Every after word of a pending launch reads done and the launch becomes ready, or is killed with subcode 11 on a faulted dependence. -/
  | dependencesMet (launch : Nat)
  /-- CLUSTER_PLACEMENT (R195). The steward places one cluster on the least loaded running die's first fitting rectangle, teams taking their initial or saved state. -/
  | clusterPlacement
  /-- TEAM_RETIREMENT (R182). A team whose threads have exited and whose bins and outstanding operations are empty releases its stores at device scope and frees its resources. -/
  | teamRetirement (team : Nat)
  /-- BIN_TIMER_EXPIRY (R151). A spawn bin's BINTIME timer expires and the bin closes to launch. -/
  | binTimerExpiry (core bin : Nat)
  /-- BIN_LAUNCH (R151). A closed spawn bin launches as a fresh group on a croft with room. -/
  | binLaunch (core bin croft : Nat)
  /-- BARRIER_TIMEOUT (R292). TIMEOUT ticks after the earliest waiter began, every waiter of the phase or instance raises BARRIER_TIMEOUT and one error record is written. -/
  | barrierTimeout (th : Nat)
  /-- WAIT_LIMIT_EXPIRY (R297). A word wait's limit passes and it commits with the last value read, without a trap. -/
  | waitLimitExpiry (th : Nat)
  /-- WATCH_FIRE (R298). A write to the armed word, a WAKE, lookout eviction or a save sets a thread's watch slot fired and wakes its wait. -/
  | watchFire (th : Nat)
  /-- CARTER_TRANSFER_UNIT (R309). The carter sends a transfer unit of up to 32 elements whose sources share one line or block. -/
  | carterTransferUnit (unit : Nat)
  /-- COPY_ELEMENT (R308). The carter performs one element as a relaxed read and write, translating it and setting its progress bit. -/
  | copyElement (batch elem : Nat)
  /-- BATCH_RESOLVE (R311). A batch whose elements are performed and whose earlier batches have resolved writes its flag and status word to the registers holding its handle. -/
  | batchResolve (batch : Nat)
  /-- REMAP_WRITE (R318). A late element write or remote atomic reply for a saved team is written through the core's remap entry into the image. -/
  | remapWrite (batch elem : Nat)
  /-- REMAP_TIMEOUT (R318). An element bound for a saved team's team-local memory still in flight 100 us after the save is marked undelivered. -/
  | remapTimeout (team : Nat)
  /-- REMOTE_ATOMIC_REPLY (R246). A remote atomic's reply returns and is written to its destination, or into the image when detached. -/
  | remoteAtomicReply (acc : Nat) (data : BitVec 64)
  /-- ECALL_ANSWER (R433). Firmware's answer to a supervisor ECALL is written to v(d) with tag INT. -/
  | ecallAnswer (acc : Nat) (answer : BitVec 32)
  /-- PRESS_TILE_STEP (R323). The press performs one tile step of an eligible queue in ring order: all remaining K-blocks of one target plate or one queued plate instruction. -/
  | pressTileStep (core blocks : Nat)
  /-- PRESS_ENTRY_RESOLVE (R344). An operation's handle resolves 16 core cycles after its last tile step, resetting kdone in its target plates. -/
  | pressEntryResolve (entry : Nat)
  /-- QUAD_JOIN (R330). A waiting quad MX.ISSUE consumes the four complete publications and checks them. -/
  | quadJoin (th : Nat)
  /-- PLOUGH_ELEMENT_READ (R364). The plough reads one element position for every lane of a stream and delivers it, or a faulted entry, to the furrow. -/
  | ploughElementRead (group stream : Nat)
  /-- CONTEXT_QUIESCENT (R394). Every core holding the context becomes quiescent and the context enters stopped with its clock floor recorded. -/
  | contextQuiescent (ctx : Nat)
  /-- SAVE_COMPLETE (R397). The image is complete, resources are freed with plates left under their tags, and the context becomes saved. -/
  | saveComplete (ctx : Nat)
  /-- PREEMPT_REPORT (R407). Once every team of the vacate set is saved or retired, firmware writes the 64-byte pre-emption report. -/
  | preemptReport (ctx : Nat)
  /-- MOVE_TRANSFER_DONE (R413). The target device accepts the moved image and the source context retires, or the transfer fails and it stays saved. -/
  | moveTransferDone (ctx : Nat) (ok : Bool)
  /-- AUTOMATIC_MARK (R416). CKPTINT ticks after the previous mark's resume, the etcher starts a mark unless one is already staged. -/
  | automaticMark (ctx : Nat)
  /-- MARK_STAGING_COMPLETE (R417). Each core has staged its part, pages are marked copy-on-write and the context resumes running. -/
  | markStagingComplete (ctx : Nat)
  /-- CHECKPOINT_STREAM (R419). The etcher streams staged state and marked pages to the checkpoint area within CKPTRATE, held pages first. -/
  | checkpointStream (ctx : Nat)
  /-- CHECKPOINT_COMPLETE (R419). The last byte of a checkpoint is written and CKPTDONE takes its sequence number, or it fails for lack of room. -/
  | checkpointComplete (ctx : Nat)
  /-- COPY_ON_WRITE_RELEASE (R418). A page held copy-on-write is streamed and the writes held on it proceed. -/
  | copyOnWriteRelease (ctx va : Nat)
  /-- SCRUB (R452). The scrubber reads arrays and memory, rewrites corrected words and poisons uncorrectable ones with one error record. -/
  | scrub (array index : Nat) (bad : Bool)
  /-- UNCORRECTABLE (R454). A thread that consumed poison takes UNCORRECTABLE within 256 chains, or at once if it is waiting. -/
  | uncorrectable (th : Nat)
  /-- COMMITTED_EARLY (R459). A recall, overflow, wide release or other listed event commits the open interval early and releases its held words. -/
  | committedEarly (team : Nat)
  /-- ROLLBACK (R460). An error in a clean interval restores the team's shadowed state and resumes every thread at the interval's opening. -/
  | rollback (team : Nat)
  /-- HEARTBEAT_LOSS (R461). A field die's firmware heartbeat is missing for 1 ms and the die is fenced. -/
  | heartbeatLoss (die : Nat)
  /-- DIE_FENCE (R461). A field die is fenced: neighbours stop their ports and every context spanning it is killed. -/
  | dieFence (die : Nat)
  /-- BARN_DIE_FENCE (R462). A barn die is fenced, its ports fence, standbys take over, and a second fence puts the device in the safe state. -/
  | barnDieFence (barn : Nat)
  /-- REEVE_SHARE (R476). Every 16 us the reeve shares PWRCEIL among the dies, HBM stacks and links. -/
  | reeveShare (avg : BitVec 11) (share0 share1 share2 share3 : Nat)
  /-- PSTATE_TRANSITION (R478). A field die's voltage and frequency move to the requested P-state completes. -/
  | pstateTransition (die : Nat)
  /-- PARK_COMPLETE (R480). A park empties L1s and L2 dirty words, spills owned plates, gates arrays and the die enters parked. -/
  | parkComplete (die : Nat)
  /-- WAKE_COMPLETE (R481). An unparked die finishes waking and returns to running with zeroed arrays and invalid plate tags. -/
  | wakeComplete (die : Nat)
  /-- BANK_READY (R481). A waking bank reports ready and stalled accesses to it proceed. -/
  | bankReady (die bank : Nat)
  /-- POWER_ON_SELF_TEST (R483). At reset the management cores test every unit and the device comes up at P5 or enters the safe state. -/
  | powerOnSelfTest (failed : BitVec 32) (hostLanes : Nat)
  /-- PATCH_LOAD_COMPLETE (R473). A stencil image load finishes its checks and the slot becomes loaded, or failed with its reason and error records. -/
  | patchLoadComplete (slot : Nat)
  /-- PATCH_ARM_COMPLETE (R474). Every croft and fault path applies the slot and PSLOT reads armed. -/
  | patchArmComplete (slot : Nat)
  /-- DRAIN_COMPLETE (R474). A draining slot has no thread in its routine and no rewritten chain undispatched, and returns to loaded. -/
  | drainComplete (slot : Nat)
  /-- REGISTER_WRITE (R9). A write to a register field without behaviour of its own, by access type, including W1C clears. -/
  | registerWrite (offset : Nat) (value : BitVec 32)
  /-- PWRCEIL_WRITE (R475). A write of PWRCEIL is clamped to 250-1,000 W and takes effect at the next 16 us share. -/
  | pwrceilWrite (value : BitVec 32)
  /-- SPLIT_WRITE (R482). A write of SPLIT changes each function between hardware and host-assisted mode for later requests. -/
  | splitWrite (value : BitVec 32)
  /-- DISCOVERY (R442). Mailbox command 0x01 returns the count and key-value pairs of the discovery keys. -/
  | discovery
  /-- SELF_TEST_REPORT (R484). Mailbox command 0x02 writes the self-test report to MBBUF. -/
  | selfTestReport
  /-- MEMORY_REPORT (R442). Mailbox command 0x03 returns populated expander bytes and the local-copy region. -/
  | memoryReport
  /-- STOP_COMMAND (R491). Mailbox command 0x10 posts a stop request for a context. -/
  | stopCommand
  /-- SAVE_COMMAND (R491). Mailbox command 0x11 posts a save request for a context. -/
  | saveCommand
  /-- RESUME_COMMAND (R491). Mailbox command 0x12 posts a resume request, optionally naming a checkpoint. -/
  | resumeCommand
  /-- PRE_EMPT_COMMAND (R491). Mailbox command 0x13 posts a pre-empt request for n cores with a report address. -/
  | preEmptCommand
  /-- MOVE (R413). Mailbox command 0x14 moves a saved context's image to a target device. -/
  | move
  /-- KILL (R414). Mailbox command 0x15, or error escalation, kills a context at once without a save. -/
  | kill
  /-- RELEASE (R392). Mailbox command 0x16 retires a context with nothing pending, freeing its number and save area. -/
  | release
  /-- CONTEXT_STATUS (R442). Mailbox command 0x17 returns CTXSTATE and CTXRES of a context. -/
  | contextStatus
  /-- CREATE_CONTEXT (R443). Mailbox command 0x18 numbers a new context, sets its base words and optionally loads a first code object. -/
  | createContext
  /-- LOAD_CODE_OBJECT (R443). Mailbox command 0x19 loads a code object into a context and returns its code and data bases. -/
  | loadCodeObject
  /-- SET_ALLOWED_CORE_SET (R443). Mailbox command 0x1A replaces a context's allowed core set for later placements. -/
  | setAllowedCoreSet
  /-- WRITE_A_CONTEXT_CONTROL_WORD (R443). Mailbox command 0x1B writes a per-context status word as firmware-level SWR. -/
  | writeAContextControlWord
  /-- VERIFY_STENCIL_IMAGE (R473). Mailbox command 0x20 carries the host's verdict on a stencil image in host-assisted mode. -/
  | verifyStencilImage
  /-- ENROL_OPERATOR_KEY (R492). Mailbox command 0x21 enrols a vendor-signed operator key into index 1 to 4. -/
  | enrolOperatorKey
  /-- KEY_STATUS (R492). Mailbox command 0x22 reports which operator keys are enrolled. -/
  | keyStatus
  /-- PORT_STATUS (R448). Mailbox command 0x30 returns a port's state, width, replay and drop counts. -/
  | portStatus
  /-- FENCE_SCALE_UP_PORT (R448). Mailbox command 0x31 fences a scale-up port, discarding its replay buffer. -/
  | fenceScaleUpPort
  /-- UNFENCE_SCALE_UP_PORT (R448). Mailbox command 0x32 returns a fenced scale-up port to down. -/
  | unfenceScaleUpPort
  /-- DOMAIN_CONFIGURATION (R443). Mailbox command 0x40 sets the device's domain number and names the time master. -/
  | domainConfiguration
  /-- VERIFY_TIMEOUT (R473). In host-assisted mode a stencil image whose host verdict has not arrived within 100 ms is refused with reason 3 and the slot becomes failed. -/
  | verifyTimeout (slot : Nat)
  /-- TRIAGE_TIMEOUT (R482). With error triage host-assisted, a die fence that has waited 1 ms for a host verdict proceeds without it. -/
  | triageTimeout (die : Nat)
  /-- UNKNOWN_MAILBOX_COMMAND (R442). A go written to MBDOOR with an unknown command code fails the mailbox command with reason 1. -/
  | unknownMailboxCommand
  /-- STANDBY_FAILURE (R462). The failure of a reeve or steward standby that is in use puts the device in the safe state with every context killed. -/
  | standbyFailure
deriving DecidableEq, Repr

end Sys2Proof
end

