-- ==== Sys2Proof/Decode.lean ====
section
/-! DEFINITION. Decoding an instruction word and encoding an instruction, from the forms and the opcode map of
03 R43 to R53. A word that is not an instruction is refused with the ILLEGAL_OPCODE subcode of R53, the lowest one
that applies; the chain and placement rules of R38 and R49 are judged on whole packets, in Machine/Fetch.lean. -/

namespace Sys2Proof

/-- Width of a status word in bits, 32 or 64, at each address that 08 R180, 18 R389, 19 R429, 22 R465 and R470
define; `none` for a reserved address, whose SRD and SWR raise ILLEGAL_OPCODE. -/
def statusWidth (addr : Nat) : Option Nat :=
  if addr ≤ 0x00B then some 32
  else if addr == 0x010 || addr == 0x011 || addr == 0x020 || addr == 0x022 then some 64
  else if addr == 0x012 || addr == 0x021 then some 32
  else if addr == 0x100 || addr == 0x102 || addr == 0x110 then some 64
  else if 0x101 ≤ addr && addr ≤ 0x106 then some 32
  else if addr == 0x111 || addr == 0x130 || addr == 0x138 || addr == 0x139 then some 32
  else if addr == 0x140 then some 64
  else if addr == 0x141 || addr == 0x150 || addr == 0x151 then some 32
  else if addr == 0x160 || addr == 0x164 || addr == 0x167 then some 64
  else if 0x161 ≤ addr && addr ≤ 0x169 then some 32
  else if 0x170 ≤ addr && addr ≤ 0x172 then some 32
  else if 0x180 ≤ addr && addr ≤ 0x182 then some 32
  else if addr == 0x183 || addr == 0x184 || addr == 0x18A || addr == 0x18B then some 64
  else if addr == 0x188 || addr == 0x189 || addr == 0x18C || addr == 0x18D then some 32
  else if 0x1C0 ≤ addr && addr ≤ 0x1D0 then some 32
  else if addr == 0x1E0 || addr == 0x1E1 then some 64
  else if addr == 0x1E2 || addr == 0x1E3 then some 32
  else none

/-- What a CVT selector allows in `fn` (06 R124): the rounding and saturate bits, the rounding bits alone, or
neither; `none` for a selector the table does not list. -/
inductive CvtFn where
  | roundSat | round | fixed
deriving DecidableEq, Repr

/-- The conversion selectors of 06 R124. -/
def cvtSelector (b : Nat) : Option CvtFn :=
  if b ≤ 0x03 || b == 0x08 || b == 0x09 || b == 0x13 then some .round
  else if 0x10 ≤ b && b ≤ 0x12 then some .roundSat
  else if 0x20 ≤ b && b ≤ 0x29 then some .fixed
  else none

/-- An M-form size that a store may not have (03 R48). -/
def storeSizeBad (z : BitVec 3) : Bool := z == 1 || z == 3 || z == 7

/-- A data register that an M-form size leaves misaligned: an odd pair or a quad not a multiple of four (03 R45,
R48). -/
def dataMisaligned (z : BitVec 3) (d : BitVec 7) : Bool :=
  (z == 5 && d.toNat % 2 != 0) || (z == 6 && d.toNat % 4 != 0)

/-- Odd register under the 64-bit width of form A (03 R47). -/
def pairOdd (w : BitVec 1) (r : BitVec 5) : Bool := w == 1 && r.toNat % 2 != 0

/-- Scope codes 6 and 7 (03 R47). -/
def scopeBad (sc : BitVec 3) : Bool := 6 ≤ sc.toNat

/-- A reserved field value of the instruction (03 R52, ILLEGAL_OPCODE subcode 3). -/
def reservedValue : Instr → Bool
  | .ld _ _ _ z _ _ _ => z == 7
  | .st _ _ _ z _ _ _ => storeSizeBad z
  | .lds _ _ t z _ _ _ => t == 3 || z == 7
  | .sts _ _ t z _ _ _ => t == 3 || storeSizeBad z
  | .atomAdd _ _ _ _ sc _ _ _ => scopeBad sc
  | .atomMinS32 _ _ _ _ sc _ _ _ => scopeBad sc
  | .atomMaxS32 _ _ _ _ sc _ _ _ => scopeBad sc
  | .atomMinN32 _ _ _ _ sc _ _ _ => scopeBad sc
  | .atomMaxN32 _ _ _ _ sc _ _ _ => scopeBad sc
  | .atomAnd _ _ _ _ sc _ _ _ => scopeBad sc
  | .atomOr _ _ _ _ sc _ _ _ => scopeBad sc
  | .atomXor _ _ _ _ sc _ _ _ => scopeBad sc
  | .atomxXchg _ _ _ _ sc _ _ _ => scopeBad sc
  | .atomxCas _ _ _ _ sc _ _ _ => scopeBad sc
  | .atomxIncw _ _ _ _ sc _ _ _ => scopeBad sc
  | .atomxDecw _ _ _ _ sc _ _ _ => scopeBad sc
  | .atomxFaddF32 _ _ _ sc _ _ _ => scopeBad sc
  | .atomxFminF32 _ _ _ sc _ _ _ => scopeBad sc
  | .atomxFmaxF32 _ _ _ sc _ _ _ => scopeBad sc
  | .lda _ _ _ sc _ _ => scopeBad sc
  | .stl _ _ _ sc _ _ => scopeBad sc
  | .fence _ _ r sc => r == 0 || scopeBad sc
  | .fenceSc _ _ sc => scopeBad sc
  | .ldap _ _ _ sc _ _ => scopeBad sc
  | .atomp _ _ _ _ sc _ _ _ => scopeBad sc
  | .brm _ _ f _ _ _ _ => f == 3
  | .pref _ _ _ h => h == 3
  | .cpyG2s _ z _ _ => z == 3
  | .cpyS2g _ z _ _ => z == 3
  | .cpyG2g _ z _ _ => z == 3
  | .cpyS2s _ z _ _ => z == 3
  | .cpyCommit _ _ sc => scopeBad sc
  | .tcvt _ _ _ _ _ _ f => f == 0 || f == 7
  | .tzero _ _ f => f == 7
  | .mxReady _ _ a q => 16 < a.toNat + (if q == 1 then 8 else 4)
  | .plwStrm _ _ z _ _ _ => z == 3
  | .srd _ _ imm => (statusWidth imm.toNat).isNone
  | .swr _ _ imm => (statusWidth imm.toNat).isNone
  | .preempt _ _ imm => imm.toNat < 1 || 160 < imm.toNat
  | .pstateSet _ _ p => 5 < p.toNat
  | .errqSet _ _ l => !(l == 0 || (4 ≤ l.toNat && l.toNat ≤ 16))
  | _ => false

/-- A register field that the instruction's own width leaves misaligned (03 R45, R47, R48, 08 R180; subcode 5).
Fields that are pairs, quads or tiles whatever the width hold their number halved, quartered or in eighths. -/
def misaligned : Instr → Bool
  | .ld _ _ _ z d _ _ => dataMisaligned z d
  | .st _ _ _ z d _ _ => dataMisaligned z d
  | .lds _ _ _ z d _ _ => dataMisaligned z d
  | .sts _ _ _ z d _ _ => dataMisaligned z d
  | .atomAdd _ _ w _ _ d _ b => pairOdd w d || pairOdd w b
  | .atomMinS32 _ _ w _ _ d _ b => pairOdd w d || pairOdd w b
  | .atomMaxS32 _ _ w _ _ d _ b => pairOdd w d || pairOdd w b
  | .atomMinN32 _ _ w _ _ d _ b => pairOdd w d || pairOdd w b
  | .atomMaxN32 _ _ w _ _ d _ b => pairOdd w d || pairOdd w b
  | .atomAnd _ _ w _ _ d _ b => pairOdd w d || pairOdd w b
  | .atomOr _ _ w _ _ d _ b => pairOdd w d || pairOdd w b
  | .atomXor _ _ w _ _ d _ b => pairOdd w d || pairOdd w b
  | .atomxXchg _ _ w _ _ d _ b => pairOdd w d || pairOdd w b
  | .atomxCas _ _ w _ _ d _ b =>
      pairOdd w d || b.toNat % 2 != 0 || (w == 1 && b.toNat % 4 != 0)
  | .atomxIncw _ _ w _ _ d _ b => pairOdd w d || pairOdd w b
  | .atomxDecw _ _ w _ _ d _ b => pairOdd w d || pairOdd w b
  | .atomp _ _ w _ _ d _ b => pairOdd w d || pairOdd w b
  | .lda _ _ w _ d _ => pairOdd w d
  | .ldap _ _ w _ d _ => pairOdd w d
  | .stl _ _ w _ _ b => pairOdd w b
  | .srd _ d imm => statusWidth imm.toNat == some 64 && d.toNat % 2 != 0
  | .swr _ d imm => statusWidth imm.toNat == some 64 && d.toNat % 2 != 0
  | _ => false

/-- A field part that the instruction leaves unused and that is not zero (03 R46; subcode 6): CVT's fn under 06
R125, TCVT's h and sat under 15 R350, and a B header's pairs beyond its count under 07 R146. -/
def unusedNonzero : Instr → Bool
  | .cvt _ _ sc r _ _ b =>
    match cvtSelector b.toNat with
    | some .roundSat => false
    | some .round => sc == 1
    | some .fixed => sc == 1 || r != 0
    | none => false
  | .tcvt _ _ _ h sc _ f => (h == 1 && f != 1) || (sc == 1 && 4 ≤ f.toNat)
  | .tlbInv _ d w => w == 1 && d != 0
  | .brm _ n _ _ x y z => (n.toNat < 1 && x != 0) || (n.toNat < 2 && y != 0) || (n.toNat < 3 && z != 0)
  | _ => false

/-- The checks of 03 R52 on a word whose major and fn name an instruction, in the order of their subcodes. -/
def checked (i : Instr) (resOk uOk alignOk zeroOk : Bool) : Except Nat Instr :=
  if !resOk || reservedValue i then .error 3
  else if !uOk then .error 4
  else if !alignOk || misaligned i then .error 5
  else if !zeroOk || unusedNonzero i then .error 6
  else .ok i

/-- Words of major 0x01 (03 R50). -/
noncomputable def decodeMajor01 (w : Nat) : Except Nat Instr :=
  match fieldNat w 21 3 with
  | 0x0 =>
    checked (.iadd (bitAt w 31) (bitAt w 30) (fieldBits w 14 7) (fieldBits w 7 7) (fieldBits w 0 7))
      (true) (true)
      (true) (true)
  | 0x1 =>
    checked (.isub (bitAt w 31) (bitAt w 30) (fieldBits w 14 7) (fieldBits w 7 7) (fieldBits w 0 7))
      (true) (true)
      (true) (true)
  | 0x2 =>
    checked (.iminS32 (bitAt w 31) (bitAt w 30) (fieldBits w 14 7) (fieldBits w 7 7) (fieldBits w 0 7))
      (true) (true)
      (true) (true)
  | 0x3 =>
    checked (.imaxS32 (bitAt w 31) (bitAt w 30) (fieldBits w 14 7) (fieldBits w 7 7) (fieldBits w 0 7))
      (true) (true)
      (true) (true)
  | 0x4 =>
    checked (.iminN32 (bitAt w 31) (bitAt w 30) (fieldBits w 14 7) (fieldBits w 7 7) (fieldBits w 0 7))
      (true) (true)
      (true) (true)
  | 0x5 =>
    checked (.imaxN32 (bitAt w 31) (bitAt w 30) (fieldBits w 14 7) (fieldBits w 7 7) (fieldBits w 0 7))
      (true) (true)
      (true) (true)
  | 0x6 =>
    checked (.iabsd (bitAt w 31) (bitAt w 30) (fieldBits w 14 7) (fieldBits w 7 7) (fieldBits w 0 7))
      (true) (true)
      (true) (true)
  | 0x7 =>
    checked (.ineg (bitAt w 31) (bitAt w 30) (fieldBits w 14 7) (fieldBits w 7 7))
      (true) (true)
      (true) (fieldNat w 0 7 == 0)
  | _ => .error 2

/-- Words of major 0x02 (03 R50). -/
noncomputable def decodeMajor02 (w : Nat) : Except Nat Instr :=
  match fieldNat w 21 3 with
  | 0x0 =>
    checked (.imul (bitAt w 31) (bitAt w 30) (fieldBits w 14 7) (fieldBits w 7 7) (fieldBits w 0 7))
      (true) (true)
      (true) (true)
  | 0x1 =>
    checked (.imulhS32 (bitAt w 31) (bitAt w 30) (fieldBits w 14 7) (fieldBits w 7 7) (fieldBits w 0 7))
      (true) (true)
      (true) (true)
  | 0x2 =>
    checked (.imulhN32 (bitAt w 31) (bitAt w 30) (fieldBits w 14 7) (fieldBits w 7 7) (fieldBits w 0 7))
      (true) (true)
      (true) (true)
  | 0x3 =>
    checked (.imad (bitAt w 31) (bitAt w 30) (fieldBits w 14 7) (fieldBits w 7 7) (fieldBits w 0 7))
      (true) (true)
      (true) (true)
  | 0x4 =>
    checked (.idivS32 (bitAt w 31) (bitAt w 30) (fieldBits w 14 7) (fieldBits w 7 7) (fieldBits w 0 7))
      (true) (true)
      (true) (true)
  | 0x5 =>
    checked (.idivN32 (bitAt w 31) (bitAt w 30) (fieldBits w 14 7) (fieldBits w 7 7) (fieldBits w 0 7))
      (true) (true)
      (true) (true)
  | 0x6 =>
    checked (.iremS32 (bitAt w 31) (bitAt w 30) (fieldBits w 14 7) (fieldBits w 7 7) (fieldBits w 0 7))
      (true) (true)
      (true) (true)
  | 0x7 =>
    checked (.iremN32 (bitAt w 31) (bitAt w 30) (fieldBits w 14 7) (fieldBits w 7 7) (fieldBits w 0 7))
      (true) (true)
      (true) (true)
  | _ => .error 2

/-- Words of major 0x03 (03 R50). -/
noncomputable def decodeMajor03 (w : Nat) : Except Nat Instr :=
  match fieldNat w 21 3 with
  | 0x0 =>
    checked (.iaddD (bitAt w 31) (bitAt w 30) (fieldBits w 15 6) (fieldBits w 8 6) (fieldBits w 1 6))
      (true) (true)
      (fieldNat w 0 1 == 0 && fieldNat w 7 1 == 0 && fieldNat w 14 1 == 0) (true)
  | 0x1 =>
    checked (.isubD (bitAt w 31) (bitAt w 30) (fieldBits w 15 6) (fieldBits w 8 6) (fieldBits w 1 6))
      (true) (true)
      (fieldNat w 0 1 == 0 && fieldNat w 7 1 == 0 && fieldNat w 14 1 == 0) (true)
  | 0x2 =>
    checked (.imulD (bitAt w 31) (bitAt w 30) (fieldBits w 15 6) (fieldBits w 8 6) (fieldBits w 1 6))
      (true) (true)
      (fieldNat w 0 1 == 0 && fieldNat w 7 1 == 0 && fieldNat w 14 1 == 0) (true)
  | 0x3 =>
    checked (.imadwS32 (bitAt w 31) (bitAt w 30) (fieldBits w 15 6) (fieldBits w 7 7) (fieldBits w 0 7))
      (true) (true)
      (fieldNat w 14 1 == 0) (true)
  | 0x4 =>
    checked (.imadwN32 (bitAt w 31) (bitAt w 30) (fieldBits w 15 6) (fieldBits w 7 7) (fieldBits w 0 7))
      (true) (true)
      (fieldNat w 14 1 == 0) (true)
  | 0x5 =>
    checked (.shlD (bitAt w 31) (bitAt w 30) (fieldBits w 15 6) (fieldBits w 8 6) (fieldBits w 0 7))
      (true) (true)
      (fieldNat w 7 1 == 0 && fieldNat w 14 1 == 0) (true)
  | 0x6 =>
    checked (.shrD (bitAt w 31) (bitAt w 30) (fieldBits w 15 6) (fieldBits w 8 6) (fieldBits w 0 7))
      (true) (true)
      (fieldNat w 7 1 == 0 && fieldNat w 14 1 == 0) (true)
  | 0x7 =>
    checked (.sarD (bitAt w 31) (bitAt w 30) (fieldBits w 15 6) (fieldBits w 8 6) (fieldBits w 0 7))
      (true) (true)
      (fieldNat w 7 1 == 0 && fieldNat w 14 1 == 0) (true)
  | _ => .error 2

/-- Words of major 0x04 (03 R50). -/
noncomputable def decodeMajor04 (w : Nat) : Except Nat Instr :=
  match fieldNat w 21 3 with
  | 0x0 =>
    checked (.and (bitAt w 31) (bitAt w 30) (fieldBits w 14 7) (fieldBits w 7 7) (fieldBits w 0 7))
      (true) (true)
      (true) (true)
  | 0x1 =>
    checked (.or (bitAt w 31) (bitAt w 30) (fieldBits w 14 7) (fieldBits w 7 7) (fieldBits w 0 7))
      (true) (true)
      (true) (true)
  | 0x2 =>
    checked (.xor (bitAt w 31) (bitAt w 30) (fieldBits w 14 7) (fieldBits w 7 7) (fieldBits w 0 7))
      (true) (true)
      (true) (true)
  | 0x3 =>
    checked (.andn (bitAt w 31) (bitAt w 30) (fieldBits w 14 7) (fieldBits w 7 7) (fieldBits w 0 7))
      (true) (true)
      (true) (true)
  | 0x4 =>
    checked (.orn (bitAt w 31) (bitAt w 30) (fieldBits w 14 7) (fieldBits w 7 7) (fieldBits w 0 7))
      (true) (true)
      (true) (true)
  | 0x5 =>
    checked (.xnor (bitAt w 31) (bitAt w 30) (fieldBits w 14 7) (fieldBits w 7 7) (fieldBits w 0 7))
      (true) (true)
      (true) (true)
  | 0x6 =>
    checked (.not (bitAt w 31) (bitAt w 30) (fieldBits w 14 7) (fieldBits w 7 7))
      (true) (true)
      (true) (fieldNat w 0 7 == 0)
  | 0x7 =>
    checked (.mov (bitAt w 31) (bitAt w 30) (fieldBits w 14 7) (fieldBits w 7 7))
      (true) (true)
      (true) (fieldNat w 0 7 == 0)
  | _ => .error 2

/-- Words of major 0x05 (03 R50). -/
noncomputable def decodeMajor05 (w : Nat) : Except Nat Instr :=
  match fieldNat w 21 3 with
  | 0x0 =>
    checked (.shl (bitAt w 31) (bitAt w 30) (fieldBits w 14 7) (fieldBits w 7 7) (fieldBits w 0 7))
      (true) (true)
      (true) (true)
  | 0x1 =>
    checked (.shr (bitAt w 31) (bitAt w 30) (fieldBits w 14 7) (fieldBits w 7 7) (fieldBits w 0 7))
      (true) (true)
      (true) (true)
  | 0x2 =>
    checked (.sar (bitAt w 31) (bitAt w 30) (fieldBits w 14 7) (fieldBits w 7 7) (fieldBits w 0 7))
      (true) (true)
      (true) (true)
  | 0x3 =>
    checked (.rotl (bitAt w 31) (bitAt w 30) (fieldBits w 14 7) (fieldBits w 7 7) (fieldBits w 0 7))
      (true) (true)
      (true) (true)
  | 0x4 =>
    checked (.popc (bitAt w 31) (bitAt w 30) (fieldBits w 14 7) (fieldBits w 7 7))
      (true) (true)
      (true) (fieldNat w 0 7 == 0)
  | 0x5 =>
    checked (.clz (bitAt w 31) (bitAt w 30) (fieldBits w 14 7) (fieldBits w 7 7))
      (true) (true)
      (true) (fieldNat w 0 7 == 0)
  | 0x6 =>
    checked (.brev (bitAt w 31) (bitAt w 30) (fieldBits w 14 7) (fieldBits w 7 7))
      (true) (true)
      (true) (fieldNat w 0 7 == 0)
  | 0x7 =>
    checked (.ffs (bitAt w 31) (bitAt w 30) (fieldBits w 14 7) (fieldBits w 7 7))
      (true) (true)
      (true) (fieldNat w 0 7 == 0)
  | _ => .error 2

/-- Words of major 0x06 (03 R50). -/
noncomputable def decodeMajor06 (w : Nat) : Except Nat Instr :=
  match fieldNat w 21 3 with
  | 0x0 =>
    checked (.bfxS32 (bitAt w 31) (bitAt w 30) (fieldBits w 14 7) (fieldBits w 7 7) (fieldBits w 0 7))
      (true) (true)
      (true) (true)
  | 0x1 =>
    checked (.bfxN32 (bitAt w 31) (bitAt w 30) (fieldBits w 14 7) (fieldBits w 7 7) (fieldBits w 0 7))
      (true) (true)
      (true) (true)
  | 0x2 =>
    checked (.bfi (bitAt w 31) (bitAt w 30) (fieldBits w 14 7) (fieldBits w 7 7) (fieldBits w 0 7))
      (true) (true)
      (true) (true)
  | 0x3 =>
    checked (.perm (bitAt w 31) (bitAt w 30) (fieldBits w 14 7) (fieldBits w 7 7) (fieldBits w 0 7))
      (true) (true)
      (true) (true)
  | 0x4 =>
    checked (.shf (bitAt w 31) (bitAt w 30) (fieldBits w 14 7) (fieldBits w 7 7) (fieldBits w 0 7))
      (true) (true)
      (true) (true)
  | 0x5 =>
    checked (.iaddsS32 (bitAt w 31) (bitAt w 30) (fieldBits w 14 7) (fieldBits w 7 7) (fieldBits w 0 7))
      (true) (true)
      (true) (true)
  | 0x6 =>
    checked (.isubsS32 (bitAt w 31) (bitAt w 30) (fieldBits w 14 7) (fieldBits w 7 7) (fieldBits w 0 7))
      (true) (true)
      (true) (true)
  | 0x7 =>
    checked (.iaddsN32 (bitAt w 31) (bitAt w 30) (fieldBits w 14 7) (fieldBits w 7 7) (fieldBits w 0 7))
      (true) (true)
      (true) (true)
  | _ => .error 2

/-- Words of major 0x08 (03 R50). -/
noncomputable def decodeMajor08 (w : Nat) : Except Nat Instr :=
    checked (.iaddi (bitAt w 31) (bitAt w 30) (fieldBits w 17 7) (fieldBits w 10 7) (fieldBits w 0 10))
      (true) (true)
      (true) (true)

/-- Words of major 0x09 (03 R50). -/
noncomputable def decodeMajor09 (w : Nat) : Except Nat Instr :=
    checked (.andi (bitAt w 31) (bitAt w 30) (fieldBits w 17 7) (fieldBits w 10 7) (fieldBits w 0 10))
      (true) (true)
      (true) (true)

/-- Words of major 0x0A (03 R50). -/
noncomputable def decodeMajor0A (w : Nat) : Except Nat Instr :=
    checked (.ori (bitAt w 31) (bitAt w 30) (fieldBits w 17 7) (fieldBits w 10 7) (fieldBits w 0 10))
      (true) (true)
      (true) (true)

/-- Words of major 0x0B (03 R50). -/
noncomputable def decodeMajor0B (w : Nat) : Except Nat Instr :=
    checked (.xori (bitAt w 31) (bitAt w 30) (fieldBits w 17 7) (fieldBits w 10 7) (fieldBits w 0 10))
      (true) (true)
      (true) (true)

/-- Words of major 0x0C (03 R50). -/
noncomputable def decodeMajor0C (w : Nat) : Except Nat Instr :=
    checked (.shfi (bitAt w 31) (bitAt w 30) (fieldBits w 17 7) (fieldBits w 10 7) (fieldBits w 8 2) (fieldBits w 0 6))
      (true) (true)
      (true) (fieldNat w 6 2 == 0)

/-- Words of major 0x0D (03 R50). -/
noncomputable def decodeMajor0D (w : Nat) : Except Nat Instr :=
    checked (.imuli (bitAt w 31) (bitAt w 30) (fieldBits w 17 7) (fieldBits w 10 7) (fieldBits w 0 10))
      (true) (true)
      (true) (true)

/-- Words of major 0x0E (03 R50). -/
noncomputable def decodeMajor0E (w : Nat) : Except Nat Instr :=
    checked (.leai (bitAt w 31) (bitAt w 30) (fieldBits w 18 6) (fieldBits w 11 6) (fieldBits w 0 10))
      (true) (true)
      (fieldNat w 10 1 == 0 && fieldNat w 17 1 == 0) (true)

/-- Words of major 0x10 (03 R50). -/
noncomputable def decodeMajor10 (w : Nat) : Except Nat Instr :=
    checked (.movi (bitAt w 31) (bitAt w 30) (fieldBits w 17 7) (fieldBits w 0 17))
      (true) (true)
      (true) (true)

/-- Words of major 0x11 (03 R50). -/
noncomputable def decodeMajor11 (w : Nat) : Except Nat Instr :=
    checked (.movhi (bitAt w 31) (bitAt w 30) (fieldBits w 17 7) (fieldBits w 0 17))
      (true) (true)
      (true) (true)

/-- Words of major 0x12 (03 R50). -/
noncomputable def decodeMajor12 (w : Nat) : Except Nat Instr :=
    checked (.kld (bitAt w 31) (bitAt w 30) (fieldBits w 17 7) (fieldBits w 0 10))
      (true) (true)
      (true) (fieldNat w 10 7 == 0)

/-- Words of major 0x13 (03 R50). -/
noncomputable def decodeMajor13 (w : Nat) : Except Nat Instr :=
    checked (.isetp (bitAt w 31) (bitAt w 30) (fieldBits w 21 3) (fieldBits w 18 2) (fieldBits w 14 3) (fieldBits w 7 7) (fieldBits w 0 7))
      (true) (true)
      (true) (fieldNat w 17 1 == 0 && fieldNat w 20 1 == 0)

/-- Words of major 0x14 (03 R50). -/
noncomputable def decodeMajor14 (w : Nat) : Except Nat Instr :=
    checked (.fsetp (bitAt w 31) (bitAt w 30) (fieldBits w 21 3) (fieldBits w 18 2) (fieldBits w 14 3) (fieldBits w 7 7) (fieldBits w 0 7))
      (true) (true)
      (true) (fieldNat w 17 1 == 0 && fieldNat w 20 1 == 0)

/-- Words of major 0x15 (03 R50). -/
noncomputable def decodeMajor15 (w : Nat) : Except Nat Instr :=
  match fieldNat w 21 3 with
  | 0x0 =>
    checked (.pand (bitAt w 31) (bitAt w 30) (fieldBits w 14 3) (fieldBits w 7 3) (fieldBits w 0 3))
      (true) (true)
      (true) (fieldNat w 3 4 == 0 && fieldNat w 10 4 == 0 && fieldNat w 17 4 == 0)
  | 0x1 =>
    checked (.por (bitAt w 31) (bitAt w 30) (fieldBits w 14 3) (fieldBits w 7 3) (fieldBits w 0 3))
      (true) (true)
      (true) (fieldNat w 3 4 == 0 && fieldNat w 10 4 == 0 && fieldNat w 17 4 == 0)
  | 0x2 =>
    checked (.pxor (bitAt w 31) (bitAt w 30) (fieldBits w 14 3) (fieldBits w 7 3) (fieldBits w 0 3))
      (true) (true)
      (true) (fieldNat w 3 4 == 0 && fieldNat w 10 4 == 0 && fieldNat w 17 4 == 0)
  | 0x3 =>
    checked (.pnot (bitAt w 31) (bitAt w 30) (fieldBits w 14 3) (fieldBits w 7 3))
      (true) (true)
      (true) (fieldNat w 0 7 == 0 && fieldNat w 10 4 == 0 && fieldNat w 17 4 == 0)
  | 0x4 =>
    checked (.p2v (bitAt w 31) (bitAt w 30) (fieldBits w 14 7))
      (true) (true)
      (true) (fieldNat w 0 14 == 0)
  | 0x5 =>
    checked (.v2p (bitAt w 31) (bitAt w 30) (fieldBits w 7 7))
      (true) (true)
      (true) (fieldNat w 0 7 == 0 && fieldNat w 14 7 == 0)
  | 0x6 =>
    checked (.pset (bitAt w 31) (bitAt w 30) (fieldBits w 14 3) (fieldBits w 0 1))
      (true) (true)
      (true) (fieldNat w 1 13 == 0 && fieldNat w 17 4 == 0)
  | _ => .error 2

/-- Words of major 0x16 (03 R50). -/
noncomputable def decodeMajor16 (w : Nat) : Except Nat Instr :=
    checked (.selp (bitAt w 31) (bitAt w 30) (fieldBits w 17 7) (fieldBits w 10 7) (fieldBits w 3 7) (fieldBits w 0 3))
      (true) (true)
      (true) (true)

/-- Words of major 0x17 (03 R50). -/
noncomputable def decodeMajor17 (w : Nat) : Except Nat Instr :=
  match fieldNat w 21 3 with
  | 0x0 =>
    checked (.mand (bitAt w 31) (bitAt w 30) (fieldBits w 14 4) (fieldBits w 7 4) (fieldBits w 0 4))
      (true) (true)
      (true) (fieldNat w 4 3 == 0 && fieldNat w 11 3 == 0 && fieldNat w 18 3 == 0)
  | 0x1 =>
    checked (.mor (bitAt w 31) (bitAt w 30) (fieldBits w 14 4) (fieldBits w 7 4) (fieldBits w 0 4))
      (true) (true)
      (true) (fieldNat w 4 3 == 0 && fieldNat w 11 3 == 0 && fieldNat w 18 3 == 0)
  | 0x2 =>
    checked (.mxor (bitAt w 31) (bitAt w 30) (fieldBits w 14 4) (fieldBits w 7 4) (fieldBits w 0 4))
      (true) (true)
      (true) (fieldNat w 4 3 == 0 && fieldNat w 11 3 == 0 && fieldNat w 18 3 == 0)
  | 0x3 =>
    checked (.mnot (bitAt w 31) (bitAt w 30) (fieldBits w 14 4) (fieldBits w 7 4))
      (true) (true)
      (true) (fieldNat w 0 7 == 0 && fieldNat w 11 3 == 0 && fieldNat w 18 3 == 0)
  | 0x4 =>
    checked (.mfromv (bitAt w 31) (bitAt w 30) (fieldBits w 14 4) (fieldBits w 7 7))
      (true) (true)
      (true) (fieldNat w 0 7 == 0 && fieldNat w 18 3 == 0)
  | 0x5 =>
    checked (.mtov (bitAt w 31) (bitAt w 30) (fieldBits w 14 7) (fieldBits w 7 4))
      (true) (true)
      (true) (fieldNat w 0 7 == 0 && fieldNat w 11 3 == 0)
  | 0x6 =>
    checked (.mpopc (bitAt w 31) (bitAt w 30) (fieldBits w 14 7) (fieldBits w 7 4))
      (true) (true)
      (true) (fieldNat w 0 7 == 0 && fieldNat w 11 3 == 0)
  | 0x7 =>
    checked (.mself (bitAt w 31) (bitAt w 30) (fieldBits w 14 4))
      (true) (true)
      (true) (fieldNat w 0 14 == 0 && fieldNat w 18 3 == 0)
  | _ => .error 2

/-- Words of major 0x18 (03 R50). -/
noncomputable def decodeMajor18 (w : Nat) : Except Nat Instr :=
  match fieldNat w 21 3 with
  | 0x0 =>
    checked (.fadd (bitAt w 31) (bitAt w 30) (fieldBits w 14 7) (fieldBits w 7 7) (fieldBits w 0 7))
      (true) (true)
      (true) (true)
  | 0x1 =>
    checked (.fsub (bitAt w 31) (bitAt w 30) (fieldBits w 14 7) (fieldBits w 7 7) (fieldBits w 0 7))
      (true) (true)
      (true) (true)
  | 0x2 =>
    checked (.fmul (bitAt w 31) (bitAt w 30) (fieldBits w 14 7) (fieldBits w 7 7) (fieldBits w 0 7))
      (true) (true)
      (true) (true)
  | 0x3 =>
    checked (.fmin (bitAt w 31) (bitAt w 30) (fieldBits w 14 7) (fieldBits w 7 7) (fieldBits w 0 7))
      (true) (true)
      (true) (true)
  | 0x4 =>
    checked (.fmax (bitAt w 31) (bitAt w 30) (fieldBits w 14 7) (fieldBits w 7 7) (fieldBits w 0 7))
      (true) (true)
      (true) (true)
  | 0x5 =>
    checked (.fabs (bitAt w 31) (bitAt w 30) (fieldBits w 14 7) (fieldBits w 7 7))
      (true) (true)
      (true) (fieldNat w 0 7 == 0)
  | 0x6 =>
    checked (.fneg (bitAt w 31) (bitAt w 30) (fieldBits w 14 7) (fieldBits w 7 7))
      (true) (true)
      (true) (fieldNat w 0 7 == 0)
  | 0x7 =>
    checked (.fcpsgn (bitAt w 31) (bitAt w 30) (fieldBits w 14 7) (fieldBits w 7 7) (fieldBits w 0 7))
      (true) (true)
      (true) (true)
  | _ => .error 2

/-- Words of major 0x19 (03 R50). -/
noncomputable def decodeMajor19 (w : Nat) : Except Nat Instr :=
  match fieldNat w 21 3 with
  | 0x0 =>
    checked (.fma (bitAt w 31) (bitAt w 30) (fieldBits w 14 7) (fieldBits w 7 7) (fieldBits w 0 7))
      (true) (true)
      (true) (true)
  | 0x1 =>
    checked (.fms (bitAt w 31) (bitAt w 30) (fieldBits w 14 7) (fieldBits w 7 7) (fieldBits w 0 7))
      (true) (true)
      (true) (true)
  | 0x2 =>
    checked (.fnma (bitAt w 31) (bitAt w 30) (fieldBits w 14 7) (fieldBits w 7 7) (fieldBits w 0 7))
      (true) (true)
      (true) (true)
  | 0x3 =>
    checked (.fnms (bitAt w 31) (bitAt w 30) (fieldBits w 14 7) (fieldBits w 7 7) (fieldBits w 0 7))
      (true) (true)
      (true) (true)
  | _ => .error 2

/-- Words of major 0x1A (03 R50). -/
noncomputable def decodeMajor1A (w : Nat) : Except Nat Instr :=
  match fieldNat w 21 3 with
  | 0x0 =>
    checked (.frcp (bitAt w 31) (bitAt w 30) (fieldBits w 14 7) (fieldBits w 7 7))
      (true) (true)
      (true) (fieldNat w 0 7 == 0)
  | 0x1 =>
    checked (.frsq (bitAt w 31) (bitAt w 30) (fieldBits w 14 7) (fieldBits w 7 7))
      (true) (true)
      (true) (fieldNat w 0 7 == 0)
  | 0x2 =>
    checked (.fsqrta (bitAt w 31) (bitAt w 30) (fieldBits w 14 7) (fieldBits w 7 7))
      (true) (true)
      (true) (fieldNat w 0 7 == 0)
  | 0x3 =>
    checked (.fex2 (bitAt w 31) (bitAt w 30) (fieldBits w 14 7) (fieldBits w 7 7))
      (true) (true)
      (true) (fieldNat w 0 7 == 0)
  | 0x4 =>
    checked (.flg2 (bitAt w 31) (bitAt w 30) (fieldBits w 14 7) (fieldBits w 7 7))
      (true) (true)
      (true) (fieldNat w 0 7 == 0)
  | 0x5 =>
    checked (.fsinp (bitAt w 31) (bitAt w 30) (fieldBits w 14 7) (fieldBits w 7 7))
      (true) (true)
      (true) (fieldNat w 0 7 == 0)
  | 0x6 =>
    checked (.fcosp (bitAt w 31) (bitAt w 30) (fieldBits w 14 7) (fieldBits w 7 7))
      (true) (true)
      (true) (fieldNat w 0 7 == 0)
  | 0x7 =>
    checked (.ftanh (bitAt w 31) (bitAt w 30) (fieldBits w 14 7) (fieldBits w 7 7))
      (true) (true)
      (true) (fieldNat w 0 7 == 0)
  | _ => .error 2

/-- Words of major 0x1B (03 R50). -/
noncomputable def decodeMajor1B (w : Nat) : Except Nat Instr :=
  match fieldNat w 21 3 with
  | 0x0 =>
    checked (.fdiv (bitAt w 31) (bitAt w 30) (fieldBits w 14 7) (fieldBits w 7 7) (fieldBits w 0 7))
      (true) (true)
      (true) (true)
  | 0x1 =>
    checked (.fsqrt (bitAt w 31) (bitAt w 30) (fieldBits w 14 7) (fieldBits w 7 7))
      (true) (true)
      (true) (fieldNat w 0 7 == 0)
  | 0x2 =>
    checked (.frintRn (bitAt w 31) (bitAt w 30) (fieldBits w 14 7) (fieldBits w 7 7))
      (true) (true)
      (true) (fieldNat w 0 7 == 0)
  | 0x3 =>
    checked (.frintRz (bitAt w 31) (bitAt w 30) (fieldBits w 14 7) (fieldBits w 7 7))
      (true) (true)
      (true) (fieldNat w 0 7 == 0)
  | 0x4 =>
    checked (.frintRd (bitAt w 31) (bitAt w 30) (fieldBits w 14 7) (fieldBits w 7 7))
      (true) (true)
      (true) (fieldNat w 0 7 == 0)
  | 0x5 =>
    checked (.frintRu (bitAt w 31) (bitAt w 30) (fieldBits w 14 7) (fieldBits w 7 7))
      (true) (true)
      (true) (fieldNat w 0 7 == 0)
  | 0x6 =>
    checked (.fclass (bitAt w 31) (bitAt w 30) (fieldBits w 14 7) (fieldBits w 7 7))
      (true) (true)
      (true) (fieldNat w 0 7 == 0)
  | 0x7 =>
    checked (.fscalb (bitAt w 31) (bitAt w 30) (fieldBits w 14 7) (fieldBits w 7 7) (fieldBits w 0 7))
      (true) (true)
      (true) (true)
  | _ => .error 2

/-- Words of major 0x1C (03 R50). -/
noncomputable def decodeMajor1C (w : Nat) : Except Nat Instr :=
  match cvtSelector (fieldNat w 0 7) with
  | none => .error 2
  | some _ =>
    checked (.cvt (bitAt w 31) (bitAt w 30) (fieldBits w 23 1) (fieldBits w 21 2) (fieldBits w 14 7) (fieldBits w 7 7) (fieldBits w 0 7))
      (true) (true)
      (true) (true)

/-- Words of major 0x1D (03 R50). -/
noncomputable def decodeMajor1D (w : Nat) : Except Nat Instr :=
  match fieldNat w 21 3 with
  | 0x0 =>
    checked (.pkbf (bitAt w 31) (bitAt w 30) (fieldBits w 14 7) (fieldBits w 7 7) (fieldBits w 0 7))
      (true) (true)
      (true) (true)
  | 0x1 =>
    checked (.pke4Lo (bitAt w 31) (bitAt w 30) (fieldBits w 14 7) (fieldBits w 7 7) (fieldBits w 0 7))
      (true) (true)
      (true) (true)
  | 0x2 =>
    checked (.pke4Hi (bitAt w 31) (bitAt w 30) (fieldBits w 14 7) (fieldBits w 7 7) (fieldBits w 0 7))
      (true) (true)
      (true) (true)
  | 0x3 =>
    checked (.pke5Lo (bitAt w 31) (bitAt w 30) (fieldBits w 14 7) (fieldBits w 7 7) (fieldBits w 0 7))
      (true) (true)
      (true) (true)
  | 0x4 =>
    checked (.pke5Hi (bitAt w 31) (bitAt w 30) (fieldBits w 14 7) (fieldBits w 7 7) (fieldBits w 0 7))
      (true) (true)
      (true) (true)
  | 0x5 =>
    checked (.pkpsLo (bitAt w 31) (bitAt w 30) (fieldBits w 14 7) (fieldBits w 7 7) (fieldBits w 0 7))
      (true) (true)
      (true) (true)
  | 0x6 =>
    checked (.pkpsHi (bitAt w 31) (bitAt w 30) (fieldBits w 14 7) (fieldBits w 7 7) (fieldBits w 0 7))
      (true) (true)
      (true) (true)
  | 0x7 =>
    checked (.unpk (bitAt w 31) (bitAt w 30) (fieldBits w 14 7) (fieldBits w 7 7) (fieldBits w 0 2))
      (true) (true)
      (true) (fieldNat w 2 5 == 0)
  | _ => .error 2

/-- Words of major 0x1E (03 R50). -/
noncomputable def decodeMajor1E (w : Nat) : Except Nat Instr :=
  match fieldNat w 21 3 with
  | 0x0 =>
    checked (.dot2Bf16 (bitAt w 31) (bitAt w 30) (fieldBits w 14 7) (fieldBits w 7 7) (fieldBits w 0 7))
      (true) (true)
      (true) (true)
  | 0x1 =>
    checked (.dot4E4m3 (bitAt w 31) (bitAt w 30) (fieldBits w 14 7) (fieldBits w 7 7) (fieldBits w 0 7))
      (true) (true)
      (true) (true)
  | 0x2 =>
    checked (.dot4E5m2 (bitAt w 31) (bitAt w 30) (fieldBits w 14 7) (fieldBits w 7 7) (fieldBits w 0 7))
      (true) (true)
      (true) (true)
  | 0x3 =>
    checked (.dot4Ps8 (bitAt w 31) (bitAt w 30) (fieldBits w 14 7) (fieldBits w 7 7) (fieldBits w 0 7))
      (true) (true)
      (true) (true)
  | 0x4 =>
    checked (.dot4S8 (bitAt w 31) (bitAt w 30) (fieldBits w 14 7) (fieldBits w 7 7) (fieldBits w 0 7))
      (true) (true)
      (true) (true)
  | 0x5 =>
    checked (.dot4N8 (bitAt w 31) (bitAt w 30) (fieldBits w 14 7) (fieldBits w 7 7) (fieldBits w 0 7))
      (true) (true)
      (true) (true)
  | 0x6 =>
    checked (.hadd2Bf16 (bitAt w 31) (bitAt w 30) (fieldBits w 14 7) (fieldBits w 7 7) (fieldBits w 0 7))
      (true) (true)
      (true) (true)
  | 0x7 =>
    checked (.hmul2Bf16 (bitAt w 31) (bitAt w 30) (fieldBits w 14 7) (fieldBits w 7 7) (fieldBits w 0 7))
      (true) (true)
      (true) (true)
  | _ => .error 2

/-- Words of major 0x20 (03 R50). -/
noncomputable def decodeMajor20 (w : Nat) : Except Nat Instr :=
    checked (.brm (bitAt w 30) (fieldBits w 22 2) (fieldBits w 20 2) (fieldBits w 16 4) (fieldBits w 12 4) (fieldBits w 8 4) (fieldBits w 4 4))
      (true) (true)
      (true) (fieldNat w 0 4 == 0)

/-- Words of major 0x21 (03 R50). -/
noncomputable def decodeMajor21 (w : Nat) : Except Nat Instr :=
    checked (.tgt (fieldBits w 12 12) (fieldBits w 0 12))
      (true) (!bitAt w 30)
      (true) (true)

/-- Words of major 0x22 (03 R50). -/
noncomputable def decodeMajor22 (w : Nat) : Except Nat Instr :=
    checked (.jmp (bitAt w 30) (fieldBits w 0 17))
      (true) (true)
      (true) (fieldNat w 17 7 == 0)

/-- Words of major 0x23 (03 R50). -/
noncomputable def decodeMajor23 (w : Nat) : Except Nat Instr :=
    checked (.call (bitAt w 30) (fieldBits w 18 6) (fieldBits w 0 17))
      (true) (true)
      (fieldNat w 17 1 == 0) (true)

/-- Words of major 0x24 (03 R50). -/
noncomputable def decodeMajor24 (w : Nat) : Except Nat Instr :=
  match fieldNat w 21 3 with
  | 0x0 =>
    checked (.jmpr (fieldBits w 8 6))
      (true) (!bitAt w 30)
      (fieldNat w 7 1 == 0) (fieldNat w 0 7 == 0 && fieldNat w 14 7 == 0)
  | 0x1 =>
    checked (.callr (fieldBits w 15 6) (fieldBits w 8 6))
      (true) (!bitAt w 30)
      (fieldNat w 7 1 == 0 && fieldNat w 14 1 == 0) (fieldNat w 0 7 == 0)
  | 0x2 =>
    checked (.ret (fieldBits w 8 6))
      (true) (!bitAt w 30)
      (fieldNat w 7 1 == 0) (fieldNat w 0 7 == 0 && fieldNat w 14 7 == 0)
  | 0x3 =>
    checked .exit
      (true) (!bitAt w 30)
      (true) (fieldNat w 0 21 == 0)
  | 0x4 =>
    checked (.spawn (bitAt w 31) (fieldBits w 14 7) (fieldBits w 8 6) (fieldBits w 0 7))
      (true) (!bitAt w 30)
      (fieldNat w 7 1 == 0) (true)
  | 0x5 =>
    checked (.spawnf (bitAt w 31) (fieldBits w 14 7) (fieldBits w 8 6) (fieldBits w 0 7))
      (true) (!bitAt w 30)
      (fieldNat w 7 1 == 0) (true)
  | 0x6 =>
    checked (.trap (bitAt w 31) (fieldBits w 0 7))
      (true) (!bitAt w 30)
      (true) (fieldNat w 7 14 == 0)
  | 0x7 =>
    checked (.bkpt (bitAt w 31))
      (true) (!bitAt w 30)
      (true) (fieldNat w 0 21 == 0)
  | _ => .error 2

/-- Words of major 0x25 (03 R50). -/
noncomputable def decodeMajor25 (w : Nat) : Except Nat Instr :=
  match fieldNat w 21 3 with
  | 0x0 =>
    checked (.nop (bitAt w 31))
      (true) (!bitAt w 30)
      (true) (fieldNat w 0 21 == 0)
  | 0x1 =>
    checked (.pause (bitAt w 31) (fieldBits w 7 7))
      (true) (!bitAt w 30)
      (true) (fieldNat w 0 7 == 0 && fieldNat w 14 7 == 0)
  | 0x2 =>
    checked (.yield (bitAt w 31))
      (true) (!bitAt w 30)
      (true) (fieldNat w 0 21 == 0)
  | 0x3 =>
    checked (.ffence (bitAt w 31))
      (true) (!bitAt w 30)
      (true) (fieldNat w 0 21 == 0)
  | 0x4 =>
    checked (.clkrd (bitAt w 31) (fieldBits w 15 6))
      (true) (!bitAt w 30)
      (fieldNat w 14 1 == 0) (fieldNat w 0 14 == 0)
  | 0x5 =>
    checked (.renew (bitAt w 31) (fieldBits w 8 6))
      (true) (!bitAt w 30)
      (fieldNat w 7 1 == 0) (fieldNat w 0 7 == 0 && fieldNat w 14 7 == 0)
  | 0x6 =>
    checked (.resume (bitAt w 31))
      (true) (!bitAt w 30)
      (true) (fieldNat w 0 21 == 0)
  | _ => .error 2

/-- Words of major 0x26 (03 R50). -/
noncomputable def decodeMajor26 (w : Nat) : Except Nat Instr :=
  match fieldNat w 21 3 with
  | 0x0 =>
    checked (.shflIdx (bitAt w 31) (fieldBits w 14 7) (fieldBits w 7 7) (fieldBits w 0 4))
      (true) (!bitAt w 30)
      (true) (fieldNat w 4 3 == 0)
  | 0x1 =>
    checked (.shflXor (bitAt w 31) (fieldBits w 14 7) (fieldBits w 7 7) (fieldBits w 0 4))
      (true) (!bitAt w 30)
      (true) (fieldNat w 4 3 == 0)
  | 0x2 =>
    checked (.shflUp (bitAt w 31) (fieldBits w 14 7) (fieldBits w 7 7) (fieldBits w 0 4))
      (true) (!bitAt w 30)
      (true) (fieldNat w 4 3 == 0)
  | 0x3 =>
    checked (.shflDn (bitAt w 31) (fieldBits w 14 7) (fieldBits w 7 7) (fieldBits w 0 4))
      (true) (!bitAt w 30)
      (true) (fieldNat w 4 3 == 0)
  | 0x4 =>
    checked (.voteAll (bitAt w 31) (fieldBits w 14 3) (fieldBits w 10 1) (fieldBits w 7 3) (fieldBits w 0 4))
      (true) (!bitAt w 30)
      (true) (fieldNat w 4 3 == 0 && fieldNat w 11 3 == 0 && fieldNat w 17 4 == 0)
  | 0x5 =>
    checked (.voteAny (bitAt w 31) (fieldBits w 14 3) (fieldBits w 10 1) (fieldBits w 7 3) (fieldBits w 0 4))
      (true) (!bitAt w 30)
      (true) (fieldNat w 4 3 == 0 && fieldNat w 11 3 == 0 && fieldNat w 17 4 == 0)
  | 0x6 =>
    checked (.ballot (bitAt w 31) (fieldBits w 14 7) (fieldBits w 10 1) (fieldBits w 7 3) (fieldBits w 0 4))
      (true) (!bitAt w 30)
      (true) (fieldNat w 4 3 == 0 && fieldNat w 11 3 == 0)
  | 0x7 =>
    checked (.matchLanes (bitAt w 31) (fieldBits w 14 7) (fieldBits w 7 7) (fieldBits w 0 4))
      (true) (!bitAt w 30)
      (true) (fieldNat w 4 3 == 0)
  | _ => .error 2

/-- Words of major 0x27 (03 R50). -/
noncomputable def decodeMajor27 (w : Nat) : Except Nat Instr :=
  match fieldNat w 21 3 with
  | 0x0 =>
    checked (.radd (bitAt w 31) (fieldBits w 14 7) (fieldBits w 7 7) (fieldBits w 0 4))
      (true) (!bitAt w 30)
      (true) (fieldNat w 4 3 == 0)
  | 0x1 =>
    checked (.rminS32 (bitAt w 31) (fieldBits w 14 7) (fieldBits w 7 7) (fieldBits w 0 4))
      (true) (!bitAt w 30)
      (true) (fieldNat w 4 3 == 0)
  | 0x2 =>
    checked (.rmaxS32 (bitAt w 31) (fieldBits w 14 7) (fieldBits w 7 7) (fieldBits w 0 4))
      (true) (!bitAt w 30)
      (true) (fieldNat w 4 3 == 0)
  | 0x3 =>
    checked (.rand (bitAt w 31) (fieldBits w 14 7) (fieldBits w 7 7) (fieldBits w 0 4))
      (true) (!bitAt w 30)
      (true) (fieldNat w 4 3 == 0)
  | 0x4 =>
    checked (.ror (bitAt w 31) (fieldBits w 14 7) (fieldBits w 7 7) (fieldBits w 0 4))
      (true) (!bitAt w 30)
      (true) (fieldNat w 4 3 == 0)
  | 0x5 =>
    checked (.rxor (bitAt w 31) (fieldBits w 14 7) (fieldBits w 7 7) (fieldBits w 0 4))
      (true) (!bitAt w 30)
      (true) (fieldNat w 4 3 == 0)
  | 0x6 =>
    checked (.rfadd (bitAt w 31) (fieldBits w 14 7) (fieldBits w 7 7) (fieldBits w 0 4))
      (true) (!bitAt w 30)
      (true) (fieldNat w 4 3 == 0)
  | 0x7 =>
    checked (.rminN32 (bitAt w 31) (fieldBits w 14 7) (fieldBits w 7 7) (fieldBits w 0 4))
      (true) (!bitAt w 30)
      (true) (fieldNat w 4 3 == 0)
  | _ => .error 2

/-- Words of major 0x29 (03 R50, R51). -/
noncomputable def decodeMajor29 (w : Nat) : Except Nat Instr :=
  match fieldNat w 16 8 with
  | 0x0 =>
    checked (.barSync (bitAt w 31) (fieldBits w 0 4))
      (true) (!bitAt w 30)
      (true) (fieldNat w 4 12 == 0)
  | 0x1 =>
    checked (.barArv (bitAt w 31) (fieldBits w 9 7) (fieldBits w 0 4))
      (true) (!bitAt w 30)
      (true) (fieldNat w 4 5 == 0)
  | 0x2 =>
    checked (.barWait (bitAt w 31) (fieldBits w 9 7) (fieldBits w 0 4))
      (true) (!bitAt w 30)
      (true) (fieldNat w 4 5 == 0)
  | 0x3 =>
    checked (.barClu (bitAt w 31))
      (true) (!bitAt w 30)
      (true) (fieldNat w 0 16 == 0)
  | 0x4 =>
    checked (.barGrid (bitAt w 31))
      (true) (!bitAt w 30)
      (true) (fieldNat w 0 16 == 0)
  | 0x5 =>
    checked (.gsync (bitAt w 31) (fieldBits w 0 4))
      (true) (!bitAt w 30)
      (true) (fieldNat w 4 12 == 0)
  | 0x6 =>
    checked (.barTest (bitAt w 31) (fieldBits w 9 7) (fieldBits w 0 4))
      (true) (!bitAt w 30)
      (true) (fieldNat w 4 5 == 0)
  | 0x7 =>
    checked (.barSet (bitAt w 31) (fieldBits w 9 7) (fieldBits w 0 4))
      (true) (!bitAt w 30)
      (true) (fieldNat w 4 5 == 0)
  | _ => .error 2

/-- Words of major 0x2A (03 R50). -/
noncomputable def decodeMajor2A (w : Nat) : Except Nat Instr :=
  match fieldNat w 21 3 with
  | 0x0 =>
    checked (.waitNe (bitAt w 31) (fieldBits w 14 7) (fieldBits w 8 6) (fieldBits w 0 7))
      (true) (!bitAt w 30)
      (fieldNat w 7 1 == 0) (true)
  | 0x1 =>
    checked (.waitEq (bitAt w 31) (fieldBits w 14 7) (fieldBits w 8 6) (fieldBits w 0 7))
      (true) (!bitAt w 30)
      (fieldNat w 7 1 == 0) (true)
  | 0x2 =>
    checked (.waitGe (bitAt w 31) (fieldBits w 14 7) (fieldBits w 8 6) (fieldBits w 0 7))
      (true) (!bitAt w 30)
      (fieldNat w 7 1 == 0) (true)
  | 0x3 =>
    checked (.watch (bitAt w 31) (fieldBits w 14 7) (fieldBits w 8 6))
      (true) (!bitAt w 30)
      (fieldNat w 7 1 == 0) (fieldNat w 0 7 == 0)
  | 0x4 =>
    checked (.unwatch (bitAt w 31) (fieldBits w 14 7))
      (true) (!bitAt w 30)
      (true) (fieldNat w 0 14 == 0)
  | 0x5 =>
    checked (.wake (bitAt w 31) (fieldBits w 8 6))
      (true) (!bitAt w 30)
      (fieldNat w 7 1 == 0) (fieldNat w 0 7 == 0 && fieldNat w 14 7 == 0)
  | _ => .error 2

/-- Words of major 0x2C (03 R50). -/
noncomputable def decodeMajor2C (w : Nat) : Except Nat Instr :=
    checked (.ld (bitAt w 31) (bitAt w 30) (fieldBits w 22 2) (fieldBits w 19 3) (fieldBits w 12 7) (fieldBits w 6 6) (fieldBits w 0 5))
      (true) (true)
      (fieldNat w 5 1 == 0) (true)

/-- Words of major 0x2D (03 R50). -/
noncomputable def decodeMajor2D (w : Nat) : Except Nat Instr :=
    checked (.st (bitAt w 31) (bitAt w 30) (fieldBits w 22 2) (fieldBits w 19 3) (fieldBits w 12 7) (fieldBits w 6 6) (fieldBits w 0 5))
      (true) (true)
      (fieldNat w 5 1 == 0) (true)

/-- Words of major 0x2E (03 R50). -/
noncomputable def decodeMajor2E (w : Nat) : Except Nat Instr :=
    checked (.lds (bitAt w 31) (bitAt w 30) (fieldBits w 22 2) (fieldBits w 19 3) (fieldBits w 12 7) (fieldBits w 5 7) (fieldBits w 0 5))
      (true) (true)
      (true) (true)

/-- Words of major 0x2F (03 R50). -/
noncomputable def decodeMajor2F (w : Nat) : Except Nat Instr :=
    checked (.sts (bitAt w 31) (bitAt w 30) (fieldBits w 22 2) (fieldBits w 19 3) (fieldBits w 12 7) (fieldBits w 5 7) (fieldBits w 0 5))
      (true) (true)
      (true) (true)

/-- Words of major 0x30 (03 R50). -/
noncomputable def decodeMajor30 (w : Nat) : Except Nat Instr :=
    checked (.ldf (bitAt w 31) (bitAt w 30) (fieldBits w 22 2) (fieldBits w 19 3) (fieldBits w 12 7) (fieldBits w 6 6) (fieldBits w 0 5))
      (true) (true)
      (fieldNat w 5 1 == 0) (true)

/-- Words of major 0x31 (03 R50). -/
noncomputable def decodeMajor31 (w : Nat) : Except Nat Instr :=
  match fieldNat w 21 3 with
  | 0x0 =>
    checked (.atomAdd (bitAt w 31) (bitAt w 30) (fieldBits w 20 1) (fieldBits w 18 2) (fieldBits w 15 3) (fieldBits w 10 5) (fieldBits w 6 4) (fieldBits w 0 5))
      (true) (true)
      (fieldNat w 5 1 == 0) (true)
  | 0x1 =>
    checked (.atomMinS32 (bitAt w 31) (bitAt w 30) (fieldBits w 20 1) (fieldBits w 18 2) (fieldBits w 15 3) (fieldBits w 10 5) (fieldBits w 6 4) (fieldBits w 0 5))
      (true) (true)
      (fieldNat w 5 1 == 0) (true)
  | 0x2 =>
    checked (.atomMaxS32 (bitAt w 31) (bitAt w 30) (fieldBits w 20 1) (fieldBits w 18 2) (fieldBits w 15 3) (fieldBits w 10 5) (fieldBits w 6 4) (fieldBits w 0 5))
      (true) (true)
      (fieldNat w 5 1 == 0) (true)
  | 0x3 =>
    checked (.atomMinN32 (bitAt w 31) (bitAt w 30) (fieldBits w 20 1) (fieldBits w 18 2) (fieldBits w 15 3) (fieldBits w 10 5) (fieldBits w 6 4) (fieldBits w 0 5))
      (true) (true)
      (fieldNat w 5 1 == 0) (true)
  | 0x4 =>
    checked (.atomMaxN32 (bitAt w 31) (bitAt w 30) (fieldBits w 20 1) (fieldBits w 18 2) (fieldBits w 15 3) (fieldBits w 10 5) (fieldBits w 6 4) (fieldBits w 0 5))
      (true) (true)
      (fieldNat w 5 1 == 0) (true)
  | 0x5 =>
    checked (.atomAnd (bitAt w 31) (bitAt w 30) (fieldBits w 20 1) (fieldBits w 18 2) (fieldBits w 15 3) (fieldBits w 10 5) (fieldBits w 6 4) (fieldBits w 0 5))
      (true) (true)
      (fieldNat w 5 1 == 0) (true)
  | 0x6 =>
    checked (.atomOr (bitAt w 31) (bitAt w 30) (fieldBits w 20 1) (fieldBits w 18 2) (fieldBits w 15 3) (fieldBits w 10 5) (fieldBits w 6 4) (fieldBits w 0 5))
      (true) (true)
      (fieldNat w 5 1 == 0) (true)
  | 0x7 =>
    checked (.atomXor (bitAt w 31) (bitAt w 30) (fieldBits w 20 1) (fieldBits w 18 2) (fieldBits w 15 3) (fieldBits w 10 5) (fieldBits w 6 4) (fieldBits w 0 5))
      (true) (true)
      (fieldNat w 5 1 == 0) (true)
  | _ => .error 2

/-- Words of major 0x32 (03 R50). DESIGN CHOICE (log entry 142): FADD.f32, FMIN.f32 and FMAX.f32 with w = 1 give subcode 3. -/
noncomputable def decodeMajor32 (w : Nat) : Except Nat Instr :=
  match fieldNat w 21 3 with
  | 0x0 =>
    checked (.atomxXchg (bitAt w 31) (bitAt w 30) (fieldBits w 20 1) (fieldBits w 18 2) (fieldBits w 15 3) (fieldBits w 10 5) (fieldBits w 6 4) (fieldBits w 0 5))
      (true) (true)
      (fieldNat w 5 1 == 0) (true)
  | 0x1 =>
    checked (.atomxCas (bitAt w 31) (bitAt w 30) (fieldBits w 20 1) (fieldBits w 18 2) (fieldBits w 15 3) (fieldBits w 10 5) (fieldBits w 6 4) (fieldBits w 0 5))
      (true) (true)
      (fieldNat w 5 1 == 0) (true)
  | 0x2 =>
    checked (.atomxIncw (bitAt w 31) (bitAt w 30) (fieldBits w 20 1) (fieldBits w 18 2) (fieldBits w 15 3) (fieldBits w 10 5) (fieldBits w 6 4) (fieldBits w 0 5))
      (true) (true)
      (fieldNat w 5 1 == 0) (true)
  | 0x3 =>
    checked (.atomxDecw (bitAt w 31) (bitAt w 30) (fieldBits w 20 1) (fieldBits w 18 2) (fieldBits w 15 3) (fieldBits w 10 5) (fieldBits w 6 4) (fieldBits w 0 5))
      (true) (true)
      (fieldNat w 5 1 == 0) (true)
  | 0x4 =>
    checked (.atomxFaddF32 (bitAt w 31) (bitAt w 30) (fieldBits w 18 2) (fieldBits w 15 3) (fieldBits w 10 5) (fieldBits w 6 4) (fieldBits w 0 5))
      (fieldNat w 20 1 == 0) (true)
      (fieldNat w 5 1 == 0) (true)
  | 0x5 =>
    checked (.atomxFminF32 (bitAt w 31) (bitAt w 30) (fieldBits w 18 2) (fieldBits w 15 3) (fieldBits w 10 5) (fieldBits w 6 4) (fieldBits w 0 5))
      (fieldNat w 20 1 == 0) (true)
      (fieldNat w 5 1 == 0) (true)
  | 0x6 =>
    checked (.atomxFmaxF32 (bitAt w 31) (bitAt w 30) (fieldBits w 18 2) (fieldBits w 15 3) (fieldBits w 10 5) (fieldBits w 6 4) (fieldBits w 0 5))
      (fieldNat w 20 1 == 0) (true)
      (fieldNat w 5 1 == 0) (true)
  | _ => .error 2

/-- Words of major 0x33 (03 R50). -/
noncomputable def decodeMajor33 (w : Nat) : Except Nat Instr :=
  match fieldNat w 21 3 with
  | 0x0 =>
    checked (.lda (bitAt w 31) (bitAt w 30) (fieldBits w 20 1) (fieldBits w 15 3) (fieldBits w 10 5) (fieldBits w 6 4))
      (fieldNat w 18 2 == 1) (true)
      (fieldNat w 5 1 == 0) (fieldNat w 0 5 == 0)
  | 0x1 =>
    checked (.stl (bitAt w 31) (bitAt w 30) (fieldBits w 20 1) (fieldBits w 15 3) (fieldBits w 6 4) (fieldBits w 0 5))
      (fieldNat w 18 2 == 2) (true)
      (fieldNat w 5 1 == 0) (fieldNat w 10 5 == 0)
  | 0x2 =>
    checked (.fence (bitAt w 31) (bitAt w 30) (fieldBits w 18 2) (fieldBits w 15 3))
      (true) (true)
      (true) (fieldNat w 0 15 == 0 && fieldNat w 20 1 == 0)
  | 0x3 =>
    checked (.fenceSc (bitAt w 31) (bitAt w 30) (fieldBits w 15 3))
      (fieldNat w 18 2 == 3) (true)
      (true) (fieldNat w 0 15 == 0 && fieldNat w 20 1 == 0)
  | 0x4 =>
    checked (.ldap (bitAt w 31) (bitAt w 30) (fieldBits w 20 1) (fieldBits w 15 3) (fieldBits w 10 5) (fieldBits w 6 4))
      (fieldNat w 18 2 == 1) (true)
      (fieldNat w 5 1 == 0) (fieldNat w 0 5 == 0)
  | 0x5 =>
    checked (.atomp (bitAt w 31) (bitAt w 30) (fieldBits w 20 1) (fieldBits w 18 2) (fieldBits w 15 3) (fieldBits w 10 5) (fieldBits w 6 4) (fieldBits w 0 5))
      (true) (true)
      (fieldNat w 5 1 == 0) (true)
  | _ => .error 2

/-- Words of major 0x34 (03 R50). -/
noncomputable def decodeMajor34 (w : Nat) : Except Nat Instr :=
  match fieldNat w 21 3 with
  | 0x0 =>
    checked (.pref (bitAt w 31) (bitAt w 30) (fieldBits w 8 6) (fieldBits w 0 2))
      (true) (true)
      (fieldNat w 7 1 == 0) (fieldNat w 2 5 == 0 && fieldNat w 14 7 == 0)
  | 0x1 =>
    checked (.flush (bitAt w 31) (bitAt w 30) (fieldBits w 8 6))
      (true) (true)
      (fieldNat w 7 1 == 0) (fieldNat w 0 7 == 0 && fieldNat w 14 7 == 0)
  | 0x2 =>
    checked (.inval (bitAt w 31) (bitAt w 30) (fieldBits w 8 6))
      (true) (true)
      (fieldNat w 7 1 == 0) (fieldNat w 0 7 == 0 && fieldNat w 14 7 == 0)
  | 0x3 =>
    checked (.stashMap (bitAt w 31) (bitAt w 30) (fieldBits w 8 6) (fieldBits w 0 7))
      (true) (true)
      (fieldNat w 7 1 == 0) (fieldNat w 14 7 == 0)
  | 0x4 =>
    checked (.stashWb (bitAt w 31) (bitAt w 30))
      (true) (true)
      (true) (fieldNat w 0 21 == 0)
  | 0x5 =>
    checked (.stashDrop (bitAt w 31) (bitAt w 30))
      (true) (true)
      (true) (fieldNat w 0 21 == 0)
  | _ => .error 2

/-- Words of major 0x36 (03 R50). -/
noncomputable def decodeMajor36 (w : Nat) : Except Nat Instr :=
  match fieldNat w 22 2 with
  | 0x0 =>
    checked (.cpyG2s (bitAt w 31) (fieldBits w 20 2) (fieldBits w 13 7) (fieldBits w 7 6))
      (true) (!bitAt w 30)
      (fieldNat w 6 1 == 0) (fieldNat w 0 6 == 0)
  | 0x1 =>
    checked (.cpyS2g (bitAt w 31) (fieldBits w 20 2) (fieldBits w 14 6) (fieldBits w 6 7))
      (true) (!bitAt w 30)
      (fieldNat w 13 1 == 0) (fieldNat w 0 6 == 0)
  | 0x2 =>
    checked (.cpyG2g (bitAt w 31) (fieldBits w 20 2) (fieldBits w 14 6) (fieldBits w 7 6))
      (true) (!bitAt w 30)
      (fieldNat w 6 1 == 0 && fieldNat w 13 1 == 0) (fieldNat w 0 6 == 0)
  | 0x3 =>
    checked (.cpyS2s (bitAt w 31) (fieldBits w 20 2) (fieldBits w 13 7) (fieldBits w 6 7))
      (true) (!bitAt w 30)
      (true) (fieldNat w 0 6 == 0)
  | _ => .error 2

/-- Words of major 0x37 (03 R50). -/
noncomputable def decodeMajor37 (w : Nat) : Except Nat Instr :=
  match fieldNat w 21 3 with
  | 0x0 =>
    checked (.cpyFlag (bitAt w 31) (fieldBits w 7 7) (fieldBits w 0 7))
      (true) (!bitAt w 30)
      (true) (fieldNat w 14 7 == 0)
  | 0x1 =>
    checked (.cpyCommit (bitAt w 31) (fieldBits w 14 7) (fieldBits w 0 3))
      (true) (!bitAt w 30)
      (true) (fieldNat w 3 11 == 0)
  | 0x2 =>
    checked (.htest (bitAt w 31) (fieldBits w 14 3) (fieldBits w 7 7))
      (true) (!bitAt w 30)
      (true) (fieldNat w 0 7 == 0 && fieldNat w 17 4 == 0)
  | 0x3 =>
    checked (.hcancel (bitAt w 31) (fieldBits w 7 7))
      (true) (!bitAt w 30)
      (true) (fieldNat w 0 7 == 0 && fieldNat w 14 7 == 0)
  | 0x4 =>
    checked (.hwait (bitAt w 31) (fieldBits w 7 7))
      (true) (!bitAt w 30)
      (true) (fieldNat w 0 7 == 0 && fieldNat w 14 7 == 0)
  | 0x5 =>
    checked (.cntrd (bitAt w 31) (fieldBits w 14 7))
      (true) (!bitAt w 30)
      (true) (fieldNat w 0 14 == 0)
  | _ => .error 2

/-- Words of major 0x38 (03 R50). -/
noncomputable def decodeMajor38 (w : Nat) : Except Nat Instr :=
    checked (.waitc (bitAt w 31) (fieldBits w 18 6) (fieldBits w 12 6) (fieldBits w 6 6) (fieldBits w 0 6))
      (true) (!bitAt w 30)
      (true) (true)

/-- Words of major 0x39 (03 R50). -/
noncomputable def decodeMajor39 (w : Nat) : Except Nat Instr :=
  match fieldNat w 21 3 with
  | 0x0 =>
    checked (.mxIssue (bitAt w 31) (fieldBits w 14 7) (fieldBits w 7 7))
      (true) (!bitAt w 30)
      (true) (fieldNat w 0 7 == 0)
  | 0x1 =>
    checked (.mxReady (bitAt w 31) (fieldBits w 14 7) (fieldBits w 10 4) (fieldBits w 0 1))
      (true) (!bitAt w 30)
      (fieldNat w 7 3 == 0) (fieldNat w 1 6 == 0)
  | 0x2 =>
    checked (.mxCancel (bitAt w 31))
      (true) (!bitAt w 30)
      (true) (fieldNat w 0 21 == 0)
  | 0x3 =>
    checked (.mxQuiesce (bitAt w 31))
      (true) (!bitAt w 30)
      (true) (fieldNat w 0 21 == 0)
  | 0x4 =>
    checked (.plZero (bitAt w 31) (fieldBits w 7 7) (fieldBits w 0 1))
      (true) (!bitAt w 30)
      (true) (fieldNat w 1 6 == 0 && fieldNat w 14 7 == 0)
  | 0x5 =>
    checked (.plClaim (bitAt w 31) (fieldBits w 7 7) (fieldBits w 0 1))
      (true) (!bitAt w 30)
      (true) (fieldNat w 1 6 == 0 && fieldNat w 14 7 == 0)
  | 0x6 =>
    checked (.plFree (bitAt w 31) (fieldBits w 7 7))
      (true) (!bitAt w 30)
      (true) (fieldNat w 0 7 == 0 && fieldNat w 14 7 == 0)
  | _ => .error 2

/-- Words of major 0x3A (03 R50). -/
noncomputable def decodeMajor3A (w : Nat) : Except Nat Instr :=
  match fieldNat w 21 3 with
  | 0x0 =>
    checked (.plLd (bitAt w 31) (fieldBits w 14 1) (fieldBits w 7 7) (fieldBits w 1 6))
      (true) (!bitAt w 30)
      (fieldNat w 0 1 == 0) (fieldNat w 15 6 == 0)
  | 0x1 =>
    checked (.plSt (bitAt w 31) (fieldBits w 7 7) (fieldBits w 1 6))
      (true) (!bitAt w 30)
      (fieldNat w 0 1 == 0) (fieldNat w 14 7 == 0)
  | 0x2 =>
    checked (.plRd (bitAt w 31) (fieldBits w 14 7) (fieldBits w 7 7) (fieldBits w 0 5))
      (true) (!bitAt w 30)
      (true) (fieldNat w 5 2 == 0)
  | 0x3 =>
    checked (.plWr (bitAt w 31) (fieldBits w 14 7) (fieldBits w 7 7) (fieldBits w 0 5))
      (true) (!bitAt w 30)
      (true) (fieldNat w 5 2 == 0)
  | 0x4 =>
    checked (.plScale (bitAt w 31) (fieldBits w 7 7) (fieldBits w 0 7))
      (true) (!bitAt w 30)
      (true) (fieldNat w 14 7 == 0)
  | 0x5 =>
    checked (.plSave (bitAt w 31) (fieldBits w 7 7))
      (true) (!bitAt w 30)
      (true) (fieldNat w 0 7 == 0 && fieldNat w 14 7 == 0)
  | 0x6 =>
    checked (.plRst (bitAt w 31) (fieldBits w 7 7))
      (true) (!bitAt w 30)
      (true) (fieldNat w 0 7 == 0 && fieldNat w 14 7 == 0)
  | _ => .error 2

/-- Words of major 0x3B (03 R50). -/
noncomputable def decodeMajor3B (w : Nat) : Except Nat Instr :=
  match fieldNat w 21 3 with
  | 0x0 =>
    checked (.tld (bitAt w 31) (fieldBits w 17 4) (fieldBits w 7 7) (fieldBits w 0 3))
      (true) (!bitAt w 30)
      (fieldNat w 14 3 == 0) (fieldNat w 3 4 == 0)
  | 0x1 =>
    checked (.tst (bitAt w 31) (fieldBits w 17 4) (fieldBits w 7 7))
      (true) (!bitAt w 30)
      (fieldNat w 14 3 == 0) (fieldNat w 0 7 == 0)
  | 0x2 =>
    checked (.tcvt (bitAt w 31) (fieldBits w 17 4) (fieldBits w 7 7) (fieldBits w 6 1) (fieldBits w 5 1) (fieldBits w 3 2) (fieldBits w 0 3))
      (true) (!bitAt w 30)
      (fieldNat w 14 3 == 0) (true)
  | 0x3 =>
    checked (.tzero (bitAt w 31) (fieldBits w 17 4) (fieldBits w 0 3))
      (true) (!bitAt w 30)
      (fieldNat w 14 3 == 0) (fieldNat w 3 11 == 0)
  | 0x4 =>
    checked (.ttrn (bitAt w 31) (fieldBits w 17 4) (fieldBits w 10 4) (fieldBits w 0 4))
      (true) (!bitAt w 30)
      (fieldNat w 7 3 == 0 && fieldNat w 14 3 == 0) (fieldNat w 4 3 == 0)
  | _ => .error 2

/-- Words of major 0x3C (03 R50). -/
noncomputable def decodeMajor3C (w : Nat) : Except Nat Instr :=
  match fieldNat w 21 3 with
  | 0x0 =>
    checked (.plwLoop (bitAt w 31) (fieldBits w 14 2) (fieldBits w 7 7))
      (true) (!bitAt w 30)
      (true) (fieldNat w 0 7 == 0 && fieldNat w 16 5 == 0)
  | 0x1 =>
    checked (.plwStrm (bitAt w 31) (fieldBits w 18 2) (fieldBits w 16 2) (fieldBits w 14 2) (fieldBits w 8 6) (fieldBits w 2 5))
      (true) (!bitAt w 30)
      (fieldNat w 0 2 == 0 && fieldNat w 7 1 == 0) (fieldNat w 20 1 == 0)
  | 0x2 =>
    checked (.plwGo (bitAt w 31) (fieldBits w 0 4))
      (true) (!bitAt w 30)
      (true) (fieldNat w 4 17 == 0)
  | 0x3 =>
    checked (.plwStop (bitAt w 31))
      (true) (!bitAt w 30)
      (true) (fieldNat w 0 21 == 0)
  | 0x4 =>
    checked (.qpop (bitAt w 31) (fieldBits w 14 7) (fieldBits w 0 2))
      (true) (!bitAt w 30)
      (true) (fieldNat w 2 12 == 0)
  | 0x5 =>
    checked (.qpeek (bitAt w 31) (fieldBits w 14 7) (fieldBits w 0 2))
      (true) (!bitAt w 30)
      (true) (fieldNat w 2 12 == 0)
  | 0x6 =>
    checked (.qlen (bitAt w 31) (fieldBits w 14 7) (fieldBits w 0 2))
      (true) (!bitAt w 30)
      (true) (fieldNat w 2 12 == 0)
  | 0x7 =>
    checked (.plwStat (bitAt w 31) (fieldBits w 14 7))
      (true) (!bitAt w 30)
      (true) (fieldNat w 0 14 == 0)
  | _ => .error 2

/-- Words of major 0x3D (03 R50). -/
noncomputable def decodeMajor3D (w : Nat) : Except Nat Instr :=
  match fieldNat w 21 3 with
  | 0x0 =>
    checked (.launch (bitAt w 31) (fieldBits w 14 7) (fieldBits w 8 6) (fieldBits w 1 6))
      (true) (!bitAt w 30)
      (fieldNat w 0 1 == 0 && fieldNat w 7 1 == 0) (true)
  | 0x1 =>
    checked (.qpush (bitAt w 31) (fieldBits w 14 7) (fieldBits w 8 6) (fieldBits w 1 6))
      (true) (!bitAt w 30)
      (fieldNat w 0 1 == 0 && fieldNat w 7 1 == 0) (true)
  | 0x2 =>
    checked (.kstat (bitAt w 31) (fieldBits w 15 6) (fieldBits w 8 6))
      (true) (!bitAt w 30)
      (fieldNat w 7 1 == 0 && fieldNat w 14 1 == 0) (fieldNat w 0 7 == 0)
  | 0x3 =>
    checked (.qstat (bitAt w 31) (fieldBits w 14 7) (fieldBits w 8 6))
      (true) (!bitAt w 30)
      (fieldNat w 7 1 == 0) (fieldNat w 0 7 == 0)
  | _ => .error 2

/-- Words of major 0x3E (03 R50, R51). -/
noncomputable def decodeMajor3E (w : Nat) : Except Nat Instr :=
  match fieldNat w 16 8 with
  | 0x0 =>
    checked (.srd (bitAt w 31) (fieldBits w 9 7) (fieldBits w 0 9))
      (true) (!bitAt w 30)
      (true) (true)
  | 0x1 =>
    checked (.swr (bitAt w 31) (fieldBits w 9 7) (fieldBits w 0 9))
      (true) (!bitAt w 30)
      (true) (true)
  | 0x2 =>
    checked (.tret (bitAt w 31))
      (true) (!bitAt w 30)
      (true) (fieldNat w 0 16 == 0)
  | 0x3 =>
    checked (.ecall (bitAt w 31) (fieldBits w 9 7) (fieldBits w 0 9))
      (true) (!bitAt w 30)
      (true) (true)
  | 0x10 =>
    checked (.ctxStop (bitAt w 31) (fieldBits w 9 7))
      (true) (!bitAt w 30)
      (true) (fieldNat w 0 9 == 0)
  | 0x11 =>
    checked (.ctxSave (bitAt w 31) (fieldBits w 9 7))
      (true) (!bitAt w 30)
      (true) (fieldNat w 0 9 == 0)
  | 0x12 =>
    checked (.ctxRst (bitAt w 31) (fieldBits w 10 6) (fieldBits w 0 1))
      (true) (!bitAt w 30)
      (fieldNat w 9 1 == 0) (fieldNat w 1 8 == 0)
  | 0x13 =>
    checked (.preempt (bitAt w 31) (fieldBits w 11 5) (fieldBits w 0 9))
      (true) (!bitAt w 30)
      (fieldNat w 9 2 == 0) (true)
  | 0x14 =>
    checked (.ckptMark (bitAt w 31) (fieldBits w 9 7) (fieldBits w 0 1))
      (true) (!bitAt w 30)
      (true) (fieldNat w 1 8 == 0)
  | 0x15 =>
    checked (.ckptStat (bitAt w 31) (fieldBits w 10 6))
      (true) (!bitAt w 30)
      (fieldNat w 9 1 == 0) (fieldNat w 0 9 == 0)
  | 0x20 =>
    checked (.patchLoad (bitAt w 31) (fieldBits w 10 6) (fieldBits w 0 4))
      (fieldNat w 4 5 == 0) (!bitAt w 30)
      (fieldNat w 9 1 == 0) (true)
  | 0x21 =>
    checked (.patchArm (bitAt w 31) (fieldBits w 0 4))
      (fieldNat w 4 5 == 0) (!bitAt w 30)
      (true) (fieldNat w 9 7 == 0)
  | 0x22 =>
    checked (.patchDisarm (bitAt w 31) (fieldBits w 0 4))
      (fieldNat w 4 5 == 0) (!bitAt w 30)
      (true) (fieldNat w 9 7 == 0)
  | 0x23 =>
    checked (.patchQry (bitAt w 31) (fieldBits w 9 7) (fieldBits w 0 4))
      (fieldNat w 4 5 == 0) (!bitAt w 30)
      (true) (true)
  | 0x30 =>
    checked (.pstateSet (bitAt w 31) (fieldBits w 9 7) (fieldBits w 0 3))
      (fieldNat w 3 6 == 0) (!bitAt w 30)
      (true) (true)
  | 0x31 =>
    checked (.park (bitAt w 31) (fieldBits w 9 7))
      (true) (!bitAt w 30)
      (true) (fieldNat w 0 9 == 0)
  | 0x32 =>
    checked (.unpark (bitAt w 31) (fieldBits w 9 7))
      (true) (!bitAt w 30)
      (true) (fieldNat w 0 9 == 0)
  | 0x40 =>
    checked (.errqSet (bitAt w 31) (fieldBits w 10 6) (fieldBits w 0 5))
      (fieldNat w 5 4 == 0) (!bitAt w 30)
      (fieldNat w 9 1 == 0) (true)
  | 0x41 =>
    checked (.tlbInv (bitAt w 31) (fieldBits w 10 6) (fieldBits w 0 1))
      (true) (!bitAt w 30)
      (fieldNat w 9 1 == 0) (fieldNat w 1 8 == 0)
  | 0x42 =>
    checked (.fenceTlb (bitAt w 31))
      (true) (!bitAt w 30)
      (true) (fieldNat w 0 16 == 0)
  | _ => .error 2

/-- The instruction a word holds, whatever the chain bit of a terminator or TGT word, or the subcode of the
ILLEGAL_OPCODE it raises (03 R52, R53). -/
noncomputable def decodeCore (w : Nat) : Except Nat Instr :=
  match fieldNat w 24 6 with
  | 0x01 => decodeMajor01 w
  | 0x02 => decodeMajor02 w
  | 0x03 => decodeMajor03 w
  | 0x04 => decodeMajor04 w
  | 0x05 => decodeMajor05 w
  | 0x06 => decodeMajor06 w
  | 0x08 => decodeMajor08 w
  | 0x09 => decodeMajor09 w
  | 0x0A => decodeMajor0A w
  | 0x0B => decodeMajor0B w
  | 0x0C => decodeMajor0C w
  | 0x0D => decodeMajor0D w
  | 0x0E => decodeMajor0E w
  | 0x10 => decodeMajor10 w
  | 0x11 => decodeMajor11 w
  | 0x12 => decodeMajor12 w
  | 0x13 => decodeMajor13 w
  | 0x14 => decodeMajor14 w
  | 0x15 => decodeMajor15 w
  | 0x16 => decodeMajor16 w
  | 0x17 => decodeMajor17 w
  | 0x18 => decodeMajor18 w
  | 0x19 => decodeMajor19 w
  | 0x1A => decodeMajor1A w
  | 0x1B => decodeMajor1B w
  | 0x1C => decodeMajor1C w
  | 0x1D => decodeMajor1D w
  | 0x1E => decodeMajor1E w
  | 0x20 => decodeMajor20 w
  | 0x21 => decodeMajor21 w
  | 0x22 => decodeMajor22 w
  | 0x23 => decodeMajor23 w
  | 0x24 => decodeMajor24 w
  | 0x25 => decodeMajor25 w
  | 0x26 => decodeMajor26 w
  | 0x27 => decodeMajor27 w
  | 0x29 => decodeMajor29 w
  | 0x2A => decodeMajor2A w
  | 0x2C => decodeMajor2C w
  | 0x2D => decodeMajor2D w
  | 0x2E => decodeMajor2E w
  | 0x2F => decodeMajor2F w
  | 0x30 => decodeMajor30 w
  | 0x31 => decodeMajor31 w
  | 0x32 => decodeMajor32 w
  | 0x33 => decodeMajor33 w
  | 0x34 => decodeMajor34 w
  | 0x36 => decodeMajor36 w
  | 0x37 => decodeMajor37 w
  | 0x38 => decodeMajor38 w
  | 0x39 => decodeMajor39 w
  | 0x3A => decodeMajor3A w
  | 0x3B => decodeMajor3B w
  | 0x3C => decodeMajor3C w
  | 0x3D => decodeMajor3D w
  | 0x3E => decodeMajor3E w
  | _ => .error 1

/-- Why a word alone is refused: ILLEGAL_OPCODE with its subcode, or CHAIN_FAULT for a chain bit on a word that can
only end a chain or stand outside one (03 R38, R49, R53). -/
inductive DecodeError where
  | illegal (subcode : Nat)
  | chain (subcode : Nat)
deriving DecidableEq, Repr

/-- The instructions whose word has C = 0 always: the terminators of 03 R38 and TGT. -/
def endsChain : Instr → Bool
  | .brm .. | .jmp .. | .call .. | .jmpr .. | .callr .. | .ret .. | .exit | .tgt .. => true
  | _ => false

/-- Decoding one word by itself: total, and rejecting by name. A terminator with C = 1 breaks R38 (subcode 7), a TGT
with C = 1 breaks R49 (subcode 5). -/
noncomputable def decodeWord (w : Word) : Except DecodeError Instr :=
  match decodeCore w.toNat with
  | .error n => .error (.illegal n)
  | .ok i =>
    if endsChain i && bitAt w.toNat 31 then
      match i with
      | .tgt .. => .error (.chain 5)
      | _ => .error (.chain 7)
    else .ok i

/-- A list of bytes, lowest address first, as one little-endian number (01 R5). -/
def leNat : List (BitVec 8) → Nat
  | [] => 0
  | b :: bs => b.toNat + 256 * leNat bs

/-- The low `n` bytes of a number, lowest address first (01 R5). -/
def leBytes : Nat → Nat → List (BitVec 8)
  | 0, _ => []
  | n + 1, v => BitVec.ofNat 8 v :: leBytes n (v / 256)

/-- Decoding from the bytes of memory, lowest address first; `none` for fewer than four bytes. -/
noncomputable def decodeBytes (bs : List (BitVec 8)) : Option (Except DecodeError Instr) :=
  if bs.length < 4 then none else some (decodeWord (BitVec.ofNat 32 (leNat (bs.take 4))))

/-- Bit as a number. -/
def bitNat (b : Bool) : Nat := if b then 1 else 0

/-- The word of an instruction, from the forms of 03 R43 and the opcode map of R50 and R51; 0 for an event, which has
no word. -/
def encodeNat (i : Instr) : Nat :=
  match i with
  | .iadd c u d a b => 0x01000000 + bitNat c * 0x80000000 + bitNat u * 0x40000000 + d.toNat * 0x4000 + a.toNat * 0x80 + b.toNat
  | .isub c u d a b => 0x01200000 + bitNat c * 0x80000000 + bitNat u * 0x40000000 + d.toNat * 0x4000 + a.toNat * 0x80 + b.toNat
  | .iminS32 c u d a b => 0x01400000 + bitNat c * 0x80000000 + bitNat u * 0x40000000 + d.toNat * 0x4000 + a.toNat * 0x80 + b.toNat
  | .imaxS32 c u d a b => 0x01600000 + bitNat c * 0x80000000 + bitNat u * 0x40000000 + d.toNat * 0x4000 + a.toNat * 0x80 + b.toNat
  | .iminN32 c u d a b => 0x01800000 + bitNat c * 0x80000000 + bitNat u * 0x40000000 + d.toNat * 0x4000 + a.toNat * 0x80 + b.toNat
  | .imaxN32 c u d a b => 0x01A00000 + bitNat c * 0x80000000 + bitNat u * 0x40000000 + d.toNat * 0x4000 + a.toNat * 0x80 + b.toNat
  | .iabsd c u d a b => 0x01C00000 + bitNat c * 0x80000000 + bitNat u * 0x40000000 + d.toNat * 0x4000 + a.toNat * 0x80 + b.toNat
  | .ineg c u d a => 0x01E00000 + bitNat c * 0x80000000 + bitNat u * 0x40000000 + d.toNat * 0x4000 + a.toNat * 0x80
  | .imul c u d a b => 0x02000000 + bitNat c * 0x80000000 + bitNat u * 0x40000000 + d.toNat * 0x4000 + a.toNat * 0x80 + b.toNat
  | .imulhS32 c u d a b => 0x02200000 + bitNat c * 0x80000000 + bitNat u * 0x40000000 + d.toNat * 0x4000 + a.toNat * 0x80 + b.toNat
  | .imulhN32 c u d a b => 0x02400000 + bitNat c * 0x80000000 + bitNat u * 0x40000000 + d.toNat * 0x4000 + a.toNat * 0x80 + b.toNat
  | .imad c u d a b => 0x02600000 + bitNat c * 0x80000000 + bitNat u * 0x40000000 + d.toNat * 0x4000 + a.toNat * 0x80 + b.toNat
  | .idivS32 c u d a b => 0x02800000 + bitNat c * 0x80000000 + bitNat u * 0x40000000 + d.toNat * 0x4000 + a.toNat * 0x80 + b.toNat
  | .idivN32 c u d a b => 0x02A00000 + bitNat c * 0x80000000 + bitNat u * 0x40000000 + d.toNat * 0x4000 + a.toNat * 0x80 + b.toNat
  | .iremS32 c u d a b => 0x02C00000 + bitNat c * 0x80000000 + bitNat u * 0x40000000 + d.toNat * 0x4000 + a.toNat * 0x80 + b.toNat
  | .iremN32 c u d a b => 0x02E00000 + bitNat c * 0x80000000 + bitNat u * 0x40000000 + d.toNat * 0x4000 + a.toNat * 0x80 + b.toNat
  | .iaddD c u d a b => 0x03000000 + bitNat c * 0x80000000 + bitNat u * 0x40000000 + d.toNat * 0x8000 + a.toNat * 0x100 + b.toNat * 0x2
  | .isubD c u d a b => 0x03200000 + bitNat c * 0x80000000 + bitNat u * 0x40000000 + d.toNat * 0x8000 + a.toNat * 0x100 + b.toNat * 0x2
  | .imulD c u d a b => 0x03400000 + bitNat c * 0x80000000 + bitNat u * 0x40000000 + d.toNat * 0x8000 + a.toNat * 0x100 + b.toNat * 0x2
  | .imadwS32 c u d a b => 0x03600000 + bitNat c * 0x80000000 + bitNat u * 0x40000000 + d.toNat * 0x8000 + a.toNat * 0x80 + b.toNat
  | .imadwN32 c u d a b => 0x03800000 + bitNat c * 0x80000000 + bitNat u * 0x40000000 + d.toNat * 0x8000 + a.toNat * 0x80 + b.toNat
  | .shlD c u d a b => 0x03A00000 + bitNat c * 0x80000000 + bitNat u * 0x40000000 + d.toNat * 0x8000 + a.toNat * 0x100 + b.toNat
  | .shrD c u d a b => 0x03C00000 + bitNat c * 0x80000000 + bitNat u * 0x40000000 + d.toNat * 0x8000 + a.toNat * 0x100 + b.toNat
  | .sarD c u d a b => 0x03E00000 + bitNat c * 0x80000000 + bitNat u * 0x40000000 + d.toNat * 0x8000 + a.toNat * 0x100 + b.toNat
  | .and c u d a b => 0x04000000 + bitNat c * 0x80000000 + bitNat u * 0x40000000 + d.toNat * 0x4000 + a.toNat * 0x80 + b.toNat
  | .or c u d a b => 0x04200000 + bitNat c * 0x80000000 + bitNat u * 0x40000000 + d.toNat * 0x4000 + a.toNat * 0x80 + b.toNat
  | .xor c u d a b => 0x04400000 + bitNat c * 0x80000000 + bitNat u * 0x40000000 + d.toNat * 0x4000 + a.toNat * 0x80 + b.toNat
  | .andn c u d a b => 0x04600000 + bitNat c * 0x80000000 + bitNat u * 0x40000000 + d.toNat * 0x4000 + a.toNat * 0x80 + b.toNat
  | .orn c u d a b => 0x04800000 + bitNat c * 0x80000000 + bitNat u * 0x40000000 + d.toNat * 0x4000 + a.toNat * 0x80 + b.toNat
  | .xnor c u d a b => 0x04A00000 + bitNat c * 0x80000000 + bitNat u * 0x40000000 + d.toNat * 0x4000 + a.toNat * 0x80 + b.toNat
  | .not c u d a => 0x04C00000 + bitNat c * 0x80000000 + bitNat u * 0x40000000 + d.toNat * 0x4000 + a.toNat * 0x80
  | .mov c u d a => 0x04E00000 + bitNat c * 0x80000000 + bitNat u * 0x40000000 + d.toNat * 0x4000 + a.toNat * 0x80
  | .shl c u d a b => 0x05000000 + bitNat c * 0x80000000 + bitNat u * 0x40000000 + d.toNat * 0x4000 + a.toNat * 0x80 + b.toNat
  | .shr c u d a b => 0x05200000 + bitNat c * 0x80000000 + bitNat u * 0x40000000 + d.toNat * 0x4000 + a.toNat * 0x80 + b.toNat
  | .sar c u d a b => 0x05400000 + bitNat c * 0x80000000 + bitNat u * 0x40000000 + d.toNat * 0x4000 + a.toNat * 0x80 + b.toNat
  | .rotl c u d a b => 0x05600000 + bitNat c * 0x80000000 + bitNat u * 0x40000000 + d.toNat * 0x4000 + a.toNat * 0x80 + b.toNat
  | .popc c u d a => 0x05800000 + bitNat c * 0x80000000 + bitNat u * 0x40000000 + d.toNat * 0x4000 + a.toNat * 0x80
  | .clz c u d a => 0x05A00000 + bitNat c * 0x80000000 + bitNat u * 0x40000000 + d.toNat * 0x4000 + a.toNat * 0x80
  | .brev c u d a => 0x05C00000 + bitNat c * 0x80000000 + bitNat u * 0x40000000 + d.toNat * 0x4000 + a.toNat * 0x80
  | .ffs c u d a => 0x05E00000 + bitNat c * 0x80000000 + bitNat u * 0x40000000 + d.toNat * 0x4000 + a.toNat * 0x80
  | .bfxS32 c u d a b => 0x06000000 + bitNat c * 0x80000000 + bitNat u * 0x40000000 + d.toNat * 0x4000 + a.toNat * 0x80 + b.toNat
  | .bfxN32 c u d a b => 0x06200000 + bitNat c * 0x80000000 + bitNat u * 0x40000000 + d.toNat * 0x4000 + a.toNat * 0x80 + b.toNat
  | .bfi c u d a b => 0x06400000 + bitNat c * 0x80000000 + bitNat u * 0x40000000 + d.toNat * 0x4000 + a.toNat * 0x80 + b.toNat
  | .perm c u d a b => 0x06600000 + bitNat c * 0x80000000 + bitNat u * 0x40000000 + d.toNat * 0x4000 + a.toNat * 0x80 + b.toNat
  | .shf c u d a b => 0x06800000 + bitNat c * 0x80000000 + bitNat u * 0x40000000 + d.toNat * 0x4000 + a.toNat * 0x80 + b.toNat
  | .iaddsS32 c u d a b => 0x06A00000 + bitNat c * 0x80000000 + bitNat u * 0x40000000 + d.toNat * 0x4000 + a.toNat * 0x80 + b.toNat
  | .isubsS32 c u d a b => 0x06C00000 + bitNat c * 0x80000000 + bitNat u * 0x40000000 + d.toNat * 0x4000 + a.toNat * 0x80 + b.toNat
  | .iaddsN32 c u d a b => 0x06E00000 + bitNat c * 0x80000000 + bitNat u * 0x40000000 + d.toNat * 0x4000 + a.toNat * 0x80 + b.toNat
  | .iaddi c u d a imm => 0x08000000 + bitNat c * 0x80000000 + bitNat u * 0x40000000 + d.toNat * 0x20000 + a.toNat * 0x400 + imm.toNat
  | .andi c u d a imm => 0x09000000 + bitNat c * 0x80000000 + bitNat u * 0x40000000 + d.toNat * 0x20000 + a.toNat * 0x400 + imm.toNat
  | .ori c u d a imm => 0x0A000000 + bitNat c * 0x80000000 + bitNat u * 0x40000000 + d.toNat * 0x20000 + a.toNat * 0x400 + imm.toNat
  | .xori c u d a imm => 0x0B000000 + bitNat c * 0x80000000 + bitNat u * 0x40000000 + d.toNat * 0x20000 + a.toNat * 0x400 + imm.toNat
  | .shfi c u d a sc n => 0x0C000000 + bitNat c * 0x80000000 + bitNat u * 0x40000000 + d.toNat * 0x20000 + a.toNat * 0x400 + sc.toNat * 0x100 + n.toNat
  | .imuli c u d a imm => 0x0D000000 + bitNat c * 0x80000000 + bitNat u * 0x40000000 + d.toNat * 0x20000 + a.toNat * 0x400 + imm.toNat
  | .leai c u d a imm => 0x0E000000 + bitNat c * 0x80000000 + bitNat u * 0x40000000 + d.toNat * 0x40000 + a.toNat * 0x800 + imm.toNat
  | .movi c u d imm => 0x10000000 + bitNat c * 0x80000000 + bitNat u * 0x40000000 + d.toNat * 0x20000 + imm.toNat
  | .movhi c u d imm => 0x11000000 + bitNat c * 0x80000000 + bitNat u * 0x40000000 + d.toNat * 0x20000 + imm.toNat
  | .kld c u d k => 0x12000000 + bitNat c * 0x80000000 + bitNat u * 0x40000000 + d.toNat * 0x20000 + k.toNat
  | .isetp c u f e p a b => 0x13000000 + bitNat c * 0x80000000 + bitNat u * 0x40000000 + f.toNat * 0x200000 + e.toNat * 0x40000 + p.toNat * 0x4000 + a.toNat * 0x80 + b.toNat
  | .fsetp c u f e p a b => 0x14000000 + bitNat c * 0x80000000 + bitNat u * 0x40000000 + f.toNat * 0x200000 + e.toNat * 0x40000 + p.toNat * 0x4000 + a.toNat * 0x80 + b.toNat
  | .pand c u d a b => 0x15000000 + bitNat c * 0x80000000 + bitNat u * 0x40000000 + d.toNat * 0x4000 + a.toNat * 0x80 + b.toNat
  | .por c u d a b => 0x15200000 + bitNat c * 0x80000000 + bitNat u * 0x40000000 + d.toNat * 0x4000 + a.toNat * 0x80 + b.toNat
  | .pxor c u d a b => 0x15400000 + bitNat c * 0x80000000 + bitNat u * 0x40000000 + d.toNat * 0x4000 + a.toNat * 0x80 + b.toNat
  | .pnot c u d a => 0x15600000 + bitNat c * 0x80000000 + bitNat u * 0x40000000 + d.toNat * 0x4000 + a.toNat * 0x80
  | .p2v c u d => 0x15800000 + bitNat c * 0x80000000 + bitNat u * 0x40000000 + d.toNat * 0x4000
  | .v2p c u a => 0x15A00000 + bitNat c * 0x80000000 + bitNat u * 0x40000000 + a.toNat * 0x80
  | .pset c u d b => 0x15C00000 + bitNat c * 0x80000000 + bitNat u * 0x40000000 + d.toNat * 0x4000 + b.toNat
  | .selp c u d a b p => 0x16000000 + bitNat c * 0x80000000 + bitNat u * 0x40000000 + d.toNat * 0x20000 + a.toNat * 0x400 + b.toNat * 0x8 + p.toNat
  | .mand c u d a b => 0x17000000 + bitNat c * 0x80000000 + bitNat u * 0x40000000 + d.toNat * 0x4000 + a.toNat * 0x80 + b.toNat
  | .mor c u d a b => 0x17200000 + bitNat c * 0x80000000 + bitNat u * 0x40000000 + d.toNat * 0x4000 + a.toNat * 0x80 + b.toNat
  | .mxor c u d a b => 0x17400000 + bitNat c * 0x80000000 + bitNat u * 0x40000000 + d.toNat * 0x4000 + a.toNat * 0x80 + b.toNat
  | .mnot c u d a => 0x17600000 + bitNat c * 0x80000000 + bitNat u * 0x40000000 + d.toNat * 0x4000 + a.toNat * 0x80
  | .mfromv c u d a => 0x17800000 + bitNat c * 0x80000000 + bitNat u * 0x40000000 + d.toNat * 0x4000 + a.toNat * 0x80
  | .mtov c u d a => 0x17A00000 + bitNat c * 0x80000000 + bitNat u * 0x40000000 + d.toNat * 0x4000 + a.toNat * 0x80
  | .mpopc c u d a => 0x17C00000 + bitNat c * 0x80000000 + bitNat u * 0x40000000 + d.toNat * 0x4000 + a.toNat * 0x80
  | .mself c u d => 0x17E00000 + bitNat c * 0x80000000 + bitNat u * 0x40000000 + d.toNat * 0x4000
  | .fadd c u d a b => 0x18000000 + bitNat c * 0x80000000 + bitNat u * 0x40000000 + d.toNat * 0x4000 + a.toNat * 0x80 + b.toNat
  | .fsub c u d a b => 0x18200000 + bitNat c * 0x80000000 + bitNat u * 0x40000000 + d.toNat * 0x4000 + a.toNat * 0x80 + b.toNat
  | .fmul c u d a b => 0x18400000 + bitNat c * 0x80000000 + bitNat u * 0x40000000 + d.toNat * 0x4000 + a.toNat * 0x80 + b.toNat
  | .fmin c u d a b => 0x18600000 + bitNat c * 0x80000000 + bitNat u * 0x40000000 + d.toNat * 0x4000 + a.toNat * 0x80 + b.toNat
  | .fmax c u d a b => 0x18800000 + bitNat c * 0x80000000 + bitNat u * 0x40000000 + d.toNat * 0x4000 + a.toNat * 0x80 + b.toNat
  | .fabs c u d a => 0x18A00000 + bitNat c * 0x80000000 + bitNat u * 0x40000000 + d.toNat * 0x4000 + a.toNat * 0x80
  | .fneg c u d a => 0x18C00000 + bitNat c * 0x80000000 + bitNat u * 0x40000000 + d.toNat * 0x4000 + a.toNat * 0x80
  | .fcpsgn c u d a b => 0x18E00000 + bitNat c * 0x80000000 + bitNat u * 0x40000000 + d.toNat * 0x4000 + a.toNat * 0x80 + b.toNat
  | .fma c u d a b => 0x19000000 + bitNat c * 0x80000000 + bitNat u * 0x40000000 + d.toNat * 0x4000 + a.toNat * 0x80 + b.toNat
  | .fms c u d a b => 0x19200000 + bitNat c * 0x80000000 + bitNat u * 0x40000000 + d.toNat * 0x4000 + a.toNat * 0x80 + b.toNat
  | .fnma c u d a b => 0x19400000 + bitNat c * 0x80000000 + bitNat u * 0x40000000 + d.toNat * 0x4000 + a.toNat * 0x80 + b.toNat
  | .fnms c u d a b => 0x19600000 + bitNat c * 0x80000000 + bitNat u * 0x40000000 + d.toNat * 0x4000 + a.toNat * 0x80 + b.toNat
  | .frcp c u d a => 0x1A000000 + bitNat c * 0x80000000 + bitNat u * 0x40000000 + d.toNat * 0x4000 + a.toNat * 0x80
  | .frsq c u d a => 0x1A200000 + bitNat c * 0x80000000 + bitNat u * 0x40000000 + d.toNat * 0x4000 + a.toNat * 0x80
  | .fsqrta c u d a => 0x1A400000 + bitNat c * 0x80000000 + bitNat u * 0x40000000 + d.toNat * 0x4000 + a.toNat * 0x80
  | .fex2 c u d a => 0x1A600000 + bitNat c * 0x80000000 + bitNat u * 0x40000000 + d.toNat * 0x4000 + a.toNat * 0x80
  | .flg2 c u d a => 0x1A800000 + bitNat c * 0x80000000 + bitNat u * 0x40000000 + d.toNat * 0x4000 + a.toNat * 0x80
  | .fsinp c u d a => 0x1AA00000 + bitNat c * 0x80000000 + bitNat u * 0x40000000 + d.toNat * 0x4000 + a.toNat * 0x80
  | .fcosp c u d a => 0x1AC00000 + bitNat c * 0x80000000 + bitNat u * 0x40000000 + d.toNat * 0x4000 + a.toNat * 0x80
  | .ftanh c u d a => 0x1AE00000 + bitNat c * 0x80000000 + bitNat u * 0x40000000 + d.toNat * 0x4000 + a.toNat * 0x80
  | .fdiv c u d a b => 0x1B000000 + bitNat c * 0x80000000 + bitNat u * 0x40000000 + d.toNat * 0x4000 + a.toNat * 0x80 + b.toNat
  | .fsqrt c u d a => 0x1B200000 + bitNat c * 0x80000000 + bitNat u * 0x40000000 + d.toNat * 0x4000 + a.toNat * 0x80
  | .frintRn c u d a => 0x1B400000 + bitNat c * 0x80000000 + bitNat u * 0x40000000 + d.toNat * 0x4000 + a.toNat * 0x80
  | .frintRz c u d a => 0x1B600000 + bitNat c * 0x80000000 + bitNat u * 0x40000000 + d.toNat * 0x4000 + a.toNat * 0x80
  | .frintRd c u d a => 0x1B800000 + bitNat c * 0x80000000 + bitNat u * 0x40000000 + d.toNat * 0x4000 + a.toNat * 0x80
  | .frintRu c u d a => 0x1BA00000 + bitNat c * 0x80000000 + bitNat u * 0x40000000 + d.toNat * 0x4000 + a.toNat * 0x80
  | .fclass c u d a => 0x1BC00000 + bitNat c * 0x80000000 + bitNat u * 0x40000000 + d.toNat * 0x4000 + a.toNat * 0x80
  | .fscalb c u d a b => 0x1BE00000 + bitNat c * 0x80000000 + bitNat u * 0x40000000 + d.toNat * 0x4000 + a.toNat * 0x80 + b.toNat
  | .cvt c u sc r d a b => 0x1C000000 + bitNat c * 0x80000000 + bitNat u * 0x40000000 + sc.toNat * 0x800000 + r.toNat * 0x200000 + d.toNat * 0x4000 + a.toNat * 0x80 + b.toNat
  | .pkbf c u d a b => 0x1D000000 + bitNat c * 0x80000000 + bitNat u * 0x40000000 + d.toNat * 0x4000 + a.toNat * 0x80 + b.toNat
  | .pke4Lo c u d a b => 0x1D200000 + bitNat c * 0x80000000 + bitNat u * 0x40000000 + d.toNat * 0x4000 + a.toNat * 0x80 + b.toNat
  | .pke4Hi c u d a b => 0x1D400000 + bitNat c * 0x80000000 + bitNat u * 0x40000000 + d.toNat * 0x4000 + a.toNat * 0x80 + b.toNat
  | .pke5Lo c u d a b => 0x1D600000 + bitNat c * 0x80000000 + bitNat u * 0x40000000 + d.toNat * 0x4000 + a.toNat * 0x80 + b.toNat
  | .pke5Hi c u d a b => 0x1D800000 + bitNat c * 0x80000000 + bitNat u * 0x40000000 + d.toNat * 0x4000 + a.toNat * 0x80 + b.toNat
  | .pkpsLo c u d a b => 0x1DA00000 + bitNat c * 0x80000000 + bitNat u * 0x40000000 + d.toNat * 0x4000 + a.toNat * 0x80 + b.toNat
  | .pkpsHi c u d a b => 0x1DC00000 + bitNat c * 0x80000000 + bitNat u * 0x40000000 + d.toNat * 0x4000 + a.toNat * 0x80 + b.toNat
  | .unpk c u d a j => 0x1DE00000 + bitNat c * 0x80000000 + bitNat u * 0x40000000 + d.toNat * 0x4000 + a.toNat * 0x80 + j.toNat
  | .dot2Bf16 c u d a b => 0x1E000000 + bitNat c * 0x80000000 + bitNat u * 0x40000000 + d.toNat * 0x4000 + a.toNat * 0x80 + b.toNat
  | .dot4E4m3 c u d a b => 0x1E200000 + bitNat c * 0x80000000 + bitNat u * 0x40000000 + d.toNat * 0x4000 + a.toNat * 0x80 + b.toNat
  | .dot4E5m2 c u d a b => 0x1E400000 + bitNat c * 0x80000000 + bitNat u * 0x40000000 + d.toNat * 0x4000 + a.toNat * 0x80 + b.toNat
  | .dot4Ps8 c u d a b => 0x1E600000 + bitNat c * 0x80000000 + bitNat u * 0x40000000 + d.toNat * 0x4000 + a.toNat * 0x80 + b.toNat
  | .dot4S8 c u d a b => 0x1E800000 + bitNat c * 0x80000000 + bitNat u * 0x40000000 + d.toNat * 0x4000 + a.toNat * 0x80 + b.toNat
  | .dot4N8 c u d a b => 0x1EA00000 + bitNat c * 0x80000000 + bitNat u * 0x40000000 + d.toNat * 0x4000 + a.toNat * 0x80 + b.toNat
  | .hadd2Bf16 c u d a b => 0x1EC00000 + bitNat c * 0x80000000 + bitNat u * 0x40000000 + d.toNat * 0x4000 + a.toNat * 0x80 + b.toNat
  | .hmul2Bf16 c u d a b => 0x1EE00000 + bitNat c * 0x80000000 + bitNat u * 0x40000000 + d.toNat * 0x4000 + a.toNat * 0x80 + b.toNat
  | .brm u n f w x y z => 0x20000000 + bitNat u * 0x40000000 + n.toNat * 0x400000 + f.toNat * 0x100000 + w.toNat * 0x10000 + x.toNat * 0x1000 + y.toNat * 0x100 + z.toNat * 0x10
  | .tgt g h => 0x21000000 + g.toNat * 0x1000 + h.toNat
  | .jmp u imm => 0x22000000 + bitNat u * 0x40000000 + imm.toNat
  | .call u d imm => 0x23000000 + bitNat u * 0x40000000 + d.toNat * 0x40000 + imm.toNat
  | .jmpr a => 0x24000000 + a.toNat * 0x100
  | .callr d a => 0x24200000 + d.toNat * 0x8000 + a.toNat * 0x100
  | .ret a => 0x24400000 + a.toNat * 0x100
  | .exit => 0x24600000
  | .spawn c d a b => 0x24800000 + bitNat c * 0x80000000 + d.toNat * 0x4000 + a.toNat * 0x100 + b.toNat
  | .spawnf c d a b => 0x24A00000 + bitNat c * 0x80000000 + d.toNat * 0x4000 + a.toNat * 0x100 + b.toNat
  | .trap c b => 0x24C00000 + bitNat c * 0x80000000 + b.toNat
  | .bkpt c => 0x24E00000 + bitNat c * 0x80000000
  | .nop c => 0x25000000 + bitNat c * 0x80000000
  | .pause c a => 0x25200000 + bitNat c * 0x80000000 + a.toNat * 0x80
  | .yield c => 0x25400000 + bitNat c * 0x80000000
  | .ffence c => 0x25600000 + bitNat c * 0x80000000
  | .clkrd c d => 0x25800000 + bitNat c * 0x80000000 + d.toNat * 0x8000
  | .renew c a => 0x25A00000 + bitNat c * 0x80000000 + a.toNat * 0x100
  | .resume c => 0x25C00000 + bitNat c * 0x80000000
  | .shflIdx c d a m => 0x26000000 + bitNat c * 0x80000000 + d.toNat * 0x4000 + a.toNat * 0x80 + m.toNat
  | .shflXor c d a m => 0x26200000 + bitNat c * 0x80000000 + d.toNat * 0x4000 + a.toNat * 0x80 + m.toNat
  | .shflUp c d a m => 0x26400000 + bitNat c * 0x80000000 + d.toNat * 0x4000 + a.toNat * 0x80 + m.toNat
  | .shflDn c d a m => 0x26600000 + bitNat c * 0x80000000 + d.toNat * 0x4000 + a.toNat * 0x80 + m.toNat
  | .voteAll c d n a m => 0x26800000 + bitNat c * 0x80000000 + d.toNat * 0x4000 + n.toNat * 0x400 + a.toNat * 0x80 + m.toNat
  | .voteAny c d n a m => 0x26A00000 + bitNat c * 0x80000000 + d.toNat * 0x4000 + n.toNat * 0x400 + a.toNat * 0x80 + m.toNat
  | .ballot c d n a m => 0x26C00000 + bitNat c * 0x80000000 + d.toNat * 0x4000 + n.toNat * 0x400 + a.toNat * 0x80 + m.toNat
  | .matchLanes c d a m => 0x26E00000 + bitNat c * 0x80000000 + d.toNat * 0x4000 + a.toNat * 0x80 + m.toNat
  | .radd c d a m => 0x27000000 + bitNat c * 0x80000000 + d.toNat * 0x4000 + a.toNat * 0x80 + m.toNat
  | .rminS32 c d a m => 0x27200000 + bitNat c * 0x80000000 + d.toNat * 0x4000 + a.toNat * 0x80 + m.toNat
  | .rmaxS32 c d a m => 0x27400000 + bitNat c * 0x80000000 + d.toNat * 0x4000 + a.toNat * 0x80 + m.toNat
  | .rand c d a m => 0x27600000 + bitNat c * 0x80000000 + d.toNat * 0x4000 + a.toNat * 0x80 + m.toNat
  | .ror c d a m => 0x27800000 + bitNat c * 0x80000000 + d.toNat * 0x4000 + a.toNat * 0x80 + m.toNat
  | .rxor c d a m => 0x27A00000 + bitNat c * 0x80000000 + d.toNat * 0x4000 + a.toNat * 0x80 + m.toNat
  | .rfadd c d a m => 0x27C00000 + bitNat c * 0x80000000 + d.toNat * 0x4000 + a.toNat * 0x80 + m.toNat
  | .rminN32 c d a m => 0x27E00000 + bitNat c * 0x80000000 + d.toNat * 0x4000 + a.toNat * 0x80 + m.toNat
  | .barSync c n => 0x29000000 + bitNat c * 0x80000000 + n.toNat
  | .barArv c d n => 0x29010000 + bitNat c * 0x80000000 + d.toNat * 0x200 + n.toNat
  | .barWait c d n => 0x29020000 + bitNat c * 0x80000000 + d.toNat * 0x200 + n.toNat
  | .barClu c => 0x29030000 + bitNat c * 0x80000000
  | .barGrid c => 0x29040000 + bitNat c * 0x80000000
  | .gsync c m => 0x29050000 + bitNat c * 0x80000000 + m.toNat
  | .barTest c d n => 0x29060000 + bitNat c * 0x80000000 + d.toNat * 0x200 + n.toNat
  | .barSet c d n => 0x29070000 + bitNat c * 0x80000000 + d.toNat * 0x200 + n.toNat
  | .waitNe c d a b => 0x2A000000 + bitNat c * 0x80000000 + d.toNat * 0x4000 + a.toNat * 0x100 + b.toNat
  | .waitEq c d a b => 0x2A200000 + bitNat c * 0x80000000 + d.toNat * 0x4000 + a.toNat * 0x100 + b.toNat
  | .waitGe c d a b => 0x2A400000 + bitNat c * 0x80000000 + d.toNat * 0x4000 + a.toNat * 0x100 + b.toNat
  | .watch c d a => 0x2A600000 + bitNat c * 0x80000000 + d.toNat * 0x4000 + a.toNat * 0x100
  | .unwatch c d => 0x2A800000 + bitNat c * 0x80000000 + d.toNat * 0x4000
  | .wake c a => 0x2AA00000 + bitNat c * 0x80000000 + a.toNat * 0x100
  | .ld c u t z d b o => 0x2C000000 + bitNat c * 0x80000000 + bitNat u * 0x40000000 + t.toNat * 0x400000 + z.toNat * 0x80000 + d.toNat * 0x1000 + b.toNat * 0x40 + o.toNat
  | .st c u t z d b o => 0x2D000000 + bitNat c * 0x80000000 + bitNat u * 0x40000000 + t.toNat * 0x400000 + z.toNat * 0x80000 + d.toNat * 0x1000 + b.toNat * 0x40 + o.toNat
  | .lds c u t z d b o => 0x2E000000 + bitNat c * 0x80000000 + bitNat u * 0x40000000 + t.toNat * 0x400000 + z.toNat * 0x80000 + d.toNat * 0x1000 + b.toNat * 0x20 + o.toNat
  | .sts c u t z d b o => 0x2F000000 + bitNat c * 0x80000000 + bitNat u * 0x40000000 + t.toNat * 0x400000 + z.toNat * 0x80000 + d.toNat * 0x1000 + b.toNat * 0x20 + o.toNat
  | .ldf c u t f d b o => 0x30000000 + bitNat c * 0x80000000 + bitNat u * 0x40000000 + t.toNat * 0x400000 + f.toNat * 0x80000 + d.toNat * 0x1000 + b.toNat * 0x40 + o.toNat
  | .atomAdd c u w r sc d a b => 0x31000000 + bitNat c * 0x80000000 + bitNat u * 0x40000000 + w.toNat * 0x100000 + r.toNat * 0x40000 + sc.toNat * 0x8000 + d.toNat * 0x400 + a.toNat * 0x40 + b.toNat
  | .atomMinS32 c u w r sc d a b => 0x31200000 + bitNat c * 0x80000000 + bitNat u * 0x40000000 + w.toNat * 0x100000 + r.toNat * 0x40000 + sc.toNat * 0x8000 + d.toNat * 0x400 + a.toNat * 0x40 + b.toNat
  | .atomMaxS32 c u w r sc d a b => 0x31400000 + bitNat c * 0x80000000 + bitNat u * 0x40000000 + w.toNat * 0x100000 + r.toNat * 0x40000 + sc.toNat * 0x8000 + d.toNat * 0x400 + a.toNat * 0x40 + b.toNat
  | .atomMinN32 c u w r sc d a b => 0x31600000 + bitNat c * 0x80000000 + bitNat u * 0x40000000 + w.toNat * 0x100000 + r.toNat * 0x40000 + sc.toNat * 0x8000 + d.toNat * 0x400 + a.toNat * 0x40 + b.toNat
  | .atomMaxN32 c u w r sc d a b => 0x31800000 + bitNat c * 0x80000000 + bitNat u * 0x40000000 + w.toNat * 0x100000 + r.toNat * 0x40000 + sc.toNat * 0x8000 + d.toNat * 0x400 + a.toNat * 0x40 + b.toNat
  | .atomAnd c u w r sc d a b => 0x31A00000 + bitNat c * 0x80000000 + bitNat u * 0x40000000 + w.toNat * 0x100000 + r.toNat * 0x40000 + sc.toNat * 0x8000 + d.toNat * 0x400 + a.toNat * 0x40 + b.toNat
  | .atomOr c u w r sc d a b => 0x31C00000 + bitNat c * 0x80000000 + bitNat u * 0x40000000 + w.toNat * 0x100000 + r.toNat * 0x40000 + sc.toNat * 0x8000 + d.toNat * 0x400 + a.toNat * 0x40 + b.toNat
  | .atomXor c u w r sc d a b => 0x31E00000 + bitNat c * 0x80000000 + bitNat u * 0x40000000 + w.toNat * 0x100000 + r.toNat * 0x40000 + sc.toNat * 0x8000 + d.toNat * 0x400 + a.toNat * 0x40 + b.toNat
  | .atomxXchg c u w r sc d a b => 0x32000000 + bitNat c * 0x80000000 + bitNat u * 0x40000000 + w.toNat * 0x100000 + r.toNat * 0x40000 + sc.toNat * 0x8000 + d.toNat * 0x400 + a.toNat * 0x40 + b.toNat
  | .atomxCas c u w r sc d a b => 0x32200000 + bitNat c * 0x80000000 + bitNat u * 0x40000000 + w.toNat * 0x100000 + r.toNat * 0x40000 + sc.toNat * 0x8000 + d.toNat * 0x400 + a.toNat * 0x40 + b.toNat
  | .atomxIncw c u w r sc d a b => 0x32400000 + bitNat c * 0x80000000 + bitNat u * 0x40000000 + w.toNat * 0x100000 + r.toNat * 0x40000 + sc.toNat * 0x8000 + d.toNat * 0x400 + a.toNat * 0x40 + b.toNat
  | .atomxDecw c u w r sc d a b => 0x32600000 + bitNat c * 0x80000000 + bitNat u * 0x40000000 + w.toNat * 0x100000 + r.toNat * 0x40000 + sc.toNat * 0x8000 + d.toNat * 0x400 + a.toNat * 0x40 + b.toNat
  | .atomxFaddF32 c u r sc d a b => 0x32800000 + bitNat c * 0x80000000 + bitNat u * 0x40000000 + r.toNat * 0x40000 + sc.toNat * 0x8000 + d.toNat * 0x400 + a.toNat * 0x40 + b.toNat
  | .atomxFminF32 c u r sc d a b => 0x32A00000 + bitNat c * 0x80000000 + bitNat u * 0x40000000 + r.toNat * 0x40000 + sc.toNat * 0x8000 + d.toNat * 0x400 + a.toNat * 0x40 + b.toNat
  | .atomxFmaxF32 c u r sc d a b => 0x32C00000 + bitNat c * 0x80000000 + bitNat u * 0x40000000 + r.toNat * 0x40000 + sc.toNat * 0x8000 + d.toNat * 0x400 + a.toNat * 0x40 + b.toNat
  | .lda c u w sc d a => 0x33040000 + bitNat c * 0x80000000 + bitNat u * 0x40000000 + w.toNat * 0x100000 + sc.toNat * 0x8000 + d.toNat * 0x400 + a.toNat * 0x40
  | .stl c u w sc a b => 0x33280000 + bitNat c * 0x80000000 + bitNat u * 0x40000000 + w.toNat * 0x100000 + sc.toNat * 0x8000 + a.toNat * 0x40 + b.toNat
  | .fence c u r sc => 0x33400000 + bitNat c * 0x80000000 + bitNat u * 0x40000000 + r.toNat * 0x40000 + sc.toNat * 0x8000
  | .fenceSc c u sc => 0x336C0000 + bitNat c * 0x80000000 + bitNat u * 0x40000000 + sc.toNat * 0x8000
  | .ldap c u w sc d a => 0x33840000 + bitNat c * 0x80000000 + bitNat u * 0x40000000 + w.toNat * 0x100000 + sc.toNat * 0x8000 + d.toNat * 0x400 + a.toNat * 0x40
  | .atomp c u w r sc d a b => 0x33A00000 + bitNat c * 0x80000000 + bitNat u * 0x40000000 + w.toNat * 0x100000 + r.toNat * 0x40000 + sc.toNat * 0x8000 + d.toNat * 0x400 + a.toNat * 0x40 + b.toNat
  | .pref c u a h => 0x34000000 + bitNat c * 0x80000000 + bitNat u * 0x40000000 + a.toNat * 0x100 + h.toNat
  | .flush c u a => 0x34200000 + bitNat c * 0x80000000 + bitNat u * 0x40000000 + a.toNat * 0x100
  | .inval c u a => 0x34400000 + bitNat c * 0x80000000 + bitNat u * 0x40000000 + a.toNat * 0x100
  | .stashMap c u a b => 0x34600000 + bitNat c * 0x80000000 + bitNat u * 0x40000000 + a.toNat * 0x100 + b.toNat
  | .stashWb c u => 0x34800000 + bitNat c * 0x80000000 + bitNat u * 0x40000000
  | .stashDrop c u => 0x34A00000 + bitNat c * 0x80000000 + bitNat u * 0x40000000
  | .cpyG2s c z d a => 0x36000000 + bitNat c * 0x80000000 + z.toNat * 0x100000 + d.toNat * 0x2000 + a.toNat * 0x80
  | .cpyS2g c z d a => 0x36400000 + bitNat c * 0x80000000 + z.toNat * 0x100000 + d.toNat * 0x4000 + a.toNat * 0x40
  | .cpyG2g c z d a => 0x36800000 + bitNat c * 0x80000000 + z.toNat * 0x100000 + d.toNat * 0x4000 + a.toNat * 0x80
  | .cpyS2s c z d a => 0x36C00000 + bitNat c * 0x80000000 + z.toNat * 0x100000 + d.toNat * 0x2000 + a.toNat * 0x40
  | .cpyFlag c a b => 0x37000000 + bitNat c * 0x80000000 + a.toNat * 0x80 + b.toNat
  | .cpyCommit c d sc => 0x37200000 + bitNat c * 0x80000000 + d.toNat * 0x4000 + sc.toNat
  | .htest c d a => 0x37400000 + bitNat c * 0x80000000 + d.toNat * 0x4000 + a.toNat * 0x80
  | .hcancel c a => 0x37600000 + bitNat c * 0x80000000 + a.toNat * 0x80
  | .hwait c a => 0x37800000 + bitNat c * 0x80000000 + a.toNat * 0x80
  | .cntrd c d => 0x37A00000 + bitNat c * 0x80000000 + d.toNat * 0x4000
  | .waitc c l sc k t => 0x38000000 + bitNat c * 0x80000000 + l.toNat * 0x40000 + sc.toNat * 0x1000 + k.toNat * 0x40 + t.toNat
  | .mxIssue c d a => 0x39000000 + bitNat c * 0x80000000 + d.toNat * 0x4000 + a.toNat * 0x80
  | .mxReady c d a q => 0x39200000 + bitNat c * 0x80000000 + d.toNat * 0x4000 + a.toNat * 0x400 + q.toNat
  | .mxCancel c => 0x39400000 + bitNat c * 0x80000000
  | .mxQuiesce c => 0x39600000 + bitNat c * 0x80000000
  | .plZero c a f => 0x39800000 + bitNat c * 0x80000000 + a.toNat * 0x80 + f.toNat
  | .plClaim c a l => 0x39A00000 + bitNat c * 0x80000000 + a.toNat * 0x80 + l.toNat
  | .plFree c a => 0x39C00000 + bitNat c * 0x80000000 + a.toNat * 0x80
  | .plLd c f a b => 0x3A000000 + bitNat c * 0x80000000 + f.toNat * 0x4000 + a.toNat * 0x80 + b.toNat * 0x2
  | .plSt c a b => 0x3A200000 + bitNat c * 0x80000000 + a.toNat * 0x80 + b.toNat * 0x2
  | .plRd c d a k => 0x3A400000 + bitNat c * 0x80000000 + d.toNat * 0x4000 + a.toNat * 0x80 + k.toNat
  | .plWr c d a k => 0x3A600000 + bitNat c * 0x80000000 + d.toNat * 0x4000 + a.toNat * 0x80 + k.toNat
  | .plScale c a b => 0x3A800000 + bitNat c * 0x80000000 + a.toNat * 0x80 + b.toNat
  | .plSave c a => 0x3AA00000 + bitNat c * 0x80000000 + a.toNat * 0x80
  | .plRst c a => 0x3AC00000 + bitNat c * 0x80000000 + a.toNat * 0x80
  | .tld c d a f => 0x3B000000 + bitNat c * 0x80000000 + d.toNat * 0x20000 + a.toNat * 0x80 + f.toNat
  | .tst c d a => 0x3B200000 + bitNat c * 0x80000000 + d.toNat * 0x20000 + a.toNat * 0x80
  | .tcvt c d a h sc r f => 0x3B400000 + bitNat c * 0x80000000 + d.toNat * 0x20000 + a.toNat * 0x80 + h.toNat * 0x40 + sc.toNat * 0x20 + r.toNat * 0x8 + f.toNat
  | .tzero c d f => 0x3B600000 + bitNat c * 0x80000000 + d.toNat * 0x20000 + f.toNat
  | .ttrn c d a m => 0x3B800000 + bitNat c * 0x80000000 + d.toNat * 0x20000 + a.toNat * 0x400 + m.toNat
  | .plwLoop c l a => 0x3C000000 + bitNat c * 0x80000000 + l.toNat * 0x4000 + a.toNat * 0x80
  | .plwStrm c t z q a b => 0x3C200000 + bitNat c * 0x80000000 + t.toNat * 0x40000 + z.toNat * 0x10000 + q.toNat * 0x4000 + a.toNat * 0x100 + b.toNat * 0x4
  | .plwGo c m => 0x3C400000 + bitNat c * 0x80000000 + m.toNat
  | .plwStop c => 0x3C600000 + bitNat c * 0x80000000
  | .qpop c d n => 0x3C800000 + bitNat c * 0x80000000 + d.toNat * 0x4000 + n.toNat
  | .qpeek c d n => 0x3CA00000 + bitNat c * 0x80000000 + d.toNat * 0x4000 + n.toNat
  | .qlen c d n => 0x3CC00000 + bitNat c * 0x80000000 + d.toNat * 0x4000 + n.toNat
  | .plwStat c d => 0x3CE00000 + bitNat c * 0x80000000 + d.toNat * 0x4000
  | .launch c d a b => 0x3D000000 + bitNat c * 0x80000000 + d.toNat * 0x4000 + a.toNat * 0x100 + b.toNat * 0x2
  | .qpush c d a b => 0x3D200000 + bitNat c * 0x80000000 + d.toNat * 0x4000 + a.toNat * 0x100 + b.toNat * 0x2
  | .kstat c d a => 0x3D400000 + bitNat c * 0x80000000 + d.toNat * 0x8000 + a.toNat * 0x100
  | .qstat c d a => 0x3D600000 + bitNat c * 0x80000000 + d.toNat * 0x4000 + a.toNat * 0x100
  | .srd c d imm => 0x3E000000 + bitNat c * 0x80000000 + d.toNat * 0x200 + imm.toNat
  | .swr c d imm => 0x3E010000 + bitNat c * 0x80000000 + d.toNat * 0x200 + imm.toNat
  | .tret c => 0x3E020000 + bitNat c * 0x80000000
  | .ecall c d imm => 0x3E030000 + bitNat c * 0x80000000 + d.toNat * 0x200 + imm.toNat
  | .ctxStop c d => 0x3E100000 + bitNat c * 0x80000000 + d.toNat * 0x200
  | .ctxSave c d => 0x3E110000 + bitNat c * 0x80000000 + d.toNat * 0x200
  | .ctxRst c d f => 0x3E120000 + bitNat c * 0x80000000 + d.toNat * 0x400 + f.toNat
  | .preempt c d imm => 0x3E130000 + bitNat c * 0x80000000 + d.toNat * 0x800 + imm.toNat
  | .ckptMark c d f => 0x3E140000 + bitNat c * 0x80000000 + d.toNat * 0x200 + f.toNat
  | .ckptStat c d => 0x3E150000 + bitNat c * 0x80000000 + d.toNat * 0x400
  | .patchLoad c d sc => 0x3E200000 + bitNat c * 0x80000000 + d.toNat * 0x400 + sc.toNat
  | .patchArm c sc => 0x3E210000 + bitNat c * 0x80000000 + sc.toNat
  | .patchDisarm c sc => 0x3E220000 + bitNat c * 0x80000000 + sc.toNat
  | .patchQry c d sc => 0x3E230000 + bitNat c * 0x80000000 + d.toNat * 0x200 + sc.toNat
  | .pstateSet c d p => 0x3E300000 + bitNat c * 0x80000000 + d.toNat * 0x200 + p.toNat
  | .park c d => 0x3E310000 + bitNat c * 0x80000000 + d.toNat * 0x200
  | .unpark c d => 0x3E320000 + bitNat c * 0x80000000 + d.toNat * 0x200
  | .errqSet c d l => 0x3E400000 + bitNat c * 0x80000000 + d.toNat * 0x400 + l.toNat
  | .tlbInv c d w => 0x3E410000 + bitNat c * 0x80000000 + d.toNat * 0x400 + w.toNat
  | .fenceTlb c => 0x3E420000 + bitNat c * 0x80000000
  | _ => 0

/-- Whether a row of the table has a word. -/
def hasWord (i : Instr) : Bool := encodeNat i != 0

/-- Encoding: the word of an instruction, `none` for an event. -/
def encode (i : Instr) : Option Word :=
  if hasWord i then some (BitVec.ofNat 32 (encodeNat i)) else none

/-- The instruction this decoder reads from an instruction whose bits are `w` as spec/opcode_table.json numbers them.
Every word of the table has 32 bits: the four bytes are laid out little-endian and given to the decoder. -/
noncomputable def decodeTableWord (nbits w : Nat) : Option Instr :=
  if nbits ≤ 32 then
    match decodeBytes (leBytes 4 (w % 2 ^ nbits)) with
    | some (.ok i) => some i
    | _ => none
  else none

end Sys2Proof
end

