-- ==== Sys2Proof/Config.lean ====
section
/-! DEFINITION. What the device fixes: its counts (00 R4, 08 R174), the discovery keys, the physical map (20 R438), and the
values the manual leaves open. An open value is an opaque constant: nothing can be proved of it but that it is one value. -/

namespace Sys2Proof.Config

/-- Cores of the device: 4 field dies of 40 (02 R19). -/
def cores : Nat := 160
/-- Cores of one field die (02 R19). -/
def coresPerDie : Nat := 40
/-- Thread slots of one croft (02 R22). -/
def slotsPerCroft : Nat := 512
/-- Registers of one croft (02 R22). -/
def regsPerCroft : Nat := 32768
/-- Pens of one croft (07 R137). -/
def pens : Nat := 64
/-- Spawn bins of one core (08 R174). -/
def bins : Nat := 16
/-- Plates of one core (02 R22). -/
def plates : Nat := 384
/-- Teams one core can hold (09 R195). -/
def teamsPerCore : Nat := 32
/-- Local-store bytes of one core (02 R22). -/
def localBytes : Nat := 524288
/-- Handle-table entries of one core (14 R304). -/
def handles : Nat := 4096
/-- Lines the release list of a core holds (12 R264). -/
def releaseLines : Nat := 256
/-- Entries of one slice's lookout (12 R269). -/
def lookoutEntries : Nat := 1024
/-- Persistent entries of one slice (12 R276). -/
def persistentEntries : Nat := 64
/-- Migrations in flight of one barn die (17 R373). -/
def migrations : Nat := 64
/-- Elements of one open batch (14 R302). -/
def batchElements : Nat := 4096
/-- Remap entries of one core (14 R318). -/
def remapEntries : Nat := 32
/-- Lines a team's held stores may keep on a core in rollback mode (21 R459). -/
def heldLines : Nat := 3072

/-- The discovery keys with their values, in the order of 08 R174; a key is its ASCII text. -/
def keys : List (String × Nat) :=
  [("VREGS", 128), ("LANES", 32), ("CROFTS", 4), ("THREADS", 2048), ("TEAMMAX", 1024), ("SPAD", 524288),
   ("L1", 1572864), ("PLATES", 384), ("KBYTES", 512), ("BLKLEN", 16), ("PENS", 64), ("BINS", 16), ("BARS", 16),
   ("CLMAX", 12), ("LINE", 128), ("PAGE", 65536), ("FMTS", 0x1FF), ("FLOOR", 3)]

/-- A key's 8 bytes as a little-endian number: ASCII, first character lowest, padded with zero (08 R173). -/
def keyCode (k : String) : Nat := go k.toList 0
where
  /-- The characters from byte `n` on. -/
  go : List Char → Nat → Nat
    | [], _ => 0
    | c :: cs, n => c.toNat * 2 ^ (8 * n) + go cs (n + 1)

/-- Free values: what an instruction leaves unspecified (01 R14) or the manual does not state is
`freeBits n` for a counter `n` of the state. No value of it is known (log entry 2). -/
opaque freeBits : Nat → BitVec 64

/-- The approximate result of a special function (06 R117): a fixed function of the function number and of the
operand bits, which the manual gives only up to its error bound (log entry 3). -/
opaque special : Nat → BitVec 32 → BitVec 32

/-- The hash by which a line address selects its slice (02 R21, 12 R277): fixed in hardware and not stated (log entry 4). -/
opaque sliceHash : Nat → Nat

/-- A time of the device's clocks in domain ticks, at a count of them (17 R384): the manual gives the conversion no formula (log entry 116). -/
opaque domainTime : Nat → Nat → Nat

/-- The capacity of the expanders on the expander port (20 R440): what is plugged in (log entry 148). -/
opaque expanderBytes : Nat

/-- Slices of one field die (02 R21). -/
def slicesPerDie : Nat := 16
/-- Field dies (02 R19). -/
def dies : Nat := 4
/-- Lines one slice holds: 4 MiB (00 R4). -/
def sliceLines : Nat := 32768
/-- Ways and sets of an L1 (02 R22). -/
def l1Ways : Nat := 12
def l1Sets : Nat := 1024

/-- The Ed25519 public key fused at keyidx 0 (22 R492): not stated (log entry 4). -/
opaque vendorKey : BitVec 256

/-- The share of the ceiling granted to a parked or fenced die (23 R476): not stated (log entry 4). -/
opaque dieFloor : Nat

/-- The croft of a core a new group is offered first (07 R132 leaves the choice to the core; log entry 5). -/
def firstCroft : Nat := 0

end Sys2Proof.Config
end

