-- ==== Sys2Proof/Machine/State.lean ====
section
/-! DEFINITION. The state of the machine as plain data, and the machine right after reset. INVENTORY.md names the rule
and the reset value of every field. Tables are lists of key and value with rising keys (Machine/Sparse.lean); a key that
is not listed holds the field's default, which is the value the object is created with. -/

namespace Sys2Proof.Machine

/-- A table: keys rise strictly, an unlisted key holds the table's default. -/
abbrev Sparse (ν : Type) := List (Nat × ν)

/-- Bytes of memory: addresses rise strictly and no listed byte equals what an unlisted address reads as. -/
abbrev Memory := List Host.Cell

/-- Why a step stops with a fault. -/
inductive Fault where
  /-- A firmware write to a physical address outside every populated range of 20 R438, raised by PREEMPT_REPORT for a
  report address that lies there. Safe: the manual says the address does not exist. -/
  | unpopulatedPhysical
deriving DecidableEq, Repr

/-- Why a step is refused. -/
inductive Refusal where
  /-- The instruction has no meaning yet. Safe: nothing is claimed of it. -/
  | notModelled (mnemonic : String)
deriving DecidableEq, Repr

/-- Privilege levels (01 R17). -/
inductive Level where
  | user | supervisor | firmware
deriving DecidableEq, Repr

/-- What a pending register waits for (07 R134): the data of an access, or the operation of a handle. -/
inductive PendRef where
  | access (id : Nat)
  | handle (id : Nat)
deriving DecidableEq, Repr

/-- A general register with its format tag (02 R22, 04 R84), what it waits for (11 R240, 14 R304), and the subcode of
the uncorrectable error it holds (21 R450). -/
structure Reg where
  bits : Word := 0
  tag : Tag := 0
  wait : Option PendRef := none
  poison : Option Nat := none
deriving DecidableEq, Repr

/-- The trap words of a thread (19 R424, R429). -/
structure TrapWords where
  pc : Addr := 0
  cause : Word := 0
  info0 : Word := 0
  info1 : Word := 0
  info2 : Word := 0
  info3 : Word := 0
deriving DecidableEq, Repr

/-- The emulation words of a thread (22 R470). -/
structure EmuWords where
  pc : Addr := 0
  npc : Addr := 0
  ctl : Word := 0
  word : Word := 0
deriving DecidableEq, Repr

/-- The watch slot of a thread (13 R298): the armed address with the physical byte or team-local offset it names. -/
structure Watch where
  armed : Option (Addr × Nat) := none
  fired : Bool := false
deriving DecidableEq, Repr

/-- What a waiting thread waits for (07 R139). -/
inductive WaitKind where
  /-- A named barrier's phase to change (13 R284); `second` for a second arrival in one phase. -/
  | barrier (n : Nat) (second : Bool)
  | cluster
  | grid
  | gsync (m : Nat)
  | collective (m : Nat)
  | quad
  /-- A word wait with its limit in ticks, 0 for none (13 R297). -/
  | word (limit : Nat)
deriving DecidableEq, Repr

/-- The record of a waiting thread: the phase or last value it saw, the ticks it has waited, the TIMEOUT of its team as
it stood when it began (13 R292), the waiting word, its slot, and whether the word itself made an arrival. -/
structure WaitRec where
  kind : WaitKind
  seen : Word := 0
  waited : Nat := 0
  timeout : Nat := 0
  word : Instr
  slot : Nat := 0
  arrived : Bool := false
  /-- Place of the waiting word in its chain. -/
  place : Nat := 0
  /-- The thread whose operands a quad MX.ISSUE waits with (15 R330, R341). -/
  lead : Nat := 0
deriving DecidableEq, Repr

/-- What a released waiter's word writes when its chain commits. -/
inductive Grant where
  /-- Nothing but the release. -/
  | go
  | value (w : Word) (tag : Tag)
  | flag (b : Bool)
  | tile (ws : List (Word × Tag))
  | joined
  /-- The phase a second arrival has arrived in, once the phase it waited for has completed (13 R284). -/
  | token (phase : Word)
deriving DecidableEq, Repr

/-- Where a thread stands (07 R140). -/
inductive Place where
  | exited
  | pen (p : Nat)
  | fold
  | waiting (w : WaitRec)
  /-- Saved; `atWait` for a thread that stood waiting at its PC (18 R400). -/
  | saved (atWait : Bool)
deriving DecidableEq, Repr

/-- An error due to a thread that consumed poison (21 R454): chains of the group issued since, slot of the consuming word,
subcode, address. -/
structure ErrorDue where
  since : Nat := 0
  slot : Nat := 0
  subcode : Nat := 0
  addr : Nat := 0
deriving DecidableEq, Repr

/-- A thread (02 R30, 07 R133). A lane that is absent is an exited thread that is not present. -/
structure Thread where
  present : Bool := false
  place : Place := .exited
  pc : Addr := 0
  level : Level := .user
  paused : Nat := 0
  /-- Yielding: the pens that must issue first, and the core cycles left (07 R155). -/
  yielding : Option (List Nat × Nat) := none
  cont : Bool := false
  regs : Sparse Reg := []
  preds : BitVec 8 := 0
  trap : TrapWords := {}
  fpc : Addr := 0
  /-- Blocks of eight registers written since the last mark of the context, whatever the value (18 R415). -/
  wrote : BitVec 16 := 0
  fhandle : Reg := {}
  emu : EmuWords := {}
  watch : Watch := {}
  lastIssue : Nat := 0
  /-- The latest write time of what its relaxed reads have read: an acquire fence advances the clock to it (10 R213). -/
  seen : Nat := 0
  /-- Spawned and not yet issued: its first fetch checks its entry address (07 R153). -/
  entering : Bool := false
  /-- Counted tile and press entries, oldest first (15 R342). -/
  tiles : List Nat := []
  /-- Open batch of each level (14 R302). -/
  openBatch : Sparse Nat := []
  /-- A page an access of the thread is held on, with the ticks held (17 R372). -/
  held : Option (Nat × Nat) := none
  /-- The memory word that is held there, as fetched, with its slot; none where the fetch is held (17 R372, 03 R53). -/
  heldWord : Option (Word × Nat) := none
  due : Option ErrorDue := none
  /-- What releases have granted to the words of the chain at its PC, by place in the chain. -/
  grants : Sparse Grant := []
  /-- The chain is to be issued again with a word rewritten by a stencil slot at the fault path: slot, place of the word
  in the chain (22 R467, R469). -/
  patched : Option (Nat × Nat) := none
deriving DecidableEq, Repr

/-- A stream of the plough (16 R355): element size code, request type, strides of levels 0 to 3, bases by lane. -/
structure Stream where
  size : Nat := 0
  kind : BitVec 2 := 0
  strides : List Word := [0, 0, 0, 0]
deriving DecidableEq, Repr

/-- One lane of a furrow (16 R356): entries head first, and the fault of an element behind them (R364). -/
structure Furrow where
  entries : List Word := []
  /-- Cause, subcode, address and TRAPINFO0. -/
  fault : Option (Nat × Nat × Nat × Nat) := none
  /-- A QPOP or QPEEK has raised it: the next one reads the element again. -/
  told : Bool := false
deriving DecidableEq, Repr

/-- The state of a plough context (16 R355, R361, R364). -/
inductive PloughState where
  | idle | running | stopped | held
deriving DecidableEq, Repr

/-- A plough context (16 R355): counts and definitions, the captured ones, next indices, masks, furrows by 32q + lane. -/
structure Plough where
  counts : List Nat := [1, 1, 1, 1]
  streams : Sparse Stream := []
  bases : Sparse Addr := []
  /-- The counts, definitions and bases that a PLW.GO captured for each stream. -/
  capCounts : Sparse (List Nat) := []
  capStreams : Sparse Stream := []
  capBases : Sparse Addr := []
  /-- Accesses numbered below it precede the last PLW.GO: the plough reads after them (16 R364). -/
  after : Nat := 0
  /-- Next element position of each stream, counted in loop order. -/
  next : Sparse Nat := []
  captured : BitVec 4 := 0
  done : BitVec 4 := 0
  heldOn : BitVec 4 := 0
  state : PloughState := .idle
  furrows : Sparse Furrow := []
deriving DecidableEq, Repr

/-- A publication of MX.READY (15 R329): first tile, tile count, lanes that executed it, tags recorded per lane, the
handles it gave, each with its lane, and whether a quad MX.ISSUE has consumed it. -/
structure Publication where
  group : Nat
  first : Nat
  count : Nat
  /-- The level of the code that entered it (18 R401). -/
  level : Level := .user
  lanes : List Nat := []
  tags : Sparse (List Tag) := []
  /-- The registers as they stood at MX.READY, by lane: a later write of one is seen by a difference (15 R331). -/
  vals : Sparse (List Word) := []
  handles : Sparse Nat := []
  consumed : Bool := false
  /-- A contributing thread has written a register of the publication since its MX.READY (15 R331). -/
  written : Bool := false
deriving DecidableEq, Repr

/-- A group (02 R30, 07 R131, R132). -/
structure Group where
  team : Nat := 0
  croft : Nat := 0
  ix : Word := 0
  spawned : Bool := false
  resident : Bool := false
  /-- Residency order (07 R135, 15 R323). -/
  order : Nat := 0
  masks : Sparse Word := []
  plough : Plough := {}
deriving DecidableEq, Repr

/-- A named barrier (13 R282). Arrivals are thread numbers. -/
structure Barrier where
  phase : Word := 0
  arrived : List Nat := []
  count : Nat := 0
  pend : Option Nat := none
deriving DecidableEq, Repr

/-- A spawn bin (07 R151). -/
structure Bin where
  team : Nat
  entry : Addr
  /-- Arguments and levels of its threads, by home lane. -/
  args : List (Word × Level) := []
  timer : Nat := 0
  closed : Bool := false
  /-- Its timer was ended by SPAWNF (18 R401). -/
  hurried : Bool := false
  awaiting : Bool := false
deriving DecidableEq, Repr

/-- The stash window of a team (11 R250): first team-local line, lines, global base, lines filled. -/
structure Stash where
  first : Nat
  lines : Nat
  base : Nat
  filled : List Nat := []
deriving DecidableEq, Repr

/-- The interval of a team in rollback mode (21 R457 to R460): committed early, and rollbacks done in it. -/
structure Interval where
  early : Bool := false
  rolled : Nat := 0
  /-- Words held: physical word numbers (byte address / 4). -/
  held : List Nat := []
  /-- Just opened: the machine is to be noted once the threads that opened it have moved on. -/
  opened : Bool := false
deriving DecidableEq, Repr

/-- A team (02 R30, 08 R178 to R181). `core` is none while the team is saved. -/
structure Team where
  live : Bool := false
  ctx : Nat := 0
  launch : Nat := 0
  x : Nat := 0
  y : Nat := 0
  z : Nat := 0
  threads : Nat := 0
  regs : Nat := 128
  barriers : Nat := 0
  plates : Nat := 0
  spad : Nat := 0
  cluster : Nat := 0
  clx : Nat := 0
  cly : Nat := 0
  clw : Nat := 1
  clh : Nat := 1
  core : Option Nat := none
  timeout : Word := 4687500
  contvec : Addr := 0
  cycle : BitVec 64 := 0
  plsel : Word := 0
  kbank : Sparse Word := []
  lmem : Memory := []
  /-- The largest clock of a core that has written its local memory: a read of it through .rmt has seen that time (10 R224). -/
  lclk : Nat := 0
  lpoison : List Nat := []
  stash : Option Stash := none
  bars : Sparse Barrier := []
  /-- Plate map: team-virtual number to physical plate of the core (15 R334). -/
  map : Sparse Nat := []
  /-- Spilled entries: level code × 384 + team-virtual number (15 R335, R336). -/
  spilled : List Nat := []
  slotBase : Nat := 0
  guarded : Bool := false
  rollback : Bool := false
  interval : Interval := {}
  /-- Its spawn bins while it is saved (07 R153). -/
  savedBins : List Bin := []
  /-- Lines of local memory, and plates by their slot, written since the last mark of the context, whatever the value (18 R415). -/
  wroteLines : List Nat := []
  wrotePlates : List Nat := []
deriving DecidableEq, Repr

/-- A cluster and its barrier (13 R289). -/
structure Cluster where
  launch : Nat := 0
  teams : List Nat := []
  phase : Word := 0
  arrived : List Nat := []
deriving DecidableEq, Repr

/-- What becomes of one thread of the issue group instead of committing its chain. -/
inductive Verdict where
  /-- Trap entry: cause and TRAPINFO0 to 3 (19 R425). -/
  | trap (cause : Nat) (i0 i1 i2 i3 : Word)
  /-- Soft fault on a page: its virtual address (17 R377). -/
  | soft (va : Nat)
  /-- Held on a page (17 R372, R378). -/
  | hold (va : Nat)
  | wait (w : WaitRec)
  | notReady
  /-- The emulate action of a stencil slot (22 R470): slot, word address, word. -/
  | emulate (slot : Nat) (word : Word) (cause : Nat)
deriving DecidableEq, Repr

/-- A word of a chain: the instruction, the word as fetched, and its slot in its packet. -/
structure ChainWord where
  instr : Instr
  raw : Word
  slot : Nat
  /-- Supplied by a stencil rewrite (22 R469). -/
  supplied : Bool := false
deriving DecidableEq, Repr

/-- A chain fetched and decoded (03 R34 to R53, 22 R466 to R470): its words after rewriting, how many words it takes in
memory, the target words of a branch, the stencil slots that rewrote it, or what becomes of every thread that issues it. -/
structure Fetched where
  words : List ChainWord := []
  len : Nat := 1
  targets : List Word := []
  rewrittenBy : List Nat := []
  fault : Option Verdict := none
  /-- The fault is of a word that a stencil slot supplied: it is delivered without a second pass (22 R467). -/
  supplied : Bool := false
deriving DecidableEq, Repr

/-- A pen (07 R134, R137, R141). -/
structure Pen where
  ctx : Nat
  level : Level
  pc : Addr
  fair : Nat := 0
  starved : Option Nat := none
  last : Nat := 0
  /-- The decoded chain at the PC, once it is fetched. -/
  code : Option Fetched := none
deriving DecidableEq, Repr

/-- A fold class (07 R137). -/
structure FoldClass where
  ctx : Nat
  level : Level
  pc : Addr
  threads : List Nat
deriving DecidableEq, Repr

/-- A croft: its pens and its fold, oldest class first (07 R137). -/
structure Croft where
  pens : Sparse Pen := []
  fold : List FoldClass := []
  /-- The counters of pens that are free, as they stood when they freed: a counter resets only when its pen issues (07 R141). -/
  freed : Sparse Pen := []
deriving DecidableEq, Repr

/-- The owner tag of a plate (15 R334). -/
structure PlateOwner where
  ctx : Nat
  level : Level
  team : Nat
  entry : Nat
deriving DecidableEq, Repr

/-- A physical plate (15 R333, R334): elements by 32 r + c, fmt, kdone, owner, last use, poisoned elements. -/
structure Plate where
  elems : Sparse Word := []
  int : Bool := false
  kdone : Nat := 0
  owner : Option PlateOwner := none
  used : Nat := 0
  poison : List Nat := []
  /-- Written since the last mark of its context, whatever the value (18 R415). -/
  wrote : Bool := false
  /-- The entry naming the plate that resolved last, with its group, until a thread of the group has consumed it (15 R342, R344). -/
  left : Option (Nat × Nat) := none
deriving DecidableEq, Repr

/-- A line held in an L1 (12 R254, R262): words present, dirty, owned and pending, the data, the rts of its grant, its
owner tag (21 R455) and its poisoned words. Times are held as full values, with the generation of the base they count from
(R270). -/
structure L1Line where
  wts : Nat := 0
  rts : Nat := 0
  gen : Bool := false
  valid : BitVec 32 := 0
  dirty : BitVec 32 := 0
  owned : BitVec 32 := 0
  pending : BitVec 32 := 0
  data : BitVec 1024 := 0
  grantRts : Nat := 0
  ctx : Nat := 0
  poison : BitVec 32 := 0
  /-- Threads whose stores its dirty words hold (12 R264). -/
  writers : List Nat := []
deriving DecidableEq, Repr

/-- A cached translation (17 R371): context, page number in 64 KiB units, size in such units, leaf entry. -/
structure TlbEntry where
  ctx : Nat
  page : Nat
  span : Nat
  entry : BitVec 64
deriving DecidableEq, Repr

/-- A core (02 R22, 12 R252, R264). -/
structure Core where
  clk : Nat := 0
  l1 : Sparse L1Line := []
  release : List Nat := []
  tlb : List TlbEntry := []
  bins : Sparse Bin := []
  plates : Sparse Plate := []
  /-- Residency order of the group whose queue the press served last (15 R323). -/
  ring : Nat := 0
  /-- Saved teams with elements in flight (14 R318). -/
  remap : List Nat := []
deriving DecidableEq, Repr

/-- What a home line is doing (12 R281). -/
inductive HomeState where
  | shared | owned | recalling | invalidating
deriving DecidableEq, Repr

/-- A line at its home slice (12 R254, R266, R276, R280, R281). -/
structure HomeLine where
  wts : Nat := 0
  rts : Nat := 0
  gen : Bool := false
  valid : BitVec 32 := 0
  dirty : BitVec 32 := 0
  owned : BitVec 32 := 0
  owner : Option Nat := none
  hshare : Bool := false
  state : HomeState := .shared
  data : BitVec 1024 := 0
  /-- Cores that wrote the line with released lines not yet drained: those a promoting acquire recalls (12 R266). -/
  releasers : List Nat := []
  /-- Words a recall in progress names. -/
  recalled : BitVec 32 := 0
  /-- Accesses held by a recall or a back-invalidation, oldest first. -/
  held : List Nat := []
  /-- Host requests in the conflict queue: operation, byte address, size, data, cached (12 R280). -/
  conflict : List (BitVec 2 × Nat × Nat × BitVec 64 × Bool) := []
  poison : BitVec 32 := 0
  /-- Host line: held exclusive by the slice (12 R279). -/
  exclusive : Bool := false
deriving DecidableEq, Repr

/-- A lookout entry (12 R269): line, word mask, exact core pointers or a coarse vector. -/
structure LookoutEntry where
  line : Nat
  words : BitVec 32
  cores : List Nat := []
  coarse : Option (BitVec 40) := none
deriving DecidableEq, Repr

/-- A home slice beyond its lines (12 R255, R276). -/
structure Slice where
  memts : Nat := 0
  gen : Bool := false
  persistent : List Nat := []
deriving DecidableEq, Repr

/-- A message to or from another device (20 R444): the device at its other end, its kind, the request it belongs to (0 for none), the byte
address at the device it goes to (of a reply: the write time of what it read, in domain ticks), how many bytes of data it carries, an
operation, the flow and whether that is ordered, and the data. -/
structure Message where
  peer : Nat
  kind : Nat
  id : Nat := 0
  addr : Nat := 0
  size : Nat := 0
  op : Nat := 0
  flow : Nat := 0
  ordered : Bool := true
  data : BitVec 1024 := 0
deriving DecidableEq, Repr

/-- The read-modify-writes (11 R244). -/
inductive RmwOp where
  | add | minS | maxS | minU | maxU | and | or | xor | xchg | cas | incw | decw | fadd | fmin | fmax
deriving DecidableEq, Repr

/-- What an access does. -/
inductive AccessOp where
  | load
  | store
  | rmw (op : RmwOp)
  /-- RENEW and PREF: fetch a line, leased, owned or to the home only. -/
  | fetch (how : Nat)
  /-- FLUSH, INVAL and the stash write-backs. -/
  | writeback (drop : Bool)
  | fence
  | ecall
  /-- TLD (15 R349). -/
  | tile
deriving DecidableEq, Repr

/-- Where an access stands. -/
inductive Stage where
  /-- Issued; nothing sent yet. -/
  | issued
  /-- Waiting at the home behind a recall, a back-invalidation, a refusal, a page or a lease. -/
  | atHome
  /-- A renewal reply on its way: h.wts, granted rts, line data when sent, and the words it covers, those no other core owns. -/
  | reply (wts rts : Nat) (data : Option (BitVec 1024)) (valid : BitVec 32)
  /-- Performed; its data not yet written to its registers. -/
  | returned
  /-- Sent to another device; waiting for its reply. -/
  | remote
deriving DecidableEq, Repr

/-- The last answer the host port gave: byte address, size, the value read, the subcode of the poison it met (12 R280). -/
structure HostReply where
  addr : Nat
  size : Nat
  value : BitVec 64
  poison : Option Nat := none
deriving DecidableEq, Repr

/-- An outstanding access (11 R240, R241). -/
structure Access where
  th : Nat := 0
  core : Nat := 0
  ctx : Nat := 0
  op : AccessOp
  /-- Request type (11 R243). -/
  kind : BitVec 2 := 0
  order : BitVec 2 := 0
  scope : BitVec 3 := 3
  promote : Bool := false
  va : Nat := 0
  phys : Nat := 0
  size : Nat := 4
  data : BitVec 128 := 0
  compare : BitVec 64 := 0
  stage : Stage := .issued
  result : BitVec 256 := 0
  /-- First destination register, registers covered, tag, and whether the value is sign-extended. -/
  dest : Nat := 0
  count : Nat := 0
  tag : Tag := 0
  signed : Bool := false
  /-- Every thread that receives the data (07 R162 for U = 1). -/
  takers : List Nat := []
  refusals : Nat := 0
  poison : Option Nat := none
  detached : Bool := false
  /-- Clock of the requesting core when the request was formed. -/
  clk : Nat := 0
  /-- Slot of the word that made it. -/
  slot : Nat := 0
  /-- For a team-local read, the team whose bytes it reads and its space code (11 R236). -/
  loc : Option (Nat × Nat) := none
  /-- The issue group it belongs to, by a number (11 R242). -/
  issue : Nat := 0
  /-- The device that homes its page, where that is another and no lease serves it (17 R381). -/
  dev : Option Nat := none
  /-- The further lines of a write-back of a stash window, which counts once (11 R241, R250). -/
  lines : List Nat := []
deriving DecidableEq, Repr

/-- One element of a batch (14 R306 to R309, R314). -/
structure Elem where
  kind : BitVec 2
  size : Nat
  src : Addr
  dst : Addr
  unit : Nat
  sent : Bool := false
  done : Bool := false
  /-- Data read and not yet written, for an element in flight. -/
  data : Option (BitVec 128) := none
deriving DecidableEq, Repr

/-- A copy batch (14 R302, R305, R310, R313). -/
structure Batch where
  th : Nat
  level : Level
  elems : List Elem := []
  flag : Option (Nat × Word) := none
  scope : BitVec 3 := 2
  committed : Option Nat := none
  cancel : Bool := false
  handle : Option Nat := none
  /-- Cause, subcode of the fault that ended it. -/
  fault : Option (Nat × Nat) := none
deriving DecidableEq, Repr

/-- The kinds of press entry (15 R322). -/
inductive PressKind where
  | issue | zero | free | ld | st | scale
deriving DecidableEq, Repr

/-- A press entry (15 R322 to R327, R344, R352, 24 R486). -/
structure PressEntry where
  kind : PressKind
  group : Nat
  team : Nat
  level : Level
  lane : Nat
  pc : Addr := 0
  block : BitVec 512 := 0
  /-- The offset of the parameter block. -/
  off : Nat := 0
  plate : Nat := 0
  int : Bool := false
  addr : Nat := 0
  phys : Nat := 0
  scale : Word := 0
  starts : List Nat := [0, 0, 0, 0]
  rows : BitVec 32 := 0
  /-- Furrow entries popped, by lane (15 R365). -/
  popped : Sparse (List Word) := []
  pubs : List Nat := []
  /-- A read before the first write, under exact aliasing (15 R340). -/
  acopy : Sparse Word := []
  started : Bool := false
  cancel : Bool := false
  /-- Last step ended; the handle not yet resolved (15 R323). -/
  ended : Bool := false
  fault : Option Nat := none
  /-- Held after a resume until its plates are valid: the restart PC of the thread that is checked (24 R486). -/
  held : Option Addr := none
  /-- An operand was written since the issue: the target plates take unspecified values (15 R331, 10 R222). -/
  tainted : Bool := false
  /-- Plates that the entry writes and that were accessed while it was unresolved: each takes unspecified values (15 R331). -/
  spoiled : List Nat := []
  /-- The error record of a faulted furrow entry has been written (16 R365). -/
  noted : Bool := false
  /-- The press is in a step of the entry: it stalls, or a stop has cut the step (15 R323, R326, R352). -/
  mid : Bool := false
  handle : Option Nat := none
deriving DecidableEq, Repr

/-- What a handle names (14 R304). -/
inductive HandleOf where
  | batch (id : Nat)
  | press (id : Nat)
  | publication (id lane : Nat)
  /-- A LAUNCH's record, by context and address (09 R197). -/
  | launch (ctx record : Nat)
  /-- The page-fault service of a page: context and virtual page address (17 R377). -/
  | page (ctx va : Nat)
deriving DecidableEq, Repr

/-- An entry of a core's handle table (14 R304). -/
structure Handle where
  core : Nat
  of : HandleOf
  /-- Cancelled before the steward took the record (09 R198). -/
  cancel : Bool := false
deriving DecidableEq, Repr

/-- States of a launch (08 R183). -/
inductive LaunchState where
  | pending | ready | running | retired | killed
deriving DecidableEq, Repr

/-- A launch (08 R183, 09 R187, R194). -/
structure Launch where
  ctx : Nat
  qix : Nat := 0
  record : Nat := 0
  entry : Addr := 0
  gx : Nat := 1
  gy : Nat := 1
  gz : Nat := 1
  threads : Nat := 1
  clw : Nat := 1
  clh : Nat := 1
  regs : Nat := 8
  barriers : Nat := 0
  plates : Nat := 0
  spad : Nat := 0
  sbx : Bool := false
  prio : Nat := 0
  guarded : Bool := false
  rollback : Bool := false
  coresident : Bool := false
  proceed : Bool := false
  kbank : Nat := 0
  doneAddr : Nat := 0
  afters : List Nat := []
  state : LaunchState := .pending
  /-- Clusters placed so far, in order of their index. -/
  placed : Nat := 0
  /-- Teams retired. -/
  retired : Nat := 0
  /-- Saved clusters waiting to be placed again. -/
  saved : List Nat := []
  gridPhase : Word := 0
  gridArrived : List Nat := []
  /-- The latest write time the steward read when it took the record: the first instructions of its teams come after it (10 R220). -/
  startClk : Nat := 0
  handle : Option Nat := none
  order : Nat := 0
  /-- The largest clock at which one of its teams retired: its completion word is written later (08 R184). -/
  clk : Nat := 0
deriving DecidableEq, Repr

/-- States of a queue (09 R192). -/
inductive QueueState where
  | disabled | idle | serving | blocked | faulted
deriving DecidableEq, Repr

/-- A queue the steward serves (09 R192). -/
structure Queue where
  header : Nat
  state : QueueState := .disabled
  sub : Nat := 0
  /-- Where ctl.enable of its header last stood, by physical byte. -/
  ctl : Option Nat := none
deriving DecidableEq, Repr

/-- A kernel of a loaded code object (08 R168, R169). -/
structure Kernel where
  entry : Addr
  sbx : Bool
  threads : Nat
  regs : Nat
  barriers : Nat
  plates : Nat
  spad : Nat
  clw : Nat
  clh : Nat
  /-- Its name, and bit N where .const bound word kN (08 R168). -/
  name : List (BitVec 8) := []
  bound : BitVec 1024 := 0
deriving DecidableEq, Repr

/-- A loaded code region (08 R165), with its object's data and linkage table (R175). -/
structure Region where
  base : Nat
  len : Nat
  data : Nat := 0
  dataLen : Nat := 0
  linkAt : Nat := 0
  links : Nat := 0
deriving DecidableEq, Repr

/-- States of a context (18 R389). -/
inductive CtxState where
  | created | loaded | running | stopping | stopped | saving | saved | resuming | migrating | killed | retired
deriving DecidableEq, Repr

/-- Requests to a context (18 R390). -/
inductive Request where
  | stop
  | save
  | resume (seq : Option Nat)
  | preempt (n report : Nat)
  | mark (full : Bool)
  | move (device : Nat)
  | release
deriving DecidableEq, Repr

/-- A pre-emption in progress (18 R405 to R407). -/
structure Preempt where
  n : Nat
  report : Nat
  vacate : BitVec 160
  completed : BitVec 160 := 0
  teams : List Nat := []
deriving DecidableEq, Repr

/-- How far a checkpoint has come (18 R420). -/
inductive CkptState where
  | staged | streaming | complete | failed | overwritten
deriving DecidableEq, Repr

/-- A checkpoint of a mark (18 R416 to R421): staged blocks (kind, place, bytes), captured pages, those streamed first, its place in
the area and the bytes already written there. -/
structure Ckpt where
  full : Bool
  prev : Nat := 0
  floor : Nat := 0
  state : CkptState := .staged
  blocks : List (Nat × Nat × List (BitVec 8)) := []
  pages : List Nat := []
  at_ : Nat := 0
  written : Nat := 0
deriving DecidableEq, Repr

/-- A context (18 R388, R389, 19 R429, and the words of 07, 09, 12, 17, 22). -/
structure Ctx where
  state : CtxState := .created
  res : Nat := 0
  reason : Nat := 0
  regions : List Region := []
  kernels : List Kernel := []
  /-- Exported symbols in load order: name bytes and load-time address (08 R164). -/
  exports : List (List (BitVec 8) × Nat) := []
  allowed : BitVec 160 := 0
  trapvec : Addr := 0
  errqbase : Addr := 0
  errqlen : Nat := 0
  leaselen : Nat := 32
  fairlim : Nat := 256
  bintime : Nat := 256
  qtbase : Addr := 0
  qtlen : Nat := 0
  ptbase : Addr := 0
  holdlim : Nat := 94
  drvcount : Bool := false
  drvthresh : Nat := 8
  pagelease : Nat := 256
  drvqbase : Addr := 0
  drvqtail : Word := 0
  drvqhead : Word := 0
  /-- Records of the command ring the drover has taken, free-running, and those of them completed ahead of DRVQHEAD (17 R374). -/
  drvTaken : Word := 0
  drvDone : List Nat := []
  poolbase : Addr := 0
  pooltail : Word := 0
  poolhead : Word := 0
  savebase : Addr := 0
  savelen : Addr := 0
  ckptint : Word := 2343750
  ckptrate : Nat := 400
  ckptbase : Addr := 0
  ckptlen : Addr := 0
  ckptseq : Word := 0
  ckptdone : Word := 0
  patchsel : BitVec 16 := 0xFFFF
  queues : Sparse Queue := []
  requests : List Request := []
  /-- The request in effect while stopping, stopped for a mark, or saving. -/
  current : Option Request := none
  floor : Nat := 0
  preempt : Option Preempt := none
  ckpts : Sparse Ckpt := []
  ckptFresh : Bool := true
  sinceMark : Nat := 0
  /-- Frames (64 KiB units) marked copy-on-write and not yet streamed (18 R418). -/
  cow : List Nat := []
  /-- Accesses counted on far-direct pages (17 R375). -/
  farCount : Sparse Nat := []
  /-- The entry of each page counted, by its physical address. -/
  farAt : Sparse Nat := []
  /-- Frames (64 KiB units) written since the context's last mark, whatever the value, kept once it has an area for marks (18 R415). -/
  wrote : List Nat := []
deriving DecidableEq, Repr

/-- A migration in flight (17 R373): source and target frames, target state, what started it (ring index, or the
service). -/
structure Migration where
  ctx : Nat
  va : Nat
  entryAt : Nat
  source : Nat
  target : Nat
  toNear : Bool
  ring : Option Nat := none
  pool : Option Nat := none
  copied : Bool := false
  fromState : Nat := 0
deriving DecidableEq, Repr

/-- States of a stencil slot (22 R465). -/
inductive SlotState where
  | empty | loading | loaded | armed | draining | failed
deriving DecidableEq, Repr

/-- A stencil slot with its loaded image (22 R465, R472). -/
structure Slot where
  state : SlotState := .empty
  prio : Nat := 0
  action : Nat := 0
  reason : Nat := 0
  patchid : Nat := 0
  levels : BitVec 2 := 0
  cause : Nat := 0
  nrep : Nat := 0
  mask : Word := 0
  value : Word := 0
  rep : List Word := []
  merge : List Word := []
  entry : Nat := 0
  code : List (BitVec 8) := []
  /-- Address of the image being loaded. -/
  image : Nat := 0
  /-- Verified with the host's help: the mode when the load was posted (23 R482). -/
  assisted : Bool := false
  /-- Host verdict for it, once given (22 R473). -/
  verdict : Option Bool := none
  /-- Whether the replacement words are a legal chain, as the decoder finds when the checks are made (22 R473). -/
  legal : Bool := false
  /-- Arm posted and not yet applied everywhere (22 R474). -/
  arming : Bool := false
deriving DecidableEq, Repr

/-- States of a field die (23 R475). -/
inductive DieState where
  | running | parking | parked | waking | fenced
deriving DecidableEq, Repr

/-- A field die (23 R475 to R481). -/
structure Die where
  state : DieState := .running
  pstate : Nat := 5
  target : Option Nat := none
  share : Nat := 0
  unpark : Bool := false
  /-- Banks still waking, by the slice of the die they serve. -/
  banks : List Nat := []
  /-- A fence that waits for a host verdict (23 R482). -/
  fencing : Bool := false
deriving DecidableEq, Repr

/-- A write of the steward, the drover or the error queue that is held on its page (17 R372, R373, R383, 18 R418): a word, with the time it
must follow, or an error record. -/
inductive Deferred where
  | word (ctx va size data after : Nat)
  | record (ctx bits : Nat)
deriving DecidableEq, Repr

/-- Everything an instruction word can read or write but the bytes of memory. -/
structure Chip where
  threads : Sparse Thread := []
  groups : Sparse Group := []
  teams : Sparse Team := []
  clusters : Sparse Cluster := []
  launches : Sparse Launch := []
  ctxs : Sparse Ctx := []
  crofts : Sparse Croft := []
  cores : Sparse Core := []
  home : Sparse HomeLine := []
  slices : Sparse Slice := []
  /-- The entries of every slice's lookout, oldest first (12 R269). -/
  lookout : List LookoutEntry := []
  accesses : Sparse Access := []
  batches : Sparse Batch := []
  press : Sparse PressEntry := []
  pubs : Sparse Publication := []
  handles : Sparse Handle := []
  migrations : List Migration := []
  slots : Sparse Slot := []
  dies : Sparse Die := []
  /-- Reason of the last refused power request (23 R479). -/
  powerReason : Nat := 0
  /-- The base of stored times and whether a sweep runs or is queued (12 R270 to R272). -/
  timeBase : Nat := 0
  /-- The generation of stored times that count from the base (12 R270, R271). -/
  generation : Bool := false
  sweeping : Bool := false
  sweepQueued : Bool := false
  /-- The round-robin position of the steward: context × 256 + queue served last (09 R194). -/
  turn : Nat := 0
  /-- Threads whose wait was released and whose chains commit next. -/
  granted : List Nat := []
  /-- Messages to other devices, oldest first: access or element they serve, destination, address. -/
  outbox : List Message := []
  /-- Words homed here that other devices watch: physical byte and device (12 R267, 13 R298). -/
  farWatch : List (Nat × Nat) := []
  /-- The latest time of a write the host has completed (10 R227), and its last answered access. -/
  hostClk : Nat := 0
  hostReply : Option HostReply := none
  /-- Bytes of ctl.enable of faulted queues, each with whether it has been written since the fault (09 R192). -/
  doors : Sparse Bool := []
  /-- Writes of the device's units held on their pages, oldest first (17 R373). -/
  deferred : List Deferred := []
  nextId : Nat := 1
  stamp : Nat := 0
  free : Nat := 0
deriving DecidableEq, Repr

/-- States of a port (20 R448). -/
inductive PortState where
  | down | training | up | degraded | fenced
deriving DecidableEq, Repr

/-- A port (20 R448): reset puts a port that is down in training. -/
structure Port where
  state : PortState := .training
  lanes : Nat := 0
  replays : Nat := 0
  dropped : Nat := 0
  /-- Replays of one flit in a row. -/
  inRow : Nat := 0
  /-- Flits sent and not yet acknowledged. -/
  replay : List (BitVec 64 × BitVec 384) := []
  /-- Flits put on the line since the last tick, replays among them. -/
  wire : List (BitVec 64 × BitVec 384) := []
deriving DecidableEq, Repr

/-- A flow at its destination (20 R445): next sequence number, flits delivered or waiting ahead of it; and the flits delivered of
messages that are not whole yet, in an unordered flow by sequence number, with the numbers of the last flits of messages. -/
structure Flow where
  next : Nat := 0
  seen : List Nat := []
  waiting : Sparse (BitVec 64 × BitVec 384) := []
  parts : List (BitVec 384) := []
  loose : Sparse (BitVec 64 × BitVec 384) := []
  ends : List Nat := []
deriving DecidableEq, Repr

/-- Mailbox states (20 R441). -/
inductive MailState where
  | idle | busy | done | failed
deriving DecidableEq, Repr

/-- What lies outside the cores: mailbox, power words, ports, flows, domain time, keys, counts (20, 21, 23). -/
structure Board where
  mbcmd : BitVec 16 := 0
  /-- The command that go started last. -/
  mbrun : BitVec 16 := 0
  mbstate : MailState := .idle
  overrun : Bool := false
  mbreason : Nat := 0
  mbbuf : Memory := []
  watts : Nat := 800
  /-- The ceiling in effect since the last share (23 R476). -/
  ceiling : Nat := 800
  avg : BitVec 11 := 0
  split : BitVec 6 := 0
  ports : Sparse Port := []
  flows : Sparse Flow := []
  sendSeq : Sparse Nat := []
  /-- Messages of other devices delivered and not yet acted on: they wait for leases to end or a page to stand still. -/
  inbox : List Message := []
  /-- The parts of contexts that other devices are moving here (18 R413). -/
  arriving : List Message := []
  /-- The write times, in domain ticks, of the pages of other devices of which copies lie here, by page frame (17 R382). -/
  pageTimes : Sparse Nat := []
  device : Nat := 0
  master : Option Nat := none
  dtick : Nat := 0
  sinceSync : Nat := 0
  /-- Page leases this device holds, by page frame: lease end in domain ticks (17 R382). -/
  leasesHeld : Sparse Nat := []
  /-- Page leases this device granted, by page frame: latest end (17 R383). -/
  leasesGranted : Sparse Nat := []
  keys : Sparse (BitVec 256) := []
  corrected : Sparse Nat := []
  barnFenced : List Nat := []
  safe : Bool := false
  failedUnits : BitVec 32 := 0
  hostLanes : Nat := 16
  /-- Populated bytes of expander memory (20 R440). -/
  expander : Nat := 0
  localBase : Nat := 0
  localLen : Nat := 0
  /-- Residue of the fabric timer's accumulator (02 R28). -/
  accum : Nat := 0
  /-- Physical words (4 bytes) of memory that hold an uncorrectable error, with its subcode (21 R450). -/
  poisoned : Sparse Nat := []
deriving DecidableEq, Repr

/-- Where a thread goes when its chain commits, other than to the next word. -/
inductive Jump where
  | to (pc : Addr)
  | exit
  /-- TRAP, or ECALL at user level: the chain commits, then the trap is entered (07 R154, 19 R433). -/
  | trapNext (i0 i1 i2 i3 : Word)
  /-- TRET: a level and a pc (19 R432). -/
  | ret (level : Level) (pc : Addr)
  /-- TRET of a routine that raises a cause (22 R470). -/
  | raise (level : Level) (pc : Addr) (cause : Nat) (word : Word)
  /-- RESUME (07 R155). -/
  | resume (pc : Addr)
deriving DecidableEq, Repr

/-- The open issue: one issue group and the chain it executes word by word (07 R135). -/
structure Issue where
  /-- The issue group's threads, in ascending home-lane order. -/
  members : List Nat
  pc : Addr
  /-- The pen the group issued from, if any. -/
  pen : Option Nat := none
  /-- The chain, once fetched. -/
  code : Option Fetched := none
  /-- Place of the word that executes next. -/
  at_ : Nat := 0
  /-- Threads that do not commit, with the place of the deciding word and the reason. -/
  dead : List (Nat × Nat × Verdict) := []
  /-- How many of them were known when this pass over the chain began. -/
  known : Nat := 0
  jumps : List (Nat × Jump) := []
deriving DecidableEq, Repr

/-- The whole state: the machine, the machine as it stood before the open chain, the open issue, the events the
environment lets happen next, the bytes of memory, and the board. -/
structure State where
  now : Chip
  base : Option Chip
  issue : Option Issue
  agenda : List Instr
  /-- Counts the events the model has chosen itself, an empty agenda leaving the choice to it (log entry 8). -/
  chosen : Nat
  mem : Memory
  board : Board
  /-- For a team in rollback mode, the machine as it stood when its interval opened (21 R458, R460). -/
  shadows : Sparse Chip
  /-- For a context, the machine and memory as they stood at its last mark, against which dirt is judged (18 R415). -/
  marks : Sparse (Chip × Memory)
deriving DecidableEq, Repr

/-- The state right after a device reset (12 R252, 23 R483 and the reset columns of the register tables): nothing is
loaded or resident, every clock is 0, the power-on self-test has passed, every die runs at P5, and every table holds its
defaults. -/
def State.reset : State where
  now :=
    { threads := [], groups := [], teams := [], clusters := [], launches := [], ctxs := [], crofts := [], cores := []
      home := [], slices := [], lookout := [], accesses := [], batches := [], press := [], pubs := [], handles := [], migrations := []
      slots := [], dies := [], powerReason := 0, timeBase := 0, generation := false, sweeping := false, sweepQueued := false, turn := 0
      granted := [], outbox := [], farWatch := [], hostClk := 0, hostReply := none, doors := [], deferred := [], nextId := 1, stamp := 0, free := 0 }
  base := none
  issue := none
  agenda := []
  chosen := 0
  mem := []
  board := {}
  shadows := []
  marks := []

end Sys2Proof.Machine
end

