-- ==== Sys2Proof/Machine/Sparse.lean ====
section
/-! DEFINITION. Tables by key (sorted insertion) and memory by byte (canonical form), with the accessors of the machine's
tables. -/

namespace Sys2Proof.Machine

/-- The value listed at a key. -/
def Sparse.find? {ν : Type} : Sparse ν → Nat → Option ν
  | [], _ => none
  | (j, v) :: t, k => if j = k then some v else Sparse.find? t k

/-- The value at a key, or the default. -/
def Sparse.get {ν : Type} (d : ν) (m : Sparse ν) (k : Nat) : ν := (Sparse.find? m k).getD d

/-- Writing a key, keys rising. -/
def Sparse.set {ν : Type} : Sparse ν → Nat → ν → Sparse ν
  | [], k, v => [(k, v)]
  | (j, w) :: t, k, v =>
    if k < j then (k, v) :: (j, w) :: t else if k = j then (k, v) :: t else (j, w) :: Sparse.set t k v

/-- Taking a key out. -/
def Sparse.erase {ν : Type} (m : Sparse ν) (k : Nat) : Sparse ν := m.filter (fun p => p.1 != k)

/-- Changing every listed value. -/
def Sparse.mapVals {ν : Type} (f : Nat → ν → ν) (m : Sparse ν) : Sparse ν := m.map (fun p => (p.1, f p.1 p.2))

/-- The keys whose value meets a condition. -/
def Sparse.keysWhere {ν : Type} (f : Nat → ν → Bool) (m : Sparse ν) : List Nat :=
  (m.filter (fun p => f p.1 p.2)).map (·.1)

/-- The entries that meet a condition. -/
def Sparse.only {ν : Type} (f : Nat → ν → Bool) (m : Sparse ν) : Sparse ν := m.filter (fun p => f p.1 p.2)

/-- Adding the entries of one table to another. -/
def Sparse.union {ν : Type} (m n : Sparse ν) : Sparse ν := n.foldl (fun m p => Sparse.set m p.1 p.2) m

/-- `n` bytes of zero. -/
def zeros (n : Nat) : List (BitVec 8) := List.replicate n 0

/-- Inserting by a key, before the first that is not less. -/
def insertBy (key : Nat → Nat) (x : Nat) : List Nat → List Nat
  | [] => [x]
  | y :: ys => if key x ≤ key y then x :: y :: ys else y :: insertBy key x ys

/-- Sorting by a key, equal keys in their order. -/
def sortBy (key : Nat → Nat) (l : List Nat) : List Nat := l.foldr (insertBy key) []

/-- What an unlisted byte of memory reads as (log entry 1). -/
def background : BitVec 8 := 0

/-- One byte of memory. -/
def Memory.read : Memory → Nat → BitVec 8
  | [], _ => background
  | (x, y) :: t, a => if a < x then background else if a = x then y else Memory.read t a

/-- Writing one byte, keeping the canonical form. -/
def Memory.write : Memory → Nat → BitVec 8 → Memory
  | [], a, b => if b = background then [] else [(a, b)]
  | (x, y) :: t, a, b =>
    if a < x then (if b = background then (x, y) :: t else (a, b) :: (x, y) :: t)
    else if a = x then (if b = background then t else (a, b) :: t)
    else (x, y) :: Memory.write t a b

/-- The canonical form from an address on: addresses rise strictly from it, no byte equals the background. -/
def Memory.wfFrom : Nat → Memory → Bool
  | _, [] => true
  | n, (x, y) :: t => decide (n ≤ x) && decide (y ≠ background) && Memory.wfFrom (x + 1) t

/-- The canonical form of a memory. -/
def Memory.wf (m : Memory) : Bool := Memory.wfFrom 0 m

/-- `n` bytes from an address as a little-endian number (01 R5). -/
def Memory.readN (m : Memory) (a : Nat) : Nat → Nat
  | 0 => 0
  | n + 1 => (Memory.read m a).toNat + 256 * Memory.readN m (a + 1) n

/-- Writing the low `n` bytes of a number, little-endian (01 R5). -/
def Memory.writeN (m : Memory) (a : Nat) : Nat → Nat → Memory
  | 0, _ => m
  | n + 1, v => Memory.writeN (Memory.write m a (BitVec.ofNat 8 v)) (a + 1) n (v / 256)

/-- `n` bytes from an address as a list. -/
def Memory.bytes (m : Memory) (a : Nat) : Nat → List (BitVec 8)
  | 0 => []
  | n + 1 => Memory.read m a :: Memory.bytes m (a + 1) n

/-- Writing a list of bytes. -/
def Memory.writeBytes (m : Memory) (a : Nat) : List (BitVec 8) → Memory
  | [] => m
  | b :: bs => Memory.writeBytes (Memory.write m a b) (a + 1) bs

/-- The bytes listed in a range of addresses. -/
def Memory.slice (m : Memory) (lo hi : Nat) : Memory := m.filter (fun p => decide (lo ≤ p.1) && decide (p.1 < hi))

/-- Clearing a range of addresses to the background. -/
def Memory.clear (m : Memory) (lo hi : Nat) : Memory := m.filter (fun p => !(decide (lo ≤ p.1) && decide (p.1 < hi)))

/-- The code of a level (01 R17). -/
def Level.code : Level → Nat
  | .user => 0
  | .supervisor => 1
  | .firmware => 2

/-- The level of a code; none for 3 (01 R17). -/
def levelOf : Nat → Option Level
  | 0 => some .user
  | 1 => some .supervisor
  | 2 => some .firmware
  | _ => none

/-- Code of a context state (18 R389). -/
def CtxState.code : CtxState → Nat
  | .created => 0 | .loaded => 1 | .running => 2 | .stopping => 3 | .stopped => 4 | .saving => 5
  | .saved => 6 | .resuming => 7 | .migrating => 8 | .killed => 9 | .retired => 10

/-! Accessors: the object at a number, and writing it back. -/

def Chip.thread (c : Chip) (t : Nat) : Thread := Sparse.get {} c.threads t
def Chip.group (c : Chip) (g : Nat) : Group := Sparse.get {} c.groups g
def Chip.team (c : Chip) (k : Nat) : Team := Sparse.get {} c.teams k
def Chip.cluster (c : Chip) (k : Nat) : Cluster := Sparse.get {} c.clusters k
def Chip.launch (c : Chip) (k : Nat) : Launch := Sparse.get { ctx := 0 } c.launches k
def Chip.ctx (c : Chip) (k : Nat) : Ctx := Sparse.get {} c.ctxs k
def Chip.croft (c : Chip) (k : Nat) : Croft := Sparse.get {} c.crofts k
def Chip.core (c : Chip) (k : Nat) : Core := Sparse.get {} c.cores k
def Chip.slot (c : Chip) (k : Nat) : Slot := Sparse.get {} c.slots k
def Chip.die (c : Chip) (k : Nat) : Die := Sparse.get {} c.dies k
def Chip.slice (c : Chip) (k : Nat) : Slice := Sparse.get {} c.slices k

def Chip.setThread (c : Chip) (t : Nat) (x : Thread) : Chip := { c with threads := Sparse.set c.threads t x }
def Chip.setGroup (c : Chip) (t : Nat) (x : Group) : Chip := { c with groups := Sparse.set c.groups t x }
def Chip.setTeam (c : Chip) (t : Nat) (x : Team) : Chip := { c with teams := Sparse.set c.teams t x }
def Chip.setCluster (c : Chip) (t : Nat) (x : Cluster) : Chip := { c with clusters := Sparse.set c.clusters t x }
def Chip.setLaunch (c : Chip) (t : Nat) (x : Launch) : Chip := { c with launches := Sparse.set c.launches t x }
def Chip.setCtx (c : Chip) (t : Nat) (x : Ctx) : Chip := { c with ctxs := Sparse.set c.ctxs t x }
def Chip.setCroft (c : Chip) (t : Nat) (x : Croft) : Chip := { c with crofts := Sparse.set c.crofts t x }
def Chip.setCore (c : Chip) (t : Nat) (x : Core) : Chip := { c with cores := Sparse.set c.cores t x }
def Chip.setSlot (c : Chip) (t : Nat) (x : Slot) : Chip := { c with slots := Sparse.set c.slots t x }
def Chip.setDie (c : Chip) (t : Nat) (x : Die) : Chip := { c with dies := Sparse.set c.dies t x }
def Chip.setSlice (c : Chip) (t : Nat) (x : Slice) : Chip := { c with slices := Sparse.set c.slices t x }
def Chip.setAccess (c : Chip) (t : Nat) (x : Access) : Chip := { c with accesses := Sparse.set c.accesses t x }
def Chip.setBatch (c : Chip) (t : Nat) (x : Batch) : Chip := { c with batches := Sparse.set c.batches t x }
def Chip.setPress (c : Chip) (t : Nat) (x : PressEntry) : Chip := { c with press := Sparse.set c.press t x }
def Chip.setPub (c : Chip) (t : Nat) (x : Publication) : Chip := { c with pubs := Sparse.set c.pubs t x }
def Chip.setHandle (c : Chip) (t : Nat) (x : Handle) : Chip := { c with handles := Sparse.set c.handles t x }

/-- The group a thread belongs to: threads are numbered 32 × group + home lane. -/
def groupOf (t : Nat) : Nat := t / 32
/-- A thread's home lane (07 R131). -/
def laneOf (t : Nat) : Nat := t % 32
/-- The team of a thread. -/
def Chip.teamOf (c : Chip) (t : Nat) : Nat := (c.group (groupOf t)).team
/-- The context of a thread. -/
def Chip.ctxOf (c : Chip) (t : Nat) : Nat := (c.team (c.teamOf t)).ctx
/-- The croft of a thread. -/
def Chip.croftOf (c : Chip) (t : Nat) : Nat := (c.group (groupOf t)).croft
/-- The core of a thread. -/
def Chip.coreOf (c : Chip) (t : Nat) : Nat := c.croftOf t / 4
/-- Present and not exited. -/
def Chip.active (c : Chip) (t : Nat) : Bool := (c.thread t).present && (c.thread t).place != .exited

/-- One register of a thread. -/
def Chip.reg (c : Chip) (t n : Nat) : Reg := Sparse.get {} (c.thread t).regs n
/-- The 32 bits of a register: ReadV (01 R12). -/
def Chip.v (c : Chip) (t n : Nat) : Word := (c.reg t n).bits
/-- A register pair as 64 bits, the even register low (05 R91). -/
def Chip.vv (c : Chip) (t n : Nat) : BitVec 64 := c.v t (n + 1) ++ c.v t n
/-- A predicate: ReadP (01 R12). -/
def Chip.p (c : Chip) (t k : Nat) : Bool := (c.thread t).preds.getLsbD k
/-- A mask register of a group (07 R110). -/
def Chip.mask (c : Chip) (g k : Nat) : Word := Sparse.get 0 (c.group g).masks k

/-- Replacing a register of a thread. -/
def Chip.setReg (c : Chip) (t n : Nat) (r : Reg) : Chip :=
  c.setThread t { c.thread t with regs := Sparse.set (c.thread t).regs n r }
/-- WriteV (01 R12): bits and tag, nothing pending. -/
def Chip.writeV (c : Chip) (t n : Nat) (x : Word) (tag : Tag) : Chip := c.setReg t n { bits := x, tag := tag }
/-- Writing a pair, low half first (05 R91). -/
def Chip.writeVV (c : Chip) (t n : Nat) (x : BitVec 64) (tag : Tag) : Chip :=
  (c.writeV t n (x.extractLsb' 0 32) tag).writeV t (n + 1) (x.extractLsb' 32 32) tag
/-- WriteP (01 R12). -/
def Chip.writeP (c : Chip) (t k : Nat) (b : Bool) : Chip :=
  c.setThread t { c.thread t with
    preds := if b then (c.thread t).preds ||| BitVec.ofNat 8 (2 ^ k) else (c.thread t).preds &&& ~~~BitVec.ofNat 8 (2 ^ k) }
/-- Writing a mask register of a group (07 R110). -/
def Chip.writeM (c : Chip) (g k : Nat) (x : Word) : Chip :=
  c.setGroup g { c.group g with masks := Sparse.set (c.group g).masks k x }

/-- A fresh number for an object. -/
def Chip.fresh (c : Chip) : Nat × Chip := (c.nextId, { c with nextId := c.nextId + 1 })
/-- A fresh order stamp. -/
def Chip.tickStamp (c : Chip) : Nat × Chip := (c.stamp, { c with stamp := c.stamp + 1 })
/-- A fresh free value (01 R14). -/
def Chip.freeValue (c : Chip) : BitVec 64 × Chip := (Config.freeBits c.free, { c with free := c.free + 1 })

/-! Tag codes (03 R55). -/

def tagRaw : Tag := 0
def tagInt : Tag := 1
def tagF32 : Tag := 2
def tagBf16 : Tag := 3
def tagE4m3 : Tag := 4
def tagE5m2 : Tag := 5
def tagPs8 : Tag := 6
def tagS8 : Tag := 7
def tagN8 : Tag := 8
def tagScale : Tag := 9
def tagHandle : Tag := 10
def tagCode : Tag := 11

/-! Cause codes (19 R427). -/

def causeIllegal : Nat := 0x01
def causeChain : Nat := 0x02
def causeFormat : Nat := 0x03
def causeAlign : Nat := 0x04
def causePrivilege : Nat := 0x05
def causeRange : Nat := 0x06
def causePage : Nat := 0x07
def causeAccess : Nat := 0x09
def causePlate : Nat := 0x0A
def causePlateRange : Nat := 0x0B
def causeMxParam : Nat := 0x0C
def causeHandle : Nat := 0x0D
def causeTimeout : Nat := 0x0E
def causeBreak : Nat := 0x10
def causeTrap : Nat := 0x11
def causePatch : Nat := 0x12
def causeUncorrectable : Nat := 0x13
def causeMismatch : Nat := 0x14
def causeKillRequest : Nat := 0x15
def causeQueue : Nat := 0x17

end Sys2Proof.Machine
end

