-- ==== Sys2Proof/Machine/Num.lean ====
section
/-! DEFINITION. Number formats, exact values, rounding and the order of sums (04 R66 to R83), and the special functions'
exact cases and bounds (06 R117, R118). -/

namespace Sys2Proof.Machine

/-- An exact value: not a number, an infinity, or (−1)^neg × m × 2^e. A zero keeps its sign. -/
inductive Val where
  | nan
  | inf (neg : Bool)
  | fin (neg : Bool) (m : Nat) (e : Int)
deriving DecidableEq, Repr

/-- Rounding modes (04 R71). -/
inductive Mode where
  | rn | rz | rd | ru
deriving DecidableEq, Repr

/-- The mode of a 2-bit code (04 R71). -/
def modeOf (b : BitVec 2) : Mode := if b = 0 then .rn else if b = 1 then .rz else if b = 2 then .rd else .ru

/-- A binary floating format: exponent bits, mantissa bits, bias, whether it has infinities, the largest finite mantissa
(with its hidden bit) and exponent of its last place, the canonical NaN (04 R66). -/
structure Fmt where
  eb : Nat
  mb : Nat
  bias : Nat
  hasInf : Bool
  maxM : Nat
  maxQ : Int
  nanBits : Nat
deriving DecidableEq, Repr

def fmtF32 : Fmt := ⟨8, 23, 127, true, 2 ^ 24 - 1, 104, 0x7FC00000⟩
def fmtBF16 : Fmt := ⟨8, 7, 127, true, 255, 120, 0x7FC0⟩
def fmtE4M3 : Fmt := ⟨4, 3, 7, false, 14, 5, 0x7F⟩
def fmtE5M2 : Fmt := ⟨5, 2, 15, true, 7, 13, 0x7E⟩

/-- The value of an encoding (04 R66, R67). -/
def Fmt.value (f : Fmt) (x : Nat) : Val :=
  let s := bitAt x (f.eb + f.mb)
  let e := fieldNat x f.mb f.eb
  let m := fieldNat x 0 f.mb
  if e = 0 then .fin s m (1 - (f.bias : Int) - f.mb)
  else if e = 2 ^ f.eb - 1 ∧ f.hasInf = true then (if m = 0 then .inf s else .nan)
  else if e = 2 ^ f.eb - 1 ∧ m = 2 ^ f.mb - 1 then .nan
  else .fin s (2 ^ f.mb + m) ((e : Int) - f.bias - f.mb)

/-- The sign bit of a format in place. -/
def Fmt.signBits (f : Fmt) (neg : Bool) : Nat := if neg then 2 ^ (f.eb + f.mb) else 0

/-- The encoding of (−1)^neg × m × 2^q, `q` not below the subnormal spacing and `m` at most 2^(mb+1). -/
def Fmt.encodeFin (f : Fmt) (neg : Bool) (m : Nat) (q : Int) : Nat :=
  if m < 2 ^ f.mb then f.signBits neg + m
  else
    let (m, q) := if m = 2 ^ (f.mb + 1) then (2 ^ f.mb, q + 1) else (m, q)
    f.signBits neg + (q + f.mb + f.bias).toNat * 2 ^ f.mb + (m - 2 ^ f.mb)

/-- The largest finite value with a sign. -/
def Fmt.maxBits (f : Fmt) (neg : Bool) : Nat := f.encodeFin neg f.maxM f.maxQ

/-- An infinity; in a format without one, the canonical NaN (04 R71, step 4). -/
def Fmt.infBits (f : Fmt) (neg : Bool) : Nat :=
  if f.hasInf then f.signBits neg + (2 ^ f.eb - 1) * 2 ^ f.mb else f.nanBits

/-- The overflow result of a mode with saturation (04 R71, steps 3 to 5). -/
def Fmt.overflow (f : Fmt) (mode : Mode) (sat neg : Bool) : Nat :=
  let toMax := match mode with
    | .rn => false
    | .rz => true
    | .rd => !neg
    | .ru => neg
  if toMax || sat then f.maxBits neg else f.infBits neg

/-- Whether a mode rounds the magnitude `m / 2^k` up. -/
def roundsUp (mode : Mode) (neg : Bool) (m k : Nat) : Bool :=
  let r := m % 2 ^ k
  match mode with
  | .rn => decide (2 ^ k < 2 * r) || (decide (2 * r = 2 ^ k) && decide (m / 2 ^ k % 2 = 1))
  | .rz => false
  | .rd => neg && decide (r ≠ 0)
  | .ru => !neg && decide (r ≠ 0)

/-- `m × 2^e` at the spacing `2^q`, rounded. -/
def roundAt (mode : Mode) (neg : Bool) (m : Nat) (e q : Int) : Nat :=
  if q ≤ e then m * 2 ^ (e - q).toNat
  else
    let k := (q - e).toNat
    m / 2 ^ k + (if roundsUp mode neg m k then 1 else 0)

/-- Whether `m × 2^q` is above the largest finite value. -/
def Fmt.above (f : Fmt) (m : Nat) (q : Int) : Bool :=
  if q ≤ f.maxQ then decide (f.maxM * 2 ^ (f.maxQ - q).toNat < m) else decide (f.maxM < m * 2 ^ (q - f.maxQ).toNat)

/-- RoundF (04 R71). -/
def roundF (f : Fmt) (mode : Mode) (sat : Bool) : Val → Nat
  | .nan => f.nanBits
  | .inf neg => f.overflow mode sat neg
  | .fin neg m e =>
    if m = 0 then f.signBits neg
    else
      let q := max (e + Nat.log2 m - f.mb) (1 - (f.bias : Int) - f.mb)
      let r := roundAt mode neg m e q
      if f.above r q then f.overflow mode sat neg else f.encodeFin neg r q

/-- The F32 value of a register. -/
def f32 (x : Word) : Val := fmtF32.value x.toNat
/-- RoundF to F32 under rn without saturation, as most instructions round (04 R72). -/
def toF32 (v : Val) : Word := BitVec.ofNat 32 (roundF fmtF32 .rn false v)

def Val.isNan : Val → Bool
  | .nan => true
  | _ => false

def Val.isZero : Val → Bool
  | .fin _ m _ => decide (m = 0)
  | _ => false

/-- The sign of a value. -/
def Val.neg? : Val → Bool
  | .nan => false
  | .inf n => n
  | .fin n _ _ => n

/-- −x. -/
def Val.negate : Val → Val
  | .nan => .nan
  | .inf n => .inf (!n)
  | .fin n m e => .fin (!n) m e

/-- x × y exactly (04 R79, 06 R114). -/
def Val.mul : Val → Val → Val
  | .nan, _ => .nan
  | _, .nan => .nan
  | .inf a, .inf b => .inf (xor a b)
  | .inf a, .fin b m _ => if m = 0 then .nan else .inf (xor a b)
  | .fin a m _, .inf b => if m = 0 then .nan else .inf (xor a b)
  | .fin a m e, .fin b n f => .fin (xor a b) (m * n) (e + f)

/-- The signed mantissa of a finite value at an exponent not above its own. -/
def Val.at : Val → Int → Int
  | .fin neg m e, q => (if neg then -1 else 1) * ((m : Int) * 2 ^ (e - q).toNat)
  | _, _ => 0

/-- The exponent of a finite value. -/
def Val.exp : Val → Int
  | .fin _ _ e => e
  | _ => 0

/-- The exact sum of a list, with the sign of a zero sum: NaN with any NaN or with infinities of both signs, an infinity
with infinities of one sign, and −0 only when every term is −0 (04 R79, 06 R114). -/
def Val.sum (l : List Val) : Val :=
  if l.any Val.isNan then .nan
  else if l.contains (.inf true) then (if l.contains (.inf false) then .nan else .inf true)
  else if l.contains (.inf false) then .inf false
  else
    let q : Int := l.foldl (fun q v => min q v.exp) 0
    let t : Int := l.foldl (fun t v => t + v.at q) 0
    if t = 0 then .fin (!l.isEmpty && l.all (fun v => v.isZero && v.neg?)) 0 0
    else .fin (decide (t < 0)) t.natAbs q

/-- x + y exactly. -/
def Val.add (x y : Val) : Val := Val.sum [x, y]

/-- x ≤ y for values that are not NaN. -/
def Val.le : Val → Val → Bool
  | .inf a, y => a || (y == .inf false)
  | x, .inf b => !b || (x == .inf true)
  | x, y =>
    let q := min x.exp y.exp
    decide (x.at q ≤ y.at q)

/-- x < y for values that are not NaN. -/
def Val.lt (x y : Val) : Bool := x.le y && !y.le x

/-- x / y with enough places that one rounding of it is exact (06 R114, R120). -/
def Val.div : Val → Val → Val
  | .nan, _ => .nan
  | _, .nan => .nan
  | .inf _, .inf _ => .nan
  | .inf a, .fin b _ _ => .inf (xor a b)
  | .fin a _ _, .inf b => .fin (xor a b) 0 0
  | .fin a m e, .fin b n f =>
    if n = 0 then (if m = 0 then .nan else .inf (xor a b))
    else
      let k := 300 + Nat.log2 n
      let q := m * 2 ^ k / n
      .fin (xor a b) (2 * q + (if m * 2 ^ k % n = 0 then 0 else 1)) (e - f - k - 1)

/-- The integer square root, by bisection on the bits from `k` down. -/
def isqrtFrom : Nat → Nat → Nat → Nat
  | 0, _, r => r
  | k + 1, m, r => if (r + 2 ^ k) * (r + 2 ^ k) ≤ m then isqrtFrom k m (r + 2 ^ k) else isqrtFrom k m r

/-- √x with enough places that one rounding of it is exact (06 R120). -/
def Val.sqrt : Val → Val
  | .nan => .nan
  | .inf neg => if neg then .nan else .inf false
  | .fin neg m e =>
    if m = 0 then .fin neg 0 0
    else if neg then .nan
    else
      let (m, e) := if e % 2 = 0 then (m, e) else (2 * m, e - 1)
      let n := m * 2 ^ 80
      let r := isqrtFrom (Nat.log2 n / 2 + 1) n 0
      .fin false (2 * r + (if r * r = n then 0 else 1)) (e / 2 - 41)

/-- x rounded to an integral value (06 R119, R120): its magnitude. -/
def roundInt (mode : Mode) (neg : Bool) (m : Nat) (e : Int) : Nat := roundAt mode neg m e 0

/-- x as an integer, clamped to a range; NaN gives 0 (04 R73). -/
def toIntClamped (mode : Mode) (lo hi : Int) : Val → Int
  | .nan => 0
  | .inf neg => if neg then lo else hi
  | .fin neg m e =>
    let r := roundInt mode neg m e
    max lo (min hi (if neg then -(r : Int) else r))

/-- An integer as an exact value. -/
def Val.ofInt (i : Int) : Val := .fin (decide (i < 0)) i.natAbs 0

/-- 2^e exactly. -/
def Val.pow2 (e : Int) : Val := .fin false 1 e

/-! PS8 (04 R74 to R76), in units of 2^−6. -/

/-- One term of a PS8 element. -/
def ps8Term (n : Nat) : Int :=
  let k := n % 8
  if k = 7 then 0 else (if n / 8 % 2 = 1 then -1 else 1) * (2 : Int) ^ (6 - k)

/-- The value of a PS8 encoding in units of 2^−6 (04 R74). -/
def ps8Units (x : Nat) : Int := ps8Term (x / 16 % 16) + ps8Term (x % 16)

/-- The value of a PS8 encoding. -/
def ps8Value (x : Nat) : Val := .fin (decide (ps8Units x < 0)) (ps8Units x).natAbs (-6)

/-- The magnitudes of PS8 with their canonical positive encodings (04 R75): single terms, 2, same-sign sums, then the
differences that no sum gives. -/
def ps8Table : List (Nat × Nat) :=
  [(0, 0x77), (1, 0x67), (2, 0x57), (4, 0x47), (8, 0x37), (16, 0x27), (32, 0x17), (64, 0x07), (128, 0x00)] ++
  [(96, 0x01), (80, 0x02), (72, 0x03), (68, 0x04), (66, 0x05), (65, 0x06)] ++
  [(48, 0x12), (40, 0x13), (36, 0x14), (34, 0x15), (33, 0x16)] ++
  [(24, 0x23), (20, 0x24), (18, 0x25), (17, 0x26), (12, 0x34), (10, 0x35), (9, 0x36)] ++
  [(6, 0x45), (5, 0x46), (3, 0x56)] ++
  [(56, 0x0B), (60, 0x0C), (62, 0x0D), (63, 0x0E), (28, 0x1C), (30, 0x1D), (31, 0x1E), (14, 0x2D), (15, 0x2E), (7, 0x3E)]

/-- Nonzero terms of a magnitude's canonical encoding. -/
def ps8Terms (u : Nat) : Nat := if u = 0 then 0 else if u ∈ [1, 2, 4, 8, 16, 32, 64] then 1 else 2

/-- The canonical encoding of a magnitude with a sign (04 R75). -/
def ps8Code (neg : Bool) (u : Nat) : Nat :=
  let c := ((ps8Table.find? (fun p => p.1 == u)).getD (0, 0x77)).2
  if !neg || u = 0 then c
  else if c % 16 = 7 then c + 0x80
  else (c + 0x80) % 0x100 / 16 * 16 + (c % 16 + 8) % 16

/-- Whether candidate magnitude `u` is better than `v` for the magnitude `x / 2^k` units under rn (04 R76). -/
def ps8Better (x k u v : Nat) : Bool :=
  let du := (Int.natAbs ((u : Int) * 2 ^ k - x))
  let dv := (Int.natAbs ((v : Int) * 2 ^ k - x))
  decide (du < dv) || (decide (du = dv) &&
    (decide (ps8Terms u < ps8Terms v) || (decide (ps8Terms u = ps8Terms v) && decide (u < v))))

/-- The magnitude a conversion to PS8 picks for `x / 2^k` units (04 R76). -/
def ps8Pick (mode : Mode) (neg : Bool) (x k : Nat) : Nat :=
  if 128 * 2 ^ k ≤ x then 128
  else
    let up := match mode with
      | .rd => neg
      | .ru => !neg
      | _ => false
    let us := ps8Table.map (·.1)
    match mode with
    | .rn => us.foldl (fun v u => if ps8Better x k u v then u else v) 0
    | _ =>
      if up then us.foldl (fun v u => if decide (x ≤ u * 2 ^ k) && decide (u < v) then u else v) 128
      else us.foldl (fun v u => if decide (u * 2 ^ k ≤ x) && decide (v < u) then u else v) 0

/-- RoundF to PS8 (04 R71, R76). -/
def roundPs8 (mode : Mode) : Val → Nat
  | .nan => 0x77
  | .inf neg => ps8Code neg 128
  | .fin neg m e =>
    if -6 ≤ e then ps8Code neg (ps8Pick mode neg (m * 2 ^ (e + 6).toNat) 0)
    else ps8Code neg (ps8Pick mode neg m (-6 - e).toNat)

/-! Elements of packed registers (04 R68). -/

/-- Element `j` of `n`-bit elements. -/
def elem (x : Word) (n j : Nat) : Nat := fieldNat x.toNat (n * j) n
/-- Two's complement of `n` bits. -/
def signedNat (x n : Nat) : Int := if bitAt x (n - 1) then (x : Int) - 2 ^ n else x

/-- The exact value of element `j` of a packed register, by its tag; NaN for a tag that packs no float. -/
def elemValue (tag : Tag) (x : Word) (j : Nat) : Val :=
  if tag = tagBf16 then fmtBF16.value (elem x 16 j)
  else if tag = tagE4m3 then fmtE4M3.value (elem x 8 j)
  else if tag = tagE5m2 then fmtE5M2.value (elem x 8 j)
  else if tag = tagPs8 then ps8Value (elem x 8 j)
  else if tag = tagS8 then .ofInt (signedNat (elem x 8 j) 8)
  else if tag = tagN8 then .ofInt (elem x 8 j)
  else .nan

/-- RoundF(v, fmt, mode, sat) for the packed float formats by tag. -/
def roundTag (tag : Tag) (mode : Mode) (sat : Bool) (v : Val) : Nat :=
  if tag = tagBf16 then roundF fmtBF16 mode sat v
  else if tag = tagE4m3 then roundF fmtE4M3 mode sat v
  else if tag = tagE5m2 then roundF fmtE5M2 mode sat v
  else roundPs8 mode v

/-- The sum of products of a dot product (04 R80, 06 R129): `n` elements of `tag`. -/
def dotSum (tag : Tag) (n : Nat) (x y : Word) : Val :=
  Val.sum ((List.range n).map (fun j => (elemValue tag x j).mul (elemValue tag y j)))

/-- The integer sum of four products (06 R129). -/
def dotInt (signed : Bool) (x y : Word) : Int :=
  ((List.range 4).map (fun j =>
    let a := elem x 8 j
    let b := elem y 8 j
    if signed then signedNat a 8 * signedNat b 8 else ((a * b : Nat) : Int))).sum

/-! Special functions (06 R118): the exact values and special inputs of each row, and the approximate result. -/

/-- The exponent of the binade of a positive finite value. -/
def binade : Val → Int
  | .fin _ m e => e + Nat.log2 m
  | _ => 0

/-- ulp of a value in a binade: the F32 spacing there, 2^−149 in the subnormal range (06 R117). -/
def ulpOf (b : Int) : Val := .pow2 (max (b - 23) (-149))

/-- A power of two: its exponent. -/
def Val.log2? : Val → Option Int
  | .fin _ m e => if m ≠ 0 ∧ m = 2 ^ Nat.log2 m then some (e + Nat.log2 m) else none
  | _ => none

/-- An integral finite value. -/
def Val.isInt : Val → Bool
  | .fin _ m e => decide (0 ≤ e) || decide (m % 2 ^ (-e).toNat = 0)
  | _ => false

/-- The magnitude of an integral value. -/
def Val.intMag : Val → Nat
  | .fin _ m e => if 0 ≤ e then m * 2 ^ e.toNat else m / 2 ^ (-e).toNat
  | _ => 0

def f32One (neg : Bool) : Word := if neg then 0xBF800000 else 0x3F800000
def f32Inf (neg : Bool) : Word := if neg then 0xFF800000 else 0x7F800000
def f32Zero (neg : Bool) : Word := if neg then 0x80000000 else 0
def f32Nan : Word := 0x7FC00000

/-- FMIN (04 R69): the operand that is not NaN, −0 below +0. -/
def fminWord (x y : Word) : Word :=
  if (f32 x).isNan then (if (f32 y).isNan then f32Nan else y)
  else if (f32 y).isNan then x
  else if (f32 x).isZero && (f32 y).isZero then (if (f32 x).neg? then x else y)
  else if (f32 x).le (f32 y) then x else y

/-- FMAX (04 R69). -/
def fmaxWord (x y : Word) : Word :=
  if (f32 x).isNan then (if (f32 y).isNan then f32Nan else y)
  else if (f32 y).isNan then x
  else if (f32 x).isZero && (f32 y).isZero then (if (f32 x).neg? then y else x)
  else if (f32 y).le (f32 x) then x else y

/-- The approximate result of one of the first three functions, kept within 1 ulp: the device's own where it meets the
bound, else the correctly rounded one. `ok r u` says that the value `r` is within `u` of the exact result. -/
def boundedApprox (fn : Nat) (x : Word) (b : Int) (exact : Val) (ok : Val → Val → Bool) : Word :=
  let r := Config.special fn x
  if !(f32 r).isNan && ok (f32 r) (ulpOf b) then r else toF32 exact

/-- `lo ≤ x`, `x ≤ hi`. -/
def within (lo x hi : Val) : Bool := lo.le x && x.le hi

/-- FRCP (06 R118). DESIGN CHOICE (log entry 3): the rule states no result for ±2^−128, whose reciprocal is not representable and which is
not below 2^−128; it is a free value. -/
def frcp (x : Word) : Word :=
  match f32 x with
  | .nan => f32Nan
  | .inf neg => f32Zero neg
  | .fin neg m e =>
    if m = 0 then f32Inf neg
    else if (Val.fin false m e).lt (.pow2 (-128)) then f32Inf neg
    else match Val.log2? (.fin neg m e) with
      | some k => if k = -128 then Config.special 0 x else toF32 (.fin neg 1 (-k))
      | none =>
        let v := Val.fin neg m e
        let ex := Val.div (.fin false 1 0) v
        boundedApprox 0 x (binade ex) ex (fun r u =>
          let uv := Val.mul u (.fin false m e)
          within ((Val.fin false 1 0).add uv.negate) (r.mul v) ((Val.fin false 1 0).add uv))

/-- (r − u)² × s ≤ t ≤ (r + u)² × s, with r − u taken as 0 where it is negative. -/
def squareWithin (r u s t : Val) : Bool :=
  let lo := r.add u.negate
  let hi := r.add u
  !r.neg? && (lo.neg? || ((lo.mul lo).mul s).le t) && t.le ((hi.mul hi).mul s)

/-- FRSQ (06 R118). -/
def frsq (x : Word) : Word :=
  match f32 x with
  | .nan => f32Nan
  | .inf neg => if neg then f32Nan else 0
  | .fin neg m e =>
    if m = 0 then f32Inf neg
    else if neg then f32Nan
    else
      let v := Val.fin false m e
      let go := let ex := Val.div (.fin false 1 0) v.sqrt
        boundedApprox 1 x (binade ex) ex (fun r u => squareWithin r u v (.fin false 1 0))
      match v.log2? with
      | some k => if k % 2 = 0 then toF32 (.pow2 (-(k / 2))) else go
      | none => go

/-- FSQRTA (06 R118). -/
def fsqrta (x : Word) : Word :=
  match f32 x with
  | .nan => f32Nan
  | .inf neg => if neg then f32Nan else f32Inf false
  | .fin neg m e =>
    if m = 0 then f32Zero neg
    else if neg then f32Nan
    else
      let v := Val.fin false m e
      let go := boundedApprox 2 x (binade v.sqrt) v.sqrt (fun r u => squareWithin r u (.fin false 1 0) v)
      match v.log2? with
      | some k => if k % 2 = 0 then toF32 (.pow2 (k / 2)) else go
      | none => go

/-! The transcendental functions. Their exact values are irrational wherever their rows state none, so no result lies at the end of
a bound; they are taken here from their series in fixed point, with 256 fraction bits (log entry 3). -/

/-- Fraction bits. -/
def fixBits : Nat := 256
/-- The fixed-point sum of a series: its first term and how a term follows from its predecessor. -/
def fixSeries (first : Nat) (next : Nat → Nat → Nat) (n : Nat) : Nat :=
  ((List.range n).foldl (fun (p : Nat × Nat) k => (p.1 + p.2, next k p.2)) (0, first)).1
/-- e^t. -/
def fixExp (t : Nat) : Nat := fixSeries (2 ^ fixBits) (fun k a => a * t / 2 ^ fixBits / (k + 1)) 160
/-- atanh z, z at most 1/3: the powers of z, each divided by its exponent. -/
def fixAtanh (z : Nat) : Nat :=
  ((List.range 90).foldl (fun (p : Nat × Nat) k => (p.1 + p.2 / (2 * k + 1), p.2 * z / 2 ^ fixBits * z / 2 ^ fixBits)) (0, z)).1
/-- ln 2 = 2 atanh (1/3). -/
def fixLn2 : Nat := 2 * fixAtanh (2 ^ fixBits / 3)
/-- atan (1/n), its positive and negative terms apart. -/
def fixAtanInv (n : Nat) : Nat :=
  let term := fun k => 2 ^ fixBits / n ^ (2 * k + 1) / (2 * k + 1)
  ((List.range 30).map (fun k => term (2 * k))).sum - ((List.range 30).map (fun k => term (2 * k + 1))).sum
/-- π = 16 atan (1/5) − 4 atan (1/239). -/
def fixPi : Nat := 16 * fixAtanInv 5 - 4 * fixAtanInv 239
/-- sin t, t at most π/2, its positive and negative terms apart. -/
def fixSin (t : Nat) : Nat :=
  let step := fun k a => a * t / 2 ^ fixBits * t / 2 ^ fixBits / ((2 * k + 2) * (2 * k + 3))
  let p := (List.range 60).foldl (fun (p : Nat × Nat × Nat) k => (if k % 2 = 0 then (p.1 + p.2.2, p.2.1, step k p.2.2) else (p.1, p.2.1 + p.2.2, step k p.2.2))) (0, 0, t)
  p.1 - p.2.1
/-- The magnitude of a value, in fixed point. -/
def Val.fix : Val → Nat
  | .fin _ m e => if 0 ≤ e then m * 2 ^ (e.toNat + fixBits) else m * 2 ^ fixBits / 2 ^ (-e).toNat
  | _ => 0
/-- 2^x for a value with a fraction. -/
def exactExp2 (neg : Bool) (x : Nat) : Val :=
  let n := x / 2 ^ fixBits
  let f := x % 2 ^ fixBits
  if neg then .fin false (fixExp ((2 ^ fixBits - f) * fixLn2 / 2 ^ fixBits)) (-(n : Int) - 1 - fixBits)
  else .fin false (fixExp (f * fixLn2 / 2 ^ fixBits)) ((n : Int) - fixBits)
/-- log2 of m × 2^e. -/
def exactLog2 (m : Nat) (e : Int) : Val :=
  let l := Nat.log2 m
  let y := 2 * fixAtanh ((m - 2 ^ l) * 2 ^ fixBits / (m + 2 ^ l)) * 2 ^ fixBits / fixLn2
  let r := (e + l) * 2 ^ fixBits + y
  .fin (decide (r < 0)) r.natAbs (-(fixBits : Int))
/-- sin (π x), x not an integer. -/
def exactSinPi (neg : Bool) (x : Nat) : Val :=
  let u := x % 2 ^ fixBits
  .fin (xor neg (decide (x / 2 ^ fixBits % 2 = 1))) (fixSin (min u (2 ^ fixBits - u) * fixPi / 2 ^ fixBits)) (-(fixBits : Int))
/-- tanh x. -/
def exactTanh (neg : Bool) (x : Nat) : Val :=
  let w := fixExp (2 * x)
  .fin neg ((w - 2 ^ fixBits) * 2 ^ fixBits / (w + 2 ^ fixBits)) (-(fixBits : Int))
/-- The approximate result of a function: the device's own where it lies within the bound of the exact value, else the correctly
rounded one. -/
def boundedBy (fn : Nat) (x : Word) (exact tol : Val) : Word :=
  let r := Config.special fn x
  if !(f32 r).isNan && within (exact.add tol.negate) (f32 r) (exact.add tol) then r else toF32 exact
/-- Two units in the last place of a value. -/
def twoUlp (v : Val) : Val := (ulpOf (binade v)).mul (.ofInt 2)

/-- FEX2 (06 R118). -/
def fex2 (x : Word) : Word :=
  match f32 x with
  | .nan => f32Nan
  | .inf neg => if neg then 0 else f32Inf false
  | .fin neg m e =>
    let v := Val.fin neg m e
    if m = 0 then f32One false
    else if (Val.ofInt 128).le v then f32Inf false
    else if v.le (.ofInt (-151)) then 0
    else if v.isInt && (Val.ofInt (-149)).le v then toF32 (.pow2 (if neg then -(v.intMag : Int) else v.intMag))
    else boundedBy 3 x (exactExp2 neg v.fix) (twoUlp (exactExp2 neg v.fix))

/-- FLG2 (06 R118). -/
def flg2 (x : Word) : Word :=
  match f32 x with
  | .nan => f32Nan
  | .inf neg => if neg then f32Nan else f32Inf false
  | .fin neg m e =>
    if m = 0 then f32Inf true
    else if neg then f32Nan
    else match Val.log2? (.fin neg m e) with
      | some k => toF32 (.ofInt k)
      | none =>
        let v := Val.fin false m e
        boundedBy 4 x (exactLog2 m e) (if within (.pow2 (-1)) v (.ofInt 2) then .pow2 (-22) else twoUlp (exactLog2 m e))

/-- FSINP (06 R118). -/
def fsinp (x : Word) : Word :=
  match f32 x with
  | .nan => f32Nan
  | .inf _ => f32Nan
  | .fin neg m e =>
    let v := Val.fin neg m e
    if v.isInt then f32Zero neg
    else
      -- x = n + 0.5: twice x is an odd integer 2n + 1, and n is even when 2n + 1 is 1 modulo 4
      let w := Val.fin neg m (e + 1)
      if w.isInt then f32One (xor neg (decide (w.intMag % 4 = 3))) else boundedBy 5 x (exactSinPi neg v.fix) (.pow2 (-22))

/-- FCOSP (06 R118). -/
def fcosp (x : Word) : Word :=
  match f32 x with
  | .nan => f32Nan
  | .inf _ => f32Nan
  | .fin neg m e =>
    let v := Val.fin neg m e
    if v.isInt then f32One (decide (v.intMag % 2 = 1))
    else if (Val.fin neg m (e + 1)).isInt then 0
    else boundedBy 6 x (exactSinPi false (v.fix + 2 ^ (fixBits - 1))) (.pow2 (-22))

/-- FTANH (06 R118). -/
def ftanh (x : Word) : Word :=
  match f32 x with
  | .nan => f32Nan
  | .inf neg => f32One neg
  | .fin neg m e =>
    let v := Val.fin false m e
    if v.lt (.pow2 (-12)) then x
    else if (Val.fin false 19 (-1)).le v then f32One neg
    else boundedBy 7 x (exactTanh neg v.fix) (twoUlp (exactTanh neg v.fix))

end Sys2Proof.Machine
end

