-- ==== Sys2Proof/Machine/Wire.lean ====
section
/-! DEFINITION. Messages to other devices and the flits that carry them (20 R444, R445, R448, R449). -/

namespace Sys2Proof.Machine

/-! Messages. The manual gives a message's address and attributes no layout but their 16 bytes: the address lies in the first 8, then the
size in [7:0], the operation in [15:8] and the request in [63:16] of the next 8; data follows (log entry 65). -/

/-- A message leaves for another device. -/
def Chip.tell (c : Chip) (m : Message) : Chip := { c with outbox := c.outbox ++ [m] }

/-- The flow of the copies, the drover, the etcher and moves: unordered, beside the cores' own (20 R445). -/
def bulkFlow : Nat := 1024

/-- A message of bulk traffic: kind 6 but where a unit reads or writes. -/
def bulk (peer op addr : Nat) : Message := { peer := peer, kind := 6, op := op, addr := addr % 2 ^ 48, flow := bulkFlow, ordered := false }

/-- Operations of kind 6 (17 R384, 18 R413): a checkout asked for, a page returned, a checkout recalled, a line, the end of a handing over
with the page's write time, a line of a context's save area, the end of a context. -/
def opCheckout : Nat := 1
def opReturn : Nat := 2
def opRecall : Nat := 3
def opLine : Nat := 4
def opPageTime : Nat := 5
def opContext : Nat := 6
def opContextEnd : Nat := 7

/-- Operations of a read: data, or data and a watch of the word (12 R267, 13 R298). -/
def opWatch : Nat := 1
/-- The operation of an atomic that appends to a queue: the exchange on the header's tail, unless the queue is disabled (09 R197). -/
def opAppend : Nat := 32
/-- An operation of a reply: its data is poisoned. -/
def opPoison : Nat := 1

/-- A read or a write of a unit at another device: the copies and the device's own structures. -/
def unitMessage (peer addr size : Nat) (write : Bool) (data : Nat) : Message :=
  { peer := peer, kind := if write then 1 else 0, addr := addr % 2 ^ 48, size := size, flow := bulkFlow, ordered := false, data := BitVec.ofNat 1024 data }

/-- The number of a read-modify-write in a message. -/
def RmwOp.code : RmwOp → Nat
  | .add => 0 | .minS => 1 | .maxS => 2 | .minU => 3 | .maxU => 4 | .and => 5 | .or => 6 | .xor => 7 | .xchg => 8 | .cas => 9
  | .incw => 10 | .decw => 11 | .fadd => 12 | .fmin => 13 | .fmax => 14

/-- The read-modify-write of a number. -/
def rmwOf : Nat → Option RmwOp
  | 0 => some .add | 1 => some .minS | 2 => some .maxS | 3 => some .minU | 4 => some .maxU | 5 => some .and | 6 => some .or | 7 => some .xor
  | 8 => some .xchg | 9 => some .cas | 10 => some .incw | 11 => some .decw | 12 => some .fadd | 13 => some .fmin | 14 => some .fmax
  | _ => none

/-- The message of an access of a core, on that core's flow (20 R445): an atomic's operand in the first 8 bytes of data, what it compares with
in the next. -/
def Access.message (a : Access) (id dev : Nat) : Message :=
  let m : Message := { peer := dev, kind := 0, id := id, addr := a.phys % 2 ^ 48, size := a.size, flow := a.core }
  match a.op with
  | .store => { m with kind := 1, data := a.data.setWidth 1024 }
  | .rmw op => { m with kind := 2, op := op.code, data := BitVec.ofNat 1024 (a.data.toNat % 2 ^ 64 + 2 ^ 64 * a.compare.toNat) }
  | _ => m

/-- Asking the home of a page for a lease of it, with the write time of the copy held, if one is (17 R382). -/
def Board.askLease (b : Board) (dev p : Nat) : Message :=
  { peer := dev, kind := 5, addr := p % 2 ^ 48 / 65536 * 65536, flow := bulkFlow - 1
    data := BitVec.ofNat 1024 (match Sparse.find? b.pageTimes (p / 65536) with | some t => t + 1 | none => 0) }

/-- The payload of a message, 4 flits at most. -/
def Message.payload (m : Message) : BitVec 1536 :=
  BitVec.ofNat 1536 (m.addr % 2 ^ 64 + 2 ^ 64 * (m.size % 256) + 2 ^ 72 * (m.op % 256) + 2 ^ 80 * (m.id % 2 ^ 48) + 2 ^ 128 * m.data.toNat)

/-- The bytes of data a message carries: a read and a wake carry none. -/
def Message.bytes (m : Message) : Nat :=
  if m.kind = 0 ∨ m.kind = 4 then 0 else if m.kind = 2 then 32 else if m.kind = 5 then 24 else m.size

/-- How many flits a message takes: a line of 128 bytes takes three. -/
def Message.count (m : Message) : Nat := (16 + m.bytes + 47) / 48

/-! Flits (R444). -/

/-- Fields of a header. -/
def flitDst (h : BitVec 64) : Nat := fieldNat h.toNat 0 13
def flitSrc (h : BitVec 64) : Nat := fieldNat h.toNat 13 13
def flitFlow (h : BitVec 64) : Nat := fieldNat h.toNat 26 12
def flitSeq (h : BitVec 64) : Nat := fieldNat h.toNat 38 16
def flitKind (h : BitVec 64) : Nat := fieldNat h.toNat 54 4
def flitOrdered (h : BitVec 64) : Bool := bitAt h.toNat 58
def flitLast (h : BitVec 64) : Bool := bitAt h.toNat 59

/-- A header. -/
def flitHeader (dst src flow seq kind : Nat) (ordered last : Bool) : BitVec 64 :=
  BitVec.ofNat 64 (dst % 2 ^ 13 + 2 ^ 13 * (src % 2 ^ 13) + 2 ^ 26 * (flow % 2 ^ 12) + 2 ^ 38 * (seq % 2 ^ 16) + 2 ^ 54 * (kind % 16) +
    (if ordered then 2 ^ 58 else 0) + (if last then 2 ^ 59 else 0))

/-- The flits of a message, from a sequence number on. -/
def Message.flits (m : Message) (src seq : Nat) : List (BitVec 64 × BitVec 384) :=
  (List.range m.count).map (fun i =>
    (flitHeader m.peer src m.flow (seq + i) m.kind m.ordered (decide (i + 1 = m.count)), m.payload.extractLsb' (384 * i) 384))

/-- The message whose flits carry these payloads. -/
def messageOf (h : BitVec 64) (ps : List (BitVec 384)) : Message :=
  let n := ((List.range ps.length).map (fun i => (ps.getD i 0).toNat * 2 ^ (384 * i))).sum
  { peer := flitSrc h, kind := flitKind h, id := fieldNat n 80 48, addr := n % 2 ^ 64, size := fieldNat n 64 8, op := fieldNat n 72 8
    flow := flitFlow h, ordered := flitOrdered h, data := BitVec.ofNat 1024 (n / 2 ^ 128) }

/-! Ports. -/

/-- A port of the device. -/
def Board.port (b : Board) (i : Nat) : Port := Sparse.get {} b.ports i

/-- A port carries traffic. -/
def Port.carries (p : Port) : Bool := decide (p.state = .up) || decide (p.state = .degraded)

/-- Writing a port. -/
def State.setPort (s : State) (i : Nat) (p : Port) : State := { s with board := { s.board with ports := Sparse.set s.board.ports i p } }

/-- The port a message leaves by: the first that carries traffic (log entry 65). -/
def Board.route (b : Board) : Option Nat := (List.range 16).find? (fun i => (b.port i).carries)

/-- Flits put on a port's line; they stay in its replay buffer. -/
def Port.send (p : Port) (fs : List (BitVec 64 × BitVec 384)) : Port := { p with replay := p.replay ++ fs, wire := p.wire ++ fs }

/-- The flow of a message at its source. -/
def Message.flowKey (m : Message) : Nat := m.peer + 2 ^ 13 * m.flow

/-- A message becomes flits, in its flow's sequence. -/
def Board.sendMessage (b : Board) (m : Message) : Board :=
  match b.route with
  | none => b
  | some i =>
    let q := Sparse.get 0 b.sendSeq m.flowKey
    { b with
      ports := Sparse.set b.ports i ((b.port i).send (m.flits b.device q))
      sendSeq := Sparse.set b.sendSeq m.flowKey ((q + m.count) % 2 ^ 16) }

/-- The messages that wait to be sent leave, if a port carries traffic; else they wait (20 R448). What a port sent before the last tick
has arrived and leaves its replay buffer (log entry 65). -/
def State.sendAll (s : State) : State :=
  let b := { s.board with ports := Sparse.mapVals (fun _ (p : Port) =>
    if p.carries && decide (p.inRow = 0) then { p with replay := p.wire, wire := [] } else { p with wire := [] }) s.board.ports }
  match b.route with
  | none => { s with board := b }
  | some _ => { s with now := { s.now with outbox := [] }, board := s.now.outbox.foldl Board.sendMessage b }

/-- A fenced port's replay buffer is discarded; the messages of its flits leave by another route, where one is left, but for wakes and
leases (20 R449). -/
def Board.fencePort (b : Board) (i : Nat) : Board :=
  let p := b.port i
  let b := { b with ports := Sparse.set b.ports i { p with state := .fenced, replay := [], wire := [], inRow := 0, lanes := 0 } }
  match b.route with
  | none => b
  | some j => { b with ports := Sparse.set b.ports j ((b.port j).send (p.replay.filter (fun f => decide (flitKind f.1 ≠ 4) && decide (flitKind f.1 ≠ 5)))) }

end Sys2Proof.Machine
end

