-- ==== Sys2Proof/Machine/Lines.lean ====
section
/-! DEFINITION. Lines and logical time (12), and the order in which accesses may be performed (10, 11). A global location is a
physical byte (10 R201); line `n` holds the bytes 128n to 128n + 127. The parameter `e` gives the bytes of memory and the
board; the machine's tables change in `c`. -/

namespace Sys2Proof.Machine

/-- All words of a line. -/
def allWords : BitVec 32 := BitVec.allOnes 32

/-- The line of a physical byte (12 R254). -/
def lineOf (p : Nat) : Nat := p / 128

/-- The words of a line that `size` bytes at `p` touch. -/
def maskOf (p size : Nat) : BitVec 32 :=
  BitVec.ofNat 32 ((2 ^ ((p % 4 + size + 3) / 4) - 1) * 2 ^ (p % 128 / 4))

/-- The words that `size` bytes at `p` cover whole. -/
def wholeMask (p size : Nat) : BitVec 32 := if size < 4 then 0 else maskOf p size

/-- `size` bytes at byte `off` of a line. -/
def getBytes (d : BitVec 1024) (off size : Nat) : Nat := d.toNat / 2 ^ (8 * off) % 2 ^ (8 * size)

/-- Replacing `size` bytes at byte `off` of a line. -/
def putBytes (d : BitVec 1024) (off size v : Nat) : BitVec 1024 :=
  let n := d.toNat
  let hi := n / 2 ^ (8 * (off + size))
  BitVec.ofNat 1024 (n % 2 ^ (8 * off) + (v % 2 ^ (8 * size)) * 2 ^ (8 * off) + hi * 2 ^ (8 * (off + size)))

/-- The bits of the words a mask names. -/
def wordBits (ws : BitVec 32) : BitVec 1024 :=
  BitVec.ofNat 1024 ((List.range 32).foldl (fun n i => if ws.getLsbD i then n + (2 ^ 32 - 1) * 2 ^ (32 * i) else n) 0)

/-- `old` with the words of `ws` taken from `new`. -/
def mergeWords (old new : BitVec 1024) (ws : BitVec 32) : BitVec 1024 :=
  (old &&& ~~~wordBits ws) ||| (new &&& wordBits ws)

/-- Host memory over CXL.cache (20 R438). -/
def isHost (p : Nat) : Bool := decide (2 ^ 47 ≤ p) && decide (p < 2 ^ 48)
/-- The field die whose HBM range holds an address (20 R438). -/
def dieOfPhys (p : Nat) : Option Nat := if p < 0x008000000000 then some (p / 2 ^ 37) else none
/-- Far-tier and expander frames (20 R438). -/
def isFar (p : Nat) : Bool := decide (0x020000000000 ≤ p) && decide (p < 0x080000000000)
/-- The barn die of a far-tier address (20 R438). -/
def barnOfPhys (p : Nat) : Option Nat :=
  if 0x020000000000 ≤ p ∧ p < 0x040000000000 then some ((p - 0x020000000000) / 2 ^ 40) else none

/-- HBM: 128 GB populated from each base (20 R438; 01 R7 gives GB as 10^9 bytes). -/
def isHbm (p : Nat) : Bool := decide (p < 0x008000000000) && decide (p % 2 ^ 37 < 128000000000)

/-- Whether a physical address lies in a populated range (20 R438, R440). -/
def populated (e : State) (p : Nat) : Bool :=
  isHbm p || (barnOfPhys p).isSome || (decide (0x040000000000 ≤ p) && decide (p < 0x040000000000 + e.board.expander)) ||
    isHost p

/-- The subcode of the error the word of a physical byte holds in memory: a fenced die or barn die, or poison (21 R450, R461,
R462). -/
def chunkPoison (e : State) (c : Chip) (p : Nat) : Option Nat :=
  match dieOfPhys p with
  | some d => if (c.die d).state = .fenced then some 11 else Sparse.find? e.board.poisoned (p / 4)
  | none =>
    match barnOfPhys p with
    | some b => if b ∈ e.board.barnFenced then some 11 else Sparse.find? e.board.poisoned (p / 4)
    | none => Sparse.find? e.board.poisoned (p / 4)

/-- The poisoned words of a line as memory holds it. -/
def fillPoison (e : State) (c : Chip) (ln : Nat) : BitVec 32 :=
  BitVec.ofNat 32 ((List.range 32).foldl (fun n i =>
    if (chunkPoison e c (128 * ln + 4 * i)).isSome then n + 2 ^ i else n) 0)

/-- The slice that homes a line: one of the 16 of the field die whose HBM holds it (02 R21, R25, 12 R275), and for a line that no
HBM holds one of the device's 64 (12 R277). -/
def sliceOf (ln : Nat) : Nat :=
  match dieOfPhys (128 * ln) with
  | some d => Config.slicesPerDie * d + Config.sliceHash ln % Config.slicesPerDie
  | none => Config.sliceHash ln % (Config.dies * Config.slicesPerDie)

/-! Stored times (12 R253, R270, R271). -/

/-- A stored time of a generation: one of an old generation is rewritten where it is met, and one below the base becomes the
base. -/
def Chip.timeOf (c : Chip) (gen : Bool) (t : Nat) : Nat := if gen = c.generation then t else max c.timeBase t

/-- A time that an access may store: below B + 2^24, and a value of the 48-bit clock space (12 R253, R270). An access that would
store a later one waits (R271). -/
def Chip.timeFits (c : Chip) (t : Nat) : Bool := decide (t < c.timeBase + 2 ^ 24) && decide (t < 2 ^ 48)

/-- A slice; one that is not listed has evicted nothing. -/
def Chip.sliceAt (c : Chip) (ix : Nat) : Slice :=
  match Sparse.find? c.slices ix with
  | some s => { s with memts := c.timeOf s.gen s.memts, gen := c.generation }
  | none => { memts := c.timeBase, gen := c.generation }

/-- memts of the slice that homes a line (12 R255). -/
def memts (c : Chip) (ln : Nat) : Nat := if c.slices = [] then c.timeBase else (c.sliceAt (sliceOf ln)).memts

/-- Whether a physical byte is homed on a fenced die or barn die (21 R461, R462). -/
def lostHome (e : State) (c : Chip) (p : Nat) : Bool := decide (chunkPoison e c p = some 11)

/-- A line at its home; an absent line is filled from memory with wts = rts = memts (12 R255, R281). Every word of a line homed
on a fenced die is poisoned (21 R461). -/
def Chip.line (e : State) (c : Chip) (ln : Nat) : HomeLine :=
  match Sparse.find? c.home ln with
  | some h => { h with
      wts := c.timeOf h.gen h.wts, rts := c.timeOf h.gen h.rts, gen := c.generation
      poison := if lostHome e c (128 * ln) then allWords else h.poison }
  | none =>
    { wts := memts c ln, rts := memts c ln, gen := c.generation, valid := allWords
      data := BitVec.ofNat 1024 (Memory.readN e.mem (128 * ln) 128), poison := fillPoison e c ln }

/-- Writing a home line back, its times in the current generation. -/
def Chip.setLine (c : Chip) (ln : Nat) (h : HomeLine) : Chip := { c with home := Sparse.set c.home ln { h with gen := c.generation } }

/-- An L1 copy with its times rewritten for the current base (12 R271). -/
def Chip.timed (c : Chip) (l : L1Line) : L1Line :=
  { l with wts := c.timeOf l.gen l.wts, rts := c.timeOf l.gen l.rts, grantRts := c.timeOf l.gen l.grantRts, gen := c.generation }

/-- The L1 copy of a line. -/
def Chip.l1? (c : Chip) (k ln : Nat) : Option L1Line := (Sparse.find? (c.core k).l1 ln).map c.timed
/-- A relaxed .ls or .wt store, visible to the core's threads before it is established (12 R259). -/
def Access.early (a : Access) : Bool := decide (a.op = .store) && decide (a.order = 0) && (decide (a.kind = 0) || decide (a.kind = 2))

/-- The words of a line with a posted store of the core that is not yet established (12 R254). -/
def Chip.pendingWords (c : Chip) (k ln : Nat) : BitVec 32 :=
  c.accesses.foldl (fun m p =>
    if p.2.core = k ∧ lineOf p.2.phys = ln ∧ p.2.early = true ∧ p.2.stage ≠ .remote then m ||| maskOf p.2.phys p.2.size else m) 0

/-- Writing an L1 copy, its times in the current generation and its pending words as they stand (12 R254). -/
def Chip.setL1 (c : Chip) (k ln : Nat) (l : L1Line) : Chip :=
  c.setCore k { c.core k with l1 := Sparse.set (c.core k).l1 ln { l with gen := c.generation, pending := c.pendingWords k ln &&& ~~~l.owned } }
/-- Dropping an L1 copy. -/
def Chip.dropL1 (c : Chip) (k ln : Nat) : Chip := c.setCore k { c.core k with l1 := Sparse.erase (c.core k).l1 ln }

/-- The replies of a core that are on their way and meet a condition ask again. -/
def Chip.requeue (c : Chip) (f : Access → Bool) : Chip :=
  { c with accesses := Sparse.mapVals (fun _ (a : Access) => match a.stage with
      | .reply .. => if f a then { a with stage := .issued } else a
      | _ => a) c.accesses }

/-- The L1 copy of a line has changed: replies for it that were sent before ask again, so that none brings back older words. -/
def Chip.requeueLine (c : Chip) (k ln : Nat) : Chip := c.requeue (fun a => decide (a.core = k) && decide (lineOf a.phys = ln))

/-- A leased copy without its words that are not owned. -/
def L1Line.ownedOnly (l : L1Line) : L1Line := { l with valid := l.valid &&& l.owned, rts := 0 }

/-- A core has read a line at its home: a leased copy of other data is evicted, silently, and replies on their way ask again, so that
no later load of the core reads what is older (10 R207). -/
def Chip.dropStale (c : Chip) (k ln wts : Nat) : Chip :=
  let c := c.requeueLine k ln
  match c.l1? k ln with
  | none => c
  | some l => if l.owned = 0 ∧ l.wts = wts then c else c.setL1 k ln l.ownedOnly

/-- ClockAdvance(t) on a core: CLK never falls and saturates at 2^48 − 1 (12 R252). -/
def Chip.clockAdvance (c : Chip) (k t : Nat) : Chip :=
  c.setCore k { c.core k with clk := min (2 ^ 48 - 1) (max (c.core k).clk t) }

/-- A thread's relaxed read has read a write of a time (10 R213). -/
def Chip.see (c : Chip) (t wts : Nat) : Chip :=
  if wts ≤ (c.thread t).seen then c else c.setThread t { c.thread t with seen := wts }

/-- The line with the owner's newer words merged in: what a coherent read returns. -/
def peekLine (e : State) (c : Chip) (ln : Nat) : BitVec 1024 :=
  let h := c.line e ln
  match h.owner with
  | some k => match c.l1? k ln with
    | some l => mergeWords h.data l.data (h.owned &&& l.dirty)
    | none => h.data
  | none => h.data

/-- `n` bytes at `p` from lines given one by one, little-endian. -/
def spanOf (line : Nat → BitVec 1024) (p n : Nat) : Nat :=
  let d := (List.range ((p % 128 + n + 127) / 128)).foldl (fun d i => d + (line (p / 128 + i)).toNat * 2 ^ (1024 * i)) 0
  d / 2 ^ (8 * (p % 128)) % 2 ^ (8 * n)

/-- `n` bytes at a physical address as a coherent agent reads them, little-endian. -/
def peek (e : State) (c : Chip) (p n : Nat) : Nat :=
  if c.home = [] then Memory.readN e.mem p n else spanOf (peekLine e c) p n

/-- The poison a reader of `size` bytes at `p` meets, with its subcode. -/
def poisonAt (e : State) (c : Chip) (p size : Nat) : Option Nat :=
  let ln := lineOf p
  let h := c.line e ln
  if h.poison &&& maskOf p size ≠ 0 then some ((chunkPoison e c p).getD 6)
  else match h.owner with
    | some k => match c.l1? k ln with
      | some l => if l.poison &&& h.owned &&& maskOf p size ≠ 0 then some 5 else none
      | none => none
    | none => none

/-! Accesses and their order. -/

def Access.isAcq (a : Access) : Bool := a.order.getLsbD 0
def Access.isRel (a : Access) : Bool := a.order.getLsbD 1
/-- Reads memory into registers. -/
def Access.reads (a : Access) : Bool := match a.op with | .load => true | .rmw _ => true | _ => false
/-- Counted by the loads counter (11 R241, 19 R433). -/
def Access.counted (a : Access) : Bool := match a.op with | .load => true | .rmw _ => true | .ecall => true | _ => false
/-- Counted by the stores counter (11 R241, R250). -/
def Access.storing (a : Access) : Bool := match a.op with | .store => true | .writeback _ => true | _ => false
/-- Writes memory. -/
def Access.writes (a : Access) : Bool := match a.op with | .store => true | .rmw _ => true | _ => false
/-- Moves data at a global address. -/
def Access.moves (a : Access) : Bool := (a.reads || a.writes) && a.loc.isNone
/-- Performed: its value is fixed. -/
def Access.performed (a : Access) : Bool := decide (a.stage = .returned)
/-- Whether two accesses touch a common byte. -/
def Access.overlaps (a b : Access) : Bool :=
  a.moves && b.moves && decide (a.phys < b.phys + b.size) && decide (b.phys < a.phys + a.size)

/-- The outstanding accesses that meet a condition, in order of issue. -/
def Chip.accessesWhere (c : Chip) (f : Nat → Access → Bool) : List Nat := Sparse.keysWhere f c.accesses

/-- The accesses of a thread issued before `id` and still outstanding. -/
def Chip.earlier (c : Chip) (th id : Nat) (f : Access → Bool) : Bool :=
  c.accesses.any (fun p => decide (p.1 < id) && decide (p.2.th = th) && f p.2)

/-- A posted store that the core's threads see at once (12 R259): not sent to another device, and not behind a release fence of its
thread, as a release of which it acts (10 R213). -/
def Chip.posted (c : Chip) (id : Nat) (a : Access) : Bool :=
  a.early && decide (a.stage ≠ .remote) && !c.earlier a.th id (fun b => decide (b.op = .fence) && b.isRel)

/-- The posted stores of a core to a line, in order. -/
def Chip.postedOn (c : Chip) (k ln : Nat) : List Nat :=
  c.accessesWhere (fun id a => decide (a.core = k) && decide (lineOf a.phys = ln) && c.posted id a)

/-- The bank that serves a physical byte is still waking (23 R481). -/
def Chip.bankWaking (c : Chip) (p : Nat) : Bool :=
  match dieOfPhys p with
  | some d => !(c.die d).banks.isEmpty && (c.die d).banks.contains (sliceOf (lineOf p) % Config.slicesPerDie)
  | none => false

/-- Whether the order rules let an access be performed now: accesses of one thread to one location in program order (10
R207), same-core writes of one location in order of issue and the accesses of one issue group to one location in lane order (11
R242), releases after earlier accesses, but for stores visible in the core's L1, which the release itself establishes (11 R247, 12
R264, R265), no acquire before an earlier release (10 R214); an access to a waking bank stalls (23 R481). -/
def Chip.mayPerform (c : Chip) (id : Nat) (a : Access) : Bool :=
  !(a.loc.isNone && c.bankWaking a.phys) &&
  !c.earlier a.th id (fun b => b.overlaps a && !b.performed && !(decide (a.op = .load) && b.early)) &&
  !(c.accesses.any (fun p => decide (p.1 < id) && decide (p.2.core = a.core) && p.2.overlaps a && !p.2.performed &&
      ((p.2.writes && (a.writes || decide (a.kind = 3))) || (decide (p.2.issue = a.issue) && decide (a.op = .load))))) &&
  !(a.isRel && c.earlier a.th id (fun b => !b.performed && !(b.early && decide (b.stage ≠ .remote)))) &&
  !(a.writes && c.earlier a.th id (fun b => decide (b.op = .fence) && b.isRel)) &&
  !(a.isAcq && c.earlier a.th id (fun b => b.isRel && !b.performed))

/-- The value of `a`'s bytes seen through the core: `base` with the posted stores of the core issued before it laid over in
order (12 R259). -/
def Chip.overlay (c : Chip) (id : Nat) (a : Access) (base : BitVec 1024) : BitVec 1024 :=
  c.accesses.foldl (fun d p =>
    if p.1 < id ∧ p.2.core = a.core ∧ lineOf p.2.phys = lineOf a.phys ∧
        (c.posted p.1 p.2 = true ∨ (p.2.th = a.th ∧ p.2.op = .store)) then
      putBytes d (p.2.phys % 128) p.2.size p.2.data.toNat
    else d) base

/-- The words of a line covered by posted stores of the core issued before `id`. -/
def Chip.postedMask (c : Chip) (id : Nat) (a : Access) : BitVec 32 :=
  c.accesses.foldl (fun m p =>
    if p.1 < id ∧ p.2.core = a.core ∧ lineOf p.2.phys = lineOf a.phys ∧ c.posted p.1 p.2 = true then
      m ||| wholeMask p.2.phys p.2.size else m) 0

/-! Watches (13 R298, R299). -/

/-- A lookout entry names a core. -/
def LookoutEntry.names (x : LookoutEntry) (k : Nat) : Bool :=
  match x.coarse with
  | some v => v.getLsbD (k / 4)
  | none => x.cores.contains k

/-- A write of `size` bytes at `p` wakes an entry. -/
def LookoutEntry.wakes (x : LookoutEntry) (p size : Nat) : Bool := decide (x.line = lineOf p) && decide (x.words &&& maskOf p size ≠ 0)

/-- The page state that a table entry held in a slice, or in the core that owns it, gives now (17 R368). -/
def Chip.entryState (c : Chip) (at_ : Nat) : Option Nat :=
  (Sparse.find? c.home (lineOf at_)).map (fun h =>
    let d := match h.owner with
      | some k => if maskOf (at_ + 1) 1 &&& h.owned = 0 then h.data else ((c.l1? k (lineOf at_)).getD {}).data
      | none => h.data
    getBytes d (at_ % 128 + 1) 1 % 8)

/-- A write of global bytes is noted: for the next mark of every context that takes marks (18 R415), and a table entry that takes its page
out of the far tier clears the page's counter (17 R375). -/
def Chip.noteWrite (c : Chip) (p size : Nat) : Chip :=
  let left := fun (x : Ctx) (page : Nat) => match Sparse.find? x.farAt page with
    | some a => decide (a < p + size) && decide (p < a + 8) && decide (c.entryState a ≠ some 1)
    | none => false
  { c with ctxs := Sparse.mapVals (fun _ x => if x.farAt.isEmpty && decide (x.ckptbase = 0) then x else
      { x with
        wrote := if x.ckptbase = 0 then x.wrote else (p / 65536) :: x.wrote.filter (fun f => decide (f ≠ p / 65536))
        farCount := Sparse.only (fun page _ => !left x page) x.farCount, farAt := Sparse.only (fun page _ => !left x page) x.farAt }) c.ctxs }

/-- Firing the watchers of the global bytes at a physical address on the device: every thread armed on one of the words, and, as the
entry wakes every core that it names, every thread of those cores armed on the line; the woken watchers leave the lookout (12
R269). The steward sees a write of ctl.enable of a queue that has faulted (09 R192). A wake goes to each other device that watches one of
the words (12 R267, 20 R446). -/
def Chip.fireGlobal (c : Chip) (p size : Nat) : Chip :=
  { c with
    lookout := c.lookout.filter (fun x => !x.wakes p size)
    farWatch := c.farWatch.filter (fun x => !(decide (x.1 < p + size) && decide (p < x.1 + 4)))
    outbox := c.outbox ++ (c.farWatch.filter (fun x => decide (x.1 < p + size) && decide (p < x.1 + 4))).map (fun x =>
      { peer := x.2, kind := 4, addr := x.1, flow := bulkFlow - 1 })
    doors := Sparse.mapVals (fun q w => w || (decide (p ≤ q) && decide (q < p + size))) c.doors
    threads := Sparse.mapVals (fun i t => match t.watch.armed with
      | some (ea, q) =>
        if ea.getLsbD 63 = false ∧ ((q < p + size ∧ p < q + 4) ∨
            (lineOf q = lineOf p ∧ c.lookout.any (fun x => x.wakes p size && x.names (c.coreOf i)) = true)) then
          { t with watch := { t.watch with fired := true } }
        else t
      | none => t) c.threads }

/-- A watcher enters the lookout of a word's home slice: a fifth core makes the entry coarse; when the slice's lookout is full
the entry registered longest ago leaves, its watchers woken (12 R269). -/
def Chip.register (c : Chip) (k p : Nat) : Chip :=
  let ln := lineOf p
  let add := fun (x : LookoutEntry) =>
    let bit : BitVec 40 := BitVec.ofNat 40 (2 ^ (k / 4))
    match x.coarse with
    | some v => { x with words := x.words ||| maskOf p 4, coarse := some (v ||| bit) }
    | none =>
      let cores := (x.cores ++ [k]).dedup
      if cores.length ≤ 4 then { x with words := x.words ||| maskOf p 4, cores := cores }
      else { x with words := x.words ||| maskOf p 4, cores := [], coarse := some (cores.foldl (fun v q => v ||| BitVec.ofNat 40 (2 ^ (q / 4))) 0) }
  if c.lookout.any (fun x => decide (x.line = ln)) then
    { c with lookout := c.lookout.map (fun x => if x.line = ln then add x else x) }
  else
    let c := if c.lookout.length < Config.lookoutEntries then c
      else
        let mine := c.lookout.filter (fun x => decide (sliceOf x.line = sliceOf ln))
        if mine.length < Config.lookoutEntries then c
        else match mine.head? with
          | some old => { c.fireGlobal (128 * old.line) 128 with doors := c.doors }
          | none => c
    { c with lookout := c.lookout ++ [add { line := ln, words := 0 }] }

/-- Firing the watchers of a team-local word. -/
def Chip.fireLocal (c : Chip) (team off size : Nat) : Chip :=
  { c with threads := Sparse.mapVals (fun i t => match t.watch.armed with
      | some (ea, q) =>
        if ea.getLsbD 63 = true ∧ c.teamOf i = team ∧ q < off + size ∧ off < q + 4 then
          { t with watch := { t.watch with fired := true } } else t
      | none => t) c.threads }

/-! Stores, grants and recalls. -/

/-- Committing an interval early: every held word is released at once (21 R459). -/
def Chip.commitEarly (c : Chip) (team : Nat) : Chip :=
  let t := c.team team
  match t.core with
  | none => c
  | some k =>
    let lines := (t.interval.held.map (fun w => w / 32)).dedup.filter (fun l => !(c.core k).release.contains l)
    let c := c.setCore k { c.core k with release := (c.core k).release ++ lines }
    c.setTeam team { t with interval := { t.interval with early := true, held := [] } }

/-- A line's state when no recall and no back-invalidation is in progress. -/
def HomeLine.rest (h : HomeLine) : HomeState := if h.owned = 0 then .shared else .owned

/-- A line at which requests wait. -/
def HomeLine.busy (h : HomeLine) : Bool := decide (h.state = .recalling) || decide (h.state = .invalidating) || !h.held.isEmpty

/-- The teams whose open intervals hold a word of a line. -/
def Chip.holders (c : Chip) (ln : Nat) (ws : BitVec 32) : List Nat :=
  Sparse.keysWhere (fun _ t => t.rollback && t.interval.held.any (fun w => decide (w / 32 = ln) && ws.getLsbD (w % 32))) c.teams

/-- Merging words of an owner into the home and taking them from it (12 R263). It keeps a leased copy of these words; other words
that it does not own, recalled before, are read again only after a renewal. -/
def mergeFrom (e : State) (c : Chip) (k ln : Nat) (ws : BitVec 32) : Chip :=
  let h := c.line e ln
  let l := (c.l1? k ln).getD {}
  if h.owner ≠ some k then c else
  let ws := ws &&& h.owned
  let dw := l.dirty &&& ws
  let wts := max h.wts l.wts
  let owned := h.owned &&& ~~~ws
  let h' := { h with
    data := mergeWords h.data l.data dw, dirty := h.dirty ||| dw, wts := wts, rts := max h.rts wts, owned := owned
    owner := if owned = 0 then none else h.owner, state := if h.busy then h.state else if owned = 0 then .shared else .owned
    poison := (h.poison &&& ~~~dw) ||| (l.poison &&& dw) }
  let c := (c.setLine ln h').setL1 k ln { l with
    owned := l.owned &&& ~~~ws, dirty := l.dirty &&& ~~~ws, valid := ws ||| (l.valid &&& l.owned), rts := h'.rts, poison := l.poison &&& ~~~dw
    wts := if l.owned &&& ~~~ws = 0 then wts else l.wts, writers := if l.dirty &&& ~~~ws = 0 then [] else l.writers }
  let c := c.requeueLine k ln
  (c.holders ln ws).foldl Chip.commitEarly c

/-- The words of a line that open intervals hold. -/
def Chip.heldMask (c : Chip) (ln : Nat) : BitVec 32 :=
  c.teams.foldl (fun m p => p.2.interval.held.foldl (fun m w => if w / 32 = ln then m ||| BitVec.ofNat 32 (2 ^ (w % 32)) else m) m) 0

/-- Writing an owner's dirty words back, ownership kept (12 R264); words that an open interval holds stay (21 R458). -/
def writeBack (e : State) (c : Chip) (k ln : Nat) : Chip :=
  let h := c.line e ln
  match c.l1? k ln with
  | none => c
  | some l =>
    let dw := l.dirty &&& ~~~c.heldMask ln
    if h.owner ≠ some k ∨ dw = 0 then c
    else
      let wts := max h.wts l.wts
      let c := c.setLine ln { h with
        data := mergeWords h.data l.data dw, dirty := h.dirty ||| dw, wts := wts, rts := max h.rts wts
        poison := (h.poison &&& ~~~dw) ||| (l.poison &&& dw) }
      c.setL1 k ln { l with
        dirty := l.dirty &&& ~~~dw, poison := l.poison &&& ~~~dw, writers := if l.dirty &&& ~~~dw = 0 then [] else l.writers }

/-- Granting a line owned to a core, no other core owning any of it (12 R261); the fill advances its clock (R265). -/
def grantOwned (e : State) (c : Chip) (k ln ctx : Nat) : Chip :=
  let h := c.line e ln
  let l := (c.l1? k ln).getD {}
  let c := (c.setLine ln { h with owner := some k, owned := allWords, state := .owned }).clockAdvance k h.wts
  (c.requeueLine k ln).setL1 k ln { l with
    wts := max h.wts (if l.owned = 0 then 0 else l.wts), rts := h.rts, valid := allWords, owned := allWords
    data := mergeWords h.data l.data (l.owned &&& l.dirty), grantRts := h.rts, ctx := ctx
    poison := (h.poison &&& ~~~(l.owned &&& l.dirty)) ||| (l.poison &&& l.owned &&& l.dirty) }

/-- The write time of a store of an owned word (12 R262). -/
def ownedTime (c : Chip) (k ln : Nat) : Nat :=
  let l := (c.l1? k ln).getD {}
  max (max (c.core k).clk (l.grantRts + 1)) l.wts

/-- A store of an owned word in L1 by a thread (12 R262). -/
def ownedStore (c : Chip) (k th p size data : Nat) : Chip :=
  let l := (c.l1? k (lineOf p)).getD {}
  let wts := ownedTime c k (lineOf p)
  let c := c.setL1 k (lineOf p) { l with
    data := putBytes l.data (p % 128) size data, dirty := l.dirty ||| maskOf p size, wts := wts
    poison := l.poison &&& ~~~wholeMask p size, writers := (l.writers ++ [th]).dedup }
  ((c.clockAdvance k wts).fireGlobal p size).noteWrite p size

/-- A write established at a home at a time (12 R258), no core owning its words and no host copy left. A CXL.cache line is then held
exclusive (12 R279). -/
def putHome (c : Chip) (ln p size data t : Nat) (h : HomeLine) : Chip :=
  ((c.setLine ln { h with
    wts := t, rts := t, data := putBytes h.data (p % 128) size data, dirty := h.dirty ||| maskOf p size
    poison := h.poison &&& ~~~wholeMask p size, exclusive := h.exclusive || isHost p, hshare := false }).fireGlobal p size).noteWrite p size

/-- What the reply of a store at a home makes of a core's copy (12 R258): the words written where the copy held the line's data,
else the line, but for words that another core owns; `old` is the line before the store. With no copy, one is allocated where the
type says so (R259). -/
def storeReply (e : State) (c : Chip) (k ln : Nat) (ws : BitVec 32) (old : HomeLine) (alloc : Bool) : Chip :=
  let h := c.line e ln
  let take := fun (l : L1Line) =>
    let current := decide (l.owned = 0) && decide (l.wts = old.wts) && decide (l.valid ≠ 0)
    let new := if current then ws else ~~~h.owned
    { l with
      data := mergeWords l.data h.data new, valid := if current then l.valid ||| ws else (l.valid &&& l.owned) ||| new
      wts := if l.owned = 0 then h.wts else max l.wts h.wts, rts := h.rts, poison := (l.poison &&& ~~~new) ||| (h.poison &&& new) }
  let c := c.requeueLine k ln
  match c.l1? k ln with
  | none => if alloc then c.setL1 k ln (take {}) else c
  | some l => c.setL1 k ln (take l)

/-- A store established at its home (12 R258), no core owning its words: its time, its words, the clock of its core and the copy
there. A leased copy is allocated under .ls (R259). -/
def homeStore (e : State) (c : Chip) (k p size data : Nat) (kind : BitVec 2) : Chip :=
  let ln := lineOf p
  let h := c.line e ln
  let t := max (c.core k).clk (h.rts + 1)
  let c := (putHome c ln p size data t h).clockAdvance k t
  if isHost p then c else storeReply e c k ln (maskOf p size) h (decide (kind = 0))

/-- The pending bits of a core's copy as they stand once a store is established (12 R254). -/
def Chip.clearPending (c : Chip) (k ln : Nat) : Chip :=
  match c.l1? k ln with
  | none => c
  | some l => c.setL1 k ln l

/-- A store of a line that its core owns in part: each word it owns is written in L1 (R262), each other at its home (12 R258, R259). -/
def splitStore (e : State) (c : Chip) (a : Access) : Chip :=
  let ln := lineOf a.phys
  (List.range (a.size / 4)).foldl (fun c i =>
    let p := a.phys + 4 * i
    let v := a.data.toNat / 2 ^ (32 * i)
    if (c.line e ln).owner = some a.core ∧ maskOf p 4 &&& (c.line e ln).owned ≠ 0 then ownedStore c a.core a.th p 4 v
    else homeStore e c a.core p 4 v a.kind) c

/-- Whether a store is held by an open rollback interval (21 R458): a plain store, or STL at core scope. -/
def Chip.heldStore (c : Chip) (a : Access) : Bool :=
  let t := c.team (c.teamOf a.th)
  t.rollback && !t.interval.early && decide (a.op = .store) && (decide (a.order = 0) || decide (a.scope = 0)) &&
    !isHost a.phys && decide (a.stage ≠ .remote)

/-- The words of a store become held; too many held lines commit the interval early (21 R458, R459). -/
def Chip.hold (c : Chip) (team p size : Nat) : Chip :=
  let t := c.team team
  let ws := (List.range ((p % 4 + size + 3) / 4)).map (fun i => p / 4 + i)
  let held := (t.interval.held ++ ws).dedup
  let c := c.setTeam team { t with interval := { t.interval with held := held } }
  if Config.heldLines < ((held.map (· / 32)).dedup).length then c.commitEarly team else c

/-- A store that takes its line owned: an .ow store (12 R261), a release at core scope, which leaves its word owned in the L1 (10
R218), and a store that an interval holds (21 R458). Host lines are never owned (12 R277). -/
def Chip.storesOwned (c : Chip) (a : Access) : Bool :=
  !isHost a.phys && (decide (a.kind = 1) || (a.isRel && decide (a.scope = 0)) || c.heldStore a)

/-- A core that writes a line while lines it has released at core scope are not yet drained leaves its mark there: whoever reads the
word by a promoting acquire recalls it (12 R266). -/
def markReleaser (e : State) (c : Chip) (k ln : Nat) : Chip :=
  if (c.core k).release = [] then c
  else c.setLine ln { c.line e ln with releasers := ((c.line e ln).releasers ++ [k]).dedup }

/-- Performing a store, the words of other owners recalled and no host copy left (12 R258, R259, R262, 21 R458). -/
def performStore (e : State) (c : Chip) (id : Nat) (a : Access) : Chip :=
  let k := a.core
  let ln := lineOf a.phys
  let ws := maskOf a.phys a.size
  let h := c.line e ln
  let held := c.heldStore a
  let owns := c.storesOwned a
  let c := { c with accesses := Sparse.erase c.accesses id }
  let c := if held then writeBack e c k ln else c
  let c :=
    if h.owner = some k ∧ h.owned &&& ws = ws then ownedStore c k a.th a.phys a.size a.data.toNat
    else if owns then ownedStore (grantOwned e c k ln a.ctx) k a.th a.phys a.size a.data.toNat
    else if h.owner = some k ∧ h.owned &&& ws ≠ 0 then splitStore e c a
    else homeStore e c k a.phys a.size a.data.toNat a.kind
  let c := markReleaser e c k ln
  let c := if held then c.hold (c.teamOf a.th) a.phys a.size else c
  c.clearPending k ln

/-! Room in an L1 (02 R22). -/

/-- The lines of a core's L1 in the set of a line. -/
def Chip.l1Set (c : Chip) (k ln : Nat) : Sparse L1Line :=
  Sparse.only (fun n _ => decide (n % Config.l1Sets = ln % Config.l1Sets)) (c.core k).l1

/-- The line that leaves a core's L1 so that another may enter, if its set is full: a leased copy, else an owned line of which no
interval holds a word, else any (log entry 16). -/
def Chip.victim (c : Chip) (k ln : Nat) : Option Nat :=
  let mates := c.l1Set k ln
  if (Sparse.find? mates ln).isSome || decide (mates.length < Config.l1Ways) then none
  else ((List.find? (fun (p : Nat × L1Line) => decide (p.2.owned = 0) && decide (p.2.pending = 0)) mates).orElse (fun _ =>
    (List.find? (fun (p : Nat × L1Line) => decide (c.heldMask p.1 = 0)) mates).orElse (fun _ => mates.head?))).map (·.1)

/-- What a recall, a drain or a posted store does at once, each with the others it must wait for. -/
inductive Task where
  /-- Recall words of a line from its owner. -/
  | reclaim (ln : Nat) (ws : BitVec 32)
  /-- Drain the release list of a core, up to a line it holds or whole. -/
  | drain (core : Nat) (upto : Option Nat)
  /-- Establish a posted store. -/
  | establish (id : Nat)
  /-- Make room for a line in a core's L1. -/
  | room (core ln : Nat)
  /-- Bring a core's release list back to its 256 lines, the oldest drained (R264). -/
  | trim (core : Nat)

/-- The lines of a release list that a drain takes: up to and including one it holds, or all. -/
def drainPart (l : List Nat) : Option Nat → List Nat
  | none => l
  | some ln => if l.contains ln then l.takeWhile (· != ln) ++ [ln] else []

/-- The oldest lines of a release list that are too many. -/
def Chip.overList (c : Chip) (k : Nat) : List Nat := (c.core k).release.take ((c.core k).release.length - Config.releaseLines)

/-- The posted stores to a line that a drain establishes: all but those that an open interval holds (12 R264, 21 R458). -/
def Chip.drainable (c : Chip) (k ln : Nat) : List Nat :=
  (c.postedOn k ln).filter (fun id => match Sparse.find? c.accesses id with
    | some a => !c.heldStore a
    | none => false)

/-- A bank that is waking is awake before what stalls at it is performed (23 R481). -/
def Chip.wakeBank (c : Chip) (p : Nat) : Chip :=
  match dieOfPhys p with
  | some d => if c.bankWaking p then c.setDie d { c.die d with banks := (c.die d).banks.filter (· != sliceOf (lineOf p) % Config.slicesPerDie) } else c
  | none => c

/-- How what is in progress at a line is answered: a recall or a back-invalidation ends, and the requests it holds are performed in their
order (12 R256). A task that comes to a line at which something is in progress has it answered first (log entry 15). -/
class LineAnswers where
  answer : State → Chip → Nat → Chip

/-- How deep tasks can wait for each other: every step takes a line off a release list or an access off the table. -/
def Chip.depth (c : Chip) : Nat := 6 * (c.accesses.length + (c.cores.map (fun p => p.2.release.length)).sum) + 12

namespace Proto
variable [LineAnswers]

/-- Performing a task at once (12 R263, R264); the number bounds how deep one task waits for another. A host copy of a line to which
a drained store goes is back-invalidated in the same step (log entry 15). -/
def settle : Nat → State → Task → Chip → Chip
  | 0, _, _, c => c
  | n + 1, e, .reclaim ln ws, c =>
    let h := c.line e ln
    match h.owner with
    | none => c
    | some k => if h.owned &&& ws = 0 then c else settle n e (.trim k) (mergeFrom e (settle n e (.drain k (some ln)) c) k ln ws)
  | n + 1, e, .drain k upto, c =>
    let part := drainPart (c.core k).release upto
    let c := c.setCore k { c.core k with release := (c.core k).release.filter (fun l => !part.contains l) }
    part.foldl (fun c ln =>
      (c.drainable k ln).foldl (fun c id => settle n e (.establish id) c) (writeBack e c k ln)) c
  | n + 1, e, .establish id, c =>
    let c := match Sparse.find? c.accesses id with
      | some a => if (c.line e (lineOf a.phys)).busy then LineAnswers.answer e (c.wakeBank a.phys) (lineOf a.phys) else c.wakeBank a.phys
      | none => c
    match Sparse.find? c.accesses id with
    | none => c
    | some a =>
      let h := c.line e (lineOf a.phys)
      let c := if h.owner ≠ some a.core then settle n e (.reclaim (lineOf a.phys) (maskOf a.phys a.size)) c else c
      let c := if isHost a.phys then c else settle n e (.room a.core (lineOf a.phys)) c
      settle n e (.trim a.core) (performStore e c id a)
  | n + 1, e, .room k ln, c =>
    match c.victim k ln with
    | none => c
    | some v => settle n e (.room k ln) ((if (c.line e v).owner = some k then settle n e (.reclaim v allWords) c else c).dropL1 k v)
  | n + 1, e, .trim k, c =>
    match (c.overList k).getLast? with
    | some ln => settle n e (.drain k (some ln)) c
    | none => c

/-- Recalling words of a line at once. -/
def recallNow (e : State) (c : Chip) (ln : Nat) (ws : BitVec 32) : Chip := settle c.depth e (.reclaim ln ws) c
/-- Draining a core's release list at once (12 R264). -/
def drainNow (e : State) (c : Chip) (k : Nat) : Chip := settle c.depth e (.drain k none) c
/-- Establishing a posted store at once. -/
def establishNow (e : State) (c : Chip) (id : Nat) : Chip := settle c.depth e (.establish id) c

/-- Making room for a line in a core's L1 at once. -/
def roomNow (e : State) (c : Chip) (k ln : Nat) : Chip := settle c.depth e (.room k ln) c
/-- Draining what a core's release list holds beyond its size. -/
def trimNow (e : State) (c : Chip) (k : Nat) : Chip := settle c.depth e (.trim k) c

/-- Committing a team's interval early, its held lines entering the release list of its core (21 R459). -/
def commitNow (e : State) (c : Chip) (team : Nat) : Chip :=
  match (c.team team).core with
  | some k => trimNow e (c.commitEarly team) k
  | none => c

/-- Appending the lines that hold some threads' stores not yet established, posted or owned, to its core's release list (12 R264). -/
def releaseLines (e : State) (c : Chip) (k : Nat) (ths : List Nat) (id : Nat) : Chip :=
  let lines := (c.accesses.filter (fun p => decide (p.1 < id) && ths.contains p.2.th && decide (p.2.op = .store) && decide (p.2.stage ≠ .remote))).map (fun p => lineOf p.2.phys)
  let owned := Sparse.keysWhere (fun _ l => decide (l.dirty ≠ 0) && l.writers.any (fun t => ths.contains t)) (c.core k).l1
  let add := (lines ++ owned).dedup.filter (fun l => !(c.core k).release.contains l)
  trimNow e (c.setCore k { c.core k with release := (c.core k).release ++ add }) k

/-- What a release does to earlier stores when it is performed: at core scope their lines enter the release list; at a wider scope
the list is drained, then the thread's own stores are established (12 R264, R265). A wider release of a rollback team commits its
interval early (21 R459). -/
def releaseAt (e : State) (c : Chip) (id : Nat) (a : Access) : Chip :=
  if a.scope = 0 then releaseLines e c a.core [a.th] id
  else
    let tm := c.teamOf a.th
    let c := if (c.team tm).rollback && !(c.team tm).interval.early then commitNow e c tm else c
    drainNow e (releaseLines e (drainNow e c a.core) a.core [a.th] id) a.core

end Proto

/-- A write of a page of which leases are still out waits for them to end (17 R383). -/
def leasePending (e : State) (p : Nat) : Bool :=
  match Sparse.find? e.board.leasesGranted (p / 65536) with
  | some end_ => decide (e.board.dtick < end_)
  | none => false

/-- A page marked copy-on-write and not yet streamed, by physical byte (18 R418). -/
def Chip.cowHeld (c : Chip) (p : Nat) : Bool := c.ctxs.any (fun x => x.2.cow.contains (p / 65536))

/-- A write waits for page leases, or for the etcher to stream its page (17 R383, 18 R418). -/
def writeHeld (e : State) (c : Chip) (p : Nat) : Bool := leasePending e p || c.cowHeld p

/-- A posted store of a core that a drain would establish waits for leases to end: what drains the core's stores waits with it (12 R265,
17 R383). -/
def drainWaits (e : State) (c : Chip) (k : Nat) : Bool :=
  c.accesses.any (fun p => decide (p.2.core = k) && c.posted p.1 p.2 && leasePending e p.2.phys)

/-- A release at a scope wider than core waits for what its core drains (12 R264, R265). -/
def releaseWaits (e : State) (c : Chip) (a : Access) : Bool := a.isRel && decide (a.scope ≠ 0) && drainWaits e c a.core

/-- What a fence of a thread still waits for (11 R247): with a release, every earlier access but the stores that it establishes
itself; with an acquire, every earlier load and atomic, and no release is overtaken (10 R214). -/
def Chip.fenceWaits (c : Chip) (id : Nat) (a : Access) : Bool :=
  c.earlier a.th id (fun b => (a.isRel && !(b.early && decide (b.stage ≠ .remote))) || (a.isAcq && (b.counted || b.isRel)))

namespace Proto
variable [LineAnswers]

/-- Completing the fences of a thread whose earlier accesses are performed (11 R247). What relaxed reads before an acquire fence have
read orders what follows it (10 R213): the core's clock advances to the latest write time they read. -/
def settleFences (e : State) (c : Chip) (th : Nat) : Chip :=
  (c.accesses.filter (fun p => decide (p.2.th = th) && decide (p.2.op = .fence))).foldl (fun c p =>
    let a := p.2
    if c.fenceWaits p.1 a || releaseWaits e c a then c
    else
      let c := { c with accesses := Sparse.erase c.accesses p.1 }
      let c := if a.isRel then releaseAt e c p.1 a else c
      if a.isAcq then c.clockAdvance a.core (c.thread th).seen else c) c

/-- Completing the fences of every thread of a core. -/
def settleCore (e : State) (c : Chip) (k : Nat) : Chip :=
  ((c.accesses.filter (fun p => decide (p.2.core = k) && decide (p.2.op = .fence))).map (·.2.th)).dedup.foldl (settleFences e) c

end Proto

/-- The end of the lease that a renewal grants (12 R257). -/
def renewEnd (a : Access) (h : HomeLine) (leaselen : Nat) : Nat := max a.clk h.wts + leaselen

/-- A core reading a line under lease, at its home (12 R257): the granted lease and, where the copy is older, the data. Words that
another core owns are served by neither (R260). -/
def renewServe (e : State) (c : Chip) (id : Nat) (a : Access) (leaselen : Nat) : Chip :=
  let ln := lineOf a.phys
  let h := c.line e ln
  let r := renewEnd a h leaselen
  let c := c.setLine ln { h with rts := max h.rts r }
  let mine := if h.owner = some a.core then allWords else ~~~h.owned
  let same := match c.l1? a.core ln with
    | some l => decide (l.owned = 0) && decide (l.wts = h.wts) && decide (mine &&& ~~~l.valid = 0)
    | none => false
  c.setAccess id { a with stage := .reply h.wts r (if same then none else some h.data) mine }

/-- The reply of a renewal reaching its core (12 R257): the clock, and the copy with the words the reply covers. -/
def renewReply (e : State) (c : Chip) (a : Access) (wts rts : Nat) (data : Option (BitVec 1024)) (valid : BitVec 32) : Chip :=
  let ln := lineOf a.phys
  let l := (c.l1? a.core ln).getD {}
  let keep := l.owned
  let l' := match data with
    | none => { l with wts := wts, rts := rts, valid := (l.valid &&& valid) ||| keep }
    | some d => { l with
        wts := if keep = 0 then wts else max l.wts wts, rts := rts, valid := valid ||| keep, data := mergeWords d l.data keep, ctx := a.ctx
        poison := ((c.line e ln).poison &&& ~~~keep) ||| (l.poison &&& keep) }
  let c := (c.clockAdvance a.core wts).requeueLine a.core ln
  if a.kind = 2 ∧ (c.l1? a.core ln).isNone then c else c.setL1 a.core ln l'

/-- The result of a read-modify-write (11 R244): the new value, or none where nothing is written. `n` is the width. -/
def RmwOp.apply (op : RmwOp) (n : Nat) (o y cmp : Nat) : Option Nat :=
  let sgn := fun x => signedNat x n
  match op with
  | .add => some ((o + y) % 2 ^ n)
  | .minS => some (if sgn o ≤ sgn y then o else y)
  | .maxS => some (if sgn y ≤ sgn o then o else y)
  | .minU => some (min o y)
  | .maxU => some (max o y)
  | .and => some (o &&& y)
  | .or => some (o ||| y)
  | .xor => some (o ^^^ y)
  | .xchg => some y
  | .cas => if o = cmp then some y else none
  | .incw => some (if y ≤ o then 0 else o + 1)
  | .decw => some (if o = 0 ∨ y < o then y else o - 1)
  | .fadd => some (toF32 ((f32 (BitVec.ofNat 32 o)).add (f32 (BitVec.ofNat 32 y)))).toNat
  | .fmin => some (fminWord (BitVec.ofNat 32 o) (BitVec.ofNat 32 y)).toNat
  | .fmax => some (fmaxWord (BitVec.ofNat 32 o) (BitVec.ofNat 32 y)).toNat

end Sys2Proof.Machine
end

