-- ==== Sys2Proof/Machine/Homes.lean ====
section
/-! DEFINITION. Requests at the home slices (11 R240 to R248, 12 R256 to R266, R276 to R281): what a request waits for, what it does
when it is served, and what answers a recall and a back-invalidation. -/

namespace Sys2Proof.Machine

/-! What a request waits for at its home. -/

/-- Whether an access goes on: it writes, nobody can stop it any more, or its team has its core. -/
def Chip.mayGo (c : Chip) (a : Access) : Bool := a.detached || a.writes || a.storing || (c.team (c.teamOf a.th)).core.isSome

/-- A request for ownership (12 R261, R277). -/
def Chip.wantsOwned (c : Chip) (a : Access) : Bool :=
  match a.op with
  | .load => decide (a.kind = 1) && !isHost a.phys
  | .store => c.storesOwned a
  | .fetch how => decide (how = 1) && !isHost a.phys
  | .rmw _ => decide (a.scope = 0) && !isHost a.phys
  | _ => false

/-- The words owned elsewhere that a request makes the home recall (11 R245, 12 R257, R258, R260, R261, R266): those it touches; every
word for an owned request, an atomic and a promoting acquire. -/
def wantedWords (e : State) (c : Chip) (a : Access) : BitVec 32 :=
  let h := c.line e (lineOf a.phys)
  let touched := h.owned &&& maskOf a.phys a.size
  match h.owner, a.op with
  | none, _ => 0
  | some o, .rmw _ => if o = a.core ∧ c.wantsOwned a = true then 0 else h.owned
  | some o, .load => if o = a.core then 0 else if c.wantsOwned a || a.promote then h.owned else touched
  | some o, .store => if o = a.core then 0 else if c.wantsOwned a then h.owned else touched
  | some o, .fetch _ => if o = a.core then 0 else h.owned
  | _, _ => 0

/-- The time a request may make the home or the L1 store; one that does not fit waits for the sweep (12 R271). -/
def requestTime (e : State) (c : Chip) (a : Access) : Nat :=
  let h := c.line e (lineOf a.phys)
  match a.op with
  | .load => renewEnd a h (c.ctx a.ctx).leaselen
  | .fetch _ => renewEnd a h (c.ctx a.ctx).leaselen
  | _ => max (max (c.core a.core).clk (h.rts + 1)) (ownedTime c a.core (lineOf a.phys))

/-- A request at its home goes on, or is held: behind what is in progress, for a recall, or for a back-invalidation (12 R256, R263,
R280, R281). -/
def gate (e : State) (c : Chip) (id : Nat) (a : Access) (go : Chip → Chip) : Chip :=
  let ln := lineOf a.phys
  let h := c.line e ln
  let ws := wantedWords e c a
  let hold := fun (st : HomeState) => (c.setLine ln { h with state := st, recalled := h.recalled ||| ws, held := (h.held ++ [id]).dedup }).setAccess id { a with stage := .atHome }
  if h.busy then hold (if h.state = .invalidating then .invalidating else .recalling)
  else if ws ≠ 0 then hold .recalling
  else if h.hshare && (a.writes || c.wantsOwned a) then hold .invalidating
  else go c

/-! Loads. -/

/-- The bytes of a load from its line, sign-extended where its size says so. -/
def Access.taken (a : Access) (d : BitVec 1024) : BitVec 256 :=
  let v := getBytes d (a.phys % 128) a.size
  BitVec.ofNat 256 (if a.signed then v + (2 ^ 128 - 2 ^ (8 * a.size)) * (v / 2 ^ (8 * a.size - 1)) else v)

/-- A load is performed: its value fixed, an acquire's clock advanced to the line's write time (12 R265); the threads that take the
value have read that time (10 R213). -/
def sample (c : Chip) (id : Nat) (a : Access) (line : BitVec 1024) (wts : Nat) (poison : Option Nat) : Chip :=
  let c := if a.isAcq then c.clockAdvance a.core wts else a.takers.foldl (fun c t => c.see t wts) c
  c.setAccess id { a with stage := .returned, result := a.taken (c.overlay id a line), poison := poison }

/-- The poison of a load's words that no posted store of its core covers. -/
def Chip.linePoison (c : Chip) (id : Nat) (a : Access) (ws : BitVec 32) (sub : Nat) : Option Nat :=
  if ws &&& maskOf a.phys a.size &&& ~~~c.postedMask id a = 0 then none else some sub

/-- What a load finds in its core's L1: owned words, a copy whose lease holds, or words it has posted (12 R257, R259). A promoting
acquire is served at the home (R266). -/
def l1Serves (c : Chip) (id : Nat) (a : Access) : Option L1Line :=
  let l := (c.l1? a.core (lineOf a.phys)).getD {}
  let ws := maskOf a.phys a.size
  let posted := c.postedMask id a
  if a.op ≠ .load ∨ a.loc.isSome = true ∨ isHost a.phys = true ∨ a.promote = true ∨ a.dev.isSome = true then none
  else if ws &&& ~~~l.owned = 0 then some l
  else if a.kind = 1 ∨ a.kind = 3 then none
  else if ws &&& ~~~posted = 0 then some l
  else if ws &&& ~~~(l.valid ||| posted) = 0 ∧ (c.core a.core).clk ≤ l.rts then some l
  else none

/-- A load served in L1. -/
def hit (c : Chip) (id : Nat) (a : Access) (l : L1Line) : Chip :=
  sample c id a l.data l.wts (c.linePoison id a l.poison (if maskOf a.phys a.size &&& l.owned = 0 then 6 else 5))

/-- A load performed at its home, but for words its core owns, which are read in the L1 (12 R259, R277). -/
def sampleHome (e : State) (c : Chip) (id : Nat) (a : Access) : Chip :=
  let ln := lineOf a.phys
  let h := c.line e ln
  let l := (c.l1? a.core ln).getD {}
  let mine := if h.owner = some a.core then l.owned else 0
  let all := decide (maskOf a.phys a.size &&& ~~~mine = 0)
  let bad := (h.poison &&& ~~~mine) ||| (l.poison &&& mine)
  sample (c.dropStale a.core ln h.wts) id a (mergeWords h.data l.data mine) (if all then l.wts else h.wts)
    (c.linePoison id a bad (if all then 5 else (chunkPoison e c a.phys).getD 6))

namespace Proto
variable [LineAnswers]

/-- A promoting acquire recalls the line from the cores that released it at core scope, each of which drains its release list first (12
R266); the line's write time is then no earlier than what they established, so that the acquire orders it (10 R219; log entry 111). -/
def promoteLine (e : State) (c : Chip) (ln : Nat) : Chip :=
  let h := c.line e ln
  let cores := (h.releasers ++ h.owner.toList.filter (fun k => !(c.core k).release.isEmpty)).dedup
  match cores with
  | [] => c
  | _ =>
    let c := cores.foldl (fun c k => drainNow e c k) c
    let h := c.line e ln
    let t := cores.foldl (fun t k => max t (c.core k).clk) h.wts
    c.setLine ln { h with wts := t, rts := max h.rts t, releasers := [] }

/-- What a promoting access does before it is performed. -/
def promoteFrom (e : State) (c : Chip) (a : Access) : Chip := if a.promote then promoteLine e c (lineOf a.phys) else c

end Proto

/-- A promoting access waits for what the cores it recalls the line from drain. -/
def promoteWaits (e : State) (c : Chip) (a : Access) : Bool :=
  let h := c.line e (lineOf a.phys)
  a.promote && (h.releasers ++ h.owner.toList).any (drainWaits e c)

namespace Proto
variable [LineAnswers]

/-- A leased read, a read at the home, or a prefetch: served, or held. -/
def serveRead (e : State) (c : Chip) (id : Nat) (a : Access) : Chip :=
  let home := decide (a.kind = 3) || isHost a.phys
  let fetch : Bool := match a.op with | .fetch _ => true | _ => false
  if (home || a.isAcq) && !fetch && !c.mayPerform id a then c
  else if promoteWaits e c a then c
  else if !home && !c.timeFits (requestTime e c a) then c
  else gate e c id a (fun c =>
    let c := promoteFrom e c a
    match a.op with
    | .fetch 2 => { c.setLine (lineOf a.phys) (c.line e (lineOf a.phys)) with accesses := Sparse.erase c.accesses id }
    | .fetch _ => if isHost a.phys then { c with accesses := Sparse.erase c.accesses id } else renewServe e c id a (c.ctx a.ctx).leaselen
    | _ => if home then sampleHome e c id a else renewServe e c id a (c.ctx a.ctx).leaselen)

/-- The reply of a renewal reaches its core. A lease without data, for a copy that is gone by now, asks again. -/
def takeReply (e : State) (c : Chip) (id : Nat) (a : Access) (wts rts : Nat) (data : Option (BitVec 1024)) (valid : BitVec 32) : Chip :=
  let ln := lineOf a.phys
  let wts := max c.timeBase wts
  let rts := max c.timeBase rts
  if data.isNone && (c.l1? a.core ln).isNone then c.setAccess id { a with stage := .issued }
  else
    let c := if a.kind = 2 then c else roomNow e c a.core ln
    let c := renewReply e c a wts rts data valid
    match a.op with
    | .load =>
      if c.mayPerform id a && decide (maskOf a.phys a.size &&& ~~~valid = 0) then
        let line := match c.l1? a.core ln with
          | some l => l.data
          | none => data.getD 0
        let bad := match c.l1? a.core ln with
          | some l => l.poison
          | none => (c.line e ln).poison
        sample c id a line wts (c.linePoison id a bad ((chunkPoison e c a.phys).getD 6))
      else c.setAccess id { a with stage := .issued }
    | _ => { c with accesses := Sparse.erase c.accesses id }

/-! Writes. -/

/-- Before a word is first held in an interval, what the core has released of its line is at the home (21 R458). -/
def beforeHold (e : State) (c : Chip) (k ln : Nat) : Chip :=
  match c.l1? k ln with
  | some l => if l.dirty &&& ~~~c.heldMask ln = 0 then c else writeBack e (drainNow e c k) k ln
  | none => c

/-- A posted store, or a release at a scope wider than core: performed, or held. -/
def serveStore (e : State) (c : Chip) (id : Nat) (a : Access) : Chip :=
  if !c.mayPerform id a || writeHeld e c a.phys || !c.timeFits (requestTime e c a) || releaseWaits e c a then c
  else
    let c := if a.isRel then releaseAt e c id a else c
    gate e c id a (fun c => settleCore e (trimNow e (performStore e (if isHost a.phys then c else roomNow e c a.core (lineOf a.phys)) id a) a.core) a.core)

end Proto

/-- The old value of an atomic, what it writes and the poison it meets, from the line's words. -/
def Access.result? (a : Access) (op : RmwOp) (d : BitVec 1024) : Nat × Option Nat :=
  let o := getBytes d (a.phys % 128) a.size
  (o, op.apply (8 * a.size) o (a.data.toNat % 2 ^ (8 * a.size)) a.compare.toNat)

namespace Proto
variable [LineAnswers]

/-- An atomic performed in its core's L1 with the line owned (11 R245). -/
def atomicInL1 (e : State) (c : Chip) (id : Nat) (a : Access) (op : RmwOp) : Chip :=
  let k := a.core
  let ln := lineOf a.phys
  let tm := c.teamOf a.th
  let open_ := (c.team tm).rollback && !(c.team tm).interval.early
  let c := if open_ then beforeHold e c k ln else c
  let h := c.line e ln
  let c := if h.owner = some k ∧ h.owned = allWords then c else grantOwned e (roomNow e c k ln) k ln a.ctx
  let l := (c.l1? k ln).getD {}
  let (o, new) := a.result? op l.data
  let c := if a.isAcq then c.clockAdvance k l.wts else c
  let c := match new with
    | some v =>
      let c := markReleaser e (ownedStore c k a.th a.phys a.size v) k ln
      if open_ then trimNow e (c.hold tm a.phys a.size) k else c
    | none => c
  c.setAccess id { a with stage := .returned, result := BitVec.ofNat 256 o, poison := if l.poison &&& maskOf a.phys a.size = 0 then none else some 5 }

end Proto

/-- An atomic performed at its home slice (11 R245); one that writes nothing is a read there. -/
def atomicAtHome (e : State) (c : Chip) (id : Nat) (a : Access) (op : RmwOp) : Chip :=
  let ln := lineOf a.phys
  let h := c.line e ln
  let (o, new) := a.result? op h.data
  let c := if a.isAcq then c.clockAdvance a.core h.wts else c
  let c := match new with
    | some v => markReleaser e (homeStore e c a.core a.phys a.size v 3) a.core ln
    | none => c.dropStale a.core ln h.wts
  c.setAccess id { a with
    stage := .returned, result := BitVec.ofNat 256 o
    poison := if h.poison &&& maskOf a.phys a.size = 0 then none else some ((chunkPoison e c a.phys).getD 6) }

/-! Ownership and the persistent arbiter (12 R261, R276). -/

/-- Whether the persistent entries of a line's slice keep a request waiting: those of the slice are served in arrival order, and while
one is held for the line no other owned request is granted (12 R276). -/
def Chip.aheadFor (c : Chip) (id ln : Nat) : Bool :=
  let l := (c.slice (sliceOf ln)).persistent
  if l.contains id then decide (l.head? ≠ some id)
  else l.any (fun x => match Sparse.find? c.accesses x with
    | some b => decide (lineOf b.phys = ln)
    | none => false)

/-- A request the home refuses: after 16 refusals it enters the arbiter, or waits for an entry. -/
def refuse (c : Chip) (id : Nat) (a : Access) : Chip :=
  let ix := sliceOf (lineOf a.phys)
  let s := c.sliceAt ix
  let c := c.setAccess id { a with stage := .issued, refusals := min 16 (a.refusals + 1) }
  if 16 ≤ a.refusals + 1 ∧ s.persistent.contains id = false ∧ s.persistent.length < Config.persistentEntries then
    c.setSlice ix { s with persistent := s.persistent ++ [id] }
  else c

/-- A request leaves the arbiter. -/
def Chip.unarbitrate (c : Chip) (id ln : Nat) : Chip :=
  let ix := sliceOf ln
  let s := c.sliceAt ix
  if (c.slice ix).persistent.contains id then c.setSlice ix { s with persistent := s.persistent.filter (· != id) } else c

/-- A core with a request that has been refused 16 times and finds its slice's arbiter full stalls (12 R276). -/
def Chip.coreStalled (c : Chip) (k : Nat) : Bool :=
  c.accesses.any (fun p => decide (p.2.core = k) && decide (16 ≤ p.2.refusals) &&
    !(c.slice (sliceOf (lineOf p.2.phys))).persistent.contains p.1 && decide (Config.persistentEntries ≤ (c.slice (sliceOf (lineOf p.2.phys))).persistent.length))

namespace Proto
variable [LineAnswers]

/-- An owned request of a line (12 R261, R276): used at once where the core owns the words, refused while the line is busy or an
earlier persistent request waits for it, held for a recall or a back-invalidation, or granted. -/
def serveGrant (e : State) (c : Chip) (id : Nat) (a : Access) (use : Chip → Chip) : Chip :=
  let ln := lineOf a.phys
  let h := c.line e ln
  if h.owner = some a.core ∧ maskOf a.phys a.size &&& ~~~h.owned = 0 then use (c.unarbitrate id ln)
  else if h.busy || c.aheadFor id ln then refuse c id a
  else gate e c id a (fun c => use (grantOwned e (roomNow e (c.unarbitrate id ln) a.core ln) a.core ln a.ctx))

end Proto

/-- Whether every atomic of an access's issue group to its location that is still to be performed may be performed now, itself aside:
they are performed one behind the other (11 R242). -/
def Chip.mates (c : Chip) (id : Nat) (a : Access) : List Nat :=
  c.accessesWhere (fun i b => decide (id < i) && decide (b.issue = a.issue) && decide (b.core = a.core) && decide (b.stage = .issued) &&
    b.overlaps a && (match b.op with | .rmw _ => true | _ => false))

/-- An atomic at the place its scope names, before the home lets it: whether it must wait. -/
def atomicWaits (e : State) (c : Chip) (id : Nat) (a : Access) : Bool :=
  !c.mayPerform id a || writeHeld e c a.phys || !c.timeFits (requestTime e c a) || releaseWaits e c a || promoteWaits e c a

namespace Proto
variable [LineAnswers]

/-- An atomic: performed at the place its scope names, or held. -/
def serveAtomic (e : State) (c : Chip) (id : Nat) (a : Access) (op : RmwOp) : Chip :=
  if atomicWaits e c id a then c
  else
    let c := if a.isRel then releaseAt e c id a else c
    let done := fun (c : Chip) => settleFences e c a.th
    if c.wantsOwned a then serveGrant e c id a (fun c => done (atomicInL1 e (promoteFrom e c a) id a op))
    else gate e c id a (fun c => done (atomicAtHome e (promoteFrom e c a) id a op))

/-- The atomics of one issue group to one location, in lane order, one behind the other (11 R242). -/
def serveMates (e : State) (c : Chip) (ids : List Nat) : Chip :=
  ids.foldl (fun c i => match Sparse.find? c.accesses i with
    | some b => match b.op with
      | .rmw op => serveAtomic e c i b op
      | _ => c
    | none => c) c

/-- An atomic with those of its issue group to its location: all wait until each thread's earlier accesses let its own be performed. -/
def serveAtomics (e : State) (c : Chip) (id : Nat) (a : Access) (op : RmwOp) : Chip :=
  let ids := c.mates id a
  let early := fun i => match Sparse.find? c.accesses i with
    | some b => c.earlier b.th i (fun x => !x.performed && ((x.overlaps b && decide (x.issue ≠ b.issue)) || b.isRel || (b.isAcq && x.isRel) || (decide (x.op = .fence) && x.isRel)))
    | none => false
  if ids.any early then c else serveMates e (serveAtomic e c id a op) ids

/-- A write-back of lines the core owns; a drop gives them up (11 R249, R250). -/
def serveBack (e : State) (c : Chip) (id : Nat) (a : Access) (drop : Bool) : Chip :=
  let k := a.core
  let c := (lineOf a.phys :: a.lines).foldl (fun c ln =>
    let c := settle c.depth e (.drain k (some ln)) c
    let c := writeBack e c k ln
    if drop && decide ((c.line e ln).owner = some k) then trimNow e (mergeFrom e c k ln allWords) k else c) c
  settleFences e { c with accesses := Sparse.erase c.accesses id } a.th

/-- What an owned load, store or prefetch does once its core owns the line. -/
def useOwned (e : State) (c : Chip) (id : Nat) (a : Access) : Chip :=
  match a.op with
  | .load => match c.l1? a.core (lineOf a.phys) with
    | some l => hit c id a l
    | none => c
  | .store => settleCore e (trimNow e (performStore e c id a) a.core) a.core
  | _ => { c with accesses := Sparse.erase c.accesses id }

/-- An owned load, store or prefetch. -/
def serveOwned (e : State) (c : Chip) (id : Nat) (a : Access) : Chip :=
  let ln := lineOf a.phys
  let fetch : Bool := match a.op with | .fetch _ => true | _ => false
  if !fetch && !c.mayPerform id a then c
  else if a.writes && (writeHeld e c a.phys || !c.timeFits (requestTime e c a) || releaseWaits e c a) then c
  else
    let c := if a.isRel then releaseAt e c id a else c
    let c := if c.heldStore a then beforeHold e c a.core ln else c
    serveGrant e c id a (fun c => useOwned e c id a)

/-- A request to another device is sent; a release behind what it must follow (10 R214, 11 R247). -/
def sendRemote (e : State) (c : Chip) (id : Nat) (a : Access) (dev : Nat) : Chip :=
  if !c.mayPerform id a || releaseWaits e c a then c
  else
    let c := if a.isRel then releaseAt e c id a else c
    (c.setAccess id { a with stage := .remote }).tell (a.message id dev)

/-- A request that has reached its home is served. A bank that is still waking serves none (23 R481). -/
def serveAs (e : State) (c : Chip) (id : Nat) (a : Access) : Chip :=
  match a.dev with
  | some d => sendRemote e c id a d
  | none =>
    if c.bankWaking a.phys then c
    else match a.op with
      | .load => if c.wantsOwned a then serveOwned e c id a else serveRead e c id a
      | .store => if c.wantsOwned a then serveOwned e c id a else serveStore e c id a
      | .rmw op => serveAtomics e c id a op
      | .fetch _ => if c.wantsOwned a then serveOwned e c id a else serveRead e c id a
      | .writeback drop => serveBack e c id a drop
      | _ => c

/-- A request is sent to its home, with its core's clock as it stands (12 R257), and served. -/
def serve (e : State) (c : Chip) (id : Nat) : Chip :=
  match Sparse.find? c.accesses id with
  | none => c
  | some a => if a.stage ≠ .issued ∨ c.mayGo a = false then c else serveAs e c id { a with clk := (c.core a.core).clk }

/-- Serving the requests a line held, oldest first. One that cannot be performed yet keeps its place, and those behind it theirs (12
R256); one that is refused retries (R276). -/
def serveHeld (e : State) (c : Chip) (ln : Nat) (held : List Nat) : Chip :=
  held.foldl (fun c id => match Sparse.find? c.accesses id with
    | none => c
    | some a =>
      let keep := fun (c : Chip) => (c.setLine ln { c.line e ln with held := ((c.line e ln).held ++ [id]).dedup }).setAccess id { a with stage := .atHome }
      let a := { a with stage := Stage.issued }
      if c.mayGo a = false then c.setAccess id a
      else if (c.line e ln).busy then keep c
      else
        let d := serveAs e (c.setAccess id a) id a
        match Sparse.find? d.accesses id with
        | some b => if b.stage = .issued ∧ b.refusals = a.refusals ∧ b.dev = none then keep d else d
        | none => d) c

/-- A recall is answered: the words merged, the requests it held served (12 R263, R281). -/
def answerRecall (e : State) (c : Chip) (ln : Nat) : Chip :=
  let h := c.line e ln
  if h.state = .invalidating ∨ h.held = [] ∨ h.owner.any (drainWaits e c) = true then c
  else
    let c := recallNow e c ln h.recalled
    let k := c.line e ln
    serveHeld e (c.setLine ln { k with state := k.rest, recalled := 0, held := [] }) ln h.held

/-- The write of a host request may wait for page leases, for a page to be streamed or for a sweep (12 R271, 17 R383, 18 R418). -/
def hostWaits (e : State) (c : Chip) (op : BitVec 2) (p : Nat) : Bool :=
  decide (op ≠ 0) && (writeHeld e c p || !c.timeFits (max c.hostClk ((c.line e (lineOf p)).rts + 1)))

/-! The host (10 R227, 12 R277 to R280). -/

/-- A host access at its home: 0 a read, 1 a write, 2 an exchange. A read that the host may cache recalls the whole line and sets
hshare; a write takes a time later than every write the host has completed (10 R227). The answer is kept. -/
def hostServe (e : State) (c : Chip) (op : BitVec 2) (p size : Nat) (data : BitVec 64) (cache : Bool) : Chip :=
  let ln := lineOf p
  let c := recallNow e c ln (if op = 0 ∧ cache = true then allWords else maskOf p size)
  let h := c.line e ln
  let c := if op = 1 then { c with hostReply := none }
    else { c with hostReply := some { addr := p, size := size, value := BitVec.ofNat 64 (getBytes h.data (p % 128) size), poison := poisonAt e c p size } }
  if op = 0 then
    (if cache then { c.setLine ln { h with hshare := true } with hostClk := max c.hostClk h.wts } else { c with hostClk := max c.hostClk h.wts })
  else
    let t := max c.hostClk (h.rts + 1)
    let c := putHome c ln p size (data.toNat % 2 ^ (8 * size)) t h
    { c.setLine ln { c.line e ln with hshare := h.hshare } with hostClk := t }

/-- The conflict queue of a line is served in order, up to a request that waits (12 R280). -/
def serveConflict (e : State) (c : Chip) (ln : Nat) : Chip :=
  let q := (c.line e ln).conflict
  let run := q.foldl (fun (s : Chip × Bool × List (BitVec 2 × Nat × Nat × BitVec 64 × Bool)) x =>
    if s.2.1 || hostWaits e s.1 x.1 x.2.1 then (s.1, true, s.2.2 ++ [x]) else (hostServe e s.1 x.1 x.2.1 x.2.2.1 x.2.2.2.1 x.2.2.2.2, false, [])) (c, false, [])
  run.1.setLine ln { run.1.line e ln with conflict := run.2.2 }

/-- The response to a back-invalidation: the held device requests, then the conflict queue (12 R280). -/
def answerInvalidation (e : State) (c : Chip) (ln : Nat) : Chip :=
  let h := c.line e ln
  if h.state ≠ .invalidating then (if h.conflict.isEmpty || !h.held.isEmpty then c else serveConflict e c ln)
  else
    let c := serveHeld e (c.setLine ln { h with state := h.rest, hshare := false, held := [], recalled := 0 }) ln h.held
    if (c.line e ln).held.isEmpty then serveConflict e c ln else c

/-- What is in progress at a line is answered, so that what arrives now comes behind the requests it holds (12 R256). -/
def quietLine (e : State) (c : Chip) (ln : Nat) : Chip :=
  if (c.line e ln).state = .invalidating ∨ (c.line e ln).conflict ≠ [] then answerInvalidation e c ln else answerRecall e c ln

end Proto

/-! What the rest of the machine calls: answers that go as deep as tasks can wait for each other. -/

/-- LineAnswers that go `n` deep. -/
@[reducible] def answersAt : Nat → LineAnswers
  | 0 => ⟨fun _ c _ => c⟩
  | n + 1 => ⟨fun e c ln => @Proto.quietLine (answersAt n) e c ln⟩

/-- Performing a task at once. -/
def settle (e : State) (c : Chip) (t : Task) : Chip := @Proto.settle (answersAt c.depth) c.depth e t c
/-- Recalling words of a line at once. -/
def recallNow (e : State) (c : Chip) (ln : Nat) (ws : BitVec 32) : Chip := @Proto.recallNow (answersAt c.depth) e c ln ws
/-- Draining a core's release list at once (12 R264). -/
def drainNow (e : State) (c : Chip) (k : Nat) : Chip := @Proto.drainNow (answersAt c.depth) e c k
/-- Establishing a posted store at once. -/
def establishNow (e : State) (c : Chip) (id : Nat) : Chip := @Proto.establishNow (answersAt c.depth) e c id
/-- Making room for a line in a core's L1 at once. -/
def roomNow (e : State) (c : Chip) (k ln : Nat) : Chip := @Proto.roomNow (answersAt c.depth) e c k ln
/-- Draining what a core's release list holds beyond its size. -/
def trimNow (e : State) (c : Chip) (k : Nat) : Chip := @Proto.trimNow (answersAt c.depth) e c k
/-- Committing a team's interval early (21 R459). -/
def commitNow (e : State) (c : Chip) (team : Nat) : Chip := @Proto.commitNow (answersAt c.depth) e c team
/-- Appending threads' stores not yet established to their core's release list (12 R264). -/
def releaseLines (e : State) (c : Chip) (k : Nat) (ths : List Nat) (id : Nat) : Chip := @Proto.releaseLines (answersAt c.depth) e c k ths id
/-- What a release does to earlier stores when it is performed (12 R264, R265). -/
def releaseAt (e : State) (c : Chip) (id : Nat) (a : Access) : Chip := @Proto.releaseAt (answersAt c.depth) e c id a
/-- Completing the fences of a thread whose earlier accesses are performed (11 R247). -/
def settleFences (e : State) (c : Chip) (th : Nat) : Chip := @Proto.settleFences (answersAt c.depth) e c th
/-- A promoting acquire recalls the line from the cores that released it at core scope (12 R266). -/
def promoteLine (e : State) (c : Chip) (ln : Nat) : Chip := @Proto.promoteLine (answersAt c.depth) e c ln
/-- The reply of a renewal reaches its core (12 R257). -/
def takeReply (e : State) (c : Chip) (id : Nat) (a : Access) (wts rts : Nat) (data : Option (BitVec 1024)) (valid : BitVec 32) : Chip :=
  @Proto.takeReply (answersAt c.depth) e c id a wts rts data valid
/-- A request is sent to its home and served. -/
def serve (e : State) (c : Chip) (id : Nat) : Chip := @Proto.serve (answersAt c.depth) e c id
/-- Serving the requests a line held, oldest first (12 R256). -/
def serveHeld (e : State) (c : Chip) (ln : Nat) (held : List Nat) : Chip := @Proto.serveHeld (answersAt c.depth) e c ln held
/-- A recall is answered (12 R263, R281). -/
def answerRecall (e : State) (c : Chip) (ln : Nat) : Chip := @Proto.answerRecall (answersAt c.depth) e c ln
/-- A host access at its home (12 R280). -/
def hostServe (e : State) (c : Chip) (op : BitVec 2) (p size : Nat) (data : BitVec 64) (cache : Bool) : Chip :=
  @Proto.hostServe (answersAt c.depth) e c op p size data cache
/-- The conflict queue of a line is served in order, up to a request that waits (12 R280). -/
def serveConflict (e : State) (c : Chip) (ln : Nat) : Chip := @Proto.serveConflict (answersAt c.depth) e c ln
/-- The response to a back-invalidation (12 R280). -/
def answerInvalidation (e : State) (c : Chip) (ln : Nat) : Chip := @Proto.answerInvalidation (answersAt c.depth) e c ln
/-- What is in progress at a line is answered, so that what arrives now comes behind it (12 R256). -/
def quietLine (e : State) (c : Chip) (ln : Nat) : Chip := @Proto.quietLine (answersAt c.depth) e c ln

end Sys2Proof.Machine
end

