-- ==== Sys2Proof/Machine/Pages.lean ====
section
/-! DEFINITION. Accesses of the device's own agents (10 R202), the page table and translation (17 R367 to R372, R377, R378,
R386). -/

namespace Sys2Proof.Machine

/-- What the carter, the press or fetch of a core reads: the coherent line with the core's posted stores laid over
(10 R202, 12 R259). -/
def coreView (e : State) (c : Chip) (k p n : Nat) : Nat :=
  if c.accesses = [] then peek e c p n
  else spanOf (fun ln =>
    c.accesses.foldl (fun d q =>
      if q.2.core = k ∧ lineOf q.2.phys = ln ∧ c.posted q.1 q.2 = true then putBytes d (q.2.phys % 128) q.2.size q.2.data.toNat
      else d) (peekLine e c ln)) p n

/-- A write of at most 16 aligned bytes by an agent of the device, established at the home at once: what is in progress at the line
first, the posted stores of the agent's core to it, the words other cores own recalled, a host copy back-invalidated (12 R256, R258;
log entry 15). It advances the clock of the agent's core (R258). -/
def agentWrite (e : State) (c : Chip) (core : Option Nat) (p size data : Nat) : Chip :=
  let ln := lineOf p
  let c := match core with
    | some k => (c.drainable k ln).foldl (fun c id => establishNow e c id) c
    | none => c
  let c := c.wakeBank p
  let c := recallNow e (quietLine e c ln) ln (maskOf p size)
  let h := c.line e ln
  match core with
  | none => putHome c ln p size data (h.rts + 1) h
  | some k =>
    let t := max (c.core k).clk (h.rts + 1)
    storeReply e ((putHome c ln p size data t h).clockAdvance k t) k ln (maskOf p size) h false

/-- Writing `n` bytes 4 at a time. -/
def agentWriteWords (e : State) (core : Option Nat) : Nat → Chip → Nat → Nat → Chip
  | 0, c, _, _ => c
  | n + 1, c, p, data => agentWriteWords e core n (agentWrite e c core p 4 (data % 2 ^ 32)) (p + 4) (data / 2 ^ 32)

/-- Marking the words that `size` bytes touch as poisoned (21 R453). -/
def poisonWords (e : State) (c : Chip) (p size : Nat) : Chip :=
  let h := c.line e (lineOf p)
  c.setLine (lineOf p) { h with poison := h.poison ||| maskOf p size }

/-! The page table (17 R367, R368). -/

def Pte.valid (x : Nat) : Bool := bitAt x 0
def Pte.leaf (x : Nat) : Bool := bitAt x 1
def Pte.state (x : Nat) : Nat := fieldNat x 8 3
def Pte.frame (x : Nat) : Nat := fieldNat x 16 32 * 65536
def Pte.dev (x : Nat) : Nat := fieldNat x 48 13
def Pte.share (x : Nat) : Nat := fieldNat x 13 2

/-- What a walk finds (17 R370, R371). -/
inductive Walk where
  /-- The leaf entry, its physical address and its level. -/
  | leaf (entry at_ level : Nat)
  /-- PAGE_FAULT: reason and level. -/
  | bad (reason level : Nat)
  /-- A poisoned entry (21 R453): its subcode. -/
  | poison (sub : Nat)
deriving DecidableEq, Repr

/-- An entry that names the next table: every field but V, leaf and frame zero, the table in a populated range. -/
def tableOk (e : State) (x : Nat) : Bool :=
  decide (x &&& 0xFFFF00000000FFFC = 0) && populated e (Pte.frame x)

/-- A well-formed leaf: reserved fields zero, dev too where neither the state nor share gives it a meaning, no reserved state or share, a
frame aligned to its size, and in a populated range of this device unless another device homes it (17 R368, 20 R438). -/
def leafOk (e : State) (x level : Nat) : Bool :=
  !bitAt x 15 && decide (fieldNat x 61 3 = 0) && decide (Pte.state x ≠ 7) && decide (Pte.share x ≠ 3) &&
    (decide (level = 3) || decide (fieldNat x 16 13 = 0)) &&
    (decide (Pte.state x = 3) || decide (Pte.state x = 4) || decide (Pte.share x = 2) || decide (Pte.dev x = 0)) &&
    (decide (Pte.state x = 3) || decide (Pte.state x = 4) || populated e (Pte.frame x))

/-- The three-level walk (17 R367, R371). -/
def walk (e : State) (c : Chip) (ctx va : Nat) : Walk :=
  let a1 := (c.ctx ctx).ptbase.toNat / 65536 * 65536 % 2 ^ 48 + 8 * fieldNat va 42 13
  match poisonAt e c a1 8 with
  | some _ => .poison 7
  | none =>
  let x1 := peek e c a1 8
  if !Pte.valid x1 then .bad 1 1
  else if Pte.leaf x1 || !tableOk e x1 then .bad 2 1
  else
    let a2 := Pte.frame x1 + 8 * fieldNat va 29 13
    match poisonAt e c a2 8 with
    | some _ => .poison 7
    | none =>
    let x2 := peek e c a2 8
    if !Pte.valid x2 then .bad 1 2
    else if Pte.leaf x2 then (if leafOk e x2 2 then .leaf x2 a2 2 else .bad 2 2)
    else if !tableOk e x2 then .bad 2 2
    else
      let a3 := Pte.frame x2 + 8 * fieldNat va 16 13
      match poisonAt e c a3 8 with
      | some _ => .poison 7
      | none =>
      let x3 := peek e c a3 8
      if !Pte.valid x3 then .bad 1 3
      else if !Pte.leaf x3 || !leafOk e x3 3 then .bad 2 3
      else .leaf x3 a3 3

/-- The kinds of access a page's permissions tell apart (17 R370). -/
inductive AccKind where
  | read | write | fetch
deriving DecidableEq, Repr

/-- What a translation gives. -/
inductive Trans where
  /-- The physical address, whether the access follows the uncached rules of the far tier (17 R372), and the device that
  homes the page when it is another. -/
  | ok (phys : Nat) (far : Bool) (dev : Option Nat)
  /-- A fault: cause, subcode, TRAPINFO0. -/
  | fault (cause sub : Nat) (info0 : Word)
  /-- The page-fault service must serve the page: far without FD, or absent and servable. -/
  | serve
  /-- The page is migrating. -/
  | migrating
deriving DecidableEq, Repr

/-- The fault of an entry's permissions (17 R370). -/
def permFault (lvl : Level) (k : AccKind) (x : Nat) : Option Nat :=
  if k = .read ∧ bitAt x 2 = false then some 2
  else if k = .write ∧ bitAt x 3 = false then some 3
  else if k = .fetch ∧ bitAt x 4 = false then some 13
  else if lvl = .user ∧ bitAt x 5 = false then some 12
  else none

/-- Where this device keeps its copies of another device's frames: the manual gives the region no address that an entry
names (17 R381), so a copy of frame f of device d is numbered 2^48 × (d + 1) + f (log entry 6). -/
def copyBase (dev : Nat) : Nat := 2 ^ 48 * (dev + 1)

/-- The state of a leaf, then its permissions (17 R370, R372, R490). A near leaf that names a frame of the far tier or of an expander
takes the far rules (20 R438). -/
def leafTrans (lvl : Level) (k : AccKind) (va x level : Nat) : Trans :=
  let big := decide (level = 2)
  let off := if big then va % 2 ^ 29 else va % 65536
  let go (far : Bool) (dev : Option Nat) (base : Nat) : Trans :=
    match permFault lvl k x with
    | some sub => .fault causeAccess sub 0
    | none => .ok (base + Pte.frame x + off) far dev
  let pf (reason : Nat) : Trans := .fault causePage 0 (BitVec.ofNat 32 (reason + level * 16))
  match Pte.state x with
  | 0 => go (isFar (Pte.frame x)) none 0
  | 1 => if big || bitAt x 12 then go true none 0 else .serve
  | 2 => .migrating
  | 3 => go true (some (Pte.dev x)) (copyBase (Pte.dev x))
  | 4 => go false none (copyBase (Pte.dev x))
  | 5 => if bitAt x 11 && !big then .serve else pf 3
  | _ => pf 4

/-- A cached translation of a core. -/
def Chip.tlbFind (c : Chip) (k ctx va : Nat) : Option TlbEntry :=
  (c.core k).tlb.find? (fun t => decide (t.ctx = ctx) && decide (t.page ≤ va / 65536) && decide (va / 65536 < t.page + t.span))

/-- Translating an address whose bits [63:55] are zero, through the core's TLB or by a walk (17 R370, R371). -/
def translate (e : State) (c : Chip) (k ctx : Nat) (lvl : Level) (va : Nat) (kind : AccKind) : Trans :=
  match c.tlbFind k ctx va with
  | some t => leafTrans lvl kind va t.entry.toNat (if t.span = 1 then 3 else 2)
  | none => match walk e c ctx va with
    | .leaf x _ level => leafTrans lvl kind va x level
    | .bad reason level => .fault causePage 0 (BitVec.ofNat 32 (reason + level * 16))
    | .poison sub => .fault causeUncorrectable sub 0

/-- A cached translation gives way in one core's TLB (17 R371, R386). -/
def Chip.tlbEvict (c : Chip) (k ctx va : Nat) : Chip :=
  c.setCore k { c.core k with tlb := (c.core k).tlb.filter (fun t =>
    !(decide (t.ctx = ctx) && decide (t.page ≤ va / 65536) && decide (va / 65536 < t.page + t.span))) }

/-- Entering a walk's leaf in a core's TLB; a leaf in state 2, 5 or 6 is not cached (17 R371). -/
def Chip.tlbFill (c : Chip) (k ctx va entry level : Nat) : Chip :=
  if Pte.state entry = 2 ∨ Pte.state entry = 5 ∨ Pte.state entry = 6 then c
  else match c.tlbFind k ctx va with
    | some _ => c
    | none =>
      let span := if level = 2 then 8192 else 1
      let t : TlbEntry := { ctx := ctx, page := va / 65536 / span * span, span := span, entry := BitVec.ofNat 64 entry }
      c.setCore k { c.core k with tlb := t :: (c.core k).tlb }

/-! Pages that other devices hold (17 R381 to R384). -/

/-- Every core of the device. -/
def Chip.allCores (c : Chip) : Sparse Core := (List.range Config.cores).map (fun k => (k, c.core k))

/-- A page that another device hands over (17 R384): each line holds what its home held, which is not this model's to say, at the page's
write time in this device's clock space, or its slice's memts if that is later; every core makes ClockAdvance of that time before it
accesses the page. The bytes and the time are free values (log entry 116). -/
def checkOutPage (e : State) (c : Chip) (base : Nat) : Chip :=
  let (v, c) := c.freeValue
  let t := c.timeBase + v.toNat % 2 ^ 23
  let c := (List.range 512).foldl (fun c i =>
    let ln := base / 128 + i
    let k := c.line e ln
    let (d, c) := (List.range 16).foldl (fun (p : Nat × Chip) j => let (v, c) := p.2.freeValue; (p.1 + v.toNat * 2 ^ (64 * j), c)) (0, c)
    let at_ := max (memts c ln) t
    let c := c.setLine ln { k with wts := at_, rts := at_, data := BitVec.ofNat 1024 d, dirty := allWords, poison := 0 }
    { c with cores := Sparse.mapVals (fun _ (x : Core) => { x with clk := min (2 ^ 48 - 1) (max x.clk at_) }) c.cores }) c
  { c with cores := Sparse.mapVals (fun _ (x : Core) => { x with clk := min (2 ^ 48 - 1) (max x.clk t) }) c.allCores }

/-- A page homed here that another device has checked out (17 R381). -/
def Pte.away (x : Nat) : Bool := decide (Pte.state x ≤ 1) && decide (Pte.share x = 2)

/-- Recalling a checkout: the holder is told, and hands the page's lines over (17 R384). -/
def recallCheckout (e : State) (c : Chip) (x level : Nat) : Chip :=
  let c := (List.range (if level = 2 then 8192 else 1)).foldl (fun c i => checkOutPage e c (Pte.frame x + 65536 * i)) c
  c.tell (bulk (Pte.dev x) opRecall (Pte.frame x))

/-- The first access through a translation sets A, and D for a write, with an atomic OR (17 R368). A write makes a read-shared
page home-only (17 R383), and any access recalls a page that another device has checked out, which is home-only again (R384). The
translation is cached. -/
def touch (e : State) (c : Chip) (k ctx va : Nat) (write : Bool) : Chip :=
  match walk e c ctx va with
  | .leaf x at_ level =>
    let c := if Pte.away x then recallCheckout e c x level else c
    let plain := if Pte.away x then x - 2 * 8192 - 2 ^ 48 * Pte.dev x else if write && decide (Pte.share x = 1) then x - 8192 else x
    let want := plain ||| 64 ||| (if write then 128 else 0)
    let c := if want = x then c else agentWrite e c none at_ 8 want
    c.tlbFill k ctx va want level
  | _ => c

/-- A relaxed read of a word renewed at its home at once, behind what is in progress at the line (12 R256, R257, 13 R297): what it
does to the line and to the core, as its request type says. A word the core owns is read in place; a host line and a far page give no
lease. -/
def renewAs (e : State) (c : Chip) (kind : BitVec 2) (k ctx p : Nat) : Chip :=
  let ln := lineOf p
  let h := c.line e ln
  if h.owner = some k ∧ maskOf p 4 &&& ~~~h.owned = 0 then c
  else
    let c := recallNow e (quietLine e (c.wakeBank p) ln) ln (maskOf p 4)
    let h := c.line e ln
    if isHost p || isFar p then c.dropStale k ln h.wts
    else
      let a : Access := { op := .fetch 0, core := k, ctx := ctx, phys := p, clk := (c.core k).clk, kind := kind }
      let r := renewEnd a h (c.ctx ctx).leaselen
      let c := (roomNow e c k ln).setLine ln { h with rts := max h.rts r }
      renewReply e c a h.wts r (some h.data) (if h.owner = some k then allWords else ~~~h.owned)

/-- The same as an LD.LS does it. -/
def renewNow (e : State) (c : Chip) (k ctx p : Nat) : Chip := renewAs e c 0 k ctx p

/-- A line owned by a core at once: what is in progress there answered, every other owner recalled, a host copy back-invalidated in the same
step (log entry 15), the line granted (12 R261). -/
def ownNow (e : State) (c : Chip) (k ctx p : Nat) : Chip :=
  let ln := lineOf p
  let c := quietLine e (c.wakeBank p) ln
  let c := if (c.line e ln).owner = some k then c else recallNow e c ln allWords
  let c := roomNow e c k ln
  grantOwned e (c.setLine ln { c.line e ln with hshare := false }) k ln ctx

/-- The page of an address is checked out to another device. -/
def pageAway (e : State) (c : Chip) (ctx va : Nat) : Bool :=
  match walk e c ctx va with
  | .leaf x _ _ => Pte.away x
  | _ => false

/-- A write that waits for the leases of a read-shared page ends the sharing at once: no further lease is granted (17 R383, R387). -/
def demotePage (e : State) (c : Chip) (ctx va : Nat) : Chip :=
  match walk e c ctx va with
  | .leaf x at_ _ => if Pte.state x ≤ 1 ∧ Pte.share x = 1 then agentWrite e c none at_ 8 (x - 8192) else c
  | _ => c

/-- The entries of a table in memory. -/
def tableAt (e : State) (c : Chip) (base : Nat) : List (Nat × Nat) :=
  (List.range 8192).filterMap (fun i => let x := peek e c (base + 8 * i) 8; if Pte.valid x then some (i, x) else none)

/-- The pages of a context whose entries are of a sort, by virtual address and frame. -/
def pagesOf (e : State) (c : Chip) (ctx : Nat) (ok : Nat → Bool) : List (Nat × Nat) :=
  let root := (c.ctx ctx).ptbase.toNat / 65536 * 65536 % 2 ^ 48
  (tableAt e c root).flatMap (fun p1 =>
    if Pte.leaf p1.2 || !tableOk e p1.2 then []
    else (tableAt e c (Pte.frame p1.2)).flatMap (fun p2 =>
      let va := p1.1 * 2 ^ 42 + p2.1 * 2 ^ 29
      if Pte.leaf p2.2 then
        (if leafOk e p2.2 2 && ok p2.2 then (List.range 8192).map (fun k => (va + 65536 * k, Pte.frame p2.2 + 65536 * k)) else [])
      else if !tableOk e p2.2 then []
      else (tableAt e c (Pte.frame p2.2)).filterMap (fun p3 =>
        if Pte.leaf p3.2 && leafOk e p3.2 3 && ok p3.2 then some (va + 65536 * p3.1, Pte.frame p3.2) else none)))

/-- The pages of every context whose entries are of a sort and map a frame of this device. -/
def mappers (e : State) (c : Chip) (p : Nat) (ok : Nat → Bool) : List (Nat × Nat) :=
  c.ctxs.flatMap (fun x => ((pagesOf e c x.1 (fun y => decide (Pte.state y ≤ 1) && ok y)).filter (fun q => decide (q.2 / 65536 = p / 65536))).map
    (fun q => (x.1, q.1)))

/-- A write named by its physical address makes every page that shares the frame home-only (17 R383). -/
def demoteFrame (e : State) (c : Chip) (p : Nat) : Chip :=
  (mappers e c p (fun y => decide (Pte.share y = 1))).foldl (fun c q => demotePage e c q.1 q.2) c

/-- An access named by its physical address recalls the frame from the device that has checked it out (17 R384). -/
def recallFrame (e : State) (c : Chip) (p : Nat) : Chip :=
  (mappers e c p Pte.away).foldl (fun c q => match walk e c q.1 q.2 with
    | .leaf x at_ level => agentWrite e (recallCheckout e c x level) none at_ 8 (x - 2 * 8192 - 2 ^ 48 * Pte.dev x)
    | _ => c) c

/-- Counting an access to a far-direct page of 64 KiB, whose entry is kept in sight (17 R375). -/
def countFar (e : State) (c : Chip) (ctx va : Nat) : Chip :=
  let x := c.ctx ctx
  if !x.drvcount then c
  else match walk e c ctx va with
    | .leaf y at_ 3 => if Pte.state y = 1 then
        c.setCtx ctx { x with
          farCount := Sparse.set x.farCount (va / 65536) (Sparse.get 0 x.farCount (va / 65536) + 1), farAt := Sparse.set x.farAt (va / 65536) at_ } else c
    | _ => c

/-- Whether this device's copy of another device's page may be read: a page lease of it holds (17 R382). -/
def leaseGood (e : State) (phys : Nat) : Bool :=
  match Sparse.find? e.board.leasesHeld (phys / 65536) with
  | some end_ => decide (e.board.dtick + 4 ≤ end_)
  | none => false

/-! Words watched (13 R296 to R298). -/

/-- The address is an offset in the thread's own team-local memory. -/
def watchLocal (ea : BitVec 64) : Bool := decide (ea.toNat / 2 ^ 32 = 2 ^ 31)

/-- The offset or physical byte of a watched word. -/
def watchPlace (e : State) (c : Chip) (t : Nat) (ea : BitVec 64) : Option Nat :=
  if watchLocal ea then some (ea.toNat % 2 ^ 32)
  else match translate e c (c.coreOf t) (c.ctxOf t) (c.thread t).level ea.toNat .read with
    | .ok p _ _ => some p
    | _ => none

/-- A watched word lies on a page homed on another device, with no lease of it held here (17 R381). -/
def watchRemote (e : State) (c : Chip) (t : Nat) (ea : BitVec 64) : Bool :=
  !watchLocal ea && match translate e c (c.coreOf t) (c.ctxOf t) (c.thread t).level ea.toNat .read with
    | .ok p _ (some _) => !leaseGood e p
    | _ => false

/-- A watched word lies on a page homed here that another device has checked out: its access waits for the recall (17 R381, R384). -/
def watchAway (e : State) (c : Chip) (t : Nat) (ea : BitVec 64) : Bool := !watchLocal ea && pageAway e c (c.ctxOf t) ea.toNat

/-- Arming a thread's slot on a word, replacing what was armed: fired is cleared, a global word enters the lookout, and the word is
accessed as an LD accesses it (13 R296, R297). The home of another device's page is told of the watch (12 R267). -/
def armWatch (e : State) (c : Chip) (t : Nat) (ea : BitVec 64) : Chip :=
  match watchPlace e c t ea with
  | none => c
  | some p =>
    let c := c.setThread t { c.thread t with watch := { armed := some (ea, p), fired := false } }
    if watchLocal ea then c
    else
      let k := c.coreOf t
      let x := c.ctxOf t
      let c := touch e c k x ea.toNat false
      match translate e c k x (c.thread t).level ea.toNat .read with
      | .ok _ far dev =>
        let c := if far && dev.isNone then countFar e c x ea.toNat else c
        let c := match dev with
          | some d => c.tell { unitMessage d p 4 false 0 with op := opWatch }
          | none => c
        let c := c.register k p
        if dev.isSome && !leaseGood e p then c
        else
          let c := renewNow e c k x p
          c.see t (c.line e (lineOf p)).wts
      | _ => c

/-- The value of a watched word, and its poison's subcode; what another device's word holds is not this model's to say (log entry
6). -/
def watchRead (e : State) (c : Chip) (t : Nat) (ea : BitVec 64) : Word × Option Nat :=
  let k := c.team (c.teamOf t)
  match watchPlace e c t ea with
  | none => (0, none)
  | some p =>
    if watchLocal ea then (BitVec.ofNat 32 (Memory.readN k.lmem p 4), if k.lpoison.contains (p / 4) then some 3 else none)
    else if watchRemote e c t ea then ((Config.freeBits (2 ^ 64 * (t + 1) + c.free)).setWidth 32, none)
    else (BitVec.ofNat 32 (coreView e c (c.coreOf t) p 4), poisonAt e c p 4)

/-- A value of another device has been read: the next one is another free value. -/
def Chip.nextFree (c : Chip) (used : Bool) : Chip := if used then { c with free := c.free + 1 } else c

/-- The bank that homes a watched global word is still waking: an access to it stalls (23 R481). -/
def watchStalls (e : State) (c : Chip) (t : Nat) (ea : BitVec 64) : Bool :=
  match watchPlace e c t ea with
  | some p => !watchLocal ea && c.bankWaking p
  | none => false

/-- A slot shows a write that its read did not see. -/
def Chip.fireSlot (c : Chip) (t : Nat) : Chip := c.setThread t { c.thread t with watch := { (c.thread t).watch with fired := true } }

/-- Firing every watcher of a page frame and taking the frame's entries out of the lookout: the words have moved (17 R373; log entry
112). -/
def Chip.fireFrame (c : Chip) (frame size : Nat) : Chip :=
  { c with
    lookout := c.lookout.filter (fun x => !(decide (frame ≤ 128 * x.line) && decide (128 * x.line < frame + size)))
    threads := Sparse.mapVals (fun _ t => match t.watch.armed with
      | some (ea, q) => if ea.getLsbD 63 = false ∧ frame ≤ q ∧ q < frame + size then { t with watch := { t.watch with fired := true } } else t
      | none => t) c.threads }

/-- The doors of faulted queues in a page that has moved. -/
def Chip.moveDoors (c : Chip) (src dst size : Nat) : Chip :=
  { c with doors := c.doors.foldl (fun m p => Sparse.set m (if src ≤ p.1 ∧ p.1 < src + size then dst + (p.1 - src) else p.1) p.2) ([] : Sparse Bool) }

/-- A thread's slot is disarmed; its core leaves the lookout entry where no other thread of it watches the line. -/
def Chip.disarm (c : Chip) (t : Nat) (fired : Bool) : Chip :=
  let w := (c.thread t).watch
  let c := c.setThread t { c.thread t with watch := { armed := none, fired := fired } }
  match w.armed with
  | none => c
  | some (ea, p) =>
    let k := c.coreOf t
    let others := c.threads.any (fun q => decide (c.coreOf q.1 = k) && match q.2.watch.armed with
      | some (eb, r) => !watchLocal eb && decide (lineOf r = lineOf p)
      | none => false)
    if watchLocal ea || others then c
    else
      let l := c.lookout.map (fun x => if x.line = lineOf p then { x with cores := x.cores.filter (· != k) } else x)
      { c with lookout := l.filter (fun x => !(x.cores.isEmpty && x.coarse.isNone)) }

/-- Removing a page, or every page of a context, from every TLB of the device (17 R373, R386). -/
def Chip.shoot (c : Chip) (ctx : Nat) (va : Option Nat) : Chip :=
  { c with cores := Sparse.mapVals (fun _ k => { k with tlb := k.tlb.filter (fun t =>
      !(decide (t.ctx = ctx) && (match va with
        | none => true
        | some a => decide (t.page ≤ a / 65536) && decide (a / 65536 < t.page + t.span)))) }) c.cores }

end Sys2Proof.Machine
end

