-- ==== Sys2Proof/Machine/Ops.lean ====
section
/-! DEFINITION. Named operations over the machine: pens and the fold (07 R137, R138), the error queue (19 R436, R437), handles
(14 R304), the kill of a context (18 R414), taking a trap (19 R425, R426) and returning from one (19 R432, 22 R470). -/

namespace Sys2Proof.Machine

/-! Groups and lanes. -/

/-- Protected launch mode (21 R456). -/
def Chip.guarded (c : Chip) (t : Nat) : Bool := (c.team (c.teamOf t)).guarded
/-- A visible lane: every lane outside protected mode, the even ones in it (21 R456). -/
def Chip.visible (c : Chip) (t : Nat) : Bool := !c.guarded t || decide (laneOf t % 2 = 0)
/-- The thread that acts for a thread: its visible lane in protected mode, itself outside it (21 R456). -/
def Chip.leadOf (c : Chip) (t : Nat) : Nat := if c.guarded t then t / 2 * 2 else t
/-- The mask bit that names a thread's home lane, or its pair (07 R110, 21 R456). -/
def Chip.laneBit (c : Chip) (t : Nat) : Nat := if c.guarded t then laneOf t / 2 else laneOf t
/-- The threads of a group that are present and not exited, in lane order. -/
def Chip.alive (c : Chip) (g : Nat) : List Nat := ((List.range 32).map (fun l => 32 * g + l)).filter c.active
/-- The groups of a team. -/
def Chip.groupsOf (c : Chip) (team : Nat) : List Nat := Sparse.keysWhere (fun _ g => decide (g.team = team)) c.groups
/-- The threads of a team that are present and not exited. -/
def Chip.teamThreads (c : Chip) (team : Nat) : List Nat := (c.groupsOf team).flatMap c.alive
/-- The mask of the lanes named by a list of threads. -/
def Chip.maskOfThreads (c : Chip) (l : List Nat) : Word :=
  l.foldl (fun m t => m ||| BitVec.ofNat 32 (2 ^ c.laneBit t)) 0
/-- Reading a mask: bits [31:16] read zero in protected mode (21 R456). -/
def Chip.readM (c : Chip) (g k : Nat) : Word :=
  if (c.team (c.group g).team).guarded then c.mask g k &&& 0xFFFF else c.mask g k

/-! Code regions and entry into chains (03 R35 to R37, 07 R144). -/

/-- The loaded code region of a context that holds an address. -/
def Chip.region? (c : Chip) (ctx pc : Nat) : Option Region :=
  (c.ctx ctx).regions.find? (fun r => decide (r.base ≤ pc) && decide (pc < r.base + r.len))

/-- The code base of a stencil slot's routine in firmware memory, which the manual does not place (22 R470, R472; log
entry 7). -/
def routineBase (slot : Nat) : Nat := 2 ^ 54 + 2 ^ 32 * slot

/-- The slot of a word in its packet (03 R35). -/
def slotOf (base pc : Nat) : Nat := (pc - base) / 4 % 3

/-- The word at a code address as the core sees it now; none where it cannot be fetched. -/
def codeWord (e : State) (c : Chip) (k ctx : Nat) (lvl : Level) (pc : Nat) : Option Nat :=
  if lvl = .firmware then
    let sl := (pc - 2 ^ 54) / 2 ^ 32
    some (((c.slot sl).code.drop ((pc - routineBase sl))).take 4 |>.foldr (fun b n => b.toNat + 256 * n) 0)
  else match translate e c k ctx lvl pc .fetch with
    | .ok p _ _ => some (coreView e c k p 4)
    | _ => none

/-- The page of the word before a transfer's target is held for fetch (17 R372): whether the transfer enters a chain cannot be told yet. -/
def targetHeld (e : State) (c : Chip) (k ctx : Nat) (lvl : Level) (pc : Addr) : Option Nat :=
  let a := pc.toNat
  if lvl = .firmware ∨ a % 4 ≠ 0 ∨ ((c.region? ctx a).all (fun r => decide (slotOf r.base a = 0))) = true then none
  else match translate e c k ctx lvl (a - 4) .fetch with
    | .serve => some (a - 4)
    | .migrating => some (a - 4)
    | _ => none

/-- The CHAIN_FAULT subcode of a transfer to an address, if any (07 R144): 4 for low bits, 3 for entry into a chain. -/
def badTarget (e : State) (c : Chip) (k ctx : Nat) (lvl : Level) (pc : Addr) : Option Nat :=
  let a := pc.toNat
  if a % 4 ≠ 0 then some 4
  else
    let base := if lvl = .firmware then some (routineBase ((a - 2 ^ 54) / 2 ^ 32)) else (c.region? ctx a).map (·.base)
    match base with
    | none => none
    | some b =>
      if slotOf b a = 0 then none
      else match codeWord e c k ctx lvl (a - 4) with
        | some w => if bitAt w 31 then some 3 else none
        | none => none

/-! Pens and the fold. -/

/-- The threads of a croft that hold a pen. -/
def Chip.penThreads (c : Chip) (croft pen : Nat) : List Nat :=
  Sparse.keysWhere (fun _ t => decide (t.present = true) && decide (t.place = .pen pen)) c.threads |>.filter (fun t => decide (c.croftOf t = croft))

/-- The pen in use with a key. -/
def Croft.penOf (f : Croft) (ctx : Nat) (lvl : Level) (pc : Addr) : Option Nat :=
  (List.find? (fun (p : Nat × Pen) => decide (p.2.ctx = ctx) && decide (p.2.level = lvl) && decide (p.2.pc = pc)) f.pens).map (·.1)

/-- The lowest free pen. -/
def Croft.freePen (f : Croft) : Option Nat := (List.range Config.pens).find? (fun i => (Sparse.find? f.pens i).isNone)

/-- Putting threads in a pen. -/
def Chip.putPen (c : Chip) (p : Nat) (s : List Nat) : Chip :=
  s.foldl (fun c t => c.setThread t { c.thread t with place := .pen p }) c

/-- Putting threads in the fold: they join the class of their key, or form the newest class (07 R138). -/
def Chip.putFold (c : Chip) (croft ctx : Nat) (lvl : Level) (pc : Addr) (s : List Nat) : Chip :=
  let f := c.croft croft
  let same := fun (k : FoldClass) => decide (k.ctx = ctx) && decide (k.level = lvl) && decide (k.pc = pc)
  let fold := if f.fold.any same then f.fold.map (fun k => if same k then { k with threads := k.threads ++ s } else k)
    else f.fold ++ [{ ctx := ctx, level := lvl, pc := pc, threads := s }]
  let c := c.setCroft croft { f with fold := fold }
  s.foldl (fun c t => c.setThread t { c.thread t with place := .fold }) c

/-- A pen under a new key: its counters stand, as they reset only when the pen issues (07 R141). -/
def Croft.rekeyed (f : Croft) (pen ctx : Nat) (lvl : Level) (pc : Addr) : Pen :=
  { ((Sparse.find? f.pens pen).orElse (fun _ => Sparse.find? f.freed pen)).getD { ctx := ctx, level := lvl, pc := pc } with
    ctx := ctx, level := lvl, pc := pc, code := none }

/-- A pen that no thread holds any longer passes to the oldest fold class, or becomes free (07 R138). -/
def Chip.passPen (c : Chip) (croft pen : Nat) : Chip :=
  let f := c.croft croft
  if c.penThreads croft pen ≠ [] then c
  else match f.fold with
    | [] => c.setCroft croft { f with pens := Sparse.erase f.pens pen, freed := match Sparse.find? f.pens pen with
        | some p => Sparse.set f.freed pen { p with code := none }
        | none => f.freed }
    | k :: rest =>
      (c.setCroft croft { f with pens := Sparse.set f.pens pen (f.rekeyed pen k.ctx k.level k.pc), fold := rest }).putPen pen k.threads

/-- A move of threads of one croft from a pen, or from none, to a key (07 R138). -/
def Chip.move (c : Chip) (croft : Nat) (s : List Nat) (src : Option Nat) (ctx : Nat) (lvl : Level) (pc : Addr) : Chip :=
  let f := c.croft croft
  let last := match src with
    | some p => (c.penThreads croft p).all (fun t => s.contains t)
    | none => false
  match f.penOf ctx lvl pc with
  | some q =>
    let c := c.putPen q s
    match src with
    | some p => if p = q then c else c.passPen croft p
    | none => c
  | none =>
    match src, last with
    | some p, true =>
      match f.fold with
      | [] => (c.setCroft croft { f with pens := Sparse.set f.pens p (f.rekeyed p ctx lvl pc) }).putPen p s
      | k :: rest =>
        let c := c.setCroft croft { f with pens := Sparse.set f.pens p (f.rekeyed p k.ctx k.level k.pc), fold := rest }
        let c := c.putPen p k.threads
        if k.ctx = ctx ∧ k.level = lvl ∧ k.pc = pc then c.putPen p s else c.putFold croft ctx lvl pc s
    | _, _ =>
      match f.freePen with
      | some q => (c.setCroft croft { f with pens := Sparse.set f.pens q (f.rekeyed q ctx lvl pc) }).putPen q s
      | none => c.putFold croft ctx lvl pc s

/-- A thread leaves its pen or the fold for another place. -/
def Chip.leave (c : Chip) (t : Nat) (place : Place) : Chip :=
  let x := c.thread t
  let k := c.croftOf t
  let c1 := c.setThread t { x with place := place }
  match x.place with
  | .pen p => c1.passPen k p
  | .fold =>
    let f := c1.croft k
    c1.setCroft k { f with fold := (f.fold.map (fun q => { q with threads := q.threads.filter (· != t) })).filter (fun q => !q.threads.isEmpty) }
  | _ => c1

/-- The pen a thread holds. -/
def Chip.penOfThread (c : Chip) (t : Nat) : Option Nat := match (c.thread t).place with | .pen p => some p | _ => none

/-- One thread moves to a level and PC (07 R138). -/
def Chip.moveThread (c : Chip) (t : Nat) (lvl : Level) (pc : Addr) : Chip :=
  let src := c.penOfThread t
  let c := match (c.thread t).place with
    | .fold => c.leave t (.saved false)
    | _ => c
  let c := c.setThread t { c.thread t with pc := pc, level := lvl }
  c.move (c.croftOf t) [t] src (c.ctxOf t) lvl pc

/-- The moves of one cycle: the threads of a croft that share a key move together, in the order of their lowest home lane (07
R138). -/
def Chip.moveAll (c : Chip) (ts : List Nat) : Chip :=
  let ts := sortBy laneOf ts
  let key := fun t => (c.croftOf t, (c.thread t).level, (c.thread t).pc)
  ((ts.map key).reverse.dedup).reverse.foldl (fun d k =>
    match ts.filter (fun t => decide (key t = k)) with
    | [] => d
    | t :: rest => d.move k.1 (t :: rest) (d.penOfThread t) (d.ctxOf t) k.2.1 k.2.2) c

/-! Handles (14 R304). -/

/-- Writing an operation's status word to every register that still holds its reference. -/
def Thread.resolve (t : Thread) (h : Nat) (status : Word) : Thread :=
  let fix := fun (r : Reg) => if r.wait = some (.handle h) then { r with bits := status, tag := tagHandle, wait := none } else r
  { t with regs := Sparse.mapVals (fun _ r => fix r) t.regs, fhandle := fix t.fhandle }

/-- An operation resolves: its status word is written and its entry freed. -/
def Chip.resolve (c : Chip) (h : Nat) (status : Word) : Chip :=
  { c with threads := Sparse.mapVals (fun _ t => t.resolve h status) c.threads, handles := Sparse.erase c.handles h }

/-- An entry of a core's handle table: copies, press operations and launches take one, a soft fault's page does not (14 R304). -/
def HandleOf.listed : HandleOf → Bool
  | .page .. => false
  | _ => true

/-- Entries of a core's handle table in use. -/
def Chip.handlesOf (c : Chip) (core : Nat) : Nat := (c.handles.filter (fun p => decide (p.2.core = core) && p.2.of.listed)).length

/-- Taking an entry. -/
def Chip.newHandle (c : Chip) (core : Nat) (of : HandleOf) : Nat × Chip :=
  let (h, c) := c.fresh
  (h, c.setHandle h { core := core, of := of })

/-- The register that holds a fresh reference to a handle. -/
def handleReg (h : Nat) : Reg := { bits := 0, tag := tagHandle, wait := some (.handle h) }

/-! The error queue (19 R436, R437). -/

/-- An error record; fields its source does not supply keep their defaults. -/
structure ErrRec where
  cause : Nat
  sub : Nat := 0
  source : Nat
  killed : Bool := false
  imprecise : Bool := false
  tid : Nat := 0xFFFFFFFF
  pc : Nat := 0
  addr : Nat := 0
  x : Nat := 0xFFFFFFFF
  y : Nat := 0xFFFFFFFF
  z : Nat := 0xFFFFFFFF
  i0 : Word := 0
  i1 : Word := 0
  i2 : Word := 0
  i3 : Word := 0
  core : Option Nat := none

/-- TID as SRD reads it (08 R180, 07 R153, 21 R456). -/
def Chip.tidOf (c : Chip) (t : Nat) : Nat :=
  let g := c.group (groupOf t)
  if g.spawned then 0xFFFFFFFF
  else if c.guarded t then 16 * g.ix.toNat + laneOf t / 2 else 32 * g.ix.toNat + laneOf t

/-- The record's 64 bytes as a number. -/
def ErrRec.bits (r : ErrRec) (clk : Nat) : Nat :=
  let w0 := r.cause + 256 * r.sub + 65536 * r.source + (if r.killed then 2 ^ 24 else 0) + (if r.imprecise then 2 ^ 25 else 0)
  w0 + 2 ^ 32 * r.tid + 2 ^ 64 * r.pc + 2 ^ 128 * r.addr + 2 ^ 192 * r.x + 2 ^ 224 * r.y + 2 ^ 256 * r.z +
    2 ^ 288 * r.i0.toNat + 2 ^ 320 * r.i1.toNat + 2 ^ 352 * r.i2.toNat + 2 ^ 384 * r.i3.toNat + 2 ^ 448 * clk

/-! Bases of a context's structures: a unit takes the bits below a base's alignment, and those above the virtual address, as zero (log
entry 71). -/

/-- The queue table (09 R186). -/
def Ctx.table (x : Ctx) : Nat := x.qtbase.toNat % 2 ^ 55 / 8 * 8
/-- The drover's command ring and the frame pool (17 R369). -/
def Ctx.ring (x : Ctx) : Nat := x.drvqbase.toNat % 2 ^ 55 / 4096 * 4096
def Ctx.pool (x : Ctx) : Nat := x.poolbase.toNat % 2 ^ 55 / 8192 * 8192
/-- The save area and the checkpoint area (18 R388): physical. -/
def Ctx.area (x : Ctx) : Nat := x.savebase.toNat / 65536 * 65536
def Ctx.areaLen (x : Ctx) : Nat := x.savelen.toNat / 65536 * 65536
def Ctx.ckptArea (x : Ctx) : Nat := x.ckptbase.toNat / 65536 * 65536

/-- The line of a byte is read up to a time, so that a write of it is later. -/
def readUpTo (e : State) (c : Chip) (p t : Nat) : Chip :=
  let c := recallNow e c (lineOf p) allWords
  let h := c.line e (lineOf p)
  c.setLine (lineOf p) { h with rts := max h.rts t }

/-! Writes of the device's own units to a context's memory (17 R372, R373, R381, R383, 18 R418). -/

/-- A write of a unit is held: its page is to be served, moves, is marked copy-on-write, or has leases out. -/
def deviceHeld (e : State) (c : Chip) (ctx va : Nat) : Bool :=
  match translate e c 0 ctx .supervisor va .write with
  | .ok p _ none => c.cowHeld p || leasePending e p
  | .ok .. => false
  | .fault .. => false
  | .serve => true
  | .migrating => true

/-- A word written by a unit, later than a time where one is given; a message takes it to the device that homes its page; where it does not
translate nothing is written. -/
def deviceWord (e : State) (c : Chip) (ctx va size data after : Nat) : Chip :=
  match translate e c 0 ctx .supervisor va .write with
  | .ok p _ none =>
    let c := touch e c 0 ctx va true
    agentWrite e (if after = 0 then c else readUpTo e c p after) none p size data
  | .ok p _ (some d) => c.tell (unitMessage d p size true data)
  | _ => c

/-- The next slot of a context's error queue: none where the queue is full. -/
def errorSlot (e : State) (c : Chip) (ctx p : Nat) : Option Nat :=
  let x := c.ctx ctx
  let tail := peek e c (p + 4) 4
  if (tail + 2 ^ 32 - peek e c p 4) % 2 ^ 32 < 2 ^ x.errqlen then some (x.errqbase.toNat + 64 + 64 * (tail % 2 ^ x.errqlen)) else none

/-- An error record: its 64 bytes, then the tail with a release, so later than the record; or one more lost, where the queue is full or the
record's place does not translate (19 R436). -/
def recordNow (e : State) (c : Chip) (ctx bits : Nat) : Chip :=
  let x := c.ctx ctx
  match translate e c 0 ctx .supervisor x.errqbase.toNat .write with
  | .ok p _ none =>
    let c := touch e c 0 ctx x.errqbase.toNat true
    let lose := fun (c : Chip) => agentWrite e c none (p + 8) 4 (min (peek e c (p + 8) 4 + 1) 0xFFFFFFFF)
    match errorSlot e c ctx p with
    | none => lose c
    | some va => match translate e c 0 ctx .supervisor va .write with
      | .ok q _ none =>
        let c := agentWriteWords e none 16 (touch e c 0 ctx va true) q bits
        agentWrite e (readUpTo e c p (c.line e (lineOf q)).wts) none (p + 4) 4 ((peek e c (p + 4) 4 + 1) % 2 ^ 32)
      | .ok q _ (some d) =>
        let c := c.tell (unitMessage d q 64 true bits)
        agentWrite e c none (p + 4) 4 ((peek e c (p + 4) 4 + 1) % 2 ^ 32)
      | _ => lose c
  | .ok p _ (some d) => c.tell (unitMessage d p 64 true bits)
  | _ => c

/-- Whether a unit's write must wait now. -/
def Deferred.held (e : State) (c : Chip) : Deferred → Bool
  | .word ctx va _ _ _ => deviceHeld e c ctx va
  | .record ctx _ =>
    let base := (c.ctx ctx).errqbase.toNat
    deviceHeld e c ctx base || match translate e c 0 ctx .supervisor base .write with
      | .ok p _ none => (errorSlot e c ctx p).any (deviceHeld e c ctx)
      | _ => false

/-- Where a unit's write goes first. -/
def Deferred.page (c : Chip) : Deferred → Nat × Nat
  | .word ctx va _ _ _ => (ctx, va / 65536)
  | .record ctx _ => (ctx, (c.ctx ctx).errqbase.toNat / 65536)

/-- A unit's write: at once, or behind what is held on its page; a wait for leases ends the sharing (17 R383). -/
def defer (e : State) (c : Chip) (d : Deferred) : Chip :=
  if d.held e c || c.deferred.any (fun x => decide (x.page c = d.page c)) then
    let c := demotePage e c (d.page c).1 (65536 * (d.page c).2)
    { c with deferred := c.deferred ++ [d] }
  else match d with
    | .word ctx va size data after => deviceWord e c ctx va size data after
    | .record ctx bits => recordNow e c ctx bits

/-- The writes held are tried again, oldest first. -/
def flushDeferred (e : State) (c : Chip) : Chip := c.deferred.foldl (fun c d => defer e c d) { c with deferred := [] }

/-- Writing an error record to a context's queue (19 R436). -/
def errorRecord (e : State) (c : Chip) (ctx : Nat) (r : ErrRec) : Chip :=
  let x := c.ctx ctx
  if x.errqlen = 0 ∨ x.errqbase = 0 then c
  else defer e c (.record ctx (r.bits (r.core.elim 0 (fun k => (c.core k).clk))))

/-- A record charged to a thread. -/
def Chip.threadRec (c : Chip) (t : Nat) (cause sub source : Nat) (pc addr : Nat) (i0 i1 i2 i3 : Word) : ErrRec :=
  let k := c.team (c.teamOf t)
  { cause := cause, sub := sub, source := source, tid := c.tidOf t, pc := pc, addr := addr, x := k.x, y := k.y, z := k.z
    i0 := i0, i1 := i1, i2 := i2, i3 := i3, core := k.core }

/-! The kill of a context (18 R414). -/

/-- Writing a completion word once, with a release at system scope (08 R184, 09 R197): later than the retirement of every team,
so that a reader who acquires it reads no older lease. A launch with address 0 has none. -/
def writeCompletion (e : State) (c : Chip) (l : Launch) (word : Nat) : Chip :=
  if l.doneAddr = 0 then c else defer e c (.word l.ctx l.doneAddr 4 word l.clk)

/-- Taking the threads, groups, teams, clusters and bins of a list of teams off the tables, with what is theirs on their
cores. Stores and read-modify-writes already committed stay to be performed once (10 R226). -/
def Chip.removeTeams (c : Chip) (ts : List Nat) : Chip :=
  let gone := fun t => ts.contains (c.teamOf t)
  let gs := Sparse.keysWhere (fun _ g => ts.contains g.team) c.groups
  let crofts := (gs.map (fun g => (c.group g).croft)).dedup
  let c1 := { c with
    accesses := (c.accesses.filter (fun p => !(gone p.2.th) || p.2.writes)).map (fun p => if gone p.2.th then (p.1, { p.2 with takers := [], detached := true }) else p)
    batches := c.batches.filter (fun p => !gone p.2.th)
    press := c.press.filter (fun p => !(ts.contains p.2.team))
    pubs := c.pubs.filter (fun p => !(gs.contains p.2.group))
    threads := c.threads.filter (fun p => !(gs.contains (groupOf p.1)))
    groups := c.groups.filter (fun p => !(gs.contains p.1))
    teams := c.teams.filter (fun p => !(ts.contains p.1))
    clusters := c.clusters.filter (fun p => !(p.2.teams.all (fun t => ts.contains t)))
    granted := c.granted.filter (fun t => !gone t)
    cores := Sparse.mapVals (fun _ k => { k with
      bins := k.bins.filter (fun b => !(ts.contains b.2.team))
      remap := k.remap.filter (fun t => !(ts.contains t))
      plates := Sparse.mapVals (fun _ p => match p.owner with
        | some o => if ts.contains o.team then { p with owner := none } else p
        | none => p) k.plates }) c.cores
    crofts := Sparse.mapVals (fun i f => if crofts.contains i then
      { f with fold := (f.fold.map (fun q => { q with threads := q.threads.filter (fun t => !gone t) })).filter (fun q => !q.threads.isEmpty) } else f) c.crofts
    handles := c.handles.filter (fun p => match p.2.of with
      | .batch b => !(match Sparse.find? c.batches b with | some x => gone x.th | none => false)
      | .press q => !(match Sparse.find? c.press q with | some x => ts.contains x.team | none => false)
      | .publication q _ => !(match Sparse.find? c.pubs q with | some x => gs.contains x.group | none => false)
      | _ => true) }
  crofts.foldl (fun c i => (c.croft i).pens.foldl (fun c p => c.passPen i p.1) c) c1

/-- Clearing the owner tags that meet a condition (08 R182, 18 R414). -/
def Chip.disown (c : Chip) (f : PlateOwner → Bool) : Chip :=
  let fix := fun (p : Plate) => match p.owner with
    | some o => if f o then { p with owner := none } else p
    | none => p
  { c with cores := Sparse.mapVals (fun _ k => { k with plates := Sparse.mapVals (fun _ p => fix p) k.plates }) c.cores }

/-- The handles of a context's launches and page-fault services leave the tables. -/
def Chip.dropHandles (c : Chip) (ctx : Nat) : Chip :=
  { c with handles := Sparse.only (fun _ (h : Handle) => match h.of with
      | .launch x _ => decide (x ≠ ctx)
      | .page x _ => decide (x ≠ ctx)
      | _ => true) c.handles }

/-- Killing a context: its teams removed without a save, its copies and press entries dropped, the completion words of its
launches written with state 2, its plates and staging discarded, and one error record written (18 R414). -/
def kill (e : State) (c : Chip) (ctx cause : Nat) (r : ErrRec) : Chip :=
  let x := c.ctx ctx
  if x.state = .killed ∨ x.state = .retired then c
  else
    let ts := Sparse.keysWhere (fun _ t => decide (t.ctx = ctx)) c.teams
    let c := c.removeTeams ts
    let c := c.launches.foldl (fun c p =>
      if p.2.ctx = ctx ∧ p.2.state ≠ .retired ∧ p.2.state ≠ .killed then
        let c := writeCompletion e c p.2 (2 * 2 ^ 28 + cause)
        let c := c.setLaunch p.1 { p.2 with state := .killed }
        match p.2.handle with
        | some h => c.resolve h (BitVec.ofNat 32 (2 * 2 ^ 28 + cause))
        | none => c
      else c) c
    let c := (c.dropHandles ctx).disown (fun o => decide (o.ctx = ctx))
    let c := c.setCtx ctx { x with
      state := CtxState.killed
      res := if x.current.isSome || x.preempt.isSome then 3 else x.res
      requests := []
      current := none
      ckpts := x.ckpts.filter (fun p => decide (p.2.state = .complete))
      cow := [] }
    errorRecord e c ctx { r with killed := true }

/-! Taking a trap, and returning from one. -/

/-- TRAPCAUSE of a cause taken at a level, in or out of continuation (19 R425). -/
def trapCauseWord (cause : Nat) (lvl : Level) (cont : Bool) : Word :=
  BitVec.ofNat 32 (cause + 256 * lvl.code + (if cont then 1024 else 0))

/-- Whether the chain at `pc` may not take its trap: no vector, a vector that breaks R36 or R144, or a trap that the chain
at TRAPVEC itself raises at supervisor level (19 R426). `pc` is the chain's first word. DESIGN CHOICE (log entry 139): where the word
before TRAPVEC cannot be read yet, the vector is not found to enter a chain. -/
def trapRefused (e : State) (c : Chip) (t : Nat) (pc : Addr) : Bool :=
  let x := c.ctx (c.ctxOf t)
  decide (x.trapvec = 0) || decide (x.trapvec.toNat / 2 ^ 55 ≠ 0) ||
    (badTarget e c (c.coreOf t) (c.ctxOf t) .supervisor x.trapvec).isSome ||
    (decide ((c.thread t).level = .supervisor) && decide (pc = x.trapvec))

/-- Which causes write an error record when their trap is entered (19 R427), with the record's source. -/
def recordSource (cause : Nat) : Option Nat :=
  if cause = causeUncorrectable then some 6 else if cause = causeMismatch then some 1 else none

/-- The address of an error record (19 R437): what TRAPINFO2 and TRAPINFO3 hold where they hold an address, and not the index of a
register, a plate or an entry (21 R454). -/
def recordAddr (cause sub info : Nat) : Nat :=
  if cause = causePage ∨ cause = causeAccess ∨ cause = causeAlign then info
  else if cause = causeUncorrectable ∧ sub ≠ 2 ∧ sub ≠ 4 ∧ sub ≠ 10 then info
  else 0

/-- Taking a trap (19 R425), but for the move to TRAPVEC: TRAPPC names the chain's first word, or the word after the chain
where the chain has committed; TRAPCAUSE holds the cause, the level and the in-continuation flag; the level becomes
supervisor and the PC TRAPVEC. `pc` is the chain's first word and `ret` what TRAPPC receives. Where R426 forbids the entry
the context is killed; so it is when a stencil routine traps (22 R470). -/
def enterTrap (e : State) (c : Chip) (t : Nat) (pc ret : Addr) (cause : Nat) (i0 i1 i2 i3 : Word) : Chip :=
  let th := c.thread t
  let ctx := c.ctxOf t
  let sub := fieldNat i1.toNat 4 4
  let addr := recordAddr cause sub (i2.toNat + 2 ^ 32 * i3.toNat)
  let r := { c.threadRec t cause sub 1 ret.toNat addr i0 i1 i2 i3 with imprecise := decide (cause = causeUncorrectable ∧ fieldNat i0.toNat 0 9 ≠ 0) }
  if th.level = .firmware then kill e c ctx cause { r with source := 8 }
  else if trapRefused e c t pc then kill e c ctx cause { r with source := 7 }
  else
    let c := match recordSource cause with
      | some s => errorRecord e c ctx { r with source := s }
      | none => c
    let th := c.thread t
    c.setThread t { th with
      trap := { pc := ret, cause := trapCauseWord cause th.level th.cont, info0 := i0, info1 := i1, info2 := i2, info3 := i3 }
      level := .supervisor
      pc := (c.ctx ctx).trapvec
      grants := []
      patched := none
      entering := false
      held := none }

/-- Whether a thread is still on the tables. -/
def Chip.exists? (c : Chip) (t : Nat) : Bool := (c.thread t).present

/-- Taking a trap with its move (19 R425): for a trap that no issue of a chain raises. -/
def takeTrap (e : State) (c : Chip) (t : Nat) (pc ret : Addr) (cause : Nat) (i0 i1 i2 i3 : Word) : Chip :=
  let c := enterTrap e c t pc ret cause i0 i1 i2 i3
  if c.exists? t then c.moveThread t (c.thread t).level (c.thread t).pc else c

/-- Returning from a trap: the level and PC that TRET restores (19 R432), or that the emulation words give (22 R470). -/
def trapReturn (th : Thread) : Nat × Addr :=
  if th.level = .firmware then (fieldNat th.emu.ctl.toNat 0 2, th.emu.npc) else (fieldNat th.trap.cause.toNat 8 2, th.trap.pc)

/-- The CHAIN_FAULT subcode of a transfer to the continuation vector of a thread's team, if any (03 R36, R53). -/
def badContinuation (e : State) (c : Chip) (t : Nat) : Option Nat :=
  badTarget e c (c.coreOf t) (c.ctxOf t) (c.thread t).level (c.team (c.teamOf t)).contvec

/-- Entering a soft-fault continuation (17 R377): FPC names the chain, FHANDLE the service of the page, which the threads
that fault on it share, and the thread goes on at CONTVEC in continuation; the move is its caller's. -/
def enterSoftFault (c : Chip) (t : Nat) (pc : Addr) (va : Nat) : Chip :=
  let ctx := c.ctxOf t
  let page := va / 65536 * 65536
  let (h, c) := match List.find? (fun (p : Nat × Handle) => decide (p.2.of = .page ctx page)) c.handles with
    | some p => (p.1, c)
    | none => c.newHandle (c.coreOf t) (.page ctx page)
  c.setThread t { c.thread t with
    fpc := pc, fhandle := handleReg h, cont := true, held := none, grants := [], patched := none, pc := (c.team (c.teamOf t)).contvec }

/-- Entering a stencil slot's emulation routine (22 R470): the thread goes on at firmware level at the routine's entry; the
move is its caller's. -/
def enterEmulate (c : Chip) (t : Nat) (pc : Addr) (slot : Nat) (word : Word) (cause : Nat) : Chip :=
  let th := c.thread t
  c.setThread t { th with
    emu := { pc := pc, npc := pc + 4, ctl := BitVec.ofNat 32 (th.level.code + 16 * slot + 256 * cause), word := word }
    level := .firmware
    pc := BitVec.ofNat 64 (routineBase slot + (c.slot slot).entry)
    grants := []
    patched := none }

end Sys2Proof.Machine
end

