-- ==== Sys2Proof/Machine/Operands.lean ====
section
/-! DEFINITION. The operands of every word: the registers, predicates and masks it reads and writes, the tags it accepts (04
R84 and the tables of each chapter), its pipe (03 R50) and its least level (19 R429, R431); the checks every word makes at
issue (03 R52, R85, R91, 19 R434) and when a word is ready (07 R134, 11 R240, R241). -/

namespace Sys2Proof.Machine

/-- The pipes (03 R50). -/
inductive Pipe where
  | int | fp | sfu | mem | cpy | mx | ctl
deriving DecidableEq, Repr

/-- The counter a word raises (11 R241). -/
inductive Counts where
  | none | loads | stores
deriving DecidableEq, Repr

/-- A register a word reads: its number, the tags accepted with the first one listed first (none listed: any tag), the
subcode of a failure (04 R86), whether a pending handle in it blocks (05 R92), and the predicate and value under which
alone it is read (05 R109). -/
structure Src where
  reg : Nat
  code : Nat := 1
  tags : List Tag := []
  blocks : Bool := true
  only : Option (Nat × Bool) := none
deriving DecidableEq, Repr

/-- What a word reads and writes, and its checks at issue. -/
structure OpInfo where
  srcs : List Src := []
  dests : List Nat := []
  preds : List Nat := []
  masks : List Nat := []
  pipe : Pipe := .ctl
  c : Bool := false
  u : Bool := false
  least : Nat := 0
  privSub : Nat := 1
  privInfo : Nat := 0
  counts : Counts := .none
deriving DecidableEq, Repr

/-- F32 or RAW (04 R84). -/
def f32Tags : List Tag := [tagF32, tagRaw]
/-- INT or RAW (04 R84). -/
def intTags : List Tag := [tagInt, tagRaw]
/-- Target operands of JMPR, CALLR and RET (04 R84, 07 R148). -/
def codeTags : List Tag := [tagCode, tagInt, tagRaw]
/-- Sources of UNPK (06 R127). -/
def packedTags : List Tag := [tagBf16, tagE4m3, tagE5m2, tagPs8, tagS8, tagN8]
/-- Any tag but HANDLE, RAW reported as required (04 R86, 06 R124). -/
def notHandleTags : List Tag :=
  [tagRaw, tagInt, tagF32, tagBf16, tagE4m3, tagE5m2, tagPs8, tagS8, tagN8, tagScale, tagCode]
/-- Source tags of a conversion selector (06 R124). -/
def cvtTags (b : BitVec 7) : List Tag :=
  if b = 0x08 ∨ b = 0x09 then intTags else if b.toNat < 0x20 then f32Tags else notHandleTags
/-- Registers of an access of the M form's size code (03 R48). -/
def sizeRegs (z : BitVec 3) : Nat := if z = 5 then 2 else if z = 6 then 4 else 1
/-- Registers of 32-bit or 64-bit data (03 R47). -/
def wideRegs (w : BitVec 1) : Nat := if w = 1 then 2 else 1
/-- Tiles that MX.READY names (15 R329). -/
def readyTiles (q : BitVec 1) : Nat := if q = 1 then 8 else 4
/-- Registers of a status word (08 R180). -/
def statusWords (imm : BitVec 9) : Nat := if statusWidth imm.toNat = some 64 then 2 else 1
/-- Least level that reads a status word (19 R429, 22 R465, R470). -/
def srdLevel (a : Nat) : Nat := if a < 0x100 then 0 else if 0x1E0 ≤ a then 2 else 1
/-- Least level that writes a status word (18 R389, 19 R429, 22 R465, R470). -/
def swrLevel (a : Nat) : Nat :=
  if a < 0x100 then 0
  else if a = 0x183 ∨ a = 0x184 ∨ a = 0x18A ∨ a = 0x18B ∨ 0x1D0 ≤ a then 2 else 1

/-- Operands of SRD. -/
def infoSrd (c : Bool) (d : BitVec 7) (imm : BitVec 9) : OpInfo :=
  { dests := (List.range (statusWords imm)).map (fun j => d.toNat + j), pipe := .ctl, c := c, least := srdLevel imm.toNat, privSub := 2, privInfo := imm.toNat }

/-- Operands of SWR. -/
def infoSwr (c : Bool) (d : BitVec 7) (imm : BitVec 9) : OpInfo := { srcs := (List.range (statusWords imm)).map (fun j => { reg := d.toNat + j, code := 3 }), pipe := .ctl, c := c, least := swrLevel imm.toNat, privSub := 3, privInfo := imm.toNat }

/-- Operands of TRET. -/
def infoTret (c : Bool) : OpInfo := { pipe := .ctl, c := c, least := 1, privInfo := 2 }

/-- Operands of ECALL. -/
def infoEcall (c : Bool) (d : BitVec 7) : OpInfo := { srcs := [{ reg := d.toNat, code := 3 }], pipe := .ctl, c := c }

/-- Operands of CTX.STOP. -/
def infoCtxStop (c : Bool) (d : BitVec 7) : OpInfo := { srcs := [{ reg := d.toNat, code := 3 }], pipe := .ctl, c := c, least := 2, privInfo := 16 }

/-- Operands of CTX.SAVE. -/
def infoCtxSave (c : Bool) (d : BitVec 7) : OpInfo := { srcs := [{ reg := d.toNat, code := 3 }], pipe := .ctl, c := c, least := 2, privInfo := 17 }

/-- Operands of CTX.RST. -/
def infoCtxRst (c : Bool) (d : BitVec 6) : OpInfo := { srcs := [{ reg := 2 * d.toNat, code := 3 }, { reg := 2 * d.toNat + 1, code := 3 }], pipe := .ctl, c := c, least := 2, privInfo := 18 }

/-- Operands of PREEMPT. -/
def infoPreempt (c : Bool) (d : BitVec 5) : OpInfo := { srcs := [{ reg := 4 * d.toNat, code := 3 }, { reg := 4 * d.toNat + 1, code := 3 }, { reg := 4 * d.toNat + 2, code := 3 }, { reg := 4 * d.toNat + 3, code := 3 }], pipe := .ctl, c := c, least := 2, privInfo := 19 }

/-- Operands of CKPT.MARK. -/
def infoCkptMark (c : Bool) (d : BitVec 7) : OpInfo := { srcs := [{ reg := d.toNat, code := 3 }], pipe := .ctl, c := c, least := 1, privInfo := 20 }

/-- Operands of CKPT.STAT. -/
def infoCkptStat (c : Bool) (d : BitVec 6) : OpInfo := { srcs := [{ reg := 2 * d.toNat, code := 3 }, { reg := 2 * d.toNat + 1, code := 3 }], dests := [2 * d.toNat], pipe := .ctl, c := c, least := 1, privInfo := 21 }

/-- Operands of PATCH.LOAD. -/
def infoPatchLoad (c : Bool) (d : BitVec 6) : OpInfo := { srcs := [{ reg := 2 * d.toNat, code := 3 }, { reg := 2 * d.toNat + 1, code := 3 }], pipe := .ctl, c := c, least := 2, privInfo := 32 }

/-- Operands of PATCH.ARM. -/
def infoPatchArm (c : Bool) : OpInfo := { pipe := .ctl, c := c, least := 2, privInfo := 33 }

/-- Operands of PATCH.DISARM. -/
def infoPatchDisarm (c : Bool) : OpInfo := { pipe := .ctl, c := c, least := 2, privInfo := 34 }

/-- Operands of PATCH.QRY. -/
def infoPatchQry (c : Bool) (d : BitVec 7) : OpInfo := { dests := [d.toNat], pipe := .ctl, c := c, least := 1, privInfo := 35 }

/-- Operands of PSTATE.SET. -/
def infoPstateSet (c : Bool) (d : BitVec 7) : OpInfo := { srcs := [{ reg := d.toNat, code := 3 }], pipe := .ctl, c := c, least := 2, privInfo := 48 }

/-- Operands of PARK. -/
def infoPark (c : Bool) (d : BitVec 7) : OpInfo := { srcs := [{ reg := d.toNat, code := 3 }], pipe := .ctl, c := c, least := 2, privInfo := 49 }

/-- Operands of UNPARK. -/
def infoUnpark (c : Bool) (d : BitVec 7) : OpInfo := { srcs := [{ reg := d.toNat, code := 3 }], pipe := .ctl, c := c, least := 2, privInfo := 50 }

/-- Operands of ERRQ.SET. -/
def infoErrqSet (c : Bool) (d : BitVec 6) : OpInfo := { srcs := [{ reg := 2 * d.toNat, code := 3 }, { reg := 2 * d.toNat + 1, code := 3 }], pipe := .ctl, c := c, least := 1, privInfo := 64 }

/-- Operands of TLB.INV: none where it takes the whole context. -/
def infoTlbInv (c : Bool) (d : BitVec 6) (w : BitVec 1) : OpInfo := { srcs := if w = 1 then [] else [{ reg := 2 * d.toNat, code := 3 }, { reg := 2 * d.toNat + 1, code := 3 }], pipe := .ctl, c := c, least := 1, privInfo := 65 }

/-- Operands of FENCE.TLB. -/
def infoFenceTlb (c : Bool) : OpInfo := { pipe := .ctl, c := c, least := 1, privInfo := 66 }

/-- The operands of a word; an event has none. -/
def opInfo (i : Instr) : OpInfo :=
  match i with
  | .iadd c u d a b => { srcs := [{ reg := a.toNat, code := 1 }, { reg := b.toNat, code := 2 }], dests := [d.toNat], pipe := .int, c := c, u := u }
  | .isub c u d a b => { srcs := [{ reg := a.toNat, code := 1 }, { reg := b.toNat, code := 2 }], dests := [d.toNat], pipe := .int, c := c, u := u }
  | .iminS32 c u d a b => { srcs := [{ reg := a.toNat, code := 1 }, { reg := b.toNat, code := 2 }], dests := [d.toNat], pipe := .int, c := c, u := u }
  | .imaxS32 c u d a b => { srcs := [{ reg := a.toNat, code := 1 }, { reg := b.toNat, code := 2 }], dests := [d.toNat], pipe := .int, c := c, u := u }
  | .iminN32 c u d a b => { srcs := [{ reg := a.toNat, code := 1 }, { reg := b.toNat, code := 2 }], dests := [d.toNat], pipe := .int, c := c, u := u }
  | .imaxN32 c u d a b => { srcs := [{ reg := a.toNat, code := 1 }, { reg := b.toNat, code := 2 }], dests := [d.toNat], pipe := .int, c := c, u := u }
  | .iabsd c u d a b => { srcs := [{ reg := a.toNat, code := 1 }, { reg := b.toNat, code := 2 }], dests := [d.toNat], pipe := .int, c := c, u := u }
  | .ineg c u d a => { srcs := [{ reg := a.toNat, code := 1 }], dests := [d.toNat], pipe := .int, c := c, u := u }
  | .imul c u d a b => { srcs := [{ reg := a.toNat, code := 1 }, { reg := b.toNat, code := 2 }], dests := [d.toNat], pipe := .int, c := c, u := u }
  | .imulhS32 c u d a b => { srcs := [{ reg := a.toNat, code := 1 }, { reg := b.toNat, code := 2 }], dests := [d.toNat], pipe := .int, c := c, u := u }
  | .imulhN32 c u d a b => { srcs := [{ reg := a.toNat, code := 1 }, { reg := b.toNat, code := 2 }], dests := [d.toNat], pipe := .int, c := c, u := u }
  | .imad c u d a b => { srcs := [{ reg := a.toNat, code := 1 }, { reg := b.toNat, code := 2 }, { reg := d.toNat, code := 3 }], dests := [d.toNat], pipe := .int, c := c, u := u }
  | .idivS32 c u d a b => { srcs := [{ reg := a.toNat, code := 1 }, { reg := b.toNat, code := 2 }], dests := [d.toNat], pipe := .int, c := c, u := u }
  | .idivN32 c u d a b => { srcs := [{ reg := a.toNat, code := 1 }, { reg := b.toNat, code := 2 }], dests := [d.toNat], pipe := .int, c := c, u := u }
  | .iremS32 c u d a b => { srcs := [{ reg := a.toNat, code := 1 }, { reg := b.toNat, code := 2 }], dests := [d.toNat], pipe := .int, c := c, u := u }
  | .iremN32 c u d a b => { srcs := [{ reg := a.toNat, code := 1 }, { reg := b.toNat, code := 2 }], dests := [d.toNat], pipe := .int, c := c, u := u }
  | .iaddD c u d a b => { srcs := [{ reg := 2 * a.toNat, code := 1 }, { reg := 2 * a.toNat + 1, code := 1 }, { reg := 2 * b.toNat, code := 2 }, { reg := 2 * b.toNat + 1, code := 2 }], dests := [2 * d.toNat, 2 * d.toNat + 1], pipe := .int, c := c, u := u }
  | .isubD c u d a b => { srcs := [{ reg := 2 * a.toNat, code := 1 }, { reg := 2 * a.toNat + 1, code := 1 }, { reg := 2 * b.toNat, code := 2 }, { reg := 2 * b.toNat + 1, code := 2 }], dests := [2 * d.toNat, 2 * d.toNat + 1], pipe := .int, c := c, u := u }
  | .imulD c u d a b => { srcs := [{ reg := 2 * a.toNat, code := 1 }, { reg := 2 * a.toNat + 1, code := 1 }, { reg := 2 * b.toNat, code := 2 }, { reg := 2 * b.toNat + 1, code := 2 }], dests := [2 * d.toNat, 2 * d.toNat + 1], pipe := .int, c := c, u := u }
  | .imadwS32 c u d a b => { srcs := [{ reg := a.toNat, code := 1 }, { reg := b.toNat, code := 2 }, { reg := 2 * d.toNat, code := 3 }, { reg := 2 * d.toNat + 1, code := 3 }], dests := [2 * d.toNat, 2 * d.toNat + 1], pipe := .int, c := c, u := u }
  | .imadwN32 c u d a b => { srcs := [{ reg := a.toNat, code := 1 }, { reg := b.toNat, code := 2 }, { reg := 2 * d.toNat, code := 3 }, { reg := 2 * d.toNat + 1, code := 3 }], dests := [2 * d.toNat, 2 * d.toNat + 1], pipe := .int, c := c, u := u }
  | .shlD c u d a b => { srcs := [{ reg := 2 * a.toNat, code := 1 }, { reg := 2 * a.toNat + 1, code := 1 }, { reg := b.toNat, code := 2 }], dests := [2 * d.toNat, 2 * d.toNat + 1], pipe := .int, c := c, u := u }
  | .shrD c u d a b => { srcs := [{ reg := 2 * a.toNat, code := 1 }, { reg := 2 * a.toNat + 1, code := 1 }, { reg := b.toNat, code := 2 }], dests := [2 * d.toNat, 2 * d.toNat + 1], pipe := .int, c := c, u := u }
  | .sarD c u d a b => { srcs := [{ reg := 2 * a.toNat, code := 1 }, { reg := 2 * a.toNat + 1, code := 1 }, { reg := b.toNat, code := 2 }], dests := [2 * d.toNat, 2 * d.toNat + 1], pipe := .int, c := c, u := u }
  | .and c u d a b => { srcs := [{ reg := a.toNat, code := 1 }, { reg := b.toNat, code := 2 }], dests := [d.toNat], pipe := .int, c := c, u := u }
  | .or c u d a b => { srcs := [{ reg := a.toNat, code := 1 }, { reg := b.toNat, code := 2 }], dests := [d.toNat], pipe := .int, c := c, u := u }
  | .xor c u d a b => { srcs := [{ reg := a.toNat, code := 1 }, { reg := b.toNat, code := 2 }], dests := [d.toNat], pipe := .int, c := c, u := u }
  | .andn c u d a b => { srcs := [{ reg := a.toNat, code := 1 }, { reg := b.toNat, code := 2 }], dests := [d.toNat], pipe := .int, c := c, u := u }
  | .orn c u d a b => { srcs := [{ reg := a.toNat, code := 1 }, { reg := b.toNat, code := 2 }], dests := [d.toNat], pipe := .int, c := c, u := u }
  | .xnor c u d a b => { srcs := [{ reg := a.toNat, code := 1 }, { reg := b.toNat, code := 2 }], dests := [d.toNat], pipe := .int, c := c, u := u }
  | .not c u d a => { srcs := [{ reg := a.toNat, code := 1 }], dests := [d.toNat], pipe := .int, c := c, u := u }
  | .mov c u d a => { srcs := [{ reg := a.toNat, code := 1, blocks := false }], dests := [d.toNat], pipe := .int, c := c, u := u }
  | .shl c u d a b => { srcs := [{ reg := a.toNat, code := 1 }, { reg := b.toNat, code := 2 }], dests := [d.toNat], pipe := .int, c := c, u := u }
  | .shr c u d a b => { srcs := [{ reg := a.toNat, code := 1 }, { reg := b.toNat, code := 2 }], dests := [d.toNat], pipe := .int, c := c, u := u }
  | .sar c u d a b => { srcs := [{ reg := a.toNat, code := 1 }, { reg := b.toNat, code := 2 }], dests := [d.toNat], pipe := .int, c := c, u := u }
  | .rotl c u d a b => { srcs := [{ reg := a.toNat, code := 1 }, { reg := b.toNat, code := 2 }], dests := [d.toNat], pipe := .int, c := c, u := u }
  | .popc c u d a => { srcs := [{ reg := a.toNat, code := 1 }], dests := [d.toNat], pipe := .int, c := c, u := u }
  | .clz c u d a => { srcs := [{ reg := a.toNat, code := 1 }], dests := [d.toNat], pipe := .int, c := c, u := u }
  | .brev c u d a => { srcs := [{ reg := a.toNat, code := 1 }], dests := [d.toNat], pipe := .int, c := c, u := u }
  | .ffs c u d a => { srcs := [{ reg := a.toNat, code := 1 }], dests := [d.toNat], pipe := .int, c := c, u := u }
  | .bfxS32 c u d a b => { srcs := [{ reg := a.toNat, code := 1 }, { reg := b.toNat, code := 2 }], dests := [d.toNat], pipe := .int, c := c, u := u }
  | .bfxN32 c u d a b => { srcs := [{ reg := a.toNat, code := 1 }, { reg := b.toNat, code := 2 }], dests := [d.toNat], pipe := .int, c := c, u := u }
  | .bfi c u d a b => { srcs := [{ reg := a.toNat, code := 1 }, { reg := b.toNat, code := 2 }, { reg := d.toNat, code := 3 }], dests := [d.toNat], pipe := .int, c := c, u := u }
  | .perm c u d a b => { srcs := [{ reg := a.toNat, code := 1 }, { reg := b.toNat, code := 2 }, { reg := d.toNat, code := 3 }], dests := [d.toNat], pipe := .int, c := c, u := u }
  | .shf c u d a b => { srcs := [{ reg := a.toNat, code := 1 }, { reg := b.toNat, code := 2 }, { reg := d.toNat, code := 3 }], dests := [d.toNat], pipe := .int, c := c, u := u }
  | .iaddsS32 c u d a b => { srcs := [{ reg := a.toNat, code := 1 }, { reg := b.toNat, code := 2 }], dests := [d.toNat], pipe := .int, c := c, u := u }
  | .isubsS32 c u d a b => { srcs := [{ reg := a.toNat, code := 1 }, { reg := b.toNat, code := 2 }], dests := [d.toNat], pipe := .int, c := c, u := u }
  | .iaddsN32 c u d a b => { srcs := [{ reg := a.toNat, code := 1 }, { reg := b.toNat, code := 2 }], dests := [d.toNat], pipe := .int, c := c, u := u }
  | .iaddi c u d a _ => { srcs := [{ reg := a.toNat, code := 1 }], dests := [d.toNat], pipe := .int, c := c, u := u }
  | .andi c u d a _ => { srcs := [{ reg := a.toNat, code := 1 }], dests := [d.toNat], pipe := .int, c := c, u := u }
  | .ori c u d a _ => { srcs := [{ reg := a.toNat, code := 1 }], dests := [d.toNat], pipe := .int, c := c, u := u }
  | .xori c u d a _ => { srcs := [{ reg := a.toNat, code := 1 }], dests := [d.toNat], pipe := .int, c := c, u := u }
  | .shfi c u d a _ _ => { srcs := [{ reg := a.toNat, code := 1 }], dests := [d.toNat], pipe := .int, c := c, u := u }
  | .imuli c u d a _ => { srcs := [{ reg := a.toNat, code := 1 }], dests := [d.toNat], pipe := .int, c := c, u := u }
  | .leai c u d a _ => { srcs := [{ reg := 2 * a.toNat, code := 1 }, { reg := 2 * a.toNat + 1, code := 1 }], dests := [2 * d.toNat, 2 * d.toNat + 1], pipe := .int, c := c, u := u }
  | .movi c u d _ => { dests := [d.toNat], pipe := .int, c := c, u := u }
  | .movhi c u d _ => { srcs := [{ reg := d.toNat, code := 3 }], dests := [d.toNat], pipe := .int, c := c, u := u }
  | .kld c u d _ => { dests := [d.toNat], pipe := .int, c := c, u := u }
  | .isetp c u _ _ p a b => { srcs := [{ reg := a.toNat, code := 1 }, { reg := b.toNat, code := 2 }], preds := [p.toNat], pipe := .int, c := c, u := u }
  | .fsetp c u _ _ p a b => { srcs := [{ reg := a.toNat, code := 1, tags := f32Tags }, { reg := b.toNat, code := 2, tags := f32Tags }], preds := [p.toNat], pipe := .fp, c := c, u := u }
  | .pand c u d _ _ => { preds := [d.toNat], pipe := .int, c := c, u := u }
  | .por c u d _ _ => { preds := [d.toNat], pipe := .int, c := c, u := u }
  | .pxor c u d _ _ => { preds := [d.toNat], pipe := .int, c := c, u := u }
  | .pnot c u d _ => { preds := [d.toNat], pipe := .int, c := c, u := u }
  | .p2v c u d => { dests := [d.toNat], pipe := .int, c := c, u := u }
  | .v2p c u a => { srcs := [{ reg := a.toNat, code := 1 }], preds := List.range 8, pipe := .int, c := c, u := u }
  | .pset c u d _ => { preds := [d.toNat], pipe := .int, c := c, u := u }
  | .selp c u d a b p => { srcs := [{ reg := a.toNat, code := 1, only := some (p.toNat, true) }, { reg := b.toNat, code := 2, only := some (p.toNat, false) }], dests := [d.toNat], pipe := .int, c := c, u := u }
  | .mand c u d _ _ => { masks := [d.toNat], pipe := .int, c := c, u := u }
  | .mor c u d _ _ => { masks := [d.toNat], pipe := .int, c := c, u := u }
  | .mxor c u d _ _ => { masks := [d.toNat], pipe := .int, c := c, u := u }
  | .mnot c u d _ => { masks := [d.toNat], pipe := .int, c := c, u := u }
  | .mfromv c u d a => { srcs := [{ reg := a.toNat, code := 1 }], masks := [d.toNat], pipe := .int, c := c, u := u }
  | .mtov c u d _ => { dests := [d.toNat], pipe := .int, c := c, u := u }
  | .mpopc c u d _ => { dests := [d.toNat], pipe := .int, c := c, u := u }
  | .mself c u d => { masks := [d.toNat], pipe := .int, c := c, u := u }
  | .fadd c u d a b => { srcs := [{ reg := a.toNat, code := 1, tags := f32Tags }, { reg := b.toNat, code := 2, tags := f32Tags }], dests := [d.toNat], pipe := .fp, c := c, u := u }
  | .fsub c u d a b => { srcs := [{ reg := a.toNat, code := 1, tags := f32Tags }, { reg := b.toNat, code := 2, tags := f32Tags }], dests := [d.toNat], pipe := .fp, c := c, u := u }
  | .fmul c u d a b => { srcs := [{ reg := a.toNat, code := 1, tags := f32Tags }, { reg := b.toNat, code := 2, tags := f32Tags }], dests := [d.toNat], pipe := .fp, c := c, u := u }
  | .fmin c u d a b => { srcs := [{ reg := a.toNat, code := 1, tags := f32Tags }, { reg := b.toNat, code := 2, tags := f32Tags }], dests := [d.toNat], pipe := .fp, c := c, u := u }
  | .fmax c u d a b => { srcs := [{ reg := a.toNat, code := 1, tags := f32Tags }, { reg := b.toNat, code := 2, tags := f32Tags }], dests := [d.toNat], pipe := .fp, c := c, u := u }
  | .fabs c u d a => { srcs := [{ reg := a.toNat, code := 1, tags := f32Tags }], dests := [d.toNat], pipe := .fp, c := c, u := u }
  | .fneg c u d a => { srcs := [{ reg := a.toNat, code := 1, tags := f32Tags }], dests := [d.toNat], pipe := .fp, c := c, u := u }
  | .fcpsgn c u d a b => { srcs := [{ reg := a.toNat, code := 1, tags := f32Tags }, { reg := b.toNat, code := 2, tags := f32Tags }], dests := [d.toNat], pipe := .fp, c := c, u := u }
  | .fma c u d a b => { srcs := [{ reg := a.toNat, code := 1, tags := f32Tags }, { reg := b.toNat, code := 2, tags := f32Tags }, { reg := d.toNat, code := 3, tags := f32Tags }], dests := [d.toNat], pipe := .fp, c := c, u := u }
  | .fms c u d a b => { srcs := [{ reg := a.toNat, code := 1, tags := f32Tags }, { reg := b.toNat, code := 2, tags := f32Tags }, { reg := d.toNat, code := 3, tags := f32Tags }], dests := [d.toNat], pipe := .fp, c := c, u := u }
  | .fnma c u d a b => { srcs := [{ reg := a.toNat, code := 1, tags := f32Tags }, { reg := b.toNat, code := 2, tags := f32Tags }, { reg := d.toNat, code := 3, tags := f32Tags }], dests := [d.toNat], pipe := .fp, c := c, u := u }
  | .fnms c u d a b => { srcs := [{ reg := a.toNat, code := 1, tags := f32Tags }, { reg := b.toNat, code := 2, tags := f32Tags }, { reg := d.toNat, code := 3, tags := f32Tags }], dests := [d.toNat], pipe := .fp, c := c, u := u }
  | .frcp c u d a => { srcs := [{ reg := a.toNat, code := 1, tags := f32Tags }], dests := [d.toNat], pipe := .sfu, c := c, u := u }
  | .frsq c u d a => { srcs := [{ reg := a.toNat, code := 1, tags := f32Tags }], dests := [d.toNat], pipe := .sfu, c := c, u := u }
  | .fsqrta c u d a => { srcs := [{ reg := a.toNat, code := 1, tags := f32Tags }], dests := [d.toNat], pipe := .sfu, c := c, u := u }
  | .fex2 c u d a => { srcs := [{ reg := a.toNat, code := 1, tags := f32Tags }], dests := [d.toNat], pipe := .sfu, c := c, u := u }
  | .flg2 c u d a => { srcs := [{ reg := a.toNat, code := 1, tags := f32Tags }], dests := [d.toNat], pipe := .sfu, c := c, u := u }
  | .fsinp c u d a => { srcs := [{ reg := a.toNat, code := 1, tags := f32Tags }], dests := [d.toNat], pipe := .sfu, c := c, u := u }
  | .fcosp c u d a => { srcs := [{ reg := a.toNat, code := 1, tags := f32Tags }], dests := [d.toNat], pipe := .sfu, c := c, u := u }
  | .ftanh c u d a => { srcs := [{ reg := a.toNat, code := 1, tags := f32Tags }], dests := [d.toNat], pipe := .sfu, c := c, u := u }
  | .fdiv c u d a b => { srcs := [{ reg := a.toNat, code := 1, tags := f32Tags }, { reg := b.toNat, code := 2, tags := f32Tags }], dests := [d.toNat], pipe := .sfu, c := c, u := u }
  | .fsqrt c u d a => { srcs := [{ reg := a.toNat, code := 1, tags := f32Tags }], dests := [d.toNat], pipe := .sfu, c := c, u := u }
  | .frintRn c u d a => { srcs := [{ reg := a.toNat, code := 1, tags := f32Tags }], dests := [d.toNat], pipe := .sfu, c := c, u := u }
  | .frintRz c u d a => { srcs := [{ reg := a.toNat, code := 1, tags := f32Tags }], dests := [d.toNat], pipe := .sfu, c := c, u := u }
  | .frintRd c u d a => { srcs := [{ reg := a.toNat, code := 1, tags := f32Tags }], dests := [d.toNat], pipe := .sfu, c := c, u := u }
  | .frintRu c u d a => { srcs := [{ reg := a.toNat, code := 1, tags := f32Tags }], dests := [d.toNat], pipe := .sfu, c := c, u := u }
  | .fclass c u d a => { srcs := [{ reg := a.toNat, code := 1, tags := f32Tags }], dests := [d.toNat], pipe := .sfu, c := c, u := u }
  | .fscalb c u d a b => { srcs := [{ reg := a.toNat, code := 1, tags := f32Tags }, { reg := b.toNat, code := 2, tags := f32Tags }], dests := [d.toNat], pipe := .sfu, c := c, u := u }
  | .cvt c u _ _ d a b => { srcs := [{ reg := a.toNat, code := 1, tags := (cvtTags b) }], dests := [d.toNat], pipe := .fp, c := c, u := u }
  | .pkbf c u d a b => { srcs := [{ reg := a.toNat, code := 1, tags := f32Tags }, { reg := b.toNat, code := 2, tags := f32Tags }], dests := [d.toNat], pipe := .fp, c := c, u := u }
  | .pke4Lo c u d a b => { srcs := [{ reg := a.toNat, code := 1, tags := f32Tags }, { reg := b.toNat, code := 2, tags := f32Tags }], dests := [d.toNat], pipe := .fp, c := c, u := u }
  | .pke4Hi c u d a b => { srcs := [{ reg := a.toNat, code := 1, tags := f32Tags }, { reg := b.toNat, code := 2, tags := f32Tags }, { reg := d.toNat, code := 3, tags := [tagE4m3] }], dests := [d.toNat], pipe := .fp, c := c, u := u }
  | .pke5Lo c u d a b => { srcs := [{ reg := a.toNat, code := 1, tags := f32Tags }, { reg := b.toNat, code := 2, tags := f32Tags }], dests := [d.toNat], pipe := .fp, c := c, u := u }
  | .pke5Hi c u d a b => { srcs := [{ reg := a.toNat, code := 1, tags := f32Tags }, { reg := b.toNat, code := 2, tags := f32Tags }, { reg := d.toNat, code := 3, tags := [tagE5m2] }], dests := [d.toNat], pipe := .fp, c := c, u := u }
  | .pkpsLo c u d a b => { srcs := [{ reg := a.toNat, code := 1, tags := f32Tags }, { reg := b.toNat, code := 2, tags := f32Tags }], dests := [d.toNat], pipe := .fp, c := c, u := u }
  | .pkpsHi c u d a b => { srcs := [{ reg := a.toNat, code := 1, tags := f32Tags }, { reg := b.toNat, code := 2, tags := f32Tags }, { reg := d.toNat, code := 3, tags := [tagPs8] }], dests := [d.toNat], pipe := .fp, c := c, u := u }
  | .unpk c u d a _ => { srcs := [{ reg := a.toNat, code := 1, tags := packedTags }], dests := [d.toNat], pipe := .fp, c := c, u := u }
  | .dot2Bf16 c u d a b => { srcs := [{ reg := a.toNat, code := 1, tags := [tagBf16] }, { reg := b.toNat, code := 2, tags := [tagBf16] }, { reg := d.toNat, code := 3, tags := f32Tags }], dests := [d.toNat], pipe := .fp, c := c, u := u }
  | .dot4E4m3 c u d a b => { srcs := [{ reg := a.toNat, code := 1, tags := [tagE4m3] }, { reg := b.toNat, code := 2, tags := [tagE4m3] }, { reg := d.toNat, code := 3, tags := f32Tags }], dests := [d.toNat], pipe := .fp, c := c, u := u }
  | .dot4E5m2 c u d a b => { srcs := [{ reg := a.toNat, code := 1, tags := [tagE5m2] }, { reg := b.toNat, code := 2, tags := [tagE5m2] }, { reg := d.toNat, code := 3, tags := f32Tags }], dests := [d.toNat], pipe := .fp, c := c, u := u }
  | .dot4Ps8 c u d a b => { srcs := [{ reg := a.toNat, code := 1, tags := [tagPs8] }, { reg := b.toNat, code := 2, tags := [tagPs8] }, { reg := d.toNat, code := 3, tags := f32Tags }], dests := [d.toNat], pipe := .fp, c := c, u := u }
  | .dot4S8 c u d a b => { srcs := [{ reg := a.toNat, code := 1, tags := [tagS8] }, { reg := b.toNat, code := 2, tags := [tagS8] }, { reg := d.toNat, code := 3, tags := intTags }], dests := [d.toNat], pipe := .fp, c := c, u := u }
  | .dot4N8 c u d a b => { srcs := [{ reg := a.toNat, code := 1, tags := [tagN8] }, { reg := b.toNat, code := 2, tags := [tagN8] }, { reg := d.toNat, code := 3, tags := intTags }], dests := [d.toNat], pipe := .fp, c := c, u := u }
  | .hadd2Bf16 c u d a b => { srcs := [{ reg := a.toNat, code := 1, tags := [tagBf16] }, { reg := b.toNat, code := 2, tags := [tagBf16] }], dests := [d.toNat], pipe := .fp, c := c, u := u }
  | .hmul2Bf16 c u d a b => { srcs := [{ reg := a.toNat, code := 1, tags := [tagBf16] }, { reg := b.toNat, code := 2, tags := [tagBf16] }], dests := [d.toNat], pipe := .fp, c := c, u := u }
  | .brm u _ _ _ _ _ _ => { pipe := .ctl, u := u }
  | .tgt _ _ => { pipe := .ctl }
  | .jmp u _ => { pipe := .ctl, u := u }
  | .call u d _ => { dests := [2 * d.toNat, 2 * d.toNat + 1], pipe := .ctl, u := u }
  | .jmpr a => { srcs := [{ reg := 2 * a.toNat, code := 1, tags := codeTags }, { reg := 2 * a.toNat + 1, code := 1, tags := codeTags }], pipe := .ctl }
  | .callr d a => { srcs := [{ reg := 2 * a.toNat, code := 1, tags := codeTags }, { reg := 2 * a.toNat + 1, code := 1, tags := codeTags }], dests := [2 * d.toNat, 2 * d.toNat + 1], pipe := .ctl }
  | .ret a => { srcs := [{ reg := 2 * a.toNat, code := 1, tags := codeTags }, { reg := 2 * a.toNat + 1, code := 1, tags := codeTags }], pipe := .ctl }
  | .exit => { pipe := .ctl }
  | .spawn c d a b => { srcs := [{ reg := 2 * a.toNat, code := 1 }, { reg := 2 * a.toNat + 1, code := 1 }, { reg := b.toNat, code := 2 }], dests := [d.toNat], pipe := .ctl, c := c }
  | .spawnf c d a b => { srcs := [{ reg := 2 * a.toNat, code := 1 }, { reg := 2 * a.toNat + 1, code := 1 }, { reg := b.toNat, code := 2 }], dests := [d.toNat], pipe := .ctl, c := c }
  | .trap c _ => { pipe := .ctl, c := c }
  | .bkpt c => { pipe := .ctl, c := c }
  | .nop c => { pipe := .ctl, c := c }
  | .pause c a => { srcs := [{ reg := a.toNat, code := 1 }], pipe := .ctl, c := c }
  | .yield c => { pipe := .ctl, c := c }
  | .ffence c => { pipe := .ctl, c := c }
  | .clkrd c d => { dests := [2 * d.toNat, 2 * d.toNat + 1], pipe := .ctl, c := c }
  | .renew c a => { srcs := [{ reg := 2 * a.toNat, code := 1 }, { reg := 2 * a.toNat + 1, code := 1 }], pipe := .ctl, c := c }
  | .resume c => { pipe := .ctl, c := c }
  | .shflIdx c d a _ => { srcs := [{ reg := a.toNat, code := 1 }, { reg := d.toNat, code := 3 }], dests := [d.toNat], pipe := .sfu, c := c }
  | .shflXor c d a _ => { srcs := [{ reg := a.toNat, code := 1 }, { reg := d.toNat, code := 3 }], dests := [d.toNat], pipe := .sfu, c := c }
  | .shflUp c d a _ => { srcs := [{ reg := a.toNat, code := 1 }, { reg := d.toNat, code := 3 }], dests := [d.toNat], pipe := .sfu, c := c }
  | .shflDn c d a _ => { srcs := [{ reg := a.toNat, code := 1 }, { reg := d.toNat, code := 3 }], dests := [d.toNat], pipe := .sfu, c := c }
  | .voteAll c d _ _ _ => { preds := [d.toNat], pipe := .sfu, c := c }
  | .voteAny c d _ _ _ => { preds := [d.toNat], pipe := .sfu, c := c }
  | .ballot c d _ _ _ => { dests := [d.toNat], pipe := .sfu, c := c }
  | .matchLanes c d a _ => { srcs := [{ reg := a.toNat, code := 1 }], dests := [d.toNat], pipe := .sfu, c := c }
  | .radd c d a _ => { srcs := [{ reg := a.toNat, code := 1 }], dests := [d.toNat], pipe := .sfu, c := c }
  | .rminS32 c d a _ => { srcs := [{ reg := a.toNat, code := 1 }], dests := [d.toNat], pipe := .sfu, c := c }
  | .rmaxS32 c d a _ => { srcs := [{ reg := a.toNat, code := 1 }], dests := [d.toNat], pipe := .sfu, c := c }
  | .rand c d a _ => { srcs := [{ reg := a.toNat, code := 1 }], dests := [d.toNat], pipe := .sfu, c := c }
  | .ror c d a _ => { srcs := [{ reg := a.toNat, code := 1 }], dests := [d.toNat], pipe := .sfu, c := c }
  | .rxor c d a _ => { srcs := [{ reg := a.toNat, code := 1 }], dests := [d.toNat], pipe := .sfu, c := c }
  | .rfadd c d a _ => { srcs := [{ reg := a.toNat, code := 1, tags := f32Tags }], dests := [d.toNat], pipe := .sfu, c := c }
  | .rminN32 c d a _ => { srcs := [{ reg := a.toNat, code := 1 }], dests := [d.toNat], pipe := .sfu, c := c }
  | .barSync c _ => { pipe := .ctl, c := c }
  | .barArv c d _ => { dests := [d.toNat], pipe := .ctl, c := c }
  | .barWait c d _ => { srcs := [{ reg := d.toNat, code := 3 }], pipe := .ctl, c := c }
  | .barClu c => { pipe := .ctl, c := c }
  | .barGrid c => { pipe := .ctl, c := c }
  | .gsync c _ => { pipe := .ctl, c := c }
  | .barTest c d _ => { srcs := [{ reg := d.toNat, code := 3 }], dests := [d.toNat], pipe := .ctl, c := c }
  | .barSet c d _ => { srcs := [{ reg := d.toNat, code := 3 }], pipe := .ctl, c := c }
  | .waitNe c d a b => { srcs := [{ reg := d.toNat, code := 3 }, { reg := 2 * a.toNat, code := 1 }, { reg := 2 * a.toNat + 1, code := 1 }, { reg := b.toNat, code := 2 }], dests := [d.toNat], pipe := .ctl, c := c }
  | .waitEq c d a b => { srcs := [{ reg := d.toNat, code := 3 }, { reg := 2 * a.toNat, code := 1 }, { reg := 2 * a.toNat + 1, code := 1 }, { reg := b.toNat, code := 2 }], dests := [d.toNat], pipe := .ctl, c := c }
  | .waitGe c d a b => { srcs := [{ reg := d.toNat, code := 3 }, { reg := 2 * a.toNat, code := 1 }, { reg := 2 * a.toNat + 1, code := 1 }, { reg := b.toNat, code := 2 }], dests := [d.toNat], pipe := .ctl, c := c }
  | .watch c d a => { srcs := [{ reg := 2 * a.toNat, code := 1 }, { reg := 2 * a.toNat + 1, code := 1 }], dests := [d.toNat], pipe := .ctl, c := c }
  | .unwatch c d => { dests := [d.toNat], pipe := .ctl, c := c }
  | .wake c a => { srcs := [{ reg := 2 * a.toNat, code := 1 }, { reg := 2 * a.toNat + 1, code := 1 }], pipe := .ctl, c := c }
  | .ld c u _ z d b _ => { srcs := [{ reg := 2 * b.toNat, code := 1 }, { reg := 2 * b.toNat + 1, code := 1 }], dests := (List.range (sizeRegs z)).map (fun j => d.toNat + j), pipe := .mem, c := c, u := u, counts := .loads }
  | .st c u _ z d b _ => { srcs := (List.range (sizeRegs z)).map (fun j => { reg := d.toNat + j, code := 3 }) ++ [{ reg := 2 * b.toNat, code := 1 }, { reg := 2 * b.toNat + 1, code := 1 }], pipe := .mem, c := c, u := u, counts := .stores }
  | .lds c u _ z d b _ => { srcs := [{ reg := b.toNat, code := 1 }], dests := (List.range (sizeRegs z)).map (fun j => d.toNat + j), pipe := .mem, c := c, u := u, counts := .loads }
  | .sts c u _ z d b _ => { srcs := (List.range (sizeRegs z)).map (fun j => { reg := d.toNat + j, code := 3 }) ++ [{ reg := b.toNat, code := 1 }], pipe := .mem, c := c, u := u, counts := .stores }
  | .ldf c u _ _ d b _ => { srcs := [{ reg := 2 * b.toNat, code := 1 }, { reg := 2 * b.toNat + 1, code := 1 }], dests := [d.toNat], pipe := .mem, c := c, u := u, counts := .loads }
  | .atomAdd c u w _ _ d a b => { srcs := [{ reg := 2 * a.toNat, code := 1 }, { reg := 2 * a.toNat + 1, code := 1 }] ++ (List.range (wideRegs w)).map (fun j => { reg := b.toNat + j, code := 2 }), dests := (List.range (wideRegs w)).map (fun j => d.toNat + j), pipe := .mem, c := c, u := u, counts := .loads }
  | .atomMinS32 c u w _ _ d a b => { srcs := [{ reg := 2 * a.toNat, code := 1 }, { reg := 2 * a.toNat + 1, code := 1 }] ++ (List.range (wideRegs w)).map (fun j => { reg := b.toNat + j, code := 2 }), dests := (List.range (wideRegs w)).map (fun j => d.toNat + j), pipe := .mem, c := c, u := u, counts := .loads }
  | .atomMaxS32 c u w _ _ d a b => { srcs := [{ reg := 2 * a.toNat, code := 1 }, { reg := 2 * a.toNat + 1, code := 1 }] ++ (List.range (wideRegs w)).map (fun j => { reg := b.toNat + j, code := 2 }), dests := (List.range (wideRegs w)).map (fun j => d.toNat + j), pipe := .mem, c := c, u := u, counts := .loads }
  | .atomMinN32 c u w _ _ d a b => { srcs := [{ reg := 2 * a.toNat, code := 1 }, { reg := 2 * a.toNat + 1, code := 1 }] ++ (List.range (wideRegs w)).map (fun j => { reg := b.toNat + j, code := 2 }), dests := (List.range (wideRegs w)).map (fun j => d.toNat + j), pipe := .mem, c := c, u := u, counts := .loads }
  | .atomMaxN32 c u w _ _ d a b => { srcs := [{ reg := 2 * a.toNat, code := 1 }, { reg := 2 * a.toNat + 1, code := 1 }] ++ (List.range (wideRegs w)).map (fun j => { reg := b.toNat + j, code := 2 }), dests := (List.range (wideRegs w)).map (fun j => d.toNat + j), pipe := .mem, c := c, u := u, counts := .loads }
  | .atomAnd c u w _ _ d a b => { srcs := [{ reg := 2 * a.toNat, code := 1 }, { reg := 2 * a.toNat + 1, code := 1 }] ++ (List.range (wideRegs w)).map (fun j => { reg := b.toNat + j, code := 2 }), dests := (List.range (wideRegs w)).map (fun j => d.toNat + j), pipe := .mem, c := c, u := u, counts := .loads }
  | .atomOr c u w _ _ d a b => { srcs := [{ reg := 2 * a.toNat, code := 1 }, { reg := 2 * a.toNat + 1, code := 1 }] ++ (List.range (wideRegs w)).map (fun j => { reg := b.toNat + j, code := 2 }), dests := (List.range (wideRegs w)).map (fun j => d.toNat + j), pipe := .mem, c := c, u := u, counts := .loads }
  | .atomXor c u w _ _ d a b => { srcs := [{ reg := 2 * a.toNat, code := 1 }, { reg := 2 * a.toNat + 1, code := 1 }] ++ (List.range (wideRegs w)).map (fun j => { reg := b.toNat + j, code := 2 }), dests := (List.range (wideRegs w)).map (fun j => d.toNat + j), pipe := .mem, c := c, u := u, counts := .loads }
  | .atomxXchg c u w _ _ d a b => { srcs := [{ reg := 2 * a.toNat, code := 1 }, { reg := 2 * a.toNat + 1, code := 1 }] ++ (List.range (wideRegs w)).map (fun j => { reg := b.toNat + j, code := 2 }), dests := (List.range (wideRegs w)).map (fun j => d.toNat + j), pipe := .mem, c := c, u := u, counts := .loads }
  | .atomxCas c u w _ _ d a b => { srcs := [{ reg := 2 * a.toNat, code := 1 }, { reg := 2 * a.toNat + 1, code := 1 }] ++ (List.range (2 * wideRegs w)).map (fun j => { reg := b.toNat + j, code := 2 }), dests := (List.range (wideRegs w)).map (fun j => d.toNat + j), pipe := .mem, c := c, u := u, counts := .loads }
  | .atomxIncw c u w _ _ d a b => { srcs := [{ reg := 2 * a.toNat, code := 1 }, { reg := 2 * a.toNat + 1, code := 1 }] ++ (List.range (wideRegs w)).map (fun j => { reg := b.toNat + j, code := 2 }), dests := (List.range (wideRegs w)).map (fun j => d.toNat + j), pipe := .mem, c := c, u := u, counts := .loads }
  | .atomxDecw c u w _ _ d a b => { srcs := [{ reg := 2 * a.toNat, code := 1 }, { reg := 2 * a.toNat + 1, code := 1 }] ++ (List.range (wideRegs w)).map (fun j => { reg := b.toNat + j, code := 2 }), dests := (List.range (wideRegs w)).map (fun j => d.toNat + j), pipe := .mem, c := c, u := u, counts := .loads }
  | .atomxFaddF32 c u _ _ d a b => { srcs := [{ reg := 2 * a.toNat, code := 1 }, { reg := 2 * a.toNat + 1, code := 1 }, { reg := b.toNat, code := 2 }], dests := [d.toNat], pipe := .mem, c := c, u := u, counts := .loads }
  | .atomxFminF32 c u _ _ d a b => { srcs := [{ reg := 2 * a.toNat, code := 1 }, { reg := 2 * a.toNat + 1, code := 1 }, { reg := b.toNat, code := 2 }], dests := [d.toNat], pipe := .mem, c := c, u := u, counts := .loads }
  | .atomxFmaxF32 c u _ _ d a b => { srcs := [{ reg := 2 * a.toNat, code := 1 }, { reg := 2 * a.toNat + 1, code := 1 }, { reg := b.toNat, code := 2 }], dests := [d.toNat], pipe := .mem, c := c, u := u, counts := .loads }
  | .lda c u w _ d a => { srcs := [{ reg := 2 * a.toNat, code := 1 }, { reg := 2 * a.toNat + 1, code := 1 }], dests := (List.range (wideRegs w)).map (fun j => d.toNat + j), pipe := .mem, c := c, u := u, counts := .loads }
  | .stl c u w _ a b => { srcs := [{ reg := 2 * a.toNat, code := 1 }, { reg := 2 * a.toNat + 1, code := 1 }] ++ (List.range (wideRegs w)).map (fun j => { reg := b.toNat + j, code := 2 }), pipe := .mem, c := c, u := u, counts := .stores }
  | .fence c u _ _ => { pipe := .mem, c := c, u := u }
  | .fenceSc c u _ => { pipe := .mem, c := c, u := u }
  | .ldap c u w _ d a => { srcs := [{ reg := 2 * a.toNat, code := 1 }, { reg := 2 * a.toNat + 1, code := 1 }], dests := (List.range (wideRegs w)).map (fun j => d.toNat + j), pipe := .mem, c := c, u := u, counts := .loads }
  | .atomp c u w _ _ d a b => { srcs := [{ reg := 2 * a.toNat, code := 1 }, { reg := 2 * a.toNat + 1, code := 1 }] ++ (List.range (wideRegs w)).map (fun j => { reg := b.toNat + j, code := 2 }), dests := (List.range (wideRegs w)).map (fun j => d.toNat + j), pipe := .mem, c := c, u := u, counts := .loads }
  | .pref c u a _ => { srcs := [{ reg := 2 * a.toNat, code := 1 }, { reg := 2 * a.toNat + 1, code := 1 }], pipe := .mem, c := c, u := u }
  | .flush c u a => { srcs := [{ reg := 2 * a.toNat, code := 1 }, { reg := 2 * a.toNat + 1, code := 1 }], pipe := .mem, c := c, u := u, counts := .stores }
  | .inval c u a => { srcs := [{ reg := 2 * a.toNat, code := 1 }, { reg := 2 * a.toNat + 1, code := 1 }], pipe := .mem, c := c, u := u }
  | .stashMap c u a b => { srcs := [{ reg := 2 * a.toNat, code := 1 }, { reg := 2 * a.toNat + 1, code := 1 }, { reg := b.toNat, code := 2 }], pipe := .mem, c := c, u := u, counts := .stores }
  | .stashWb c u => { pipe := .mem, c := c, u := u, counts := .stores }
  | .stashDrop c u => { pipe := .mem, c := c, u := u, counts := .stores }
  | .cpyG2s c _ d a => { srcs := [{ reg := d.toNat, code := 3 }, { reg := 2 * a.toNat, code := 1 }, { reg := 2 * a.toNat + 1, code := 1 }], pipe := .cpy, c := c }
  | .cpyS2g c _ d a => { srcs := [{ reg := 2 * d.toNat, code := 3 }, { reg := 2 * d.toNat + 1, code := 3 }, { reg := a.toNat, code := 1 }], pipe := .cpy, c := c }
  | .cpyG2g c _ d a => { srcs := [{ reg := 2 * d.toNat, code := 3 }, { reg := 2 * d.toNat + 1, code := 3 }, { reg := 2 * a.toNat, code := 1 }, { reg := 2 * a.toNat + 1, code := 1 }], pipe := .cpy, c := c }
  | .cpyS2s c _ d a => { srcs := [{ reg := d.toNat, code := 3 }, { reg := a.toNat, code := 1 }], pipe := .cpy, c := c }
  | .cpyFlag c a b => { srcs := [{ reg := a.toNat, code := 1 }, { reg := b.toNat, code := 2 }], pipe := .cpy, c := c }
  | .cpyCommit c d _ => { dests := [d.toNat], pipe := .cpy, c := c }
  | .htest c d a => { srcs := [{ reg := a.toNat, code := 1, tags := [tagHandle], blocks := false }], preds := [d.toNat], pipe := .cpy, c := c }
  | .hcancel c a => { srcs := [{ reg := a.toNat, code := 1, tags := [tagHandle], blocks := false }], pipe := .cpy, c := c }
  | .hwait c a => { srcs := [{ reg := a.toNat, code := 1, tags := [tagHandle] }], pipe := .cpy, c := c }
  | .cntrd c d => { dests := [d.toNat], pipe := .cpy, c := c }
  | .waitc c _ _ _ _ => { pipe := .cpy, c := c }
  | .mxIssue c d a => { srcs := [{ reg := a.toNat, code := 1 }], dests := [d.toNat], pipe := .mx, c := c }
  | .mxReady c d a q => { srcs := (List.range (8 * readyTiles q)).map (fun j => { reg := 8 * a.toNat + j, code := 1, blocks := false }), dests := [d.toNat], pipe := .mx, c := c }
  | .mxCancel c => { pipe := .mx, c := c }
  | .mxQuiesce c => { pipe := .mx, c := c }
  | .plZero c a _ => { srcs := [{ reg := a.toNat, code := 1 }], pipe := .mx, c := c }
  | .plClaim c a _ => { srcs := [{ reg := a.toNat, code := 1 }], pipe := .mx, c := c, least := 1, privSub := 6, privInfo := 5 }
  | .plFree c a => { srcs := [{ reg := a.toNat, code := 1 }], pipe := .mx, c := c }
  | .plLd c _ a b => { srcs := [{ reg := a.toNat, code := 1 }, { reg := 2 * b.toNat, code := 2 }, { reg := 2 * b.toNat + 1, code := 2 }], pipe := .mx, c := c }
  | .plSt c a b => { srcs := [{ reg := a.toNat, code := 1 }, { reg := 2 * b.toNat, code := 2 }, { reg := 2 * b.toNat + 1, code := 2 }], pipe := .mx, c := c }
  | .plRd c d a _ => { srcs := [{ reg := a.toNat, code := 1 }], dests := [d.toNat], pipe := .mx, c := c }
  | .plWr c d a _ => { srcs := [{ reg := a.toNat, code := 1 }, { reg := d.toNat, code := 3 }], pipe := .mx, c := c }
  | .plScale c a b => { srcs := [{ reg := a.toNat, code := 1 }, { reg := b.toNat, code := 2, tags := f32Tags }], pipe := .mx, c := c }
  | .plSave c a => { srcs := [{ reg := a.toNat, code := 1 }], pipe := .mx, c := c, least := 1, privSub := 6, privInfo := 5 }
  | .plRst c a => { srcs := [{ reg := a.toNat, code := 1 }], pipe := .mx, c := c, least := 1, privSub := 6, privInfo := 6 }
  | .tld c d a _ => { srcs := [{ reg := a.toNat, code := 1 }], dests := (List.range 8).map (fun j => 8 * d.toNat + j), pipe := .mx, c := c }
  | .tst c d a => { srcs := (List.range 8).map (fun j => { reg := 8 * d.toNat + j, code := 3 }) ++ [{ reg := a.toNat, code := 1 }], pipe := .mx, c := c }
  | .tcvt c d a _ _ _ _ => { srcs := [{ reg := a.toNat, code := 1 }], dests := (List.range 8).map (fun j => 8 * d.toNat + j), pipe := .mx, c := c }
  | .tzero c d _ => { dests := (List.range 8).map (fun j => 8 * d.toNat + j), pipe := .mx, c := c }
  | .ttrn c d a _ => { srcs := (List.range 8).map (fun j => { reg := 8 * a.toNat + j, code := 1 }), dests := (List.range 8).map (fun j => 8 * d.toNat + j), pipe := .mx, c := c }
  | .plwLoop c _ a => { srcs := [{ reg := a.toNat, code := 1 }], pipe := .mx, c := c }
  | .plwStrm c _ _ _ a b => { srcs := [{ reg := 2 * a.toNat, code := 1 }, { reg := 2 * a.toNat + 1, code := 1 }, { reg := 4 * b.toNat, code := 2 }, { reg := 4 * b.toNat + 1, code := 2 }, { reg := 4 * b.toNat + 2, code := 2 }, { reg := 4 * b.toNat + 3, code := 2 }], pipe := .mx, c := c }
  | .plwGo c _ => { pipe := .mx, c := c }
  | .plwStop c => { pipe := .mx, c := c }
  | .qpop c d _ => { dests := [d.toNat], pipe := .mx, c := c }
  | .qpeek c d _ => { dests := [d.toNat], pipe := .mx, c := c }
  | .qlen c d _ => { dests := [d.toNat], pipe := .mx, c := c }
  | .plwStat c d => { dests := [d.toNat], pipe := .mx, c := c }
  | .launch c d a b => { srcs := [{ reg := 2 * a.toNat, code := 1 }, { reg := 2 * a.toNat + 1, code := 1 }, { reg := 2 * b.toNat, code := 2 }, { reg := 2 * b.toNat + 1, code := 2 }], dests := [d.toNat], pipe := .ctl, c := c }
  | .qpush c d a b => { srcs := [{ reg := 2 * a.toNat, code := 1 }, { reg := 2 * a.toNat + 1, code := 1 }, { reg := 2 * b.toNat, code := 2 }, { reg := 2 * b.toNat + 1, code := 2 }], dests := [d.toNat], pipe := .ctl, c := c }
  | .kstat c d a => { srcs := [{ reg := 2 * a.toNat, code := 1 }, { reg := 2 * a.toNat + 1, code := 1 }], dests := [2 * d.toNat, 2 * d.toNat + 1], pipe := .ctl, c := c }
  | .qstat c d a => { srcs := [{ reg := 2 * a.toNat, code := 1 }, { reg := 2 * a.toNat + 1, code := 1 }], dests := [d.toNat], pipe := .ctl, c := c }
  | .srd c d imm => infoSrd c d imm
  | .swr c d imm => infoSwr c d imm
  | .tret c => infoTret c
  | .ecall c d _ => infoEcall c d
  | .ctxStop c d => infoCtxStop c d
  | .ctxSave c d => infoCtxSave c d
  | .ctxRst c d _ => infoCtxRst c d
  | .preempt c d _ => infoPreempt c d
  | .ckptMark c d _ => infoCkptMark c d
  | .ckptStat c d => infoCkptStat c d
  | .patchLoad c d _ => infoPatchLoad c d
  | .patchArm c _ => infoPatchArm c
  | .patchDisarm c _ => infoPatchDisarm c
  | .patchQry c d _ => infoPatchQry c d
  | .pstateSet c d _ => infoPstateSet c d
  | .park c d => infoPark c d
  | .unpark c d => infoUnpark c d
  | .errqSet c d _ => infoErrqSet c d
  | .tlbInv c d w => infoTlbInv c d w
  | .fenceTlb c => infoFenceTlb c
  | _ => {}

/-! The checks at issue. -/

/-- A trap verdict with the slot and subcode in TRAPINFO1 (03 R40, R53, 19 R427). -/
def trapAt (slot cause sub : Nat) (i2 i3 : Word) : Verdict :=
  .trap cause 0 (BitVec.ofNat 32 (slot + 16 * sub)) i2 i3

/-- Whether a source is read (05 R109). -/
def Src.read (s : Src) (c : Chip) (t : Nat) : Bool :=
  match s.only with
  | some (k, b) => c.p t k == b
  | none => true

/-- Whether a source's tag is accepted (04 R84). -/
def Src.tagOk (s : Src) (c : Chip) (t : Nat) : Bool := s.tags.isEmpty || s.tags.contains (c.reg t s.reg).tag

/-- PRIVILEGE, REGISTER_RANGE, FORMAT_FAULT, in that order (03 R52, 04 R85, R86, 05 R91, 19 R434). -/
def issueCheck (c : Chip) (t : Nat) (slot : Nat) (o : OpInfo) : Option Verdict :=
  if (c.thread t).level.code < o.least then
    some (trapAt slot causePrivilege o.privSub (BitVec.ofNat 32 o.privInfo) 0)
  else
    let n := (c.team (c.teamOf t)).regs
    if o.srcs.any (fun s => decide (n ≤ s.reg)) || o.dests.any (fun d => decide (n ≤ d)) then some (trapAt slot causeRange 0 0 0)
    else
      let bad := o.srcs.filter (fun s => s.read c t && !s.tagOk c t)
      match [1, 2, 3, 4, 5].findSome? (fun k => bad.find? (fun s => decide (s.code = k))) with
      | some s =>
        some (trapAt slot causeFormat s.code
          (BitVec.ofNat 32 ((c.reg t s.reg).tag.toNat + 16 * ((s.tags.head?).getD 0).toNat)) 0)
      | none => none

/-! Readiness (07 R134, 11 R240). -/

/-- A source has been written, or is not waited for: a pending handle that the word refuses by its tag or does not block on
(04 R85, 05 R92). -/
def Src.ready (s : Src) (c : Chip) (t : Nat) : Bool :=
  !s.read c t ||
  match (c.reg t s.reg).wait with
  | none => true
  | some (.access _) => false
  | some (.handle _) => !s.tagOk c t || !s.blocks

/-- A destination may be written: it is not pending on an access (11 R240). -/
def destReady (c : Chip) (t d : Nat) : Bool :=
  match (c.reg t d).wait with
  | some (.access _) => false
  | _ => true

/-- The loads counter (11 R241). DESIGN CHOICE (log entry 140): an access of a U = 1 word counts for the lowest active home lane alone. -/
def Chip.loads (c : Chip) (t : Nat) : Nat := (c.accesses.filter (fun p => decide (p.2.th = c.leadOf t) && p.2.counted)).length
/-- The stores counter (11 R241). The link of an append is in none (09 R197). -/
def Chip.stores (c : Chip) (t : Nat) : Nat := (c.accesses.filter (fun p => decide (p.2.th = c.leadOf t) && p.2.storing && !p.2.detached)).length

/-- An acquire of the thread not yet performed holds its later memory words (11 R245, R247). DESIGN CHOICE (log entry 140): one of a U = 1
word holds those of the lowest active home lane alone. -/
def Chip.memHeld (c : Chip) (t : Nat) : Bool := c.accesses.any (fun p => decide (p.2.th = c.leadOf t) && p.2.isAcq)

/-- A memory word is not held by an acquire, and no counter it raises stands at 63 (11 R241, R247). -/
def memReady (c : Chip) (t : Nat) (o : OpInfo) : Bool :=
  (o.pipe != .mem || !c.memHeld t) &&
  (match o.counts with
   | .none => true
   | .loads => decide (c.loads t < 63)
   | .stores => decide (c.stores t < 63))

end Sys2Proof.Machine
end

