-- ==== Sys2Proof/Machine/Address.lean ====
section
/-! DEFINITION. The addresses and the data of memory words (11 R236, 03 R48), and what protected mode compares between the
threads of a pair (21 R456). -/

namespace Sys2Proof.Machine

/-- Bytes of an access by its size code (03 R48). -/
def sizeBytes (z : BitVec 3) : Nat :=
  if z = 0 ∨ z = 1 then 1 else if z = 2 ∨ z = 3 then 2 else if z = 5 then 8 else if z = 6 then 16 else 4

/-- Whether a size code sign-extends (03 R48). -/
def sizeSigned (z : BitVec 3) : Bool := decide (z = 1) || decide (z = 3)

/-- Bytes of 32-bit or 64-bit data (03 R47). -/
def wideBytes (w : BitVec 1) : Nat := if w = 1 then 8 else 4

/-- The global address of a load or store: base pair plus the scaled offset (11 R236). -/
def globalEA (c : Chip) (t base : Nat) (o : BitVec 5) (size : Nat) : BitVec 64 :=
  c.vv t base + BitVec.ofInt 64 (o.toInt * size)

/-- The team-local offset of a load or store, exact (11 R236); under .rmt only bits [18:0] of the base form it. -/
def localOffset (c : Chip) (t base : Nat) (rmt : Bool) (o : BitVec 5) (size : Nat) : Int :=
  let b := (c.v t base).toNat
  (if rmt then fieldNat b 0 19 else b) + o.toInt * size

/-- `n` registers from `r` on as one number, the lowest register low (11 R243). -/
def regsValue (c : Chip) (t r : Nat) : Nat → Nat
  | 0 => 0
  | n + 1 => (c.v t r).toNat + 2 ^ 32 * regsValue c t (r + 1) n

/-- The address or offset of a word whose address protected mode compares, and of the others the number 0 (21 R456). -/
def pairAddress (c : Chip) (t : Nat) : Instr → BitVec 64
  | .st _ _ _ z _ b o => globalEA c t (2 * b.toNat) o (sizeBytes z)
  | .sts _ _ k z _ b o => BitVec.ofInt 64 (localOffset c t b.toNat (decide (k = 1)) o (sizeBytes z))
  | .stl _ _ _ _ a _ => c.vv t (2 * a.toNat)
  | .atomAdd _ _ _ _ _ _ a _ => c.vv t (2 * a.toNat)
  | .atomMinS32 _ _ _ _ _ _ a _ => c.vv t (2 * a.toNat)
  | .atomMaxS32 _ _ _ _ _ _ a _ => c.vv t (2 * a.toNat)
  | .atomMinN32 _ _ _ _ _ _ a _ => c.vv t (2 * a.toNat)
  | .atomMaxN32 _ _ _ _ _ _ a _ => c.vv t (2 * a.toNat)
  | .atomAnd _ _ _ _ _ _ a _ => c.vv t (2 * a.toNat)
  | .atomOr _ _ _ _ _ _ a _ => c.vv t (2 * a.toNat)
  | .atomXor _ _ _ _ _ _ a _ => c.vv t (2 * a.toNat)
  | .atomxXchg _ _ _ _ _ _ a _ => c.vv t (2 * a.toNat)
  | .atomxCas _ _ _ _ _ _ a _ => c.vv t (2 * a.toNat)
  | .atomxIncw _ _ _ _ _ _ a _ => c.vv t (2 * a.toNat)
  | .atomxDecw _ _ _ _ _ _ a _ => c.vv t (2 * a.toNat)
  | .atomxFaddF32 _ _ _ _ _ a _ => c.vv t (2 * a.toNat)
  | .atomxFminF32 _ _ _ _ _ a _ => c.vv t (2 * a.toNat)
  | .atomxFmaxF32 _ _ _ _ _ a _ => c.vv t (2 * a.toNat)
  | .atomp _ _ _ _ _ _ a _ => c.vv t (2 * a.toNat)
  | .tst _ _ a => (c.v t a.toNat).setWidth 64
  | .swr _ _ imm => imm.setWidth 64
  | _ => 0

/-- The operand registers whose values protected mode compares as data, operands or addresses (21 R456, subcode 2). -/
def pairData (i : Instr) : List Nat :=
  let all := (opInfo i).srcs.map (·.reg)
  let data := ((opInfo i).srcs.filter (fun s => decide (s.code ≠ 1))).map (·.reg)
  match i with
  | .st .. => data
  | .sts .. => data
  | .stl .. => data
  | .atomAdd .. => data
  | .atomMinS32 .. => data
  | .atomMaxS32 .. => data
  | .atomMinN32 .. => data
  | .atomMaxN32 .. => data
  | .atomAnd .. => data
  | .atomOr .. => data
  | .atomXor .. => data
  | .atomxXchg .. => data
  | .atomxCas .. => data
  | .atomxIncw .. => data
  | .atomxDecw .. => data
  | .atomxFaddF32 .. => data
  | .atomxFminF32 .. => data
  | .atomxFmaxF32 .. => data
  | .atomp .. => data
  | .tst .. => data
  | .swr .. => data
  | .cpyG2s .. => all
  | .cpyS2g .. => all
  | .cpyG2g .. => all
  | .cpyS2s .. => all
  | .cpyFlag .. => all
  | .cpyCommit .. => all
  | .plSt .. => all
  | .launch .. => all
  | .qpush .. => all
  | _ => []

/-- PROTECT_MISMATCH (21 R456): the low half of the shadow's value, the visible lane's address or target. -/
def mismatch (slot sub : Nat) (shadow : Word) (at_ : BitVec 64) : Verdict :=
  .trap causeMismatch shadow (BitVec.ofNat 32 (slot + 16 * sub)) (at_.extractLsb' 0 32) (at_.extractLsb' 32 32)

/-- What protected mode finds when it compares addresses and data registers across the pair of a thread. Where the word has
no address of its own, TRAPINFO2 holds the visible lane's operand. -/
def pairCompare (address : Chip → Nat → BitVec 64) (data : List Nat) (c : Chip) (t slot : Nat) : Option Verdict :=
  if !c.guarded t then none
  else
    let v := t / 2 * 2
    let w := v + 1
    let a := address c v
    let b := address c w
    if a ≠ b then some (mismatch slot 1 (b.extractLsb' 0 32) a)
    else match data.find? (fun r => decide (c.v v r ≠ c.v w r)) with
      | some r => some (mismatch slot 2 (c.v w r) (if a = 0 then (c.v v r).setWidth 64 else a))
      | none => none

/-- What protected mode finds when it compares a word across the pair of a thread. -/
def pairCheck (i : Instr) (c : Chip) (t slot : Nat) : Option Verdict :=
  pairCompare (fun c t => pairAddress c t i) (pairData i) c t slot

end Sys2Proof.Machine
end

