-- ==== Sys2Proof/Machine/Ready.lean ====
section
/-! DEFINITION. When a thread is ready beyond its registers (07 R134): the outstanding counters (11 R241, 14 R303, 15 R342), press
queues and publications (15 R322, R329, R332), furrows (16 R362), pages (17 R372), and the words that hold a thread (07
R155, 14 R304, R315, 15 R343, R345, 17 R386). -/

namespace Sys2Proof.Machine

/-! Counters. -/

/-- The copies counter: committed batches not yet resolved (14 R303). -/
def Chip.copies (c : Chip) (t : Nat) : Nat := (c.batches.filter (fun p => decide (p.2.th = c.leadOf t) && p.2.committed.isSome)).length

/-- Whether a counted entry has not finished: a press entry, a tile access or a publication's handle. -/
def Chip.unfinished (c : Chip) (id : Nat) : Bool :=
  (Sparse.find? c.press id).isSome || (Sparse.find? c.accesses id).isSome || (Sparse.find? c.handles id).isSome

/-- The entries the tiles counter counts: from the oldest that has not finished on (15 R342). -/
def Chip.tilesLeft (c : Chip) (t : Nat) : List Nat := (c.thread t).tiles.dropWhile (fun id => !c.unfinished id)

/-- The tiles counter. -/
def Chip.tiles (c : Chip) (t : Nat) : Nat := (c.tilesLeft t).length

/-- An entry joins the tiles counter of a thread. -/
def Chip.countTile (c : Chip) (t id : Nat) : Chip := c.setThread t { c.thread t with tiles := c.tilesLeft t ++ [id] }

/-- A word that takes a handle: whether once for each group, or for each visible thread (14 R304). -/
def handleTaker : Instr → Option Bool
  | .cpyCommit .. => some false
  | .mxIssue .. => some true
  | .mxReady .. => some false
  | .launch .. => some false
  | _ => none

/-- The handles that the issue group takes before a thread does, in a cycle and of one core: those of the threads ahead of it that have not
failed, and those of the words before it in the chain. -/
def State.takersAhead (e : State) (t : Nat) (byGroup : Bool) : Nat :=
  match e.issue with
  | none => 0
  | some iss =>
    let live := iss.members.filter (fun x => !iss.dead.any (fun d => decide (d.1 = x)))
    let ms := live.takeWhile (· != t)
    let earlier := (((iss.code.getD {}).words.take iss.at_).filterMap (fun w => handleTaker w.instr)).map (fun g =>
      if g then (live.map groupOf).dedup.length else (live.filter e.now.visible).length)
    (if byGroup then ((ms.map groupOf).dedup.filter (· != groupOf t)).length else (ms.filter e.now.visible).length) + earlier.sum

/-- A thread finds its core's handle table full (14 R304). -/
def handlesFull (e : State) (t : Nat) (byGroup : Bool) : Bool := decide (Config.handles ≤ e.now.handlesOf (e.now.coreOf t) + e.takersAhead t byGroup)

/-! The press (15). -/

/-- A field of a parameter block (15 R325), by bit. -/
def blk (b : BitVec 512) (lo len : Nat) : Nat := fieldNat b.toNat lo len

/-- Rows of the operation. -/
def blkM (b : BitVec 512) : Nat := blk b 32 8
/-- Columns of the operation. -/
def blkN (b : BitVec 512) : Nat := blk b 40 8
/-- The A source: 0 team-local, 1 furrow, 2 plates. -/
def blkAsrc (b : BitVec 512) : Nat := blk b 3 2
/-- Quad mode. -/
def blkQuad (b : BitVec 512) : Bool := decide (blk b 5 1 = 1)
/-- The target plates, in plate order (15 R326). -/
def blkTargets (b : BitVec 512) : List Nat := (List.range (blkM b / 32 * (blkN b / 32))).map (fun i => blk b 48 16 + i)
/-- The plates that hold A (15 R326). -/
def blkAPlates (b : BitVec 512) : List Nat :=
  if blkAsrc b = 2 then (List.range (blkM b / 8)).map (fun i => blk b 64 9 + i) else []

/-- The format codes of A, B and C, and the block length (04 R87). -/
def blkFmtA (b : BitVec 512) : Nat := blk b 16 4
def blkFmtB (b : BitVec 512) : Nat := blk b 20 4
def blkFmtC (b : BitVec 512) : Nat := blk b 24 2
def blkLen (b : BitVec 512) : Nat := blk b 26 5
/-- Sparse mode. -/
def blkSparse (b : BitVec 512) : Bool := decide (blk b 6 1 = 1)
/-- Accumulate mode. -/
def blkAccumulate (b : BitVec 512) : Bool := decide (blk b 2 1 = 1)

/-- The team-local ranges an operation reads, as offset and size (15 R326): rows of A, columns of B, scales and bitmap. -/
def blkRanges (b : BitVec 512) : List (Nat × Nat) :=
  (if blkAsrc b = 0 then (List.range (blkM b)).map (fun m => (blk b 64 32 + m * blk b 96 32, 512)) else []) ++
  (if blkQuad b then [] else (List.range (blkN b)).map (fun n => (blk b 128 32 + n * blk b 160 32, 512))) ++
  (if 6 ≤ blkFmtA b then [(blk b 192 32, 32 * blkM b)] else []) ++ (if 6 ≤ blkFmtB b then [(blk b 224 32, 32 * blkN b)] else []) ++
  (if blkSparse b then [(blk b 256 32, blkM b)] else [])

/-- A write of team-local bytes that an unresolved operation reads, its parameter block among them, leaves its plates unspecified (10
R222). -/
def Chip.taintOperands (c : Chip) (team off size : Nat) : Chip :=
  let hit := fun (q : PressEntry) => decide (q.team = team) && decide (q.kind = .issue) &&
    ((q.off, 64) :: blkRanges q.block).any (fun r => decide (off < r.1 + r.2) && decide (r.1 < off + size))
  { c with press := Sparse.mapVals (fun _ q => if hit q then { q with tainted := true } else q) c.press }

/-- The team-virtual plates an entry names, target plates first. -/
def PressEntry.plates (q : PressEntry) : List Nat :=
  if q.kind = .issue then blkTargets q.block ++ blkAPlates q.block else [q.plate]

/-- The unresolved entries of a group's queue (15 R322). -/
def Chip.queue (c : Chip) (g : Nat) : List Nat := Sparse.keysWhere (fun _ q => decide (q.group = g)) c.press

/-- The group's queue cannot take another entry. -/
def Chip.queueFull (c : Chip) (g : Nat) : Bool := decide (4 ≤ (c.queue g).length)

/-- The physical plate of a team's entry (15 R334). -/
def Chip.physical (c : Chip) (team n : Nat) : Option Nat := Sparse.find? (c.team team).map n

/-- Whether an unresolved entry names a physical plate of a core, whoever entered it (15 R335, R345). -/
def Chip.plateBusy (c : Chip) (core p : Nat) : Bool :=
  c.press.any (fun q => decide ((c.team q.2.team).core = some core) && q.2.plates.any (fun n => decide (c.physical q.2.team n = some p)))

/-- A plate in a core. -/
def Chip.plate (c : Chip) (core p : Nat) : Plate := Sparse.get {} (c.core core).plates p

/-- Writing a plate of a core. -/
def Chip.setPlate (c : Chip) (core p : Nat) (x : Plate) : Chip :=
  c.setCore core { c.core core with plates := Sparse.set (c.core core).plates p x }

/-- The group's publication that no quad issue has consumed (15 R329). -/
def Chip.openPub (c : Chip) (g : Nat) : Option (Nat × Publication) :=
  List.find? (fun (p : Nat × Publication) => decide (p.2.group = g) && !p.2.consumed) c.pubs

/-- Every present, non-exited thread of the group has executed MX.READY (15 R329). -/
def Chip.pubComplete (c : Chip) (p : Publication) : Bool := (c.alive p.group).all (fun t => p.lanes.contains (laneOf t))

/-! Furrows (16). -/

/-- One lane of a furrow of a thread's group. -/
def Plough.lane (p : Plough) (n lane : Nat) : Furrow := Sparse.get {} p.furrows (32 * n + lane)

/-- A stream that can still deliver: captured, not done, and running or held on a fault (16 R361, R364). -/
def Plough.active (p : Plough) (n : Nat) : Bool :=
  p.captured.getLsbD n && !p.done.getLsbD n && (decide (p.state = .running) || decide (p.state = .held))

/-- The lane is empty and more may come (16 R362). -/
def Chip.furrowWaits (c : Chip) (t n : Nat) : Bool :=
  let p := (c.group (groupOf t)).plough
  let f := p.lane n (laneOf t)
  f.entries.isEmpty && f.fault.isNone && p.active n

/-! Pages (17). -/

/-- The thread's held access still meets a page that is not served (17 R372, R378). -/
def heldPage (e : State) (c : Chip) (t : Nat) : Bool :=
  match (c.thread t).held with
  | none => false
  | some (va, _) => match translate e c (c.coreOf t) (c.ctxOf t) (c.thread t).level va .read with
    | .serve => true
    | .migrating => true
    | _ => false

/-- Whether a condition of a page may soft-fault the thread (17 R377). -/
def Chip.maySoft (c : Chip) (t : Nat) : Bool :=
  let th := c.thread t
  decide (th.level = .user) && !th.cont && decide ((c.team (c.teamOf t)).contvec ≠ 0)

/-- A thread held on a page, or by a request of its core that finds the arbiter full: no word of it executes (12 R276, 17 R372). -/
def stalled (e : State) (t : Nat) : Bool := heldPage e e.now t || e.now.coreStalled (e.now.coreOf t)

/-- An entry of a thread's team is unresolved, at whichever level it was entered (15 R343). MX.QUIESCE, and with it the thread's later words,
waits; it is executed again after a stop (15 R352; log entry 41). -/
def Chip.unquiet (c : Chip) (t : Nat) : Bool := c.press.any (fun p => decide (p.2.team = c.teamOf t))

/-- FENCE.TLB waits for the accesses of its context, plate transfers among them, which are translated at issue (15 R347, 17 R386). -/
def tlbFenceBlocked (e : State) (t : Nat) : Bool :=
  e.now.press.any (fun p => (decide (p.2.kind = .ld) || decide (p.2.kind = .st)) && !p.2.ended && decide ((e.now.team p.2.team).ctx = e.now.ctxOf t)) ||
  e.now.accesses.any (fun p => decide (p.2.ctx = e.now.ctxOf t) && !p.2.performed && decide (p.2.op ≠ .ecall) && decide (p.2.op ≠ .fence))

/-- A supervisor's ECALL would raise a loads counter that stands at 63 (11 R241, 19 R433). -/
def ecallBlocked (e : State) (t : Nat) : Bool := decide ((e.now.thread t).level = .supervisor) && decide (63 ≤ e.now.loads t)

/-- An access of the thread that a release of it waits for, other than a store visible in the core's L1 (11 R247, 12 R264). -/
def unreleased (c : Chip) (t : Nat) : Bool :=
  c.accesses.any (fun p => decide (p.2.th = c.leadOf t) && !p.2.performed && decide (p.2.op ≠ .ecall) && !p.2.early)

/-! Whose operands a thread takes. -/

/-- The lowest active home lane of the issue group. -/
def State.issueLead (e : State) (t : Nat) : Nat := (e.issue.bind (·.members.head?)).getD t
/-- The lowest active home lane of a thread's group in the issue group (15 R341). -/
def State.groupLead (e : State) (t : Nat) : Nat := (e.issue.bind (fun iss => iss.members.find? (fun x => decide (groupOf x = groupOf t)))).getD t

/-- The words that execute once for each group (15 R343, R347, 16 R358). -/
def groupWord : Instr → Bool
  | .mxIssue .. => true
  | .mxCancel .. => true
  | .plZero .. => true
  | .plClaim .. => true
  | .plFree .. => true
  | .plLd .. => true
  | .plSt .. => true
  | .plScale .. => true
  | .plSave .. => true
  | .plRst .. => true
  | .plwLoop .. => true
  | .plwGo .. => true
  | .plwStop .. => true
  | .plwStat .. => true
  | _ => false

/-- The words of the stash window, which execute once for the issue group (11 R250). -/
def stashWord : Instr → Bool
  | .stashMap .. => true
  | .stashWb .. => true
  | .stashDrop .. => true
  | _ => false

/-- The mask words, which execute once for each group whatever their U (05 R94, R110). -/
def maskWord : Instr → Bool
  | .mand .. => true
  | .mor .. => true
  | .mxor .. => true
  | .mnot .. => true
  | .mfromv .. => true
  | .mtov .. => true
  | .mpopc .. => true
  | .mself .. => true
  | _ => false

/-- The thread whose operands a thread takes. -/
def wordLead (e : State) (t : Nat) (i : Instr) : Nat :=
  if stashWord i then e.issueLead t else if maskWord i then e.groupLead t else if (opInfo i).u then e.issueLead t else if groupWord i then e.groupLead t else t

/-- A release fence of the thread that is not yet complete: nothing the thread writes passes it (10 R213). -/
def unfenced (c : Chip) (t : Nat) : Bool :=
  c.accesses.any (fun p => decide (p.2.th = c.leadOf t) && decide (p.2.op = .fence) && p.2.isRel)

/-- A word that may not execute yet in a thread, whatever its registers hold. -/
def blocked (e : State) (t : Nat) (i : Instr) : Bool :=
  let c := e.now
  let g := groupOf t
  match i with
  | .sts _ _ sp .. => decide (sp.toNat < 2) && unfenced c t
  | .spawn .. => unreleased c t
  | .spawnf .. => unreleased c t
  | .barSync .. => unreleased c t
  | .barArv .. => unreleased c t
  | .barClu _ => unreleased c t
  | .barGrid _ => unreleased c t
  | .gsync .. => unreleased c t
  | .waitNe .. => unreleased c t
  | .waitEq .. => unreleased c t
  | .waitGe .. => unreleased c t
  | .watch .. => unreleased c t
  | .qpush .. => unreleased c t
  | .ffence _ => unreleased c t
  | .resume _ => (c.thread t).cont && (c.thread t).fhandle.wait.isSome
  | .waitc _ l k n m => decide (l.toNat < c.loads t) || decide (k.toNat < c.stores t) || decide (n.toNat < c.copies t) || decide (m.toNat < c.tiles t)
  | .cpyCommit .. => handlesFull e t false || decide (63 ≤ c.copies t)
  | .mxIssue .. => c.queueFull g || handlesFull e t true || decide (63 ≤ c.tiles t)
  | .mxReady .. => handlesFull e t false || decide (63 ≤ c.tiles t) || (match c.openPub g with | some p => c.pubComplete p.2 | none => false)
  | .mxQuiesce _ => c.unquiet t
  | .plZero .. => c.queueFull g || decide (63 ≤ c.tiles t)
  | .plFree .. => c.queueFull g || decide (63 ≤ c.tiles t)
  | .plLd .. => c.queueFull g || decide (63 ≤ c.tiles t)
  | .plSt .. => c.queueFull g || decide (63 ≤ c.tiles t)
  | .plScale .. => c.queueFull g || decide (63 ≤ c.tiles t)
  | .plSave _ a => match c.physical (c.teamOf t) (c.v (e.groupLead t) a.toNat).toNat with
    | some p => c.plateBusy (c.coreOf t) p
    | none => false
  | .tld .. => decide (63 ≤ c.tiles t)
  | .tst .. => decide (63 ≤ c.tiles t)
  | .launch .. => unreleased c t || handlesFull e t false
  | .qpop _ _ n => c.furrowWaits t n.toNat
  | .qpeek _ _ n => c.furrowWaits t n.toNat
  | .fenceTlb _ => tlbFenceBlocked e t
  | .tlbInv .. => unreleased c t
  | .ecall .. => ecallBlocked e t
  | _ => false

/-- The parts of readiness of one word (07 R134): the operands of `l`, the destinations, counters and holds of `t`; `held` is
what holds the word beyond these. -/
def readyWith (e : State) (t l : Nat) (o : OpInfo) (held : Bool) : Bool :=
  o.srcs.all (fun s => s.ready e.now l) && o.dests.all (fun d => destReady e.now t d) && memReady e.now t o && !stalled e t && !held

/-- Readiness of one word in a thread by itself (07 R134). -/
def wordReady (e : State) (t : Nat) (i : Instr) : Bool := readyWith e t t (opInfo i) (blocked e t i)

/-- A thread in a pen is ready for the chain at its PC; one whose chain does not decode has no operand to wait for. -/
def threadReady (e : State) (t : Nat) (code : Fetched) : Bool :=
  code.fault.isSome || code.words.all (fun w => wordReady e t w.instr)

end Sys2Proof.Machine
end

