-- ==== Sys2Proof/Machine/Collective.lean ====
section
/-! DEFINITION. What a collective gives each participant (07 R156 to R161, 15 R351). `set` is the participation set; a
participant's operands are its registers, which do not change while it waits. In protected mode visible threads alone are
counted and shadows receive the same (21 R456); a pair of which one lane alone is named takes part as its visible lane. -/

namespace Sys2Proof.Machine

/-- The participant on a home lane, if the lane names one. -/
def partOn (c : Chip) (ps : List Nat) (l : Int) : Option Nat :=
  if 0 ≤ l ∧ l ≤ 31 then ps.find? (fun p => decide ((c.laneBit p : Int) = l)) else none

/-- A shuffle's result: the register and tag of the participant on the source lane, or the thread's own (07 R159). -/
def shuffle (c : Chip) (ps : List Nat) (t a : Nat) (l : Int) : Grant :=
  let r := c.reg ((partOn c ps l).getD t) a
  .value r.bits r.tag

/-- A vote's condition in a participant (07 R160). -/
def voteOf (c : Chip) (t : Nat) (n : BitVec 1) (a : BitVec 3) : Bool := xor (c.p t a.toNat) (n == 1)

/-- The mask of the participants that meet a condition. -/
def lanesWhere (c : Chip) (ps : List Nat) (f : Nat → Bool) : Word := c.maskOfThreads (ps.filter f)

/-- A reduction over v(a) of the set, in lane order (07 R161). -/
def reduceV (c : Chip) (ps : List Nat) (a : Nat) (f : Word → Word → Word) : Word :=
  match ps.map (fun p => c.v p a) with
  | [] => 0
  | x :: xs => xs.foldl f x

/-- Byte j of a tile row of a thread (15 R351). -/
def tileByte (c : Chip) (t n j : Nat) : Nat := elem (c.v t (8 * n + j / 4)) 8 (j % 4)

/-- TTRN for the participant on lane h (15 R351): its eight registers, each with the tag of the lowest participating lane's. -/
def transposed (c : Chip) (ps : List Nat) (t m : Nat) : List (Word × Tag) :=
  let h := c.laneBit t
  (List.range 8).map (fun k =>
    let w := (List.range 4).foldl (fun w b =>
      let byte := match partOn c ps ((4 * k + b : Nat) : Int) with
        | some p => tileByte c p m h
        | none => 0
      w + byte * 2 ^ (8 * b)) 0
    (BitVec.ofNat 32 w, match ps.head? with
      | some p => (c.reg p (8 * m + k)).tag
      | none => tagRaw))

/-- The result of a collective word for a participant `t` of `set`; a word that is no collective moves no data. -/
def collectiveResult (c : Chip) (w : Instr) (set : List Nat) (t : Nat) : Grant :=
  let ps := (set.map c.leadOf).dedup
  let h : Int := c.laneBit t
  let red := fun a f => Grant.value (reduceV c ps a f) tagInt
  match w with
  | .shflIdx _ d a _ => shuffle c ps t a.toNat (fieldNat (c.v t d.toNat).toNat 0 5)
  | .shflXor _ d a _ => shuffle c ps t a.toNat ((c.laneBit t ^^^ fieldNat (c.v t d.toNat).toNat 0 5 : Nat) : Int)
  | .shflUp _ d a _ => shuffle c ps t a.toNat (h - (c.v t d.toNat).toNat)
  | .shflDn _ d a _ => shuffle c ps t a.toNat (h + (c.v t d.toNat).toNat)
  | .voteAll _ _ n a _ => .flag (ps.all (fun p => voteOf c p n a))
  | .voteAny _ _ n a _ => .flag (ps.any (fun p => voteOf c p n a))
  | .ballot _ _ n a _ => .value (lanesWhere c ps (fun p => voteOf c p n a)) tagInt
  | .matchLanes _ _ a _ => .value (lanesWhere c ps (fun p => c.v p a.toNat == c.v t a.toNat)) tagInt
  | .radd _ _ a _ => red a.toNat (· + ·)
  | .rminS32 _ _ a _ => red a.toNat (fun x y => if x.toInt ≤ y.toInt then x else y)
  | .rmaxS32 _ _ a _ => red a.toNat (fun x y => if y.toInt ≤ x.toInt then x else y)
  | .rand _ _ a _ => red a.toNat (· &&& ·)
  | .ror _ _ a _ => red a.toNat (· ||| ·)
  | .rxor _ _ a _ => red a.toNat (· ^^^ ·)
  | .rminN32 _ _ a _ => red a.toNat (fun x y => if x ≤ y then x else y)
  | .rfadd _ _ a _ => .value (toF32 (Val.sum (ps.map (fun p => f32 (c.v p a.toNat))))) tagF32
  | .ttrn _ _ a _ => .tile (transposed c ps t a.toNat)
  | _ => .go

end Sys2Proof.Machine
end

