-- ==== Sys2Proof/Machine/Waits.lean ====
section
/-! DEFINITION. Waits (07 R139, R156, R157; 13 R282 to R294): arrivals, their completion and the release of the waiters, and
the intervals that a barrier closes (21 R457). -/

namespace Sys2Proof.Machine

/-- The wait a thread is in and has not been released from. -/
def Thread.waitsOn (t : Thread) : Option WaitRec :=
  match t.place with
  | .waiting r => if (Sparse.find? t.grants r.place).isSome then none else some r
  | _ => none

/-- Releasing a waiter: its word takes the grant when its chain commits (07 R139). -/
def Chip.release (c : Chip) (t : Nat) (g : Grant) : Chip :=
  match (c.thread t).waitsOn with
  | none => c
  | some r =>
    let c := c.setThread t { c.thread t with grants := Sparse.set (c.thread t).grants r.place g }
    { c with granted := c.granted ++ [t] }

/-- Recording the arrival a waiting word makes (13 R284, R289, R290). -/
def Chip.arrive (c : Chip) (t : Nat) (r : WaitRec) : Chip :=
  let tm := c.teamOf t
  let k := c.team tm
  if !r.arrived then c
  else match r.kind with
    | .barrier n _ =>
      let b := Sparse.get {} k.bars n
      c.setTeam tm { k with bars := Sparse.set k.bars n { b with arrived := (b.arrived ++ [t]).dedup } }
    | .cluster => c.setCluster k.cluster { c.cluster k.cluster with arrived := ((c.cluster k.cluster).arrived ++ [t]).dedup }
    | .grid => c.setLaunch k.launch { c.launch k.launch with gridArrived := ((c.launch k.launch).gridArrived ++ [t]).dedup }
    | _ => c

/-- Withdrawing the arrival of a waiting word (13 R292, R294). -/
def Chip.withdraw (c : Chip) (t : Nat) (r : WaitRec) : Chip :=
  let tm := c.teamOf t
  let k := c.team tm
  if !r.arrived then c
  else match r.kind with
    | .barrier n _ =>
      let b := Sparse.get {} k.bars n
      c.setTeam tm { k with bars := Sparse.set k.bars n { b with arrived := b.arrived.filter (· != t) } }
    | .cluster => c.setCluster k.cluster { c.cluster k.cluster with arrived := (c.cluster k.cluster).arrived.filter (· != t) }
    | .grid => c.setLaunch k.launch { c.launch k.launch with gridArrived := (c.launch k.launch).gridArrived.filter (· != t) }
    | _ => c

/-- The threads waiting with a kind that meets a condition. -/
def Chip.waiters (c : Chip) (f : Nat → WaitRec → Bool) : List Nat :=
  Sparse.keysWhere (fun i t => match t.waitsOn with | some r => f i r | none => false) c.threads

/-- Closing a team's interval: its held words are released as at a core-scope release of every thread, and the next
interval opens clean (21 R457, R458). -/
def Chip.closeInterval (c : Chip) (team : Nat) : Chip :=
  if !(c.team team).rollback then c
  else
    let c := c.commitEarly team
    c.setTeam team { c.team team with interval := { opened := true } }

/-- The threads an all-mode barrier of some teams counts: present, not exited, not spawned, visible (13 R285, R287, R288). -/
def Chip.counted (c : Chip) (teams : List Nat) : List Nat :=
  (teams.flatMap c.teamThreads).filter (fun t => !(c.group (groupOf t)).spawned && c.visible t)

/-- A second arrival arrives in the new phase, in the cycle in which the old one completes (13 R284, R285): BAR.ARV is released
with its token; BAR.SYNC goes on waiting, for the new phase. -/
def Chip.arriveAgain (c : Chip) (team n : Nat) (t : Nat) (r : WaitRec) : Chip :=
  let k := c.team team
  let b := Sparse.get {} k.bars n
  let c := c.setTeam team { k with bars := Sparse.set k.bars n { b with arrived := b.arrived ++ [t] } }
  match r.word with
  | .barArv .. => c.release t (.token b.phase)
  | _ => c.setThread t { c.thread t with
      place := .waiting { r with kind := .barrier n false, seen := b.phase, arrived := true, waited := 0, timeout := k.timeout.toNat } }

/-- The arrival of a second arrival whose chain does not commit after all is withdrawn. -/
def Chip.ungrant (c : Chip) (t : Nat) (words : List ChainWord) : Chip :=
  (c.thread t).grants.foldl (fun c g => match g.2, (words[g.1]?).map (·.instr) with
    | .token phase, some (.barArv _ _ n) =>
      let k := c.team (c.teamOf t)
      let b := Sparse.get {} k.bars n.toNat
      if b.phase = phase then c.setTeam (c.teamOf t) { k with bars := Sparse.set k.bars n.toNat { b with arrived := b.arrived.filter (· != t) } } else c
    | _, _ => c) c

/-- Completing a named barrier's phase, if it is complete (13 R285). DESIGN CHOICE (log entry 143): an all-mode phase of a team with no
counted thread left completes once some thread has arrived or waits. -/
def Chip.settleBarrier (c : Chip) (team n : Nat) : Chip :=
  let k := c.team team
  let b := Sparse.get {} k.bars n
  let ws := c.waiters (fun i r => decide (c.teamOf i = team) && (match r.kind with | .barrier m _ => decide (m = n) | _ => false))
  let here := b.arrived.filter c.visible
  let done := if b.count = 0 then
      (c.counted [team]).all (fun t => b.arrived.contains t) && (!here.isEmpty || !ws.isEmpty)
    else decide (b.count ≤ here.length)
  if !done then c
  else
    let b' : Barrier := { phase := b.phase + 1, arrived := [], count := b.pend.getD b.count, pend := none }
    let c := c.setTeam team { k with bars := Sparse.set k.bars n b' }
    let c := if b.count = 0 then c.closeInterval team else c
    ws.foldl (fun c t => match (c.thread t).waitsOn with
      | some r => if r.kind = .barrier n true then c.arriveAgain team n t r else c.release t .go
      | none => c) c

/-- Waiters are released with an acquire of every arrival: their cores' clocks advance to the latest of them (10 R220, 12 R265). -/
def Chip.releaseAll (c : Chip) (ws : List Nat) : Chip :=
  let t := ws.foldl (fun m t => max m (c.core (c.coreOf t)).clk) 0
  ws.foldl (fun c w => (c.clockAdvance (c.coreOf w) t).release w .go) c

/-- Completing a cluster's barrier (13 R289). -/
def Chip.settleCluster (c : Chip) (k : Nat) : Chip :=
  let q := c.cluster k
  let ws := c.waiters (fun i r => decide ((c.team (c.teamOf i)).cluster = k) && decide (r.kind = .cluster))
  let live := q.teams.filter (fun t => (c.team t).live)
  if ws.isEmpty || !(c.counted live).all (fun t => q.arrived.contains t) then c
  else
    let c := c.setCluster k { q with phase := q.phase + 1, arrived := [] }
    (live.foldl (fun c t => c.closeInterval t) c).releaseAll ws

/-- The clusters of a launch's grid (08 R179). -/
def Launch.clusters (l : Launch) : Nat := l.gx / l.clw * (l.gy / l.clh) * l.gz

/-- Completing a launch's grid barrier: every team is placed, none is saved, and every thread has arrived (13 R290). -/
def Chip.settleGrid (c : Chip) (k : Nat) : Chip :=
  let l := c.launch k
  let ws := c.waiters (fun i r => decide ((c.team (c.teamOf i)).launch = k) && decide (r.kind = .grid))
  let teams := Sparse.keysWhere (fun _ t => t.live && decide (t.launch = k)) c.teams
  let whole := decide (l.placed = l.clusters) && teams.all (fun t => (c.team t).core.isSome)
  if ws.isEmpty || !whole || !(c.counted teams).all (fun t => l.gridArrived.contains t) then c
  else
    let c := c.setLaunch k { l with gridPhase := l.gridPhase + 1, gridArrived := [] }
    (teams.foldl (fun c t => c.closeInterval t) c).releaseAll ws

/-- The mask a collective or GSYNC waits on. -/
def WaitKind.mask? : WaitKind → Option Nat
  | .collective m => some m
  | .gsync m => some m
  | _ => none

/-- The participation set of a waiting thread: itself alone where the mask does not name it, else the threads of its group
that the mask names and that have not exited (07 R156). -/
def Chip.participants (c : Chip) (t m : Nat) : List Nat :=
  let mk := c.readM (groupOf t) m
  if mk.getLsbD (c.laneBit t) then (c.alive (groupOf t)).filter (fun p => mk.getLsbD (c.laneBit p)) else [t]

/-- Executing the collectives of a group whose participants have all arrived (07 R156, 13 R291). -/
def Chip.settleGroup (c : Chip) (g : Nat) : Chip :=
  (c.alive g).foldl (fun c t => match (c.thread t).waitsOn with
    | none => c
    | some r => match r.kind.mask? with
      | none => c
      | some m =>
        let ps := c.participants t m
        let here := fun p => match (c.thread p).waitsOn with
          | some q => decide (q.kind = r.kind) && decide (q.word = r.word) && decide ((c.thread p).pc = (c.thread t).pc)
          | none => false
        if ps.all here then ps.foldl (fun d p => d.release p (collectiveResult c r.word ps p)) c else c) c

/-- Everything that arrivals, exits and mask writes of some groups can complete. -/
def Chip.settleWaits (c : Chip) (groups : List Nat) : Chip :=
  let teams := (groups.map (fun g => (c.group g).team)).dedup
  let c := groups.foldl Chip.settleGroup c
  let c := teams.foldl (fun c t => (List.range (c.team t).barriers).foldl (fun c n => c.settleBarrier t n) c) c
  let c := (teams.map (fun t => (c.team t).cluster)).dedup.foldl Chip.settleCluster c
  (teams.map (fun t => (c.team t).launch)).dedup.foldl Chip.settleGrid c

/-- The release an arrival makes (10 R220): at core scope the thread's stores enter the release list, at a wider scope the
list is then drained. -/
def releaseArrival (e : State) (c : Chip) (t : Nat) (wide : Bool) : Chip :=
  let k := c.coreOf t
  let c := releaseLines e c k [t] c.nextId
  if wide then releaseAt e c c.nextId { th := t, core := k, op := .fence, scope := 1 } else c

/-- A waiting word's slot is armed; a team-local word that other threads' chains have written in the same cycle has fired it (13 R297,
R298). -/
def armWait (e : State) (c : Chip) (t : Nat) (r : WaitRec) (ea : BitVec 64) : Chip :=
  let c := (armWatch e c t ea).nextFree (watchRemote e c t ea)
  if watchLocal ea && decide ((watchRead e c t ea).1 ≠ r.seen) then c.fireSlot t else c

/-- A thread leaves its pen for a wait, and its word arrives (07 R139). -/
def Chip.enterWait (c : Chip) (e : State) (t : Nat) (r : WaitRec) : Chip :=
  let c := c.leave t (.waiting { r with timeout := (c.team (c.teamOf t)).timeout.toNat })
  let c := c.arrive t r
  match r.kind with
  | .cluster => releaseArrival e c t true
  | .grid => releaseArrival e c t true
  | .barrier _ second => if r.arrived || second then releaseArrival e c t false else c
  | .gsync _ => releaseArrival e c t false
  | .word _ => match r.word with
    | .waitNe _ _ a _ => armWait e c t r (c.vv t (2 * a.toNat))
    | .waitEq _ _ a _ => armWait e c t r (c.vv t (2 * a.toNat))
    | .waitGe _ _ a _ => armWait e c t r (c.vv t (2 * a.toNat))
    | _ => c
  | _ => c

/-! Copy batches (14 R302). -/

/-- The open batch of a thread at a level; it opens on its first word. -/
def Chip.openBatchOf (c : Chip) (t : Nat) (lvl : Level) : Nat × Chip :=
  match Sparse.find? (c.thread t).openBatch lvl.code with
  | some id => (id, c)
  | none =>
    let (id, c) := c.fresh
    (id, (c.setBatch id { th := t, level := lvl }).setThread t
      { c.thread t with openBatch := Sparse.set (c.thread t).openBatch lvl.code id })

/-- Closing the open batch of a level: it is committed with a scope, behind the thread's earlier ones (14 R303). -/
def Chip.closeBatch (c : Chip) (t : Nat) (lvl : Level) (scope : BitVec 3) : Nat × Chip :=
  let (id, c) := c.openBatchOf t lvl
  let (n, c) := c.tickStamp
  let c := c.setThread t { c.thread t with openBatch := Sparse.erase (c.thread t).openBatch lvl.code }
  match Sparse.find? c.batches id with
  | some b => (id, c.setBatch id { b with committed := some n, scope := scope })
  | none => (id, c)

/-- A thread exits with open batches: each is committed at die scope, the user batch first (14 R316). -/
def Chip.closeAll (c : Chip) (t : Nat) : Chip :=
  [Level.user, .supervisor, .firmware].foldl (fun c l =>
    if (Sparse.find? (c.thread t).openBatch l.code).isSome then (c.closeBatch t l 2).2 else c) c

/-- A thread exits: its outstanding loads are dropped, but for a load of a U = 1 word whose data another thread still takes (07
R162), and it leaves every set it was counted in (07 R149). -/
def Chip.exitThread (c : Chip) (t : Nat) : Chip :=
  let c := (c.closeAll t).leave t .exited
  let c := c.setThread t { c.thread t with grants := [], patched := none, held := none, due := none, watch := {} }
  let kept := c.accesses.filter (fun p => decide (p.2.th ≠ t) || p.2.takers.any (· != t) || p.2.writes || p.2.storing || decide (p.2.op = .fence))
  { c with accesses := kept.map (fun p =>
      let rest := p.2.takers.filter (· != t)
      let th := if p.2.th = t ∧ p.2.writes = false ∧ p.2.storing = false then rest.head?.getD t else p.2.th
      (p.1, { p.2 with takers := rest, th := th })) }

end Sys2Proof.Machine
end

