-- ==== Sys2Proof/Machine/Rollback.lean ====
section
/-! DEFINITION. Rolling a team back to the opening of its interval (21 R458, R460), and noting the machine when an interval
opens. -/

namespace Sys2Proof.Machine

/-- Dropping the words a team holds from its core's L1: they never reach their homes (21 R460). -/
def dropHeld (e : State) (c : Chip) (k : Nat) (held : List Nat) : Chip :=
  held.foldl (fun c w =>
    let ln := w / 32
    let bit : BitVec 32 := BitVec.ofNat 32 (2 ^ (w % 32))
    let h := c.line e ln
    let owned := h.owned &&& ~~~bit
    let c := if h.owner = some k then c.setLine ln { h with owned := owned, owner := if owned = 0 then none else some k, state := if owned = 0 then .shared else .owned } else c
    match c.l1? k ln with
    | some l => c.setL1 k ln { l with
        owned := l.owned &&& ~~~bit, dirty := l.dirty &&& ~~~bit, valid := l.valid &&& ~~~bit, rts := 0 }
    | none => c) c

/-- One machine without a team's threads and what they own. -/
def Chip.keepOthers (c : Chip) (team : Nat) : Chip :=
  let gs := c.groupsOf team
  let mine := fun t => gs.contains (groupOf t)
  { c with
    threads := Sparse.only (fun i _ => !mine i) c.threads
    groups := Sparse.only (fun i _ => !gs.contains i) c.groups
    accesses := Sparse.only (fun _ a => !mine a.th) c.accesses
    batches := Sparse.only (fun _ b => !mine b.th) c.batches
    press := Sparse.only (fun _ q => decide (q.team ≠ team)) c.press
    pubs := Sparse.only (fun _ q => !gs.contains q.group) c.pubs
    granted := c.granted.filter (fun t => !mine t)
    crofts := Sparse.mapVals (fun _ f => { f with fold := (f.fold.map (fun q => { q with threads := q.threads.filter (fun t => !mine t) })).filter (fun q => !q.threads.isEmpty) }) c.crofts }

/-- The plates and bins of a core with those of a team taken from another machine's core. -/
def teamParts (here there : Core) (team : Nat) : Core :=
  let owned := fun (p : Plate) => match p.owner with
    | some o => decide (o.team = team)
    | none => false
  { here with
    plates := Sparse.union (Sparse.only (fun _ p => !owned p) here.plates) (Sparse.only (fun _ p => owned p) there.plates)
    bins := Sparse.union (Sparse.only (fun _ b => decide (b.team ≠ team)) here.bins) (Sparse.only (fun _ b => decide (b.team = team)) there.bins) }

/-- The barriers of a team with the arrivals of waiting words withdrawn (13 R294). -/
def withdrawn (threads : Sparse Thread) (bars : Sparse Barrier) : Sparse Barrier :=
  threads.foldl (fun (b : Sparse Barrier) (p : Nat × Thread) => match p.2.waitsOn with
    | some { kind := .barrier n _, arrived := true, .. } =>
      let x := Sparse.get {} b n
      Sparse.set b n { x with arrived := x.arrived.filter (· != p.1) }
    | _ => b) bars

/-- Putting a team back as a noted machine holds it, every thread at its PC there; the clocks stand (21 R460). A write that
was on its way then and has been performed since is not made again (10 R226). -/
def restoreTeam (c sh : Chip) (team : Nat) : Chip :=
  let now := c.team team
  let gs := sh.groupsOf team
  let mine := fun t => gs.contains (groupOf t)
  let old := sh.team team
  let crofts := ((c.groupsOf team).map (fun g => (c.group g).croft)).dedup
  let threads := Sparse.only (fun i _ => mine i) sh.threads
  let c1 := c.keepOthers team
  let c1 := { c1 with
    threads := Sparse.union c1.threads (Sparse.mapVals (fun _ (t : Thread) =>
      { t with place := if t.place = Place.exited then .exited else .saved false, grants := [], patched := none }) threads)
    groups := Sparse.union c1.groups (Sparse.only (fun i _ => gs.contains i) sh.groups)
    accesses := Sparse.union (Sparse.union c1.accesses (Sparse.only (fun _ a => mine a.th && (a.performed || !a.writes)) sh.accesses))
      (Sparse.only (fun i a => mine a.th && a.writes && (match Sparse.find? sh.accesses i with | some b => !b.performed | none => false)) c.accesses)
    batches := Sparse.union c1.batches (Sparse.only (fun _ b => mine b.th) sh.batches)
    press := Sparse.union c1.press (Sparse.only (fun _ q => decide (q.team = team)) sh.press)
    pubs := Sparse.union c1.pubs (Sparse.only (fun _ q => gs.contains q.group) sh.pubs) }
  let c1 := crofts.foldl (fun d i => (d.croft i).pens.foldl (fun d p => d.passPen i p.1) d) c1
  let c1 := match now.core with
    | none => c1
    | some k => c1.setCore k (teamParts (c1.core k) (sh.core k) team)
  let c1 := c1.setTeam team { old with bars := withdrawn threads old.bars, interval := { rolled := now.interval.rolled + 1 } }
  c1.moveAll (Sparse.keysWhere (fun i (t : Thread) => mine i && decide (t.place = Place.saved false)) c1.threads)

/-- An uncorrectable error charged to a team in rollback mode, or a mismatch in it (21 R460): rolled back in a clean
interval; the context killed in one committed early, or at a fourth error. -/
def rollbackTeam (s : State) (team : Nat) (r : ErrRec) : State :=
  let c := s.now
  let t := c.team team
  if t.interval.early || decide (3 ≤ t.interval.rolled) then { s with now := kill s c t.ctx r.cause { r with source := 7 } }
  else
    let sh := Sparse.get c s.shadows team
    let c := match t.core with
      | some k => dropHeld s c k t.interval.held
      | none => c
    let c := restoreTeam c sh team
    { s with now := errorRecord s c t.ctx { r with i0 := r.i0 ||| 0x80000000, killed := false } }

/-- Noting the machine for every team whose interval has just opened and whose released threads have moved on (21 R458). -/
def noteIntervals (s : State) : State :=
  let due := Sparse.keysWhere (fun _ t => t.interval.opened) s.now.teams |>.filter (fun k => !s.now.granted.any (fun t => decide (s.now.teamOf t = k)))
  due.foldl (fun s k =>
    let t := s.now.team k
    let c := s.now.setTeam k { t with interval := { t.interval with opened := false } }
    let c := match t.core with
      | some x => trimNow s c x
      | none => c
    { s with now := c, shadows := Sparse.set s.shadows k c }) s

end Sys2Proof.Machine
end

