-- ==== Sys2Proof/Machine/Chain.lean ====
section
/-! DEFINITION. How a chain executes (03 R38 to R40, 07 R135, R140, R162): its words one by one on the machine as it stood
before the chain, each for the threads of the issue group that have not failed; then the chain commits as one unit, threads
move, trap, wait or exit. An open issue of the state is one issue group; every meaning of an instruction word goes through
`runWord`. -/

namespace Sys2Proof.Machine

/-- A check of one word in one thread: state before the chain, thread, slot of the word. -/
abbrev Check := State → Nat → Nat → Option Verdict

/-- The effect of one word: state before the chain, the threads of the issue group, those of them for which the word takes
effect, and the machine with the effects of the chain's earlier words. -/
abbrev Act := State → List Nat → List Nat → Chip → Chip

/-- The state with the machine as it stood before the open chain (03 R39). -/
def State.before (s : State) : State := { s with now := s.base.getD s.now, base := none }

/-- A verdict that stands whatever the chain's later words find; a wait does not (07 R139). -/
def Verdict.final : Verdict → Bool
  | .wait _ => false
  | _ => true

/-- Slot of the word that executes next. -/
def Issue.slot (iss : Issue) : Nat :=
  match (iss.code.getD {}).words[iss.at_]? with
  | some w => w.slot
  | none => 0

/-- The verdict of a thread, if it has one. -/
def Issue.verdict (iss : Issue) (t : Nat) : Option Verdict := ((iss.dead.find? (fun d => decide (d.1 = t))).map (·.2.2))

/-- Where a thread of the group goes instead of the next word. -/
def Issue.jump (iss : Issue) (t : Nat) : Option Jump := (iss.jumps.find? (fun j => decide (j.1 = t))).map (·.2)

/-- The threads of the group that have not failed. -/
def Issue.live (iss : Issue) : List Nat := iss.members.filter (fun t => (iss.verdict t).isNone)

/-- Whether a thread's grant lets the word at its place commit (07 R139). -/
def Issue.granted (c : Chip) (iss : Issue) (t : Nat) : Option Grant := Sparse.find? (c.thread t).grants iss.at_

/-- The first register of a word's operands that holds an uncorrectable error, with its subcode (21 R450, R453). -/
def poisonedSource (c : Chip) (t : Nat) (o : OpInfo) : Option (Nat × Nat) :=
  (o.srcs.filter (fun s => s.read c t)).findSome? (fun s => ((c.reg t s.reg).poison).map (fun k => (s.reg, k)))

/-- Consuming poison in rollback mode ends the chain: the team is rolled back, or its context killed (21 R453, R460). -/
def poisonCheck (c : Chip) (t slot : Nat) (o : OpInfo) : Option Verdict :=
  if !(c.team (c.teamOf t)).rollback then none
  else (poisonedSource c t o).map (fun p => .trap causeUncorrectable 0 (BitVec.ofNat 32 (slot + 16 * p.2)) (BitVec.ofNat 32 p.1) 0)

/-- What the engine needs to know of a word: its operands, the thread whose operands a thread takes, what holds it, and what
protected mode compares. -/
structure WordKind where
  info : OpInfo
  lead : State → Nat → Nat := fun _ t => t
  held : State → Nat → Bool := fun _ _ => false
  pair : Chip → Nat → Nat → Option Verdict := fun _ _ _ => none

/-- The kind of an instruction. -/
def kindOf (i : Instr) : WordKind :=
  { info := opInfo i, lead := fun e t => wordLead e t i, held := fun e t => blocked e t i, pair := pairCheck i }

/-- What the checks of a word find in a thread: its readiness (07 R134), the checks of every word at issue, its own, and the
compare of protected mode. With U = 1, and where a word executes once for a group, the operands and so the verdict are those
of the lowest active home lane (07 R162, 15 R341). DESIGN CHOICE (log entry 109): where threads of launches with different
register counts (08 R169) share the issue group of a U = 1 word, its destination is judged on that lane's count alone; the
manual does not say. -/
def wordVerdict (k : WordKind) (check : Check) (pre : State) (t slot : Nat) : Option Verdict :=
  let l := k.lead pre t
  if !(readyWith pre t l k.info (k.held pre t)) then some .notReady
  else (issueCheck pre.now l slot k.info).orElse (fun _ => (check pre l slot).orElse (fun _ =>
    (k.pair pre.now l slot).orElse (fun _ => poisonCheck pre.now l slot k.info)))

/-- The verdicts a word adds. -/
def Issue.judge (k : WordKind) (check : Check) (pre : State) (iss : Issue) : List (Nat × Nat × Verdict) :=
  let open_ := iss.members.filter (fun t => match iss.verdict t with | some v => !v.final | none => true)
  open_.filterMap (fun t => (wordVerdict k check pre t iss.slot).map (fun v => (t, iss.at_, v)))

/-- A thread consumes poison: the error is due to it, one at a time (21 R454). -/
def Chip.consume (c : Chip) (t slot sub addr : Nat) : Chip :=
  match (c.thread t).due with
  | some _ => c
  | none => c.setThread t { c.thread t with due := some { since := 0, slot := slot, subcode := sub, addr := addr } }

/-- A register that takes an unspecified value (21 R454), its tag as written. -/
def Chip.freeReg (c : Chip) (t n : Nat) : Chip :=
  let r := c.reg t n
  match r.wait with
  | some _ => c
  | none =>
    let (v, c) := c.freeValue
    c.setReg t n { r with bits := v.setWidth 32 }

/-- A predicate and a mask that take an unspecified value (21 R454). -/
def Chip.freePred (c : Chip) (t k : Nat) : Chip :=
  let (v, c) := c.freeValue
  c.writeP t k (v.getLsbD 0)
def Chip.freeMask (c : Chip) (t k : Nat) : Chip :=
  let (v, c) := c.freeValue
  c.writeM (groupOf t) k (v.setWidth 32)

/-- The threads that read a poisoned register consume it, and the registers, predicates and masks they write are unspecified
(21 R453, R454). -/
def consumePoison (pre : Chip) (lead : Nat → Nat) (live : List Nat) (slot : Nat) (o : OpInfo) (c : Chip) : Chip :=
  live.foldl (fun c t =>
    match poisonedSource pre (lead t) o with
    | none => c
    | some (r, k) =>
      let c := if lead t = t then c.consume t slot k r else c
      let c := o.dests.foldl (fun c d => c.freeReg t d) c
      let c := o.preds.foldl (fun c k => c.freePred t k) c
      o.masks.foldl (fun c k => c.freeMask t k) c) c

/-- One word of the open chain: its checks, and its effect on the threads that pass. -/
def wordStep (k : WordKind) (check : Check) (act : Act) (s : State) (iss : Issue) : State :=
  let pre := s.before
  let bad := iss.judge k check pre
  let keep := iss.dead.filter (fun d => !bad.any (fun b => decide (b.1 = d.1)))
  let iss' := { iss with dead := keep ++ bad, at_ := iss.at_ + 1 }
  let live := iss'.live
  let eff := fun c => consumePoison pre.now (k.lead pre) live iss.slot k.info (act pre iss.members live c)
  { s with now := if live.isEmpty then s.now else eff s.now, base := some pre.now, issue := some iss' }

/-! Committing. -/

/-- Causes that a stencil image may name (22 R467). -/
def nameable (cause : Nat) : Bool := (1 ≤ cause && cause ≤ 7) || (9 ≤ cause && cause ≤ 0xD) || cause == 0x17

/-- The slot that takes a word for a cause, 0 at decode (22 R466, R467). -/
def stencilPick (c : Chip) (t : Nat) (word : Word) (cause : Nat) : Option Nat :=
  let lvl := (c.thread t).level
  let sel := (c.ctx (c.ctxOf t)).patchsel
  let hit := (List.range 16).filter (fun s =>
    let x := c.slot s
    decide (x.state = .armed) && decide (x.cause = cause) && decide (word &&& x.mask = x.value) && decide (lvl ≠ .firmware) &&
      x.levels.getLsbD lvl.code && sel.getLsbD s)
  hit.foldl (fun b s => match b with
    | none => some s
    | some r => if (c.slot r).prio < (c.slot s).prio then some s else b) none

/-- PATCH_TRAP (22 R468): matched word, its slot in the chain, subcode, stencil slot and image, replaced cause. -/
def patchTrap (c : Chip) (word : Word) (at_ sub sl cause : Nat) : Verdict :=
  .trap causePatch word (BitVec.ofNat 32 (at_ + 16 * sub)) (BitVec.ofNat 32 (sl + 65536 * (c.slot sl).patchid)) (BitVec.ofNat 32 cause)

/-- Adding an order stamp's use. -/
def Chip.stamped (c : Chip) : Chip := { c with stamp := c.stamp + 1 }

/-- A thread has issued now, whatever becomes of its chain (07 R135). -/
def Chip.issuedNow (c : Chip) (t : Nat) : Chip := c.setThread t { c.thread t with lastIssue := c.stamp }

/-- Whether a trap is charged to a team in rollback mode, which is then rolled back or its context killed (21 R460). -/
def rollsBack (c : Chip) (t cause : Nat) : Bool :=
  (c.team (c.teamOf t)).rollback && (decide (cause = causeUncorrectable) || decide (cause = causeMismatch))

/-- A QPOP or QPEEK has raised the faulted entry of its lane: the next one reads the element again (16 R364). -/
def Chip.tellFurrow (c : Chip) (t n : Nat) : Chip :=
  let g := c.group (groupOf t)
  let f := g.plough.lane n (laneOf t)
  if f.entries.isEmpty && f.fault.isSome then
    c.setGroup (groupOf t) { g with plough := { g.plough with furrows := Sparse.set g.plough.furrows (32 * n + laneOf t) { f with told := true } } }
  else c

/-- What a trap of a word leaves beyond the trap: the faulted furrow entry it raised is noted. -/
def afterTrap (c : Chip) (t cause : Nat) : Option Instr → Chip
  | some (.qpop _ _ n) => if cause = causeRange then c else c.tellFurrow t n.toNat
  | some (.qpeek _ _ n) => if cause = causeRange then c else c.tellFurrow t n.toNat
  | _ => c

/-- A word whose hold is that of a fetch: the page of its target, which no HOLDLIM ends (07 R144, 17 R378). -/
def transferWord : Instr → Bool
  | .jmpr .. => true
  | .callr .. => true
  | .ret .. => true
  | .resume .. => true
  | .tret .. => true
  | _ => false

/-- What becomes of a thread that would soft-fault to a continuation whose page is held for fetch: it is held (17 R378). -/
def softOrHold (e : State) (c : Chip) (t : Nat) : Verdict → Verdict
  | .soft va => ((targetHeld e c (c.coreOf t) (c.ctxOf t) (c.thread t).level (c.team (c.teamOf t)).contvec).map Verdict.hold).getD (.soft va)
  | v => v

/-- An append that waits for the leases of a page it writes ends the sharing of that page (17 R383, R387). -/
def demoteAppend (e : State) (c : Chip) (t : Nat) (i : Instr) : Chip :=
  let one := fun (c : Chip) (ea : BitVec 64) => match translate e c (c.coreOf t) (c.ctxOf t) (c.thread t).level ea.toNat .write with
    | .ok p _ none => if leasePending e p then demotePage e c (c.ctxOf t) ea.toNat else c
    | _ => c
  if (opInfo i).srcs.any (fun s => !s.ready c t) then c
  else match i with
    | .launch _ _ a b => one (one c (c.vv t (2 * a.toNat))) (c.vv t (2 * b.toNat))
    | .qpush _ _ a b => one (one c (c.vv t (2 * a.toNat))) (c.vv t (2 * b.toNat))
    | _ => c

/-- A thread of the group whose chain does not commit. -/
def failThread (e : State) (iss : Issue) (c : Chip) (t idx : Nat) (v : Verdict) : Chip :=
  let code := iss.code.getD {}
  let c := match v with
    | .notReady => c
    | .hold _ => c
    | _ => c.ungrant t code.words
  let single := decide (code.len ≤ 1)
  match softOrHold e c t v with
  | .trap cause i0 i1 i2 i3 =>
    let w := if code.fault.isSome then none else code.words[idx]?
    let raw := match w with | some x => x.raw | none => i0
    let at_ := fieldNat i1.toNat 0 2
    let own := (match w with | some x => x.supplied | none => code.supplied) || (c.thread t).patched.isSome || !nameable cause ||
      (w.isNone && cause != causeIllegal && cause != causeChain)
    if rollsBack c t cause then c
    else match (if own then none else stencilPick c t raw cause) with
    | none => enterTrap e (afterTrap c t cause (w.map (·.instr))) t iss.pc iss.pc cause i0 i1 i2 i3
    | some sl =>
      let x := c.slot sl
      if x.action = 2 then
        { c.setThread t { c.thread t with patched := some (sl, match w with | some x => x.slot | none => at_) } with granted := c.granted ++ [t] }
      else if x.action = 3 ∧ single = true then enterEmulate c t iss.pc sl raw cause
      else match patchTrap c raw at_ (if x.action = 3 then 3 else 2) sl cause with
        | .trap k j0 j1 j2 j3 => enterTrap e c t iss.pc iss.pc k j0 j1 j2 j3
        | _ => c
  | .soft va =>
    match badContinuation e c t with
    | some k =>
      let vec := (c.team (c.teamOf t)).contvec
      let (raw, slot) := match code.words[idx]? with | some w => (w.raw, w.slot) | none => (0, 0)
      enterTrap e c t iss.pc iss.pc causeChain raw (BitVec.ofNat 32 (slot + 16 * k)) (vec.extractLsb' 0 32) (vec.extractLsb' 32 32)
    | none => enterSoftFault c t iss.pc va
  | .hold va =>
    let th := c.thread t
    let w := if code.fault.isSome then none else (code.words[idx]?.filter (fun w => !transferWord w.instr)).map (fun w => (w.raw, w.slot))
    let n := match th.held with | some (p, n) => if p = va ∧ th.heldWord.isSome = w.isSome then n else 0 | none => 0
    c.setThread t { th with held := some (va, n), heldWord := w }
  | .emulate sl word cause => enterEmulate c t iss.pc sl word cause
  | .wait _ => c
  | .notReady => match code.words[idx]? with
    | some w => demoteAppend e c t w.instr
    | none => c

/-- The open batch of a thread's firmware routine is committed at die scope by the routine's TRET, with what words after the TRET in its chain
appended (14 R302). DESIGN CHOICE (log entry 145): with the copies counter at 63 too, which then stands at 64. -/
def Chip.closeFirmware (c : Chip) (t : Nat) : Chip := if (Sparse.find? (c.thread t).openBatch 2).isSome then (c.closeBatch t .firmware 2).2 else c

/-- The entries that a chain of some threads has consumed: a WAITC that has seen an entry leave its counter, a read of a handle (15 R342). Of
a handle that has resolved a register keeps no more than its status word, so the read of any handle counts for every resolved entry of the
group (log entry 147). -/
def Chip.consumeEntries (c pre : Chip) (ts : List Nat) (words : List ChainWord) : Chip :=
  let done := fun (x : Nat × Nat) => ts.any (fun t => decide (groupOf t = x.2) && words.any (fun w => match w.instr with
    | .waitc .. => !(pre.tilesLeft t).contains x.1
    | i => (opInfo i).srcs.any (fun s => s.blocks && decide ((pre.reg t s.reg).tag = tagHandle))))
  let f := fun (p : Plate) => match p.left with
    | some x => if done x then { p with left := none } else p
    | none => p
  { c with cores := Sparse.mapVals (fun _ (k : Core) => { k with plates := Sparse.mapVals (fun _ p => f p) k.plates }) c.cores }

/-- A thread of the group whose chain commits: its next PC, or the transfer of its terminator (07 R144 to R154, 19 R432). -/
def commitThread (e : State) (iss : Issue) (succ : Addr) (c : Chip) (t : Nat) : Chip :=
  let th := { c.thread t with grants := [], patched := none, held := none, entering := false, lastIssue := c.stamp }
  match iss.jump t with
  | none => c.setThread t { th with pc := succ }
  | some (.to pc) => c.setThread t { th with pc := pc }
  | some .exit => c.setThread t th
  | some (.trapNext i0 i1 i2 i3) => enterTrap e (c.setThread t th) t iss.pc succ causeTrap i0 i1 i2 i3
  | some (.ret lvl pc) => (c.setThread t { th with level := lvl, pc := pc }).closeFirmware t
  | some (.raise lvl pc cause word) => enterTrap e ((c.setThread t { th with level := lvl, pc := pc }).closeFirmware t) t pc pc cause word 0 0 0
  | some (.resume pc) => c.setThread t { th with cont := false, pc := pc }

/-- Whether a thread of the group moves to another key when the chain ends; a released waiter that cannot commit yet takes a
pen again, its grants kept. -/
def Issue.moves (iss : Issue) (c : Chip) (t : Nat) : Bool :=
  let waiting := match (c.thread t).place with | .waiting _ => true | _ => false
  c.exists? t && (match (c.thread t).place with | .pen _ => true | .waiting _ => true | _ => false) && (c.thread t).patched.isNone &&
  match iss.verdict t with
  | none => true
  | some (.trap cause ..) => !rollsBack c t cause
  | some (.soft _) => true
  | some (.emulate ..) => true
  | some .notReady => waiting
  | some (.hold _) => waiting
  | _ => false

/-- Counting a chain against the errors due to the threads of its groups (21 R454). -/
def Chip.countDue (c : Chip) (groups : List Nat) : Chip :=
  { c with threads := Sparse.mapVals (fun i t => match t.due with
      | some d => if groups.contains (groupOf i) then { t with due := some { d with since := d.since + 1 } } else t
      | none => t) c.threads }

/-- The registers of a publication that a chain of some threads writes have been written since its MX.READY (15 R331). -/
def Chip.noteTiles (c : Chip) (ts : List Nat) (words : List ChainWord) : Chip :=
  let dests := words.flatMap (fun w => (opInfo w.instr).dests)
  let hit := fun (p : Publication) => ts.any (fun t => decide (groupOf t = p.group) &&
    dests.any (fun d => decide (8 * p.first ≤ d) && decide (d < 8 * p.first + (Sparse.get [] p.vals (laneOf t)).length)))
  { c with pubs := Sparse.mapVals (fun _ p => if hit p then { p with written := true } else p) c.pubs }

/-- The registers that a chain of some threads writes, noted for the next mark of a context that takes marks (18 R415). -/
def Chip.noteRegs (c : Chip) (ts : List Nat) (words : List ChainWord) : Chip :=
  let bits : BitVec 16 := (words.flatMap (fun w => (opInfo w.instr).dests)).foldl (fun b d => b ||| BitVec.ofNat 16 (2 ^ (d / 8))) 0
  ts.foldl (fun c t => if (c.ctx (c.ctxOf t)).ckptbase = 0 then c else c.setThread t { c.thread t with wrote := (c.thread t).wrote ||| bits }) c

/-- The chain ends: every thread of the issue group commits or does not, waits are entered, moves made, and whatever the
arrivals and exits complete is released. -/
def commitIssue (s : State) (iss : Issue) : State :=
  let code := iss.code.getD {}
  let succ := iss.pc + BitVec.ofNat 64 (4 * (code.len + code.targets.length))
  let live := iss.live
  let c := (if live.isEmpty then s.base.getD s.now else s.now).stamped
  let c := { c with granted := c.granted.filter (fun t => !iss.members.contains t) }
  let groups := (iss.members.map groupOf).dedup
  let c := if live.isEmpty then c else c.countDue groups
  let c := iss.members.foldl (fun c t => if iss.verdict t = some .notReady then c else c.issuedNow t) c
  let c := iss.members.foldl (fun c t => match iss.dead.find? (fun d => decide (d.1 = t)) with
    | some d => failThread s iss c t d.2.1 d.2.2
    | none => commitThread s iss succ c t) c
  let c := if c.pubs.isEmpty then c else c.noteTiles live code.words
  let c := if c.ctxs.all (fun x => decide (x.2.ckptbase = 0)) then c else c.noteRegs (live.filter c.exists?) code.words
  let c := if c.cores.any (fun k => k.2.plates.any (fun p => p.2.left.isSome)) then c.consumeEntries (s.base.getD s.now) live code.words else c
  let exits := live.filter (fun t => c.exists? t && iss.jumps.any (fun j => decide (j.1 = t) && decide (j.2 = .exit)))
  let movers := (iss.members.filter (fun t => !exits.contains t)).filter (iss.moves c)
  let c := exits.foldl Chip.exitThread c
  let c := iss.dead.foldl (fun c d => match d.2.2 with
    | .wait r => if c.exists? d.1 then c.enterWait s d.1 r else c
    | _ => c) c
  let c := c.moveAll movers
  let c := c.settleWaits (groups.filter (fun g => (Sparse.find? c.groups g).isSome))
  let s := { s with now := c, base := none, issue := none }
  let s := iss.dead.foldl (fun s d => match d.2.2 with
    | .trap cause i0 i1 i2 i3 =>
      let c := s.now
      if c.exists? d.1 && rollsBack c d.1 cause then
        let r := c.threadRec d.1 cause (fieldNat i1.toNat 4 4) ((recordSource cause).getD 1) iss.pc.toNat (i2.toNat + 2 ^ 32 * i3.toNat) i0 i1 i2 i3
        rollbackTeam s (c.teamOf d.1) r
      else s
    | _ => s) s
  noteIntervals s

/-- Where a thread of the group goes when its chain commits, for the compare of protected mode (21 R456). -/
def Issue.successor (iss : Issue) (t : Nat) : Addr :=
  let code := iss.code.getD {}
  match iss.jump t with
  | some (.to pc) => pc
  | some (.ret _ pc) => pc
  | some (.raise _ pc ..) => pc
  | some (.resume pc) => pc
  | _ => iss.pc + BitVec.ofNat 64 (4 * (code.len + code.targets.length))

/-- The pairs of protected mode whose successor PCs differ (21 R456, subcode 3). -/
def successorCheck (c : Chip) (iss : Issue) : Issue :=
  let last := (iss.code.getD {}).words.length - 1
  let slot := match (iss.code.getD {}).words[last]? with | some w => w.slot | none => 0
  let live := iss.live
  let bad := live.filter (fun t => c.guarded t && live.contains (t / 2 * 2) && live.contains (t / 2 * 2 + 1) &&
    decide (iss.successor (t / 2 * 2) ≠ iss.successor (t / 2 * 2 + 1)))
  { iss with dead := iss.dead ++ bad.map (fun t =>
      (t, last, mismatch slot 3 ((iss.successor (t / 2 * 2 + 1)).extractLsb' 0 32) (iss.successor (t / 2 * 2)))) }

/-- The last word of the chain has executed. Where a thread failed after a word had taken effect, the chain is executed
again from the machine before it, for the threads that have not failed (03 R40). -/
def closeChain (s : State) : State :=
  match s.issue with
  | none => s
  | some iss =>
    let late := iss.dead.length
    let iss := successorCheck s.now iss
    if (decide (late < iss.dead.length) || iss.dead.any (fun d => decide (0 < d.2.1))) && decide (iss.known < iss.dead.length) && !iss.live.isEmpty then
      { s with now := s.base.getD s.now, base := none, issue := some { iss with at_ := 0, jumps := [], known := iss.dead.length } }
    else commitIssue s iss

/-- A word executes in the open issue; with C = 0 it ends its chain. With no open issue there is nothing to execute. -/
def runKind (k : WordKind) (check : Check) (act : Act) (s : State) : Host.Outcome State Fault Refusal :=
  match s.issue with
  | none => .next s
  | some iss =>
    let s := wordStep k check act s iss
    .next (if k.info.c then s else closeChain s)

/-- An instruction word executes. -/
def runWord (i : Instr) (check : Check) (act : Act) (s : State) : Host.Outcome State Fault Refusal :=
  runKind (kindOf i) check act s

/-- A chain fetched without fault sets A on the pages its words lie on (17 R368), for a thread below firmware level. -/
def touchFetch (e : State) (c : Chip) (t : Nat) (pc : Addr) (f : Fetched) : Chip :=
  if f.fault.isSome ∨ (c.thread t).level = .firmware then c
  else
    let last := pc.toNat + 4 * (f.len + f.targets.length - 1)
    let c := touch e c (c.coreOf t) (c.ctxOf t) pc.toNat false
    if last / 65536 = pc.toNat / 65536 then c else touch e c (c.coreOf t) (c.ctxOf t) last false

/-! Waiting words (07 R139). -/

/-- What a release has granted to the word that executes, in a thread. -/
def State.grantOf (e : State) (t : Nat) : Option Grant := e.issue.bind (fun iss => Issue.granted e.now iss t)

/-- The word that executes waits. -/
def waitFor (e : State) (slot : Nat) (kind : WaitKind) (seen : Word) (word : Instr) (arrived : Bool) : Verdict :=
  .wait { kind := kind, seen := seen, word := word, slot := slot, arrived := arrived, place := (e.issue.map (·.at_)).getD 0 }

/-! Forms of effect. -/

/-- No check beyond those of every word. -/
def noCheck : Check := fun _ _ _ => none

/-- The effect of a word on registers and predicates: `f` gives the machine after the word has been written to thread `d`
with operands read from thread `l` of the machine before the chain; with U = 1 every thread receives the result of the
lowest active home lane (07 R162). -/
def perThread (u : Bool) (f : Chip → Nat → Nat → Chip → Chip) : Act :=
  fun pre all live c => live.foldl (fun c t => f pre.now (if u then all.headD t else t) t c) c

/-- The effect of a word performed once for each visible thread, its result going to the thread and its shadow (21 R456), or
with U = 1 once for the group, the result going to every thread (07 R162): the thread that acts, and the threads that
receive. -/
def once (u : Bool) (f : State → Nat → List Nat → Chip → Chip) : Act :=
  fun pre all live c =>
    if u then f pre (all.headD 0) live c
    else (live.filter pre.now.visible).foldl (fun c t => f pre t (live.filter (fun x => decide (x = t) || (pre.now.guarded t && decide (x / 2 = t / 2)))) c) c

/-- The effect of a word performed once for each group present in the issue group, with the operands of that group's lowest
active home lane, its result going to the group's threads that commit; the groups in ascending order of that lane (15 R341). -/
def groupOnce (f : State → Nat → List Nat → Chip → Chip) : Act :=
  fun pre all live c => (all.filter (fun l => decide (pre.groupLead l = l) && live.any (fun t => decide (pre.groupLead t = l)))).foldl
    (fun c l => f pre l (live.filter (fun t => decide (pre.groupLead t = l))) c) c

/-- The effect of a word performed once for each group that has threads in the issue group: the group, its threads in the
issue group, and those that commit (05 R110). -/
def oncePerGroup (f : Chip → Nat → List Nat → List Nat → Chip → Chip) : Act :=
  fun pre all live c => (live.map groupOf).dedup.foldl (fun c g =>
    f pre.now g (all.filter (fun t => decide (groupOf t = g))) (live.filter (fun t => decide (groupOf t = g))) c) c

/-- A word that transfers control: where each thread goes. -/
def runKindJump (k : WordKind) (check : Check) (act : Act) (f : State → List Nat → Nat → Option Jump) (s : State) :
    Host.Outcome State Fault Refusal :=
  match s.issue with
  | none => .next s
  | some iss =>
    let pre := s.before
    let s := wordStep k check act s iss
    let s := match s.issue with
      | none => s
      | some k => { s with issue := some { k with jumps := k.jumps ++ k.live.filterMap (fun t => (f pre iss.members t).map (fun j => (t, j))) } }
    .next (if k.info.c then s else closeChain s)

/-- An instruction word that transfers control. -/
def runJump (i : Instr) (check : Check) (act : Act) (f : State → List Nat → Nat → Option Jump) (s : State) :
    Host.Outcome State Fault Refusal :=
  runKindJump (kindOf i) check act f s

end Sys2Proof.Machine
end

