-- ==== Sys2Proof/Machine/Barrier.lean ====
section
/-! DEFINITION. Named, cluster and grid barriers and GSYNC, major 0x29 (13 R282 to R291). -/

namespace Sys2Proof.Machine

/-- The state of a thread's named barrier. -/
def Chip.bar (c : Chip) (t n : Nat) : Barrier := Sparse.get {} (c.team (c.teamOf t)).bars n

/-- Writing it. -/
def Chip.setBar (c : Chip) (t n : Nat) (b : Barrier) : Chip :=
  let k := c.team (c.teamOf t)
  c.setTeam (c.teamOf t) { k with bars := Sparse.set k.bars n b }

/-- An index at or above the team's declared barriers (13 R288). -/
def barIndex (e : State) (t slot n : Nat) : Option Verdict :=
  if (e.now.team (e.now.teamOf t)).barriers ≤ n then some (trapAt slot causeAccess 9 (BitVec.ofNat 32 n) 0) else none

/-- A second arrival in one phase waits for the phase to change, then arrives in the new one (13 R284). -/
def barTwice (e : State) (t slot n : Nat) (word : Instr) : Option Verdict :=
  let b := e.now.bar t n
  if b.arrived.contains t then some (waitFor e slot (.barrier n true) b.phase word false) else none

/-- BAR.SYNC. -/
def execBarSync (c : Bool) (n : BitVec 4) (s : State) : Host.Outcome State Fault Refusal :=
  let i := Instr.barSync c n
  let check : Check := fun e t slot => (barIndex e t slot n.toNat).orElse (fun _ =>
    match e.grantOf t with
    | some _ => none
    | none => (barTwice e t slot n.toNat i).orElse (fun _ =>
        some (waitFor e slot (.barrier n.toNat false) (e.now.bar t n.toNat).phase i true)))
  runWord i check (fun _ _ _ c => c) s

/-- BAR.ARV: the token, and the arrival, a release at core scope (10 R220). A second arrival has arrived when the phase it waited
for completed. -/
def execBarArv (c : Bool) (d : BitVec 7) (n : BitVec 4) (s : State) : Host.Outcome State Fault Refusal :=
  let i := Instr.barArv c d n
  runWord i (fun e t slot => (barIndex e t slot n.toNat).orElse (fun _ =>
      match e.grantOf t with
      | some _ => none
      | none => barTwice e t slot n.toNat i))
    (fun e _ live c => live.foldl (fun c t =>
      match e.grantOf t with
      | some (.token phase) => c.writeV t d.toNat phase tagInt
      | _ =>
        let b := c.bar t n.toNat
        let c := c.setBar t n.toNat { b with arrived := b.arrived ++ [t] }
        (releaseArrival e c t false).writeV t d.toNat b.phase tagInt) c) s

/-- BAR.WAIT. -/
def execBarWait (c : Bool) (d : BitVec 7) (n : BitVec 4) (s : State) : Host.Outcome State Fault Refusal :=
  let i := Instr.barWait c d n
  let check : Check := fun e t slot => (barIndex e t slot n.toNat).orElse (fun _ =>
    match e.grantOf t with
    | some _ => none
    | none =>
      let b := e.now.bar t n.toNat
      if b.phase = e.now.v t d.toNat then some (waitFor e slot (.barrier n.toNat false) b.phase i false) else none)
  runWord i check (fun _ _ _ c => c) s

/-- BAR.CLU (13 R289). -/
def execBarClu (c : Bool) (s : State) : Host.Outcome State Fault Refusal :=
  let i := Instr.barClu c
  runWord i (fun e t slot => match e.grantOf t with
    | some _ => none
    | none => some (waitFor e slot .cluster (e.now.cluster (e.now.team (e.now.teamOf t)).cluster).phase i true)) (fun _ _ _ c => c) s

/-- BAR.GRID (13 R290): a launch without the co-resident flag faults. -/
def execBarGrid (c : Bool) (s : State) : Host.Outcome State Fault Refusal :=
  let i := Instr.barGrid c
  runWord i (fun e t slot =>
    let l := e.now.launch (e.now.team (e.now.teamOf t)).launch
    if !l.coresident then some (trapAt slot causeAccess 10 0 0)
    else match e.grantOf t with
      | some _ => none
      | none => some (waitFor e slot .grid l.gridPhase i true)) (fun _ _ _ c => c) s

/-- GSYNC (13 R291): its set as a collective's. -/
def execGsync (c : Bool) (m : BitVec 4) (s : State) : Host.Outcome State Fault Refusal :=
  let i := Instr.gsync c m
  runWord i (fun e t slot => match e.grantOf t with
    | some _ => none
    | none =>
      if (e.now.readM (groupOf t) m.toNat).getLsbD (e.now.laneBit t) then some (waitFor e slot (.gsync m.toNat) 0 i true) else none)
    (fun _ _ _ c => c) s

/-- BAR.TEST. -/
def execBarTest (c : Bool) (d : BitVec 7) (n : BitVec 4) (s : State) : Host.Outcome State Fault Refusal :=
  runWord (.barTest c d n) (fun e t slot => barIndex e t slot n.toNat)
    (perThread false (fun pre l t c =>
      c.writeV t d.toNat (if (pre.bar l n.toNat).phase = pre.v l d.toNat then 0 else 1) tagInt)) s

/-- BAR.SET (13 R286). -/
def execBarSet (c : Bool) (d : BitVec 7) (n : BitVec 4) (s : State) : Host.Outcome State Fault Refusal :=
  runWord (.barSet c d n) (fun e t slot => barIndex e t slot n.toNat)
    (perThread false (fun pre l t c =>
      let b := c.bar t n.toNat
      let k := min (pre.v l d.toNat).toNat 1024
      c.setBar t n.toNat (if b.arrived.isEmpty then { b with count := k } else { b with pend := some k }))) s

end Sys2Proof.Machine
end

