-- ==== Sys2Proof/Machine/Access.lean ====
section
/-! DEFINITION. Making accesses (11): the checks at issue (R237 to R239), the request at commit, the scoreboard marks (R240),
team-local accesses and the stash window (R236, R250). -/

namespace Sys2Proof.Machine

/-! Faults (11 R239). -/

/-- A fault of a memory word: TRAPINFO1 with the write bit, TRAPINFO2 and TRAPINFO3 with the address. -/
def memTrap (slot cause sub : Nat) (write : Bool) (i0 : Word) (ea : BitVec 64) : Verdict :=
  .trap cause i0 (BitVec.ofNat 32 (slot + 16 * sub + (if write && decide (cause ≠ causeUncorrectable) then 256 else 0)))
    (ea.extractLsb' 0 32) (ea.extractLsb' 32 32)

/-- A condition of a page: a soft fault where the thread may take one, else a hold (17 R372, R377, R378); on a migrating page
the soft fault comes when HOLDLIM ticks have passed. -/
def pageVerdict (c : Chip) (t va : Nat) (migrating : Bool) : Verdict :=
  let lim := (c.ctx (c.ctxOf t)).holdlim
  let spent := decide (lim = 0) || match (c.thread t).held with
    | some (v, n) => (c.thread t).heldWord.isSome && decide (v = va) && decide (lim ≤ n)
    | none => false
  if c.maySoft t && (!migrating || spent) then .soft va else .hold va

/-- The translation of a thread's address; a write to a page marked copy-on-write is held as on a migrating page (18 R418). -/
def threadTrans (e : State) (c : Chip) (t : Nat) (ea : BitVec 64) (write : Bool) : Trans :=
  match translate e c (c.coreOf t) (c.ctxOf t) (c.thread t).level ea.toNat (if write then .write else .read) with
  | .ok p far dev => if write && c.cowHeld p then .migrating else .ok p far dev
  | x => x

/-- Translation and permission of an address whose form is good (11 R238, steps 3 and 4). -/
def transVerdict (e : State) (t slot : Nat) (ea : BitVec 64) (write : Bool) : Option Verdict :=
  match threadTrans e e.now t ea write with
  | .ok .. => none
  | .fault cause sub i0 => some (memTrap slot cause sub write i0 ea)
  | .serve => some (pageVerdict e.now t ea.toNat false)
  | .migrating => some (pageVerdict e.now t ea.toNat true)

/-- The checks of a global access (11 R238). -/
def globalVerdict (e : State) (t slot : Nat) (ea : BitVec 64) (size : Nat) (write : Bool) : Option Verdict :=
  if ea.toNat % size ≠ 0 then some (memTrap slot causeAlign 0 write 0 ea)
  else if ea.toNat / 2 ^ 55 ≠ 0 then some (memTrap slot causeAccess 1 write 0 ea)
  else transVerdict e t slot ea write

/-! Requests. -/

/-- Marking registers pending on an access (11 R240). -/
def Chip.markPending (c : Chip) (takers : List Nat) (dest id : Nat) : Nat → Chip
  | 0 => c
  | n + 1 => takers.foldl (fun c t => c.setReg t (dest + n) { c.reg t (dest + n) with wait := some (.access id), poison := none })
      (c.markPending takers dest id n)

/-- An access in rollback mode that commits its interval early (21 R459). -/
def commitsEarly (a : Access) (remote : Bool) : Bool :=
  remote || (a.writes && isHost a.phys) || match a.op with
    | .rmw _ => decide (a.scope ≠ 0) || a.promote
    | _ => false

/-- A posted store's words are pending in its core's L1 copy; under .ls a copy is allocated for them (12 R254, R259). -/
def Chip.markPosted (e : State) (c : Chip) (a : Access) : Chip :=
  let ln := lineOf a.phys
  if !a.early || isHost a.phys || decide (a.stage = .remote) then c
  else match c.l1? a.core ln with
    | some l => c.setL1 a.core ln l
    | none => if a.kind = 0 then (roomNow e c a.core ln).setL1 a.core ln { ctx := a.ctx } else c

/-- A thread's request at commit: the address is translated, the page's bits set, the access enters the table, and its destination
registers are pending. A request to another device is sent at once, but for a release, which is sent behind what it must follow
(11 R246, R247); a read of a page of which no lease holds asks its home for one, which grants it if the page is read-shared (17 R382). -/
def request (e : State) (c : Chip) (t : Nat) (takers : List Nat) (a : Access) (ea : BitVec 64) : Chip :=
  let k := c.coreOf t
  let ctx := c.ctxOf t
  match threadTrans e c t ea a.writes with
  | .ok p far dev =>
    let c := touch e c k ctx ea.toNat a.writes
    let c := if far && dev.isNone then countFar e c ctx ea.toNat else c
    let dev := if a.writes || !leaseGood e p then dev else none
    let remote := dev.isSome && !a.isRel
    let (id, c) := c.fresh
    let a := { a with
      th := t, core := k, ctx := ctx, va := ea.toNat, phys := p, kind := if far then 3 else a.kind
      stage := if remote then .remote else .issued, clk := (c.core k).clk, takers := takers, issue := e.now.nextId, dev := dev
      slot := (e.issue.map Issue.slot).getD 0 }
    let c := c.setAccess id a
    let c := if remote then c.tell (a.message id (dev.getD 0)) else c
    let c := if remote && a.op = .load then c.tell (e.board.askLease (dev.getD 0) p) else c
    let c := if (c.team (c.teamOf t)).rollback && commitsEarly a dev.isSome then commitNow e c (c.teamOf t) else c
    (c.markPosted e a).markPending takers a.dest id a.count
  | _ => c

/-- Registers an access of a size covers. -/
def regsOf (size : Nat) : Nat := if size = 8 then 2 else if size = 16 then 4 else 1

/-- A load of a global address into `d`. -/
def loadReq (kind : BitVec 2) (size d : Nat) (tag : Tag) (signed : Bool) : Access :=
  { op := .load, kind := kind, size := size, dest := d, count := regsOf size, tag := tag, signed := signed }

/-- A store of the low bytes of registers from `r` on. -/
def storeReq (c : Chip) (t : Nat) (kind : BitVec 2) (size r : Nat) : Access :=
  { op := .store, kind := kind, size := size, data := BitVec.ofNat 128 (regsValue c t r (regsOf size) % 2 ^ (8 * size)) }

/-- An atomic's request (11 R244): old value to `d` with tag INT. -/
def rmwReq (op : RmwOp) (size d : Nat) (order : BitVec 2) (scope : BitVec 3) (y cmp : Nat) : Access :=
  { op := .rmw op, size := size, dest := d, count := regsOf size, tag := tagInt, order := order, scope := scope
    data := BitVec.ofNat 128 y, compare := BitVec.ofNat 64 cmp }

/-! Team-local memory. -/

/-- The spaces of LDS and STS (03 R48). -/
inductive Space where
  | loc | rmt | stash
deriving DecidableEq, Repr

/-- The space of a code. -/
def spaceOf (k : BitVec 2) : Space := if k = 0 then .loc else if k = 1 then .rmt else .stash

/-- The sibling team at a position of a thread's cluster, if it has not retired. -/
def Chip.sibling (c : Chip) (t x y : Nat) : Option Nat :=
  (c.cluster (c.team (c.teamOf t)).cluster).teams.find? (fun m =>
    decide ((c.team m).clx = x) && decide ((c.team m).cly = y) && (c.team m).live)

/-- Position fields of a base register under .rmt (11 R236). -/
def rmtX (b : Word) : Nat := fieldNat b.toNat 24 3
def rmtY (b : Word) : Nat := fieldNat b.toNat 28 3
/-- Its must-be-zero bits are zero. -/
def rmtZero (b : Word) : Bool := decide (b.toNat &&& 0x88F80000 = 0)

/-- The fault of a team-local access: the offset in TRAPINFO2. -/
def localTrap (slot cause sub : Nat) (write : Bool) (off : Int) : Verdict :=
  memTrap slot cause sub write 0 ((BitVec.ofInt 32 off).setWidth 64)

/-- Whether `size` bytes at an offset overlap a team's mapped stash window (11 R250). -/
def Team.inWindow (k : Team) (off size : Nat) : Bool :=
  match k.stash with
  | some w => decide (off < 128 * (w.first + w.lines)) && decide (128 * w.first < off + size)
  | none => false

/-- The checks of a .loc access (11 R238, R239). -/
def locVerdict (k : Team) (slot : Nat) (off : Int) (size : Nat) (write : Bool) : Option Verdict :=
  if off % size ≠ 0 then some (localTrap slot causeAlign 0 write off)
  else if off < 0 ∨ (k.spad : Int) < off + size then some (localTrap slot causeAccess 4 write off)
  else if k.inWindow off.toNat size then some (localTrap slot causeAccess 7 write off)
  else none

/-- The first .stash access to a window line fills it, translating and faulting as an LD of the address would (11 R250). -/
def stashTouch (e : State) (t slot : Nat) (w : Stash) (off size : Nat) : Option Verdict :=
  let ea := BitVec.ofNat 64 (w.base + off)
  match threadTrans e e.now t ea false with
  | .ok p _ _ => if w.filled.contains (lineOf p) then none else globalVerdict e t slot ea size false
  | _ => globalVerdict e t slot ea size false

/-- The checks of a team-local access (11 R238, R239). DESIGN CHOICE (log entry 141): a .stash access at a negative offset reports subcode 4,
one beyond the window subcode 6, though both hold of it. -/
def localVerdict (e : State) (t slot : Nat) (space : Space) (base : Word) (off : Int) (size : Nat) (write : Bool) : Option Verdict :=
  let c := e.now
  let k := c.team (c.teamOf t)
  match space with
  | .loc => locVerdict k slot off size write
  | .rmt =>
    if off % size ≠ 0 then some (localTrap slot causeAlign 0 write off)
    else if off < 0 ∨ (k.spad : Int) < off + size then some (localTrap slot causeAccess 4 write off)
    else if !rmtZero base ∨ k.clw ≤ rmtX base ∨ k.clh ≤ rmtY base then some (localTrap slot causeAccess 5 write off)
    else if (c.sibling t (rmtX base) (rmtY base)).isNone then some (localTrap slot causeAccess 14 write off)
    else none
  | .stash =>
    if off % size ≠ 0 then some (localTrap slot causeAlign 0 write off)
    else if off < 0 then some (localTrap slot causeAccess 4 write off)
    else match k.stash with
      | none => some (localTrap slot causeAccess 6 write off)
      | some w =>
        if (128 * w.lines : Int) < off + size then some (localTrap slot causeAccess 6 write off)
        else (stashTouch e t slot w off.toNat size).orElse (fun _ => globalVerdict e t slot (BitVec.ofNat 64 (w.base + off.toNat)) size write)

/-- The team a .loc or .rmt access reaches. -/
def Chip.localTeam (c : Chip) (t : Nat) (space : Space) (base : Word) : Nat :=
  match space with
  | .rmt => (c.sibling t (rmtX base) (rmtY base)).getD (c.teamOf t)
  | _ => c.teamOf t

/-- Words of team-local memory that `size` bytes touch. -/
def localWords (off size : Nat) : List Nat := (List.range ((off % 4 + size + 3) / 4)).map (fun i => off / 4 + i)

/-- Whether a read of team-local memory meets poison. -/
def Team.poisonedAt (k : Team) (off size : Nat) : Bool := (localWords off size).any (fun w => k.lpoison.contains w)

/-- A core has written a team's local memory: who reads it through .rmt has seen the core's clock (10 R224). -/
def Chip.stampLocal (c : Chip) (team core : Nat) : Chip :=
  c.setTeam team { c.team team with lclk := max (c.team team).lclk (c.core core).clk }

/-- Writing team-local memory of a team: a whole word written loses its poison (21 R453), and watchers fire. -/
def Chip.writeLocal (c : Chip) (team off size data : Nat) : Chip :=
  let k := c.team team
  let whole := if size < 4 then [] else localWords off size
  let c := c.setTeam team { k with
    lmem := Memory.writeN k.lmem off size data, lpoison := k.lpoison.filter (fun w => !whole.contains w)
    wroteLines := if (c.ctx k.ctx).ckptbase = 0 then k.wroteLines else (off / 128) :: k.wroteLines.filter (fun l => decide (l ≠ off / 128))
    lclk := max k.lclk (k.core.elim 0 (fun q => (c.core q).clk)) }
  (c.taintOperands team off size).fireLocal team off size

/-- Reading team-local memory of a team. -/
def Chip.readLocal (c : Chip) (team off size : Nat) : Nat := Memory.readN (c.team team).lmem off size

/-- A local read, performed at commit: the value waits to be written to its registers. -/
def localRead (e : State) (c : Chip) (t : Nat) (takers : List Nat) (team off size space : Nat) (a : Access) : Nat × Chip :=
  let (id, c) := c.fresh
  let a : Access := { a with
    size := size, loc := some (team, space), th := t, core := c.coreOf t, ctx := c.ctxOf t, va := off, stage := .returned, takers := takers
    poison := if (c.team team).poisonedAt off size then some 3 else none, slot := (e.issue.map Issue.slot).getD 0 }
  let c := takers.foldl (fun d x => d.see x (c.team team).lclk) c
  (id, (c.setAccess id a).markPending takers a.dest id a.count)

/-- LDS of team-local bytes. -/
def localLoad (e : State) (c : Chip) (t : Nat) (takers : List Nat) (team off size space d : Nat) (signed : Bool) : Chip :=
  let v := c.readLocal team off size
  let x := if signed then v + (2 ^ 128 - 2 ^ (8 * size)) * (v / 2 ^ (8 * size - 1)) else v
  (localRead e c t takers team off size space { loadReq 0 size d tagRaw signed with result := BitVec.ofNat 256 x }).2

/-- A line of the window has been filled (11 R250). -/
def Chip.noteFilled (c : Chip) (team ln : Nat) : Chip :=
  let k := c.team team
  match k.stash with
  | some w => c.setTeam team { k with stash := some { w with filled := (w.filled ++ [ln]).dedup } }
  | none => c

/-- A .stash access is an owned access to the global location the window maps (11 R243, R250). -/
def stashReq (e : State) (c : Chip) (t : Nat) (takers : List Nat) (a : Access) (off : Nat) : Chip :=
  match (c.team (c.teamOf t)).stash with
  | none => c
  | some w =>
    let ea := BitVec.ofNat 64 (w.base + off)
    match threadTrans e c t ea a.writes with
    | .ok p _ _ => (request e c t takers { a with kind := 1 } ea).noteFilled (c.teamOf t) (lineOf p)
    | _ => c

/-! Write-backs and the stash window (11 R249, R250). -/

/-- A write-back of lines for a thread; `drop` gives ownership up. It counts in the stores counter until it completes. -/
def writebackReq (e : State) (c : Chip) (t ln : Nat) (rest : List Nat) (drop : Bool) : Chip :=
  let (id, c) := c.fresh
  c.setAccess id { th := t, core := c.coreOf t, ctx := c.ctxOf t, op := .writeback drop, phys := 128 * ln, size := 128, lines := rest
                   clk := (c.core (c.coreOf t)).clk, slot := (e.issue.map Issue.slot).getD 0 }

/-- The write-back of the window's filled lines, the dirty ones, and under a drop those still owned: it counts once until all are
back (11 R241, R250). -/
def windowBack (e : State) (c : Chip) (t : Nat) (w : Stash) (drop : Bool) : Chip :=
  let k := c.coreOf t
  match w.filled.filter (fun ln => match c.l1? k ln with
    | some l => decide (l.dirty ≠ 0) || (drop && decide (l.owned ≠ 0))
    | none => false) with
  | [] => c
  | ln :: rest => writebackReq e c t ln rest drop

/-- STASH.DROP: write-backs, the mapping gone, the bytes team-local again and zero. -/
def stashDropNow (e : State) (c : Chip) (t : Nat) : Chip :=
  match (c.team (c.teamOf t)).stash with
  | none => c
  | some w =>
    let c := windowBack e c t w true
    let k := c.team (c.teamOf t)
    let lo := 128 * w.first
    let hi := 128 * (w.first + w.lines)
    c.setTeam (c.teamOf t) { k with
      stash := none, lmem := Memory.clear k.lmem lo hi
      lpoison := k.lpoison.filter (fun x => !(decide (lo ≤ 4 * x) && decide (4 * x < hi))) }

end Sys2Proof.Machine
end

