-- ==== Sys2Proof/Machine/Launches.lean ====
section
/-! DEFINITION. A queue's stat word (09 R185, R192), and ending a launch: its completion word, its queue's stat and its handle (R193,
R197, R198, 08 R184). -/

namespace Sys2Proof.Machine

/-- The code of a queue's state (09 R185, R192). -/
def QueueState.code : QueueState → Nat
  | .disabled => 0
  | .idle => 1
  | .serving => 2
  | .blocked => 3
  | .faulted => 4

/-- A queue takes a state; its stat word follows. -/
def putQueue (e : State) (c : Chip) (ctx ix : Nat) (q : Queue) : Chip :=
  let x := c.ctx ctx
  let same : Bool := match Sparse.find? x.queues ix with
    | some o => decide (o.header = q.header) && decide (o.state = q.state) && decide (o.sub = q.sub)
    | none => false
  let c := c.setCtx ctx { x with queues := Sparse.set x.queues ix q }
  if same then c else defer e c (.word ctx (q.header + 0x1C) 4 (q.state.code + 256 * q.sub) 0)

/-- A status word of state 2 with QUEUE_FAULT and a record subcode (09 R193). -/
def queueStatus (sub : Nat) : Nat := 2 * 2 ^ 28 + causeQueue + 256 * sub

/-- Resolving a LAUNCH handle, an acquire at device scope for its core: its clock advances to that at which the launch's teams retired
(09 R197, 10 R220). -/
def Chip.resolveLaunch (c : Chip) (h : Nat) (status clk : Nat) : Chip :=
  match Sparse.find? c.handles h with
  | none => c
  | some x => (c.resolve h (BitVec.ofNat 32 status)).clockAdvance x.core clk

/-- The subcode that a record of a queue was killed with, in the queue's stat (09 R185, R193). -/
def noteSub (e : State) (c : Chip) (ctx qix sub : Nat) : Chip :=
  match Sparse.find? (c.ctx ctx).queues qix with
  | some q => putQueue e c ctx qix { q with sub := sub }
  | none => c

/-- A launch is killed before any of its teams is placed: completion word, stat, handle and error record (09 R185, R193, R198). -/
def killLaunch (e : State) (c : Chip) (id sub : Nat) : Chip :=
  match Sparse.find? c.launches id with
  | none => c
  | some l =>
    let c := writeCompletion e c l (queueStatus sub)
    let c := noteSub e (c.setLaunch id { l with state := .killed, handle := none }) l.ctx l.qix sub
    let c := match l.handle with
      | some h => c.resolveLaunch h (if sub = 10 then 2 ^ 28 else queueStatus sub) l.clk
      | none => c
    errorRecord e c l.ctx { cause := causeQueue, sub := sub, source := 5, addr := l.record }

/-- HCANCEL of a LAUNCH handle (09 R198): a launch with no team placed is killed with subcode 10; one whose record the steward
has not taken yet is killed when it is taken. -/
def cancelLaunch (e : State) (c : Chip) (h : Nat) : Chip :=
  match List.find? (fun (p : Nat × Launch) => decide (p.2.handle = some h)) c.launches with
  | some p => if p.2.state = .pending ∨ (p.2.state = .ready ∧ p.2.placed = 0) then killLaunch e c p.1 10 else c
  | none => match Sparse.find? c.handles h with
    | some x => c.setHandle h { x with cancel := true }
    | none => c

end Sys2Proof.Machine
end

