-- ==== Sys2Proof/Machine/Press.lean ====
section
/-! DEFINITION. Plates and their owners (15 R333 to R340, R346), the press queue (R322), the checks of a parameter block (R325 to
R332), and what one tile step computes (04 R77 to R81, 15 R323 to R328, R344, R348, 16 R365). -/

namespace Sys2Proof.Machine

/-! Owner tags. -/

/-- The tag of a team's entry at a level. -/
def Chip.tagOf (c : Chip) (team n : Nat) (lvl : Level) : PlateOwner := { ctx := (c.team team).ctx, level := lvl, team := team, entry := n }

/-- The core of a team. -/
def Chip.coreOfTeam (c : Chip) (team : Nat) : Nat := (c.team team).core.getD 0

/-- The plate a team's entry is connected to. -/
def Chip.plateOfTeam (c : Chip) (team n : Nat) : Plate :=
  match c.physical team n with
  | some p => c.plate (c.coreOfTeam team) p
  | none => {}

/-- Changing the plate a team's entry is connected to; its use is noted (24 R485). -/
def Chip.onPlate (c : Chip) (team n : Nat) (f : Plate → Plate) : Chip :=
  match c.physical team n with
  | some p => c.setPlate (c.coreOfTeam team) p { f (c.plate (c.coreOfTeam team) p) with used := c.stamp }
  | none => c

/-- A spilled entry's number in `Team.spilled`. -/
def spillKey (lvl n : Nat) : Nat := lvl * 384 + n

/-- PLOWN of a team's entry (15 R335). -/
def Chip.plown (c : Chip) (team n : Nat) : Word :=
  if (c.team team).plates ≤ n then 0
  else
    let own := match (c.plateOfTeam team n).owner with
      | some o => 1 + 2 * o.level.code + (if o.team = team ∧ o.entry = n then 8 else 0) + 65536 * o.ctx
      | none => 0
    let sp := (c.team team).spilled
    let busy := match c.physical team n with
      | some p => c.plateBusy (c.coreOfTeam team) p
      | none => false
    BitVec.ofNat 32 (own + (if sp.contains (spillKey 0 n) || sp.contains (spillKey 1 n) then 16 else 0) + (if busy then 32 else 0))

/-- PLATE_FAULT of entry n. -/
def plateFault (c : Chip) (team slot sub n : Nat) : Verdict := trapAt slot causePlate sub (BitVec.ofNat 32 n) (c.plown team n)

/-- PLATE_RANGE of entry n. -/
def plateRange (c : Chip) (team slot n : Nat) : Option Verdict :=
  if (c.team team).plates ≤ n then some (trapAt slot causePlateRange 0 (BitVec.ofNat 32 n) 0) else none

/-- The tag of a team's entry is its own at a level. -/
def Chip.plateValid (c : Chip) (team n : Nat) (lvl : Level) : Bool := decide ((c.plateOfTeam team n).owner = some (c.tagOf team n lvl))

/-- PlateOf(n) for a thread (15 R334): what it raises. -/
def plateOf (c : Chip) (t slot n : Nat) : Option Verdict :=
  let team := c.teamOf t
  (plateRange c team slot n).orElse (fun _ =>
    if c.plateValid team n (c.thread t).level then none else some (plateFault c team slot 1 n))

/-! Spill slots (15 R336, R337, 18 R396). -/

/-- The physical address of a team's spill slot. -/
def Chip.spillAddr (c : Chip) (team lvl n : Nat) : Nat :=
  let k := c.team team
  (c.ctx k.ctx).area + k.slotBase + 4160 * (lvl * k.plates + n)

/-- The header record of a plate: byte 0 its fmt, byte 1 its kdone, zero beyond. -/
def Plate.header (p : Plate) : Nat := (if p.int then 1 else 0) + 256 * p.kdone

/-- A plate as it is cleared for a new owner. -/
def Plate.fresh (o : PlateOwner) (used : Nat) : Plate := { owner := some o, used := used }

/-- Writing a plate to its owner's slot: 4,096 bytes of elements with their poison, the header record; the owner's entry is
marked spilled and the tag becomes invalid. -/
def spillPlate (e : State) (c : Chip) (core p : Nat) : Chip :=
  let x := c.plate core p
  match x.owner with
  | none => c
  | some o =>
    let a := c.spillAddr o.team o.level.code o.entry
    let c := (List.range 1024).foldl (fun c i =>
      let c := agentWrite e c none (a + 4 * i) 4 (Sparse.get 0 x.elems i).toNat
      if x.poison.contains i then poisonWords e c (a + 4 * i) 4 else c) c
    let c := agentWriteWords e none 16 c (a + 4096) x.header
    let k := c.team o.team
    let c := c.setTeam o.team { k with
      spilled := (k.spilled ++ [spillKey o.level.code o.entry]).dedup
      wrotePlates := if x.wrote then (spillKey o.level.code o.entry :: k.wrotePlates).dedup else k.wrotePlates }
    c.setPlate core p { x with owner := none }

/-- Reading a slot back into the plate an entry is connected to. -/
def restorePlate (e : State) (c : Chip) (team n lvl : Nat) : Chip :=
  let a := c.spillAddr team lvl n
  let c := c.onPlate team n (fun x => { x with
    elems := (List.range 1024).map (fun i => (i, BitVec.ofNat 32 (peek e c (a + 4 * i) 4)))
    poison := (List.range 1024).filter (fun i => (poisonAt e c (a + 4 * i) 4).isSome)
    int := decide (peek e c (a + 4096) 1 = 1), kdone := peek e c (a + 4097) 1 })
  let k := c.team team
  c.setTeam team { k with spilled := k.spilled.filter (· != spillKey lvl n) }

/-! Unspecified contents (15 R331). -/

/-- The elements of a plate take free values. -/
def Chip.freePlate (c : Chip) (team n : Nat) : Chip :=
  let base := c.free
  let c := { c with free := c.free + 1024 }
  c.onPlate team n (fun x => { x with elems := (List.range 1024).map (fun i => (i, (Config.freeBits (base + i)).setWidth 32)), poison := [] })

/-- The plates an entry writes. -/
def PressEntry.targets (q : PressEntry) : List Nat := if q.kind = .issue then blkTargets q.block else [q.plate]

/-- An access to a plate while an entry of the team names it: the plate takes free values, now and when the entry has written it. The same
now where an entry has resolved that nobody has consumed (15 R344). -/
def Chip.disturb (c : Chip) (team n : Nat) : Chip :=
  let hit := fun (q : PressEntry) => decide (q.team = team) && q.plates.contains n
  if c.press.any (fun p => hit p.2) then
    { c with press := Sparse.mapVals (fun _ q => if hit q && q.targets.contains n then { q with spoiled := n :: q.spoiled } else q) c.press }.freePlate team n
  else if (c.plateOfTeam team n).left.isSome then c.freePlate team n
  else c

/-- An entry that leaves its queue: each plate it names is left with what it did until that is consumed (15 R344). -/
def Chip.leavePlates (c : Chip) (id : Nat) (q : PressEntry) : Chip :=
  q.plates.foldl (fun c n => match c.physical q.team n with
    | some p => let x := c.plate (c.coreOfTeam q.team) p
      if x.owner = some (c.tagOf q.team n q.level) then c.setPlate (c.coreOfTeam q.team) p { x with left := some (id, q.group) } else c
    | none => c) c

/-! Entering the queue (15 R322, R342, R344). -/

/-- An entry joins its group's queue and the tiles counters of the threads that receive it. -/
def Chip.enterPress (c : Chip) (takers : List Nat) (q : PressEntry) : Nat × Chip :=
  let (id, c) := c.fresh
  (id, takers.foldl (fun c t => c.countTile t id) (c.setPress id q))

/-- The entry of a word that a thread issues. -/
def newEntry (e : State) (c : Chip) (t : Nat) (kind : PressKind) : PressEntry :=
  { kind := kind, group := groupOf t, team := c.teamOf t, level := (c.thread t).level, lane := laneOf t
    pc := (e.issue.map (·.pc)).getD 0 }

/-! Publications (15 R329, R330). -/

/-- The group of a team with a GROUPIX that has a present, non-exited thread. -/
def Chip.groupNamed (c : Chip) (team ix : Nat) : Option Nat :=
  (c.groupsOf team).find? (fun g => decide ((c.group g).ix.toNat = ix) && !(c.alive g).isEmpty)

/-- The four groups that byte by byte hold the quarters of B. -/
def quadGroups (c : Chip) (team : Nat) (b : BitVec 512) : List Nat :=
  (List.range 4).filterMap (fun q => c.groupNamed team (blk b (128 + 8 * q) 8))

/-- The complete publications of the groups a block names. -/
def quadPubs (c : Chip) (team : Nat) (b : BitVec 512) : List Nat :=
  (quadGroups c team b).filterMap (fun g => match c.openPub g with
    | some p => if c.pubComplete p.2 then some p.1 else none
    | none => none)

/-! Checks of a parameter block (15 R332). -/

/-- A range beyond the team's bytes, or overlapping its stash window. -/
def Team.badRange (k : Team) (off size : Nat) : Bool := decide (k.spad < off + size) || k.inWindow off size

/-- Rows or columns in team-local memory outside R325. -/
def Team.badRows (k : Team) (base stride n : Nat) : Bool :=
  decide (base % 16 ≠ 0) || decide (stride % 16 ≠ 0) || decide (stride < 512) || decide (524288 < stride) ||
    (List.range n).any (fun i => k.badRange (base + i * stride) 512)

/-- A format pair and block length of R88. -/
def pairOk (a b cc len : Nat) : Bool :=
  let two := fun (l : List Nat) => l.contains a && l.contains b
  (decide (a = 0 ∧ b = 0) && decide (cc = 0) && decide (len = 0)) || (two [1, 2] && decide (cc = 0) && decide (len = 0)) ||
    (two [6, 7] && decide (cc = 0) && decide (len = 16)) || (decide (a = 3 ∧ b = 3) && decide (cc = 0) && decide (len = 0)) ||
    (decide (a = 8 ∧ b = 8) && decide (cc = 0) && decide (len = 16)) || (two [4, 5] && decide (cc = 1) && decide (len = 0))

/-- A reserved op, A source, or reserved bit of a block (subcode 2). -/
def blkReserved (b : BitVec 512) : Bool :=
  decide (blk b 0 2 ≠ 0) || decide (blkAsrc b = 3) || decide (blk b 7 9 ≠ 0) || decide (blk b 288 224 ≠ 0) ||
    (decide (blkAsrc b = 1) && decide (blk b 66 30 ≠ 0)) || (decide (blkAsrc b = 2) && decide (blk b 73 23 ≠ 0)) ||
    (decide (blkAsrc b ≠ 0) && decide (blk b 96 32 ≠ 0)) || (blkQuad b && decide (blk b 164 28 ≠ 0))

/-- The first MX_PARAM subcode of 2 to 9 that a block meets. -/
def blkParam (c : Chip) (team : Nat) (b : BitVec 512) : Option Nat :=
  let k := c.team team
  let m := blkM b
  let n := blkN b
  let shape := fun (x : Nat) => decide (x ≠ 32) && decide (x ≠ 64)
  let gs := (List.range 4).map (fun q => blk b (128 + 8 * q) 8)
  if blkReserved b then some 2
  else if shape m || shape n then some 3
  else if !pairOk (blkFmtA b) (blkFmtB b) (blkFmtC b) (blkLen b) then some 4
  else if blkAsrc b = 0 && k.badRows (blk b 64 32) (blk b 96 32) m then some 5
  else if (if blkQuad b then decide ((quadGroups c team b).length ≠ 4) || decide (gs.dedup.length ≠ 4) || decide (15 < blk b 160 4 + 4 * (n / 32) - 1)
      else k.badRows (blk b 128 32) (blk b 160 32) n) then some 6
  else if (decide (6 ≤ blkFmtA b) && k.badRange (blk b 192 32) (32 * m)) || (decide (6 ≤ blkFmtB b) && k.badRange (blk b 224 32) (32 * n)) then some 7
  else if blkSparse b && (decide (blk b 256 32 % 8 ≠ 0) || k.badRange (blk b 256 32) m) then some 8
  else if (blkTargets b).any (fun p => (blkAPlates b).contains p) && decide (blk b 48 16 ≠ blk b 64 9) then some 9
  else none

/-- The packed tag of a format code (15 R89 and 03 R55). -/
def blkTag (f : Nat) : Tag :=
  if f = 0 then tagBf16 else if f = 1 ∨ f = 6 then tagE4m3 else if f = 2 ∨ f = 7 then tagE5m2 else if f = 3 ∨ f = 8 then tagPs8
  else if f = 4 then tagS8 else tagN8

/-- The join's own checks: MX_PARAM subcode 10, then FORMAT_FAULT subcode 5 (04 R89). DESIGN CHOICE (log entry 121): where several tags
mismatch the rule names none of them; the trap words hold the one of the first publication, its first recorded thread and lowest register. -/
def joinCheck (c : Chip) (slot off : Nat) (b : BitVec 512) (pubs : List Nat) : Option Verdict :=
  let ps := pubs.filterMap (fun i => Sparse.find? c.pubs i)
  let need := blkTag (blkFmtB b)
  if ps.any (fun p => decide (p.first ≠ blk b 160 4) || decide (p.count ≠ 4 * (blkN b / 32))) then
    some (trapAt slot causeMxParam 10 (BitVec.ofNat 32 off) 0)
  else
    (ps.findSome? (fun p => p.tags.findSome? (fun x => x.2.find? (fun g => decide (g ≠ need))))).map
      (fun g => trapAt slot causeFormat 5 (BitVec.ofNat 32 (g.toNat + 16 * need.toNat)) 0)

/-! What a tile step computes. -/

/-- Bytes of an element. -/
def blkBytes (f : Nat) : Nat := if f = 0 then 2 else 1

/-- The multiplier a SCALE byte stands for (04 R77). -/
def scaleVal (x : Nat) : Val := if x = 255 then .nan else .pow2 ((x : Int) - 127)

/-- A word of A: row m, bytes 4j to 4j + 3, with the subcode of its poison (15 R326, 16 R365). -/
def aWord (c : Chip) (q : PressEntry) (m j : Nat) : Word × Option Nat :=
  let b := q.block
  let k := c.team q.team
  if blkAsrc b = 0 then
    let o := blk b 64 32 + m * blk b 96 32 + 4 * j
    (BitVec.ofNat 32 (Memory.readN k.lmem o 4), if k.poisonedAt o 4 then some 3 else none)
  else if blkAsrc b = 1 then ((Sparse.get [] q.popped (m % 32)).getD (128 * (m / 32) + j) 0, none)
  else
    let o := 512 * m + 4 * j
    let p := c.plateOfTeam q.team (blk b 64 9 + o / 4096)
    if q.acopy = [] then (Sparse.get 0 p.elems (o % 4096 / 4), if p.poison.contains (o % 4096 / 4) then some 4 else none)
    else (Sparse.get 0 q.acopy (o / 4), none)

/-- A word of B: column n, bytes 4j to 4j + 3 (15 R326, R328). -/
def bWord (c : Chip) (q : PressEntry) (n j : Nat) : Word × Option Nat :=
  let b := q.block
  let k := c.team q.team
  if blkQuad b then
    match (q.pubs[j / 32]?).bind (fun i => Sparse.find? c.pubs i) with
    | none => (0, none)
    | some p =>
      let t := 32 * p.group + n % 32
      if !c.active t then (0, none)
      else
        let r := c.reg t (8 * (blk b 160 4 + 4 * (n / 32)) + j % 32)
        (r.bits, r.poison)
  else
    let o := blk b 128 32 + n * blk b 160 32 + 4 * j
    (BitVec.ofNat 32 (Memory.readN k.lmem o 4), if k.poisonedAt o 4 then some 3 else none)

/-- The scale of an operand's K-block: base offset, row or column, K-block. -/
def blockScale (c : Chip) (team f base i kb : Nat) : Val :=
  if 6 ≤ f then scaleVal (Memory.read (c.team team).lmem (base + 32 * i + kb)).toNat else .pow2 0

/-- Whether K-block kb of a row is skipped (04 R81). -/
def blkSkipped (c : Chip) (q : PressEntry) (m kb : Nat) : Bool :=
  let b := q.block
  if !blkSparse b then false
  else
    let w := Memory.readN (c.team q.team).lmem (blk b 256 32 + 8 * (m / 8)) 8
    if blkFmtA b = 0 then bitAt w kb else bitAt w (2 * kb) && bitAt w (2 * kb + 1)

/-- The exact sum of one K-block (04 R79). -/
def blockSum (fa fb : Nat) (sa sb : Val) (xs ys : List Word) : Val :=
  Val.sum ((xs.zip ys).flatMap (fun w => (List.range (4 / blkBytes fa)).map (fun j =>
    ((elemValue (blkTag fa) w.1 j).mul sa).mul ((elemValue (blkTag fb) w.2 j).mul sb))))

/-- The exact integer sum of one K-block. -/
def blockInt (fa fb : Nat) (xs ys : List Word) : Int :=
  let el := fun (f : Nat) (w : Word) j => if f = 4 then signedNat (elem w 8 j) 8 else (elem w 8 j : Int)
  ((xs.zip ys).flatMap (fun w => (List.range 4).map (fun j => el fa w.1 j * el fb w.2 j))).sum

/-- One output element after the K-blocks of a list (04 R79). -/
def outElement (c : Chip) (q : PressEntry) (m n : Nat) (ks : List Nat) (acc : Word) : Word :=
  let b := q.block
  ks.foldl (fun acc kb =>
    if blkSkipped c q m kb then acc
    else
      let xs := (List.range 4).map (fun j => (aWord c q m (4 * kb + j)).1)
      let ys := (List.range 4).map (fun j => (bWord c q n (4 * kb + j)).1)
      if blkFmtC b = 1 then acc + BitVec.ofInt 32 (blockInt (blkFmtA b) (blkFmtB b) xs ys)
      else toF32 ((f32 acc).add (blockSum (blkFmtA b) (blkFmtB b) (blockScale c q.team (blkFmtA b) (blk b 192 32) m kb)
        (blockScale c q.team (blkFmtB b) (blk b 224 32) n kb) xs ys))) acc

/-- The subcode of the poison that a K-block of a target plate meets in an operand, a scale or the bitmap (21 R453). -/
def blockPoison (c : Chip) (q : PressEntry) (mi ni kb : Nat) : Option Nat :=
  let b := q.block
  let k := c.team q.team
  let rows := (List.range 32).map (fun r => 32 * mi + r)
  let cols := (List.range 32).map (fun r => 32 * ni + r)
  let used := rows.filter (fun m => !blkSkipped c q m kb)
  let lo := fun (o : Nat) => if k.poisonedAt o 1 then some 3 else none
  (if blkSparse b then rows.findSome? (fun m => lo (blk b 256 32 + 8 * (m / 8))) else none).orElse (fun _ =>
    if used.isEmpty then none
    else (used.findSome? (fun m => (List.range 4).findSome? (fun j => (aWord c q m (4 * kb + j)).2))).orElse (fun _ =>
      (cols.findSome? (fun n => (List.range 4).findSome? (fun j => (bWord c q n (4 * kb + j)).2))).orElse (fun _ =>
        (if 6 ≤ blkFmtA b then used.findSome? (fun m => lo (blk b 192 32 + 32 * m + kb)) else none).orElse (fun _ =>
          if 6 ≤ blkFmtB b then cols.findSome? (fun n => lo (blk b 224 32 + 32 * n + kb)) else none))))

/-- The K-blocks of a list before the first that meets poison, with its subcode. -/
def beforePoison (c : Chip) (q : PressEntry) (mi ni : Nat) : List Nat → List Nat × Option Nat
  | [] => ([], none)
  | kb :: rest => match blockPoison c q mi ni kb with
    | some s => ([], some s)
    | none => let r := beforePoison c q mi ni rest; (kb :: r.1, r.2)

/-! A from a furrow (16 R365). -/

/-- Taking `n` entries from the head of a lane of a furrow. -/
def Chip.popLane (c : Chip) (g q lane n : Nat) : List Word × Chip :=
  let x := c.group g
  let f := x.plough.lane q lane
  (f.entries.take n, c.setGroup g { x with plough := { x.plough with furrows := Sparse.set x.plough.furrows (32 * q + lane) { f with entries := f.entries.drop n } } })

/-- Popping what the K-blocks from `kb` on need, one K-block at a time, each lane in ascending order as far as it can supply; where some lane
falls short the press stalls there. A lane whose row skips a K-block is not read for it (04 R81); its entries are popped when a later K-block
of the row is needed. Gives the K-blocks supplied. -/
def popBlocks : Nat → Chip → PressEntry → Nat → Nat → Chip × PressEntry × Nat
  | 0, c, q, _, _ => (c, q, 0)
  | n + 1, c, q, half, kb =>
    let fur := blk q.block 64 2
    let need := fun (l : Nat) => if blkSkipped c q (32 * half + l) kb then 0 else (128 * half + 4 * kb + 4) - (Sparse.get [] q.popped l).length
    let lanes := (c.alive q.group).map laneOf
    let whole := lanes.all (fun l => decide (need l ≤ ((c.group q.group).plough.lane fur l).entries.length))
    let (c, q) := lanes.foldl (fun (s : Chip × PressEntry) l =>
      let (ws, c) := s.1.popLane q.group fur l (need l)
      (c, { s.2 with popped := Sparse.set s.2.popped l (Sparse.get [] s.2.popped l ++ ws) })) (c, q)
    if whole then
      let (c, q, k) := popBlocks n c q half (kb + 1)
      (c, q, k + 1)
    else (c, q, 0)

/-- A press operation that waits at a faulted furrow entry writes one error record (16 R365). -/
def noteFurrow (e : State) (c : Chip) (id : Nat) (q : PressEntry) : Chip :=
  let fur := blk q.block 64 2
  let stuck := (c.alive q.group).findSome? (fun t =>
    let f := (c.group q.group).plough.lane fur (laneOf t)
    if f.entries.isEmpty then f.fault else none)
  match stuck with
  | some (cause, sub, addr, _) =>
    if q.noted then c
    else
      let c := c.setPress id { q with noted := true }
      errorRecord e c (c.team q.team).ctx (c.threadRec (32 * q.group + q.lane) cause sub 4 q.pc.toNat addr 0 0 0 0)
  | none => c

/-! A tile step (15 R323). -/

/-- Every target plate's new elements unspecified. -/
def Chip.freeTargets (c : Chip) (q : PressEntry) : Chip := (blkTargets q.block).foldl (fun c n => c.freePlate q.team n) c

/-- A register of a quad operation's publications has been written since its MX.READY, or differs from what that found (15 R331). -/
def pubsChanged (c : Chip) (q : PressEntry) : Bool :=
  q.pubs.any (fun i => match Sparse.find? c.pubs i with
    | none => false
    | some p => p.written || p.vals.any (fun v => c.active (32 * p.group + v.1) &&
        decide ((List.range v.2.length).map (fun j => c.v (32 * p.group + v.1) (8 * p.first + j)) ≠ v.2)))

/-- The old contents of A's plates under exact aliasing, kept before the first target write (15 R340). -/
def PressEntry.keepA (q : PressEntry) (c : Chip) : PressEntry :=
  if blkAsrc q.block = 2 ∧ blk q.block 48 16 = blk q.block 64 9 ∧ q.acopy = [] then
    { q with acopy := (List.range (blkM q.block / 8)).flatMap (fun i =>
        (List.range 1024).map (fun j => (1024 * i + j, Sparse.get 0 (c.plateOfTeam q.team (blk q.block 64 9 + i)).elems j))) }
  else q

/-- A poisoned element of the plates an operation reads as such: those of A under exact aliasing, or the target it adds to. -/
def platePoison (c : Chip) (q : PressEntry) (n start : Nat) : Option Nat :=
  let bad := fun p => !(c.plateOfTeam q.team p).poison.isEmpty
  if (blkAccumulate q.block || decide (start ≠ 0)) && bad n then some 4
  else if blkAsrc q.block = 2 && decide (blk q.block 48 16 = blk q.block 64 9) && q.acopy.isEmpty && (blkAPlates q.block).any bad then some 4
  else none

/-- An operation that met poison ends as faulted, its plates unspecified (21 R453). -/
def faultPress (e : State) (c : Chip) (id : Nat) (q : PressEntry) (sub : Nat) : Chip :=
  let c := (c.freeTargets q).setPress id { q with fault := some sub, ended := true, started := true, mid := false }
  errorRecord e c (c.team q.team).ctx (c.threadRec (32 * q.group + q.lane) causeUncorrectable sub 4 q.pc.toNat 0 0 0 0 0)

/-- Publications are done with: their handles resolve. -/
def Chip.endPubs (c : Chip) (pubs : List Nat) (status : Nat) : Chip :=
  pubs.foldl (fun c i => match Sparse.find? c.pubs i with
    | none => c
    | some p =>
      let c := p.handles.foldl (fun c h => c.resolve h.1 (BitVec.ofNat 32 status)) c
      { c with pubs := Sparse.erase c.pubs i }) c

/-- The publications that no K-block still to be performed reads: each is a quarter of B's K-blocks (15 R326, R329). -/
def PressEntry.pubsRead (q : PressEntry) : List Nat :=
  let left := (q.starts.take (blkTargets q.block).length).foldl min 32
  q.pubs.take (left / 8)

/-- At most `blocks` K-blocks of the first target plate that is not complete (15 R323, R327, R344, R352). The handles of publications that
have been read resolve (R329); A's plates are used too (24 R485). -/
def mxStep (e : State) (c : Chip) (id : Nat) (q : PressEntry) (blocks : Nat) : Chip :=
  let b := q.block
  let nt := (blkTargets b).length
  match (List.range nt).find? (fun i => decide (q.starts.getD i 0 < 32)) with
  | none => c.setPress id { q with ended := true }
  | some i =>
    let mi := i / (blkN b / 32)
    let ni := i % (blkN b / 32)
    let n := blk b 48 16 + i
    let start := q.starts.getD i 0
    match platePoison c q n start with
    | some sub => faultPress e c id q sub
    | none =>
      let q := q.keepA c
      let want := min blocks (32 - start)
      let (c, q, got) := if blkAsrc b = 1 then popBlocks want c q mi start else (c, q, want)
      let (ks, bad) := beforePoison c q mi ni ((List.range got).map (fun j => start + j))
      let old := c.plateOfTeam q.team n
      let acc := fun i => if blkAccumulate b || decide (start ≠ 0) then Sparse.get 0 old.elems i else 0
      let els := (List.range 1024).map (fun j => (j, outElement c q (32 * mi + j / 32) (32 * ni + j % 32) ks (acc j)))
      let upto := start + ks.length
      let c := if ks.isEmpty then c else c.onPlate q.team n (fun x => { x with wrote := true, elems := els, int := decide (blkFmtC b = 1), kdone := upto, poison := [] })
      let starts := (List.range 4).map (fun j => if j = i then upto else q.starts.getD j 0)
      let all := (List.range nt).all (fun j => decide (32 ≤ starts.getD j 0))
      let q := { q with starts := starts, started := true, ended := all, mid := decide (upto < 32), tainted := q.tainted || pubsChanged c q }
      let c := if q.tainted || q.spoiled.contains n then c.freePlate q.team n else c
      let c := if blkAsrc b = 2 then (blkAPlates b).foldl (fun c p => c.onPlate q.team p (fun x => x)) c else c
      match bad with
      | some sub => faultPress e c id q sub
      | none =>
        let c := (c.setPress id q).endPubs q.pubsRead 0
        if got < want then noteFurrow e c id q else c

/-! Queued plate instructions (15 R343, R347, R348). -/

/-- A scaled element (15 R348). -/
def scaledElement (int : Bool) (x s : Word) : Word :=
  toF32 ((if int then Val.ofInt x.toInt else f32 x).mul (f32 s))

/-- The error record of a queued plate instruction that met poison (21 R453). -/
def plateRecord (e : State) (c : Chip) (q : PressEntry) (sub : Option Nat) : Chip :=
  match sub with
  | none => c
  | some sub => errorRecord e c (c.team q.team).ctx (c.threadRec (32 * q.group + q.lane) causeUncorrectable sub 4 q.pc.toNat 0 0 0 0 0)

/-- Where a transfer reaches memory when it is performed, and the device that homes the page where that is another: its page may have moved
since the issue. One whose entry no longer permits it uses what it was translated to at issue, which is before any TLB.INV (15 R347, 17
R386). -/
def pressPlace (e : State) (c : Chip) (q : PressEntry) : Nat × Option Nat :=
  match translate e c (c.coreOfTeam q.team) (c.team q.team).ctx q.level q.addr .read with
  | .ok p _ dev => (p, if decide (q.kind = .ld) && leaseGood e p then none else dev)
  | _ => (q.phys, none)

/-- Whether a transfer waits for its page: migrating, to be served, to be recalled, or, to be written, marked copy-on-write or with leases
out (17 R372, R383, R384, 18 R418). -/
def pressHeld (e : State) (c : Chip) (q : PressEntry) : Bool :=
  (decide (q.kind = .ld) || decide (q.kind = .st)) &&
    match translate e c (c.coreOfTeam q.team) (c.team q.team).ctx q.level q.addr .read with
    | .ok p _ dev => (decide (q.kind = .st) && (c.cowHeld p || (dev.isNone && leasePending e p))) || pageAway e c (c.team q.team).ctx q.addr
    | .serve => true
    | .migrating => true
    | .fault .. => false

/-- The posted stores of a core to the line of a byte are established at their home (12 R259). -/
def establishPosted (e : State) (c : Chip) (core p : Nat) : Chip := (c.postedOn core (lineOf p)).foldl (fun c id => establishNow e c id) c

/-- The elements of some rows. -/
def rowElems (rows : List Nat) : List Nat := rows.flatMap (fun r => (List.range 32).map (fun j => 32 * r + j))

/-- PL.LD's reads of some rows, at the home slices: the core's posted stores to them are established first (12 R259, 14 R308, 15 R347). Poison
comes with the words; the first subcode is given. -/
def plLoad (e : State) (c : Chip) (q : PressEntry) (place : Nat) (rows : List Nat) : Option Nat × Chip :=
  let core := c.coreOfTeam q.team
  let c := rows.foldl (fun c r => establishPosted e c core (place + 128 * r)) c
  let els := rowElems rows
  let bad := els.filterMap (fun i => (poisonAt e c (place + 4 * i) 4).map (fun s => (i, s)))
  let vals := els.map (fun i => (i, BitVec.ofNat 32 (peek e c (place + 4 * i) 4)))
  (bad.head?.map (·.2), c.onPlate q.team q.plate (fun x => { x with
    wrote := true, elems := Sparse.union x.elems vals, poison := x.poison.filter (fun i => !els.contains i) ++ bad.map (·.1) }))

/-- PL.ST's writes of some rows: whole words, poison with them. -/
def plStore (e : State) (c : Chip) (q : PressEntry) (place : Nat) (rows : List Nat) : Chip :=
  let x := c.plateOfTeam q.team q.plate
  let core := c.coreOfTeam q.team
  (rowElems rows).foldl (fun c i =>
    let c := agentWrite e c (some core) (place + 4 * i) 4 (Sparse.get 0 x.elems i).toNat
    if x.poison.contains i then poisonWords e c (place + 4 * i) 4 else c) c

/-- A row of a plate as the 128 bytes of a line. -/
def Plate.row (x : Plate) (r : Nat) : Nat := ((List.range 32).map (fun j => (Sparse.get 0 x.elems (32 * r + j)).toNat * 2 ^ (32 * j))).sum

/-- Rows of a queued plate instruction performed: at most `n` of those that are not, with what poison they met (15 R343, R347, R348, R352).
What is not an element of a row, the header and the owner, is done with the last. -/
def plateRows (e : State) (c : Chip) (q : PressEntry) (rows : List Nat) : Option Nat × Chip :=
  let x := c.plateOfTeam q.team q.plate
  let els := rowElems rows
  let met : Option Nat := if x.poison.any els.contains then some 4 else none
  match q.kind with
  | .issue => (none, c)
  | .zero => (none, c.onPlate q.team q.plate (fun x => { x with
      wrote := true, elems := Sparse.only (fun i _ => !els.contains i) x.elems, poison := x.poison.filter (fun i => !els.contains i) }))
  | .free => (none, c.onPlate q.team q.plate id)
  | .ld => match pressPlace e c q with
    | (p, none) => plLoad e c q p rows
    | (_, some _) =>
      let base := c.free
      (none, { c with free := c.free + 1024 }.onPlate q.team q.plate (fun x => { x with
        wrote := true, elems := Sparse.union x.elems (els.map (fun i => (i, (Config.freeBits (base + i)).setWidth 32))), poison := x.poison.filter (fun i => !els.contains i) }))
  | .st => match pressPlace e c q with
    | (p, none) => (met, plStore e (c.onPlate q.team q.plate id) q p rows)
    | (p, some d) => (met, rows.foldl (fun c r => c.tell (unitMessage d (p + 128 * r) 128 true (x.row r))) (c.onPlate q.team q.plate id))
  | .scale => (met, c.onPlate q.team q.plate (fun x => { x with
      wrote := true, elems := Sparse.union x.elems (els.map (fun i => (i, scaledElement x.int (Sparse.get 0 x.elems i) q.scale))) }))

/-- What a queued plate instruction does with its last row. -/
def plateEnd (c : Chip) (q : PressEntry) : Chip :=
  match q.kind with
  | .zero => c.onPlate q.team q.plate (fun x => { x with wrote := true, elems := [], poison := [], int := q.int, kdone := 0 })
  | .ld => c.onPlate q.team q.plate (fun x => { x with int := q.int, kdone := 0 })
  | .scale => c.onPlate q.team q.plate (fun x => { x with int := false })
  | .free =>
    let c := c.onPlate q.team q.plate (fun x => { x with wrote := true, elems := [], poison := [], owner := none, kdone := 0, left := none })
    let k := c.team q.team
    c.setTeam q.team { k with spilled := k.spilled.filter (· != spillKey q.level.code q.plate) }
  | _ => c

/-- A step of a queued plate instruction: at most `n` of its rows, all of them where nothing stops it; a stop leaves the mask of the rows
performed (15 R352). The first poison it meets writes its error record (21 R453). -/
def plateStep (e : State) (c : Chip) (id : Nat) (q : PressEntry) (n : Nat) : Chip :=
  let rows := ((List.range 32).filter (fun r => !q.rows.getLsbD r)).take n
  let mask := rows.foldl (fun (m : BitVec 32) r => m ||| BitVec.ofNat 32 (2 ^ r)) q.rows
  let (bad, c) := plateRows e c q rows
  let all := decide (mask = BitVec.allOnes 32)
  let c := if all then plateEnd c q else c
  let c := if all && (q.tainted || q.spoiled.contains q.plate) && decide (q.kind ≠ .free) then c.freePlate q.team q.plate else c
  let c := if q.noted then c else plateRecord e c q bad
  c.setPress id { q with rows := mask, started := true, ended := all, mid := !all, noted := q.noted || bad.isSome }

/-! Which entry the press takes (15 R322, R323). -/

/-- Whether an entry may be performed: not cancelled or held, every earlier entry of its team that names one of its plates
resolved, and for PL.LD and PL.ST the issuing thread's earlier accesses performed (15 R347). -/
def Chip.pressEligible (c : Chip) (id : Nat) (q : PressEntry) : Bool :=
  !q.ended && !q.cancel && q.held.isNone &&
  !(c.press.any (fun p => decide (p.1 < id) && decide (p.2.team = q.team) && p.2.plates.any (fun n => q.plates.contains n))) &&
  ((decide (q.kind ≠ .ld) && decide (q.kind ≠ .st)) || !(c.earlier (c.leadOf (32 * q.group + q.lane)) id (fun b => !b.performed && decide (b.op ≠ .ecall))))

/-- The next entry of a group's queue. -/
def Chip.queueHead (c : Chip) (g : Nat) : Option Nat :=
  (c.queue g).find? (fun id => match Sparse.find? c.press id with | some q => !q.ended | none => false)

/-- The entry the press of a core takes: the group in ring order after the one served last whose next entry is eligible; a
step that is not yet ended goes on first. `runs` says which entries may be worked on, their contexts running. -/
def Chip.pressNext (c : Chip) (core : Nat) (runs : PressEntry → Bool) : Option (Nat × PressEntry) :=
  let gs := Sparse.keysWhere (fun _ g => g.resident && decide (g.croft / 4 = core)) c.groups
  let heads := gs.filterMap (fun g => (c.queueHead g).bind (fun id => (Sparse.find? c.press id).bind (fun q =>
    if c.pressEligible id q && runs q then some ((c.group g).order, id, q) else none)))
  let mid := heads.find? (fun h => h.2.2.mid)
  let ring := (c.core core).ring
  let least := fun (l : List (Nat × Nat × PressEntry)) => l.foldl (fun (b : Option (Nat × Nat × PressEntry)) h => match b with
    | none => some h
    | some x => if h.1 < x.1 then some h else b) none
  match mid with
  | some h => some h.2
  | none => ((least (heads.filter (fun h => decide (ring < h.1)))).orElse (fun _ => least heads)).map (·.2)

/-- One step of the press of a core (15 R323); `blocks` is how many K-blocks or rows pass before a stop may cut the step (R352). The press stalls in
a step that finds its furrow empty or its page to be served (R326, 17 R372), and turns to the next queue when the step has ended. -/
def pressStep (e : State) (c : Chip) (core blocks : Nat) (runs : PressEntry → Bool) : Chip :=
  match c.pressNext core runs with
  | none => c
  | some (id, q) =>
    let c := c.stamped
    let c := if q.kind = .issue then mxStep e c id q blocks
      else if pressHeld e c q then c.setPress id { q with mid := true }
      else plateStep e c id q blocks
    if ((Sparse.find? c.press id).map (·.mid)).getD false then c else c.setCore core { c.core core with ring := (c.group q.group).order }

/-! Resolution (15 R344, R345). -/

/-- K-blocks completed over the target plates. -/
def PressEntry.blocksDone (q : PressEntry) : Nat := ((List.range (blkTargets q.block).length).map (fun i => q.starts.getD i 0)).sum

/-- The status word of an entry that resolves: done, cancelled, faulted or partial. -/
def PressEntry.status (q : PressEntry) : Nat :=
  match q.fault with
  | some sub => 2 * 2 ^ 28 + causeUncorrectable + 256 * sub + 65536 * min q.blocksDone 4095
  | none => if q.ended then 0 else if q.started then 3 * 2 ^ 28 + q.blocksDone else 2 ^ 28

/-- An entry leaves the queue with a status. An operand that was written before then leaves every target plate of an operation in progress
unspecified (10 R222, 15 R331). -/
def Chip.resolvePress (c : Chip) (id : Nat) (q : PressEntry) (status : Nat) : Chip :=
  let c := if decide (q.kind = .issue) && q.started then
      (if q.tainted || pubsChanged c q then c.freeTargets q else q.spoiled.dedup.foldl (fun c n => c.freePlate q.team n) c) else c
  let c := if q.kind = .issue then
      (blkTargets q.block).foldl (fun c n => match c.physical q.team n with
        | some p => let x := c.plate (c.coreOfTeam q.team) p
          if x.owner = some (c.tagOf q.team n q.level) then c.setPlate (c.coreOfTeam q.team) p { x with kdone := 0 } else c
        | none => c) c
    else c
  let c := (c.endPubs q.pubs 0).leavePlates id q
  let c := { c with press := Sparse.erase c.press id }
  match q.handle with
  | some h => c.resolve h (BitVec.ofNat 32 status)
  | none => c

/-- Withdrawing a publication that no issue has consumed (15 R329). -/
def Chip.withdrawPub (c : Chip) (i : Nat) : Chip :=
  match Sparse.find? c.pubs i with
  | some p => if p.consumed then c else c.endPubs [i] (2 ^ 28)
  | none => c

end Sys2Proof.Machine
end

