-- ==== Sys2Proof/Machine/Copy.lean ====
section
/-! DEFINITION. Asynchronous copies and handles, majors 0x36 to 0x38 (14 R302 to R315). -/

namespace Sys2Proof.Machine

/-! CPY (14 R306, R307). -/

/-- An operand of a copy word: a global address, an offset in the team's own memory, or a cluster-remote register. -/
inductive CpyEnd where
  | glob (ea : BitVec 64)
  | loc (off : Nat)
  | rmt (reg : Word)
deriving DecidableEq, Repr

/-- The address or offset of an operand. -/
def CpyEnd.address : CpyEnd → BitVec 64
  | .glob ea => ea
  | .loc off => BitVec.ofNat 64 off
  | .rmt r => BitVec.ofNat 64 (fieldNat r.toNat 0 19)

/-- The number an element keeps for an operand: the address or offset, or the cluster-remote register. -/
def CpyEnd.bits : CpyEnd → BitVec 64
  | .rmt r => r.setWidth 64
  | x => x.address

/-- What one operand fails at one step of 14 R307: cause and subcode. -/
def CpyEnd.fails (x : CpyEnd) (c : Chip) (t size step : Nat) : Option (Nat × Nat) :=
  let k := c.team (c.teamOf t)
  let a := x.address.toNat
  match step with
  | 1 => if a % size ≠ 0 then some (causeAlign, 0) else none
  | 2 => match x with
    | .glob _ => if a / 2 ^ 55 ≠ 0 then some (causeAccess, 1) else none
    | _ => none
  | 3 => match x with
    | .glob _ => none
    | _ => if k.spad < a + size then some (causeAccess, 4) else none
  | 4 => match x with
    | .rmt r =>
      if !rmtZero r ∨ k.clw ≤ rmtX r ∨ k.clh ≤ rmtY r then some (causeAccess, 5)
      else if (c.sibling t (rmtX r) (rmtY r)).isNone then some (causeAccess, 14) else none
    | _ => none
  | 5 => match x with
    | .loc _ => if k.inWindow a size then some (causeAccess, 7) else none
    | .rmt r => if c.sibling t (rmtX r) (rmtY r) = some (c.teamOf t) ∧ k.inWindow a size = true then some (causeAccess, 7) else none
    | .glob _ => none
  | _ => none

/-- The elements of a thread's open batch at its level. -/
def Chip.openElems (c : Chip) (t : Nat) : Nat :=
  match Sparse.find? (c.thread t).openBatch (c.thread t).level.code with
  | some id => match Sparse.find? c.batches id with | some b => b.elems.length | none => 0
  | none => 0

/-- The checks of a copy word in a thread: at each step the source, then the destination. -/
def cpyVerdict (c : Chip) (t slot size : Nat) (src dst : CpyEnd) : Option Verdict :=
  ([1, 2, 3, 4, 5].findSome? (fun n =>
    match src.fails c t size n with
    | some (cause, sub) => some (memTrap slot cause sub false 0 src.address)
    | none => (dst.fails c t size n).map (fun f => memTrap slot f.1 f.2 true 0 dst.address))).orElse (fun _ =>
      if Config.batchElements ≤ c.openElems t then some (trapAt slot causeHandle 1 0 0) else none)

/-- The transfer unit of an element: the elements of one copy word whose source lies in one 128-byte line of global memory, or in one
block of a team's memory (14 R309). -/
def unitKey (c : Chip) (t : Nat) : CpyEnd → Nat × Nat
  | .glob ea => (0, ea.toNat / 128)
  | .loc off => (1 + c.teamOf t, off / 128)
  | .rmt r => (1 + (c.sibling t (rmtX r) (rmtY r)).getD (c.teamOf t), fieldNat r.toNat 0 19 / 128)

/-- A copy word (14 R306): each thread appends an element to its open batch; the issue group's elements are gathered into
units. In rollback mode a copy to global memory commits the interval early (21 R459). -/
def copyWord (i : Instr) (kind : BitVec 2) (z : BitVec 2) (src dst : Chip → Nat → CpyEnd) (s : State) : Host.Outcome State Fault Refusal :=
  let size := if z = 0 then 4 else if z = 1 then 8 else 16
  let act : Act := fun e _ live c =>
    ((live.filter e.now.visible).foldl (fun (p : List ((Nat × Nat) × Nat) × Chip) t =>
      let (units, c) := p
      let a := src e.now t
      let (unit, units, c) := match List.find? (fun (u : (Nat × Nat) × Nat) => decide (u.1 = unitKey e.now t a)) units with
        | some u => (u.2, units, c)
        | none => let (n, c) := c.fresh; (n, (unitKey e.now t a, n) :: units, c)
      let (id, c) := c.openBatchOf t (c.thread t).level
      let c := match Sparse.find? c.batches id with
        | some b => c.setBatch id { b with elems := b.elems ++ [{ kind := kind, size := size, src := a.bits, dst := (dst e.now t).bits, unit := unit }] }
        | none => c
      let c := if (c.team (c.teamOf t)).rollback && (decide (kind = 1) || decide (kind = 2)) then commitNow e c (c.teamOf t) else c
      (units, c)) ([], c)).2
  runWord i (fun e t slot => cpyVerdict e.now t slot size (src e.now t) (dst e.now t)) act s

/-- CPY.G2S. -/
def execCpyG2s (c : Bool) (z : BitVec 2) (d : BitVec 7) (a : BitVec 6) (s : State) : Host.Outcome State Fault Refusal :=
  copyWord (.cpyG2s c z d a) 0 z (fun m t => .glob (m.vv t (2 * a.toNat))) (fun m t => .loc (m.v t d.toNat).toNat) s
/-- CPY.S2G. -/
def execCpyS2g (c : Bool) (z : BitVec 2) (d : BitVec 6) (a : BitVec 7) (s : State) : Host.Outcome State Fault Refusal :=
  copyWord (.cpyS2g c z d a) 1 z (fun m t => .loc (m.v t a.toNat).toNat) (fun m t => .glob (m.vv t (2 * d.toNat))) s
/-- CPY.G2G. -/
def execCpyG2g (c : Bool) (z : BitVec 2) (d a : BitVec 6) (s : State) : Host.Outcome State Fault Refusal :=
  copyWord (.cpyG2g c z d a) 2 z (fun m t => .glob (m.vv t (2 * a.toNat))) (fun m t => .glob (m.vv t (2 * d.toNat))) s
/-- CPY.S2S. -/
def execCpyS2s (c : Bool) (z : BitVec 2) (d a : BitVec 7) (s : State) : Host.Outcome State Fault Refusal :=
  copyWord (.cpyS2s c z d a) 3 z (fun m t => .rmt (m.v t a.toNat)) (fun m t => .rmt (m.v t d.toNat)) s

/-! Flag, commit and handles (14 R310, R312, R313). -/

/-- CPY.FLAG: checked as a destination of 4 bytes. -/
def execCpyFlag (c : Bool) (a b : BitVec 7) (s : State) : Host.Outcome State Fault Refusal :=
  let at_ := fun (m : Chip) t => CpyEnd.loc (m.v t a.toNat).toNat
  runWord (.cpyFlag c a b)
    (fun e t slot => [1, 3, 5].findSome? (fun n =>
      ((at_ e.now t).fails e.now t 4 n).map (fun f => memTrap slot f.1 f.2 true 0 (at_ e.now t).address)))
    (once false (fun e t _ m =>
      let (id, m) := m.openBatchOf t (m.thread t).level
      match Sparse.find? m.batches id with
      | some x => m.setBatch id { x with flag := some ((e.now.v t a.toNat).toNat, e.now.v t b.toNat) }
      | none => m)) s

/-- CPY.COMMIT. -/
def execCpyCommit (c : Bool) (d : BitVec 7) (sc : BitVec 3) (s : State) : Host.Outcome State Fault Refusal :=
  runWord (.cpyCommit c d sc) noCheck (once false (fun _ t takers m =>
    let (id, m) := m.closeBatch t (m.thread t).level sc
    let (h, m) := m.newHandle (m.coreOf t) (.batch id)
    let m := match Sparse.find? m.batches id with
      | some x => m.setBatch id { x with handle := some h }
      | none => m
    takers.foldl (fun m x => m.setReg x d.toNat (handleReg h)) m)) s

/-- HTEST: not a consumption. -/
def execHtest (c : Bool) (d : BitVec 3) (a : BitVec 7) (s : State) : Host.Outcome State Fault Refusal :=
  runWord (.htest c d a) noCheck (perThread false (fun pre l t m => m.writeP t d.toNat (pre.reg l a.toNat).wait.isNone)) s

/-- Cancelling the operation of a reference (14 R313, 15 R329, R345, 09 R198). -/
def cancelRef (e : State) (c : Chip) (h : Nat) : Chip :=
  match Sparse.find? c.handles h with
  | none => c
  | some x => match x.of with
    | .batch id => match Sparse.find? c.batches id with
      | some b => if b.elems.any (fun q => !q.sent) then c.setBatch id { b with cancel := true } else c
      | none => c
    | .press id => match Sparse.find? c.press id with
      | some q => if q.ended then c else c.setPress id { q with cancel := true }
      | none => c
    | .launch .. => cancelLaunch e c h
    | .publication id _ => c.withdrawPub id
    | .page .. => c

/-- HCANCEL. -/
def execHcancel (c : Bool) (a : BitVec 7) (s : State) : Host.Outcome State Fault Refusal :=
  runWord (.hcancel c a) noCheck (once false (fun e t _ m =>
    match (e.now.reg t a.toNat).wait with
    | some (.handle h) => cancelRef e m h
    | _ => m)) s

/-- HWAIT: not ready until the handle resolves (its operand's readiness); the acquire has no further effect, since every
write of the operation has reached the core. -/
def execHwait (c : Bool) (a : BitVec 7) (s : State) : Host.Outcome State Fault Refusal :=
  runWord (.hwait c a) noCheck (fun _ _ _ m => m) s

/-- CNTRD. -/
def execCntrd (c : Bool) (d : BitVec 7) (s : State) : Host.Outcome State Fault Refusal :=
  runWord (.cntrd c d) noCheck (perThread false (fun pre l t m =>
    m.writeV t d.toNat (BitVec.ofNat 32 (pre.loads l * 2 ^ 18 + pre.stores l * 2 ^ 12 + pre.copies l * 2 ^ 6 + pre.tiles l)) tagInt)) s

/-- WAITC: not ready until every counter is at or below its field. -/
def execWaitc (c : Bool) (l sc k t : BitVec 6) (s : State) : Host.Outcome State Fault Refusal :=
  runWord (.waitc c l sc k t) noCheck (fun _ _ _ m => m) s

end Sys2Proof.Machine
end

