-- ==== Sys2Proof/Machine/Plough.lean ====
section
/-! DEFINITION. The plough and its furrows, major 0x3C (16 R355 to R364), and the reads of its streams. -/

namespace Sys2Proof.Machine

/-- Changing the plough context of a thread's group. -/
def Chip.onPlough (c : Chip) (g : Nat) (f : Plough → Plough) : Chip :=
  c.setGroup g { c.group g with plough := f (c.group g).plough }

/-- Writing one lane of a furrow. -/
def Plough.setLane (p : Plough) (n lane : Nat) (f : Furrow) : Plough := { p with furrows := Sparse.set p.furrows (32 * n + lane) f }

/-- Bytes of an element. -/
def Stream.bytes (s : Stream) : Nat := if s.size = 0 then 4 else if s.size = 1 then 8 else 16

/-- Elements of a stream under its captured counts; a stream that is not defined has none. -/
def Plough.elements (p : Plough) (n : Nat) : Nat :=
  match Sparse.find? p.capStreams n with
  | none => 0
  | some _ => ((Sparse.get [1] p.capCounts n).foldl (· * ·) 1)

/-- The address of the element at a position of a stream, for a home lane: position in loop order, level 0 innermost (16
R356). -/
def Plough.address (p : Plough) (n lane pos : Nat) : BitVec 64 :=
  let s := Sparse.get {} p.capStreams n
  let cnt := fun l => (Sparse.get [] p.capCounts n).getD l 1
  let idx : List Nat := [pos % cnt 0, pos / cnt 0 % cnt 1, pos / cnt 0 / cnt 1 % cnt 2, pos / cnt 0 / cnt 1 / cnt 2]
  (idx.zip s.strides).foldl (fun a x => a + BitVec.ofInt 64 ((x.1 : Int) * x.2.toInt)) (Sparse.get 0 p.capBases (32 * n + lane))

/-- The bits of the streams of a list. -/
def streamBits (f : Nat → Bool) : BitVec 4 := BitVec.ofNat 4 ((List.range 4).foldl (fun n i => if f i then n + 2 ^ i else n) 0)

/-- The state once the streams of the last PLW.GO are looked at: held on a fault, idle when every one is done (16 R361,
R364). -/
def Plough.settle (p : Plough) : Plough :=
  if p.state = .stopped then p
  else if p.heldOn ≠ 0 then { p with state := .held }
  else if p.captured &&& ~~~p.done = 0 then { p with state := .idle }
  else { p with state := .running }

/-- PLW.LOOP (16 R359). -/
def execPlwLoop (c : Bool) (l : BitVec 2) (a : BitVec 7) (s : State) : Host.Outcome State Fault Refusal :=
  runWord (.plwLoop c l a) noCheck (groupOnce (fun e t _ m => m.onPlough (groupOf t) (fun p =>
    { p with counts := p.counts.set l.toNat (max 1 (fieldNat (e.now.v t a.toNat).toNat 0 24)) }))) s

/-- PLW.STRM (16 R360): size, type and strides from the group's lowest active home lane, each thread its own base. -/
def execPlwStrm (c : Bool) (t z q : BitVec 2) (a : BitVec 6) (b : BitVec 5) (s : State) : Host.Outcome State Fault Refusal :=
  runWord (.plwStrm c t z q a b) noCheck (fun e _ live m => live.foldl (fun m x =>
    let l := e.groupLead x
    m.onPlough (groupOf x) (fun p => { p with
      streams := Sparse.set p.streams q.toNat { size := z.toNat, kind := t, strides := (List.range 4).map (fun j => e.now.v l (4 * b.toNat + j)) }
      bases := Sparse.set p.bases (32 * q.toNat + laneOf x) (e.now.vv x (2 * a.toNat)) })) m) s

/-- Starting the streams of a mask (16 R361): their counts and definitions are captured, their furrows and indices cleared; the others
stop, and one of them that was done stays done. -/
def Plough.go (p : Plough) (mask : BitVec 4) : Plough :=
  let named := fun i => mask.getLsbD i
  let p := { p with
    captured := mask
    capCounts := (List.range 4).foldl (fun m i => if named i then Sparse.set m i p.counts else m) p.capCounts
    capStreams := Sparse.union (Sparse.only (fun i _ => !named i) p.capStreams) (Sparse.only (fun i _ => named i) p.streams)
    capBases := Sparse.union (Sparse.only (fun i _ => !named (i / 32)) p.capBases) (Sparse.only (fun i _ => named (i / 32)) p.bases)
    next := Sparse.only (fun i _ => !named i) p.next
    furrows := Sparse.only (fun i _ => !named (i / 32)) p.furrows
    heldOn := 0
    state := .running }
  { p with done := (p.done &&& ~~~mask) ||| streamBits (fun i => named i && decide (p.elements i = 0)) }.settle

/-- PLW.GO. -/
def execPlwGo (c : Bool) (m : BitVec 4) (s : State) : Host.Outcome State Fault Refusal :=
  runWord (.plwGo c m) noCheck (groupOnce (fun _ t _ x => x.onPlough (groupOf t) (fun p => { p.go m with after := x.nextId }))) s

/-- PLW.STOP. -/
def execPlwStop (c : Bool) (s : State) : Host.Outcome State Fault Refusal :=
  runWord (.plwStop c) noCheck (groupOnce (fun _ t _ x => x.onPlough (groupOf t) (fun p => { p with state := .stopped }))) s

/-! QPOP and QPEEK (16 R362, R364). -/

/-- The furrow lane of a thread. -/
def Chip.furrow (c : Chip) (t n : Nat) : Furrow := (c.group (groupOf t)).plough.lane n (laneOf t)

/-- What QPOP and QPEEK raise: an empty lane that nothing more reaches, and a faulted entry, raised once as it was met and then
as its element is read again. -/
def popVerdict (n : Nat) : Check := fun e t slot =>
  let f := e.now.furrow t n
  if !f.entries.isEmpty then none
  else match f.fault with
    | none => some (trapAt slot causeAccess 11 (BitVec.ofNat 32 n) 0)
    | some (cause, sub, addr, i0) =>
      let ea := BitVec.ofNat 64 addr
      if !f.told then some (memTrap slot cause sub false (BitVec.ofNat 32 i0) ea)
      else
        let size := (Sparse.get {} (e.now.group (groupOf t)).plough.capStreams n).bytes
        (globalVerdict e t slot ea size false).orElse (fun _ =>
          match threadTrans e e.now t ea false with
          | .ok p _ dev => if dev.isSome && !leaseGood e p then none
            else (poisonAt e e.now p size).map (fun k => memTrap slot causeUncorrectable k false 0 ea)
          | _ => none)

/-- The words of an element that another device answers: free values, 128 to a group (log entry 6). -/
def remoteWords (c : Chip) (t size : Nat) : List Word :=
  (List.range (size / 4)).map (fun j => (Config.freeBits (c.free + 4 * laneOf t + j)).setWidth 32)

/-- What a read of an element leaves beside its words, as a load of the stream's request type: the page's bit set, and a leased copy of the
line, the line owned, or a stale copy gone (12 R257, R261, 16 R364, 17 R368). An element that is misaligned or at a bad address is not
accessed. -/
def elementTouch (e : State) (c : Chip) (kind : BitVec 2) (size t : Nat) (ea : BitVec 64) : Chip :=
  let k := c.coreOf t
  let x := c.ctxOf t
  if ea.toNat % size ≠ 0 ∨ ea.toNat / 2 ^ 55 ≠ 0 then c
  else match threadTrans e c t ea false with
  | .ok q far dev =>
    let c := touch e c k x ea.toNat false
    if dev.isSome && !leaseGood e q then c
    else if far || isHost q || decide (kind = 3) then c.dropStale k (lineOf q) (c.line e (lineOf q)).wts
    else if kind = 1 then (if dev.isSome || c.bankWaking q then c else ownNow e c k x q)
    else renewAs e c kind k x q
  | _ => c

/-- The words of an element read again, as a load of the thread; a machine beside them for the free values that another device answers. -/
def rereadWords (e : State) (m : Chip) (t n : Nat) (addr : Nat) : List Word :=
  let size := (Sparse.get {} (e.now.group (groupOf t)).plough.capStreams n).bytes
  match threadTrans e e.now t (BitVec.ofNat 64 addr) false with
  | .ok p _ dev => if dev.isSome && !leaseGood e p then remoteWords m t size
    else (List.range (size / 4)).map (fun j => BitVec.ofNat 32 (coreView e e.now (e.now.coreOf t) (p + 4 * j) 4))
  | _ => []

/-- A lane whose faulted entry has been read again; the stream goes on once no lane of it holds a faulted entry. -/
def Plough.mend (p : Plough) (n lane : Nat) (ws : List Word) : Plough :=
  let p := p.setLane n lane { entries := ws }
  if (List.range 32).any (fun l => (p.lane n l).fault.isSome) then p
  else { p with heldOn := p.heldOn &&& ~~~BitVec.ofNat 4 (2 ^ n) }.settle

/-- A press operation that draws A from the furrow is unresolved (16 R362). -/
def Chip.furrowNamed (c : Chip) (g n : Nat) : Bool :=
  c.press.any (fun p => decide (p.2.group = g) && decide (p.2.kind = .issue) && decide (blkAsrc p.2.block = 1) && decide (blk p.2.block 64 2 = n))

/-- Every such operation receives unspecified A data. -/
def Chip.taintFurrow (c : Chip) (g n : Nat) : Chip :=
  { c with press := Sparse.mapVals (fun _ q =>
      if q.group = g ∧ q.kind = .issue ∧ blkAsrc q.block = 1 ∧ blk q.block 64 2 = n then { q with tainted := true } else q) c.press }

/-- The head entry written to `d`; `keep` leaves it in the lane. -/
def popWord (i : Instr) (d n : Nat) (keep : Bool) (s : State) : Host.Outcome State Fault Refusal :=
  runWord i (popVerdict n) (fun e _ live m => live.foldl (fun m t =>
    let g := groupOf t
    let f := e.now.furrow t n
    let addr := match f.fault with | some x => x.2.2.1 | none => 0
    let ws := if f.entries.isEmpty then rereadWords e m t n addr else f.entries
    let left := if keep then ws else ws.drop 1
    let m := if f.entries.isEmpty then
        let st := Sparse.get {} (e.now.group g).plough.capStreams n
        (elementTouch e { m with free := m.free + 128 } st.kind st.bytes t (BitVec.ofNat 64 addr)).onPlough g (fun p => p.mend n (laneOf t) left)
      else m.onPlough g (fun p => p.setLane n (laneOf t) { f with entries := left })
    if e.now.furrowNamed g n then
      let (v, m) := (m.taintFurrow g n).freeValue
      m.writeV t d (v.setWidth 32) tagRaw
    else m.writeV t d (ws.headD 0) tagRaw) m) s

/-- QPOP. -/
def execQpop (c : Bool) (d : BitVec 7) (n : BitVec 2) (s : State) : Host.Outcome State Fault Refusal :=
  popWord (.qpop c d n) d.toNat n.toNat false s

/-- QPEEK. -/
def execQpeek (c : Bool) (d : BitVec 7) (n : BitVec 2) (s : State) : Host.Outcome State Fault Refusal :=
  popWord (.qpeek c d n) d.toNat n.toNat true s

/-- QLEN. -/
def execQlen (c : Bool) (d : BitVec 7) (n : BitVec 2) (s : State) : Host.Outcome State Fault Refusal :=
  runWord (.qlen c d n) noCheck (perThread false (fun pre l t m =>
    let f := pre.furrow l n.toNat
    let len := f.entries.length + (if f.fault.isSome then 1 else 0)
    m.writeV t d.toNat (BitVec.ofNat 32 (len + (if (pre.group (groupOf l)).plough.done.getLsbD n.toNat then 128 else 0) +
      (if f.entries.isEmpty && f.fault.isSome then 256 else 0))) tagInt)) s

/-- Code of a plough state (16 R363). -/
def PloughState.code : PloughState → Nat
  | .idle => 0 | .running => 1 | .stopped => 2 | .held => 3

/-- PLW.STAT's value (16 R363). -/
def Plough.statusWord (p : Plough) : Word :=
  BitVec.ofNat 32 (p.state.code + 16 * p.captured.toNat + 256 * p.done.toNat + 4096 * p.heldOn.toNat)

/-- PLW.STAT. -/
def execPlwStat (c : Bool) (d : BitVec 7) (s : State) : Host.Outcome State Fault Refusal :=
  runWord (.plwStat c d) noCheck (groupOnce (fun e t takers m =>
    takers.foldl (fun m x => m.writeV x d.toNat (e.now.group (groupOf t)).plough.statusWord tagInt) m)) s

/-! Reading a stream (16 R357, R364). -/

/-- Whether a lane's furrow has room for a whole element. -/
def Furrow.room (f : Furrow) (words : Nat) : Bool := decide (f.entries.length + (if f.fault.isSome then 1 else 0) + words ≤ 64)

/-- What reading one element for a lane finds: its words, a fault, or a page that holds the stream. -/
inductive Element where
  | words (ws : List Word)
  | bad (cause sub addr i0 : Nat)
  | hold

/-- Reading the element of a thread's lane as a relaxed load of that thread. -/
def readElement (e : State) (c : Chip) (t : Nat) (ea : BitVec 64) (size : Nat) : Element :=
  if ea.toNat % size ≠ 0 then .bad causeAlign 0 ea.toNat 0
  else if ea.toNat / 2 ^ 55 ≠ 0 then .bad causeAccess 1 ea.toNat 0
  else match threadTrans e c t ea false with
    | .serve => .hold
    | .migrating => .hold
    | .fault cause sub i0 => .bad cause sub ea.toNat i0.toNat
    | .ok p _ dev =>
      if dev.isSome && !leaseGood e p then .words (remoteWords c t size)
      else match poisonAt e c p size with
        | some k => .bad causeUncorrectable k ea.toNat 0
        | none => .words ((List.range (size / 4)).map (fun j => BitVec.ofNat 32 (coreView e c (c.coreOf t) (p + 4 * j) 4)))

/-- Whether every access that the threads of a group made before the PLW.GO is performed (16 R364). -/
def Chip.streamMay (c : Chip) (g : Nat) : Bool :=
  (c.alive g).all (fun t => !c.earlier (c.leadOf t) (c.group g).plough.after (fun a => !a.performed && decide (a.op ≠ .ecall)))

/-- The plough of a group delivers the next element of a stream to every present, non-exited lane, in lockstep. -/
def ploughRead (e : State) (c : Chip) (g n : Nat) : Chip :=
  let p := (c.group g).plough
  let s := Sparse.get {} p.capStreams n
  let lanes := c.alive g
  let pos := Sparse.get 0 p.next n
  let ready := p.active n && !p.heldOn.getLsbD n && c.streamMay g &&
    lanes.all (fun t => (p.lane n (laneOf t)).room (s.bytes / 4))
  let d := lanes.foldl (fun c t => elementTouch e c s.kind s.bytes t (p.address n (laneOf t) pos)) c
  let els := lanes.map (fun t => (t, readElement e d t (p.address n (laneOf t) pos) s.bytes))
  if !ready || els.any (fun x => match x.2 with | .hold => true | _ => false) then c
  else
    let c := { d with free := d.free + 128 }
    let bad := els.any (fun x => match x.2 with | .bad .. => true | _ => false)
    c.onPlough g (fun p =>
      let p := els.foldl (fun p x =>
        let f := p.lane n (laneOf x.1)
        match x.2 with
        | .words ws => p.setLane n (laneOf x.1) { f with entries := f.entries ++ ws }
        | .bad cause sub addr i0 => p.setLane n (laneOf x.1) { f with fault := some (cause, sub, addr, i0), told := false }
        | .hold => p) p
      let bit : BitVec 4 := BitVec.ofNat 4 (2 ^ n)
      let p := { p with
        next := Sparse.set p.next n (pos + 1)
        done := if p.elements n ≤ pos + 1 then p.done ||| bit else p.done
        heldOn := if bad then p.heldOn ||| bit else p.heldOn }
      p.settle)

end Sys2Proof.Machine
end

