-- ==== Sys2Proof/Machine/Image.lean ====
section
/-! DEFINITION. The save image of a context (18 R398 to R402): thread, group and team records, the sections, the header and
the directory, as bytes. -/

namespace Sys2Proof.Machine

/-- Bits of a function packed into bytes, bit 0 lowest. -/
def packBits (n : Nat) (f : Nat → Bool) : List (BitVec 8) :=
  (List.range (n / 8)).map (fun i => BitVec.ofNat 8 ((List.range 8).foldl (fun a j => if f (8 * i + j) then a + 2 ^ j else a) 0))

/-- Nibbles packed into bytes, low nibble first. -/
def packNibbles (n : Nat) (f : Nat → Nat) : List (BitVec 8) :=
  (List.range (n / 2)).map (fun i => BitVec.ofNat 8 (f (2 * i) % 16 + 16 * (f (2 * i + 1) % 16)))

/-- The groups of a team as section 0 orders them: launched groups by GROUPIX, then spawned groups in launch order. -/
def Chip.recordGroups (c : Chip) (team : Nat) : List Nat :=
  let gs := c.groupsOf team
  sortBy (fun g => (c.group g).ix.toNat) (gs.filter (fun g => !(c.group g).spawned)) ++
    sortBy (fun g => (c.group g).order) (gs.filter (fun g => (c.group g).spawned))

/-- A thread as it is saved: a stencil routine in it is abandoned, the thread standing at the emulated word (22 R471). -/
def Thread.abandon (t : Thread) : Thread :=
  if t.level = .firmware then { t with pc := t.emu.pc, level := (levelOf (fieldNat t.emu.ctl.toNat 0 2)).getD .user, emu := {} } else t

/-! The pending section. -/

/-- A pending register as it is recorded: group position, thread, first register, what it waits for. -/
structure Pend where
  g : Nat
  t : Nat
  reg : Nat
  of : PendRef

/-- The pending entries of a team (R399): one for each reference a thread's registers wait for, in register order, and its
FHANDLE. -/
def Chip.pends (c : Chip) (gs : List Nat) : List Pend :=
  (List.range gs.length).flatMap (fun i =>
    ((List.range 32).map (fun l => 32 * gs.getD i 0 + l)).flatMap (fun t =>
      let th := c.thread t
      let rs := th.regs.filterMap (fun p => p.2.wait.map (fun w => (p.1, w)))
      let regs := rs.filterMap (fun p => if rs.any (fun q => decide (q.2 = p.2) && decide (q.1 < p.1)) then none else some (Pend.mk i t p.1 p.2))
      let fh := match th.fhandle.wait with
        | some w => [Pend.mk i t 0 w]
        | none => []
      if th.present then regs ++ fh else []))

/-- The place of a reference in the pending section. -/
def pendIndex (ps : List Pend) (t : Nat) (w : PendRef) : Nat := ps.findIdx (fun p => decide (p.t = t) && decide (p.of = w))

/-- The place of an identifier in a list. -/
def placeOf (l : List Nat) (x : Nat) : Nat := l.findIdx (· == x)

/-- The size code of a load (03 R48). -/
def Access.sizeCode (a : Access) : Nat :=
  if a.op = .tile then 4
  else if a.size = 1 then (if a.signed then 1 else 0)
  else if a.size = 2 then (if a.signed then 3 else 2)
  else if a.size = 8 then 5 else if a.size = 16 then 6 else 4

/-- One pending entry (R401). `press` and `copies` list what sections 3 and 4 hold. -/
def Chip.pendBytes (c : Chip) (press copies : List Nat) (p : Pend) : List (BitVec 8) :=
  let head := fun (kind n b5 tag b7 : Nat) => leBytes 1 kind ++ leBytes 1 p.g ++ leBytes 1 (laneOf p.t) ++ leBytes 1 p.reg ++
    leBytes 1 n ++ leBytes 1 b5 ++ leBytes 1 tag ++ leBytes 1 b7
  let object := fun (k ix : Nat) (at_ : Nat) => head 3 1 0 tagHandle.toNat k ++ leBytes 8 at_ ++ leBytes 4 ix ++ zeros 12
  match p.of with
  | .access id => match Sparse.find? c.accesses id with
    | none => zeros 32
    | some a =>
      if a.op = .load ∨ a.op = .tile then
        let ty := match a.loc with
          | some (_, sp) => sp + 4 + (if a.op = .tile then 8 else 0)
          | none => a.kind.toNat
        head 1 a.count ty a.tag.toNat a.sizeCode ++ leBytes 8 a.va ++ zeros 16
      else head 2 a.count (if a.performed then 1 else 0) a.tag.toNat 0 ++ leBytes 8 (if a.performed then a.result.toNat else 0) ++ zeros 16
  | .handle id => match (Sparse.find? c.handles id).map (fun (h : Handle) => h.of) with
    | none => zeros 32
    | some (.press q) => object 1 (placeOf press q) 0
    | some (.batch b) => object 2 (placeOf copies b) 0
    | some (.launch _ record) => object 3 0 record
    | some (.page _ va) => object 4 0 va
    | some (.publication q _) => object 5 (placeOf press q) 0

/-! The sections. -/

/-- A thread record (R400). -/
def Chip.threadBytes (c : Chip) (ps : List Pend) (copies : List Nat) (t : Nat) : List (BitVec 8) :=
  let th := (c.thread t).abandon
  let flags := (if th.present then 1 else 0) + (if th.place = .exited then 2 else 0) + (if th.cont then 4 else 0) +
    (match th.place with | .waiting _ => 8 | .saved true => 8 | _ => 0) + (if (c.group (groupOf t)).spawned then 16 else 0)
  let batch := fun (l : Nat) => match Sparse.find? th.openBatch l with
    | some b => placeOf copies b
    | none => 0xFFFF
  let fh := match th.fhandle.wait with
    | some w => pendIndex ps t w
    | none => th.fhandle.bits.toNat
  if !th.present then zeros 128
  else
    leBytes 8 th.pc.toNat ++ leBytes 1 th.level.code ++ leBytes 1 flags ++ leBytes 2 th.paused ++ leBytes 1 th.preds.toNat ++
      leBytes 3 (c.loads t * 2 ^ 18 + c.stores t * 2 ^ 12 + c.copies t * 2 ^ 6 + c.tiles t) ++ leBytes 8 th.fpc.toNat ++
      leBytes 4 fh ++ leBytes 2 (batch 0) ++ leBytes 2 (batch 1) ++
      leBytes 8 th.trap.pc.toNat ++ leBytes 4 th.trap.cause.toNat ++ leBytes 4 th.trap.info0.toNat ++ leBytes 4 th.trap.info1.toNat ++
      leBytes 4 th.trap.info2.toNat ++ leBytes 4 th.trap.info3.toNat ++ zeros 4 ++
      leBytes 8 ((th.watch.armed.map (·.1.toNat)).getD 0) ++ zeros 56

/-- The loop indices of a position of a stream. -/
def Plough.indices (p : Plough) (n pos : Nat) : List Nat :=
  let cnt := fun l => (Sparse.get [] p.capCounts n).getD l 1
  [pos % cnt 0, pos / cnt 0 % cnt 1, pos / cnt 0 / cnt 1 % cnt 2, pos / cnt 0 / cnt 1 / cnt 2]

/-- A plough record (R402). A faulted entry has no data: its 4 bytes are zero (log entry 149). -/
def Plough.bytes (p : Plough) : List (BitVec 8) :=
  leBytes 4 p.statusWord.toNat ++ zeros 12 ++ p.counts.flatMap (leBytes 4) ++
  (List.range 4).flatMap (fun n =>
    let s := Sparse.get {} p.streams n
    leBytes 4 ((if (Sparse.find? p.streams n).isSome then 1 else 0) + 2 * s.size + 8 * s.kind.toNat) ++ s.strides.flatMap (fun w => leBytes 4 w.toNat) ++
      (p.indices n (Sparse.get 0 p.next n)).flatMap (leBytes 4) ++ zeros 28) ++
  (List.range 128).flatMap (fun i => leBytes 8 (Sparse.get 0 p.bases i).toNat) ++
  (List.range 128).flatMap (fun i =>
    let f := Sparse.get {} p.furrows i
    leBytes 4 (match f.fault with
      | some (cause, sub, _, _) => f.entries.length + 1 + 128 + 256 * cause + 65536 * sub
      | none => f.entries.length)) ++
  (List.range 128).flatMap (fun i => leBytes 8 (match (Sparse.get {} p.furrows i).fault with | some (_, _, addr, _) => addr | none => 0)) ++
  (List.range 128).flatMap (fun i => let f := Sparse.get {} p.furrows i
    f.entries.flatMap (fun w => leBytes 4 w.toNat) ++ (if f.fault.isSome then zeros 4 else []))

/-- A group of section 0 (R399): masks, thread records, registers, tags, pending bits, plough record. -/
def Chip.groupBytes (c : Chip) (ps : List Pend) (copies : List Nat) (regs g : Nat) : List (BitVec 8) :=
  let reg := fun (i : Nat) => c.reg (32 * g + i / regs) (i % regs)
  (List.range 16).flatMap (fun k => leBytes 4 (c.mask g k).toNat) ++
  (List.range 32).flatMap (fun l => c.threadBytes ps copies (32 * g + l)) ++
  (List.range (32 * regs)).flatMap (fun i => leBytes 4 (match (reg i).wait with
    | some w => pendIndex ps (32 * g + i / regs) w
    | none => (reg i).bits.toNat)) ++
  packNibbles (32 * regs) (fun i => (reg i).tag.toNat) ++
  packBits (32 * regs) (fun i => (reg i).wait.isSome) ++
  (c.group g).plough.bytes

/-- The barriers of a team (section 2). -/
def Chip.barrierBytes (c : Chip) (team : Nat) (gs : List Nat) : List (BitVec 8) :=
  let k := c.team team
  let spawned := gs.filter (fun g => (c.group g).spawned)
  (List.range k.barriers).flatMap (fun n =>
    let b := Sparse.get {} k.bars n
    let waits := fun t => match (c.thread t).waitsOn with
      | some { kind := .barrier m _, arrived := true, .. } => decide (m = n)
      | _ => false
    let here := b.arrived.filter (fun t => !waits t)
    leBytes 4 b.phase.toNat ++ leBytes 2 b.count ++ leBytes 2 (match b.pend with | some p => p + 32768 | none => 0) ++
      packBits 1024 (fun i => here.any (fun t => !(c.group (groupOf t)).spawned && decide (c.tidOf t = i))) ++
      spawned.flatMap (fun g => packBits 32 (fun l => here.contains (32 * g + l))))

/-- Kind codes of press entries (R401). -/
def PressKind.code : PressKind → Nat
  | .issue => 1 | .zero => 2 | .free => 3 | .ld => 4 | .st => 5 | .scale => 6

/-- One record of the press section (R401). -/
def Chip.pressBytes (c : Chip) (gs : List Nat) (id : Nat) : List (BitVec 8) :=
  match Sparse.find? c.press id with
  | some q =>
    let popped := ((q.popped.map (fun p => p.2.length)).foldl max 0)
    let isIssue := decide (q.kind = .issue)
    let extra := if isIssue && decide (blkAsrc q.block = 1) then
        (List.range popped).flatMap (fun j => (List.range 32).flatMap (fun h => leBytes 4 ((Sparse.get [] q.popped h).getD j 0).toNat))
      else []
    leBytes 1 q.kind.code ++ leBytes 1 (placeOf gs q.group) ++ leBytes 1 q.level.code ++ leBytes 1 q.lane ++ leBytes 4 extra.length ++
      (if isIssue then leBytes 64 q.block.toNat
       else leBytes 2 q.plate ++ leBytes 1 (if q.int then 1 else 0) ++ zeros 5 ++ leBytes 8 q.addr ++ leBytes 4 q.scale.toNat ++ zeros 44) ++
      (List.range 4).flatMap (fun i => leBytes 1 (if isIssue then q.starts.getD i 0 else 0)) ++
      leBytes 4 (if isIssue then 0 else q.rows.toNat) ++ leBytes 4 (if extra.isEmpty then 0 else popped) ++ leBytes 4 0 ++ zeros 40 ++ extra
  | none => match Sparse.find? c.pubs id with
    | some p =>
      leBytes 1 7 ++ leBytes 1 (placeOf gs p.group) ++ leBytes 1 p.level.code ++ leBytes 1 0 ++ leBytes 4 1024 ++
        (leBytes 1 p.first ++ leBytes 1 p.count ++ zeros 2 ++ packBits 32 (fun l => p.lanes.contains l) ++ zeros 56) ++
        zeros 12 ++ leBytes 4 (if p.consumed then 1 else 0) ++ zeros 40 ++
        packNibbles 2048 (fun i => ((Sparse.get [] p.tags (i / 64)).getD (i % 64) 0).toNat)
    | none => []

/-- One batch of the copies section (R401). -/
def Chip.batchBytes (c : Chip) (gs : List Nat) (id : Nat) : List (BitVec 8) :=
  match Sparse.find? c.batches id with
  | none => []
  | some b =>
    let flags := (if b.committed.isSome then 1 else 0) + (if b.flag.isSome then 2 else 0) + (if b.cancel then 4 else 0)
    leBytes 4 b.elems.length ++ leBytes 1 b.level.code ++ leBytes 1 b.scope.toNat ++ leBytes 1 flags ++ leBytes 1 (laneOf b.th) ++
      leBytes 1 (placeOf gs (groupOf b.th)) ++ zeros 3 ++ leBytes 4 ((b.flag.map (·.1)).getD 0) ++
      leBytes 4 ((b.flag.map (·.2.toNat)).getD 0) ++ leBytes 4 (b.elems.filter (·.done)).length ++ zeros 8 ++
      b.elems.flatMap (fun x => leBytes 8 x.src.toNat ++ leBytes 8 x.dst.toNat ++ leBytes 1 x.kind.toNat ++
        leBytes 1 (if x.size = 4 then 0 else if x.size = 8 then 1 else 2) ++ leBytes 1 (if x.done then 1 else 0) ++ zeros 5)

/-- One spawn bin (R401). -/
def Bin.bytes (b : Bin) : List (BitVec 8) :=
  leBytes 8 b.entry.toNat ++ leBytes 1 b.args.length ++ leBytes 1 ((if b.awaiting then 1 else 0) + (if b.hurried then 2 else 0)) ++
    leBytes 2 b.timer ++ leBytes 1 ((b.args.head?.map (·.2.code)).getD 0) ++ zeros 3 ++
    (List.range 32).flatMap (fun j => leBytes 4 ((b.args[j]?.map (·.1.toNat)).getD 0)) ++ zeros 16

/-- A section that begins with the count of its records. -/
def listSection (records : List (List (BitVec 8))) : List (BitVec 8) := leBytes 4 records.length ++ records.flatten

/-- The spawn bins of a team: on its core, or kept while it is saved. -/
def Chip.binsOf (c : Chip) (team : Nat) : List Bin :=
  match (c.team team).core with
  | some k => ((c.core k).bins.filter (fun p => decide (p.2.team = team))).map (·.2)
  | none => (c.team team).savedBins

/-- The batches of a team's groups as section 4 orders them: committed ones in commit order, then open ones. No open firmware
batch is ever saved (14 R302). -/
def Chip.copyRecords (c : Chip) (gs : List Nat) : List Nat :=
  let mine := c.batches.filter (fun p => gs.contains (groupOf p.2.th) && !(decide (p.2.level = .firmware) && p.2.committed.isNone))
  sortBy (fun id => ((Sparse.find? c.batches id).bind (·.committed)).getD 0) ((mine.filter (fun p => p.2.committed.isSome)).map (·.1)) ++
    (mine.filter (fun p => p.2.committed.isNone)).map (·.1)

/-- The seven sections of a team record. -/
def Chip.sections (c : Chip) (team : Nat) : List (List (BitVec 8)) :=
  let k := c.team team
  let gs := c.recordGroups team
  let press := sortBy id (Sparse.keysWhere (fun _ q => decide (q.team = team)) c.press ++ Sparse.keysWhere (fun _ p => gs.contains p.group) c.pubs)
  let copies := c.copyRecords gs
  let ps := c.pends gs
  [gs.flatMap (c.groupBytes ps copies k.regs),
   (Memory.bytes k.lmem 0 k.spad),
   c.barrierBytes team gs,
   listSection (press.map (c.pressBytes gs)),
   listSection (copies.map (c.batchBytes gs)),
   listSection ((c.binsOf team).map Bin.bytes),
   listSection (ps.map (c.pendBytes press copies))]

/-- CLPOS as SRD reads it (08 R180). -/
def Team.clpos (k : Team) : Nat := k.clx + 16 * k.cly

/-- STASH.MAP's descriptor word (11 R250). -/
def Stash.word (w : Stash) : Nat := w.first + 65536 * w.lines

/-- A team record that begins at an offset of the image (R399). -/
def Chip.teamRecord (c : Chip) (team at_ : Nat) : List (BitVec 8) :=
  let k := c.team team
  let ss := c.sections team
  let offs := (ss.foldl (fun (p : List Nat × Nat) s => (p.1 ++ [p.2], p.2 + s.length)) (([] : List Nat), at_ + 256)).1
  leBytes 4 k.threads ++ leBytes 1 k.regs ++ leBytes 1 k.barriers ++ leBytes 2 k.plates ++ leBytes 4 k.spad ++ leBytes 1 k.clpos ++
    leBytes 1 (c.recordGroups team).length ++ zeros 2 ++ leBytes 8 k.contvec.toNat ++ leBytes 4 k.timeout.toNat ++
    leBytes 4 (c.cluster k.cluster).phase.toNat ++ leBytes 8 k.cycle.toNat ++ leBytes 4 ((k.stash.map Stash.word).getD 0) ++ zeros 4 ++
    leBytes 8 ((k.stash.map (·.base)).getD 0) ++ leBytes 8 k.slotBase ++ offs.flatMap (leBytes 8) ++ zeros 136 ++ ss.flatten

/-- The dirty bytes of a context's lines in a core's L1, in whole lines (18 R422). -/
def Chip.dirtyBytes (c : Chip) (core ctx : Nat) : Nat :=
  128 * (Sparse.keysWhere (fun _ l => decide (l.dirty ≠ 0) && decide (l.ctx = ctx)) (c.core core).l1).length

/-- The teams of a context on a core. -/
def Chip.teamsOn (c : Chip) (core ctx : Nat) : List Nat := Sparse.keysWhere (fun _ t => decide (t.ctx = ctx) && decide (t.core = some core)) c.teams

/-- The cores that hold a team of a context. -/
def Chip.coresOf (c : Chip) (ctx : Nat) : List Nat := ((c.teams.filter (fun p => decide (p.2.ctx = ctx))).filterMap (fun p => p.2.core)).dedup

/-- The bytes a save would write for a context on one core (18 R422). -/
def Chip.costOn (c : Chip) (core ctx : Nat) : Nat :=
  ((c.teamsOn core ctx).map (fun t => (c.teamRecord t 0).length)).sum + c.dirtyBytes core ctx

/-- Bytes to KiB, rounded up. -/
def kib (n : Nat) : Nat := (n + 1023) / 1024

/-- CTXCOST. -/
def Chip.ctxCost (c : Chip) (ctx : Nat) : Nat := kib ((c.coresOf ctx).map (fun k => c.costOn k ctx)).sum

/-- CTXPLATE: 4,096 bytes for each plate the context owns on its cores. -/
def Chip.ctxPlate (c : Chip) (ctx : Nat) : Nat :=
  4 * (c.cores.map (fun k => (k.2.plates.filter (fun p => match p.2.owner with | some o => decide (o.ctx = ctx) | none => false)).length)).sum

/-- Core clock of a P-state in MHz (23 R478). -/
def pstateMHz (p : Nat) : Nat :=
  if p = 0 then 3000 else if p = 1 then 2700 else if p = 2 then 2400 else if p = 3 then 2000 else if p = 4 then 1500 else 1000

/-- The clock of a core, its die at its P-state. -/
def Chip.coreMHz (c : Chip) (core : Nat) : Nat := pstateMHz (c.die (core / Config.coresPerDie)).pstate

/-- A quotient in microseconds rounded up, at most 65,535. -/
def microseconds (num den : Nat) : Nat := min 65535 ((num + den - 1) / den)

/-- CTXTIME (18 R422): 4,096 core cycles at the slowest clock of an occupied core with the largest share at 38.4 GB/s, and with
the whole at 1.2 TB/s. -/
def Chip.ctxTime (c : Chip) (ctx : Nat) : Nat :=
  let ks := c.coresOf ctx
  let bytes := ks.map (fun k => c.costOn k ctx)
  let mhz := ks.foldl (fun m k => min m (c.coreMHz k)) 3000
  -- times in units of 1 / (mhz × 38400 × 1200000) µs
  let q := 4096 * 38400 * 1200000
  let hbm := q + bytes.foldl max 0 * mhz * 1200000
  let far := max hbm (q + bytes.sum * mhz * 38400)
  let den := mhz * 38400 * 1200000
  microseconds hbm den + 65536 * microseconds far den

/-! The header and the directory (R398). -/

/-- The status words a header holds: 0x100 to 0x17F, those per team or per thread zero, and the save-cost words zero, which are worked out when
they are read (R422; log entry 149). -/
def Ctx.swords (x : Ctx) : List (Nat × Nat) :=
  [(0x100, x.trapvec.toNat), (0x110, x.errqbase.toNat), (0x111, x.errqlen), (0x130, x.leaselen), (0x138, x.fairlim), (0x139, x.bintime),
   (0x140, x.qtbase.toNat), (0x141, x.qtlen), (0x160, x.ptbase.toNat), (0x161, x.holdlim), (0x162, (if x.drvcount then 1 else 0) + 256 * x.drvthresh),
   (0x163, x.pagelease), (0x164, x.drvqbase.toNat), (0x165, x.drvqtail.toNat), (0x166, x.drvqhead.toNat), (0x167, x.poolbase.toNat),
   (0x168, x.pooltail.toNat), (0x169, x.poolhead.toNat), (0x170, 0), (0x171, 0), (0x172, 0)]

/-- The launches an image lists: those of the saved teams and those not yet ended. -/
def Chip.imageLaunches (c : Chip) (ctx : Nat) : List Nat :=
  Sparse.keysWhere (fun _ l => decide (l.ctx = ctx) && decide (l.state ≠ .retired) && decide (l.state ≠ .killed)) c.launches

/-- A launch entry. -/
def Launch.bytes (l : Launch) : List (BitVec 8) :=
  leBytes 8 l.record ++ leBytes 8 l.entry.toNat ++ leBytes 8 l.kbank ++ leBytes 8 l.doneAddr ++
    leBytes 4 (l.gx * l.gy * l.gz - l.retired) ++ leBytes 4 l.gridPhase.toNat ++ zeros 24

/-- Where the spill region of a context's save area begins: the lowest slot reserved in it (R396). -/
def Chip.spillStart (c : Chip) (ctx : Nat) : Nat :=
  c.teams.foldl (fun m p => if p.2.ctx = ctx ∧ p.2.live = true ∧ p.2.plates ≠ 0 then min m p.2.slotBase else m) (c.ctx ctx).areaLen

/-- The bytes of an image: header, directory, launches and team records. `staged` marks one staged by a mark. -/
def Chip.imageBytes (c : Chip) (ctx floor : Nat) (teams : List Nat) (staged : Bool) : List (BitVec 8) :=
  let x := c.ctx ctx
  let ls := c.imageLaunches ctx
  let diroff := 2048
  let lnchoff := diroff + 32 * teams.length
  let first := lnchoff + 64 * ls.length
  let recs := teams.foldl (fun (p : List (Nat × List (BitVec 8)) × Nat) t =>
    let r := c.teamRecord t p.2
    (p.1 ++ [(p.2, r)], p.2 + r.length)) (([] : List (Nat × List (BitVec 8))), first)
  let spill := c.spillStart ctx
  let cls := if ls.any (fun l => (c.launch l).sbx) then 2 else 1
  leBytes 4 0x43544E53 ++ leBytes 2 1 ++ leBytes 2 (if staged then 1 else 0) ++ leBytes 8 floor ++ leBytes 8 recs.2 ++ leBytes 4 teams.length ++
    leBytes 4 ls.length ++ leBytes 8 diroff ++ leBytes 8 lnchoff ++ leBytes 8 spill ++ leBytes 2 cls ++ zeros 198 ++
    (List.range 128).flatMap (fun i => leBytes 8 (((x.swords.find? (fun p => decide (p.1 = 0x100 + i))).map (·.2)).getD 0)) ++ zeros 768 ++
    (teams.zip recs.1).flatMap (fun p =>
      let k := c.team p.1
      leBytes 4 k.x ++ leBytes 4 k.y ++ leBytes 4 k.z ++ leBytes 4 (placeOf ls k.launch) ++ leBytes 8 p.2.1 ++ leBytes 8 p.2.2.length) ++
    ls.flatMap (fun l => (c.launch l).bytes) ++ recs.1.flatMap (·.2)

end Sys2Proof.Machine
end

