-- ==== Sys2Proof/Machine/Contexts.lean ====
section
/-! DEFINITION. Requests to contexts and their states (18 R390 to R392), the save of teams (R396, R397), the vacate set of a
pre-emption (R405), the check of an image and the resume (R410 to R412). -/

namespace Sys2Proof.Machine

/-- Writing bytes by an agent of the device, words where it can. -/
def agentWriteBytes (e : State) : Chip → Nat → List (BitVec 8) → Chip
  | c, _, [] => c
  | c, p, b0 :: b1 :: b2 :: b3 :: rest =>
    agentWriteBytes e (agentWrite e c none p 4 (b0.toNat + 2 ^ 8 * b1.toNat + 2 ^ 16 * b2.toNat + 2 ^ 24 * b3.toNat)) (p + 4) rest
  | c, p, b :: rest => agentWriteBytes e (agentWrite e c none p 1 b.toNat) (p + 1) rest

/-- A core of the vacate set of a context's pre-emption. -/
def Ctx.vacates (x : Ctx) (core : Nat) : Bool := match x.preempt with | some p => p.vacate.getLsbD core | none => false

/-- Whether a team may execute: its context runs, and its core is not being vacated (18 R393, R406). -/
def Chip.mayRun (c : Chip) (team : Nat) : Bool :=
  let k := c.team team
  let x := c.ctx k.ctx
  match k.core with
  | none => false
  | some core => decide (x.state = .running) && !x.vacates core

/-! Quiescence (18 R394). -/

/-- An access that a stop waits for: everything but loads and tile reads that are not performed, which are replayed, prefetches, which may be
dropped, and operations that detach (R246, R433). A load that is performed takes its one value, so its registers are written before the
save (11 R251, 10 R226). -/
def Access.holdsStop (a : Access) : Bool :=
  match a.op with
  | .load => a.performed
  | .tile => a.performed
  | .fetch _ => false
  | .ecall => false
  | .rmw _ => decide (a.stage ≠ .remote)
  | _ => true

/-- A press entry under exact aliasing that has made its first target write runs to completion (15 R340). -/
def PressEntry.mustFinish (q : PressEntry) : Bool := decide (q.kind = .issue) && q.started && !q.ended && !q.acopy.isEmpty

/-- A team with copy elements in flight. -/
def Chip.inFlight (c : Chip) (team : Nat) : Bool :=
  c.batches.any (fun p => decide (c.teamOf p.2.th = team) && p.2.elems.any (fun x => x.sent && !x.done))

/-- The remap table of every core of some teams has an entry for each of them that needs one (14 R318; log entry 114). -/
def Chip.remapRoom (c : Chip) (teams : List Nat) : Bool :=
  c.cores.all (fun k => decide ((k.2.remap ++ teams.filter (fun t => decide ((c.team t).core = some k.1) && c.inFlight t)).dedup.length ≤ Config.remapEntries))

/-- A team whose present threads have all exited, with no spawned thread in a bin and no operation that a stop would hold: it
retires, and no stop saves it (07 R150, 18 R406). -/
def Chip.retiring (c : Chip) (team : Nat) : Bool :=
  (c.team team).live && (c.teamThreads team).isEmpty && (c.binsOf team).isEmpty && !(c.press.any (fun p => decide (p.2.team = team))) &&
    !(c.batches.any (fun p => decide (c.teamOf p.2.th = team) && p.2.elems.any (fun x => !x.sent && !x.done)))

/-- The teams of a list are quiescent: every access that holds a stop performed, no released thread still to commit, no aliased
operation in progress, no team that has only to retire, and room in the remap tables. -/
def Chip.quiescent (c : Chip) (teams : List Nat) : Bool :=
  let mine := fun t => teams.contains (c.teamOf t)
  !(c.accesses.any (fun p => mine p.2.th && p.2.holdsStop)) && !(c.granted.any mine) &&
    !(c.press.any (fun p => teams.contains p.2.team && p.2.mustFinish)) && !(teams.any c.retiring) && c.remapRoom teams

/-- The teams of a context that hold a core. -/
def Chip.placedTeams (c : Chip) (ctx : Nat) : List Nat := Sparse.keysWhere (fun _ t => decide (t.ctx = ctx) && t.core.isSome) c.teams

/-- The largest clock of the cores of some teams (12 R273). -/
def Chip.floorOf (c : Chip) (teams : List Nat) : Nat := teams.foldl (fun n t => match (c.team t).core with | some k => max n (c.core k).clk | none => n) 0

/-! The save (18 R397). -/

/-- A thread is saved: its arrival withdrawn, its watch out of the lookout, a stencil routine abandoned with its open batch (R395, 13 R294,
14 R302). -/
def Chip.saveThread (c : Chip) (t : Nat) : Chip :=
  let th := c.thread t
  if th.place = .exited then c
  else
    let atWait := match th.place with | .waiting _ => true | _ => false
    let c := match th.waitsOn with
      | some r => c.withdraw t r
      | none => c
    let watch := th.watch
    let c := (c.disarm t false).leave t (.saved atWait)
    let c := if th.level = .firmware then match Sparse.find? th.openBatch 2 with
        | some b => ({ c with batches := Sparse.erase c.batches b }).setThread t { c.thread t with openBatch := Sparse.erase th.openBatch 2 }
        | none => c
      else c
    c.setThread t { (c.thread t).abandon with watch := watch, grants := [], patched := none, held := none, yielding := none }

/-- The handles that a team's operations and registers name. -/
def Chip.handlesOfTeam (c : Chip) (team : Nat) : List Nat :=
  let gs := c.groupsOf team
  let mine := fun t => gs.contains (groupOf t)
  let regs := (c.threads.filter (fun p => mine p.1)).flatMap (fun p =>
    (p.2.fhandle :: p.2.regs.map (·.2)).filterMap (fun r => match r.wait with | some (.handle h) => some h | _ => none))
  let ops := Sparse.keysWhere (fun _ (h : Handle) => match h.of with
    | .batch b => (match Sparse.find? c.batches b with | some x => mine x.th | none => false)
    | .press q => (match Sparse.find? c.press q with | some x => decide (x.team = team) | none => false)
    | .publication q _ => (match Sparse.find? c.pubs q with | some x => gs.contains x.group | none => false)
    | _ => false) c.handles
  regs ++ ops

/-- A team is saved: its threads, its bins, its loads to replay, its place on its core; a remap entry where elements are in
flight (14 R318). Its handles leave its core's table. Its plates stay under their tags (15 R338). -/
def Chip.saveTeam (c : Chip) (team : Nat) : Chip :=
  match (c.team team).core with
  | none => c
  | some core =>
    let gs := c.groupsOf team
    let mine := fun t => gs.contains (groupOf t)
    let bins := c.binsOf team
    let hs := c.handlesOfTeam team
    let flight := c.batches.any (fun p => mine p.2.th && p.2.elems.any (fun x => x.sent && !x.done))
    let c := (Sparse.keysWhere (fun t (x : Thread) => mine t && x.present) c.threads).foldl Chip.saveThread c
    let replayed := fun (i : Nat) => match Sparse.find? c.accesses i with
      | some a => mine a.th && (match a.op with | .load => true | .tile => true | .fetch _ => true | _ => false)
      | none => false
    let c := { c with
      slices := Sparse.mapVals (fun _ (x : Slice) => { x with persistent := x.persistent.filter (fun i => !(replayed i)) }) c.slices
      home := Sparse.mapVals (fun _ (h : HomeLine) => { h with held := h.held.filter (fun i => !(replayed i)) }) c.home
      accesses := Sparse.mapVals (fun _ (a : Access) => if mine a.th && (decide (a.op = AccessOp.load) || decide (a.op = AccessOp.tile)) then { a with stage := .issued } else a)
        (Sparse.only (fun _ (a : Access) => !(mine a.th) || (match a.op with | .fetch _ => false | _ => true)) c.accesses)
      groups := Sparse.mapVals (fun g (x : Group) => if gs.contains g then { x with resident := false } else x) c.groups
      press := Sparse.mapVals (fun _ (q : PressEntry) => if q.team = team then { q with acopy := [] } else q) c.press
      handles := Sparse.mapVals (fun i (h : Handle) => if hs.contains i then { h with core := Config.cores } else h) c.handles }
    let k := c.core core
    let c := c.setCore core { k with
      bins := k.bins.filter (fun p => decide (p.2.team ≠ team)), remap := if flight then (k.remap ++ [team]).dedup else k.remap }
    c.setTeam team { c.team team with core := none, map := [], savedBins := bins }

/-- Threads that wait where a stop takes effect: their arrivals are withdrawn, and no thread yields any longer (18 R395, 13 R294). -/
def Chip.withdrawWaits (c : Chip) (teams : List Nat) : Chip :=
  (Sparse.keysWhere (fun t x => teams.contains (c.teamOf t) && x.present) c.threads).foldl (fun c t =>
    let c := match c.thread t with
      | { place := .waiting r, .. } => (c.withdraw t r).setThread t { (c.withdraw t r).thread t with place := .waiting { r with arrived := false } }
      | _ => c
    c.setThread t { c.thread t with yielding := none }) c

/-- Threads that waited when a stop took effect execute their waiting words again (18 R395). -/
def Chip.restartWaits (c : Chip) (teams : List Nat) : Chip :=
  let ts := Sparse.keysWhere (fun t x => teams.contains (c.teamOf t) && (match x.place with | .waiting _ => true | _ => false)) c.threads
  (ts.foldl (fun c t => c.setThread t { c.thread t with place := .saved false, grants := [] }) c).moveAll ts

/-- The release lists of some teams' cores drained, and the lines they own for a context written back (18 R397). -/
def flushTeams (e : State) (c : Chip) (ctx : Nat) (teams : List Nat) : Chip :=
  ((teams.filterMap (fun t => (c.team t).core)).dedup).foldl (fun c k =>
    let c := drainNow e c k
    (Sparse.keysWhere (fun _ (l : L1Line) => decide (l.ctx = ctx) && decide (l.owned ≠ 0)) (c.core k).l1).foldl
      (fun c ln => recallNow e c ln allWords) c) c

/-- The teams of a context that are saved. -/
def Chip.savedTeams (c : Chip) (ctx : Nat) : List Nat := Sparse.keysWhere (fun _ t => decide (t.ctx = ctx) && t.live && t.core.isNone) c.teams

/-- Whether an image of some teams ends before the spill region begins (18 R396). -/
def Chip.imageFits (c : Chip) (ctx : Nat) (teams : List Nat) : Bool :=
  decide ((c.imageBytes ctx 0 teams false).length ≤ c.spillStart ctx)

/-- Bytes at the start of a context's save area that are taken: its image, while a team is saved, and what a mark has staged behind it (18
R396, R417). -/
def Chip.imageEnd (c : Chip) (ctx : Nat) : Nat :=
  if (c.savedTeams ctx).isEmpty && !([CtxState.saved, CtxState.migrating, CtxState.resuming].contains (c.ctx ctx).state) then 0
  else (c.imageBytes ctx 0 (c.savedTeams ctx) false).length

/-- The bytes of the parts that a mark has staged and that do not stream yet. -/
def Ctx.stagedBytes (x : Ctx) : Nat :=
  ((x.ckpts.filter (fun k => decide (k.2.state = .staged))).map (fun k => (k.2.blocks.map (fun b => b.2.2.length)).sum)).sum

/-- The clock floor of a context (12 R273): that of the teams it stops, and what an image already holds. -/
def Chip.floorWith (c : Chip) (ctx : Nat) : Nat :=
  max (c.floorOf (c.placedTeams ctx)) (if (c.savedTeams ctx).isEmpty then 0 else (c.ctx ctx).floor)

/-- Writing the image of some teams. -/
def writeImage (e : State) (c : Chip) (ctx : Nat) (teams : List Nat) : Chip :=
  agentWriteBytes e c (c.ctx ctx).area (c.imageBytes ctx (c.ctx ctx).floor teams false)

/-- The image of a context's saved teams as it stands: what late replies and elements change in it (14 R318, 11 R246). -/
def refreshImage (e : State) (c : Chip) (ctx : Nat) : Chip := writeImage e c ctx (c.savedTeams ctx)

/-- The cluster of a team goes back to its launch, ahead of the clusters never placed (09 R194). -/
def Chip.reenter (c : Chip) (team : Nat) : Chip :=
  let k := c.team team
  let l := c.launch k.launch
  c.setLaunch k.launch { l with saved := (l.saved ++ [k.cluster]).dedup }

/-! Pre-emption (18 R405). -/

/-- The cores of a bit set. -/
def coresIn (b : BitVec 160) : List Nat := (List.range Config.cores).filter (fun k => b.getLsbD k)

/-- The bit set of a list of cores. -/
def coreSet (l : List Nat) : BitVec 160 := l.foldl (fun b k => b ||| BitVec.ofNat 160 (2 ^ k)) 0

/-- The vacate set: the cheapest cores that hold teams of the context, then every core of the clusters on them. -/
def Chip.vacateSet (c : Chip) (ctx n : Nat) : List Nat :=
  let ks := sortBy id (c.coresOf ctx)
  let chosen := if ks.length ≤ n then ks else (sortBy (fun k => c.costOn k ctx) ks).take n
  let clusters := (c.placedTeams ctx).filterMap (fun t => match (c.team t).core with
    | some k => if chosen.contains k then some (c.team t).cluster else none
    | none => none)
  let more := (c.placedTeams ctx).filterMap (fun t => if clusters.contains (c.team t).cluster then (c.team t).core else none)
  (chosen ++ more).dedup

/-! The check of an image (18 R411). -/

/-- Bytes of a group in section 0, its plough record from `p` on (R399, R402). -/
def groupLength (e : State) (c : Chip) (p regs : Nat) : Nat :=
  let fixed := 64 + 4096 + 128 * regs + 16 * regs + 4 * regs
  let entries := ((List.range 128).map (fun i => fieldNat (peek e c (p + fixed + 0x520 + 4 * i) 4) 0 7)).sum
  fixed + 0xB20 + 4 * entries

/-- Whether `n` bytes at a physical address are zero. -/
def zeroAt (e : State) (c : Chip) (p n : Nat) : Bool := (List.range n).all (fun i => decide (peek e c (p + i) 1 = 0))

/-- A reserved tag among `n` bytes of nibbles (04 R55). -/
def nibblesBad (e : State) (c : Chip) (p n : Nat) : Bool :=
  (List.range n).any (fun i =>
    let b := peek e c (p + i) 1
    decide (12 ≤ b % 16) || decide (12 ≤ b / 16))

/-- A reserved field that is not zero in a plough record (R402). -/
def ploughBad (e : State) (c : Chip) (p : Nat) : Bool :=
  !zeroAt e c (p + 4) 12 || (List.range 4).any (fun l => decide (peek e c (p + 0x13 + 4 * l) 1 ≠ 0)) ||
    (List.range 4).any (fun s => decide (32 ≤ peek e c (p + 0x20 + 64 * s) 4) || !zeroAt e c (p + 0x20 + 64 * s + 36) 28) ||
    (List.range 128).any (fun i => let w := peek e c (p + 0x520 + 4 * i) 4
      decide (2 ^ 24 ≤ w) || (!bitAt w 7 && !zeroAt e c (p + 0x720 + 8 * i) 8))

/-- A reserved field that is not zero, or a reserved tag, in a group record. -/
def groupBad (e : State) (c : Chip) (p regs : Nat) : Bool :=
  (List.range 32).any (fun l =>
    let t := p + 64 + 128 * l
    !zeroAt e c (t + 0x3C) 4 || !zeroAt e c (t + 0x48) 56 || decide (32 ≤ peek e c (t + 9) 1)) ||
    nibblesBad e c (p + 64 + 4096 + 128 * regs) (16 * regs) || ploughBad e c (p + 64 + 4096 + 148 * regs)

/-- Walking `n` groups of section 0. -/
def groupsBad (e : State) (c : Chip) (regs : Nat) : Nat → Nat → Bool
  | 0, _ => false
  | n + 1, p => groupBad e c p regs || groupsBad e c regs n (p + groupLength e c p regs)

/-! Sections 3 to 6 (R401). -/

/-- A record of the press section: a reserved field, or a reserved tag that a publication recorded. -/
def pressBad (e : State) (c : Chip) (p : Nat) : Bool :=
  let kind := peek e c p 1
  !zeroAt e c (p + 0x58) 40 ||
    (if kind = 7 then decide (peek e c (p + 3) 1 ≠ 0) || !zeroAt e c (p + 0xA) 2 || !zeroAt e c (p + 0x10) 56 || !zeroAt e c (p + 0x48) 12 ||
        decide (2 ≤ peek e c (p + 0x54) 4) || nibblesBad e c (p + 128) 1024
      else if kind = 1 then !zeroAt e c (p + 0x4C) 4 || !zeroAt e c (p + 0x54) 4 ||
        (decide (blkAsrc (BitVec.ofNat 512 (peek e c (p + 8) 64)) ≠ 1) && !zeroAt e c (p + 0x50) 4)
      else !zeroAt e c (p + 0xB) 5 || (decide (kind ≠ 4) && decide (kind ≠ 5) && !zeroAt e c (p + 0x10) 8) || (decide (kind ≠ 6) && !zeroAt e c (p + 0x18) 4) ||
        !zeroAt e c (p + 0x1C) 44 || !zeroAt e c (p + 0x48) 4 || (decide (kind = 3) && !zeroAt e c (p + 0x4C) 4) || !zeroAt e c (p + 0x50) 8)

/-- A batch of the copies section. -/
def batchBad (e : State) (c : Chip) (p : Nat) : Bool :=
  decide (8 ≤ peek e c (p + 6) 1) || !zeroAt e c (p + 9) 3 || !zeroAt e c (p + 0x18) 8 ||
    (List.range (peek e c p 4)).any (fun i => decide (2 ≤ peek e c (p + 32 + 24 * i + 0x12) 1) || !zeroAt e c (p + 32 + 24 * i + 0x13) 5)

/-- A spawn bin. -/
def binBad (e : State) (c : Chip) (p : Nat) : Bool := decide (4 ≤ peek e c (p + 9) 1) || !zeroAt e c (p + 0xD) 3 || !zeroAt e c (p + 0x90) 16

/-- A pending entry. -/
def pendBad (e : State) (c : Chip) (p : Nat) : Bool :=
  let kind := peek e c p 1
  let object := peek e c (p + 7) 1
  let indexed := decide (kind = 3) && (decide (object = 1) || decide (object = 2) || decide (object = 5))
  decide (12 ≤ peek e c (p + 6) 1) || !zeroAt e c (p + 0x14) 12 || (decide (kind = 2) && decide (object ≠ 0)) || (!indexed && !zeroAt e c (p + 0x10) 4) || decide ((if kind = 1 then 16 else if kind = 2 then 2 else 1) ≤ peek e c (p + 5) 1)

/-- Walking `n` records of a section, each as long as the next says. -/
def recordsBad (bad : Nat → Bool) (length : Nat → Nat) : Nat → Nat → Bool
  | 0, _ => false
  | n + 1, p => bad p || recordsBad bad length n (p + length p)

/-- The records of a section that begins at a physical address. -/
def sectionBad (e : State) (c : Chip) (p : Nat) (bad : Nat → Bool) (length : Nat → Nat) : Bool := recordsBad bad length (peek e c p 4) (p + 4)

/-- Sections 3 to 6 of a team record, their addresses as the team header gives them. -/
def sectionsBad (e : State) (c : Chip) (at_ : Nat → Nat) : Bool :=
  sectionBad e c (at_ 3) (pressBad e c) (fun p => 128 + peek e c (p + 4) 4) ||
    sectionBad e c (at_ 4) (batchBad e c) (fun p => 32 + 24 * peek e c p 4) ||
    sectionBad e c (at_ 5) (binBad e c) (fun _ => 160) || sectionBad e c (at_ 6) (pendBad e c) (fun _ => 32)

/-- The value of the FLOOR key: bit 1 says that the device runs SBX (08 R174). -/
def floorKey : Nat := ((Config.keys.find? (fun p => decide (p.1 = "FLOOR"))).map (·.2)).getD 0

/-- The reason an image is refused, if any. -/
def imageReason (e : State) (c : Chip) (ctx : Nat) : Option Nat :=
  let x := c.ctx ctx
  let b := x.area
  let rd := fun off n => peek e c (b + off) n
  let used := rd 0x10 8
  let teams := rd 0x18 4
  let launches := rd 0x1C 4
  let dir := fun i => rd 0x20 8 + 32 * i
  let recs := (List.range teams).map (fun i => (rd (dir i + 16) 8, rd (dir i + 24) 8))
  if rd 0 4 ≠ 0x43544E53 ∨ rd 4 2 ≠ 1 then some 1
  else if x.areaLen < used ∨ used < rd 0x20 8 + 32 * teams ∨ used < rd 0x28 8 + 64 * launches ∨ recs.any (fun r => decide (used < r.1 + r.2) || (List.range 7).any (fun k => decide (used < rd (r.1 + 0x40 + 8 * k) 8))) = true then some 2
  else if !zeroAt e c (b + 0x3A) 198 || !zeroAt e c (b + 0x500) 768 || decide (2 ≤ rd 6 2) || decide (2 ^ 48 ≤ rd 8 8) ||
      recs.any (fun r => !zeroAt e c (b + r.1 + 0xE) 2 || !zeroAt e c (b + r.1 + 0x2C) 4 || !zeroAt e c (b + r.1 + 0x78) 136 ||
        groupsBad e c (rd (r.1 + 4) 1) (rd (r.1 + 13) 1) (b + rd (r.1 + 0x40) 8) || sectionsBad e c (fun k => b + rd (r.1 + 0x40 + 8 * k) 8)) ||
      (List.range launches).any (fun i => !zeroAt e c (b + rd 0x28 8 + 64 * i + 0x28) 24) then some 3
  else if decide (rd 0x38 2 = 2) && !bitAt floorKey 1 then some 4
  else if recs.any (fun r => decide (1024 < rd r.1 4) || decide (128 < rd (r.1 + 4) 1) || decide (16 < rd (r.1 + 5) 1) || decide (384 < rd (r.1 + 6) 2) || decide (524288 < rd (r.1 + 8) 4) ||
      decide (4 * Config.regsPerCroft < 32 * rd (r.1 + 13) 1 * rd (r.1 + 4) 1)) then some 5
  else if (List.range launches).any (fun i =>
      let entry := rd (rd 0x28 8 + 64 * i + 8) 8
      !x.kernels.any (fun k => decide (k.entry.toNat = entry))) then some 6
  else none

/-! Checkpoints restored (18 R412, R421). -/

/-- The key of a mark's snapshot. -/
def markKey (ctx seq : Nat) : Nat := ctx * 2 ^ 32 + seq

/-- The pages the records from the newest full one up to a mark capture, by page address. -/
def Ctx.capturedPages (x : Ctx) : Nat → Nat → List Nat
  | 0, _ => []
  | n + 1, seq => match Sparse.find? x.ckpts seq with
    | none => []
    | some k => k.pages ++ (if k.full then [] else x.capturedPages n k.prev)

/-- The teams of a context, with all that is theirs, as another machine holds them; what is not the context's stands. -/
def Chip.withTeamsOf (c sh : Chip) (ctx : Nat) : Chip :=
  let ts := Sparse.keysWhere (fun _ t => decide (t.ctx = ctx)) sh.teams
  let gs := Sparse.keysWhere (fun _ g => ts.contains g.team) sh.groups
  let mine := fun t => gs.contains (groupOf t)
  let c := c.removeTeams (Sparse.keysWhere (fun _ t => decide (t.ctx = ctx)) c.teams)
  { c with
    threads := Sparse.union c.threads (Sparse.only (fun i _ => mine i) sh.threads)
    groups := Sparse.union c.groups (Sparse.only (fun i _ => gs.contains i) sh.groups)
    teams := Sparse.union c.teams (Sparse.only (fun i _ => ts.contains i) sh.teams)
    clusters := Sparse.union c.clusters (Sparse.only (fun _ q => q.teams.any (fun t => ts.contains t)) sh.clusters)
    launches := Sparse.union c.launches (Sparse.only (fun _ l => decide (l.ctx = ctx)) sh.launches)
    accesses := Sparse.union c.accesses (Sparse.only (fun _ a => mine a.th) sh.accesses)
    batches := Sparse.union c.batches (Sparse.mapVals (fun _ (b : Batch) => { b with elems := b.elems.map (fun x => if x.done then x else { x with sent := false }) })
      (Sparse.only (fun _ b => mine b.th) sh.batches))
    press := Sparse.union c.press (Sparse.only (fun _ q => ts.contains q.team) sh.press)
    pubs := Sparse.union c.pubs (Sparse.only (fun _ q => gs.contains q.group) sh.pubs)
    handles := Sparse.union c.handles (Sparse.only (fun i h => (Sparse.find? c.handles i).isNone && (match h.of with
      | .launch x _ => decide (x = ctx)
      | .page x _ => decide (x = ctx)
      | .batch b => (match Sparse.find? sh.batches b with | some x => mine x.th | none => false)
      | .press q => (match Sparse.find? sh.press q with | some x => ts.contains x.team | none => false)
      | .publication q _ => (match Sparse.find? sh.pubs q with | some x => gs.contains x.group | none => false))) sh.handles)
    nextId := max c.nextId sh.nextId }

/-- The frame of a page as a walk finds it. -/
def pageFrame (e : State) (c : Chip) (ctx va : Nat) : Option Nat :=
  match walk e c ctx va with
  | .leaf x _ 3 => some (Pte.frame x)
  | .leaf x _ _ => some (Pte.frame x + va % 2 ^ 29 / 65536 * 65536)
  | _ => none

/-- Writing a page of 64 KiB back as a snapshot holds it, be it a leaf or a part of one. -/
def restorePage (e : State) (sh : Chip) (shMem : Memory) (c : Chip) (ctx va : Nat) : Chip :=
  match pageFrame { e with mem := shMem } sh ctx va, pageFrame e c ctx va with
  | some x, some y => agentWriteBytes e c y ((List.range 65536).map (fun i => BitVec.ofNat 8 (peek { e with mem := shMem } sh (x + i) 1)))
  | _, _ => c

/-- A plate's slot contents: 4,096 bytes of elements and its header. -/
def Plate.bytes (p : Plate) : List (BitVec 8) :=
  (List.range 1024).flatMap (fun i => leBytes 4 (Sparse.get 0 p.elems i).toNat) ++ leBytes 64 p.header

/-- The contents of a team's entry at a level, on a core or in its slot. -/
def plateBytes (e : State) (c : Chip) (team n : Nat) (lvl : Level) : Option (List (BitVec 8)) :=
  match c.cores.findSome? (fun k => k.2.plates.findSome? (fun p => if p.2.owner = some (c.tagOf team n lvl) then some p.2 else none)) with
  | some p => some p.bytes
  | none =>
    if (c.team team).spilled.contains (spillKey lvl.code n) then
      some ((List.range 4160).map (fun i => BitVec.ofNat 8 (peek e c (c.spillAddr team lvl.code n + i) 1)))
    else none

/-- Rebuilding the image and memory as of a mark: the teams as the mark found them, saved, and every captured page. Plates the
context owns are disowned; every plate that the mark found, on a core or in its slot, stands in its slot (18 R412, R421). -/
def rebuild (e : State) (c : Chip) (ctx seq : Nat) : Chip :=
  match Sparse.find? e.marks (markKey ctx seq) with
  | none => c
  | some (sh, shMem) =>
    let old : State := { e with mem := shMem, now := sh }
    let plates := (Sparse.keysWhere (fun _ t => decide (t.ctx = ctx) && t.live) sh.teams).flatMap (fun t => (List.range (sh.team t).plates).flatMap (fun n =>
      [Level.user, Level.supervisor].filterMap (fun l => (plateBytes old sh t n l).map (fun b => (t, n, l, b)))))
    let sh' := (sh.placedTeams ctx).foldl Chip.saveTeam sh
    let c := (c.disown (fun o => decide (o.ctx = ctx))).withTeamsOf sh' ctx
    let c := c.setCtx ctx { c.ctx ctx with floor := sh.floorWith ctx }
    let c := plates.foldl (fun c p =>
      let c := agentWriteBytes e c (c.spillAddr p.1 p.2.2.1.code p.2.1) p.2.2.2
      let k := c.team p.1
      c.setTeam p.1 { k with spilled := (k.spilled ++ [spillKey p.2.2.1.code p.2.1]).dedup }) c
    let x := c.ctx ctx
    let c := (x.capturedPages (seq + 1) seq).dedup.foldl (fun c va => restorePage e sh shMem c ctx va) c
    refreshImage e c ctx

/-! Requests (18 R390 to R392, R410, R412). -/

/-- The result of a request. -/
def Ctx.result (x : Ctx) (res reason : Nat) : Ctx := { x with res := res, reason := reason, current := none }

/-- Spilling every plate a context owns on a core outside its allowed set (18 R410). -/
def spillOutside (e : State) (c : Chip) (ctx : Nat) (all : Bool) : Chip :=
  c.cores.foldl (fun c k =>
    if !all && (c.ctx ctx).allowed.getLsbD k.1 then c
    else k.2.plates.foldl (fun c p => match p.2.owner with
      | some o => if o.ctx = ctx then spillPlate e c k.1 p.1 else c
      | none => c) c) c

/-- A resume from the saved state (18 R410 to R412): the image as of a complete checkpoint where one is named, and its check. The context is
resuming until its saved teams are back in the steward. -/
def resumeSaved (e : State) (c : Chip) (ctx : Nat) (seq : Option Nat) : Chip :=
  let unknown : Bool := match seq with
    | some s => (match Sparse.find? (c.ctx ctx).ckpts s with | some k => decide (k.state ≠ .complete) | none => true)
    | none => false
  if unknown then c.setCtx ctx ((c.ctx ctx).result 2 2)
  else
    let c := match seq with
      | some s => rebuild e c ctx s
      | none => c
    match imageReason e c ctx with
    | some r => c.setCtx ctx ((c.ctx ctx).result 2 r)
    | none =>
      let c := spillOutside e c ctx false
      c.setCtx ctx { c.ctx ctx with state := .resuming, current := some (.resume seq) }

/-- Whether a context may be released: no launch pending, ready or running, and no team saved (18 R392). -/
def Chip.releasable (c : Chip) (ctx : Nat) : Bool :=
  !(c.launches.any (fun p => decide (p.2.ctx = ctx) && decide (p.2.state ≠ .retired) && decide (p.2.state ≠ .killed))) && (c.savedTeams ctx).isEmpty

/-- A pre-empt request takes effect: the vacate set leaves the allowed set (18 R405). -/
def startPreempt (c : Chip) (ctx n report : Nat) : Chip :=
  let v := coreSet (c.vacateSet ctx n)
  let x := c.ctx ctx
  c.setCtx ctx { x with
    allowed := x.allowed &&& ~~~v, current := some (.preempt n report)
    preempt := some { n := n, report := report, vacate := v, teams := (c.placedTeams ctx).filter (fun t => (c.team t).core.any (fun k => v.getLsbD k)) } }

/-- One request taken (18 R392). A request that no row of the state table takes has no effect. -/
def takeRequest (e : State) (c : Chip) (ctx : Nat) (r : Request) : Chip :=
  let x := c.ctx ctx
  let stop := fun (r : Request) => c.setCtx ctx { x with state := .stopping, current := some r }
  match r, x.state with
  | .stop, .running => stop .stop
  | .stop, .stopping => c.setCtx ctx (x.result 1 0)
  | .stop, .stopped => c.setCtx ctx (x.result 1 0)
  | .stop, .saving => c.setCtx ctx (x.result 1 0)
  | .stop, .saved => c.setCtx ctx (x.result 1 0)
  | .save, .running => stop .save
  | .save, .stopped => c.setCtx ctx { x with state := .saving, current := some .save }
  | .mark full, .running => stop (.mark full)
  | .resume none, .stopped => (c.setCtx ctx { x.result 1 0 with state := .running }).restartWaits (c.placedTeams ctx)
  | .resume seq, .saved => resumeSaved e c ctx seq
  | .preempt n report, .running => startPreempt c ctx n report
  | .move d, .saved => (spillOutside e c ctx true).setCtx ctx { x with state := .migrating, current := some (.move d) }
  | .release, .loaded => if c.releasable ctx then c.setCtx ctx { x.result x.res x.reason with state := .retired } else c
  | .release, .running => if c.releasable ctx then c.setCtx ctx { x.result x.res x.reason with state := .retired } else c
  | _, _ => c

/-- A mark waits while one checkpoint is staged behind another (18 R419). -/
def Ctx.staged (x : Ctx) : Bool := x.ckpts.any (fun k => decide (k.2.state = .staged))

/-- The requests that can be taken, in order of arrival; one in effect holds the rest (18 R391). -/
def serveRequests (e : State) : Nat → Chip → Nat → Chip
  | 0, c, _ => c
  | n + 1, c, ctx =>
    let x := c.ctx ctx
    match x.requests with
    | [] => c
    | r :: rest =>
      let waits := match r with | .mark _ => x.staged | _ => false
      if x.current.isSome || waits then c
      else serveRequests e n (takeRequest e (c.setCtx ctx { x with requests := rest }) ctx r) ctx

/-- Serving what waits. -/
def nextRequest (e : State) (c : Chip) (ctx : Nat) : Chip := serveRequests e ((c.ctx ctx).requests.length + 1) c ctx

/-- The saved teams of every resuming context go back to the steward, and the contexts run (18 R392, R410). -/
def finishResumes (e : State) (c : Chip) : Chip :=
  (Sparse.keysWhere (fun _ x => decide (x.state = .resuming)) c.ctxs).foldl (fun c ctx =>
    let c := (c.savedTeams ctx).foldl Chip.reenter c
    nextRequest e (c.setCtx ctx { (c.ctx ctx).result 1 0 with state := .running }) ctx) c

/-- Posting a request; a number that names no context, or one killed or retired, makes it have no effect (19 R431). -/
def postRequest (e : State) (c : Chip) (ctx : Nat) (r : Request) : Chip :=
  match Sparse.find? c.ctxs ctx with
  | none => c
  | some x =>
    if x.state = .killed ∨ x.state = .retired then c
    else nextRequest e (c.setCtx ctx { x with requests := x.requests ++ [r] }) ctx

end Sys2Proof.Machine
end

