-- ==== Sys2Proof/Machine/Control.lean ====
section
/-! DEFINITION. Transfer of control, exit, spawning and traps, majors 0x20 to 0x24, and pacing, clock and resume, major 0x25 (07
R144 to R155). -/

namespace Sys2Proof.Machine

/-! Positions in the open chain. -/

/-- The word at its place in the chain, as fetched. -/
def Issue.raw (iss : Issue) : Word :=
  match (iss.code.getD {}).words[iss.at_]? with
  | some w => w.raw
  | none => 0

/-- The address of the packet that holds the chain (03 R35). -/
def Issue.packet (iss : Issue) : Addr :=
  match (iss.code.getD {}).words[0]? with
  | some w => iss.pc - BitVec.ofNat 64 (4 * w.slot)
  | none => iss.pc

/-- The address of the word that follows the chain: the link value of R145. -/
def Issue.next (iss : Issue) : Addr := iss.pc + BitVec.ofNat 64 (4 * (iss.code.getD {}).len)

/-- Own packet + 12 × a signed packet offset (07 R146, R147). -/
def packetTarget (s : State) {n : Nat} (off : BitVec n) : Addr :=
  ((s.issue.map Issue.packet).getD 0) + BitVec.ofInt 64 (12 * off.toInt)

/-- Signed offset j of a branch unit: fields t0, t1, t0, t1 of its TGT words (07 R146). -/
def branchOffset (s : State) (j : Nat) : BitVec 12 :=
  match ((s.issue.bind (·.code)).getD {}).targets[j / 2]? with
  | some w => if j % 2 = 0 then w.extractLsb' 12 12 else w.extractLsb' 0 12
  | none => 0

/-! BRM and TGT. -/

/-- The first pair of a header that holds in a thread (07 R146). -/
def branchTaken (c : Chip) (t : Nat) (n : BitVec 2) (qs : List (BitVec 4)) : Option Nat :=
  (List.range (n.toNat + 1)).find? (fun j =>
    let q := (qs[j]?).getD 0
    xor (c.p t (q.extractLsb' 0 3).toNat) (q.getLsbD 3))

/-- BRM (07 R146): the default trap is a failure of the word, taken with TRAPINFO0 = 0x80. -/
def execBrm (u : Bool) (n f : BitVec 2) (w x y z : BitVec 4) (s : State) : Host.Outcome State Fault Refusal :=
  let taken := fun (e : State) t => branchTaken e.now t n [w, x, y, z]
  let check : Check := fun e t slot =>
    if taken e t = none ∧ f = 2 then some (.trap causeTrap 0x80 (BitVec.ofNat 32 slot) 0 0) else none
  runJump (.brm u n f w x y z) check (fun _ _ _ c => c) (fun e all t =>
    match taken e (if u then all.headD t else t) with
    | some j => some (.to (packetTarget e (branchOffset e j)))
    | none => if f = 1 then some .exit else none) s

/-- TGT reached in another position than behind its header: CHAIN_FAULT subcode 5 (03 R489, 07 R146). -/
def execTgt (g h : BitVec 12) (s : State) : Host.Outcome State Fault Refusal :=
  let check : Check := fun e _ slot => some (.trap causeChain ((e.issue.map Issue.raw).getD 0) (BitVec.ofNat 32 (slot + 16 * 5)) 0 0)
  runWord (.tgt g h) check (fun _ _ _ c => c) s

/-! JMP, CALL, JMPR, CALLR, RET, EXIT. -/

/-- JMP (07 R147). -/
def execJmp (u : Bool) (imm : BitVec 17) (s : State) : Host.Outcome State Fault Refusal :=
  runJump (.jmp u imm) noCheck (fun _ _ _ c => c) (fun e _ _ => some (.to (packetTarget e imm))) s

/-- Writing the link value to a pair (07 R145). -/
def link (u : Bool) (d : BitVec 6) : Act :=
  fun e all live c => perThread u (fun _ _ t c => c.writeVV t (2 * d.toNat) ((e.issue.map Issue.next).getD 0) tagCode) e all live c

/-- CALL (07 R145, R147). -/
def execCall (u : Bool) (d : BitVec 6) (imm : BitVec 17) (s : State) : Host.Outcome State Fault Refusal :=
  runJump (.call u d imm) noCheck (link u d) (fun e _ _ => some (.to (packetTarget e imm))) s

/-- The check of an indirect target (07 R144): TRAPINFO2 and TRAPINFO3 hold the target. A target whose chain cannot be read yet holds the
transfer, as the fetch of that page is held (17 R372). -/
def targetCheck (target : Chip → Nat → Addr) : Check := fun e t slot =>
  let pc := target e.now t
  match badTarget e e.now (e.now.coreOf t) (e.now.ctxOf t) (e.now.thread t).level pc with
  | some k => some (.trap causeChain ((e.issue.map Issue.raw).getD 0) (BitVec.ofNat 32 (slot + 16 * k)) (pc.extractLsb' 0 32) (pc.extractLsb' 32 32))
  | none => (targetHeld e e.now (e.now.coreOf t) (e.now.ctxOf t) (e.now.thread t).level pc).map Verdict.hold

/-- JMPR (07 R148). -/
def execJmpr (a : BitVec 6) (s : State) : Host.Outcome State Fault Refusal :=
  let pc := fun (c : Chip) t => c.vv t (2 * a.toNat)
  runJump (.jmpr a) (targetCheck pc) (fun _ _ _ c => c) (fun e _ t => some (.to (pc e.now t))) s

/-- CALLR (07 R145, R148): the target is the old value of its pair. -/
def execCallr (d a : BitVec 6) (s : State) : Host.Outcome State Fault Refusal :=
  let pc := fun (c : Chip) t => c.vv t (2 * a.toNat)
  runJump (.callr d a) (targetCheck pc) (link false d) (fun e _ t => some (.to (pc e.now t))) s

/-- RET (07 R148). -/
def execRet (a : BitVec 6) (s : State) : Host.Outcome State Fault Refusal :=
  let pc := fun (c : Chip) t => c.vv t (2 * a.toNat)
  runJump (.ret a) (targetCheck pc) (fun _ _ _ c => c) (fun e _ t => some (.to (pc e.now t))) s

/-- EXIT (07 R149). -/
def execExit (s : State) : Host.Outcome State Fault Refusal :=
  runJump .exit noCheck (fun _ _ _ c => c) (fun _ _ _ => some .exit) s

/-! Spawning (07 R151, R152). -/

/-- An open bin of a key: not closed, its timer not ended, fewer than 32 threads. -/
def Bin.opens (b : Bin) (team : Nat) (entry : Addr) : Bool :=
  decide (b.team = team) && decide (b.entry = entry) && !b.closed && decide (b.timer ≠ 0) && !b.awaiting && decide (b.args.length < 32)

/-- SPAWN and SPAWNF in one thread: placing its argument in a bin of its core, or status 1 or 2. In protected mode one placement
makes a pair of lanes. The placement is a release at core scope (10 R220). -/
def spawnOne (fast : Bool) (entry : Nat → Addr) (arg : Nat → Word) (d : Nat) (e : State) (t : Nat) (takers : List Nat) (c : Chip) : Chip :=
  let status := fun (c : Chip) (v : Word) => takers.foldl (fun c x => c.writeV x d v tagInt) c
  let a := entry t
  if a.toNat % 4 ≠ 0 ∨ a.toNat / 2 ^ 55 ≠ 0 then status c 1
  else
    let k := c.coreOf t
    let team := c.teamOf t
    let time := (c.ctx (c.ctxOf t)).bintime
    let bins := (c.core k).bins
    let spot := match List.find? (fun (p : Nat × Bin) => p.2.opens team a) bins with
      | some p => some p
      | none => ((List.range Config.bins).find? (fun i => (Sparse.find? bins i).isNone)).map
          (fun i => (i, { team := team, entry := a, timer := time, closed := decide (time = 0) }))
    match spot with
    | none => status c 2
    | some (i, b) =>
      let mine := (arg t, (c.thread t).level)
      let args := b.args ++ (if c.guarded t then [mine, mine] else [mine])
      let c := c.setCore k { c.core k with bins := Sparse.set bins i { b with args := args, closed := b.closed || fast || decide (32 ≤ args.length), hurried := b.hurried || fast } }
      status (releaseLines e c k [t] c.nextId) 0

/-- SPAWN (07 R151). -/
def execSpawn (c : Bool) (d : BitVec 7) (a : BitVec 6) (b : BitVec 7) (s : State) : Host.Outcome State Fault Refusal :=
  runWord (.spawn c d a b) noCheck (once false (fun e t takers c =>
    spawnOne false (fun x => e.now.vv x (2 * a.toNat)) (fun x => e.now.v x b.toNat) d.toNat e t takers c)) s

/-- SPAWNF (07 R152). -/
def execSpawnf (c : Bool) (d : BitVec 7) (a : BitVec 6) (b : BitVec 7) (s : State) : Host.Outcome State Fault Refusal :=
  runWord (.spawnf c d a b) noCheck (once false (fun e t takers c =>
    spawnOne true (fun x => e.now.vv x (2 * a.toNat)) (fun x => e.now.v x b.toNat) d.toNat e t takers c)) s

/-! TRAP and BKPT (07 R154). -/

/-- TRAP: the chain commits, then the trap is entered. -/
def execTrap (c : Bool) (b : BitVec 7) (s : State) : Host.Outcome State Fault Refusal :=
  runJump (.trap c b) noCheck (fun _ _ _ c => c) (fun e _ _ =>
    some (.trapNext (b.setWidth 32) (BitVec.ofNat 32 ((e.issue.map Issue.slot).getD 0)) 0 0)) s

/-- BKPT: a failure of the word. -/
def execBkpt (c : Bool) (s : State) : Host.Outcome State Fault Refusal :=
  runWord (.bkpt c) (fun _ _ slot => some (trapAt slot causeBreak 0 0 0)) (fun _ _ _ c => c) s

/-! Major 0x25 (07 R155). -/

/-- NOP. -/
def execNop (c : Bool) (s : State) : Host.Outcome State Fault Refusal :=
  runWord (.nop c) noCheck (fun _ _ _ c => c) s

/-- PAUSE. -/
def execPause (c : Bool) (a : BitVec 7) (s : State) : Host.Outcome State Fault Refusal :=
  runWord (.pause c a) noCheck (perThread false (fun pre l t c =>
    c.setThread t { c.thread t with paused := min (pre.v l a.toNat).toNat 65535 })) s

/-- Whether a pen holds a ready thread that is neither paused nor yielding (07 R141). -/
def penQualifies (e : State) (croft pen : Nat) : Bool :=
  match (Sparse.find? (e.now.croft croft).pens pen).bind (·.code) with
  | none => false
  | some f => (e.now.penThreads croft pen).any (fun t =>
      threadReady e t f && decide ((e.now.thread t).paused = 0) && (e.now.thread t).yielding.isNone)

/-- YIELD: until the other pens that could issue have issued once, or FAIRLIM core cycles. -/
def execYield (c : Bool) (s : State) : Host.Outcome State Fault Refusal :=
  runWord (.yield c) noCheck (fun e _ live c => live.foldl (fun c t =>
    let k := c.croftOf t
    let others := ((e.now.croft k).pens.map (·.1)).filter (fun p => decide (e.now.penOfThread t ≠ some p) && penQualifies e k p)
    c.setThread t { c.thread t with
      yielding := if others.isEmpty then none else some (others, (c.ctx (c.ctxOf t)).fairlim) }) c) s

/-- FFENCE: the croft's decoded words of the context are discarded. -/
def execFfence (c : Bool) (s : State) : Host.Outcome State Fault Refusal :=
  runWord (.ffence c) noCheck (fun _ _ live c => live.foldl (fun c t =>
    let k := c.croftOf t
    let f := c.croft k
    c.setCroft k { f with pens := Sparse.mapVals (fun _ p => if p.ctx = c.ctxOf t then { p with code := none } else p) f.pens }) c) s

/-- CLKRD. -/
def execClkrd (c : Bool) (d : BitVec 6) (s : State) : Host.Outcome State Fault Refusal :=
  runWord (.clkrd c d) noCheck (perThread false (fun pre l t c =>
    c.writeVV t (2 * d.toNat) (BitVec.ofNat 64 (pre.core (pre.coreOf l)).clk) tagInt)) s

/-- RENEW: a fetch of the line under lease, where its address translates; of another device's page, under a page lease that holds (17 R382). -/
def execRenew (c : Bool) (a : BitVec 6) (s : State) : Host.Outcome State Fault Refusal :=
  runWord (.renew c a) noCheck (once false (fun e t _ c =>
    let ea := (e.now.vv t (2 * a.toNat)).toNat
    if ea / 2 ^ 55 ≠ 0 then c
    else match translate e c (c.coreOf t) (c.ctxOf t) (c.thread t).level ea .read with
      | .ok p false dev => if dev.isSome && !leaseGood e p then c else
        let (id, c) := (touch e c (c.coreOf t) (c.ctxOf t) ea false).fresh
        c.setAccess id { th := t, core := c.coreOf t, ctx := c.ctxOf t, op := .fetch 0, va := ea, phys := p / 128 * 128, size := 128
                         clk := (c.core (c.coreOf t)).clk }
      | _ => c)) s

/-- RESUME: legal only in continuation; it goes on at FPC. -/
def execResume (c : Bool) (s : State) : Host.Outcome State Fault Refusal :=
  let check : Check := fun e t slot =>
    if !(e.now.thread t).cont then some (trapAt slot causeHandle 2 0 0) else targetCheck (fun c x => (c.thread x).fpc) e t slot
  runJump (.resume c) check (fun _ _ _ c => c) (fun e _ t => some (.resume (e.now.thread t).fpc)) s

end Sys2Proof.Machine
end

