-- ==== Sys2Proof/Machine/Gleaner.lean ====
section
/-! DEFINITION. The gleaner's core cycle (07 R135, R141, R155), spawn bins (R151 to R153), ticks and the rebase sweep (02 R28,
12 R271). -/

namespace Sys2Proof.Machine

/-- An event of the environment: it happens between chains, so with a chain open the state stands. -/
def event (f : State → Chip) (s : State) : Host.Outcome State Fault Refusal :=
  match s.issue with
  | some _ => .next s
  | none => .next { s with now := f s }

/-- An event that changes more than the machine's tables. -/
def eventS (f : State → State) (s : State) : Host.Outcome State Fault Refusal :=
  match s.issue with
  | some _ => .next s
  | none => .next (f s)

/-! Groups whose resources have returned (07 R149). -/

/-- Every lane of a group is exited or absent, and nothing its threads issued is outstanding. -/
def Chip.groupFree (c : Chip) (g : Nat) : Bool :=
  (c.alive g).isEmpty && (c.queue g).isEmpty &&
    !(c.batches.any (fun p => decide (groupOf p.2.th = g))) &&
    !(c.accesses.any (fun p => decide (groupOf p.2.th = g) && (p.2.writes || p.2.storing)))

/-- Taking the spent groups that were spawned off the tables. What their visible lanes have arrived at stays arrived; their shadows were never
counted (13 R288). -/
def Chip.freeGroups (c : Chip) : Chip :=
  let gone := Sparse.keysWhere (fun g x => x.spawned && c.groupFree g) c.groups
  { c with groups := Sparse.only (fun g _ => !gone.contains g) c.groups
           threads := Sparse.only (fun t _ => !gone.contains (groupOf t)) c.threads
           teams := Sparse.mapVals (fun _ (k : Team) => { k with bars := Sparse.mapVals (fun _ (b : Barrier) =>
             { b with arrived := b.arrived.filter (fun t => !gone.contains (groupOf t) || c.visible t) }) k.bars }) c.teams }

/-- Whether a croft can take a group with a count of registers (07 R151, 09 R195). -/
def Chip.croftRoom (c : Chip) (croft regs : Nat) : Bool :=
  let gs := Sparse.keysWhere (fun g x => x.resident && decide (x.croft = croft) && !c.groupFree g) c.groups
  decide (32 * gs.length + 32 ≤ Config.slotsPerCroft) &&
    decide ((gs.map (fun g => 32 * (c.team (c.group g).team).regs)).sum + 32 * regs ≤ Config.regsPerCroft)

/-! Held press entries (24 R486). -/

/-- The thread that a held entry stops: its issuer, or the lowest present thread of the group. -/
def Chip.heldThread (c : Chip) (q : PressEntry) : Option Nat :=
  let t := 32 * q.group + q.lane
  if c.active t then some t else (c.alive q.group).head?

/-- The first plate of an entry that is not valid for its level. -/
def Chip.badPlate (c : Chip) (q : PressEntry) : Option Nat := q.plates.find? (fun n => !c.plateValid q.team n q.level)

/-- The held entries checked before a thread issues. -/
def Chip.heldFor (c : Chip) (t : Nat) : List (Nat × PressEntry) :=
  c.press.filter (fun p => decide (p.2.held = some (c.thread t).pc) && decide (p.2.level = (c.thread t).level) && decide (c.heldThread p.2 = some t))

/-- A thread that stands at its restart PC: its entries are released where every plate is valid; the first plate that is not
gives the fault it takes. -/
def heldFault (c : Chip) (t : Nat) : Option (Nat × Nat) :=
  (c.heldFor t).findSome? (fun p => (c.badPlate p.2).map (fun n => (p.2.team, n)))

/-- The code base of a thread's region. -/
def Chip.slotAt (c : Chip) (t : Nat) : Nat :=
  match c.region? (c.ctxOf t) (c.thread t).pc.toNat with
  | some r => slotOf r.base (c.thread t).pc.toNat
  | none => 0

/-- Checking the entries a thread is held by: released, or PLATE_FAULT subcode 3. -/
def checkHeld (e : State) (c : Chip) (t : Nat) : Chip :=
  match heldFault c t with
  | none => (c.heldFor t).foldl (fun c p => c.setPress p.1 { p.2 with held := none }) c
  | some (team, n) =>
    let pc := (c.thread t).pc
    takeTrap e c t pc pc causePlate 0 (BitVec.ofNat 32 (c.slotAt t + 16 * 3)) (BitVec.ofNat 32 n) (c.plown team n)

/-! The choice of a pen (07 R141) and of threads (R135). -/

/-- The ready threads of a pen. -/
def readyIn (e : State) (croft : Nat) (i : Nat) (p : Pen) : List Nat :=
  match p.code with
  | none => []
  | some f => (e.now.penThreads croft i).filter (fun t =>
      e.now.mayRun (e.now.teamOf t) && (threadReady e t f || (heldFault e.now t).isSome) && (match (e.now.thread t).due with | some d => decide (d.since < 256) | none => true))

/-- Neither paused nor yielding. -/
def Chip.lively (c : Chip) (t : Nat) : Bool := decide ((c.thread t).paused = 0) && (c.thread t).yielding.isNone

/-- The entry of a list with the least key, the first among equals. DESIGN CHOICE (log entry 110): R141 states a tie to the
lower pen index for step 1 only; pens of steps 2 and 3 that issued equally recently, or never, tie to it too. -/
def leastBy (key : Nat × Pen → Nat) (l : List (Nat × Pen)) : Option (Nat × Pen) :=
  l.foldl (fun b x => match b with
    | none => some x
    | some y => if key x < key y then some x else b) none

/-- The pen chosen, and the threads that qualify in it. -/
def choosePen (e : State) (croft : Nat) : Option (Nat × List Nat) :=
  let pens := (e.now.croft croft).pens
  let lively := fun (x : Nat × Pen) => (readyIn e croft x.1 x.2).filter e.now.lively
  let one := leastBy (fun x => x.2.starved.getD 0) (pens.filter (fun x => x.2.starved.isSome && !(lively x).isEmpty))
  let two := leastBy (fun x => x.2.last) (pens.filter (fun x => !(lively x).isEmpty))
  match one.orElse (fun _ => two) with
  | some x => some (x.1, lively x)
  | none => (leastBy (fun x => x.2.last) (pens.filter (fun x => !(readyIn e croft x.1 x.2).isEmpty))).map
      (fun x => (x.1, readyIn e croft x.1 x.2))

/-- The thread of a list that issued least recently, the earlier resident group first. -/
def Chip.leastRecent (c : Chip) (l : List Nat) : Option Nat :=
  l.foldl (fun b t => match b with
    | none => some t
    | some u =>
      if (c.thread t).lastIssue < (c.thread u).lastIssue ∨
          ((c.thread t).lastIssue = (c.thread u).lastIssue ∧ (c.group (groupOf t)).order < (c.group (groupOf u)).order) then some t else b) none

/-- The threads of an issue group: at most one for each home lane; the lanes of a protected pair together (21 R456). -/
def Chip.pickLanes (c : Chip) (ts : List Nat) : List Nat :=
  (List.range 16).foldl (fun ms j =>
    let even := c.leastRecent (ts.filter (fun t => decide (laneOf t = 2 * j) && (!c.guarded t || ts.contains (t + 1))))
    let odd := match even with
      | some t => if c.guarded t then some (t + 1) else c.leastRecent (ts.filter (fun u => decide (laneOf u = 2 * j + 1) && !c.guarded u))
      | none => c.leastRecent (ts.filter (fun u => decide (laneOf u = 2 * j + 1) && !c.guarded u))
    ms ++ even.toList ++ odd.toList) []

/-- One core cycle of a croft beyond the issue: fairness, pauses and yields; on a core's first croft, the cycle counts of its
teams and the timers of its bins. What belongs to a team that may not execute stands (18 R395). -/
def countCycle (e : State) (c : Chip) (croft : Nat) (chosen : Option Nat) : Chip :=
  let f := c.croft croft
  let (stamp, c) := c.tickStamp
  let pens := Sparse.mapVals (fun i (p : Pen) =>
    if chosen = some i then { p with fair := 0, starved := none, last := stamp }
    else if ((readyIn e croft i p).filter e.now.lively).isEmpty then p
    else
      let lim := (c.ctx p.ctx).fairlim
      { p with fair := p.fair + 1, starved := if p.starved.isNone && decide (lim ≤ p.fair + 1) then some stamp else p.starved }) f.pens
  let c := c.setCroft croft { f with pens := pens }
  let here := fun t => decide (c.croftOf t = croft) && e.now.mayRun (e.now.teamOf t)
  let c := { c with threads := Sparse.mapVals (fun t (x : Thread) =>
    if !here t || (decide (x.paused = 0) && x.yielding.isNone) then x
    else
      let y := match x.yielding with
        | some (ps, n) =>
          let left := ps.filter (fun p => decide (chosen ≠ some p))
          if left.isEmpty ∨ n ≤ 1 then none else some (left, n - 1)
        | none => none
      { x with paused := x.paused - 1, yielding := y }) c.threads }
  if croft % 4 ≠ 0 then c
  else
    let core := croft / 4
    let k := c.core core
    let c := c.setCore core { k with bins := Sparse.mapVals (fun _ (b : Bin) => if e.now.mayRun b.team then { b with timer := b.timer - 1 } else b) k.bins }
    { c with teams := Sparse.mapVals (fun _ (t : Team) => if t.core = some core then { t with cycle := t.cycle + 1 } else t) c.teams }

/-- The groups of a croft: their barriers and collectives are checked in each core cycle (07 R156, 13 R285). -/
def Chip.groupsOn (c : Chip) (croft : Nat) : List Nat := Sparse.keysWhere (fun _ g => decide (g.croft = croft) && g.resident) c.groups

/-- ISSUE_GROUP: one core cycle of a croft. The chosen pen's chain opens for the issue group; a thread held by a press entry
takes its fault instead. -/
def execIssueGroup (croft : Nat) (s : State) : Host.Outcome State Fault Refusal :=
  match s.issue with
  | some _ => .next s
  | none =>
    match choosePen s croft with
    | none => .next { s with now := (countCycle s s.now croft none).settleWaits (s.now.groupsOn croft) }
    | some (i, ts) =>
      let ms := s.now.pickLanes ts
      let c := countCycle s s.now croft (some i)
      let c := ms.foldl (fun c t => if (s.now.heldFor t).isEmpty then c else checkHeld s c t) c
      let ms := ms.filter (fun t => (heldFault s.now t).isNone)
      match ms with
      | [] => .next { s with now := c }
      | t :: _ =>
        let code := (Sparse.find? (s.now.croft croft).pens i).bind (·.code)
        let pc := (s.now.thread t).pc
        let c := code.elim c (touchFetch s c t pc)
        .next { s with now := c, base := none, issue := some { members := ms, pc := pc, pen := some i, code := code } }

/-- PEN_STARVED: a pen whose counter has reached FAIRLIM is starved (07 R141). -/
def execPenStarved (croft pen : Nat) (s : State) : Host.Outcome State Fault Refusal :=
  event (fun e =>
    let c := e.now
    let f := c.croft croft
    match Sparse.find? f.pens pen with
    | none => c
    | some p =>
      if p.starved.isSome ∨ p.fair < (c.ctx p.ctx).fairlim then c
      else
        let (stamp, c) := c.tickStamp
        c.setCroft croft { f with pens := Sparse.set f.pens pen { p with starved := some stamp } }) s

/-- PAUSE_EXPIRY: the count has run out; the flag is the count, so nothing is left to change. -/
def execPauseExpiry (th : Nat) (s : State) : Host.Outcome State Fault Refusal :=
  event (fun e =>
    let x := e.now.thread th
    if x.paused = 1 then e.now.setThread th { x with paused := 0 } else e.now) s

/-- YIELD_END: the flag lapses once no pen of its list is left, or its cycles have passed (07 R155). -/
def execYieldEnd (th : Nat) (s : State) : Host.Outcome State Fault Refusal :=
  event (fun e =>
    let x := e.now.thread th
    match x.yielding with
    | some (ps, n) => if ps.isEmpty ∨ n = 0 then e.now.setThread th { x with yielding := none } else e.now
    | none => e.now) s

/-! Spawn bins (07 R151 to R153). -/

/-- BIN_TIMER_EXPIRY. -/
def execBinTimerExpiry (core bin : Nat) (s : State) : Host.Outcome State Fault Refusal :=
  event (fun e =>
    let k := e.now.core core
    match Sparse.find? k.bins bin with
    | some b => if b.timer = 0 ∧ e.now.mayRun b.team = true then e.now.setCore core { k with bins := Sparse.set k.bins bin { b with closed := true } } else e.now
    | none => e.now) s

/-- A spawned thread as it first issues (07 R153). -/
def spawnedThread (entry : Addr) (arg : Word) (lvl : Level) : Thread :=
  { present := true, place := .saved false, pc := entry, level := lvl, entering := true, regs := [(0, { bits := arg })] }

/-- The group a bin launches as, on a croft. -/
def launchBin (c : Chip) (croft : Nat) (b : Bin) : Chip :=
  let (g, c) := c.fresh
  let (order, c) := c.tickStamp
  let n := b.args.length
  let lanes := if (c.team b.team).guarded then n / 2 else n
  let c := c.setGroup g { team := b.team, croft := croft, spawned := true, resident := true, order := order
                          masks := [(0, BitVec.ofNat 32 (2 ^ lanes - 1))] }
  let c := (List.range n).foldl (fun c l => match b.args[l]? with
    | some (arg, lvl) => c.setThread (32 * g + l) (spawnedThread b.entry arg lvl)
    | none => c) c
  c.moveAll ((List.range n).map (fun l => 32 * g + l))

/-- BIN_LAUNCH: a closed bin launches as a fresh group on a croft with room; with no room on its core it waits, taking no
further thread. -/
def execBinLaunch (core bin croft : Nat) (s : State) : Host.Outcome State Fault Refusal :=
  event (fun e =>
    let c := e.now.freeGroups
    let k := c.core core
    match Sparse.find? k.bins bin with
    | none => e.now
    | some b =>
      let regs := (c.team b.team).regs
      if !b.closed || !c.mayRun b.team || decide (croft / 4 ≠ core) then e.now
      else if c.croftRoom croft regs then launchBin (c.setCore core { k with bins := Sparse.erase k.bins bin }) croft b
      else if (List.range 4).any (fun i => c.croftRoom (4 * core + i) regs) then e.now
      else c.setCore core { k with bins := Sparse.set k.bins bin { b with awaiting := true } }) s

/-! Ticks (02 R28) and the rebase sweep (12 R270 to R272). -/

/-- Every core with its clock one tick on (12 R252). -/
def Chip.tickClocks (c : Chip) : Sparse Core :=
  (List.range Config.cores).map (fun k => (k, { c.core k with clk := min (2 ^ 48 - 1) ((c.core k).clk + 1) }))

/-- A thread one tick on: its wait and its hold. The count of a grid barrier's waiter stops while a team of the grid is saved (13
R290). -/
def Chip.tickThread (c : Chip) (i : Nat) (t : Thread) : Thread :=
  let frozen := fun (k : WaitKind) => decide (k = .grid) &&
    c.teams.any (fun p => decide (p.2.launch = (c.team (c.teamOf i)).launch) && p.2.live && p.2.core.isNone)
  if !c.mayRun (c.teamOf i) then t else
  let place := match t.place with
    | .waiting r => if (Sparse.find? t.grants r.place).isSome || frozen r.kind then t.place else .waiting { r with waited := r.waited + 1 }
    | p => p
  { t with place := place, held := t.held.map (fun h => (h.1, h.2 + 1)) }

/-- Steps 1 and 2 of a sweep (12 R271): the base rises, the generation flips, and every clock is raised past the base. Stored times of
the old generation are rewritten as they are met. -/
def Chip.rebase (c : Chip) (base : Nat) : Chip :=
  { c with
    timeBase := base, generation := !c.generation
    cores := Sparse.mapVals (fun _ (k : Core) => { k with clk := min (2 ^ 48 - 1) (max k.clk (base + 1)) }) c.allCores }

/-- Step 3 of a sweep: every stored time of the old generation is rewritten (12 R271). -/
def Chip.retime (c : Chip) : Chip :=
  { c with
    cores := Sparse.mapVals (fun _ (k : Core) => { k with l1 := Sparse.mapVals (fun _ l => c.timed l) k.l1 }) c.cores
    home := Sparse.mapVals (fun _ (h : HomeLine) => { h with wts := c.timeOf h.gen h.wts, rts := c.timeOf h.gen h.rts, gen := c.generation }) c.home
    slices := Sparse.mapVals (fun _ (x : Slice) => { x with memts := c.timeOf x.gen x.memts, gen := c.generation }) c.slices }

/-- A whole sweep to a base, at once; one that is running completes first (12 R272, R273). -/
def Chip.sweepTo (c : Chip) (base : Nat) : Chip := { ((c.retime).rebase base).retime with sweeping := false }

/-- Some core's clock has passed the base by 2^23. -/
def Chip.pastBase (c : Chip) : Bool := c.cores.any (fun k => decide (c.timeBase + 2 ^ 23 < k.2.clk))

/-- Barn die 0, which sweeps, or its standby, barn die 1, runs (12 R272). -/
def Board.sweeps (b : Board) : Bool := !(b.barnFenced.contains 0 && b.barnFenced.contains 1)

/-- REBASE_SWEEP: B rises by 2^22; one that falls due while another runs waits for it. -/
def execRebaseSweep (s : State) : Host.Outcome State Fault Refusal :=
  event (fun e =>
    let c := e.now
    if !(c.pastBase || c.sweepQueued) || !e.board.sweeps then c
    else if c.sweeping then { c with sweepQueued := true }
    else { c.rebase (c.timeBase + 2 ^ 22) with sweeping := true, sweepQueued := false }) s

/-- REBASE_SWEEP_COMPLETE: no stored time of the old generation is left. -/
def execRebaseSweepComplete (s : State) : Host.Outcome State Fault Refusal :=
  event (fun e => if e.board.sweeps then { e.now.retime with sweeping := false } else e.now) s

end Sys2Proof.Machine
end

