-- ==== Sys2Proof/Machine/Watch.lean ====
section
/-! DEFINITION. Waiting on a word and watching one, major 0x2A (13 R295 to R298). -/

namespace Sys2Proof.Machine

/-- The checks of a watched word's address (13 R296). -/
def watchVerdict (e : State) (t slot : Nat) (ea : BitVec 64) : Option Verdict :=
  if watchLocal ea then locVerdict (e.now.team (e.now.teamOf t)) slot (ea.toNat % 2 ^ 32 : Nat) 4 false
  else globalVerdict e t slot ea 4 false

/-- The conditions of the wait forms (13 R297). -/
inductive WaitCond where
  | ne | eq | ge
deriving DecidableEq, Repr

/-- Cond(x, y). -/
def WaitCond.holds : WaitCond → Word → Word → Bool
  | .ne, x, y => x != y
  | .eq, x, y => x == y
  | .ge, x, y => !(x - y).msb

/-- The limit of a wait in ticks: the register, or TIMEOUT where that is 0; 0 for none. -/
def waitLimit (c : Chip) (t d : Nat) : Nat :=
  if c.v t d = 0 then (c.team (c.teamOf t)).timeout.toNat else (c.v t d).toNat

/-- A store to team-local memory stands before the word that executes in its chain: it is established after what the word reads. -/
def State.storedAhead (e : State) : Bool :=
  match e.issue with
  | some iss => ((iss.code.getD {}).words.take iss.at_).any (fun w => match w.instr with | .sts .. => true | _ => false)
  | none => false

/-- What a read of a watched word waits for, faults with, or finds poisoned (13 R296, 21 R454, 23 R481). -/
def watchHeld (e : State) (t slot : Nat) (ea : BitVec 64) : Option Verdict :=
  (watchVerdict e t slot ea).orElse (fun _ =>
    if watchAway e e.now t ea then some (.hold ea.toNat) else if watchStalls e e.now t ea then some .notReady else none)

/-- A wait form in a thread (13 R297): where the condition holds at the first read, or a release has granted a value, it
writes the value and disarms the slot; else it waits with its slot armed. A poisoned word traps at once (21 R454). -/
def wordWait (i : Instr) (cond : WaitCond) (d a b : Nat) (s : State) : Host.Outcome State Fault Refusal :=
  let check : Check := fun e t slot => match e.grantOf t with
    | some _ => none
    | none =>
      let ea := e.now.vv t (2 * a)
      (watchHeld e t slot ea).orElse (fun _ =>
        match watchRead e e.now t ea with
        | (_, some sub) => some (memTrap slot causeUncorrectable sub false 0 ea)
        | (x, none) =>
          if cond.holds x (e.now.v t b) then none else some (waitFor e slot (.word (waitLimit e.now t d)) x i false))
  let act : Act := fun e _ live c => live.foldl (fun c t =>
    let c := (match e.grantOf t with
      | some (.value x tag) => c.writeV t d x tag
      | _ => ((armWatch e c t (e.now.vv t (2 * a))).writeV t d (watchRead e e.now t (e.now.vv t (2 * a))).1 tagRaw).nextFree
          (watchRemote e e.now t (e.now.vv t (2 * a))))
    c.disarm t true) c
  runWord i check act s

/-- WAIT.NE. -/
def execWaitNe (c : Bool) (d : BitVec 7) (a : BitVec 6) (b : BitVec 7) (s : State) : Host.Outcome State Fault Refusal :=
  wordWait (.waitNe c d a b) .ne d.toNat a.toNat b.toNat s
/-- WAIT.EQ. -/
def execWaitEq (c : Bool) (d : BitVec 7) (a : BitVec 6) (b : BitVec 7) (s : State) : Host.Outcome State Fault Refusal :=
  wordWait (.waitEq c d a b) .eq d.toNat a.toNat b.toNat s
/-- WAIT.GE. -/
def execWaitGe (c : Bool) (d : BitVec 7) (a : BitVec 6) (b : BitVec 7) (s : State) : Host.Outcome State Fault Refusal :=
  wordWait (.waitGe c d a b) .ge d.toNat a.toNat b.toNat s

/-- WATCH. -/
def execWatch (c : Bool) (d : BitVec 7) (a : BitVec 6) (s : State) : Host.Outcome State Fault Refusal :=
  runWord (.watch c d a) (fun e t slot => watchHeld e t slot (e.now.vv t (2 * a.toNat)))
    (fun e _ live c => live.foldl (fun c t =>
      let ea := e.now.vv t (2 * a.toNat)
      let c := (armWatch e c t ea).nextFree (watchRemote e e.now t ea)
      let c := if watchLocal ea && e.storedAhead then c.fireSlot t else c
      match watchRead e e.now t ea with
      | (x, none) => c.writeV t d.toNat x tagRaw
      | (_, some sub) =>
        let (v, c) := c.freeValue
        (c.consume t ((e.issue.map Issue.slot).getD 0) sub ea.toNat).writeV t d.toNat (v.setWidth 32) tagRaw) c) s

/-- UNWATCH. -/
def execUnwatch (c : Bool) (d : BitVec 7) (s : State) : Host.Outcome State Fault Refusal :=
  runWord (.unwatch c d) noCheck (perThread false (fun pre _ t c =>
    let f := (pre.thread t).watch.fired
    (c.disarm t f).writeV t d.toNat (if f then 1 else 0) tagInt)) s

/-- WAKE. -/
def execWake (c : Bool) (a : BitVec 6) (s : State) : Host.Outcome State Fault Refusal :=
  runWord (.wake c a) (fun e t slot => watchVerdict e t slot (e.now.vv t (2 * a.toNat)))
    (fun e _ live c => live.foldl (fun c t =>
      let ea := e.now.vv t (2 * a.toNat)
      match watchPlace e e.now t ea with
      | none => c
      | some p => if watchLocal ea then c.fireLocal (c.teamOf t) p 4 else c.fireGlobal p 4) c) s

end Sys2Proof.Machine
end

