-- ==== Sys2Proof/Machine/Traffic.lean ====
section
/-! DEFINITION. Requests at the home slices and what comes back to the cores, event by event (11 R240 to R248, 12 R256 to R266, R276
to R281), the host's accesses, the surveyor, and the wakes of waiting words (13 R297, R298). -/

namespace Sys2Proof.Machine

/-! Data to registers (11 R240). -/

/-- One register of an access's data. -/
def Access.word (a : Access) (j : Nat) : Word := a.result.extractLsb' (32 * j) 32

/-- The registers of an access that still wait for it, by thread and register, with the word each receives. -/
def Chip.waitingFor (c : Chip) (id : Nat) (a : Access) : List (Nat × Nat × Nat) :=
  a.takers.flatMap (fun t => (List.range a.count).filterMap (fun j =>
    if (c.reg t (a.dest + j)).wait = some (.access id) then some (t, a.dest + j, j) else none))

/-- Data is written to its destination registers, all together; poisoned data is unspecified there (21 R454). -/
def Chip.deliver (c : Chip) (id : Nat) (a : Access) : Chip :=
  let c := (c.waitingFor id a).foldl (fun c x => match a.poison with
    | none => c.writeV x.1 x.2.1 (a.word x.2.2) a.tag
    | some _ => let (v, c) := c.freeValue; c.writeV x.1 x.2.1 (v.setWidth 32) a.tag) c
  { c with accesses := Sparse.erase c.accesses id }

/-- UNCORRECTABLE in a thread at once, charged to its chain's PC: rolled back in rollback mode (21 R453, R454, R460). An arrival
its waiting word made is withdrawn. -/
def poisonTrap (s : State) (t slot sub addr count : Nat) : State :=
  let c := s.now
  if !c.active t then s
  else
    let x := c.thread t
    let i1 : Word := BitVec.ofNat 32 (slot + 16 * sub)
    let i2 : Word := BitVec.ofNat 32 addr
    let i3 : Word := BitVec.ofNat 32 (addr / 2 ^ 32)
    if rollsBack c t causeUncorrectable then
      rollbackTeam s (c.teamOf t) { c.threadRec t causeUncorrectable sub 6 x.pc.toNat addr (BitVec.ofNat 32 count) i1 i2 i3 with imprecise := decide (count ≠ 0) }
    else
      let c := match x.waitsOn with
        | some r => c.withdraw t r
        | none => c
      let c := c.setThread t { c.thread t with due := none }
      let c := match x.waitsOn with
        | some { kind := .word _, .. } => c.disarm t true
        | _ => c
      { s with now := takeTrap s c t x.pc x.pc causeUncorrectable (BitVec.ofNat 32 count) i1 i2 i3 }

/-- Poisoned data has reached the registers of some threads: the error is due to each, at once to one that waits or is in
rollback mode. -/
def chargePoison (s : State) (ts : List Nat) (slot sub addr : Nat) : State :=
  ts.foldl (fun s t =>
    if (s.now.thread t).waitsOn.isSome || rollsBack s.now t causeUncorrectable then poisonTrap s t slot sub addr 0
    else { s with now := s.now.consume t slot sub addr }) s

/-- The data of a performed access comes back. -/
def giveData (s : State) (id : Nat) (a : Access) : State :=
  let ts := ((s.now.waitingFor id a).map (·.1)).dedup
  let c := settleFences s (s.now.deliver id a) a.th
  match a.poison with
  | none => { s with now := c }
  | some sub => chargePoison { s with now := c } ts a.slot sub a.va

/-! What is homed on another device (17 R381, 20 R449). -/

/-- Some port's replay buffer has been discarded and none carries traffic to another device. -/
def Board.routeLost (b : Board) : Bool :=
  (List.range 16).all (fun i => !(b.port i).carries) && (List.range 16).any (fun i => decide ((b.port i).state = .fenced))

/-- What a thread has read on another device has a write time there, which in this device's clock space is a free value (17 R385, log
entry 6): an acquire advances the core's clock to it. -/
def Chip.seeAfar (c : Chip) (a : Access) : Chip :=
  let (v, c) := c.freeValue
  let t := c.timeBase + v.toNat % 2 ^ 23
  if a.isAcq then c.clockAdvance a.core t else a.takers.foldl (fun c x => c.see x t) c

/-- Another device's answer to a load: what its memory holds is a free value (log entry 6). -/
def remoteData (s : State) (id : Nat) (a : Access) : State :=
  let (v, c) := s.now.freeValue
  let (w, c) := c.freeValue
  let c := c.seeAfar a
  giveData { s with now := c } id { a with stage := .returned, result := a.taken (putBytes 0 (a.phys % 128) a.size (v ++ w).toNat), poison := none }

/-- A load to be replayed: its address is translated again (18 R401). One that does not translate now waits until it does. -/
def replayLoad (e : State) (c : Chip) (id : Nat) (a : Access) : Chip :=
  if (c.line e (lineOf a.phys)).held.contains id then c
  else match translate e c a.core a.ctx (c.thread a.th).level a.va .read with
    | .ok p far dev => c.setAccess id { a with
        stage := .issued, phys := p, kind := if far then 3 else a.kind, dev := if leaseGood e p then none else dev }
    | _ => c

/-- LOAD_DATA_RETURN: data that is there is written to its registers; a load that its core's L1 serves is performed, and one that another
device serves; a load to be replayed is asked again. -/
def execLoadDataReturn (acc : Nat) (s : State) : Host.Outcome State Fault Refusal :=
  eventS (fun s => match Sparse.find? s.now.accesses acc with
    | none => s
    | some a =>
      if !a.detached && (s.now.team (s.now.teamOf a.th)).core.isNone then s
      else match a.stage with
        | .returned => giveData s acc a
        | .issued => match l1Serves s.now acc a with
          | some l =>
            if s.now.mayPerform acc a then
              let c := hit s.now acc a l
              match Sparse.find? c.accesses acc with
              | some b => giveData { s with now := c } acc b
              | none => s
            else s
          | none => s
        | .remote => if a.op = .load && !s.board.routeLost && s.now.mayPerform acc a then remoteData s acc a else s
        | .atHome => if a.op = .load then { s with now := replayLoad s s.now acc a } else s
        | _ => s) s

/-! Events at the home. -/

/-- An event that serves one request of a sort. -/
def requestEvent (sort : Chip → Access → Bool) (acc : Nat) (s : State) : Host.Outcome State Fault Refusal :=
  event (fun e => match Sparse.find? e.now.accesses acc with
    | some a => if sort e.now a then serve e e.now acc else e.now
    | none => e.now) s

/-- RENEW_REQUEST. -/
def execRenewRequest (acc : Nat) (s : State) : Host.Outcome State Fault Refusal :=
  requestEvent (fun c a => !c.wantsOwned a && (match a.op with | .load => true | .fetch _ => true | _ => false)) acc s

/-- RENEW_REPLY. -/
def execRenewReply (acc : Nat) (s : State) : Host.Outcome State Fault Refusal :=
  event (fun e => match Sparse.find? e.now.accesses acc with
    | some a => match a.stage with
      | .reply wts rts data valid => takeReply e e.now acc a wts rts data valid
      | _ => e.now
    | none => e.now) s

/-- HOME_STORE: a posted store, a release or a write-back; or another device has performed a store sent to it (17 R381). -/
def execHomeStore (acc : Nat) (s : State) : Host.Outcome State Fault Refusal :=
  event (fun e => match Sparse.find? e.now.accesses acc with
    | some a =>
      if a.stage = .remote then
        (if a.op = .store && a.poison.isNone && !e.board.routeLost && e.now.mayPerform acc a then
          settleFences e { e.now with accesses := Sparse.erase e.now.accesses acc } a.th else e.now)
      else if !e.now.wantsOwned a && a.storing then serve e e.now acc else e.now
    | none => e.now) s

/-- OWNED_REQUEST. -/
def execOwnedRequest (acc : Nat) (s : State) : Host.Outcome State Fault Refusal :=
  requestEvent (fun c a => c.wantsOwned a && (match a.op with | .rmw _ => false | _ => true)) acc s

/-- HOME_ATOMIC. -/
def execHomeAtomic (acc : Nat) (s : State) : Host.Outcome State Fault Refusal :=
  requestEvent (fun _ a => match a.op with | .rmw _ => true | _ => false) acc s

/-- RECALL. -/
def execRecall (line : Nat) (s : State) : Host.Outcome State Fault Refusal := event (fun e => answerRecall e e.now line) s

/-- PERSISTENT_REQUEST: the head of a slice's arbiter, once its line is neither recalled nor invalidated (12 R276). -/
def execPersistentRequest (slice : Nat) (s : State) : Host.Outcome State Fault Refusal :=
  event (fun e =>
    let c := e.now
    match (c.sliceAt slice).persistent with
    | [] => c
    | id :: rest => match Sparse.find? c.accesses id with
      | none => c.setSlice slice { c.sliceAt slice with persistent := rest }
      | some _ => serve e c id) s

/-- The dirty words of a home line written to memory, with their poison. -/
def cleanLine (s : State) (ln : Nat) : State :=
  let h := s.now.line s ln
  let words := (List.range 32).filter (fun i => h.dirty.getLsbD i)
  let mem := words.foldl (fun m i => Memory.writeN m (128 * ln + 4 * i) 4 (getBytes h.data (4 * i) 4)) s.mem
  let poisoned := words.foldl (fun p i =>
    if h.poison.getLsbD i then Sparse.set p (32 * ln + i) (if isHost (128 * ln) then 9 else if isFar (128 * ln) then 8 else 7)
    else Sparse.erase p (32 * ln + i)) s.board.poisoned
  { s with now := s.now.setLine ln { h with dirty := 0 }, mem := mem, board := { s.board with poisoned := poisoned } }

/-- SLICE_EVICTION: a shared line, or an owned one after its recall, leaves its slice (12 R255, R281). What its releasers have not drained
is drained first (R266), and a host copy is back-invalidated in the same step (log entry 15). -/
def evictLine (s : State) (ln : Nat) : State :=
  match Sparse.find? s.now.home ln with
  | none => s
  | some h =>
    if h.busy || !h.conflict.isEmpty then s
    else
      let c := if h.releasers.isEmpty then s.now else promoteLine s s.now ln
      let s := cleanLine { s with now := recallNow s c ln allWords } ln
      let x := s.now.sliceAt (sliceOf ln)
      let c := s.now.setSlice (sliceOf ln) { x with memts := max x.memts (s.now.line s ln).rts }
      { s with now := { c with home := Sparse.erase c.home ln } }

/-- SLICE_EVICTION. -/
def execSliceEviction (line : Nat) (s : State) : Host.Outcome State Fault Refusal := eventS (fun s => evictLine s line) s

/-! The host (10 R227, 12 R277 to R280). -/

/-- Device memory the host can name: the HBM (20 R439). -/
def deviceMemory (e : State) (p : Nat) : Bool := populated e p && isHbm p

/-- HOST_MEM_ACCESS: one that meets a back-invalidation of its line waits in the conflict queue; with the queue full the port
does not accept it (12 R280). One that meets a recall comes behind what the recall holds. A page that another device has checked out is
recalled, and one that it writes is no longer shared (17 R383, R384). -/
def execHostMemAccess (op : BitVec 2) (addr size : Nat) (data : BitVec 64) (cache : Bool) (s : State) : Host.Outcome State Fault Refusal :=
  event (fun e =>
    let ln := lineOf addr
    let ok := !(decide (op = 3)) && [1, 2, 4, 8].contains size && decide (addr % size = 0) && deviceMemory e addr && !e.now.bankWaking addr
    let c := if ok then recallFrame e e.now addr else e.now
    let c := if ok && decide (op ≠ 0) then demoteFrame e c addr else c
    let h := c.line e ln
    let waiting : Nat := (c.home.map (fun (p : Nat × HomeLine) => if sliceOf p.1 = sliceOf ln then p.2.conflict.length else 0)).sum
    if ok = false then c
    else if h.state = .invalidating ∨ h.conflict ≠ [] then
      (if waiting < 32 then c.setLine ln { h with conflict := h.conflict ++ [(op, addr, size, data, cache)] } else c)
    else if Proto.hostWaits e c op addr then c
    else
      let c := quietLine e c ln
      if (c.line e ln).busy then c else hostServe e c op addr size data cache) s

/-- BACK_INVALIDATION_RESPONSE. -/
def execBackInvalidationResponse (line : Nat) (s : State) : Host.Outcome State Fault Refusal :=
  event (fun e => answerInvalidation e e.now line) s

/-- The host takes a line of its memory to write it: what it holds then is not this model's to say, and its watchers are woken (10
R227, 13 R298; log entry 113). -/
def hostWrites (s : State) (ln : Nat) : State :=
  let mem := (List.range 32).foldl (fun m i => Memory.writeN m (128 * ln + 4 * i) 4 ((Config.freeBits (s.now.free + i)).toNat % 2 ^ 32)) s.mem
  { s with mem := mem, now := { s.now with free := s.now.free + 32 }.fireGlobal (128 * ln) 128 }

/-- HOST_SNOOP: a host line written back; an invalidating snoop drops it, and the host writes it (12 R277, R278). -/
def execHostSnoop (line : Nat) (inval : Bool) (s : State) : Host.Outcome State Fault Refusal :=
  eventS (fun s =>
    if !isHost (128 * line) then s
    else match Sparse.find? s.now.home line with
      | none => if inval then hostWrites s line else s
      | some h =>
        if h.busy then s
        else
          let t := evictLine s line
          if inval then hostWrites t line
          else { t with now := t.now.setLine line { h with dirty := 0, exclusive := false } }) s

/-! The surveyor (17 R371). -/

/-- SURVEYOR_WALK: a walk fills a core's TLB. Named for a page that the TLB holds, it stands for that entry giving way and the miss that
follows, so a changed table entry takes effect at a later translation that nothing fixes (17 R386; log entry 76). -/
def execSurveyorWalk (core ctx va : Nat) (s : State) : Host.Outcome State Fault Refusal :=
  event (fun e =>
    let c := e.now
    if Config.cores ≤ core ∨ 2 ^ 55 ≤ va ∨ (Sparse.find? c.ctxs ctx).isNone = true then c
    else match walk e c ctx va with
      | .leaf x _ level => (c.tlbEvict core ctx va).tlbFill core ctx va x level
      | _ => c.tlbEvict core ctx va) s

/-! Replies from outside the device's memory (11 R246, 19 R433). -/

/-- A reply for a thread: delivered, or, its team saved, written to the saved registers and the image (11 R246). -/
def giveReply (s : State) (id : Nat) (a : Access) (data : BitVec 64) : State :=
  let a := { a with stage := .returned, result := data.setWidth 256, poison := none }
  let saved := (s.now.team (s.now.teamOf a.th)).core.isNone
  let s := giveData s id a
  if saved && !a.detached then { s with now := refreshImage s s.now a.ctx } else s

/-- REMOTE_ATOMIC_REPLY: the other device has performed it, behind what it must follow (10 R213, R214). -/
def execRemoteAtomicReply (acc : Nat) (data : BitVec 64) (s : State) : Host.Outcome State Fault Refusal :=
  eventS (fun s => match Sparse.find? s.now.accesses acc with
    | some a => match a.stage, a.op with
      | .remote, .rmw _ =>
        if !s.now.mayPerform acc a then s
        else
          let c := if (s.now.team (s.now.teamOf a.th)).core.isSome then s.now.seeAfar a else s.now
          giveReply { s with now := c } acc a (BitVec.ofNat 64 (data.toNat % 2 ^ (8 * a.size)))
      | _, _ => s
    | none => s) s

/-- ECALL_ANSWER: firmware's answer, v(d) with tag INT. -/
def execEcallAnswer (acc : Nat) (answer : BitVec 32) (s : State) : Host.Outcome State Fault Refusal :=
  eventS (fun s => match Sparse.find? s.now.accesses acc with
    | some a => if a.op = .ecall then giveReply s acc a (answer.setWidth 64) else s
    | none => s) s

/-! Waiting words (13 R297, R298). -/

/-- The operands of a waiting word: its condition, address pair and compare register. -/
def waitParts : Instr → Option (WaitCond × Nat × Nat)
  | .waitNe _ _ a b => some (.ne, 2 * a.toNat, b.toNat)
  | .waitEq _ _ a b => some (.eq, 2 * a.toNat, b.toNat)
  | .waitGe _ _ a b => some (.ge, 2 * a.toNat, b.toNat)
  | _ => none

/-- A woken wait reads its word again: released where the condition holds, else armed again with what it read; a poisoned word
traps at once (21 R454). A wait whose word can no longer be read goes back to its pen and is executed again, with the fault or the hold
that its page gives (13 R296). -/
def rereadWait (s : State) (t : Nat) (r : WaitRec) : State :=
  match waitParts r.word with
  | none => s
  | some (cond, pair, b) =>
    let ea := s.now.vv t pair
    if (watchVerdict s t r.slot ea).isSome || watchAway s s.now t ea then { s with now := (s.now.disarm t true).moveThread t (s.now.thread t).level (s.now.thread t).pc }
    else if watchStalls s s.now t ea then s
    else
      let c := armWatch s s.now t ea
      let got := watchRead s c t ea
      let c := c.nextFree (watchRemote s c t ea)
      match got with
      | (_, some sub) => poisonTrap { s with now := c } t r.slot sub ea.toNat 0
      | (x, none) =>
        if cond.holds x (c.v t b) then { s with now := c.release t (.value x tagRaw) }
        else { s with now := c.setThread t { c.thread t with place := .waiting { r with seen := x } } }

/-- The word a thread's slot watches lies on another device, whose writes wake it by a message from there (17 R381). -/
def watchesAfar (s : State) (t : Nat) : Bool :=
  match (s.now.thread t).watch.armed with
  | some (ea, _) => watchRemote s s.now t ea
  | none => false

/-- WATCH_FIRE: the wake reaches a thread whose slot has fired, or watches a word of another device that has been written: one that waits
reads its word again, any other finds its slot fired. -/
def execWatchFire (th : Nat) (s : State) : Host.Outcome State Fault Refusal :=
  eventS (fun s => match (s.now.thread th).waitsOn with
    | some r => if ((s.now.thread th).watch.fired || watchesAfar s th) && s.now.mayRun (s.now.teamOf th) then rereadWait s th r else s
    | none => if watchesAfar s th then { s with now := s.now.fireSlot th } else s) s

/-- WAIT_LIMIT_EXPIRY: the word commits with the last value read (13 R297). -/
def execWaitLimitExpiry (th : Nat) (s : State) : Host.Outcome State Fault Refusal :=
  event (fun e => match (e.now.thread th).waitsOn with
    | some r => match r.kind with
      | .word limit =>
        if limit ≠ 0 ∧ limit ≤ r.waited ∧ e.now.mayRun (e.now.teamOf th) = true then e.now.release th (.value r.seen tagRaw) else e.now
      | _ => e.now
    | none => e.now) s

/-! Rollback intervals and errors that are due. -/

/-- COMMITTED_EARLY: a fill would evict a held line (21 R459). -/
def execCommittedEarly (team : Nat) (s : State) : Host.Outcome State Fault Refusal :=
  event (fun e =>
    let t := e.now.team team
    if t.rollback && !t.interval.early && !t.interval.held.isEmpty then commitNow e e.now team else e.now) s

end Sys2Proof.Machine
end

