-- ==== Sys2Proof/Machine/Timeouts.lean ====
section
/-! DEFINITION. Waits that time out or join (13 R292, R293, 15 R330), the press and the plough at work (15 R323, R344, R345, 16 R364,
24 R486), and errors that reach their threads and teams (21 R454, R460). -/

namespace Sys2Proof.Machine

/-! BARRIER_TIMEOUT (13 R292, R293). -/

/-- The threads waiting on the phase or instance a thread waits on. -/
def Chip.coWaiters (c : Chip) (t : Nat) (r : WaitRec) : List Nat :=
  let here := fun (i : Nat) (q : WaitRec) => decide (groupOf i = groupOf t) && decide (q.word = r.word) && decide ((c.thread i).pc = (c.thread t).pc)
  match r.kind with
  | .barrier n _ => c.waiters (fun i q => decide (c.teamOf i = c.teamOf t) && (match q.kind with | .barrier m _ => decide (m = n) | _ => false))
  | .cluster => c.waiters (fun i q => decide (q.kind = .cluster) && decide ((c.team (c.teamOf i)).cluster = (c.team (c.teamOf t)).cluster))
  | .grid => c.waiters (fun i q => decide (q.kind = .grid) && decide ((c.team (c.teamOf i)).launch = (c.team (c.teamOf t)).launch))
  | .gsync m => let ps := c.participants t m; c.waiters (fun i q => here i q && ps.contains i)
  | .collective m => let ps := c.participants t m; c.waiters (fun i q => here i q && ps.contains i)
  | .quad => c.waiters (fun i q => here i q && decide (q.lead = r.lead))
  | .word _ => []

/-- The live teams of a launch or cluster that have not retired. -/
def Chip.teamsLeft (c : Chip) (f : Team → Bool) : List Nat := Sparse.keysWhere (fun _ t => t.live && f t) c.teams

/-- The complete publications of a quad MX.ISSUE that waits, by the block its lead thread names (15 R341). -/
def Chip.joined (c : Chip) (t : Nat) (r : WaitRec) : Nat :=
  match r.word with
  | .mxIssue _ _ a =>
    let off := (c.v r.lead a.toNat).toNat
    (quadPubs c (c.teamOf t) (BitVec.ofNat 512 (Memory.readN (c.team (c.teamOf t)).lmem off 64))).length
  | _ => 0

/-- TRAPINFO1[7:4], TRAPINFO2, and the threads arrived and expected, of a wait. -/
def Chip.waitInfo (c : Chip) (t : Nat) (r : WaitRec) (ws : List Nat) : Nat × Nat × Nat × Nat :=
  let team := c.team (c.teamOf t)
  match r.kind with
  | .barrier n _ =>
    let b := Sparse.get {} team.bars n
    (1, n, (b.arrived.filter c.visible).length, if b.count = 0 then (c.counted [c.teamOf t]).length else b.count)
  | .cluster => (2, 0, ((c.cluster team.cluster).arrived.filter c.visible).length, (c.counted (c.teamsLeft (fun k => decide (k.cluster = team.cluster)))).length)
  | .grid => (3, 0, ((c.launch team.launch).gridArrived.filter c.visible).length, (c.counted (c.teamsLeft (fun k => decide (k.launch = team.launch)))).length)
  | .gsync m => (4, m, (ws.filter c.visible).length, ((c.participants t m).filter c.visible).length)
  | .collective m => (5, m, (ws.filter c.visible).length, ((c.participants t m).filter c.visible).length)
  | .quad => (6, 0, c.joined t r, 4)
  | .word _ => (0, 0, 0, 0)

/-- A waiting thread raises BARRIER_TIMEOUT: its arrival withdrawn, nothing of its chain committed. -/
def timeoutThread (e : State) (kind index count : Nat) (c : Chip) (t : Nat) : Chip :=
  match (c.thread t).waitsOn with
  | none => c
  | some r =>
    let pc := (c.thread t).pc
    takeTrap e (c.withdraw t r) t pc pc causeTimeout 0 (BitVec.ofNat 32 (r.slot + 16 * kind)) (BitVec.ofNat 32 index) (BitVec.ofNat 32 count)

/-- The waiter that has waited longest. -/
def Chip.earliest (c : Chip) (ws : List Nat) : Option (Nat × WaitRec) :=
  ws.foldl (fun b t => match (c.thread t).waitsOn, b with
    | some r, none => some (t, r)
    | some r, some x => if x.2.waited < r.waited then some (t, r) else b
    | none, _ => b) none

/-- BARRIER_TIMEOUT: every waiter of the phase or instance of a thread raises it, once the TIMEOUT that the earliest kept has
passed; a quad join that is complete wins (15 R353). -/
def execBarrierTimeout (th : Nat) (s : State) : Host.Outcome State Fault Refusal :=
  event (fun e =>
    let c := e.now
    match (c.thread th).waitsOn with
    | none => c
    | some r =>
      let ws := c.coWaiters th r
      match c.earliest ws with
      | none => c
      | some (t, q) =>
        if q.timeout = 0 ∨ q.waited < q.timeout ∨ c.mayRun (c.teamOf th) = false then c
        else if r.kind = .quad ∧ 4 ≤ c.joined th r then ws.foldl (fun c t => c.release t .joined) c
        else
          let (kind, index, arrived, expected) := c.waitInfo th r ws
          let count := min arrived 65535 + 65536 * min expected 65535
          let pc := (c.thread t).pc
          let rec_ := c.threadRec t causeTimeout kind 2 pc.toNat 0 0 (BitVec.ofNat 32 (q.slot + 16 * kind)) (BitVec.ofNat 32 index) (BitVec.ofNat 32 count)
          let c := errorRecord e c (c.ctxOf t) rec_
          ws.foldl (timeoutThread e kind index count) c) s

/-! The press. -/

/-- QUAD_JOIN: a waiting quad MX.ISSUE goes on once its four publications are complete; it then makes its checks and consumes them
(15 R330). -/
def execQuadJoin (th : Nat) (s : State) : Host.Outcome State Fault Refusal :=
  event (fun e =>
    let c := e.now
    match (c.thread th).waitsOn with
    | some r =>
      if r.kind = .quad ∧ 4 ≤ c.joined th r ∧ c.mayRun (c.teamOf th) = true then (c.coWaiters th r).foldl (fun c t => c.release t .joined) c
      else c
    | none => c) s

/-- Whether the press may work on an entry: its context runs, or an operation that has begun to overwrite its own A must finish
(15 R340, R352). -/
def Chip.pressMay (c : Chip) (q : PressEntry) : Bool := c.mayRun q.team || ((c.team q.team).core.isSome && q.mustFinish)

/-- The held entries of a core whose checking thread stands at its restart PC, at the entry's level, and whose plates are all valid
are released (24 R486). -/
def Chip.releaseHeld (c : Chip) (core : Nat) : Chip :=
  let free := fun (q : PressEntry) => decide ((c.team q.team).core = some core) && (c.badPlate q).isNone && (match c.heldThread q with
    | some t => decide (q.held = some (c.thread t).pc) && decide ((c.thread t).level = q.level) && c.mayRun q.team
    | none => false)
  { c with press := Sparse.mapVals (fun _ (q : PressEntry) => if free q then { q with held := none } else q) c.press }

/-- PRESS_TILE_STEP: one step of a core's press. -/
def execPressTileStep (core blocks : Nat) (s : State) : Host.Outcome State Fault Refusal :=
  event (fun e => if blocks = 0 then e.now else
    let c := e.now.releaseHeld core
    pressStep e c core blocks c.pressMay) s

/-- PRESS_ENTRY_RESOLVE: an entry whose last step has ended, that has faulted or that is cancelled leaves its queue; so does a held
entry that no thread of its group is left to check (24 R486). -/
def execPressEntryResolve (entry : Nat) (s : State) : Host.Outcome State Fault Refusal :=
  event (fun e =>
    let c := e.now
    match Sparse.find? c.press entry with
    | none => c
    | some q =>
      if (c.team q.team).core.isNone then c
      else if q.ended || q.cancel || q.fault.isSome then c.resolvePress entry q q.status
      else if q.held.isSome && (c.heldThread q).isNone then c.resolvePress entry q (2 * 2 ^ 28 + causePlate)
      else c) s

/-! The plough. -/

/-- PLOUGH_ELEMENT_READ. -/
def execPloughElementRead (group stream : Nat) (s : State) : Host.Outcome State Fault Refusal :=
  event (fun e =>
    let c := e.now
    if (c.group group).resident && decide (stream < 4) && c.mayRun (c.group group).team then ploughRead e c group stream else c) s

/-! Errors. -/

/-- The threads of a protected pair, or a thread alone. -/
def Chip.pairOf (c : Chip) (t : Nat) : List Nat := if c.guarded t then [t / 2 * 2, t / 2 * 2 + 1] else [t]

/-- UNCORRECTABLE: a thread to which an error is due takes it at its next chain (21 R454). -/
def execUncorrectable (th : Nat) (s : State) : Host.Outcome State Fault Refusal :=
  eventS (fun s => match (s.now.thread th).due with
    | none => s
    | some d =>
      if !s.now.mayRun (s.now.teamOf th) then s
      else (s.now.pairOf th).foldl (fun s t => poisonTrap s t d.slot d.subcode d.addr (min d.since 256)) s) s

/-- ROLLBACK: an error in state the team owns, in a clean interval (21 R460). -/
def execRollback (team : Nat) (s : State) : Host.Outcome State Fault Refusal :=
  eventS (fun s =>
    let c := s.now
    let t := c.team team
    if t.live && t.rollback && t.core.isSome && !t.interval.early && decide (t.interval.rolled < 3) then
      rollbackTeam s team { cause := causeUncorrectable, sub := 10, source := 6, x := t.x, y := t.y, z := t.z, core := t.core }
    else s) s

end Sys2Proof.Machine
end

