-- ==== Sys2Proof/Machine/Carter.lean ====
section
/-! DEFINITION. The carter at work: transfer units, elements and the resolution of batches (14 R303, R305, R308 to R318). -/

namespace Sys2Proof.Machine

/-! The ends of an element. -/

/-- The team whose team-local memory an element names by a cluster-remote register. -/
def elemSibling (c : Chip) (b : Batch) (reg : BitVec 64) : Option Nat := c.sibling b.th (rmtX (reg.setWidth 32)) (rmtY (reg.setWidth 32))

/-- What one end of an element finds. -/
inductive Spot where
  /-- A physical byte; the device that must be asked, where that is another. -/
  | global (p : Nat) (dev : Option Nat)
  /-- Team-local bytes. -/
  | local_ (team off : Nat)
  | hold
  | bad (cause sub : Nat)
deriving DecidableEq, Repr

/-- A global end (14 R314). -/
def globalSpot (e : State) (c : Chip) (b : Batch) (ea : BitVec 64) (write : Bool) : Spot :=
  match translate e c (c.coreOf b.th) (c.ctxOf b.th) b.level ea.toNat (if write then .write else .read) with
  | .ok p _ dev =>
    if (write && (c.cowHeld p || (dev.isNone && leasePending e p))) || (dev.isNone && c.bankWaking p) || pageAway e c (c.ctxOf b.th) ea.toNat then .hold
    else .global p (if !write && leaseGood e p then none else dev)
  | .fault cause sub _ => .bad cause sub
  | .serve => .hold
  | .migrating => .hold

/-- A team-local end of a sibling. -/
def siblingSpot (c : Chip) (b : Batch) (reg : BitVec 64) : Spot :=
  match elemSibling c b reg with
  | some team => .local_ team (fieldNat reg.toNat 0 19)
  | none => .bad causeAccess 14

/-- The source of an element. -/
def sourceSpot (e : State) (c : Chip) (b : Batch) (x : Elem) : Spot :=
  if x.kind = 0 ∨ x.kind = 2 then globalSpot e c b x.src false
  else if x.kind = 1 then .local_ (c.teamOf b.th) x.src.toNat
  else siblingSpot c b x.src

/-- The destination of an element. -/
def targetSpot (e : State) (c : Chip) (b : Batch) (x : Elem) : Spot :=
  if x.kind = 1 ∨ x.kind = 2 then globalSpot e c b x.dst true
  else if x.kind = 0 then .local_ (c.teamOf b.th) x.dst.toNat
  else siblingSpot c b x.dst

/-! Faults. -/

/-- A batch ends as faulted: no further element is sent, and one error record is written (14 R314). -/
def faultBatch (e : State) (c : Chip) (id : Nat) (b : Batch) (cause sub addr : Nat) : Chip :=
  match b.fault with
  | some _ => c
  | none =>
    let c := c.setBatch id { b with fault := some (cause, sub) }
    errorRecord e c (c.ctxOf b.th) (c.threadRec b.th cause sub 3 0 addr 0 0 0 0)

/-! Sending and performing. -/

/-- Changing one element of a batch. -/
def Batch.setElem (b : Batch) (i : Nat) (f : Elem → Elem) : Batch := { b with elems := b.elems.mapIdx (fun j x => if j = i then f x else x) }

/-- Whether an element may be sent: its batch committed, neither cancelled nor faulted, its team running, and the accesses its
thread made before the copy word performed (10 R221). -/
def Chip.maySend (c : Chip) (b : Batch) (x : Elem) : Bool :=
  b.committed.isSome && !b.cancel && b.fault.isNone && !x.sent && c.mayRun (c.teamOf b.th) &&
    !c.earlier (c.leadOf b.th) x.unit (fun a => !a.performed && decide (a.op ≠ .ecall))

/-- Reading `n` bytes for a carter under the rules of an .nc access: the core's posted stores to the line are established first
(12 R259). -/
def carterRead (e : State) (c : Chip) (core p n : Nat) : Nat × Chip :=
  let c := establishPosted e c core p
  (peek e c p n, c)

/-- An element held at its destination: a write that waits for the leases of a read-shared page ends the sharing (17 R383, R387). -/
def demoteTarget (e : State) (c : Chip) (b : Batch) (x : Elem) : Chip :=
  if x.kind = 1 ∨ x.kind = 2 then demotePage e c (c.ctxOf b.th) x.dst.toNat else c

/-- Sending an element: its source is read. A page that must be served holds it. DESIGN CHOICE (log entry 144): where both ends fail, the
destination's fault is the batch's. -/
def sendElem (e : State) (c : Chip) (id i : Nat) (b : Batch) (x : Elem) : Chip :=
  let put := fun (c : Chip) (v : Nat) => c.setBatch id (b.setElem i (fun y => { y with sent := true, data := some (BitVec.ofNat 128 v) }))
  match targetSpot e c b x with
  | .hold => demoteTarget e c b x
  | .bad cause sub => faultBatch e c id b cause sub x.dst.toNat
  | _ =>
    match sourceSpot e c b x with
    | .hold => c
    | .bad cause sub => faultBatch e c id b cause sub x.src.toNat
    | .local_ team off =>
      if (c.team team).poisonedAt off x.size then faultBatch e c id b causeUncorrectable 3 off
      else put c (c.readLocal team off x.size)
    | .global p dev =>
      let c := touch e c (c.coreOf b.th) (c.ctxOf b.th) x.src.toNat false
      match dev with
      | some d =>
        let (v, c) := c.freeValue
        let (w, c) := c.freeValue
        put (c.tell (unitMessage d p x.size false 0)) ((v ++ w).toNat % 2 ^ (8 * x.size))
      | none => match poisonAt e c p x.size with
        | some sub => faultBatch e c id b causeUncorrectable sub x.src.toNat
        | none =>
          let (v, c) := carterRead e c (c.coreOf b.th) p x.size
          put c v

/-- Writing an element's data at its destination; its progress bit is set. -/
def landElem (e : State) (c : Chip) (id i : Nat) (b : Batch) (x : Elem) (data : BitVec 128) : Chip :=
  let done := fun (c : Chip) => match Sparse.find? c.batches id with
    | some b => c.setBatch id (b.setElem i (fun y => { y with done := true, data := none }))
    | none => c
  match targetSpot e c b x with
  | .hold => demoteTarget e c b x
  | .bad cause sub =>
    faultBatch e (c.setBatch id (b.setElem i (fun y => { y with sent := false, data := none }))) id (b.setElem i (fun y => { y with sent := false, data := none })) cause sub x.dst.toNat
  | .local_ team off => done ((c.writeLocal team off x.size data.toNat).stampLocal team (c.coreOf b.th))
  | .global p dev =>
    let c := touch e c (c.coreOf b.th) (c.ctxOf b.th) x.dst.toNat true
    match dev with
    | some d => done (c.tell (unitMessage d p x.size true data.toNat))
    | none => done (agentWrite e c (if (c.team (c.teamOf b.th)).core.isSome then some (c.coreOf b.th) else none) p x.size data.toNat)

/-- CARTER_TRANSFER_UNIT: the elements of a unit that may be sent are sent. -/
def execCarterTransferUnit (unit : Nat) (s : State) : Host.Outcome State Fault Refusal :=
  event (fun e =>
    (e.now.batches.flatMap (fun p => (List.range p.2.elems.length).map (fun i => (p.1, i)))).foldl (fun c q =>
      match Sparse.find? c.batches q.1 with
      | none => c
      | some b => match b.elems[q.2]? with
        | some x => if x.unit = unit && c.maySend b x then sendElem e c q.1 q.2 b x else c
        | none => c) e.now) s

/-- COPY_ELEMENT: an element is performed; one not yet sent is sent with it. -/
def execCopyElement (batch elem : Nat) (s : State) : Host.Outcome State Fault Refusal :=
  event (fun e =>
    let c := match Sparse.find? e.now.batches batch with
      | some b => match b.elems[elem]? with
        | some x => if e.now.maySend b x then sendElem e e.now batch elem b x else e.now
        | none => e.now
      | none => e.now
    match Sparse.find? c.batches batch with
    | none => c
    | some b => match b.elems[elem]? with
      | none => c
      | some x => match x.data with
        | some d => if !x.done && (c.team (c.teamOf b.th)).core.isSome then landElem e c batch elem b x d else c
        | none => c) s

/-! Resolution (14 R303, R305, R311). -/

/-- Elements delivered. -/
def Batch.delivered (b : Batch) : Nat := (b.elems.filter (·.done)).length

/-- Whether nothing more of a batch will be performed. -/
def Batch.settled (b : Batch) : Bool :=
  b.committed.isSome && (if b.cancel || b.fault.isSome then b.elems.all (fun x => !x.sent || x.done) else b.elems.all (·.done))

/-- The status word of a batch that resolves. -/
def Batch.status (b : Batch) : Nat :=
  match b.fault with
  | some (cause, sub) => 2 * 2 ^ 28 + cause + 256 * sub + 65536 * min (b.elems.length - b.delivered) 4095
  | none =>
    if b.delivered = b.elems.length then 0
    else if b.delivered = 0 then 2 ^ 28 else 3 * 2 ^ 28 + b.delivered

/-- Whether every batch its thread committed earlier has resolved. -/
def Chip.batchFirst (c : Chip) (b : Batch) : Bool :=
  !c.batches.any (fun p => decide (p.2.th = b.th) && (match p.2.committed, b.committed with
    | some m, some n => decide (m < n)
    | _, _ => false))

/-- A settled batch resolves: its flag written after its last element where it ends in state 0, its handle, its entry gone. Its
completion is a release at its scope, and whoever consumes the handle acquires (10 R221). -/
def resolveBatch (e : State) (c : Chip) (id : Nat) (b : Batch) : Chip :=
  let c := match (c.team (c.teamOf b.th)).core with
    | some k => releaseAt e c c.nextId { th := b.th, core := k, op := .fence, scope := b.scope }
    | none => c
  let c := match b.flag with
    | some (off, v) => if b.status = 0 then c.writeLocal (c.teamOf b.th) off 4 v.toNat else c
    | none => c
  let c := { c with batches := Sparse.erase c.batches id }
  match b.handle with
  | some h => c.resolve h (BitVec.ofNat 32 b.status)
  | none => c

/-- BATCH_RESOLVE. -/
def execBatchResolve (batch : Nat) (s : State) : Host.Outcome State Fault Refusal :=
  event (fun e => match Sparse.find? e.now.batches batch with
    | some b => if b.settled && e.now.batchFirst b && (e.now.team (e.now.teamOf b.th)).core.isSome then resolveBatch e e.now batch b else e.now
    | none => e.now) s

/-! Saved teams (14 R317, R318). -/

/-- Freeing the remap entries of a team with nothing in flight. -/
def Chip.freeRemap (c : Chip) (team : Nat) : Chip :=
  if c.inFlight team then c
  else { c with cores := Sparse.mapVals (fun _ (k : Core) => { k with remap := k.remap.filter (· != team) }) c.cores }

/-- Resolving what a late element completes of its thread's batches, in commit order. -/
def resolveLate (e : State) : Nat → Chip → Nat → Chip
  | 0, c, _ => c
  | n + 1, c, th =>
    match List.find? (fun (p : Nat × Batch) => decide (p.2.th = th) && p.2.settled && c.batchFirst p.2) c.batches with
    | some p => resolveLate e n (resolveBatch e c p.1 p.2) th
    | none => c

/-- The clock floor of a saved team's context is no earlier than a late element's write, so that nothing the team does once it has
resumed is ordered before it (12 R273). -/
def noteLate (e : State) (c : Chip) (team : Nat) (b : Batch) (x : Elem) : Chip :=
  match targetSpot e c b x with
  | .global p none =>
    let k := (c.team team).ctx
    c.setCtx k { c.ctx k with floor := max (c.ctx k).floor (c.line e (lineOf p)).wts }
  | _ => c

/-- REMAP_WRITE: a late element of a saved team is written through its remap entry: the saved team, and its image, as if it had
been delivered before the save. -/
def execRemapWrite (batch elem : Nat) (s : State) : Host.Outcome State Fault Refusal :=
  event (fun e =>
    let c := e.now
    match Sparse.find? c.batches batch with
    | none => c
    | some b =>
      let team := c.teamOf b.th
      match b.elems[elem]? with
      | none => c
      | some x => match x.data with
        | some d =>
          if x.done || !c.cores.any (fun k => k.2.remap.contains team) then c
          else
            let c := landElem e c batch elem b x d
            let c := noteLate e c team b x
            let c := (resolveLate e c.batches.length c b.th).freeRemap team
            refreshImage e c (c.ctxOf b.th)
        | none => c) s

/-- REMAP_TIMEOUT: 100 µs after the save, elements still bound for team-local memory are undelivered: their data is discarded,
and they are sent again on resume. DESIGN CHOICE (log entry 146): those of a batch that was cancelled or has faulted are not sent again; the
rules do not say. -/
def execRemapTimeout (team : Nat) (s : State) : Host.Outcome State Fault Refusal :=
  event (fun e =>
    let c := e.now
    if (c.team team).core.isSome || !c.cores.any (fun k => k.2.remap.contains team) then c
    else
      let undo := fun (x : Elem) => if x.sent && !x.done && (decide (x.kind = 0) || decide (x.kind = 3)) then { x with sent := false, data := none } else x
      let c := { c with batches := Sparse.mapVals (fun _ (b : Batch) => if c.teamOf b.th = team then { b with elems := b.elems.map undo } else b) c.batches }
      refreshImage e (c.freeRemap team) (c.team team).ctx) s

end Sys2Proof.Machine
end

