-- ==== Sys2Proof/Machine/Drover.lean ====
section
/-! DEFINITION. The page-fault service and the drover: migrations, command records, the frame pool, promotions, and page leases
(17 R372 to R377, R383, R384, R490). -/

namespace Sys2Proof.Machine

/-! Reading and writing a context's own structures. -/

/-- The physical address at which the device reads a context's memory: its own, or the copy of another device's page that it holds under
a lease. -/
def deviceRead (e : State) (c : Chip) (ctx va : Nat) : Option Nat :=
  if pageAway e c ctx va then none else match translate e c 0 ctx .supervisor va .read with
  | .ok p _ dev => if dev.isNone || leaseGood e p then some p else none
  | _ => none

/-- An access of the device to a context's memory is held (17 R372): its page is to be served or moves, another device must be asked (log
entry 6) or must hand it back, or the bank that homes it wakes. -/
def deviceWaits (e : State) (c : Chip) (ctx va : Nat) : Bool :=
  pageAway e c ctx va || match translate e c 0 ctx .supervisor va .read with
  | .ok p _ dev => if dev.isNone || leaseGood e p then c.bankWaking p else true
  | .fault .. => false
  | .serve => true
  | .migrating => true

/-- The leaf of a 64 KiB page: the entry and its address. -/
def pageLeaf (e : State) (c : Chip) (ctx va : Nat) : Option (Nat × Nat) :=
  match walk e c ctx va with
  | .leaf x at_ 3 => some (x, at_)
  | _ => none

/-- An entry with another state, and another frame. -/
def Pte.withState (x st : Nat) : Nat := x - Pte.state x * 256 + st * 256
def Pte.withFrame (x frame : Nat) : Nat := x - Pte.frame x + frame

/-! The frame pool (17 R376). -/

/-- A pool entry names a near frame that has not been used. -/
def poolGood (x : Nat) : Bool := decide (x % 65536 = 0) && decide (x < 2 ^ 48) && isHbm x

/-- The frame at POOLHEAD, ill-formed entries passed over; none while the pool is empty. -/
def takeFrame (e : State) : Nat → Chip → Nat → Option Nat × Chip
  | 0, c, _ => (none, c)
  | n + 1, c, ctx =>
    let x := c.ctx ctx
    if x.poolbase = 0 ∨ x.poolhead = x.pooltail then (none, c)
    else match deviceRead e c ctx (x.pool + 8 * (x.poolhead.toNat % 1024)) with
      | none => (none, c)
      | some p =>
        let v := peek e c p 8
        let c := touch e c 0 ctx (x.pool + 8 * (x.poolhead.toNat % 1024)) false
        if poolGood v then (some v, c) else takeFrame e n (c.setCtx ctx { c.ctx ctx with poolhead := x.poolhead + 1 }) ctx

/-- The pool entry at POOLHEAD is used: the frame it freed, its bit [0], and the head past it. -/
def usePool (e : State) (c : Chip) (ctx freed : Nat) : Chip :=
  let x := c.ctx ctx
  let c := defer e c (.word ctx (x.pool + 8 * (x.poolhead.toNat % 1024)) 8 (freed + 1) 0)
  c.setCtx ctx { c.ctx ctx with poolhead := x.poolhead + 1 }

/-- A promotion of a context that uses the pool is in flight. -/
def Chip.poolBusy (c : Chip) (ctx : Nat) : Bool := c.migrations.any (fun m => decide (m.ctx = ctx) && m.pool.isSome)

/-! Migrations (17 R373). -/

/-- The barn die of a migration: that of its far frame, barn die 1 for a frame of the expanders on its port (20 R440). -/
def Migration.barn (m : Migration) : Nat := (barnOfPhys (if m.toNear then m.source else m.target)).getD 1

/-- Steps 1 and 2: the entry becomes migrating, and the page leaves every TLB. -/
def startMigration (e : State) (c : Chip) (ctx va target : Nat) (ring pool : Option Nat) : Chip :=
  match pageLeaf e c ctx va with
  | none => c
  | some (x, at_) =>
    let m : Migration := { ctx := ctx, va := va, entryAt := at_, source := Pte.frame x, target := target, toNear := isHbm target
                           ring := ring, pool := pool, fromState := Pte.state x }
    if Config.migrations ≤ (c.migrations.filter (fun k => decide (k.barn = m.barn))).length ∨ c.cowHeld m.source = true then c
    else
      let c := agentWrite e c none at_ 8 (Pte.withState x 2)
      let c := c.shoot ctx (some va)
      { c with migrations := c.migrations ++ [m] }

/-- The migration of a page. -/
def Chip.migrationOf (c : Chip) (ctx va : Nat) : Option Migration :=
  c.migrations.find? (fun m => decide (m.ctx = ctx) && decide (m.va / 65536 = va / 65536))

/-- Accesses that translated to a frame are still to be performed. -/
def Chip.frameBusy (c : Chip) (frame : Nat) : Bool :=
  c.accesses.any (fun p => !p.2.performed && p.2.loc.isNone && decide (p.2.size ≠ 0) && decide (p.2.phys / 65536 = frame / 65536))

/-- The bytes of a line of memory, with their poison, to another line. -/
def moveBytes (s : State) (a b : Nat) : State :=
  let mem := (List.range 32).foldl (fun m i => Memory.writeN m (128 * b + 4 * i) 4 (Memory.readN s.mem (128 * a + 4 * i) 4)) s.mem
  let poisoned := (List.range 32).foldl (fun p i => match chunkPoison s s.now (128 * a + 4 * i) with
    | some k => Sparse.set p (32 * b + i) k
    | none => Sparse.erase p (32 * b + i)) s.board.poisoned
  { s with mem := mem, board := { s.board with poisoned := poisoned } }

/-- A line of the source to the same line of the target (17 R373, 12 R274): what is in progress there answered, owned words recalled, dirty
words written back, the bytes copied. A line that a slice holds keeps its times; any other is refilled at the memts of its new slice,
which is no earlier than that of the old (log entry 115). No copy of the target's old line stays. -/
def moveLine (src dst : Nat) (s : State) (i : Nat) : State :=
  let a := src / 128 + i
  let b := dst / 128 + i
  let c := quietLine s (quietLine s s.now a) b
  let c := if (c.line s a).releasers.isEmpty then c else promoteLine s c a
  let s := cleanLine { s with now := recallNow s (recallNow s c a allWords) b allWords } a
  let s := moveBytes s a b
  let c := s.now
  let x := c.sliceAt (sliceOf b)
  let c := { c with cores := Sparse.mapVals (fun _ (k : Core) => { k with l1 := Sparse.erase k.l1 b }) c.cores }
  match Sparse.find? c.home a with
  | some _ =>
    let h := c.line s a
    { s with now := c.setLine b { h with owned := 0, owner := none, state := .shared, hshare := false, dirty := 0, held := [], conflict := [], recalled := 0 } }
  | none =>
    { s with now := ({ c with home := Sparse.erase c.home b }).setSlice (sliceOf b) { x with memts := max x.memts (memts c a) } }

/-- The lines of a page. -/
def movePage (s : State) (src dst : Nat) : State := (List.range 512).foldl (moveLine src dst) s

/-- MIGRATION: steps 3 and 4, once every access that used the old translation has been performed. -/
def execMigration (ctx va : Nat) (s : State) : Host.Outcome State Fault Refusal :=
  eventS (fun s => match s.now.migrationOf ctx va with
    | none => s
    | some m =>
      if m.copied || s.now.frameBusy m.source then s
      else
        let s := movePage s m.source m.target
        { s with now := { s.now with migrations := s.now.migrations.map (fun k => if k = m then { k with copied := true } else k) } }) s

/-- Resolving the soft-fault handles of a page. -/
def Chip.resolvePage (c : Chip) (ctx va status : Nat) : Chip :=
  (Sparse.keysWhere (fun _ h => match h.of with | .page x a => decide (x = ctx) && decide (a / 65536 = va / 65536) | _ => false) c.handles).foldl
    (fun c h => c.resolve h (BitVec.ofNat 32 status)) c

/-- Completing a command record, and the head past the records that have completed in ring order (17 R374). -/
def completeRecord (e : State) (c : Chip) (ctx n word : Nat) : Chip :=
  let x := c.ctx ctx
  let c := defer e c (.word ctx (x.ring + 16 * (n % 256) + 8) 8 word 0)
  let done := n :: x.drvDone
  let rec advance : Nat → Word → Word
    | 0, h => h
    | k + 1, h => if done.contains h.toNat then advance k (h + 1) else h
  let head := advance 256 x.drvqhead
  c.setCtx ctx { c.ctx ctx with drvqhead := head, drvDone := done.filter (fun k => decide ((k + 2 ^ 32 - head.toNat) % 2 ^ 32 < 256)) }

/-- The completion word of a record: its op, the frame freed, a detail and the status. -/
def recordWord (op frame detail status : Nat) : Nat := op + frame + 2 ^ 48 * detail + 2 ^ 60 * status

/-- Steps 5 and 6: the entry, then those that watched the page where it stood are woken (13 R298; log entry 112). -/
def endMigration (e : State) (c : Chip) (m : Migration) : Chip :=
  let x := peek e c m.entryAt 8
  let c := agentWrite e c none m.entryAt 8 (Pte.withFrame (Pte.withState x (if m.toNear then 0 else 1)) m.target)
  let c := { c with migrations := c.migrations.filter (· != m) }
  let c := (c.fireFrame m.source 65536).moveDoors m.source m.target 65536
  let k := c.ctx m.ctx
  let c := c.setCtx m.ctx { k with
    cow := k.cow.map (fun f => if f = m.source / 65536 then m.target / 65536 else f) }
  let c := match m.ring with
    | some n => completeRecord e c m.ctx n (recordWord (if m.toNear then 0 else 1) m.source 0 1)
    | none => c
  let c := match m.pool with
    | some _ => usePool e c m.ctx m.source
    | none => c
  flushDeferred e (c.resolvePage m.ctx m.va 0)

/-- MIGRATION_COMPLETE. -/
def execMigrationComplete (ctx va : Nat) (s : State) : Host.Outcome State Fault Refusal :=
  event (fun e => match e.now.migrationOf ctx va with
    | some m => if m.copied then endMigration e e.now m else e.now
    | none => e.now) s

/-! The page-fault service (17 R490). -/

/-- An address that can name a record or a header (09 R185, R187). -/
def recordForm (a : Nat) : Bool := decide (a ≠ 0) && decide (a % 128 = 0) && decide (a / 2 ^ 55 = 0)

/-- What the steward reads of a queue: the header, the record named by taken, the next one, and its constant bank (09 R191, R193). -/
def queueReads (e : State) (c : Chip) (ctx header : Nat) : List Nat :=
  let at_ := fun (a off : Nat) => (deviceRead e c ctx (a + off)).elim 0 (fun p => peek e c p 8)
  let taken := at_ header 0x10
  let next := if recordForm taken then at_ taken 0 else 0
  let bank := at_ next 0x28
  header :: (if recordForm taken then [taken] else []) ++ (if recordForm next then [next] else []) ++
    (if recordForm next && decide (bank % 128 = 0) && decide (bank / 2 ^ 55 = 0) then (List.range 32).map (fun i => bank + 128 * i) else [])

/-- What the steward and the drover read of a context's memory: its queues, what its launches name, its command ring and its pool. -/
def unitReads (e : State) (c : Chip) (ctx : Nat) : List Nat :=
  let x := c.ctx ctx
  let table := (List.range (min x.qtlen 256)).map (fun i => x.table + 8 * i)
  let headers := (table.filterMap (fun a => (deviceRead e c ctx a).map (fun p => peek e c p 8))).filter recordForm
  let launches := (c.launches.filter (fun p => decide (p.2.ctx = ctx) && decide (p.2.state ≠ .retired) && decide (p.2.state ≠ .killed))).flatMap (fun p =>
    (if p.2.doneAddr = 0 then [] else [p.2.doneAddr]) ++ p.2.afters ++ (List.range 32).map (fun i => p.2.kbank + 128 * i))
  table ++ headers.flatMap (queueReads e c ctx) ++ launches ++
    (if x.drvTaken = x.drvqtail then [] else [x.ring + 16 * (x.drvTaken.toNat % 256)]) ++
    c.deferred.filterMap (fun d => if (d.page c).1 = ctx then some (65536 * (d.page c).2) else none) ++ (if x.poolbase = 0 then [] else [x.pool + 8 * (x.poolhead.toNat % 1024)])

/-- Whether some access has faulted on a page or is held on it: a handle, a thread, an element, a plough stream, a fetch, or the steward and
the drover themselves. -/
def demanded (e : State) (c : Chip) (ctx va : Nat) : Bool :=
  let page := va / 65536
  c.handles.any (fun p => match p.2.of with | .page x a => decide (x = ctx) && decide (a / 65536 = page) | _ => false) ||
  c.threads.any (fun p => decide (c.ctxOf p.1 = ctx) && (match p.2.held with | some (a, _) => decide (a / 65536 = page) | none => false)) ||
  c.batches.any (fun p => decide (c.ctxOf p.2.th = ctx) && p.2.committed.isSome && p.2.elems.any (fun x => !x.done &&
    ((decide (x.kind ≠ 1) && decide (x.src.toNat / 65536 = page)) || (decide (x.kind ≠ 0) && decide (x.dst.toNat / 65536 = page))))) ||
  c.press.any (fun p => decide ((c.team p.2.team).ctx = ctx) && decide (p.2.addr / 65536 = page) && pressHeld e c p.2) ||
  c.groups.any (fun p => decide ((c.team p.2.team).ctx = ctx) && p.2.resident && (List.range 4).any (fun n => p.2.plough.active n &&
    (c.alive p.1).any (fun t => decide ((p.2.plough.address n (laneOf t) (Sparse.get 0 p.2.plough.next n)).toNat / 65536 = page)))) ||
  c.crofts.any (fun p => p.2.pens.any (fun q => decide (q.2.ctx = ctx) && decide (q.2.level ≠ .firmware) && decide ((q.2.pc.toNat / 65536 = page) ∨ ((q.2.pc.toNat + 12) / 65536 = page)))) ||
  (unitReads e c ctx).any (fun a => decide (a / 65536 = page) && deviceWaits e c ctx a)

/-- The status of a page's service that fails. -/
def serviceFailed : Nat := 2 * 2 ^ 28 + causePage

/-- Filling an absent page: zeros in a pool frame, then the entry near with A and D clear. -/
def fillPage (e : State) (c : Chip) (ctx va x at_ frame : Nat) : Chip :=
  let c := (List.range 512).foldl (fun c i =>
    let b := frame / 128 + i
    let c := recallNow e c b allWords
    let k := c.line e b
    let c := c.setLine b { k with wts := k.rts + 1, rts := k.rts + 1, data := 0, dirty := allWords, poison := 0 }
    { c with cores := Sparse.mapVals (fun _ (y : Core) => { y with l1 := Sparse.erase y.l1 b }) c.cores }) c
  let y := Pte.withFrame (Pte.withState x 0) frame
  let y := y - (if bitAt y 6 then 64 else 0) - (if bitAt y 7 then 128 else 0)
  let c := agentWrite e c none at_ 8 y
  flushDeferred e ((usePool e c ctx 0).resolvePage ctx va 0)

/-- Serving a page in hardware mode. -/
def servePage (e : State) (c : Chip) (ctx va : Nat) : Chip :=
  match walk e c ctx va with
  | .bad .. => c.resolvePage ctx va serviceFailed
  | .poison _ => c.resolvePage ctx va serviceFailed
  | .leaf x at_ level =>
    let big := decide (level ≠ 3)
    match Pte.state x with
    | 1 => if big || bitAt x 12 then c.resolvePage ctx va 0
        else if c.poolBusy ctx then c
        else match takeFrame e 1024 c ctx with
          | (some f, c) => startMigration e c ctx (va / 65536 * 65536) f none (some f)
          | (none, c) => c
    | 2 => c
    | 5 => if big || !bitAt x 11 then c.resolvePage ctx va serviceFailed
        else if c.poolBusy ctx then c
        else match takeFrame e 1024 c ctx with
          | (some f, c) => fillPage e c ctx va x at_ f
          | (none, c) => c
    | 6 => c.resolvePage ctx va serviceFailed
    | _ => c.resolvePage ctx va 0

/-- In host-assisted mode the service watches the entry that the host writes. -/
def watchPage (e : State) (c : Chip) (ctx va : Nat) : Chip :=
  match walk e c ctx va with
  | .leaf x _ level =>
    match Pte.state x with
    | 1 => if decide (level ≠ 3) || bitAt x 12 then c.resolvePage ctx va 0 else c
    | 2 => c
    | 5 => if bitAt x 11 && decide (level = 3) then c else c.resolvePage ctx va serviceFailed
    | 6 => c.resolvePage ctx va serviceFailed
    | _ => c.resolvePage ctx va 0
  | _ => c.resolvePage ctx va serviceFailed

/-- PAGE_FAULT_SERVICE: a page some access has faulted on or is held on is served, once for all of them; one that is checked out is
recalled (17 R384). -/
def execPageFaultService (ctx va : Nat) (s : State) : Host.Outcome State Fault Refusal :=
  event (fun e =>
    if !demanded e e.now ctx va then e.now
    else if pageAway e e.now ctx va then touch e e.now 0 ctx va false
    else if e.board.split.getLsbD 0 then watchPage e e.now ctx va
    else servePage e e.now ctx va) s

/-- HOLD_LIMIT_EXPIRY: a thread whose memory word is held HOLDLIM ticks on a migrating page soft-faults; a held fetch stalls on, and so
does the transfer to a continuation whose page is held (17 R372, R377, R378). -/
def execHoldLimitExpiry (th : Nat) (s : State) : Host.Outcome State Fault Refusal :=
  event (fun e =>
    let c := e.now
    let x := c.thread th
    match x.held, x.heldWord with
    | some (va, n), some (raw, slot) =>
      if (c.ctx (c.ctxOf th)).holdlim ≤ n ∧ heldPage e c th = true ∧ c.maySoft th = true ∧ c.mayRun (c.teamOf th) = true then
        match badContinuation e c th with
        | some k =>
          let vec := (c.team (c.teamOf th)).contvec
          takeTrap e c th x.pc x.pc causeChain raw (BitVec.ofNat 32 (slot + 16 * k)) (vec.extractLsb' 0 32) (vec.extractLsb' 32 32)
        | none =>
          if (targetHeld e c (c.coreOf th) (c.ctxOf th) x.level (c.team (c.teamOf th)).contvec).isSome then c
          else
            let c := enterSoftFault c th x.pc va
            c.moveThread th (c.thread th).level (c.thread th).pc
      else c
    | _, _ => c) s

/-! Promotion by count (17 R375) and page leases (17 R383). -/

/-- FAR_PAGE_PROMOTION. -/
def execFarPagePromotion (ctx va : Nat) (s : State) : Host.Outcome State Fault Refusal :=
  event (fun e =>
    let c := e.now
    let x := c.ctx ctx
    let n := Sparse.get 0 x.farCount (va / 65536)
    match pageLeaf e c ctx va with
    | some (y, _) =>
      if !x.drvcount || decide (n = 0) || decide (n < 16 * x.drvthresh) || decide (Pte.state y ≠ 1) || c.poolBusy ctx then c
      else match takeFrame e 1024 c ctx with
        | (some f, c) => startMigration e c ctx (va / 65536 * 65536) f none (some f)
        | (none, c) => c
    | none => c) s

/-! Command records (17 R374, R384). -/

/-- The write time of a page: the largest rts of its lines, in domain ticks (17 R384). -/
def pageTime (e : State) (c : Chip) (base : Nat) : Nat :=
  Config.domainTime (((List.range 512).map (fun i => (c.line e (base / 128 + i)).rts)).foldl max 0) e.board.dtick

/-- The lines of a page to another device, then its write time (17 R382, R384). -/
def tellPage (e : State) (c : Chip) (dev base addr : Nat) : Chip :=
  let c := (List.range 512).foldl (fun (c : Chip) i =>
    c.tell { bulk dev opLine (addr + 128 * i) with size := 128, data := (c.line e (base / 128 + i)).data }) c
  c.tell { bulk dev opPageTime addr with size := 8, data := BitVec.ofNat 1024 (pageTime e c base) }

/-- The giving side (17 R384): the release lists drained as far as they hold lines of the page, owned lines recalled, the page's lines sent
and gone from the device. -/
def giveUpPage (e : State) (c : Chip) (dev base addr : Nat) : Chip :=
  let mine := fun (ln : Nat) => decide (base / 128 ≤ ln) && decide (ln < base / 128 + 512)
  let c := c.cores.foldl (fun c k => match (k.2.release.filter mine).getLast? with
    | some ln => settle e c (.drain k.1 (some ln))
    | none => c) c
  let c := (List.range 512).foldl (fun c i => recallNow e (quietLine e c (base / 128 + i)) (base / 128 + i) allWords) c
  let c := tellPage e c dev base addr
  { c with
    home := Sparse.only (fun ln _ => !mine ln) c.home
    cores := Sparse.mapVals (fun _ (x : Core) => { x with l1 := Sparse.only (fun ln _ => !mine ln) x.l1 }) c.cores }

/-- What a record makes the drover do: start a migration, finish at once with a freed frame, change the entry, or refuse with a
state. -/
inductive Command where
  | migrate (frame : Nat)
  | done
  | checkOut (x at_ : Nat)
  | giveBack (x at_ : Nat)
  | refuse (state : Nat)
  | wait

/-- Reading a record (17 R374, R387). -/
def readCommand (e : State) (c : Chip) (ctx va word : Nat) : Command :=
  let op := word % 4
  let frame := fieldNat word 16 32 * 65536
  if va % 65536 ≠ 0 ∨ va / 2 ^ 55 ≠ 0 ∨ fieldNat word 2 14 ≠ 0 ∨ word / 2 ^ 48 ≠ 0 ∨ (2 ≤ op ∧ frame ≠ 0) then
    .refuse (match walk e c ctx va with | .leaf x _ _ => Pte.state x | _ => 0)
  else match walk e c ctx va with
    | .leaf x at_ 3 =>
      let st := Pte.state x
      if st = 2 then .wait
      else if op = 0 then (if st = 0 then .done else if st = 1 ∧ isHbm frame then .migrate frame else .refuse st)
      else if op = 1 then (if st = 1 then .done else if st = 0 ∧ isFar frame ∧ populated e frame then .migrate frame else .refuse st)
      else if op = 2 then (if st = 4 then .done else if st = 3 then .checkOut x at_ else .refuse st)
      else (if st = 3 then .done else if st = 4 then .giveBack x at_ else .refuse st)
    | .leaf x _ _ => .refuse (Pte.state x)
    | _ => .refuse 0

/-- DROVER_COMMAND: the next record of a context's ring is taken; one that names a migrating page waits. -/
def execDroverCommand (ctx : Nat) (s : State) : Host.Outcome State Fault Refusal :=
  event (fun e =>
    let c := e.now
    let x := c.ctx ctx
    let n := x.drvTaken.toNat
    if x.drvTaken = x.drvqtail ∨ x.state = .killed ∨ x.state = .retired then c
    else match deviceRead e c ctx (x.ring + 16 * (n % 256)) with
      | none => c
      | some p =>
        let va := peek e c p 8
        let word := peek e c (p + 8) 8
        let taken := fun (c : Chip) =>
          let c := touch e c 0 ctx (x.ring + 16 * (n % 256)) false
          c.setCtx ctx { c.ctx ctx with drvTaken := x.drvTaken + 1 }
        let op := word % 4
        match readCommand e c ctx va word with
        | .wait => c
        | .done => completeRecord e (taken c) ctx n (recordWord op 0 0 1)
        | .refuse st => completeRecord e (taken c) ctx n (recordWord op 0 st 2)
        | .migrate frame =>
          let d := startMigration e c ctx va frame (some n) none
          if d.migrations.length = c.migrations.length then c else taken d
        | .checkOut y at_ =>
          let base := copyBase (Pte.dev y) + Pte.frame y
          let c := agentWrite e (checkOutPage e (taken c) base) none at_ 8 (Pte.withState y 4)
          let c := (c.shoot ctx (some va)).tell (bulk (Pte.dev y) opCheckout (Pte.frame y))
          completeRecord e c ctx n (recordWord op 0 0 1)
        | .giveBack y at_ =>
          let base := copyBase (Pte.dev y) + Pte.frame y
          if c.frameBusy base then c
          else
            let c := agentWrite e (giveUpPage e (taken c) (Pte.dev y) base (Pte.frame y)) none at_ 8 (Pte.withState y 3)
            let c := (c.shoot ctx (some va)).tell (bulk (Pte.dev y) opReturn (Pte.frame y))
            completeRecord e c ctx n (recordWord op 0 0 1)) s

end Sys2Proof.Machine
end

