-- ==== Sys2Proof/Machine/Queue.lean ====
section
/-! DEFINITION. Appending to queues and reading the steward's view, major 0x3D (09 R190, R196 to R200). -/

namespace Sys2Proof.Machine

/-- An address that names no record and no header: bits [6:0] or [63:55] set (09 R200). -/
def queueAddressBad (a : BitVec 64) : Bool := decide (a.toNat % 128 ≠ 0) || decide (a.toNat / 2 ^ 55 ≠ 0)

/-- QUEUE_FAULT with an address (09 R197, R200). -/
def queueTrap (slot sub : Nat) (a : BitVec 64) : Verdict :=
  .trap causeQueue 0 (BitVec.ofNat 32 (slot + 16 * sub)) (a.extractLsb' 0 32) (a.extractLsb' 32 32)

/-- A write of an address must wait: for a bank that wakes (23 R481), or for leases that are still out (17 R383). -/
def appendWaits (e : State) (t : Nat) (ea : BitVec 64) : Bool :=
  match threadTrans e e.now t ea true with
  | .ok p _ none => e.now.bankWaking p || leasePending e p
  | _ => false

/-- The checks of an append: the forms of both addresses, then their translations as a store's (09 R197). -/
def appendVerdict (e : State) (t slot : Nat) (record header : BitVec 64) : Option Verdict :=
  if queueAddressBad record then some (queueTrap slot 1 record)
  else if queueAddressBad header then some (queueTrap slot 2 header)
  else (transVerdict e t slot record true).orElse (fun _ => (transVerdict e t slot header true).orElse (fun _ =>
    if appendWaits e t record || appendWaits e t header then some .notReady else none))

/-- An owned release store of 8 bytes at device scope by a thread, its release made (09 R197): every other owner recalled, a host copy
back-invalidated in the same step (log entry 15), the line owned. A host line is written at its home. A message takes it to another
device. -/
def releaseStore (e : State) (c : Chip) (t : Nat) (ea : BitVec 64) (data : Nat) : Chip :=
  match threadTrans e c t ea true with
  | .ok p _ dev =>
    let k := c.coreOf t
    let ln := lineOf p
    let c := touch e c k (c.ctxOf t) ea.toNat true
    match dev with
    | some d => c.tell { peer := d, kind := 1, addr := p % 2 ^ 48, size := 8, flow := k, data := BitVec.ofNat 1024 data }
    | none =>
      if isHost p then agentWrite e c (some k) p 8 data
      else
        let c := (c.drainable k ln).foldl (fun c id => establishNow e c id) (c.wakeBank p)
        ownedStore (ownNow e c k (c.ctxOf t) p) k t p 8 data
  | _ => c

/-- The link of an append (09 R190, R197): an owned release store at device scope that is still outstanding when the instruction
commits, and that no counter counts; an address that does not translate takes none (log entry 61). On a page that moves or is to be served it
is held (17 R373): what it releases has been released with the append's first store. -/
def linkStore (e : State) (c : Chip) (t : Nat) (prev : BitVec 64) (record : BitVec 64) : Chip :=
  let held := match threadTrans e c t prev true with
    | .serve => true
    | .migrating => true
    | _ => false
  if held then defer e c (.word (c.ctxOf t) prev.toNat 8 record.toNat 0)
  else request e c t [] { op := .store, kind := 1, order := 2, scope := 2, size := 8, data := record.setWidth 128, detached := true } prev

/-- An append by one thread (09 R190, R197): next := 0 with the release of the thread's earlier stores; the exchange on the
header's tail at its home, unless the queue is disabled; the link. The answer says whether the queue was enabled. What a header on
another device holds, and a poisoned one, are free values (log entry 6, 21 R454). -/
def append (e : State) (c : Chip) (t : Nat) (record header : BitVec 64) : Bool × Chip :=
  let k := c.coreOf t
  let c := releaseAt e c c.nextId { th := t, core := k, op := .fence, scope := 2 }
  let c := releaseStore e c t record 0
  match threadTrans e c t header true with
  | .ok q _ dev =>
    let c := touch e c k (c.ctxOf t) header.toNat true
    let exchange := fun (c : Chip) (prev : BitVec 64) => linkStore e (agentWrite e c (some k) (q + 8) 8 record.toNat) t prev record
    match dev, (poisonAt e c (q + 8) 8).orElse (fun _ => poisonAt e c (q + 0x18) 4) with
    | some d, _ =>
      let (on, c) := c.freeValue
      let (prev, c) := c.freeValue
      let c := c.tell { peer := d, kind := 2, op := opAppend, addr := q % 2 ^ 48, size := 8, flow := k, data := record.setWidth 1024 }
      if on.getLsbD 0 then (true, linkStore e c t prev record) else (false, c)
    | none, some sub =>
      let (on, c) := c.freeValue
      let (prev, c) := c.freeValue
      let c := c.consume t ((e.issue.map Issue.slot).getD 0) sub header.toNat
      if on.getLsbD 0 then (true, exchange c prev) else (false, c)
    | none, none =>
      let c := quietLine e c (lineOf q)
      if bitAt (peek e c (q + 0x18) 4) 0 then (true, exchange c (BitVec.ofNat 64 (peek e c (q + 8) 8))) else (false, c)
  | _ => (false, c)

/-- A rollback team's append leaves the team, so its interval is committed early (21 R459). -/
def appendEarly (e : State) (c : Chip) (t : Nat) : Chip :=
  if (c.team (c.teamOf t)).rollback then commitNow e c (c.teamOf t) else c

/-- LAUNCH: the handle resolves with the completion word; to a disabled queue it is resolved at once, subcode 12. -/
def execLaunch (c : Bool) (d : BitVec 7) (a b : BitVec 6) (s : State) : Host.Outcome State Fault Refusal :=
  runWord (.launch c d a b) (fun e t slot => appendVerdict e t slot (e.now.vv t (2 * a.toNat)) (e.now.vv t (2 * b.toNat)))
    (once false (fun e t takers m =>
      let record := e.now.vv t (2 * a.toNat)
      let (ok, m) := append e (appendEarly e m t) t record (e.now.vv t (2 * b.toNat))
      if ok then
        let (h, m) := m.newHandle (m.coreOf t) (.launch (m.ctxOf t) record.toNat)
        takers.foldl (fun m x => m.setReg x d.toNat (handleReg h)) m
      else takers.foldl (fun m x => m.writeV x d.toNat (BitVec.ofNat 32 (queueStatus 12)) tagHandle) m)) s

/-- QPUSH: status 0, or 1 where the queue is disabled. -/
def execQpush (c : Bool) (d : BitVec 7) (a b : BitVec 6) (s : State) : Host.Outcome State Fault Refusal :=
  runWord (.qpush c d a b) (fun e t slot => appendVerdict e t slot (e.now.vv t (2 * a.toNat)) (e.now.vv t (2 * b.toNat)))
    (once false (fun e t takers m =>
      let (ok, m) := append e (appendEarly e m t) t (e.now.vv t (2 * a.toNat)) (e.now.vv t (2 * b.toNat))
      takers.foldl (fun m x => m.writeV x d.toNat (if ok then 0 else 1) tagInt) m)) s

/-- The launch the steward holds for a record of a context, the latest taken first. -/
def Chip.heldLaunch (c : Chip) (ctx record : Nat) : Option Launch :=
  ((c.launches.filter (fun p => decide (p.2.ctx = ctx) && decide (p.2.record = record) && decide (p.2.record ≠ 0) &&
    decide (p.2.state ≠ .retired) && decide (p.2.state ≠ .killed))).getLast?).map (·.2)

/-- The KSTAT code of a launch's state (09 R199). -/
def LaunchState.code : LaunchState → Nat
  | .pending => 1
  | .ready => 2
  | .running => 3
  | .retired => 0
  | .killed => 0

/-- The teams of a launch not yet retired. -/
def Launch.left (l : Launch) : Nat := l.gx * l.gy * l.gz - l.retired

/-- KSTAT. -/
def execKstat (c : Bool) (d a : BitVec 6) (s : State) : Host.Outcome State Fault Refusal :=
  runWord (.kstat c d a)
    (fun e t slot => let ea := e.now.vv t (2 * a.toNat); if queueAddressBad ea then some (queueTrap slot 3 ea) else none)
    (perThread false (fun pre l t m =>
      let (state, teams) := match pre.heldLaunch (pre.ctxOf l) (pre.vv l (2 * a.toNat)).toNat with
        | some x => (x.state.code, min x.left (2 ^ 32 - 1))
        | none => (0, 0)
      (m.writeV t (2 * d.toNat) (BitVec.ofNat 32 state) tagInt).writeV t (2 * d.toNat + 1) (BitVec.ofNat 32 teams) tagInt)) s

/-- The head launch of a queue: the earliest taken one with clusters left to place (09 R194). DESIGN CHOICE (log entry 124): launches are
named by their context and the index of their queue in the table, so a header that replaces another at an index finds the launches taken
from the old one ahead of its own; the rule does not say. -/
def Chip.headLaunch (c : Chip) (ctx qix : Nat) : Option (Nat × Launch) :=
  let open_ := c.launches.filter (fun p => decide (p.2.ctx = ctx) && decide (p.2.qix = qix) &&
    (decide (p.2.state = .pending) || decide (p.2.state = .ready) || (decide (p.2.state = .running) && (decide (p.2.placed < p.2.clusters) || !p.2.saved.isEmpty))))
  open_.foldl (fun b p => match b with
    | none => some p
    | some q => if p.2.order < q.2.order then some p else some q) none

/-- The view of a queue (09 R199). DESIGN CHOICE (log entry 135): a queue with no head launch shows level 0. -/
def Chip.queueView (c : Chip) (ctx header : Nat) : Nat :=
  match List.find? (fun (p : Nat × Queue) => decide (p.2.header = header)) (c.ctx ctx).queues with
  | none => 0
  | some (ix, q) =>
    let prio := match c.headLaunch ctx ix with | some p => p.2.prio | none => 0
    let held := (c.launches.filter (fun p => decide (p.2.ctx = ctx) && decide (p.2.qix = ix) && decide (p.2.state ≠ .retired) && decide (p.2.state ≠ .killed))).length
    q.state.code + 16 * prio + 256 * q.sub + 65536 * min held 65535

/-- QSTAT. -/
def execQstat (c : Bool) (d : BitVec 7) (a : BitVec 6) (s : State) : Host.Outcome State Fault Refusal :=
  runWord (.qstat c d a)
    (fun e t slot => let ea := e.now.vv t (2 * a.toNat); if queueAddressBad ea then some (queueTrap slot 3 ea) else none)
    (perThread false (fun pre l t m =>
      m.writeV t d.toNat (BitVec.ofNat 32 (pre.queueView (pre.ctxOf l) (pre.vv l (2 * a.toNat)).toNat)) tagInt)) s

end Sys2Proof.Machine
end

