-- ==== Sys2Proof/Machine/Steward.lean ====
section
/-! DEFINITION. The steward: queues and records (09 R185 to R194), placement of clusters (R195, 18 R408, R409), and retirement
(08 R182 to R184). -/

namespace Sys2Proof.Machine

/-! Queues (09 R185, R186, R192). -/

/-- A queue faults with subcode 1 on an address (R192, R193). DESIGN CHOICE (log entry 117): where the header itself is what cannot be
used, its stat is not written. The steward sees a later write of its ctl.enable where that last stood. DESIGN CHOICE (log entry 137): the
handle of a LAUNCH whose record is one that cannot be read stays pending. -/
def faultQueue (e : State) (c : Chip) (ctx ix : Nat) (q : Queue) (addr : Nat) : Chip :=
  let c := if addr = q.header then c.setCtx ctx { c.ctx ctx with queues := Sparse.set (c.ctx ctx).queues ix { q with state := .faulted, sub := 1 } }
    else putQueue e c ctx ix { q with state := .faulted, sub := 1 }
  let c := match (deviceRead e c ctx (q.header + 0x18)).orElse (fun _ => q.ctl) with
    | some p => { c with doors := Sparse.set c.doors p false }
    | none => c
  errorRecord e c ctx { cause := causeQueue, sub := 1, source := 5, addr := addr }

/-- An address of a record or header that cannot be read as one. -/
def badRecordAddr (e : State) (c : Chip) (ctx a : Nat) : Bool := decide (a % 128 ≠ 0) || decide (a / 2 ^ 55 ≠ 0) || (deviceRead e c ctx a).isNone

/-- ctl.enable of a queue's header. -/
def queueEnabled (e : State) (c : Chip) (ctx : Nat) (q : Queue) : Bool :=
  match deviceRead e c ctx (q.header + 0x18) with
  | some p => bitAt (peek e c p 4) 0
  | none => false

/-- The queue that an entry of the context's table names, as the steward finds it (R186): an entry that is zero or beyond the table
names none. DESIGN CHOICE (log entry 118): an entry that cannot be read leaves the queue of its index as it was. What the steward must wait
for, the entry or the header it names, leaves everything as it was too. -/
def syncQueue (e : State) (c : Chip) (ctx ix : Nat) : Chip :=
  let x := c.ctx ctx
  let none' := c.setCtx ctx { x with queues := Sparse.erase x.queues ix }
  if min x.qtlen 256 ≤ ix then none'
  else match deviceRead e c ctx (x.table + 8 * ix) with
    | none => c
    | some p =>
      let header := peek e c p 8
      let known : Bool := match Sparse.find? x.queues ix with | some q => decide (q.header = header) | none => false
      if deviceWaits e c ctx (x.table + 8 * ix) then c
      else if header = 0 then none'
      else if known then c
      else
        let q : Queue := { header := header }
        if decide (header / 2 ^ 55 = 0) && deviceWaits e c ctx header then c
        else if badRecordAddr e c ctx header then faultQueue e c ctx ix q header
        else putQueue e c ctx ix { q with state := if queueEnabled e c ctx q then .idle else .disabled }

/-- Whether ctl.enable of a faulted queue's header has been written since the fault. DESIGN CHOICE (log entry 117): of a header that had
never been read, and of one that now lies in another frame, that it can be read. -/
def doorRung (e : State) (c : Chip) (ctx : Nat) (q : Queue) : Bool :=
  !badRecordAddr e c ctx q.header && (match deviceRead e c ctx (q.header + 0x18) with
    | some p => (Sparse.find? c.doors p).getD true
    | none => false)

/-- The state a queue has by its enable bit (R192): a fault ends when the bit is written 1. A header that can no longer be read faults its
queue. -/
def enableQueue (e : State) (c : Chip) (ctx ix : Nat) : Chip :=
  match Sparse.find? (c.ctx ctx).queues ix with
  | none => c
  | some q =>
    if decide (q.header / 2 ^ 55 = 0) && deviceWaits e c ctx q.header then c
    else if q.state ≠ .faulted ∧ badRecordAddr e c ctx q.header = true then faultQueue e c ctx ix q q.header
    else
      let on := queueEnabled e c ctx q
      let q := { q with ctl := (deviceRead e c ctx (q.header + 0x18)).orElse (fun _ => q.ctl) }
      let c := c.setCtx ctx { c.ctx ctx with queues := Sparse.set (c.ctx ctx).queues ix q }
      match q.state, on with
      | .faulted, true => if doorRung e c ctx q then
          putQueue e { c with doors := (deviceRead e c ctx (q.header + 0x18)).elim c.doors (Sparse.erase c.doors) } ctx ix { q with state := .idle } else c
      | .faulted, false => c
      | .disabled, true => putQueue e c ctx ix { q with state := .idle }
      | _, false => putQueue e c ctx ix { q with state := .disabled }
      | _, true => c

/-- QUEUE_ENABLE_CHANGE. -/
def execQueueEnableChange (ctx qix : Nat) (s : State) : Host.Outcome State Fault Refusal :=
  event (fun e => if (Sparse.find? e.now.ctxs ctx).isNone then e.now else enableQueue e (syncQueue e e.now ctx qix) ctx qix) s

/-- The next record of a queue: the next field of the record named by taken; none where that cannot be read. -/
def nextRecord (e : State) (c : Chip) (ctx : Nat) (q : Queue) : Option Nat :=
  match deviceRead e c ctx (q.header + 0x10) with
  | none => none
  | some p =>
    let taken := peek e c p 8
    if taken % 128 ≠ 0 ∨ taken / 2 ^ 55 ≠ 0 then none else (deviceRead e c ctx taken).map (fun r => peek e c r 8)

/-! Room on the cores (09 R195). -/

/-- What the teams of a core use: teams, slots and registers of each croft, local-store bytes, plates. -/
structure Room where
  teams : Nat := 0
  crofts : List (Nat × Nat) := [(0, 0), (0, 0), (0, 0), (0, 0)]
  bytes : Nat := 0
  plates : Nat := 0

/-- What a team takes. -/
structure Need where
  groups : Nat
  regs : Nat
  bytes : Nat
  plates : Nat
  threads : Nat

/-- The use of every core that holds a team, and the resident threads of each die. -/
structure Plan where
  rooms : Sparse Room := []
  load : List Nat := [0, 0, 0, 0]

/-- The use of a core. -/
def Chip.roomOf (c : Chip) (core : Nat) : Room :=
  let ts := c.teams.filter (fun p => decide (p.2.core = some core))
  let inCroft := fun (i : Nat) => Sparse.keysWhere (fun g (x : Group) => x.resident && decide (x.croft = 4 * core + i) && !c.groupFree g) c.groups
  { teams := ts.length
    crofts := (List.range 4).map (fun i => (32 * (inCroft i).length, ((inCroft i).map (fun g => 32 * (c.team (c.group g).team).regs)).sum))
    bytes := (ts.map (fun p => p.2.spad)).sum, plates := (ts.map (fun p => p.2.plates)).sum }

/-- The device as it stands. -/
def Chip.plan (c : Chip) : Plan :=
  let ks := ((c.teams.filterMap (fun p => p.2.core))).dedup
  { rooms := ks.foldl (fun m k => Sparse.set m k (c.roomOf k)) []
    load := (List.range 4).map (fun d =>
      (c.threads.filter (fun p => c.active p.1 && (c.group (groupOf p.1)).resident && decide (c.coreOf p.1 / Config.coresPerDie = d))).length) }

/-- The croft a group goes to, and the use after it. -/
def takeCroft (crofts : List (Nat × Nat)) (regs : Nat) : Option (Nat × List (Nat × Nat)) :=
  ((List.range 4).find? (fun i =>
    let x := crofts.getD i (0, 0)
    decide (x.1 + 32 ≤ Config.slotsPerCroft) && decide (x.2 + 32 * regs ≤ Config.regsPerCroft))).map
      (fun i => let x := crofts.getD i (0, 0); (i, crofts.set i (x.1 + 32, x.2 + 32 * regs)))

/-- The crofts of `n` groups. -/
def takeCrofts (regs : Nat) : Nat → List (Nat × Nat) → Option (List Nat × List (Nat × Nat))
  | 0, crofts => some ([], crofts)
  | n + 1, crofts => match takeCroft crofts regs with
    | none => none
    | some (i, crofts) => (takeCrofts regs n crofts).map (fun p => (i :: p.1, p.2))

/-- Whether a core has room for a team: the crofts of its groups and the use after it. -/
def Room.take (r : Room) (n : Need) : Option (List Nat × Room) :=
  if Config.teamsPerCore ≤ r.teams ∨ Config.localBytes < r.bytes + n.bytes ∨ Config.plates < r.plates + n.plates then none
  else (takeCrofts n.regs n.groups r.crofts).map (fun p =>
    (p.1, { teams := r.teams + 1, crofts := p.2, bytes := r.bytes + n.bytes, plates := r.plates + n.plates }))

/-- A team of a cluster to be placed: its position, what it takes, and the saved team it is, if any. -/
structure Item where
  x : Nat
  y : Nat
  need : Need
  saved : Option Nat := none

/-- The core of a position in a rectangle whose top-left corner is given; `turned` for the h × w orientation. -/
def Item.coreAt (i : Item) (die cx cy : Nat) (turned : Bool) : Nat :=
  if turned then 40 * die + (cx + i.y) + 8 * (cy + i.x) else 40 * die + (cx + i.x) + 8 * (cy + i.y)

/-- The crofts of every team of a cluster in one rectangle. -/
def fitRect (allowed : BitVec 160) (die cx cy : Nat) (turned : Bool) : List Item → Plan → Option (List (Item × Nat × List Nat) × Plan)
  | [], p => some ([], p)
  | i :: rest, p =>
    let k := i.coreAt die cx cy turned
    if !allowed.getLsbD k then none
    else match (Sparse.get {} p.rooms k).take i.need with
      | none => none
      | some (crofts, r) =>
        let p := { rooms := Sparse.set p.rooms k r, load := p.load.set die (p.load.getD die 0 + i.need.threads) }
        (fitRect allowed die cx cy turned rest p).map (fun q => ((i, k, crofts) :: q.1, q.2))

/-- The rectangles of a die in the order they are tried: corner column, corner row, orientation. -/
def corners (w h : Nat) : List (Nat × Nat × Bool) :=
  let at_ := fun (w h : Nat) (t : Bool) => (List.range (6 - h)).flatMap (fun y => (List.range (9 - w)).map (fun x => (x, y, t)))
  at_ w h false ++ (if w ≠ h ∧ h ≤ 8 ∧ w ≤ 5 then at_ h w true else [])

/-- The first fitting rectangle of the least loaded die that has one. -/
def Plan.fit (p : Plan) (allowed : BitVec 160) (dies : List Nat) (w h : Nat) (items : List Item) : Option (List (Item × Nat × List Nat) × Plan) :=
  (sortBy (fun d => p.load.getD d 0) dies).findSome? (fun d =>
    (corners w h).findSome? (fun q => fitRect allowed d q.1 q.2.1 q.2.2 items p))

/-- Fitting clusters one after another. -/
def Plan.fitAll (allowed : BitVec 160) (dies : List Nat) (w h : Nat) : List (List Item) → Plan → Option (List (List (Item × Nat × List Nat)))
  | [], _ => some []
  | c :: rest, p => match p.fit allowed dies w h c with
    | none => none
    | some (got, p) => (fitAll allowed dies w h rest p).map (fun l => got :: l)

/-- The dies the steward considers. -/
def Chip.runningDies (c : Chip) : List Nat := (List.range 4).filter (fun d => decide ((c.die d).state = .running))

/-! A launch's clusters (08 R178, R179). -/

/-- What a team of a launch takes: a group holds 32 threads, or 16 pairs (21 R456). -/
def Launch.need (l : Launch) : Need :=
  { groups := if l.guarded then (l.threads + 15) / 16 else (l.threads + 31) / 32
    regs := l.regs, bytes := l.spad, plates := l.plates, threads := if l.guarded then 2 * l.threads else l.threads }

/-- The teams of a cluster that has never been placed. -/
def Launch.items (l : Launch) : List Item :=
  (List.range l.clh).flatMap (fun y => (List.range l.clw).map (fun x => { x := x, y := y, need := l.need }))

/-- The TEAMID of a position of cluster `i`. -/
def Launch.teamId (l : Launch) (i x y : Nat) : Nat × Nat × Nat :=
  let a := l.gx / l.clw
  let b := l.gy / l.clh
  (i % a * l.clw + x, i / a % b * l.clh + y, i / (a * b))

/-- The teams of a saved cluster. -/
def Chip.savedItems (c : Chip) (cluster : Nat) : List Item :=
  ((c.cluster cluster).teams.filter (fun t => (c.team t).live)).map (fun t =>
    let k := c.team t
    { x := k.clx, y := k.cly, saved := some t
      need := { groups := ((c.groupsOf t).filter (fun g => !c.groupFree g)).length, regs := k.regs, bytes := k.spad, plates := k.plates
                threads := (c.teamThreads t).length } })

/-! Records (09 R187 to R189, R193). -/

/-- The cluster shapes of R31. -/
def shapeOk (w h : Nat) : Bool := decide (1 ≤ w) && decide (1 ≤ h) && decide (w ≤ ([0, 8, 6, 4, 3, 2].getD h 0))

/-- Whether a launch's grid fits a device that holds no team (R193). -/
def fitsEmpty (c : Chip) (l : Launch) : Bool :=
  if Config.cores * Config.teamsPerCore < l.gx * l.gy * l.gz then false
  else (Plan.fitAll (c.ctx l.ctx).allowed c.runningDies l.clw l.clh (List.replicate l.clusters l.items) {}).isSome

/-- The steward's accesses set A on the pages it reads (17 R368). -/
def stewardTouch (e : State) (c : Chip) (ctx : Nat) (vas : List Nat) : Chip :=
  vas.foldl (fun c va => if (deviceRead e c ctx va).isSome then touch e c 0 ctx va false else c) c

/-- A word of the constant bank every 4 bytes; none where a line of the image is not readable (08 R171, R172). -/
def readBank (e : State) (c : Chip) (ctx kbank : Nat) : Option (Sparse Word) :=
  (List.range 32).foldl (fun m i => match m, deviceRead e c ctx (kbank + 128 * i) with
    | some m, some p => some (m ++ (List.range 32).filterMap (fun j =>
        let w := peek e c (p + 4 * j) 4
        if w = 0 then none else some (32 * i + j, BitVec.ofNat 32 w)))
    | _, _ => none) (some [])

/-- A record as a launch, with the subcode of R193 where it is malformed; `p` is its physical address. DESIGN CHOICE (log entry 136): the
steward takes poisoned bytes as they stand. -/
def readRecord (e : State) (c : Chip) (ctx qix record p : Nat) : Launch × Option Nat :=
  let rd := fun off n => peek e c (p + off) n
  let flags := rd 0x25 1
  let entry := rd 0x08 8
  let done := rd 0x30 8
  let afters := (List.range 4).map (fun i => rd (0x38 + 8 * i) 8)
  let wordBad := fun (a : Nat) => decide (a % 4 ≠ 0) || decide (a / 2 ^ 55 ≠ 0)
  let base : Launch := { ctx := ctx, qix := qix, record := record, doneAddr := if wordBad done then 0 else done }
  match (c.ctx ctx).kernels.find? (fun k => decide (k.entry.toNat = entry)) with
  | none => (base, some 2)
  | some k =>
    let pick := fun (v d : Nat) => if v = 0 then d else v
    let whole := decide (rd 0x1A 1 = 0) && decide (rd 0x1B 1 = 0)
    let w := if whole then k.clw else rd 0x1A 1
    let h := if whole then k.clh else rd 0x1B 1
    let l : Launch := { base with
      entry := k.entry, gx := rd 0x10 4 % 2 ^ 24, gy := rd 0x14 2, gz := rd 0x16 2, threads := pick (rd 0x18 2) k.threads, clw := w, clh := h
      regs := pick (rd 0x1C 1) k.regs, barriers := pick (rd 0x1D 1) k.barriers, plates := pick (rd 0x1E 2) k.plates, spad := pick (rd 0x20 4) k.spad
      sbx := k.sbx, prio := rd 0x24 1 % 8, guarded := bitAt flags 0, rollback := bitAt flags 1, coresident := bitAt flags 2
      proceed := bitAt flags 3, kbank := rd 0x28 8, afters := afters.filter (· ≠ 0) }
    let five := decide (k.threads < l.threads) || (l.guarded && decide (512 < l.threads)) || !shapeOk w h || decide (k.clw < w) || decide (k.clh < h)
    let six := decide (l.regs % 8 ≠ 0) || decide (l.regs < k.regs) || decide (128 < l.regs) || decide (l.barriers < k.barriers) || decide (16 < l.barriers) ||
      decide (l.plates < k.plates) || decide (384 < l.plates) || decide (l.spad % 128 ≠ 0) || decide (l.spad < k.spad) || decide (524288 < l.spad) ||
      (!k.sbx && (decide (64 < l.regs) || decide (98304 < l.spad) || decide (4 < l.barriers) || decide (32 < l.plates)))
    let sub :=
      if rd 0x26 2 ≠ (if k.sbx then 2 else 1) then some 3
      else if l.gx = 0 ∨ l.gy = 0 ∨ l.gz = 0 ∨ (w ≠ 0 ∧ l.gx % w ≠ 0) ∨ (h ≠ 0 ∧ l.gy % h ≠ 0) then some 4
      else if five then some 5
      else if six || (l.coresident && !fitsEmpty c l) then some 6
      else if l.kbank % 128 ≠ 0 ∨ l.kbank / 2 ^ 55 ≠ 0 ∨ (readBank e c ctx l.kbank).isNone then some 7
      else if wordBad done || afters.any wordBad then some 8
      else if rd 0x13 1 ≠ 0 ∨ rd 0x24 1 / 8 ≠ 0 ∨ flags / 16 ≠ 0 ∨ rd 0x60 16 ≠ 0 ∨ rd 0x70 16 ≠ 0 then some 9
      else none
    (l, sub)

/-- The handle a LAUNCH took for a record, the earliest that no launch holds yet. -/
def Chip.waitingHandle (c : Chip) (ctx record : Nat) : Option (Nat × Handle) :=
  List.find? (fun (p : Nat × Handle) => decide (p.2.of = .launch ctx record) && !(c.launches.any (fun q => decide (q.2.handle = some p.1)))) c.handles

/-- The steward serves a context's queues and places its teams (18 R392). -/
def Ctx.served (x : Ctx) : Bool := decide (x.state = .loaded) || decide (x.state = .running)

/-! Spill slots (18 R396) and plate maps (15 R334, R338, 24 R485). -/

/-- A place for `size` bytes of slots in a context's save area, the highest free one that clears the image and what a mark has staged behind
it. -/
def Chip.slotPlace (c : Chip) (ctx size : Nat) : Option Nat :=
  let len := (c.ctx ctx).areaLen
  let used := (c.teams.filter (fun p => decide (p.2.ctx = ctx) && p.2.live && decide (p.2.plates ≠ 0))).map (fun p => (p.2.slotBase, 8320 * p.2.plates))
  let low := c.imageEnd ctx + (c.ctx ctx).stagedBytes
  let free := fun (b : Nat) => decide (low ≤ b) && decide (b + size ≤ len) && used.all (fun u => decide (b + size ≤ u.1) || decide (u.1 + u.2 ≤ b))
  if size = 0 then some len
  else ((len :: used.map (·.1)).filter (fun t => decide (size ≤ t) && free (t - size))).foldl (fun m t => match m with
    | none => some (t - size)
    | some b => some (max b (t - size))) none

/-- The plate map of a team on a core: an entry whose plate still stands there is connected to it again; the others take plates in
R334's order, and one with an invalid tag is claimed and zeroed unless the entry's contents lie in a slot (24 R485). -/
def Chip.fillMap (c : Chip) (core team : Nat) : Chip :=
  let k := c.team team
  let all := List.range Config.plates
  let owner := fun (p : Nat) => (c.plate core p).owner
  let others := c.teams.filter (fun p => decide (p.1 ≠ team) && decide (p.2.core = some core))
  let mapped := others.flatMap (fun p => p.2.map.map (·.2))
  let here := others.map (fun p => p.2.ctx)
  let own := (List.range k.plates).filterMap (fun n =>
    (all.find? (fun p => match owner p with | some o => decide (o.team = team) && decide (o.entry = n) | none => false)).map (fun p => (n, p)))
  let free := all.filter (fun p => !(own.any (fun q => decide (q.2 = p))))
  let by_ := fun (f : PlateOwner → Bool) => sortBy (fun p => (c.plate core p).used) (free.filter (fun p => match owner p with | some o => f o | none => false))
  let order := free.filter (fun p => (owner p).isNone && !mapped.contains p) ++ free.filter (fun p => (owner p).isNone && mapped.contains p) ++
    by_ (fun o => decide (o.ctx ≠ k.ctx) && !here.contains o.ctx) ++ by_ (fun o => decide (o.ctx ≠ k.ctx) && here.contains o.ctx) ++
    by_ (fun o => decide (o.ctx = k.ctx))
  let rest := (List.range k.plates).filter (fun n => !(own.any (fun q => decide (q.1 = n))))
  let map := (own ++ rest.zip order).foldl (fun m q => Sparse.set m q.1 q.2) []
  let spilled := fun (n : Nat) => k.spilled.contains (spillKey 0 n) || k.spilled.contains (spillKey 1 n)
  let c1 := (rest.zip order).foldl (fun c q =>
    if (c.plate core q.2).owner.isNone && !spilled q.1 then c.setPlate core q.2 (Plate.fresh (c.tagOf team q.1 .user) c.stamp) else c) c
  c1.setTeam team { k with map := map }

/-! Placing a team for the first time (08 R181). -/

/-- Putting the threads of a fresh group on the tables and in a pen. -/
def addGroup (c : Chip) (team croft : Nat) (l : Launch) (ix : Nat) : Chip :=
  let (g, c) := c.fresh
  let (order, c) := c.tickStamp
  let n := if l.guarded then min 32 (2 * (l.threads - 16 * ix)) else min 32 (l.threads - 32 * ix)
  let lanes := if l.guarded then n / 2 else n
  let c := c.setGroup g { team := team, croft := croft, ix := BitVec.ofNat 32 ix, resident := true, order := order
                          masks := [(0, BitVec.ofNat 32 (2 ^ lanes - 1))] }
  let ts := (List.range n).map (fun i => 32 * g + i)
  let c := ts.foldl (fun c t => c.setThread t { present := true, place := .saved false, pc := l.entry }) c
  c.move croft ts none l.ctx .user l.entry

/-- A team of a launch placed on a core. -/
def addTeam (c : Chip) (lid cluster i : Nat) (bank : Sparse Word) (slots : Nat) (it : Item) (core : Nat) (crofts : List Nat) : Chip :=
  let l := c.launch lid
  let (id, c) := c.fresh
  let (x, y, z) := l.teamId i it.x it.y
  let c := c.setTeam id { live := true, ctx := l.ctx, launch := lid, x := x, y := y, z := z, threads := l.threads, regs := l.regs, barriers := l.barriers
                          plates := l.plates, spad := l.spad, cluster := cluster, clx := it.x, cly := it.y, clw := l.clw, clh := l.clh
                          core := some core, kbank := bank, slotBase := slots, guarded := l.guarded, rollback := l.rollback
                          interval := { opened := l.rollback } }
  let c := c.setCluster cluster { c.cluster cluster with launch := lid, teams := (c.cluster cluster).teams ++ [id] }
  let c := (c.clockAdvance core l.startClk).fillMap core id
  (List.range crofts.length).foldl (fun c ix => addGroup c id (4 * core + crofts.getD ix 0) l ix) c

/-! Placing a saved team again (18 R409). -/

/-- A read of team-local memory made again (11 R246). -/
def Chip.rereadLocal (c : Chip) (a : Access) : Access :=
  match a.loc with
  | none => a
  | some (tm, _) =>
    let v := c.readLocal tm a.va a.size
    let w := if a.signed then v + (2 ^ 128 - 2 ^ (8 * a.size)) * (v / 2 ^ (8 * a.size - 1)) else v
    { a with stage := .returned, result := BitVec.ofNat 256 w, poison := if (c.team tm).poisonedAt a.va a.size then some 3 else none }

/-- The bins of a team on its new core. -/
def Chip.putBins (c : Chip) (core : Nat) (bins : List Bin) : Chip :=
  bins.foldl (fun c b =>
    let k := c.core core
    match (List.range (k.bins.length + 1)).find? (fun i => (Sparse.find? k.bins i).isNone) with
    | some i => c.setCore core { k with bins := Sparse.set k.bins i b }
    | none => c) c

/-- The plates of a team that stay on other cores are spilled (15 R338). -/
def spillElsewhere (e : State) (c : Chip) (team core : Nat) : Chip :=
  c.cores.foldl (fun c k =>
    if k.1 = core then c
    else k.2.plates.foldl (fun c p => match p.2.owner with
      | some o => if o.team = team then spillPlate e c k.1 p.1 else c
      | none => c) c) c

/-- Pens that were free before a resume and that its threads took: their fairness counters are at zero (07 R133). -/
def Chip.zeroPens (c0 c : Chip) (crofts : List Nat) : Chip :=
  crofts.foldl (fun c k =>
    let f := c.croft k
    c.setCroft k { f with pens := Sparse.mapVals (fun i (p : Pen) =>
      if (Sparse.find? (c0.croft k).pens i).isSome then p else { p with fair := 0, starved := none }) f.pens }) c

/-- A saved team placed on a core: its clock floor, beyond the reach of the base after a sweep (12 R273), its records, its loads to replay,
which are translated again, its pending entries, its watch slots fired, its plate map. -/
def resumeTeam (e : State) (c : Chip) (team core : Nat) (crofts : List Nat) : Chip :=
  let c := spillElsewhere e c team core
  let k := c.team team
  let bins := k.savedBins
  let floor := (c.ctx k.ctx).floor
  let c := if c.timeBase + 2 ^ 23 < floor then c.sweepTo ((floor - 2 ^ 22) / 2 ^ 22 * 2 ^ 22) else c
  let c := c.clockAdvance core floor
  let c := c.setTeam team { k with
    core := some core, savedBins := [], stash := k.stash.map (fun w => { w with filled := [] }) }
  let c := c.fillMap core team
  let gs := (c.recordGroups team).filter (fun g => !c.groupFree g)
  let c := (gs.zip crofts).foldl (fun c q =>
    let (order, c) := c.tickStamp
    c.setGroup q.1 { c.group q.1 with croft := 4 * core + q.2, resident := true, order := order }) c
  let mine := fun t => gs.contains (groupOf t)
  let ts := Sparse.keysWhere (fun t (x : Thread) => mine t && x.present && decide (x.place ≠ .exited)) c.threads
  let c := ts.foldl (fun c t =>
    let x := c.thread t
    let w : Watch := { x.watch with fired := x.watch.armed.isSome || x.watch.fired }
    c.setThread t { x with place := .saved false, watch := w }) c
  let c := Chip.zeroPens c (c.moveAll ts) (crofts.map (fun i => 4 * core + i)).dedup
  let hs := c.handlesOfTeam team
  let c := { c with
    accesses := Sparse.mapVals (fun _ (a : Access) =>
      if !mine a.th then a
      else if a.loc.isSome then { c.rereadLocal a with core := core } else { a with core := core, clk := (c.core core).clk, stage := if a.op = AccessOp.load then .atHome else a.stage }) c.accesses
    batches := Sparse.mapVals (fun _ (b : Batch) =>
      if mine b.th then { b with elems := b.elems.map (fun (x : Elem) => if x.done then x else { x with sent := false, data := none }) } else b) c.batches
    press := Sparse.mapVals (fun _ (q : PressEntry) =>
      if q.team = team ∧ q.ended = false then { q with held := (c.heldThread q).elim (some q.pc) (fun t => some (c.thread t).pc) } else q) c.press
    handles := Sparse.mapVals (fun i (h : Handle) => if hs.contains i then { h with core := core } else h) c.handles }
  c.putBins core bins

/-! What is placed next (09 R194, R195, 18 R408). -/

/-- Placing a cluster that has never been placed, with its slots; none where the save area has no room. -/
def placeFresh (c : Chip) (lid i : Nat) (bank : Sparse Word) (got : List (Item × Nat × List Nat)) : Option Chip :=
  let (cl, c) := c.fresh
  got.foldl (fun c q => match c with
    | none => none
    | some c => (c.slotPlace (c.launch lid).ctx (8320 * (c.launch lid).plates)).map (fun b => addTeam c lid cl i bank b q.1 q.2.1 q.2.2)) (some c)

/-- A launch's bank is on a page that the steward waits for. -/
def bankWaits (e : State) (c : Chip) (ctx kbank : Nat) : Bool :=
  decide (kbank % 128 = 0) && decide (kbank / 2 ^ 55 = 0) && (List.range 32).any (fun i => deviceWaits e c ctx (kbank + 128 * i))

/-- Placing what a launch places next: a saved cluster, else its next one; all that is left of a co-resident launch in one pass.
None where there is no room. -/
def placeNext (e : State) (c : Chip) (lid : Nat) : Option Chip :=
  let l := c.launch lid
  let allowed := (c.ctx l.ctx).allowed
  let remapped := fun (i : Item) => match i.saved with | some t => c.cores.any (fun k => k.2.remap.contains t) | none => false
  let saved := if l.coresident then l.saved else l.saved.take 1
  let next := if !l.saved.isEmpty && !l.coresident then 0 else if l.coresident then l.clusters - l.placed else 1
  let items := saved.map c.savedItems ++ List.replicate next l.items
  if items.any (fun is => is.any remapped) || (decide (next ≠ 0) && bankWaits e c l.ctx l.kbank) then none
  else if Config.cores * Config.teamsPerCore < items.length then none
  else match Plan.fitAll allowed c.runningDies l.clw l.clh items c.plan with
    | none => none
    | some got =>
      let c1 := (saved.zip got).foldl (fun c q => q.2.foldl (fun c r => match r.1.saved with
        | some t => resumeTeam e c t r.2.1 r.2.2
        | none => c) c) c
      let fresh := got.drop saved.length
      if fresh.isEmpty then some (c1.setLaunch lid { c1.launch lid with saved := l.saved.drop saved.length })
      else match readBank e c l.ctx l.kbank with
        | none => some (killLaunch e c lid 7)
        | some bank =>
          ((List.range fresh.length).foldl (fun c j => match c with
            | none => none
            | some c => placeFresh c lid (l.placed + j) bank (fresh.getD j [])) (some c1)).map (fun c =>
              c.setLaunch lid { c.launch lid with saved := l.saved.drop saved.length, placed := l.placed + fresh.length, state := .running })

/-- Whether the head of a queue has room for what it places next. -/
def hasRoom (e : State) (c : Chip) (lid : Nat) : Bool := (placeNext e c lid).isSome

/-- A queue's state when the steward looks at it again (R192): idle when nothing is left to place and nothing to take, blocked when
its head waits or has no room. -/
def settleQueue (e : State) (c : Chip) (ctx ix : Nat) : Chip :=
  match Sparse.find? (c.ctx ctx).queues ix with
  | none => c
  | some q =>
    if q.state = .disabled ∨ q.state = .faulted then c
    else match c.headLaunch ctx ix with
      | none => if nextRecord e c ctx q = some 0 then putQueue e c ctx ix { q with state := .idle } else putQueue e c ctx ix { q with state := .serving }
      | some p => putQueue e c ctx ix { q with state := if decide (p.2.state = .pending) || !hasRoom e c p.1 then .blocked else .serving }

/-! Taking a record (09 R191, R193). -/

/-- The steward's watch of the next field of the record it took last (R191, 12 R269). Its entry names no core. -/
def watchNext (e : State) (c : Chip) (ctx : Nat) (q : Queue) : Chip :=
  match deviceRead e c ctx (q.header + 0x10) with
  | none => c
  | some p =>
    let taken := peek e c p 8
    if !recordForm taken then c
    else match deviceRead e c ctx taken with
      | some r => c.register Config.cores r
      | none => c

/-- The steward's watches of a context's queues leave the lookout (18 R397, 12 R269). -/
def unwatchQueues (e : State) (c : Chip) (ctx : Nat) : Chip :=
  let lines := (c.ctx ctx).queues.filterMap (fun q => (deviceRead e c ctx (q.2.header + 0x10)).bind (fun p =>
    (deviceRead e c ctx (peek e c p 8)).map lineOf))
  let l := c.lookout.map (fun x => if lines.contains x.line then { x with cores := x.cores.filter (· != Config.cores) } else x)
  { c with lookout := l.filter (fun x => !(x.cores.isEmpty && x.coarse.isNone)) }

/-- The write times of the lines of addresses that the steward reads (R191, 10 R220). -/
def stewardLines (e : State) (c : Chip) (ctx : Nat) (vas : List Nat) : List Nat :=
  vas.filterMap (fun va => (deviceRead e c ctx va).map (fun p => (c.line e (lineOf p)).wts))

/-- Taking the record at an address (R191): one read of its 128 bytes, taken written, its checks. DESIGN CHOICE (log entry 119): on a header
page that does not let itself be written the write of taken is lost, and the next take finds the same record. DESIGN CHOICE (log
entry 120): a record whose LAUNCH was cancelled before the take is killed with subcode 10, malformed or not. -/
def takeRecord (e : State) (c : Chip) (ctx qix : Nat) (q : Queue) (record p : Nat) : Chip :=
  let (l, sub) := readRecord e c ctx qix record p
  let c := defer e c (.word ctx (q.header + 0x10) 8 record 0)
  let h := c.waitingHandle ctx record
  let (id, c) := c.fresh
  let (order, c) := c.tickStamp
  let seen := (stewardLines e c ctx [q.header, record, l.kbank]).foldl max 0
  let c := c.setLaunch id { l with handle := h.map (·.1), order := order, startClk := seen }
  let c := match h, sub with
    | some (_, { cancel := true, .. }), _ => killLaunch e c id 10
    | _, some n => killLaunch e c id n
    | _, none => c
  settleQueue e (watchNext e c ctx q) ctx qix

/-- A completion word's page is one that its write waits for. -/
def doneWaits (e : State) (c : Chip) (ctx a : Nat) : Bool :=
  decide (a ≠ 0) && decide (a / 2 ^ 55 = 0) && (deviceWaits e c ctx a || (match deviceRead e c ctx a with
    | some p => leasePending e p || c.cowHeld p
    | none => false))

/-- What the steward must read to take a queue's next record is on pages that it waits for: the header, the record named by taken, the next
one, its constant bank, its completion word. -/
def takeWaits (e : State) (c : Chip) (ctx : Nat) (q : Queue) : Bool :=
  deviceHeld e c ctx (q.header + 0x10) || c.deferred.any (fun x => decide (x.page c = (ctx, q.header / 65536))) ||
  let word := fun (a off : Nat) => (deviceRead e c ctx (a + off)).elim 0 (fun p => peek e c p 8)
  (queueReads e c ctx q.header).any (fun a => decide (a / 2 ^ 55 = 0) && deviceWaits e c ctx a) ||
    (let next := word (word q.header 0x10) 0
     recordForm (word q.header 0x10) && recordForm next && doneWaits e c ctx (word next 0x30))

/-- STEWARD_TAKE. -/
def execStewardTake (ctx qix : Nat) (s : State) : Host.Outcome State Fault Refusal :=
  event (fun e =>
    if (Sparse.find? e.now.ctxs ctx).isNone || !(e.now.ctx ctx).served then e.now
    else
      let c := enableQueue e (syncQueue e (stewardTouch e e.now ctx [(e.now.ctx ctx).table + 8 * qix]) ctx qix) ctx qix
      match Sparse.find? (c.ctx ctx).queues qix with
      | none => c
      | some q =>
        if q.state = .disabled ∨ q.state = .faulted ∨ takeWaits e c ctx q = true then c
        else if (deviceRead e c ctx (q.header + 0x10)).isNone then faultQueue e c ctx qix q q.header
        else match nextRecord e c ctx q with
          | none => faultQueue e c ctx qix q (match deviceRead e c ctx (q.header + 0x10) with | some p => peek e c p 8 | none => 0)
          | some 0 => settleQueue e (watchNext e c ctx q) ctx qix
          | some r => match deviceRead e c ctx r with
            | none => faultQueue e c ctx qix q r
            | some p => if badRecordAddr e c ctx r then faultQueue e c ctx qix q r
              else takeRecord e (stewardTouch e c ctx (queueReads e c ctx q.header)) ctx qix q r p) s

/-! Dependences (09 R189, R191). -/

/-- The state field of a completion word; an unreadable one is pending. -/
def wordState (e : State) (c : Chip) (ctx a : Nat) : Nat :=
  match deviceRead e c ctx a with
  | some p => peek e c p 4 / 2 ^ 28
  | none => 15

/-- A launch whose dependences are met: what it starts comes after what their words order (10 R220). -/
def readyLaunch (e : State) (c : Chip) (id : Nat) (l : Launch) : Chip :=
  (stewardTouch e c l.ctx l.afters).setLaunch id { l with
    state := .ready, startClk := (stewardLines e c l.ctx l.afters).foldl max l.startClk }

/-- DEPENDENCES_MET. -/
def execDependencesMet (launch : Nat) (s : State) : Host.Outcome State Fault Refusal :=
  event (fun e =>
    let c := e.now
    match Sparse.find? c.launches launch with
    | none => c
    | some l =>
      if l.state ≠ .pending then c
      else
        let states := l.afters.map (wordState e c l.ctx)
        if !l.proceed && states.contains 2 then (if doneWaits e c l.ctx l.doneAddr then c else settleQueue e (killLaunch e c launch 11) l.ctx l.qix)
        else if states.all (fun x => decide (x = 0) || decide (x = 2)) then settleQueue e (readyLaunch e c launch l) l.ctx l.qix
        else c) s

/-! CLUSTER_PLACEMENT (09 R194, R195, 18 R408). -/

/-- The heads that are ready: ring position, launch number, launch; in ring order after the queue served last. -/
def Chip.readyHeads (c : Chip) : List (Nat × Nat × Launch) :=
  let ctxs := Sparse.keysWhere (fun _ x => x.served) c.ctxs
  let heads := ctxs.flatMap (fun ctx =>
    (sortBy id ((c.launches.filter (fun p => decide (p.2.ctx = ctx))).map (fun p => p.2.qix)).dedup).filterMap (fun q =>
      (c.headLaunch ctx q).bind (fun p => if p.2.state = .pending then none else some (ctx * 256 + q, p.1, p.2))))
  let top := heads.foldl (fun m h => max m h.2.2.prio) 0
  let heads := heads.filter (fun h => decide (h.2.2.prio = top))
  heads.filter (fun h => decide (c.turn < h.1)) ++ heads.filter (fun h => decide (h.1 ≤ c.turn))

/-- One cluster is placed from the first ready head that has room; the queues of those passed over are blocked. -/
def placeCluster (e : State) (c : Chip) : Chip :=
  let step := fun (acc : Bool × Chip) (h : Nat × Nat × Launch) =>
    if acc.1 then acc
    else match placeNext e acc.2 h.2.1 with
      | none => (false, settleQueue e acc.2 h.2.2.ctx h.2.2.qix)
      | some c =>
        let x := c.ctx h.2.2.ctx
        let c := if x.state = .loaded then c.setCtx h.2.2.ctx { x with state := .running } else c
        (true, settleQueue e { c with turn := h.1 } h.2.2.ctx h.2.2.qix)
  (c.readyHeads.foldl step (false, c)).2

/-- CLUSTER_PLACEMENT. -/
def execClusterPlacement (s : State) : Host.Outcome State Fault Refusal :=
  eventS (fun s => noteIntervals { s with now := placeCluster s s.now }) s

/-! TEAM_RETIREMENT (08 R182 to R184). -/

/-- Every present thread of a team has exited, its bins are empty, and no copy, press operation, store or remote atomic of its
threads is outstanding. -/
def Chip.teamDone (c : Chip) (team : Nat) : Bool :=
  (c.team team).live && (c.team team).core.isSome && (c.teamThreads team).isEmpty && (c.binsOf team).isEmpty && (c.groupsOf team).all c.groupFree &&
    !(c.press.any (fun p => decide (p.2.team = team)))

/-- The team's stores become visible at device scope. -/
def releaseTeam (e : State) (c : Chip) (team core : Nat) : Chip :=
  let c := if (c.team team).rollback && !(c.team team).interval.early then commitNow e c team else c
  drainNow e (releaseLines e (drainNow e c core) core ((c.groupsOf team).flatMap (fun g => (List.range 32).map (fun l => 32 * g + l))) c.nextId) core

/-- A team retires: its resources return, its plates are free and their slots gone; with the last team the launch retires. -/
def retireTeam (e : State) (c : Chip) (team core : Nat) : Chip :=
  let c := releaseTeam e c team core
  let k := c.team team
  let c := c.removeTeams [team]
  let q := c.cluster k.cluster
  let rest := q.teams.filter (· != team)
  let c := if rest.isEmpty then { c with clusters := Sparse.erase c.clusters k.cluster } else c.setCluster k.cluster { q with teams := rest }
  let x := c.ctx k.ctx
  let c := match x.preempt with
    | some p => if p.vacate.getLsbD core then c.setCtx k.ctx { x with preempt := some { p with completed := p.completed ||| BitVec.ofNat 160 (2 ^ core) } } else c
    | none => c
  match Sparse.find? c.launches k.launch with
  | none => c
  | some l =>
    let l := { l with retired := l.retired + 1, clk := max l.clk (c.core core).clk }
    let c := c.setLaunch k.launch l
    if l.state ≠ .running ∨ l.retired < l.gx * l.gy * l.gz then c
    else
      let c := writeCompletion e c l 0
      let c := c.setLaunch k.launch { l with state := .retired, handle := none }
      match l.handle with
      | some h => c.resolveLaunch h 0 l.clk
      | none => c

/-- TEAM_RETIREMENT. -/
def execTeamRetirement (team : Nat) (s : State) : Host.Outcome State Fault Refusal :=
  eventS (fun s => match (s.now.team team).core with
    | some core => if s.now.teamDone team && !doneWaits s s.now (s.now.team team).ctx (s.now.launch (s.now.team team).launch).doneAddr then { s with now := retireTeam s s.now team core, shadows := Sparse.erase s.shadows team } else s
    | none => s) s

end Sys2Proof.Machine
end

