-- ==== Sys2Proof/Machine/Etcher.lean ====
section
/-! DEFINITION. What firmware and the etcher do when a context stops: quiescence and saves (18 R392 to R397), the report of a
pre-emption (R405 to R407), moves (R413), marks and checkpoints (R415 to R421). -/

namespace Sys2Proof.Machine

/-- The teams of a context on the tables, in order. -/
def Chip.teamsOf (c : Chip) (ctx : Nat) : List Nat := Sparse.keysWhere (fun _ t => decide (t.ctx = ctx) && t.live) c.teams

/-- CONTEXT_QUIESCENT: every core that holds the context is quiescent, every waiting thread back before its word (R395); a save goes on at
once, a mark takes its sequence number. -/
def execContextQuiescent (ctx : Nat) (s : State) : Host.Outcome State Fault Refusal :=
  event (fun e =>
    let c := e.now
    let x := c.ctx ctx
    if x.state ≠ .stopping ∨ c.quiescent (c.placedTeams ctx) = false then c
    else
      let c := c.withdrawWaits (c.placedTeams ctx)
      let y := { x with floor := c.floorWith ctx }
      match x.current with
      | some .save => c.setCtx ctx { y with state := .saving }
      | some (.mark _) => c.setCtx ctx { y with state := .stopped, ckptseq := x.ckptseq + 1 }
      | _ => nextRequest e (c.setCtx ctx { (y.result 1 0) with state := .stopped }) ctx) s

/-- SAVE_COMPLETE: the image is written and the teams leave their cores, or the area is too small. -/
def execSaveComplete (ctx : Nat) (s : State) : Host.Outcome State Fault Refusal :=
  event (fun e =>
    let c := e.now
    let x := c.ctx ctx
    let teams := c.placedTeams ctx
    if x.state ≠ .saving ∨ c.quiescent teams = false then c
    else if !c.imageFits ctx (c.teamsOf ctx) then nextRequest e (c.setCtx ctx { (x.result 2 7) with state := .stopped }) ctx
    else
      let c := teams.foldl Chip.saveTeam (flushTeams e c ctx teams)
      let c := unwatchQueues e (writeImage e c ctx (c.savedTeams ctx)) ctx
      nextRequest e (c.setCtx ctx { ((c.ctx ctx).result 1 0) with state := .saved }) ctx) s

/-! Pre-emption (R405 to R407). -/

/-- Writing bytes at any physical address. -/
def writePhys (e : State) (c : Chip) (p : Nat) (bs : List (BitVec 8)) : Chip :=
  if p % 4 = 0 then agentWriteBytes e c p bs
  else (bs.foldl (fun (q : Nat × Chip) b => (q.1 + 1, agentWrite e q.2 none q.1 1 b.toNat)) (p, c)).2

/-- A bit set of cores as 20 bytes. -/
def coreBytes (b : BitVec 160) : List (BitVec 8) := leBytes 20 b.toNat

/-- How many cores a bit set names. -/
def coreCount (b : BitVec 160) : Nat := (coresIn b).length

/-- The 64-byte report: status 0 done, 2 refused, 3 killed. -/
def preemptReport (p : Preempt) (vacated completed : BitVec 160) (saved kibs status : Nat) : List (BitVec 8) :=
  leBytes 4 p.n ++ leBytes 4 (coreCount vacated) ++ leBytes 4 saved ++ leBytes 4 (coreCount completed) ++
    coreBytes p.vacate ++ coreBytes completed ++ leBytes 4 kibs ++ leBytes 4 (2 ^ 28 * status)

/-- Ending a pre-emption: its teams saved, or, where the area is too small, running again on their cores. -/
def endPreempt (e : State) (c : Chip) (ctx : Nat) (p : Preempt) : Chip :=
  let x := c.ctx ctx
  let teams := (c.placedTeams ctx).filter (fun t => (c.team t).core.any (fun k => p.vacate.getLsbD k))
  let held := coreSet (teams.filterMap (fun t => (c.team t).core))
  let completed := p.completed &&& ~~~held
  if x.state = .killed then
    (writePhys e c p.report (preemptReport p completed completed 0 0 3)).setCtx ctx { x with preempt := none }
  else if !c.imageFits ctx (c.savedTeams ctx ++ teams) then
    let y := { (x.result 2 7) with allowed := x.allowed ||| held, preempt := none }
    nextRequest e ((writePhys e c p.report (preemptReport p completed completed 0 0 2)).setCtx ctx y) ctx
  else
    let kibs := kib (((coresIn held).map (fun k => c.costOn k ctx)).sum)
    let floor := c.floorWith ctx
    let c := teams.foldl Chip.saveTeam (flushTeams e c ctx teams)
    let c := teams.foldl Chip.reenter c
    let c := c.setCtx ctx { (c.ctx ctx).result 1 0 with floor := floor, preempt := none }
    let c := writeImage e c ctx (c.savedTeams ctx)
    nextRequest e (writePhys e c p.report (preemptReport p p.vacate completed teams.length kibs 0)) ctx

/-- PREEMPT_REPORT: every team of the vacate set is quiescent or has retired. A report address at which nothing lies faults. -/
def execPreemptReport (ctx : Nat) (s : State) : Host.Outcome State Fault Refusal :=
  match s.issue with
  | some _ => .next s
  | none => match (s.now.ctx ctx).preempt with
    | none => .next s
    | some p =>
      let teams := (s.now.placedTeams ctx).filter (fun t => (s.now.team t).core.any (fun k => p.vacate.getLsbD k))
      if s.now.quiescent teams = false then .next s
      else if !(populated s p.report && populated s (p.report + 63)) then .fault .unpopulatedPhysical
      else .next { s with now := endPreempt s s.now ctx p }

/-! A move (R413). -/

/-- The image and the spill region of a saved context, sent to another device by lines of the save area, then its length and its clock floor
(R413). -/
def sendContext (e : State) (c : Chip) (ctx device : Nat) : Chip :=
  let x := c.ctx ctx
  let lines := (List.range ((c.imageEnd ctx + 127) / 128)) ++ (List.range ((x.areaLen - c.spillStart ctx) / 128 + 1)).map (fun i => c.spillStart ctx / 128 + i)
  let c := (lines.filter (fun i => decide (128 * i < x.areaLen))).foldl (fun (c : Chip) i =>
    c.tell { bulk device opContext (128 * i) with id := ctx, size := 128, data := (peekLine e c (x.area / 128 + i)) }) c
  c.tell { bulk device opContextEnd x.areaLen with id := ctx, size := 8, data := BitVec.ofNat 1024 x.floor }

/-- A context that another device holds now: its teams and launches leave the tables. -/
def handOver (e : State) (c : Chip) (ctx device : Nat) : Chip :=
  let c := sendContext e c ctx device
  let c := c.removeTeams (c.teamsOf ctx)
  let c := c.dropHandles ctx
  { c with
    launches := Sparse.only (fun _ (l : Launch) => decide (l.ctx ≠ ctx)) c.launches }

/-- MOVE_TRANSFER_DONE: once no element of the context is in flight, the target holds the context, or the transfer has failed. -/
def execMoveTransferDone (ctx : Nat) (ok : Bool) (s : State) : Host.Outcome State Fault Refusal :=
  event (fun e =>
    let c := e.now
    let x := c.ctx ctx
    let busy := c.cores.any (fun k => k.2.remap.any (fun t => decide ((c.team t).ctx = ctx)))
    match x.state, x.current with
    | .migrating, some (.move d) =>
      if busy then c
      else if ok then (handOver e c ctx d).setCtx ctx { x with state := .retired, current := none, requests := [] }
      else nextRequest e (c.setCtx ctx { (x.result 2 8) with state := .saved }) ctx
    | _, _ => c) s

/-! Marks (R415 to R417). -/

/-- AUTOMATIC_MARK: CKPTINT ticks after the previous mark's resume, unless a checkpoint is staged, or the host schedules marks
(23 R482). -/
def execAutomaticMark (ctx : Nat) (s : State) : Host.Outcome State Fault Refusal :=
  event (fun e =>
    let c := e.now
    let x := c.ctx ctx
    let asked := (x.requests ++ x.current.toList).any (fun r => match r with | .mark _ => true | _ => false)
    if e.board.split.getLsbD 1 = true ∨ x.state ≠ .running ∨ x.ckptint = 0 ∨ x.sinceMark < x.ckptint.toNat ∨ asked = true then c
    else if x.staged then c.setCtx ctx { x with sinceMark := 0 }
    else postRequest e c ctx (.mark false)) s

/-- The pages of a context in state near or far on this device; host memory is not captured (R421). -/
def capturable (e : State) (c : Chip) (ctx : Nat) : List (Nat × Nat) :=
  pagesOf e c ctx (fun x => decide (Pte.state x ≤ 1) && !isHost (Pte.frame x))

/-- What a mark judges dirt against (R415): the machine and memory at the previous mark, if there is one to judge against. -/
abbrev Before := Option (State × Chip)

/-- A part of the image as a block, its bytes in whole words. -/
def part (off : Nat) (bs : List (BitVec 8)) : Nat × Nat × List (BitVec 8) := (1, off, bs ++ zeros ((4 - bs.length % 4) % 4))

/-- The parts of one group: whole but for the register blocks that have not changed; a pending register is saved as the place of
its entry, which changes as the section does. -/
def groupParts (c sh : Chip) (ps : List Pend) (copies : List Nat) (regs g at_ : Nat) : List (Nat × Nat × List (BitVec 8)) :=
  let bs := c.groupBytes ps copies regs g
  let fixed := 64 + 4096
  let changed := fun (j : Nat) => (List.range 32).any (fun h => (c.thread (32 * g + h)).wrote.getLsbD j || (List.range 8).any (fun i => decide (c.reg (32 * g + h) (8 * j + i) ≠ sh.reg (32 * g + h) (8 * j + i)) ||
    (c.reg (32 * g + h) (8 * j + i)).wait.isSome))
  let cut := fun (off n : Nat) => part (at_ + off) ((bs.drop off).take n)
  cut 0 fixed :: ((List.range (regs / 8)).filter changed).flatMap (fun j => (List.range 32).map (fun h => cut (fixed + 4 * (regs * h + 8 * j)) 32)) ++
    [cut (fixed + 128 * regs) (bs.length - fixed - 128 * regs)]

/-- The parts of one team's record at an offset: whole for a team placed since, else without the blocks that have not changed. -/
def teamParts' (c : Chip) (before : Before) (team at_ : Nat) : List (Nat × Nat × List (BitVec 8)) :=
  let r := c.teamRecord team at_
  match before with
  | none => [part at_ r]
  | some (_, sh) =>
    if !(sh.team team).live then [part at_ r]
    else
      let gs := c.recordGroups team
      let ss := c.sections team
      let offs := (ss.foldl (fun (p : List Nat × Nat) s => (p.1 ++ [p.2], p.2 + s.length)) (([] : List Nat), at_ + 256)).1
      let copies := c.copyRecords gs
      let k := c.team team
      let groups := (gs.foldl (fun (p : List (Nat × Nat × List (BitVec 8)) × Nat) g =>
        (p.1 ++ groupParts c sh (c.pends gs) copies k.regs g p.2, p.2 + (c.groupBytes (c.pends gs) copies k.regs g).length))
        (([] : List (Nat × Nat × List (BitVec 8))), offs.getD 0 0)).1
      let lines := ((List.range (k.spad / 128)).filter (fun i => k.wroteLines.contains i || decide (Memory.bytes k.lmem (128 * i) 128 ≠ Memory.bytes (sh.team team).lmem (128 * i) 128))).map
        (fun i => part (offs.getD 1 0 + 128 * i) (Memory.bytes k.lmem (128 * i) 128))
      part at_ (r.take 256) :: groups ++ lines ++ (List.range 5).map (fun i => part (offs.getD (i + 2) 0) (ss.getD (i + 2) []))

/-- What a mark stages: the image, or its changed parts, and the changed plates. -/
def stagedBlocks (e : State) (c : Chip) (ctx : Nat) (before : Before) : List (Nat × Nat × List (BitVec 8)) :=
  let teams := c.teamsOf ctx
  let image := c.imageBytes ctx (c.ctx ctx).floor teams true
  let first := 2048 + 32 * teams.length + 64 * (c.imageLaunches ctx).length
  let image' := match before with
    | none => [part 0 image]
    | some _ => part 0 (image.take first) :: (teams.foldl (fun (p : List (Nat × Nat × List (BitVec 8)) × Nat) t =>
        (p.1 ++ teamParts' c before t p.2, p.2 + (c.teamRecord t p.2).length)) (([] : List (Nat × Nat × List (BitVec 8))), first)).1
  let plates := (List.range teams.length).flatMap (fun i =>
    let t := teams.getD i 0
    (List.range (c.team t).plates).flatMap (fun n => [Level.user, Level.supervisor].filterMap (fun l =>
      match plateBytes e c t n l with
      | none => none
      | some b =>
        let same : Bool := match before with
          | some (f, sh) => !(c.team t).wrotePlates.contains (spillKey l.code n) && !(c.cores.any (fun k => k.2.plates.any (fun p =>
              decide (p.2.owner = some (c.tagOf t n l)) && p.2.wrote))) && decide (plateBytes f sh t n l = some b)
          | none => false
        if same then none else some (2, i + 2 ^ 32 * n + 2 ^ 48 * l.code, b))))
  image' ++ plates

/-- The pages a mark notes. -/
def markedPages (e : State) (c : Chip) (ctx : Nat) (before : Before) : List (Nat × Nat) :=
  (capturable e c ctx).filter (fun p => match before with
    | none => true
    | some (f, sh) => (c.ctx ctx).wrote.contains (p.2 / 65536) || match pageFrame f sh ctx p.1 with
      | some old => decide (peek e c p.2 65536 ≠ peek f sh old 65536)
      | none => true)

/-- What has been written is noted afresh from a mark on (R415). -/
def Chip.clearWrote (c : Chip) (ctx : Nat) : Chip :=
  let teams := c.teamsOf ctx
  let mine := fun (p : Plate) => match p.owner with
    | some o => decide (o.ctx = ctx)
    | none => false
  let c := { c with
    threads := Sparse.mapVals (fun t (x : Thread) => if teams.contains (c.teamOf t) then { x with wrote := 0 } else x) c.threads
    teams := Sparse.mapVals (fun t (x : Team) => if teams.contains t then { x with wroteLines := [], wrotePlates := [] } else x) c.teams
    cores := Sparse.mapVals (fun _ (k : Core) => { k with plates := Sparse.mapVals (fun _ (p : Plate) => if mine p then { p with wrote := false } else p) k.plates }) c.cores }
  c.setCtx ctx { c.ctx ctx with wrote := [] }

/-- The newest mark that has not failed. -/
def Ctx.lastMark (x : Ctx) : Option Nat :=
  ((x.ckpts.filter (fun p => decide (p.2.state ≠ .failed) && decide (p.2.state ≠ .overwritten))).getLast?).map (·.1)

/-- MARK_STAGING_COMPLETE: the parts are staged behind the image, one after another (log entry 92), the pages marked copy-on-write, and the
context runs again; where the save area has no room for the parts the checkpoint fails. -/
def execMarkStagingComplete (ctx : Nat) (s : State) : Host.Outcome State Fault Refusal :=
  eventS (fun s =>
    let c := s.now
    let x := c.ctx ctx
    match x.state, x.current with
    | .stopped, some (.mark full) =>
      let s' := x.ckptseq.toNat
      let full := full || x.ckptFresh || !(x.ckpts.any (fun p => p.2.full && decide (p.2.state = .complete)))
      let prev := if full then none else x.lastMark
      let before : Before := match prev.bind (fun q => Sparse.find? s.marks (markKey ctx q)) with
        | some (sh, m) => some ({ s with mem := m }, sh)
        | none => none
      let full := before.isNone
      let blocks := stagedBlocks s c ctx before
      let pages : List (Nat × Nat) := markedPages s c ctx before
      let room := c.spillStart ctx - c.imageEnd ctx
      let fits := decide (((blocks.map (fun b => b.2.2.length)).sum) ≤ room)
      let k : Ckpt := { full := full, prev := if full then 0 else prev.getD 0, floor := x.floor, state := if fits then .staged else .failed
                        blocks := if fits then blocks else [], pages := if fits then pages.map (·.1) else [] }
      let y := { x with
        state := .running, current := none, sinceMark := 0, ckptFresh := x.ckptFresh && !fits, ckpts := Sparse.set x.ckpts s' k
        cow := if fits then (x.cow ++ pages.map (fun (p : Nat × Nat) => p.2 / 65536)).dedup else x.cow }
      let n := { s with marks := if fits then Sparse.set s.marks (markKey ctx s') (c, s.mem) else s.marks }
      let c := if fits then (agentWriteBytes n c (x.area + c.imageEnd ctx) (blocks.flatMap (fun b => b.2.2))).clearWrote ctx else c
      let c := (c.setCtx ctx { y with wrote := (c.ctx ctx).wrote }).restartWaits (c.placedTeams ctx)
      { n with now := nextRequest n c ctx }
    | _, _ => s) s

/-! Streaming (R418 to R421). -/

/-- A block as it lies in the area. -/
def blockBytes (b : Nat × Nat × List (BitVec 8)) : List (BitVec 8) := leBytes 1 b.1 ++ zeros 3 ++ leBytes 4 b.2.2.length ++ leBytes 8 b.2.1 ++ b.2.2

/-- Bytes of a record before its pages, and of the whole. -/
def Ckpt.front (k : Ckpt) : Nat := 64 + (k.blocks.map (fun b => 16 + b.2.2.length)).sum
def Ckpt.length (k : Ckpt) : Nat := k.front + 65552 * k.pages.length

/-- Pages of a streaming record already written. -/
def Ckpt.streamed (k : Ckpt) : Nat := (k.written - k.front) / 65552

/-- The header and the staged blocks of a record. -/
def Ckpt.frontBytes (k : Ckpt) (seq : Nat) : List (BitVec 8) :=
  leBytes 4 0x43544E43 ++ leBytes 4 seq ++ leBytes 4 k.prev ++ leBytes 4 (if k.full then 1 else 0) ++ leBytes 8 k.floor ++ leBytes 8 k.length ++ zeros 32 ++
    k.blocks.flatMap blockBytes

/-- The records that restoring one needs, itself with them. -/
def Ctx.chainOf (x : Ctx) : Nat → Nat → List Nat
  | 0, _ => []
  | n + 1, seq => match Sparse.find? x.ckpts seq with
    | none => []
    | some k => seq :: (if k.full then [] else x.chainOf n k.prev)

/-- Where a record goes: behind the newest record, or at the area's first byte; none where it does not fit, or would lie over a
record it needs. -/
def Ctx.placeRecord (x : Ctx) (seq : Nat) (k : Ckpt) : Option Nat :=
  let len := x.ckptlen.toNat
  let held := x.ckpts.filter (fun p => decide (p.2.state = .complete))
  let end_ := match held.getLast? with | some p => p.2.at_ + p.2.length | none => 0
  let at_ := if end_ + k.length ≤ len then end_ else 0
  let needs := if k.full then [] else (x.chainOf (seq + 1) k.prev)
  let above := fun (p : Nat × Ckpt) => decide (p.2.at_ < at_ + k.length) && decide (at_ < p.2.at_ + p.2.length)
  if x.ckptbase = 0 ∨ len < at_ + k.length ∨ (held.any (fun p => needs.contains p.1 && above p)) = true then none else some at_

/-- The streaming checkpoint of a context, and the staged one. -/
def Ctx.ckptIn (x : Ctx) (st : CkptState) : Option (Nat × Ckpt) := List.find? (fun (p : Nat × Ckpt) => decide (p.2.state = st)) x.ckpts

/-- The frames of a record's pages leave the copy-on-write set, but for those that another record has still to stream. -/
def dropCow (e : State) (c : Chip) (ctx : Nat) (pages : List Nat) (x : Ctx) : Ctx :=
  let wanted := x.ckpts.flatMap (fun k => if k.2.state = .staged then k.2.pages else if k.2.state = .streaming then k.2.pages.drop k.2.streamed else [])
  let gone := (pages.filter (fun va => !wanted.contains va)).filterMap (fun va => (pageFrame e c ctx va).map (· / 65536))
  { x with cow := x.cow.filter (fun f => !gone.contains f) }

/-- Streaming begins: the record's header and blocks are written, and what lies under it is lost; or it fails. -/
def startStream (e : State) (c : Chip) (ctx seq : Nat) (k : Ckpt) : Chip :=
  let x := c.ctx ctx
  match x.placeRecord seq k with
  | none => flushDeferred e (c.setCtx ctx (dropCow e c ctx k.pages { x with ckpts := Sparse.set x.ckpts seq { k with state := .failed, blocks := [], pages := [] } }))
  | some at_ =>
    let lost := fun (p : Ckpt) => decide (p.state = .complete) && decide (p.at_ < at_ + k.length) && decide (at_ < p.at_ + p.length)
    let ckpts := Sparse.mapVals (fun _ (p : Ckpt) => if lost p then { p with state := .overwritten } else p) x.ckpts
    let c := agentWriteBytes e c (x.ckptArea + at_) (k.frontBytes seq)
    c.setCtx ctx { c.ctx ctx with ckpts := Sparse.set ckpts seq { k with state := .streaming, at_ := at_, written := k.front } }

/-- One page of a streaming record is written as the mark found it, and is copy-on-write no longer. -/
def streamPage (s : State) (c : Chip) (ctx seq va : Nat) (k : Ckpt) : Chip :=
  let x := c.ctx ctx
  match Sparse.find? s.marks (markKey ctx seq) with
  | none => c
  | some (sh, m) =>
    let old : State := { s with mem := m }
    let data := match pageFrame old sh ctx va with
      | some f => (List.range 65536).map (fun i => BitVec.ofNat 8 (peek old sh (f + i) 1))
      | none => zeros 65536
    let c := agentWriteBytes s c (x.ckptArea + k.at_ + k.written) (blockBytes (3, va, data))
    let n := k.streamed
    let pages := k.pages.take n ++ va :: (k.pages.drop n).filter (· != va)
    flushDeferred s (c.setCtx ctx (dropCow s c ctx [va] { c.ctx ctx with ckpts := Sparse.set x.ckpts seq { k with pages := pages, written := k.written + 65552 } }))

/-- CHECKPOINT_STREAM: the staged checkpoint begins to stream, or the streaming one writes its next page; a rate of 0 suspends it. -/
def execCheckpointStream (ctx : Nat) (s : State) : Host.Outcome State Fault Refusal :=
  event (fun e =>
    let c := e.now
    let x := c.ctx ctx
    if x.ckptrate = 0 then c
    else match x.ckptIn .streaming, x.ckptIn .staged with
      | some (seq, k), _ => match k.pages[k.streamed]? with
        | some va => streamPage e c ctx seq va k
        | none => c
      | none, some (seq, k) => nextRequest e (startStream e c ctx seq k) ctx
      | none, none => c) s

/-- COPY_ON_WRITE_RELEASE: a page that a write is held on is streamed ahead of the others. -/
def execCopyOnWriteRelease (ctx va : Nat) (s : State) : Host.Outcome State Fault Refusal :=
  event (fun e =>
    let c := e.now
    let x := c.ctx ctx
    match x.ckptIn .streaming with
    | some (seq, k) =>
      if x.ckptrate = 0 ∨ ((k.pages.drop k.streamed).contains va) = false then c else streamPage e c ctx seq va k
    | none => c) s

/-- CHECKPOINT_COMPLETE: the last byte is written. -/
def execCheckpointComplete (ctx : Nat) (s : State) : Host.Outcome State Fault Refusal :=
  event (fun e =>
    let c := e.now
    let x := c.ctx ctx
    match x.ckptIn .streaming with
    | some (seq, k) =>
      if k.streamed < k.pages.length then c
      else nextRequest e (c.setCtx ctx { x with ckpts := Sparse.set x.ckpts seq { k with state := .complete }, ckptdone := BitVec.ofNat 32 seq }) ctx
    | none => c) s

end Sys2Proof.Machine
end

