-- ==== Sys2Proof/Machine/Flags.lean ====
section
/-! DEFINITION. The predicate computations: the conditions of ISETP and FSETP (05 R107) and the combine operations (05 R106). -/

namespace Sys2Proof.Machine

/-- An ISETP condition (05 R107). -/
def condInt (f : BitVec 3) (x y : Word) : Bool :=
  if f = 0 then x == y
  else if f = 1 then x != y
  else if f = 2 then x.slt y
  else if f = 3 then x.sle y
  else if f = 4 then x.ult y
  else if f = 5 then x.ule y
  else if f = 6 then (x &&& y) != 0
  else (x &&& y) == 0

/-- Equality by value of two F32 values that are not NaN: −0 equals +0. -/
def Val.same (x y : Val) : Bool := x.le y && y.le x

/-- An FSETP condition (05 R107): by value, a NaN being unordered. -/
def condFloat (f : BitVec 3) (x y : Word) : Bool :=
  let p := f32 x
  let q := f32 y
  let un := p.isNan || q.isNan
  if f = 0 then !un && p.same q
  else if f = 1 then !un && !p.same q
  else if f = 2 then !un && p.lt q
  else if f = 3 then !un && p.le q
  else if f = 4 then un
  else if f = 5 then !un
  else if f = 6 then un || !p.same q
  else un || p.lt q

/-- The combine operations: set, and, or, xor with the predicate's value before the chain (05 R106). -/
def combine (e : BitVec 2) (q cond : Bool) : Bool :=
  if e = 0 then cond else if e = 1 then q && cond else if e = 2 then q || cond else xor q cond

end Sys2Proof.Machine
end

