-- ==== Sys2Proof/Machine/Integer.lean ====
section
/-! DEFINITION. Integer, logic and address instructions, majors 0x01 to 0x17 (05): what each computes, and its meaning. -/

namespace Sys2Proof.Machine

/-! What the words compute. -/

/-- |Signed(x) − Signed(y)| (05 R96). -/
def absDiff (x y : Word) : Word := BitVec.ofNat 32 (x.toInt - y.toInt).natAbs

/-- IDIV.s32 (04 R83). -/
def divS (x y : Word) : Word := if y = 0 then BitVec.allOnes 32 else BitVec.ofInt 32 (x.toInt.tdiv y.toInt)
/-- IREM.s32 (04 R83). -/
def remS (x y : Word) : Word := if y = 0 then x else BitVec.ofInt 32 (x.toInt - x.toInt.tdiv y.toInt * y.toInt)
/-- IDIV.n32 (05 R97). -/
def divN (x y : Word) : Word := if y = 0 then BitVec.allOnes 32 else BitVec.ofNat 32 (x.toNat / y.toNat)
/-- IREM.n32 (05 R97). -/
def remN (x y : Word) : Word := if y = 0 then x else BitVec.ofNat 32 (x.toNat % y.toNat)

/-- Bits [63:32] of the signed product (05 R97). -/
def mulHighS (x y : Word) : Word := (BitVec.ofInt 64 (x.toInt * y.toInt)).extractLsb' 32 32
/-- Bits [63:32] of the unsigned product (05 R97). -/
def mulHighN (x y : Word) : Word := BitVec.ofNat 32 (x.toNat * y.toNat / 2 ^ 32)

/-- SHL and SHL.d (05 R101): a count at or above the width gives 0. -/
def shiftLeft {w : Nat} (x : BitVec w) (n : Nat) : BitVec w := x <<< min n w

/-- Rotating left by a count reduced modulo 32 (05 R100). -/
def rotate (x : Word) (n : Nat) : Word := x.rotateLeft (n % 32)

/-- The number of 1 bits (05 R100). -/
def popCount (x : Word) : Nat := ((List.range 32).filter (fun j => x.getLsbD j)).length
/-- The number of leading zero bits (05 R100). -/
def leadingZeros (x : Word) : Nat := ((List.range 32).findIdx? (fun j => x.getLsbD (31 - j))).getD 32
/-- Bit j moved to bit 31 − j (05 R100). -/
def bitReverse (x : Word) : Word :=
  (List.range 32).foldl (fun r j => if x.getLsbD j then r ||| BitVec.ofNat 32 (2 ^ (31 - j)) else r) 0
/-- The index of the least significant 1 bit; all ones where there is none (05 R100). -/
def findFirst (x : Word) : Word :=
  match (List.range 32).findIdx? (fun j => x.getLsbD j) with
  | some j => BitVec.ofNat 32 j
  | none => BitVec.allOnes 32

/-- The position of a bit-field control word (05 R102). -/
def fieldPos (y : Word) : Nat := fieldNat y.toNat 0 8
/-- The length of a bit-field control word, at most 32 (05 R102). -/
def fieldLen (y : Word) : Nat := min (fieldNat y.toNat 8 8) 32

/-- BFX (05 R102): bits beyond 31 are the sign bit for .s32 and 0 for .n32. -/
def fieldExtract (signed : Bool) (x y : Word) : Word :=
  let len := fieldLen y
  let bit := fun j => if fieldPos y + j ≤ 31 then x.getLsbD (fieldPos y + j) else signed && x.getLsbD 31
  let f := (List.range len).foldl (fun n j => if bit j then n + 2 ^ j else n) 0
  if len = 0 then 0 else if signed then BitVec.ofInt 32 (signedNat f len) else BitVec.ofNat 32 f

/-- BFI (05 R102): bits beyond 31 are discarded. -/
def fieldInsert (z x y : Word) : Word :=
  let mask := BitVec.ofNat 32 ((2 ^ fieldLen y - 1) * 2 ^ fieldPos y)
  (z &&& ~~~mask) ||| ((x <<< fieldPos y) &&& mask)

/-- PERM (05 R102): source bytes 0 to 3 of x, 4 to 7 of the old destination. -/
def permute (z x y : Word) : Word :=
  (List.range 4).foldl (fun r j =>
    let n := fieldNat y.toNat (4 * j) 4
    let byte := if n % 8 < 4 then elem x 8 (n % 4) else elem z 8 (n % 4)
    let byte := if 8 ≤ n then (if 128 ≤ byte then 255 else 0) else byte
    r ||| BitVec.ofNat 32 (byte * 2 ^ (8 * j))) 0

/-- SHF (05 R102). -/
def funnel (z x y : Word) : Word := ((z ++ x) >>> (y.toNat % 32)).extractLsb' 0 32

/-- A sum clamped to the signed range (05 R102). -/
def clampS (v : Int) : Word := BitVec.ofInt 32 (max (-(2 ^ 31)) (min (2 ^ 31 - 1) v))
/-- A sum clamped to the unsigned range (05 R102). -/
def clampN (v : Nat) : Word := BitVec.ofNat 32 (min (2 ^ 32 - 1) v)

/-- The shift a SHFI names (05 R103). -/
def shiftImm (sc : BitVec 2) (x : Word) (n : Nat) : Word :=
  if sc = 0 then shiftLeft x n else if sc = 1 then x >>> n else if sc = 2 then x.sshiftRight n else rotate x n

/-- MOVHI (05 R104). -/
def moveHigh (z : Word) (imm : BitVec 17) : Word := imm ++ z.extractLsb' 0 15

/-! The forms of the words: operands read from the thread that supplies them, the result written to every receiving thread. -/

/-- v(d) := f(v(a), v(b)), with a tag. -/
def binary (i : Instr) (u : Bool) (d a b : Nat) (tag : Tag) (f : Word → Word → Word) (s : State) : Host.Outcome State Fault Refusal :=
  runWord i noCheck (perThread u (fun pre l t c => c.writeV t d (f (pre.v l a) (pre.v l b)) tag)) s

/-- v(d) := f(v(a)), with a tag. -/
def unary (i : Instr) (u : Bool) (d a : Nat) (tag : Tag) (f : Word → Word) (s : State) : Host.Outcome State Fault Refusal :=
  runWord i noCheck (perThread u (fun pre l t c => c.writeV t d (f (pre.v l a)) tag)) s

/-- v(d) := f(old v(d), v(a), v(b)), with a tag. -/
def ternary (i : Instr) (u : Bool) (d a b : Nat) (tag : Tag) (f : Word → Word → Word → Word) (s : State) : Host.Outcome State Fault Refusal :=
  runWord i noCheck (perThread u (fun pre l t c => c.writeV t d (f (pre.v l d) (pre.v l a) (pre.v l b)) tag)) s

/-- A pair d := f(pair a, pair b). -/
def binaryPair (i : Instr) (u : Bool) (d a b : BitVec 6) (f : BitVec 64 → BitVec 64 → BitVec 64) (s : State) : Host.Outcome State Fault Refusal :=
  runWord i noCheck (perThread u (fun pre l t c =>
    c.writeVV t (2 * d.toNat) (f (pre.vv l (2 * a.toNat)) (pre.vv l (2 * b.toNat))) tagInt)) s

/-- A pair d := f(pair a, count in v(b)). -/
def shiftPair (i : Instr) (u : Bool) (d a : BitVec 6) (b : BitVec 7) (f : BitVec 64 → Nat → BitVec 64) (s : State) : Host.Outcome State Fault Refusal :=
  runWord i noCheck (perThread u (fun pre l t c =>
    c.writeVV t (2 * d.toNat) (f (pre.vv l (2 * a.toNat)) (pre.v l b.toNat).toNat) tagInt)) s

/-- A pair d := old pair d + f(v(a), v(b)). -/
def macPair (i : Instr) (u : Bool) (d : BitVec 6) (a b : BitVec 7) (f : Word → Word → BitVec 64) (s : State) : Host.Outcome State Fault Refusal :=
  runWord i noCheck (perThread u (fun pre l t c =>
    c.writeVV t (2 * d.toNat) (pre.vv l (2 * d.toNat) + f (pre.v l a.toNat) (pre.v l b.toNat)) tagInt)) s

/-- p(d) := f of the supplying thread's predicates. -/
def predicate (i : Instr) (u : Bool) (d : Nat) (f : Chip → Nat → Bool) (s : State) : Host.Outcome State Fault Refusal :=
  runWord i noCheck (perThread u (fun pre l t c => c.writeP t d (f pre l))) s

/-- m(d) := f, once for each group present (05 R110). -/
def maskOp (i : Instr) (d : BitVec 4) (f : Chip → Nat → List Nat → Word) (s : State) : Host.Outcome State Fault Refusal :=
  runWord i noCheck (oncePerGroup (fun pre g ts _ c => c.writeM g d.toNat (f pre g ts))) s

/-- v(d) := f of a mask, in every active thread of each group present (05 R110). -/
def maskRead (i : Instr) (d : BitVec 7) (f : Chip → Nat → Word) (s : State) : Host.Outcome State Fault Refusal :=
  runWord i noCheck (oncePerGroup (fun pre g _ live c => live.foldl (fun c t => c.writeV t d.toNat (f pre g) tagInt) c)) s

/-! Major 0x01 (05 R96). -/

/-- IADD (05 R96). -/
def execIadd (c u : Bool) (d a b : BitVec 7) (s : State) : Host.Outcome State Fault Refusal :=
  binary (.iadd c u d a b) u d.toNat a.toNat b.toNat tagInt (· + ·) s

/-- ISUB (05 R96). -/
def execIsub (c u : Bool) (d a b : BitVec 7) (s : State) : Host.Outcome State Fault Refusal :=
  binary (.isub c u d a b) u d.toNat a.toNat b.toNat tagInt (· - ·) s

/-- IMIN.s32 (05 R96). -/
def execIminS32 (c u : Bool) (d a b : BitVec 7) (s : State) : Host.Outcome State Fault Refusal :=
  binary (.iminS32 c u d a b) u d.toNat a.toNat b.toNat tagInt (fun x y => if x.sle y then x else y) s

/-- IMAX.s32 (05 R96). -/
def execImaxS32 (c u : Bool) (d a b : BitVec 7) (s : State) : Host.Outcome State Fault Refusal :=
  binary (.imaxS32 c u d a b) u d.toNat a.toNat b.toNat tagInt (fun x y => if y.sle x then x else y) s

/-- IMIN.n32 (05 R96). -/
def execIminN32 (c u : Bool) (d a b : BitVec 7) (s : State) : Host.Outcome State Fault Refusal :=
  binary (.iminN32 c u d a b) u d.toNat a.toNat b.toNat tagInt (fun x y => if x.ule y then x else y) s

/-- IMAX.n32 (05 R96). -/
def execImaxN32 (c u : Bool) (d a b : BitVec 7) (s : State) : Host.Outcome State Fault Refusal :=
  binary (.imaxN32 c u d a b) u d.toNat a.toNat b.toNat tagInt (fun x y => if y.ule x then x else y) s

/-- IABSD (05 R96). -/
def execIabsd (c u : Bool) (d a b : BitVec 7) (s : State) : Host.Outcome State Fault Refusal :=
  binary (.iabsd c u d a b) u d.toNat a.toNat b.toNat tagInt absDiff s

/-- INEG (05 R96). -/
def execIneg (c u : Bool) (d a : BitVec 7) (s : State) : Host.Outcome State Fault Refusal :=
  unary (.ineg c u d a) u d.toNat a.toNat tagInt (fun x => 0 - x) s

/-! Major 0x02 (05 R97, 04 R83). -/

/-- IMUL (05 R97). -/
def execImul (c u : Bool) (d a b : BitVec 7) (s : State) : Host.Outcome State Fault Refusal :=
  binary (.imul c u d a b) u d.toNat a.toNat b.toNat tagInt (· * ·) s

/-- IMULH.s32 (05 R97). -/
def execImulhS32 (c u : Bool) (d a b : BitVec 7) (s : State) : Host.Outcome State Fault Refusal :=
  binary (.imulhS32 c u d a b) u d.toNat a.toNat b.toNat tagInt mulHighS s

/-- IMULH.n32 (05 R97). -/
def execImulhN32 (c u : Bool) (d a b : BitVec 7) (s : State) : Host.Outcome State Fault Refusal :=
  binary (.imulhN32 c u d a b) u d.toNat a.toNat b.toNat tagInt mulHighN s

/-- IMAD (05 R97). -/
def execImad (c u : Bool) (d a b : BitVec 7) (s : State) : Host.Outcome State Fault Refusal :=
  ternary (.imad c u d a b) u d.toNat a.toNat b.toNat tagInt (fun z x y => z + x * y) s

/-- IDIV.s32 (05 R97, 04 R83). -/
def execIdivS32 (c u : Bool) (d a b : BitVec 7) (s : State) : Host.Outcome State Fault Refusal :=
  binary (.idivS32 c u d a b) u d.toNat a.toNat b.toNat tagInt divS s

/-- IDIV.n32 (05 R97). -/
def execIdivN32 (c u : Bool) (d a b : BitVec 7) (s : State) : Host.Outcome State Fault Refusal :=
  binary (.idivN32 c u d a b) u d.toNat a.toNat b.toNat tagInt divN s

/-- IREM.s32 (05 R97, 04 R83). -/
def execIremS32 (c u : Bool) (d a b : BitVec 7) (s : State) : Host.Outcome State Fault Refusal :=
  binary (.iremS32 c u d a b) u d.toNat a.toNat b.toNat tagInt remS s

/-- IREM.n32 (05 R97). -/
def execIremN32 (c u : Bool) (d a b : BitVec 7) (s : State) : Host.Outcome State Fault Refusal :=
  binary (.iremN32 c u d a b) u d.toNat a.toNat b.toNat tagInt remN s

/-! Major 0x03 (05 R98). -/

/-- IADD.d (05 R98). -/
def execIaddD (c u : Bool) (d a b : BitVec 6) (s : State) : Host.Outcome State Fault Refusal :=
  binaryPair (.iaddD c u d a b) u d a b (· + ·) s

/-- ISUB.d (05 R98). -/
def execIsubD (c u : Bool) (d a b : BitVec 6) (s : State) : Host.Outcome State Fault Refusal :=
  binaryPair (.isubD c u d a b) u d a b (· - ·) s

/-- IMUL.d (05 R98). -/
def execImulD (c u : Bool) (d a b : BitVec 6) (s : State) : Host.Outcome State Fault Refusal :=
  binaryPair (.imulD c u d a b) u d a b (· * ·) s

/-- IMADW.s32 (05 R98). -/
def execImadwS32 (c u : Bool) (d : BitVec 6) (a b : BitVec 7) (s : State) : Host.Outcome State Fault Refusal :=
  macPair (.imadwS32 c u d a b) u d a b (fun x y => BitVec.ofInt 64 (x.toInt * y.toInt)) s

/-- IMADW.n32 (05 R98). -/
def execImadwN32 (c u : Bool) (d : BitVec 6) (a b : BitVec 7) (s : State) : Host.Outcome State Fault Refusal :=
  macPair (.imadwN32 c u d a b) u d a b (fun x y => BitVec.ofNat 64 (x.toNat * y.toNat)) s

/-- SHL.d (05 R98, R101). -/
def execShlD (c u : Bool) (d a : BitVec 6) (b : BitVec 7) (s : State) : Host.Outcome State Fault Refusal :=
  shiftPair (.shlD c u d a b) u d a b shiftLeft s

/-- SHR.d (05 R98, R101). -/
def execShrD (c u : Bool) (d a : BitVec 6) (b : BitVec 7) (s : State) : Host.Outcome State Fault Refusal :=
  shiftPair (.shrD c u d a b) u d a b (fun x n => x >>> n) s

/-- SAR.d (05 R98, R101). -/
def execSarD (c u : Bool) (d a : BitVec 6) (b : BitVec 7) (s : State) : Host.Outcome State Fault Refusal :=
  shiftPair (.sarD c u d a b) u d a b (fun x n => x.sshiftRight n) s

/-! Major 0x04 (05 R99). -/

/-- AND (05 R99). -/
def execAnd (c u : Bool) (d a b : BitVec 7) (s : State) : Host.Outcome State Fault Refusal :=
  binary (.and c u d a b) u d.toNat a.toNat b.toNat tagInt (· &&& ·) s

/-- OR (05 R99). -/
def execOr (c u : Bool) (d a b : BitVec 7) (s : State) : Host.Outcome State Fault Refusal :=
  binary (.or c u d a b) u d.toNat a.toNat b.toNat tagInt (· ||| ·) s

/-- XOR (05 R99). -/
def execXor (c u : Bool) (d a b : BitVec 7) (s : State) : Host.Outcome State Fault Refusal :=
  binary (.xor c u d a b) u d.toNat a.toNat b.toNat tagInt (· ^^^ ·) s

/-- ANDN (05 R99). -/
def execAndn (c u : Bool) (d a b : BitVec 7) (s : State) : Host.Outcome State Fault Refusal :=
  binary (.andn c u d a b) u d.toNat a.toNat b.toNat tagInt (fun x y => x &&& ~~~y) s

/-- ORN (05 R99). -/
def execOrn (c u : Bool) (d a b : BitVec 7) (s : State) : Host.Outcome State Fault Refusal :=
  binary (.orn c u d a b) u d.toNat a.toNat b.toNat tagInt (fun x y => x ||| ~~~y) s

/-- XNOR (05 R99). -/
def execXnor (c u : Bool) (d a b : BitVec 7) (s : State) : Host.Outcome State Fault Refusal :=
  binary (.xnor c u d a b) u d.toNat a.toNat b.toNat tagInt (fun x y => ~~~(x ^^^ y)) s

/-- NOT (05 R99). -/
def execNot (c u : Bool) (d a : BitVec 7) (s : State) : Host.Outcome State Fault Refusal :=
  unary (.not c u d a) u d.toNat a.toNat tagInt (fun x => ~~~x) s

/-- MOV (05 R99): bits and tag; a pending handle's reference is copied (05 R92). -/
def execMov (c u : Bool) (d a : BitVec 7) (s : State) : Host.Outcome State Fault Refusal :=
  runWord (.mov c u d a) noCheck (perThread u (fun pre l t c => c.setReg t d.toNat { pre.reg l a.toNat with poison := none })) s

/-! Major 0x05 (05 R100, R101). -/

/-- SHL (05 R100). -/
def execShl (c u : Bool) (d a b : BitVec 7) (s : State) : Host.Outcome State Fault Refusal :=
  binary (.shl c u d a b) u d.toNat a.toNat b.toNat tagInt (fun x y => shiftLeft x y.toNat) s

/-- SHR (05 R100). -/
def execShr (c u : Bool) (d a b : BitVec 7) (s : State) : Host.Outcome State Fault Refusal :=
  binary (.shr c u d a b) u d.toNat a.toNat b.toNat tagInt (fun x y => x >>> y.toNat) s

/-- SAR (05 R100). -/
def execSar (c u : Bool) (d a b : BitVec 7) (s : State) : Host.Outcome State Fault Refusal :=
  binary (.sar c u d a b) u d.toNat a.toNat b.toNat tagInt (fun x y => x.sshiftRight y.toNat) s

/-- ROTL (05 R100). -/
def execRotl (c u : Bool) (d a b : BitVec 7) (s : State) : Host.Outcome State Fault Refusal :=
  binary (.rotl c u d a b) u d.toNat a.toNat b.toNat tagInt (fun x y => rotate x y.toNat) s

/-- POPC (05 R100). -/
def execPopc (c u : Bool) (d a : BitVec 7) (s : State) : Host.Outcome State Fault Refusal :=
  unary (.popc c u d a) u d.toNat a.toNat tagInt (fun x => BitVec.ofNat 32 (popCount x)) s

/-- CLZ (05 R100). -/
def execClz (c u : Bool) (d a : BitVec 7) (s : State) : Host.Outcome State Fault Refusal :=
  unary (.clz c u d a) u d.toNat a.toNat tagInt (fun x => BitVec.ofNat 32 (leadingZeros x)) s

/-- BREV (05 R100). -/
def execBrev (c u : Bool) (d a : BitVec 7) (s : State) : Host.Outcome State Fault Refusal :=
  unary (.brev c u d a) u d.toNat a.toNat tagInt bitReverse s

/-- FFS (05 R100). -/
def execFfs (c u : Bool) (d a : BitVec 7) (s : State) : Host.Outcome State Fault Refusal :=
  unary (.ffs c u d a) u d.toNat a.toNat tagInt findFirst s

/-! Major 0x06 (05 R102). -/

/-- BFX.s32 (05 R102). -/
def execBfxS32 (c u : Bool) (d a b : BitVec 7) (s : State) : Host.Outcome State Fault Refusal :=
  binary (.bfxS32 c u d a b) u d.toNat a.toNat b.toNat tagInt (fieldExtract true) s

/-- BFX.n32 (05 R102). -/
def execBfxN32 (c u : Bool) (d a b : BitVec 7) (s : State) : Host.Outcome State Fault Refusal :=
  binary (.bfxN32 c u d a b) u d.toNat a.toNat b.toNat tagInt (fieldExtract false) s

/-- BFI (05 R102). -/
def execBfi (c u : Bool) (d a b : BitVec 7) (s : State) : Host.Outcome State Fault Refusal :=
  ternary (.bfi c u d a b) u d.toNat a.toNat b.toNat tagInt fieldInsert s

/-- PERM (05 R102). -/
def execPerm (c u : Bool) (d a b : BitVec 7) (s : State) : Host.Outcome State Fault Refusal :=
  ternary (.perm c u d a b) u d.toNat a.toNat b.toNat tagInt permute s

/-- SHF (05 R102). -/
def execShf (c u : Bool) (d a b : BitVec 7) (s : State) : Host.Outcome State Fault Refusal :=
  ternary (.shf c u d a b) u d.toNat a.toNat b.toNat tagInt funnel s

/-- IADDS.s32 (05 R102). -/
def execIaddsS32 (c u : Bool) (d a b : BitVec 7) (s : State) : Host.Outcome State Fault Refusal :=
  binary (.iaddsS32 c u d a b) u d.toNat a.toNat b.toNat tagInt (fun x y => clampS (x.toInt + y.toInt)) s

/-- ISUBS.s32 (05 R102). -/
def execIsubsS32 (c u : Bool) (d a b : BitVec 7) (s : State) : Host.Outcome State Fault Refusal :=
  binary (.isubsS32 c u d a b) u d.toNat a.toNat b.toNat tagInt (fun x y => clampS (x.toInt - y.toInt)) s

/-- IADDS.n32 (05 R102). -/
def execIaddsN32 (c u : Bool) (d a b : BitVec 7) (s : State) : Host.Outcome State Fault Refusal :=
  binary (.iaddsN32 c u d a b) u d.toNat a.toNat b.toNat tagInt (fun x y => clampN (x.toNat + y.toNat)) s

/-! Majors 0x08 to 0x0E (05 R103). -/

/-- IADDI (05 R103). -/
def execIaddi (c u : Bool) (d a : BitVec 7) (imm : BitVec 10) (s : State) : Host.Outcome State Fault Refusal :=
  unary (.iaddi c u d a imm) u d.toNat a.toNat tagInt (fun x => x + imm.signExtend 32) s

/-- ANDI (05 R103). -/
def execAndi (c u : Bool) (d a : BitVec 7) (imm : BitVec 10) (s : State) : Host.Outcome State Fault Refusal :=
  unary (.andi c u d a imm) u d.toNat a.toNat tagInt (fun x => x &&& imm.signExtend 32) s

/-- ORI (05 R103). -/
def execOri (c u : Bool) (d a : BitVec 7) (imm : BitVec 10) (s : State) : Host.Outcome State Fault Refusal :=
  unary (.ori c u d a imm) u d.toNat a.toNat tagInt (fun x => x ||| imm.signExtend 32) s

/-- XORI (05 R103). -/
def execXori (c u : Bool) (d a : BitVec 7) (imm : BitVec 10) (s : State) : Host.Outcome State Fault Refusal :=
  unary (.xori c u d a imm) u d.toNat a.toNat tagInt (fun x => x ^^^ imm.signExtend 32) s

/-- SHFI (05 R103). -/
def execShfi (c u : Bool) (d a : BitVec 7) (sc : BitVec 2) (n : BitVec 6) (s : State) : Host.Outcome State Fault Refusal :=
  unary (.shfi c u d a sc n) u d.toNat a.toNat tagInt (fun x => shiftImm sc x n.toNat) s

/-- IMULI (05 R103). -/
def execImuli (c u : Bool) (d a : BitVec 7) (imm : BitVec 10) (s : State) : Host.Outcome State Fault Refusal :=
  unary (.imuli c u d a imm) u d.toNat a.toNat tagInt (fun x => x * imm.signExtend 32) s

/-- LEAI (05 R103). -/
def execLeai (c u : Bool) (d a : BitVec 6) (imm : BitVec 10) (s : State) : Host.Outcome State Fault Refusal :=
  runWord (.leai c u d a imm) noCheck (perThread u (fun pre l t c =>
    c.writeVV t (2 * d.toNat) (pre.vv l (2 * a.toNat) + imm.signExtend 64) tagInt)) s

/-! Majors 0x10 to 0x12 (05 R104, R105). -/

/-- MOVI (05 R104). -/
def execMovi (c u : Bool) (d : BitVec 7) (imm : BitVec 17) (s : State) : Host.Outcome State Fault Refusal :=
  runWord (.movi c u d imm) noCheck (perThread u (fun _ _ t c => c.writeV t d.toNat (imm.signExtend 32) tagRaw)) s

/-- MOVHI (05 R104). -/
def execMovhi (c u : Bool) (d : BitVec 7) (imm : BitVec 17) (s : State) : Host.Outcome State Fault Refusal :=
  unary (.movhi c u d imm) u d.toNat d.toNat tagRaw (fun z => moveHigh z imm) s

/-- KLD (05 R104, R105): a word of the team's constant bank, zero where nothing is bound. -/
def execKld (c u : Bool) (d : BitVec 7) (k : BitVec 10) (s : State) : Host.Outcome State Fault Refusal :=
  runWord (.kld c u d k) noCheck (perThread u (fun pre l t c =>
    c.writeV t d.toNat (Sparse.get 0 (pre.team (pre.teamOf l)).kbank k.toNat) tagRaw)) s

/-! Majors 0x13 and 0x14 (05 R106, R107). -/

/-- ISETP (05 R106). -/
def execIsetp (c u : Bool) (f : BitVec 3) (e : BitVec 2) (p : BitVec 3) (a b : BitVec 7) (s : State) : Host.Outcome State Fault Refusal :=
  predicate (.isetp c u f e p a b) u p.toNat (fun pre l => combine e (pre.p l p.toNat) (condInt f (pre.v l a.toNat) (pre.v l b.toNat))) s

/-- FSETP (05 R106). -/
def execFsetp (c u : Bool) (f : BitVec 3) (e : BitVec 2) (p : BitVec 3) (a b : BitVec 7) (s : State) : Host.Outcome State Fault Refusal :=
  predicate (.fsetp c u f e p a b) u p.toNat (fun pre l => combine e (pre.p l p.toNat) (condFloat f (pre.v l a.toNat) (pre.v l b.toNat))) s

/-! Major 0x15 (05 R108). -/

/-- PAND (05 R108). -/
def execPand (c u : Bool) (d a b : BitVec 3) (s : State) : Host.Outcome State Fault Refusal :=
  predicate (.pand c u d a b) u d.toNat (fun pre l => pre.p l a.toNat && pre.p l b.toNat) s

/-- POR (05 R108). -/
def execPor (c u : Bool) (d a b : BitVec 3) (s : State) : Host.Outcome State Fault Refusal :=
  predicate (.por c u d a b) u d.toNat (fun pre l => pre.p l a.toNat || pre.p l b.toNat) s

/-- PXOR (05 R108). -/
def execPxor (c u : Bool) (d a b : BitVec 3) (s : State) : Host.Outcome State Fault Refusal :=
  predicate (.pxor c u d a b) u d.toNat (fun pre l => xor (pre.p l a.toNat) (pre.p l b.toNat)) s

/-- PNOT (05 R108). -/
def execPnot (c u : Bool) (d a : BitVec 3) (s : State) : Host.Outcome State Fault Refusal :=
  predicate (.pnot c u d a) u d.toNat (fun pre l => !pre.p l a.toNat) s

/-- P2V (05 R108). -/
def execP2v (c u : Bool) (d : BitVec 7) (s : State) : Host.Outcome State Fault Refusal :=
  runWord (.p2v c u d) noCheck (perThread u (fun pre l t c => c.writeV t d.toNat ((pre.thread l).preds.setWidth 32) tagInt)) s

/-- V2P (05 R108): all eight predicates. -/
def execV2p (c u : Bool) (a : BitVec 7) (s : State) : Host.Outcome State Fault Refusal :=
  runWord (.v2p c u a) noCheck (perThread u (fun pre l t c =>
    c.setThread t { c.thread t with preds := (pre.v l a.toNat).setWidth 8 })) s

/-- PSET (05 R108). -/
def execPset (c u : Bool) (d : BitVec 3) (b : BitVec 1) (s : State) : Host.Outcome State Fault Refusal :=
  predicate (.pset c u d b) u d.toNat (fun _ _ => b == 1) s

/-! Major 0x16 (05 R109). -/

/-- SELP (05 R109): bits and tag of the register selected. -/
def execSelp (c u : Bool) (d a b : BitVec 7) (p : BitVec 3) (s : State) : Host.Outcome State Fault Refusal :=
  runWord (.selp c u d a b p) noCheck (perThread u (fun pre l t c =>
    let r := pre.reg l (if pre.p l p.toNat then a.toNat else b.toNat)
    c.writeV t d.toNat r.bits r.tag)) s

/-! Major 0x17 (05 R110, R111; 21 R456). -/

/-- MAND (05 R110). -/
def execMand (c u : Bool) (d a b : BitVec 4) (s : State) : Host.Outcome State Fault Refusal :=
  maskOp (.mand c u d a b) d (fun pre g _ => pre.readM g a.toNat &&& pre.readM g b.toNat) s

/-- MOR (05 R110). -/
def execMor (c u : Bool) (d a b : BitVec 4) (s : State) : Host.Outcome State Fault Refusal :=
  maskOp (.mor c u d a b) d (fun pre g _ => pre.readM g a.toNat ||| pre.readM g b.toNat) s

/-- MXOR (05 R110). -/
def execMxor (c u : Bool) (d a b : BitVec 4) (s : State) : Host.Outcome State Fault Refusal :=
  maskOp (.mxor c u d a b) d (fun pre g _ => pre.readM g a.toNat ^^^ pre.readM g b.toNat) s

/-- MNOT (05 R110). -/
def execMnot (c u : Bool) (d a : BitVec 4) (s : State) : Host.Outcome State Fault Refusal :=
  maskOp (.mnot c u d a) d (fun pre g _ => ~~~pre.readM g a.toNat) s

/-- MFROMV (05 R110): v(a) of the group's lowest active home lane. -/
def execMfromv (c u : Bool) (d : BitVec 4) (a : BitVec 7) (s : State) : Host.Outcome State Fault Refusal :=
  maskOp (.mfromv c u d a) d (fun pre _ ts => pre.v (ts.headD 0) a.toNat) s

/-- MTOV (05 R110). -/
def execMtov (c u : Bool) (d : BitVec 7) (a : BitVec 4) (s : State) : Host.Outcome State Fault Refusal :=
  maskRead (.mtov c u d a) d (fun pre g => pre.readM g a.toNat) s

/-- MPOPC (05 R110). -/
def execMpopc (c u : Bool) (d : BitVec 7) (a : BitVec 4) (s : State) : Host.Outcome State Fault Refusal :=
  maskRead (.mpopc c u d a) d (fun pre g => BitVec.ofNat 32 (popCount (pre.readM g a.toNat))) s

/-- MSELF (05 R110): the home lanes of the group's active lanes. -/
def execMself (c u : Bool) (d : BitVec 4) (s : State) : Host.Outcome State Fault Refusal :=
  maskOp (.mself c u d) d (fun pre _ ts => pre.maskOfThreads ts) s

end Sys2Proof.Machine
end

