-- ==== Sys2Proof/Machine/Floating.lean ====
section
/-! DEFINITION. Floating, packed and conversion instructions, majors 0x18 to 0x1E (06): what each computes, and its meaning. -/

namespace Sys2Proof.Machine

/-! What the words compute. -/

/-- x × y + z rounded once, with the signs of the product and of the addend chosen (06 R116). -/
def fused (negP negQ : Bool) (z x y : Word) : Word :=
  let p := (f32 x).mul (f32 y)
  let q := f32 z
  toF32 ((if negP then p.negate else p).add (if negQ then q.negate else q))

/-- FABS (06 R115). -/
def absWord (x : Word) : Word := x &&& 0x7FFFFFFF
/-- FNEG (06 R115). -/
def negWord (x : Word) : Word := x ^^^ 0x80000000
/-- FCPSGN (06 R115). -/
def copySign (x y : Word) : Word := (x &&& 0x7FFFFFFF) ||| (y &&& 0x80000000)

/-- FRINT (06 R119, R120): the result keeps the sign of x when it is zero. -/
def roundWord (m : Mode) (x : Word) : Word :=
  match f32 x with
  | .nan => f32Nan
  | .inf neg => f32Inf neg
  | .fin neg k e => toF32 (.fin neg (roundInt m neg k e) 0)

/-- FCLASS (06 R121). -/
def classMask (x : Word) : Word :=
  let neg := x.getLsbD 31
  let e := fieldNat x.toNat 23 8
  let m := fieldNat x.toNat 0 23
  let bit := if e = 255 then (if m = 0 then (if neg then 0 else 7) else if x.getLsbD 22 then 9 else 8)
    else if e = 0 then (if m = 0 then (if neg then 3 else 4) else if neg then 2 else 5)
    else if neg then 1 else 6
  BitVec.ofNat 32 (2 ^ bit)

/-- FSCALB (06 R122). -/
def scaleWord (x y : Word) : Word :=
  if (f32 x).isNan || (f32 y).isNan then f32Nan else toF32 ((f32 x).mul (.pow2 (toIntClamped .rz (-512) 512 (f32 y))))

/-- The F32 encoding of a value that F32 represents exactly (06 R125): a zero of PS8 is +0. -/
def quantised (tag : Tag) (m : Mode) (sat : Bool) (x : Word) : Word :=
  let r := roundTag tag m sat (f32 x)
  toF32 (elemValue tag (BitVec.ofNat 32 r) 0)

/-- CVT (06 R124): result and tag of a selector; any other selector has no encoding. -/
def convert (b : BitVec 7) (m : Mode) (sat : Bool) (x : Word) : Word × Tag :=
  let int := fun (lo hi : Int) => (BitVec.ofInt 32 (toIntClamped m lo hi (f32 x)), tagInt)
  let flt := fun (v : Int) => (BitVec.ofNat 32 (roundF fmtF32 m false (.ofInt v)), tagF32)
  match b.toNat with
  | 0x00 => int (-(2 ^ 31)) (2 ^ 31 - 1)
  | 0x01 => int 0 (2 ^ 32 - 1)
  | 0x02 => int (-128) 127
  | 0x03 => int 0 255
  | 0x08 => flt x.toInt
  | 0x09 => flt x.toNat
  | 0x10 => (quantised tagBf16 m sat x, tagF32)
  | 0x11 => (quantised tagE4m3 m sat x, tagF32)
  | 0x12 => (quantised tagE5m2 m sat x, tagF32)
  | 0x13 => (quantised tagPs8 m false x, tagF32)
  | 0x21 => (x, tagInt)
  | 0x22 => (x, tagF32)
  | 0x23 => (x, tagBf16)
  | 0x24 => (x, tagE4m3)
  | 0x25 => (x, tagE5m2)
  | 0x26 => (x, tagPs8)
  | 0x27 => (x, tagS8)
  | 0x28 => (x, tagN8)
  | 0x29 => (x, tagScale)
  | _ => (x, tagRaw)

/-- An F32 register as an element of a packed format, rounded to nearest even without saturation (06 R126). -/
def packElem (tag : Tag) (x : Word) : Nat := roundTag tag .rn false (f32 x)

/-- PKBF (06 R126). -/
def packPair (x y : Word) : Word := BitVec.ofNat 32 (packElem tagBf16 x + 65536 * packElem tagBf16 y)
/-- PK*.lo (06 R126): elements 2 and 3 take `rest`. -/
def packLow (tag : Tag) (rest : Nat) (x y : Word) : Word :=
  BitVec.ofNat 32 (packElem tag x + 256 * packElem tag y + 65536 * rest + 16777216 * rest)
/-- PK*.hi (06 R126): elements 0 and 1 are kept. -/
def packHigh (tag : Tag) (z x y : Word) : Word :=
  BitVec.ofNat 32 (fieldNat z.toNat 0 16 + 65536 * packElem tag x + 16777216 * packElem tag y)

/-- UNPK (06 R127): result and tag. -/
def unpack (r : Reg) (j : Nat) : Word × Tag :=
  if r.tag = tagS8 then (BitVec.ofInt 32 (signedNat (elem r.bits 8 j) 8), tagInt)
  else if r.tag = tagN8 then (BitVec.ofNat 32 (elem r.bits 8 j), tagInt)
  else (toF32 (elemValue r.tag r.bits (if r.tag = tagBf16 then j % 2 else j)), tagF32)

/-- The floating dot products (06 R129). -/
def dotFloat (tag : Tag) (n : Nat) (z x y : Word) : Word := toF32 ((f32 z).add (dotSum tag n x y))
/-- DOT4.s8 and DOT4.n8 (06 R129). -/
def dotWord (signed : Bool) (z x y : Word) : Word := z + BitVec.ofInt 32 (dotInt signed x y)

/-- HADD2.bf16 and HMUL2.bf16 (06 R130). -/
def pairwise (f : Val → Val → Val) (x y : Word) : Word :=
  let el := fun j => roundF fmtBF16 .rn false (f (elemValue tagBf16 x j) (elemValue tagBf16 y j))
  BitVec.ofNat 32 (el 0 + 65536 * el 1)

/-! Major 0x18 (06 R115). -/

/-- FADD (06 R115). -/
def execFadd (c u : Bool) (d a b : BitVec 7) (s : State) : Host.Outcome State Fault Refusal :=
  binary (.fadd c u d a b) u d.toNat a.toNat b.toNat tagF32 (fun x y => toF32 ((f32 x).add (f32 y))) s

/-- FSUB (06 R115). -/
def execFsub (c u : Bool) (d a b : BitVec 7) (s : State) : Host.Outcome State Fault Refusal :=
  binary (.fsub c u d a b) u d.toNat a.toNat b.toNat tagF32 (fun x y => toF32 ((f32 x).add (f32 y).negate)) s

/-- FMUL (06 R115). -/
def execFmul (c u : Bool) (d a b : BitVec 7) (s : State) : Host.Outcome State Fault Refusal :=
  binary (.fmul c u d a b) u d.toNat a.toNat b.toNat tagF32 (fun x y => toF32 ((f32 x).mul (f32 y))) s

/-- FMIN (06 R115, 04 R69). -/
def execFmin (c u : Bool) (d a b : BitVec 7) (s : State) : Host.Outcome State Fault Refusal :=
  binary (.fmin c u d a b) u d.toNat a.toNat b.toNat tagF32 fminWord s

/-- FMAX (06 R115, 04 R69). -/
def execFmax (c u : Bool) (d a b : BitVec 7) (s : State) : Host.Outcome State Fault Refusal :=
  binary (.fmax c u d a b) u d.toNat a.toNat b.toNat tagF32 fmaxWord s

/-- FABS (06 R115). -/
def execFabs (c u : Bool) (d a : BitVec 7) (s : State) : Host.Outcome State Fault Refusal :=
  unary (.fabs c u d a) u d.toNat a.toNat tagF32 absWord s

/-- FNEG (06 R115). -/
def execFneg (c u : Bool) (d a : BitVec 7) (s : State) : Host.Outcome State Fault Refusal :=
  unary (.fneg c u d a) u d.toNat a.toNat tagF32 negWord s

/-- FCPSGN (06 R115). -/
def execFcpsgn (c u : Bool) (d a b : BitVec 7) (s : State) : Host.Outcome State Fault Refusal :=
  binary (.fcpsgn c u d a b) u d.toNat a.toNat b.toNat tagF32 copySign s

/-! Major 0x19 (06 R116). -/

/-- FMA (06 R116). -/
def execFma (c u : Bool) (d a b : BitVec 7) (s : State) : Host.Outcome State Fault Refusal :=
  ternary (.fma c u d a b) u d.toNat a.toNat b.toNat tagF32 (fused false false) s

/-- FMS (06 R116). -/
def execFms (c u : Bool) (d a b : BitVec 7) (s : State) : Host.Outcome State Fault Refusal :=
  ternary (.fms c u d a b) u d.toNat a.toNat b.toNat tagF32 (fused false true) s

/-- FNMA (06 R116). -/
def execFnma (c u : Bool) (d a b : BitVec 7) (s : State) : Host.Outcome State Fault Refusal :=
  ternary (.fnma c u d a b) u d.toNat a.toNat b.toNat tagF32 (fused true true) s

/-- FNMS (06 R116). -/
def execFnms (c u : Bool) (d a b : BitVec 7) (s : State) : Host.Outcome State Fault Refusal :=
  ternary (.fnms c u d a b) u d.toNat a.toNat b.toNat tagF32 (fused true false) s

/-! Major 0x1A (06 R117, R118). -/

/-- FRCP (06 R118). -/
def execFrcp (c u : Bool) (d a : BitVec 7) (s : State) : Host.Outcome State Fault Refusal :=
  unary (.frcp c u d a) u d.toNat a.toNat tagF32 Sys2Proof.Machine.frcp s

/-- FRSQ (06 R118). -/
def execFrsq (c u : Bool) (d a : BitVec 7) (s : State) : Host.Outcome State Fault Refusal :=
  unary (.frsq c u d a) u d.toNat a.toNat tagF32 Sys2Proof.Machine.frsq s

/-- FSQRTA (06 R118). -/
def execFsqrta (c u : Bool) (d a : BitVec 7) (s : State) : Host.Outcome State Fault Refusal :=
  unary (.fsqrta c u d a) u d.toNat a.toNat tagF32 Sys2Proof.Machine.fsqrta s

/-- FEX2 (06 R118). -/
def execFex2 (c u : Bool) (d a : BitVec 7) (s : State) : Host.Outcome State Fault Refusal :=
  unary (.fex2 c u d a) u d.toNat a.toNat tagF32 Sys2Proof.Machine.fex2 s

/-- FLG2 (06 R118). -/
def execFlg2 (c u : Bool) (d a : BitVec 7) (s : State) : Host.Outcome State Fault Refusal :=
  unary (.flg2 c u d a) u d.toNat a.toNat tagF32 Sys2Proof.Machine.flg2 s

/-- FSINP (06 R118). -/
def execFsinp (c u : Bool) (d a : BitVec 7) (s : State) : Host.Outcome State Fault Refusal :=
  unary (.fsinp c u d a) u d.toNat a.toNat tagF32 Sys2Proof.Machine.fsinp s

/-- FCOSP (06 R118). -/
def execFcosp (c u : Bool) (d a : BitVec 7) (s : State) : Host.Outcome State Fault Refusal :=
  unary (.fcosp c u d a) u d.toNat a.toNat tagF32 Sys2Proof.Machine.fcosp s

/-- FTANH (06 R118). -/
def execFtanh (c u : Bool) (d a : BitVec 7) (s : State) : Host.Outcome State Fault Refusal :=
  unary (.ftanh c u d a) u d.toNat a.toNat tagF32 Sys2Proof.Machine.ftanh s

/-! Major 0x1B (06 R119 to R122). -/

/-- FDIV (06 R119, R120). -/
def execFdiv (c u : Bool) (d a b : BitVec 7) (s : State) : Host.Outcome State Fault Refusal :=
  binary (.fdiv c u d a b) u d.toNat a.toNat b.toNat tagF32 (fun x y => toF32 ((f32 x).div (f32 y))) s

/-- FSQRT (06 R119, R120). -/
def execFsqrt (c u : Bool) (d a : BitVec 7) (s : State) : Host.Outcome State Fault Refusal :=
  unary (.fsqrt c u d a) u d.toNat a.toNat tagF32 (fun x => toF32 (f32 x).sqrt) s

/-- FRINT.rn (06 R119, R120). -/
def execFrintRn (c u : Bool) (d a : BitVec 7) (s : State) : Host.Outcome State Fault Refusal :=
  unary (.frintRn c u d a) u d.toNat a.toNat tagF32 (roundWord .rn) s

/-- FRINT.rz (06 R119, R120). -/
def execFrintRz (c u : Bool) (d a : BitVec 7) (s : State) : Host.Outcome State Fault Refusal :=
  unary (.frintRz c u d a) u d.toNat a.toNat tagF32 (roundWord .rz) s

/-- FRINT.rd (06 R119, R120). -/
def execFrintRd (c u : Bool) (d a : BitVec 7) (s : State) : Host.Outcome State Fault Refusal :=
  unary (.frintRd c u d a) u d.toNat a.toNat tagF32 (roundWord .rd) s

/-- FRINT.ru (06 R119, R120). -/
def execFrintRu (c u : Bool) (d a : BitVec 7) (s : State) : Host.Outcome State Fault Refusal :=
  unary (.frintRu c u d a) u d.toNat a.toNat tagF32 (roundWord .ru) s

/-- FCLASS (06 R121). -/
def execFclass (c u : Bool) (d a : BitVec 7) (s : State) : Host.Outcome State Fault Refusal :=
  unary (.fclass c u d a) u d.toNat a.toNat tagInt classMask s

/-- FSCALB (06 R122). -/
def execFscalb (c u : Bool) (d a b : BitVec 7) (s : State) : Host.Outcome State Fault Refusal :=
  binary (.fscalb c u d a b) u d.toNat a.toNat b.toNat tagF32 scaleWord s

/-! Major 0x1C (06 R123 to R125). -/

/-- CVT (06 R123, R124). -/
def execCvt (c u : Bool) (sc : BitVec 1) (r : BitVec 2) (d a b : BitVec 7) (s : State) : Host.Outcome State Fault Refusal :=
  runWord (.cvt c u sc r d a b) noCheck (perThread u (fun pre l t c =>
    let w := convert b (modeOf r) (sc == 1) (pre.v l a.toNat)
    c.writeV t d.toNat w.1 w.2)) s

/-! Major 0x1D (06 R126, R127). -/

/-- PKBF (06 R126). -/
def execPkbf (c u : Bool) (d a b : BitVec 7) (s : State) : Host.Outcome State Fault Refusal :=
  binary (.pkbf c u d a b) u d.toNat a.toNat b.toNat tagBf16 packPair s

/-- PKE4.lo (06 R126). -/
def execPke4Lo (c u : Bool) (d a b : BitVec 7) (s : State) : Host.Outcome State Fault Refusal :=
  binary (.pke4Lo c u d a b) u d.toNat a.toNat b.toNat tagE4m3 (packLow tagE4m3 0) s

/-- PKE4.hi (06 R126). -/
def execPke4Hi (c u : Bool) (d a b : BitVec 7) (s : State) : Host.Outcome State Fault Refusal :=
  ternary (.pke4Hi c u d a b) u d.toNat a.toNat b.toNat tagE4m3 (packHigh tagE4m3) s

/-- PKE5.lo (06 R126). -/
def execPke5Lo (c u : Bool) (d a b : BitVec 7) (s : State) : Host.Outcome State Fault Refusal :=
  binary (.pke5Lo c u d a b) u d.toNat a.toNat b.toNat tagE5m2 (packLow tagE5m2 0) s

/-- PKE5.hi (06 R126). -/
def execPke5Hi (c u : Bool) (d a b : BitVec 7) (s : State) : Host.Outcome State Fault Refusal :=
  ternary (.pke5Hi c u d a b) u d.toNat a.toNat b.toNat tagE5m2 (packHigh tagE5m2) s

/-- PKPS.lo (06 R126). -/
def execPkpsLo (c u : Bool) (d a b : BitVec 7) (s : State) : Host.Outcome State Fault Refusal :=
  binary (.pkpsLo c u d a b) u d.toNat a.toNat b.toNat tagPs8 (packLow tagPs8 0x77) s

/-- PKPS.hi (06 R126). -/
def execPkpsHi (c u : Bool) (d a b : BitVec 7) (s : State) : Host.Outcome State Fault Refusal :=
  ternary (.pkpsHi c u d a b) u d.toNat a.toNat b.toNat tagPs8 (packHigh tagPs8) s

/-- UNPK (06 R127). -/
def execUnpk (c u : Bool) (d a : BitVec 7) (j : BitVec 2) (s : State) : Host.Outcome State Fault Refusal :=
  runWord (.unpk c u d a j) noCheck (perThread u (fun pre l t c =>
    let w := unpack (pre.reg l a.toNat) j.toNat
    c.writeV t d.toNat w.1 w.2)) s

/-! Major 0x1E (06 R128 to R130). -/

/-- DOT2.bf16 (06 R128, R129). -/
def execDot2Bf16 (c u : Bool) (d a b : BitVec 7) (s : State) : Host.Outcome State Fault Refusal :=
  ternary (.dot2Bf16 c u d a b) u d.toNat a.toNat b.toNat tagF32 (dotFloat tagBf16 2) s

/-- DOT4.e4m3 (06 R128, R129). -/
def execDot4E4m3 (c u : Bool) (d a b : BitVec 7) (s : State) : Host.Outcome State Fault Refusal :=
  ternary (.dot4E4m3 c u d a b) u d.toNat a.toNat b.toNat tagF32 (dotFloat tagE4m3 4) s

/-- DOT4.e5m2 (06 R128, R129). -/
def execDot4E5m2 (c u : Bool) (d a b : BitVec 7) (s : State) : Host.Outcome State Fault Refusal :=
  ternary (.dot4E5m2 c u d a b) u d.toNat a.toNat b.toNat tagF32 (dotFloat tagE5m2 4) s

/-- DOT4.ps8 (06 R128, R129). -/
def execDot4Ps8 (c u : Bool) (d a b : BitVec 7) (s : State) : Host.Outcome State Fault Refusal :=
  ternary (.dot4Ps8 c u d a b) u d.toNat a.toNat b.toNat tagF32 (dotFloat tagPs8 4) s

/-- DOT4.s8 (06 R128, R129). -/
def execDot4S8 (c u : Bool) (d a b : BitVec 7) (s : State) : Host.Outcome State Fault Refusal :=
  ternary (.dot4S8 c u d a b) u d.toNat a.toNat b.toNat tagInt (dotWord true) s

/-- DOT4.n8 (06 R128, R129). -/
def execDot4N8 (c u : Bool) (d a b : BitVec 7) (s : State) : Host.Outcome State Fault Refusal :=
  ternary (.dot4N8 c u d a b) u d.toNat a.toNat b.toNat tagInt (dotWord false) s

/-- HADD2.bf16 (06 R128, R130). -/
def execHadd2Bf16 (c u : Bool) (d a b : BitVec 7) (s : State) : Host.Outcome State Fault Refusal :=
  binary (.hadd2Bf16 c u d a b) u d.toNat a.toNat b.toNat tagBf16 (pairwise Val.add) s

/-- HMUL2.bf16 (06 R128, R130). -/
def execHmul2Bf16 (c u : Bool) (d a b : BitVec 7) (s : State) : Host.Outcome State Fault Refusal :=
  binary (.hmul2Bf16 c u d a b) u d.toNat a.toNat b.toNat tagBf16 (pairwise Val.mul) s

end Sys2Proof.Machine
end

