-- ==== Sys2Proof/Machine/Group.lean ====
section
/-! DEFINITION. Shuffles, votes and matches, major 0x26, and reductions, major 0x27 (07 R156 to R161). -/

namespace Sys2Proof.Machine

/-- Writing what a release has granted: a register, a predicate or the eight registers of a tile. -/
def Chip.takeGrant (c : Chip) (t d : Nat) : Grant → Chip
  | .value w tag => c.writeV t d w tag
  | .flag b => c.writeP t d b
  | .tile ws => (List.range 8).foldl (fun c j => match ws[j]? with | some w => c.writeV t (8 * d + j) w.1 w.2 | none => c) c
  | _ => c

/-- A collective over mask m with destination d (07 R156): a thread whose own lane the mask does not name takes part alone,
at once; any other waits until its participation set has arrived. -/
def collective (i : Instr) (m d : Nat) (s : State) : Host.Outcome State Fault Refusal :=
  let named := fun (e : State) t => (e.now.readM (groupOf t) m).getLsbD (e.now.laneBit t)
  let check : Check := fun e t slot => match e.grantOf t with
    | some _ => none
    | none => if named e t then some (waitFor e slot (.collective m) 0 i true) else none
  let act : Act := fun e _ live c => live.foldl (fun c t => match e.grantOf t with
    | some g => c.takeGrant t d g
    | none => c.takeGrant t d (collectiveResult e.now i [t] t)) c
  runWord i check act s

/-- SHFL.IDX (07 R159). -/
def execShflIdx (c : Bool) (d : BitVec 7) (a : BitVec 7) (m : BitVec 4) (s : State) : Host.Outcome State Fault Refusal :=
  collective (.shflIdx c d a m) m.toNat d.toNat s

/-- SHFL.XOR (07 R159). -/
def execShflXor (c : Bool) (d : BitVec 7) (a : BitVec 7) (m : BitVec 4) (s : State) : Host.Outcome State Fault Refusal :=
  collective (.shflXor c d a m) m.toNat d.toNat s

/-- SHFL.UP (07 R159). -/
def execShflUp (c : Bool) (d : BitVec 7) (a : BitVec 7) (m : BitVec 4) (s : State) : Host.Outcome State Fault Refusal :=
  collective (.shflUp c d a m) m.toNat d.toNat s

/-- SHFL.DN (07 R159). -/
def execShflDn (c : Bool) (d : BitVec 7) (a : BitVec 7) (m : BitVec 4) (s : State) : Host.Outcome State Fault Refusal :=
  collective (.shflDn c d a m) m.toNat d.toNat s

/-- VOTE.ALL (07 R160). -/
def execVoteAll (c : Bool) (d : BitVec 3) (n : BitVec 1) (a : BitVec 3) (m : BitVec 4) (s : State) : Host.Outcome State Fault Refusal :=
  collective (.voteAll c d n a m) m.toNat d.toNat s

/-- VOTE.ANY (07 R160). -/
def execVoteAny (c : Bool) (d : BitVec 3) (n : BitVec 1) (a : BitVec 3) (m : BitVec 4) (s : State) : Host.Outcome State Fault Refusal :=
  collective (.voteAny c d n a m) m.toNat d.toNat s

/-- BALLOT (07 R160). -/
def execBallot (c : Bool) (d : BitVec 7) (n : BitVec 1) (a : BitVec 3) (m : BitVec 4) (s : State) : Host.Outcome State Fault Refusal :=
  collective (.ballot c d n a m) m.toNat d.toNat s

/-- MATCH (07 R160). -/
def execMatchLanes (c : Bool) (d : BitVec 7) (a : BitVec 7) (m : BitVec 4) (s : State) : Host.Outcome State Fault Refusal :=
  collective (.matchLanes c d a m) m.toNat d.toNat s

/-- RADD (07 R161). -/
def execRadd (c : Bool) (d : BitVec 7) (a : BitVec 7) (m : BitVec 4) (s : State) : Host.Outcome State Fault Refusal :=
  collective (.radd c d a m) m.toNat d.toNat s

/-- RMIN.S32 (07 R161). -/
def execRminS32 (c : Bool) (d : BitVec 7) (a : BitVec 7) (m : BitVec 4) (s : State) : Host.Outcome State Fault Refusal :=
  collective (.rminS32 c d a m) m.toNat d.toNat s

/-- RMAX.S32 (07 R161). -/
def execRmaxS32 (c : Bool) (d : BitVec 7) (a : BitVec 7) (m : BitVec 4) (s : State) : Host.Outcome State Fault Refusal :=
  collective (.rmaxS32 c d a m) m.toNat d.toNat s

/-- RAND (07 R161). -/
def execRand (c : Bool) (d : BitVec 7) (a : BitVec 7) (m : BitVec 4) (s : State) : Host.Outcome State Fault Refusal :=
  collective (.rand c d a m) m.toNat d.toNat s

/-- ROR (07 R161). -/
def execRor (c : Bool) (d : BitVec 7) (a : BitVec 7) (m : BitVec 4) (s : State) : Host.Outcome State Fault Refusal :=
  collective (.ror c d a m) m.toNat d.toNat s

/-- RXOR (07 R161). -/
def execRxor (c : Bool) (d : BitVec 7) (a : BitVec 7) (m : BitVec 4) (s : State) : Host.Outcome State Fault Refusal :=
  collective (.rxor c d a m) m.toNat d.toNat s

/-- RFADD (07 R161). -/
def execRfadd (c : Bool) (d : BitVec 7) (a : BitVec 7) (m : BitVec 4) (s : State) : Host.Outcome State Fault Refusal :=
  collective (.rfadd c d a m) m.toNat d.toNat s

/-- RMIN.N32 (07 R161). -/
def execRminN32 (c : Bool) (d : BitVec 7) (a : BitVec 7) (m : BitVec 4) (s : State) : Host.Outcome State Fault Refusal :=
  collective (.rminN32 c d a m) m.toNat d.toNat s

end Sys2Proof.Machine
end

