-- ==== Sys2Proof/Machine/Loader.lean ====
section
/-! DEFINITION. Loading a code object (08 R163 to R171, R175): the file's checks, placement, relocation, linkage entries, constant
templates and key bindings; and unloading one (R167). -/

namespace Sys2Proof.Machine

/-- A symbol (R164): name bytes, kind, flags, value. -/
structure Symbol where
  name : List (BitVec 8)
  kind : Nat
  flags : Nat
  value : Nat

/-- A relocation (R164). -/
structure Reloc where
  place : Nat
  kind : Nat
  sym : Nat
  addend : Nat

/-- A kernel descriptor (R168) with its key bindings. -/
structure Desc where
  kernel : Kernel
  tmpl : Nat
  keys : List (Nat × Nat)

/-- A code object, read and checked. -/
structure Object where
  code : List (BitVec 8)
  data : List (BitVec 8)
  dataoff : Nat
  links : Nat
  syms : List Symbol
  rels : List Reloc
  descs : List Desc
  /-- The templates as the file holds them, by descriptor. -/
  tmpls : List (List (BitVec 8))

/-- `n` bytes at a physical address. -/
def physBytes (e : State) (c : Chip) (p n : Nat) : List (BitVec 8) := (List.range n).map (fun i => BitVec.ofNat 8 (peek e c (p + i) 1))

/-- The bytes of a zero-terminated name. -/
def physName (e : State) (c : Chip) : Nat → Nat → List (BitVec 8)
  | 0, _ => []
  | n + 1, p => let b := peek e c p 1; if b = 0 then [] else BitVec.ofNat 8 b :: physName e c n (p + 1)

/-- A power of two from 8 to 65,536. -/
def alignOk (n : Nat) : Bool := (List.range 14).any (fun i => decide (n = 8 * 2 ^ i))

/-- A descriptor's ranges (R63, R64, R168, R169). -/
def kernelOk (k : Kernel) (codesize access cls : Nat) : Bool :=
  decide (k.entry.toNat % 12 = 0) && decide (k.entry.toNat < codesize) && (decide (access = 0xFFFFFFFF) || decide (access % 12 = 0)) &&
    decide (1 ≤ cls) && decide (cls ≤ 2) && decide (1 ≤ k.threads) && decide (k.threads ≤ 1024) && decide (k.regs % 8 = 0) && decide (8 ≤ k.regs) &&
    decide (k.regs ≤ 128) && decide (k.barriers ≤ 16) && decide (k.plates ≤ 384) && decide (k.spad % 128 = 0) && decide (k.spad ≤ 524288) &&
    shapeOk k.clw k.clh &&
    (decide (cls = 2) || (decide (k.threads ≤ 512) && decide (k.regs ≤ 64) && decide (k.barriers ≤ 4) && decide (k.plates ≤ 32) && decide (k.spad ≤ 98304) &&
      decide (k.clw * k.clh ≤ 4)))

/-- The value of a discovery key the device reports (R173). -/
def keyValue (code : Nat) : Option Nat := (Config.keys.find? (fun k => decide (Config.keyCode k.1 = code))).map (·.2)

/-- One descriptor, the string table at a file offset; none where it is refused. -/
def readDesc (e : State) (c : Chip) (file codesize strings at_ : Nat) : Option Desc :=
  let rd := fun off n => peek e c (file + at_ + off) n
  let cls := rd 0x0C 2
  let k : Kernel :=
    { entry := BitVec.ofNat 64 (rd 0 8), sbx := decide (cls = 2), threads := rd 0x0E 2, regs := rd 0x10 1, barriers := rd 0x11 1, plates := rd 0x12 2
      spad := rd 0x14 4, clw := rd 0x18 1, clh := rd 0x19 1, name := physName e c 65536 (file + strings + rd 0x1C 4)
      bound := BitVec.ofNat 1024 (peek e c (file + rd 0x24 4) 128) }
  let keys := (List.range (rd 0x2C 4)).map (fun i =>
    let p := file + rd 0x28 4 + 16 * i
    (peek e c p 8, peek e c (p + 8) 2, peek e c (p + 10) 6))
  let bad := !kernelOk k codesize (rd 8 4) cls || decide (rd 0x1A 2 ≠ 0) || decide (rd 0x30 16 ≠ 0) ||
    keys.any (fun q => (keyValue q.1).isNone || decide (1024 ≤ q.2.1) || decide (q.2.2 ≠ 0))
  if bad then none else some { kernel := k, tmpl := rd 0x20 4, keys := keys.map (fun q => (q.2.1, (keyValue q.1).getD 0)) }

/-- Every value of a list, or none. -/
def allSome {α : Type} (l : List (Option α)) : Option (List α) :=
  l.foldr (fun x r => match x, r with | some x, some r => some (x :: r) | _, _ => none) (some [])

/-- Reading a file; none where it is refused (R163, R164, R168, R169, R173). -/
def readObject (e : State) (c : Chip) (file : Nat) : Option Object :=
  let rd := fun off n => peek e c (file + off) n
  let kernels := rd 0x06 2
  let codesize := rd 0x0C 4
  let syms := (List.range (rd 0x24 4)).map (fun i =>
    let p := file + rd 0x20 4 + 16 * i
    ({ name := physName e c 65536 (file + rd 0x34 4 + peek e c p 4), kind := peek e c (p + 4) 2, flags := peek e c (p + 6) 2, value := peek e c (p + 8) 8 } : Symbol))
  let rels := (List.range (rd 0x2C 4)).map (fun i =>
    let p := file + rd 0x28 4 + 16 * i
    (peek e c (p + 6) 2, ({ place := peek e c p 4, kind := peek e c (p + 4) 2, sym := peek e c (p + 8) 4, addend := peek e c (p + 12) 4 } : Reloc)))
  let bad := decide (rd 0 4 ≠ 0x4F584D4E) || decide (rd 4 2 ≠ 1) || decide (kernels = 0) || decide (codesize = 0) || decide (codesize % 12 ≠ 0) ||
    !alignOk (rd 0x18 4) || decide (rd 0x38 8 ≠ 0) ||
    syms.any (fun s => decide (s.kind = 0) || decide (3 < s.kind) || decide (4 ≤ s.flags) || (decide (s.kind = 3) && decide (s.value ≠ 0))) ||
    rels.any (fun r => decide (r.1 ≠ 0) || decide (r.2.kind = 0) || decide (3 < r.2.kind) || decide (syms.length ≤ r.2.sym))
  match allSome ((List.range kernels).map (fun i => readDesc e c file codesize (rd 0x34 4) (rd 0x30 4 + 64 * i))) with
  | none => none
  | some descs =>
    if bad then none
    else some
      { code := physBytes e c (file + rd 0x08 4) codesize, data := physBytes e c (file + rd 0x10 4) (rd 0x14 4), dataoff := rd 0x10 4, links := rd 0x1C 4
        syms := syms, rels := rels.map (·.2), descs := descs, tmpls := descs.map (fun d => physBytes e c (file + d.tmpl) 4096) }

/-- Where the parts of an object lie from its data base on: the linkage table behind the data, the templates behind it. -/
def Object.linkOff (o : Object) : Nat := (o.data.length + 7) / 8 * 8
def Object.tmplOff (o : Object) : Nat := (o.linkOff + 8 * o.links + 127) / 128 * 128

/-- The address that a context's objects export under a name, the first in load order. -/
def Ctx.export? (x : Ctx) (name : List (BitVec 8)) : Option Nat := (x.exports.find? (fun p => decide (p.1 = name))).map (·.2)

/-- lnk of the i-th linkage entry, the object's data placed at `data` (R165, R175). -/
def Object.lnk (o : Object) (data i : Nat) : Nat := data + o.linkOff + 8 * i

/-- The symbols' load-time addresses; none where an import is exported by no loaded object. DEDUCED (log entry 122): no symbol kind names
lnk(s), so a relocation against it names a data label whose value is the entry's place behind the data image, `linkOff + 8 i`, and its
address is `Object.lnk` of that entry. -/
def Object.address (o : Object) (x : Ctx) (code data i : Nat) : Option Nat :=
  match o.syms[i]? with
  | none => none
  | some s => if s.kind = 1 then some (code + s.value) else if s.kind = 2 then some (data + s.value) else x.export? s.name

/-- Replacing bytes of a list. -/
def patch (l : List (BitVec 8)) (off : Nat) (bs : List (BitVec 8)) : List (BitVec 8) := l.take off ++ bs ++ l.drop (off + bs.length)

/-- The bytes a relocation writes: the symbol's address with the signed addend, its low half, high half, or all. -/
def Reloc.bytes (r : Reloc) (addr : Nat) : List (BitVec 8) :=
  let v := (addr + (if bitAt r.addend 31 then 2 ^ 64 - 2 ^ 32 + r.addend else r.addend)) % 2 ^ 64
  if r.kind = 1 then leBytes 4 (v % 2 ^ 32) else if r.kind = 2 then leBytes 4 (v / 2 ^ 32) else leBytes 8 v

/-- Relocating an image whose first byte stands at a file offset. -/
def Object.relocate (o : Object) (x : Ctx) (code data off : Nat) (image : List (BitVec 8)) : List (BitVec 8) :=
  o.rels.foldl (fun l r =>
    if r.place < off ∨ off + image.length ≤ r.place then l
    else match o.address x code data r.sym with
      | some a => patch l (r.place - off) (r.bytes a)
      | none => l) image

/-- A template with its keys bound: the words that .const bound as relocated, every other word zero (R171). -/
def Desc.bind (d : Desc) (t : List (BitVec 8)) : List (BitVec 8) :=
  let t := (List.range 1024).flatMap (fun n => if d.kernel.bound.getLsbD n then (t.drop (4 * n)).take 4 else zeros 4)
  d.keys.foldl (fun t k => patch t (4 * k.1) (leBytes 4 (k.2 % 2 ^ 32))) t

/-- The name whose export every linkage entry holds until it is resolved (R175). -/
def stubName : List (BitVec 8) := "rt_stub".toList.map (fun ch => BitVec.ofNat 8 ch.toNat)

/-- The linkage table: the stub, or with eager binding the target already loaded; the file names the entries' symbols by its
imports in order (log entry 63). -/
def Object.linkage (o : Object) (x : Ctx) (eager : Bool) : List (BitVec 8) :=
  let stub := (x.export? stubName).getD 0
  let imports := o.syms.filter (fun s => decide (s.kind = 3))
  (List.range o.links).flatMap (fun i =>
    let target := match imports[i]? with | some s => x.export? s.name | none => none
    leBytes 8 (if eager then target.getD stub else stub))

/-- The data image as it is placed: data, linkage table, templates. -/
def Object.image (o : Object) (x : Ctx) (eager : Bool) (code data : Nat) : List (BitVec 8) :=
  let tmpls := (o.descs.zip o.tmpls).flatMap (fun p => p.1.bind (o.relocate x code data p.1.tmpl p.2))
  let d := o.relocate x code data o.dataoff o.data
  d ++ zeros (o.linkOff - o.data.length) ++ o.linkage x eager ++ zeros (o.tmplOff - o.linkOff - 8 * o.links) ++ tmpls

/-- Whether the object is refused for what the context holds: an import that a relocation names and nothing exports, or linkage
entries without a resolver stub (R164, R175). -/
def Object.refused (o : Object) (x : Ctx) : Bool :=
  o.rels.any (fun r => (o.address x 0 0 r.sym).isNone) || (decide (o.links ≠ 0) && (x.export? stubName).isNone)

/-- A limit of R165 exceeded. -/
def Object.over (o : Object) (x : Ctx) : Bool := decide (2 ^ 26 < o.code.length) || decide (1024 ≤ x.regions.length)

/-! Pages (R166). Which of the free frames and addresses the runtime takes the manual leaves to it: they are free values (log entry
96). -/

/-- The frames of a context's page tables. -/
def tablesOf (e : State) (c : Chip) (ctx : Nat) : List Nat :=
  let root := (c.ctx ctx).ptbase.toNat / 65536 * 65536 % 2 ^ 48
  let below := fun (t : Nat) => (tableAt e c t).filterMap (fun p => if Pte.leaf p.2 || !tableOk e p.2 then none else some (Pte.frame p.2))
  root :: below root ++ (below root).flatMap below

/-- A frame in use: a page or a table of a context, part of a save or checkpoint area or of the local copies, or the target of a migration. -/
def frameUsed (e : State) (c : Chip) (f : Nat) : Bool :=
  let within := fun (base len : Nat) => decide (base < f + 65536) && decide (f < base + len)
  c.ctxs.any (fun p => decide (p.2.state ≠ .retired) && ((tablesOf e c p.1).contains f || (pagesOf e c p.1 (fun _ => true)).any (fun q => decide (q.2 = f)) ||
    within p.2.area p.2.areaLen || within p.2.ckptArea p.2.ckptlen.toNat)) ||
  within e.board.localBase e.board.localLen || c.migrations.any (fun m => decide (m.target = f))

/-- The first number from `k` on, modulo `m`, that is not in use. -/
def firstFree (used : Nat → Bool) (m : Nat) : Nat → Nat → Nat
  | 0, k => k % m
  | n + 1, k => if used (k % m) then firstFree used m n (k + 1) else k % m

/-- A frame that firmware takes: one of HBM (20 R438, R443) that is not in use. -/
def freeFrame (e : State) (c : Chip) : Nat × Chip :=
  let (v, c) := c.freeValue
  (65536 * firstFree (fun k => !isHbm (65536 * k) || frameUsed e c (65536 * k)) (2 ^ 23) (2 ^ 23) v.toNat, c)

/-- Addresses of which some page holds a valid entry or a loaded region. -/
def rangeUsed (e : State) (c : Chip) (ctx base len : Nat) : Bool :=
  (List.range ((base + len) / 65536 - base / 65536 + 1)).any (fun i => match walk e c ctx (base / 65536 * 65536 + 65536 * i) with
    | .bad 1 _ => false
    | _ => true) ||
  (c.ctx ctx).regions.any (fun r => decide (r.base / 65536 ≤ (base + len) / 65536) && decide (base / 65536 ≤ (r.base + r.len) / 65536))

/-- An address the runtime takes: below 2^54, a multiple of an alignment, with nothing mapped in the `len` bytes from there. -/
def freeBase (e : State) (c : Chip) (ctx align len : Nat) : Nat × Chip :=
  let (v, c) := c.freeValue
  (align * firstFree (fun k => rangeUsed e c ctx (align * k) len) (2 ^ 54 / align) (2 ^ 54 / align) v.toNat, c)

/-- The table that an entry names, made and zeroed where the entry names none. -/
def nextTable (e : State) (c : Chip) (at_ : Nat) : Nat × Chip :=
  let x := peek e c at_ 8
  if Pte.valid x && !Pte.leaf x && tableOk e x then (Pte.frame x, c)
  else
    let (f, c) := freeFrame e c
    let c := (List.range 8192).foldl (fun c i => agentWrite e c none (f + 8 * i) 8 0) c
    (f, agentWrite e c none at_ 8 (f + 1))

/-- Mapping a 64 KiB page of a context, its tables first and then a frame of its own: the leaf near, readable, and either executable or
writable, at user level. -/
def mapPage (e : State) (c : Chip) (ctx va : Nat) (exec : Bool) : Nat × Chip :=
  let a1 := (c.ctx ctx).ptbase.toNat / 65536 * 65536 % 2 ^ 48 + 8 * fieldNat va 42 13
  let (t2, c) := nextTable e c a1
  let (t3, c) := nextTable e c (t2 + 8 * fieldNat va 29 13)
  let (frame, c) := freeFrame e c
  let leaf := frame + 3 + 4 + (if exec then 16 else 8) + 32
  (frame, (agentWrite e c none (t3 + 8 * fieldNat va 16 13) 8 leaf).shoot ctx (some va))

/-- Placing bytes at a virtual address, page by page. -/
def placeImage (e : State) (exec : Bool) (ctx : Nat) : Nat → Nat → List (BitVec 8) → Chip → Chip
  | 0, _, _, c => c
  | n + 1, va, bs, c =>
    if bs.isEmpty then c
    else
      let room := 65536 - va % 65536
      let (f, c) := mapPage e c ctx (va / 65536 * 65536) exec
      let c := writePhys e c (f + va % 65536) (bs.take room)
      placeImage e exec ctx n (va + room) (bs.drop room) c

/-- Loading an object: its code base, its data base and the machine; or the mailbox's reason (20 R443). -/
def loadObject (e : State) (c : Chip) (ctx file : Nat) (eager : Bool) : (Nat × Nat × Chip) ⊕ Nat :=
  match readObject e c file with
  | none => .inr 3
  | some o =>
    let x := c.ctx ctx
    if o.refused x then .inr 3
    else if o.over x then .inr 5
    else
      let (code, c) := freeBase e c ctx 64 o.code.length
      let c := placeImage e true ctx (o.code.length / 65536 + 2) code o.code c
      let (data, c) := freeBase e c ctx 65536 (o.tmplOff + 4096 * o.descs.length)
      let image := o.image x eager code data
      let c := placeImage e false ctx (image.length / 65536 + 2) data image c
      let exports := (List.range o.syms.length).filterMap (fun i => match o.syms[i]? with
        | some s => if bitAt s.flags 1 && decide (s.kind ≠ 3) then (o.address x code data i).map (fun a => (s.name, a)) else none
        | none => none)
      let y := c.ctx ctx
      .inl (code, data, c.setCtx ctx { y with
        regions := y.regions ++ [{ base := code, len := o.code.length, data := data, dataLen := image.length, linkAt := o.lnk data 0, links := o.links }]
        kernels := y.kernels ++ o.descs.map (fun d => { d.kernel with entry := BitVec.ofNat 64 (code + d.kernel.entry.toNat) })
        exports := y.exports ++ exports
        state := if y.state = .created then .loaded else y.state })

/-! Unloading (R167). No word, command or event of this manual asks the loader for it (log entry 123). -/

/-- Taking the pages of a range off a context's table and every TLB. -/
def unmapRange (e : State) (c : Chip) (ctx base len : Nat) : Chip :=
  (List.range ((base % 65536 + len + 65535) / 65536)).foldl (fun c i =>
    let va := base / 65536 * 65536 + 65536 * i
    match pageLeaf e c ctx va with
    | some (_, at_) => (agentWrite e c none at_ 8 0).shoot ctx (some va)
    | none => c) c

/-- Whether a region may be unloaded: no launch of a kernel in it is pending or running. -/
def Chip.idle (c : Chip) (ctx : Nat) (r : Region) : Bool :=
  !(c.launches.any (fun p => decide (p.2.ctx = ctx) && decide (p.2.state ≠ .retired) && decide (p.2.state ≠ .killed) &&
    decide (r.base ≤ p.2.entry.toNat) && decide (p.2.entry.toNat < r.base + r.len)))

/-- Unloading a region: every linkage entry of another object that points into it holds the resolver stub again, then the object's pages
leave the context; a fetch from them raises ACCESS_VIOLATION from then on (03 R36). It waits for entries that cannot be reached now. -/
def unloadRegion (e : State) (c : Chip) (ctx : Nat) (r : Region) : Chip :=
  if c.idle ctx r = false ∨ (c.ctx ctx).regions.any (fun q => (List.range q.links).any (fun i =>
      deviceWaits e c ctx (q.linkAt + 8 * i) || deviceHeld e c ctx (q.linkAt + 8 * i))) = true then c
  else
    let inside := fun (a : Nat) => decide (r.base ≤ a) && decide (a < r.base + r.len)
    let x := c.ctx ctx
    let stub := (x.export? stubName).getD 0
    let c := x.regions.foldl (fun c q => if q = r then c else (List.range q.links).foldl (fun c i =>
      match deviceRead e c ctx (q.linkAt + 8 * i) with
      | some p => if inside (peek e c p 8) then defer e c (.word ctx (q.linkAt + 8 * i) 8 stub 0) else c
      | none => c) c) c
    let c := unmapRange e (unmapRange e c ctx r.base r.len) ctx r.data r.dataLen
    let y := c.ctx ctx
    c.setCtx ctx { y with
      regions := y.regions.filter (fun q => decide (q ≠ r)), kernels := y.kernels.filter (fun k => !inside k.entry.toNat)
      exports := y.exports.filter (fun p => !inside p.2 && !(decide (r.data ≤ p.2) && decide (p.2 < r.data + r.dataLen))) }

end Sys2Proof.Machine
end

