-- ==== Sys2Proof/Machine/Sign.lean ====
section
/-! DEFINITION. The signature check of stencil images and operator keys (00 R4, 22 R472, R492): SHA-512 and Ed25519. The manual names the two
algorithms and does not give them: they are taken from their public standards, FIPS 180-4 and RFC 8032 (log entry 150). -/

namespace Sys2Proof.Machine

/-! SHA-512 (FIPS 180-4). -/

/-- The largest `r` below 2^n whose k-th power is at most `x`. -/
def intRoot (k x : Nat) : Nat → Nat → Nat
  | 0, r => r
  | n + 1, r => intRoot k x n (if (r + 2 ^ n) ^ k ≤ x then r + 2 ^ n else r)

/-- The first primes: 80 of them lie below 410. -/
def shaPrimes : List Nat := (List.range 410).filter (fun n => decide (2 ≤ n) && (List.range n).all (fun d => decide (d < 2) || decide (n % d ≠ 0)))

/-- The first 64 bits of the fractional part of the k-th root of a number. -/
def rootFraction (k x : Nat) : BitVec 64 := BitVec.ofNat 64 (intRoot k (x * 2 ^ (64 * k)) 74 0)

/-- The constants of the rounds, and the first hash value. -/
def shaRounds : List (BitVec 64) := shaPrimes.map (rootFraction 3)
def shaStart : List (BitVec 64) := (shaPrimes.take 8).map (rootFraction 2)

/-- Bytes as a number, the first byte highest. -/
def beNat (bs : List (BitVec 8)) : Nat := bs.foldl (fun n b => 256 * n + b.toNat) 0

/-- Bytes as a number, the first byte lowest. -/
def leNat (bs : List (BitVec 8)) : Nat := beNat bs.reverse

/-- The words of a block's schedule, the newest first: `n` more from those there are. -/
def shaSchedule : Nat → List (BitVec 64) → List (BitVec 64)
  | 0, w => w
  | n + 1, w =>
    let x := w.getD 14 0
    let y := w.getD 1 0
    let s0 := x.rotateRight 1 ^^^ x.rotateRight 8 ^^^ (x >>> 7)
    let s1 := y.rotateRight 19 ^^^ y.rotateRight 61 ^^^ (y >>> 6)
    shaSchedule n ((w.getD 15 0 + s0 + w.getD 6 0 + s1) :: w)

/-- One round on the eight working words. -/
def shaRound (v : List (BitVec 64)) (kw : BitVec 64) : List (BitVec 64) :=
  match v with
  | [a, b, c, d, e, f, g, h] =>
    let s1 := e.rotateRight 14 ^^^ e.rotateRight 18 ^^^ e.rotateRight 41
    let t1 := h + s1 + ((e &&& f) ^^^ (~~~e &&& g)) + kw
    let s0 := a.rotateRight 28 ^^^ a.rotateRight 34 ^^^ a.rotateRight 39
    let t2 := s0 + ((a &&& b) ^^^ (a &&& c) ^^^ (b &&& c))
    [t1 + t2, a, b, c, d + t1, e, f, g]
  | v => v

/-- One block of 128 bytes. -/
def shaBlock (h : List (BitVec 64)) (block : List (BitVec 8)) : List (BitVec 64) :=
  let w := (List.range 16).map (fun i => BitVec.ofNat 64 (beNat ((block.drop (8 * i)).take 8)))
  let ws := (shaSchedule 64 w.reverse).reverse
  List.zipWith (· + ·) h ((List.zipWith (· + ·) shaRounds ws).foldl shaRound h)

/-- The blocks of a padded message. -/
def shaBlocks : Nat → List (BitVec 64) → List (BitVec 8) → List (BitVec 64)
  | 0, h, _ => h
  | n + 1, h, m => shaBlocks n (shaBlock h (m.take 128)) (m.drop 128)

/-- The SHA-512 digest of bytes. -/
def sha512 (m : List (BitVec 8)) : List (BitVec 8) :=
  let padded := m ++ 0x80 :: List.replicate ((239 - m.length % 128) % 128) 0 ++ ((List.range 16).map (fun i => BitVec.ofNat 8 (8 * m.length / 256 ^ (15 - i))))
  (shaBlocks (padded.length / 128) shaStart padded).flatMap (fun x => (List.range 8).map (fun i => x.extractLsb' (56 - 8 * i) 8))

/-! Ed25519 (RFC 8032). -/

/-- The field's prime and the order of the base point. -/
def edP : Nat := 2 ^ 255 - 19
def edL : Nat := 2 ^ 252 + 27742317777372353535851937790883648493

/-- A power modulo a number, from the exponent's lowest `n` bits. -/
def powMod (m : Nat) : Nat → Nat → Nat → Nat
  | 0, _, _ => 1
  | n + 1, b, e => (if e % 2 = 1 then b else 1) * powMod m n (b * b % m) (e / 2) % m

/-- Inverses and differences in the field. -/
def edInv (x : Nat) : Nat := powMod edP 255 x (edP - 2)
def edSub (a b : Nat) : Nat := (a + edP - b % edP) % edP

/-- The curve's constant. -/
def edD : Nat := edSub 0 (121665 * edInv 121666)

/-- A point in extended coordinates. -/
structure EdPoint where
  x : Nat
  y : Nat
  z : Nat
  t : Nat
deriving DecidableEq, Repr

/-- The sum of two points, which may be equal. -/
def EdPoint.add (p q : EdPoint) : EdPoint :=
  let a := edSub p.y p.x * edSub q.y q.x % edP
  let b := (p.y + p.x) * (q.y + q.x) % edP
  let c := p.t * 2 * edD * q.t % edP
  let d := p.z * 2 * q.z % edP
  let e := edSub b a
  let f := edSub d c
  let g := d + c
  let h := b + a
  { x := e * f % edP, y := g * h % edP, z := f * g % edP, t := e * h % edP }

/-- A multiple of a point, from the factor's lowest `n` bits. -/
def EdPoint.mul : Nat → Nat → EdPoint → EdPoint
  | 0, _, _ => { x := 0, y := 1, z := 1, t := 0 }
  | n + 1, k, p => if k % 2 = 1 then p.add (EdPoint.mul n (k / 2) (p.add p)) else EdPoint.mul n (k / 2) (p.add p)

/-- The same point. -/
def EdPoint.same (p q : EdPoint) : Bool := decide (p.x * q.z % edP = q.x * p.z % edP) && decide (p.y * q.z % edP = q.y * p.z % edP)

/-- The point that 32 bytes encode, as a number: y, and the low bit of x in bit 255. -/
def edDecode (n : Nat) : Option EdPoint :=
  let y := n % 2 ^ 255
  let sign := n / 2 ^ 255 % 2
  if edP ≤ y then none
  else
    let x2 := edSub (y * y) 1 * edInv (edD * y * y + 1) % edP
    let r := powMod edP 255 x2 ((edP + 3) / 8)
    let x := if r * r % edP = x2 then r else r * powMod edP 255 2 ((edP - 1) / 4) % edP
    if x * x % edP ≠ x2 ∨ (x = 0 ∧ sign = 1) then none
    else
      let x := if x % 2 = sign then x else edP - x
      some { x := x, y := y, z := 1, t := x * y % edP }

/-- The base point, whose y is 4/5 and whose x is even. -/
def edBase : Option EdPoint := edDecode (4 * edInv 5 % edP)

/-- An Ed25519 signature of a message under a public key. -/
def edVerify (key : Nat) (message signature : List (BitVec 8)) : Bool :=
  let r := leNat (signature.take 32)
  let s := leNat ((signature.drop 32).take 32)
  let keyBytes := (List.range 32).map (fun i => BitVec.ofNat 8 (key / 256 ^ i))
  match edBase, edDecode key, edDecode r with
  | some b, some a, some p =>
    let k := leNat (sha512 (signature.take 32 ++ keyBytes ++ message)) % edL
    decide (s < edL) && (b.mul 256 s).same (p.add (a.mul 256 k))
  | _, _, _ => false

/-- Whether 64 bytes are the Ed25519 signature, under a key, of the SHA-512 digest of some bytes (22 R472). -/
def signatureOk (key : BitVec 256) (bytes signature : List (BitVec 8)) : Bool := edVerify key.toNat (sha512 bytes) signature

end Sys2Proof.Machine
end

