-- ==== Sys2Proof/Machine/System.lean ====
section
/-! DEFINITION. The SYS major, 0x3E (19 R429 to R436): status words (08 R180, 07 R143, 12 R268, 09 R186, 15 R335, 17 R369, 18 R389,
R422, 22 R465, R470), TRET, ECALL, the request sub-ops, the error queue and the TLB words. -/

namespace Sys2Proof.Machine

/-! Status words. -/

/-- Codes of slot states (22 R465). -/
def SlotState.code : SlotState → Nat
  | .empty => 0 | .loading => 1 | .loaded => 2 | .armed => 3 | .draining => 4 | .failed => 5

/-- PSLOT (22 R465). -/
def Chip.pslot (c : Chip) (i : Nat) : Word :=
  let s := c.slot i
  BitVec.ofNat 32 (s.state.code + (if 8 ≤ i then 8 else 0) + 16 * (s.prio % 16) + 256 * (s.action % 8) + 2048 * (s.reason % 16) + 65536 * (s.patchid % 65536))

/-- A per-context status word. -/
def Ctx.word (x : Ctx) (a : Nat) : BitVec 64 :=
  let n := fun (v : Nat) => BitVec.ofNat 64 v
  if a = 0x100 then x.trapvec
  else if a = 0x110 then x.errqbase
  else if a = 0x111 then n x.errqlen
  else if a = 0x130 then n x.leaselen
  else if a = 0x138 then n x.fairlim
  else if a = 0x139 then n x.bintime
  else if a = 0x140 then x.qtbase
  else if a = 0x141 then n x.qtlen
  else if a = 0x160 then x.ptbase
  else if a = 0x161 then n x.holdlim
  else if a = 0x162 then n ((if x.drvcount then 1 else 0) + 256 * x.drvthresh)
  else if a = 0x163 then n x.pagelease
  else if a = 0x164 then x.drvqbase
  else if a = 0x165 then x.drvqtail.setWidth 64
  else if a = 0x166 then x.drvqhead.setWidth 64
  else if a = 0x167 then x.poolbase
  else if a = 0x168 then x.pooltail.setWidth 64
  else if a = 0x169 then x.poolhead.setWidth 64
  else if a = 0x181 then n x.state.code
  else if a = 0x182 then n (x.res + 16 * x.reason)
  else if a = 0x183 then x.savebase
  else if a = 0x184 then x.savelen
  else if a = 0x188 then x.ckptint.setWidth 64
  else if a = 0x189 then n x.ckptrate
  else if a = 0x18A then x.ckptbase
  else if a = 0x18B then x.ckptlen
  else if a = 0x18C then x.ckptseq.setWidth 64
  else if a = 0x18D then x.ckptdone.setWidth 64
  else x.patchsel.setWidth 64

/-- A status word as a thread reads it; a 32-bit word in the low half. -/
def statusRead (c : Chip) (t a : Nat) : BitVec 64 :=
  let th := c.thread t
  let k := c.team (c.teamOf t)
  let l := c.launch k.launch
  let ctx := c.ctxOf t
  let g := c.group (groupOf t)
  let n := fun (v : Nat) => BitVec.ofNat 64 v
  let w := fun (v : Word) => v.setWidth 64
  if a = 0x000 then n (c.tidOf t)
  else if a = 0x001 then n k.x
  else if a = 0x002 then n k.y
  else if a = 0x003 then n k.z
  else if a = 0x004 then n k.threads
  else if a = 0x005 then n l.gx
  else if a = 0x006 then n l.gy
  else if a = 0x007 then n l.gz
  else if a = 0x008 then n (c.laneBit t)
  else if a = 0x009 then (if g.spawned then n 0xFFFFFFFF else w g.ix)
  else if a = 0x00A then n k.clpos
  else if a = 0x00B then n (k.clw + 16 * k.clh)
  else if a = 0x010 then n (c.core (c.coreOf t)).clk
  else if a = 0x011 then k.cycle
  else if a = 0x012 then w k.timeout
  else if a = 0x020 then th.fpc
  else if a = 0x021 then w th.fhandle.bits
  else if a = 0x022 then k.contvec
  else if a = 0x101 then w th.trap.cause
  else if a = 0x102 then th.trap.pc
  else if a = 0x103 then w th.trap.info0
  else if a = 0x104 then w th.trap.info1
  else if a = 0x105 then w th.trap.info2
  else if a = 0x106 then w th.trap.info3
  else if a = 0x150 then w k.plsel
  else if a = 0x151 then w (c.plown (c.teamOf t) k.plsel.toNat)
  else if a = 0x170 then n (c.ctxCost ctx)
  else if a = 0x171 then n (c.ctxPlate ctx)
  else if a = 0x172 then n (c.ctxTime ctx)
  else if a = 0x180 then n ctx
  else if 0x1C0 ≤ a ∧ a ≤ 0x1CF then w (c.pslot (a - 0x1C0))
  else if a = 0x1E0 then th.emu.pc
  else if a = 0x1E1 then th.emu.npc
  else if a = 0x1E2 then w th.emu.ctl
  else if a = 0x1E3 then w th.emu.word
  else (c.ctx ctx).word a

/-- Writing a per-context status word: writable fields only (01 R9, R10). A vector holds what is written, and one that breaks
R36 or R144 is refused where it is used (03 R36, R53, 19 R426; log entry 62). A write of CKPTBASE makes the next mark full
(18 R416). -/
def Ctx.write (x : Ctx) (a : Nat) (v : BitVec 64) : Ctx :=
  let n := v.toNat
  if a = 0x100 then { x with trapvec := v }
  else if a = 0x130 then { x with leaselen := max 1 (fieldNat n 0 8) }
  else if a = 0x138 then { x with fairlim := max 1 (fieldNat n 0 16) }
  else if a = 0x139 then { x with bintime := fieldNat n 0 16 }
  else if a = 0x140 then { x with qtbase := v }
  else if a = 0x141 then { x with qtlen := min 256 (fieldNat n 0 9) }
  else if a = 0x160 then { x with ptbase := v }
  else if a = 0x161 then { x with holdlim := fieldNat n 0 16 }
  else if a = 0x162 then { x with drvcount := bitAt n 0, drvthresh := fieldNat n 8 8 }
  else if a = 0x163 then { x with pagelease := max 1 (fieldNat n 0 16) }
  else if a = 0x164 then { x with drvqbase := v }
  else if a = 0x165 then { x with drvqtail := v.setWidth 32 }
  else if a = 0x167 then { x with poolbase := v }
  else if a = 0x168 then { x with pooltail := v.setWidth 32 }
  else if a = 0x183 then { x with savebase := v }
  else if a = 0x184 then { x with savelen := v }
  else if a = 0x188 then { x with ckptint := v.setWidth 32 }
  else if a = 0x189 then { x with ckptrate := min 400 (fieldNat n 0 10) }
  else if a = 0x18A then { x with ckptbase := v, ckptFresh := true }
  else if a = 0x18B then { x with ckptlen := v }
  else if a = 0x1D0 then { x with patchsel := v.setWidth 16 }
  else x

/-- Writing a status word by a thread. -/
def statusWrite (c : Chip) (t a : Nat) (v : BitVec 64) : Chip :=
  let th := c.thread t
  let team := c.teamOf t
  let k := c.team team
  let w : Word := v.setWidth 32
  if a = 0x012 then c.setTeam team { k with timeout := w }
  else if a = 0x022 then c.setTeam team { k with contvec := v }
  else if a = 0x101 then c.setThread t { th with trap := { th.trap with cause := (th.trap.cause &&& 0x400) ||| (w &&& 0x3FF) } }
  else if a = 0x102 then c.setThread t { th with trap := { th.trap with pc := v } }
  else if a = 0x103 then c.setThread t { th with trap := { th.trap with info0 := w } }
  else if a = 0x104 then c.setThread t { th with trap := { th.trap with info1 := w } }
  else if a = 0x105 then c.setThread t { th with trap := { th.trap with info2 := w } }
  else if a = 0x106 then c.setThread t { th with trap := { th.trap with info3 := w } }
  else if a = 0x150 then c.setTeam team { k with plsel := w &&& 0x1FF }
  else if a = 0x1E1 then c.setThread t { th with emu := { th.emu with npc := v } }
  else if a = 0x1E2 then c.setThread t { th with emu := { th.emu with ctl := (th.emu.ctl &&& 0xFF00FFFF) ||| (w &&& 0x00FF0000) } }
  else if a < 0x100 then c
  else c.setCtx (c.ctxOf t) ((c.ctx (c.ctxOf t)).write a v)

/-- SRD: FHANDLE is read as a reference, with tag HANDLE. -/
def execSrd (c : Bool) (d : BitVec 7) (imm : BitVec 9) (s : State) : Host.Outcome State Fault Refusal :=
  runKind { info := infoSrd c d imm } noCheck (perThread false (fun pre l t m =>
    let v := statusRead pre l imm.toNat
    if imm = 0x021 then m.setReg t d.toNat { (pre.thread l).fhandle with tag := tagHandle }
    else if statusWidth imm.toNat = some 64 then m.writeVV t d.toNat v tagInt
    else m.writeV t d.toNat (v.setWidth 32) tagInt)) s

/-- What SWR takes from its register or pair. -/
def swrValue (m : Chip) (t : Nat) (d : BitVec 7) (imm : BitVec 9) : BitVec 64 :=
  if statusWidth imm.toNat = some 64 then m.vv t d.toNat else (m.v t d.toNat).setWidth 64

/-- SWR. -/
def execSwr (c : Bool) (d : BitVec 7) (imm : BitVec 9) (s : State) : Host.Outcome State Fault Refusal :=
  runKind { info := infoSwr c d imm, pair := pairCompare (fun _ _ => imm.setWidth 64) ((infoSwr c d imm).srcs.map (·.reg)) } noCheck
    (perThread false (fun pre l t m => statusWrite m t imm.toNat (swrValue pre l d imm))) s

/-! TRET and ECALL (19 R432, R433, 22 R470). -/

/-- PRIVILEGE with a subcode, for a sub-op. -/
def privTrap (slot sub op : Nat) : Verdict := trapAt slot causePrivilege sub (BitVec.ofNat 32 op) 0

/-- The cause a stencil routine raises on its return, if any. -/
def raiseOf (th : Thread) : Option Nat :=
  let r := fieldNat th.emu.ctl.toNat 16 8
  if th.level = .firmware ∧ nameable r = true then some r else none

/-- The checks of TRET: the level field, and the target at the level returned to; a routine that raises a cause returns to its
own word. -/
def tretCheck : Check := fun e t slot =>
  let th := e.now.thread t
  let (lvl, pc) := trapReturn th
  if th.level.code < lvl ∨ lvl = 3 then some (privTrap slot 4 2)
  else if (raiseOf th).isSome then none
  else match badTarget e e.now (e.now.coreOf t) (e.now.ctxOf t) ((levelOf lvl).getD .user) pc with
    | some k => some (.trap causeChain ((e.issue.map Issue.raw).getD 0) (BitVec.ofNat 32 (slot + 16 * k)) (pc.extractLsb' 0 32) (pc.extractLsb' 32 32))
    | none => (targetHeld e e.now (e.now.coreOf t) (e.now.ctxOf t) ((levelOf lvl).getD .user) pc).map Verdict.hold

/-- TRET; a routine's return commits its open firmware batch at die scope as its chain commits (14 R302, `Chip.closeFirmware`). -/
def execTret (c : Bool) (s : State) : Host.Outcome State Fault Refusal :=
  runKindJump { info := infoTret c } tretCheck
    (fun _ _ _ m => m)
    (fun e _ t =>
      let th := e.now.thread t
      let (lvl, pc) := trapReturn th
      match raiseOf th with
      | some k => some (.raise ((levelOf lvl).getD .user) th.emu.pc k th.emu.word)
      | none => some (.ret ((levelOf lvl).getD .user) pc)) s

/-- ECALL: at user level the chain commits and the trap is entered; at supervisor level v(d) waits for firmware's answer,
its request holding the service number and v(d). -/
def execEcall (c : Bool) (d : BitVec 7) (imm : BitVec 9) (s : State) : Host.Outcome State Fault Refusal :=
  runKindJump { info := infoEcall c d, held := fun e t => ecallBlocked e t } (fun e t slot => if (e.now.thread t).level = .firmware then some (privTrap slot 1 3) else none)
    (once false (fun e t takers m =>
      if (e.now.thread t).level ≠ .supervisor then m
      else
        let (id, m) := m.fresh
        let a : Access := { th := t, core := m.coreOf t, ctx := m.ctxOf t, op := .ecall, size := 0, data := (e.now.v t d.toNat).setWidth 128
                            compare := imm.setWidth 64, dest := d.toNat, count := 1, tag := tagInt, takers := takers
                            slot := (e.issue.map Issue.slot).getD 0 }
        (m.setAccess id a).markPending takers d.toNat id 1))
    (fun e _ t =>
      if (e.now.thread t).level ≠ .user then none
      else some (.trapNext (BitVec.ofNat 32 (0x1000 + imm.toNat)) (BitVec.ofNat 32 ((e.issue.map Issue.slot).getD 0)) (e.now.v t d.toNat) (d.setWidth 32))) s

/-! Requests (18 R390, 19 R431). -/

/-- A word that posts a request for each thread. -/
def requestWord (o : OpInfo) (f : State → Nat → Chip → Chip) (s : State) : Host.Outcome State Fault Refusal :=
  runKind { info := o } noCheck (once false (fun e t _ m => f e t m)) s

/-- CTX.STOP. -/
def execCtxStop (c : Bool) (d : BitVec 7) (s : State) : Host.Outcome State Fault Refusal :=
  requestWord (infoCtxStop c d) (fun e t m => postRequest e m (e.now.v t d.toNat).toNat .stop) s

/-- CTX.SAVE. -/
def execCtxSave (c : Bool) (d : BitVec 7) (s : State) : Host.Outcome State Fault Refusal :=
  requestWord (infoCtxSave c d) (fun e t m => postRequest e m (e.now.v t d.toNat).toNat .save) s

/-- CTX.RST: with f set, a sequence number is named. -/
def execCtxRst (c : Bool) (d : BitVec 6) (f : BitVec 1) (s : State) : Host.Outcome State Fault Refusal :=
  requestWord (infoCtxRst c d) (fun e t m =>
    postRequest e m (e.now.v t (2 * d.toNat)).toNat (.resume (if f = 1 then some (e.now.v t (2 * d.toNat + 1)).toNat else none))) s

/-- PREEMPT: context number, zero, and the physical address of the report. -/
def execPreempt (c : Bool) (d : BitVec 5) (imm : BitVec 9) (s : State) : Host.Outcome State Fault Refusal :=
  requestWord (infoPreempt c d) (fun e t m =>
    postRequest e m (e.now.v t (4 * d.toNat)).toNat (.preempt imm.toNat (e.now.vv t (4 * d.toNat + 2)).toNat)) s

/-- The context a supervisor or firmware names: 0 for its own. -/
def namedCtx (m : Chip) (t : Nat) (w : Word) : Nat := if w = 0 then m.ctxOf t else w.toNat

/-- A supervisor that names another context (19 R434). -/
def ctxCheck (reg op : Nat) : Check := fun e t slot =>
  if (e.now.thread t).level = .supervisor ∧ namedCtx e.now t (e.now.v t reg) ≠ e.now.ctxOf t then some (privTrap slot 5 op) else none

/-- CKPT.MARK. -/
def execCkptMark (c : Bool) (d : BitVec 7) (f : BitVec 1) (s : State) : Host.Outcome State Fault Refusal :=
  runKind { info := infoCkptMark c d } (ctxCheck d.toNat 0x14)
    (once false (fun e t _ m => postRequest e m (namedCtx e.now t (e.now.v t d.toNat)) (.mark (decide (f = 1))))) s

/-- Codes of checkpoint states (18 R420). -/
def CkptState.code : CkptState → Nat
  | .staged => 1 | .streaming => 2 | .complete => 3 | .failed => 4 | .overwritten => 0

/-- CKPT.STAT: the state of a sequence number; 0 for one that is not known. -/
def execCkptStat (c : Bool) (d : BitVec 6) (s : State) : Host.Outcome State Fault Refusal :=
  runKind { info := infoCkptStat c d } (ctxCheck (2 * d.toNat + 1) 0x15)
    (perThread false (fun pre l t m =>
      let x := pre.ctx (namedCtx pre l (pre.v l (2 * d.toNat + 1)))
      let code := match Sparse.find? x.ckpts (pre.v l (2 * d.toNat)).toNat with
        | some k => k.state.code
        | none => 0
      m.writeV t (2 * d.toNat) (BitVec.ofNat 32 code) tagInt)) s

/-! The stencil's sub-ops (22 R473, R474). -/

/-- The contexts in which a slot applies. -/
def Chip.slotContexts (c : Chip) (i : Nat) : List Nat :=
  Sparse.keysWhere (fun _ x => x.patchsel.getLsbD i && decide (x.state ≠ .retired) && decide (x.state ≠ .killed)) c.ctxs

/-- The error records of a failed load. -/
def loadRecords (e : State) (c : Chip) (i reason patchid : Nat) : Chip :=
  (c.slotContexts i).foldl (fun c x => errorRecord e c x
    { cause := causePatch, sub := reason, source := 8, i2 := BitVec.ofNat 32 (i + 65536 * patchid) }) c

/-- A field of an image. -/
def imageField (s : State) (p off n : Nat) : Nat := peek s s.now (p + off) n

/-- Bytes at a physical address that can be read. -/
def readable (s : State) (p n : Nat) : Bool :=
  populated s p && populated s (p + n - 1) && (List.range ((n + 3) / 4)).all (fun i => (poisonAt s s.now (p + 4 * i) 4).isNone)

/-- The patchid in an image's header; zero where the header cannot be read. -/
def imagePatchid (s : State) (p : Nat) : Nat := if p % 128 = 0 ∧ readable s p 128 = true then imageField s p 6 2 else 0

/-- Posting a load: refused where the slot is armed or draining, else the slot is loading. -/
def postLoad (e : State) (c : Chip) (i image : Nat) : Chip :=
  let s := c.slot i
  if s.state = .armed ∨ s.state = .draining then loadRecords e (c.setSlot i { s with reason := 7 }) i 7 (imagePatchid e image)
  else if s.state = .loading then c
  else c.setSlot i { s with state := .loading, image := image, reason := 0, assisted := e.board.split.getLsbD 2, verdict := none, arming := false }

/-- PATCH.LOAD. -/
def execPatchLoad (c : Bool) (d : BitVec 6) (sc : BitVec 4) (s : State) : Host.Outcome State Fault Refusal :=
  requestWord (infoPatchLoad c d) (fun e t m => postLoad e m sc.toNat (e.now.vv t (2 * d.toNat)).toNat) s

/-- PATCH.ARM: posted; the slot is armed once every croft applies it. -/
def execPatchArm (c : Bool) (sc : BitVec 4) (s : State) : Host.Outcome State Fault Refusal :=
  requestWord (infoPatchArm c) (fun _ _ m =>
    let x := m.slot sc.toNat
    if x.state = .loaded then m.setSlot sc.toNat { x with arming := true } else m) s

/-- PATCH.DISARM. -/
def execPatchDisarm (c : Bool) (sc : BitVec 4) (s : State) : Host.Outcome State Fault Refusal :=
  requestWord (infoPatchDisarm c) (fun _ _ m =>
    let x := m.slot sc.toNat
    if x.state = .armed then m.setSlot sc.toNat { x with state := .draining } else m.setSlot sc.toNat { x with arming := false }) s

/-- PATCH.QRY. -/
def execPatchQry (c : Bool) (d : BitVec 7) (sc : BitVec 4) (s : State) : Host.Outcome State Fault Refusal :=
  runKind { info := infoPatchQry c d } noCheck (perThread false (fun pre _ t m => m.writeV t d.toNat (pre.pslot sc.toNat) tagInt)) s

/-! Power (23 R478 to R481). -/

/-- Whether a team is resident on a field die. -/
def Chip.dieHeld (c : Chip) (n : Nat) : Bool :=
  c.teams.any (fun p => (match p.2.core with | some k => decide (k / Config.coresPerDie = n) | none => false))

/-- A request refused for a die. -/
def Chip.powerRefused (c : Chip) (reason : Nat) : Chip := { c with powerReason := reason }

/-- PSTATE.SET of one die. -/
def Chip.setPstate (c : Chip) (n p : Nat) : Chip :=
  if (c.die n).state ≠ .running then c.powerRefused 1 else c.setDie n { c.die n with target := some p }

/-- PARK of one die. -/
def Chip.park (c : Chip) (n : Nat) : Chip :=
  if (c.die n).state ≠ .running then c.powerRefused 1
  else if c.dieHeld n then c.powerRefused 2
  else c.setDie n { c.die n with state := .parking, unpark := false }

/-- A die begins to wake, with its 16 slices' banks (23 R481). -/
def Chip.wake (c : Chip) (n : Nat) : Chip := c.setDie n { c.die n with state := .waking, unpark := false, banks := List.range 16 }

/-- UNPARK of one die; one whose park is in progress wakes once it is parked. -/
def Chip.unpark (c : Chip) (n : Nat) : Chip :=
  match (c.die n).state with
  | .parked => c.wake n
  | .parking => c.setDie n { c.die n with unpark := true }
  | _ => c

/-- A word that acts on each die of the set in v(d)[3:0]. -/
def dieWord (o : OpInfo) (d : BitVec 7) (f : Chip → Nat → Chip) (s : State) : Host.Outcome State Fault Refusal :=
  requestWord o (fun e t m => (List.range 4).foldl (fun m n => if (e.now.v t d.toNat).getLsbD n then f m n else m) m) s

/-- PSTATE.SET. -/
def execPstateSet (c : Bool) (d : BitVec 7) (p : BitVec 3) (s : State) : Host.Outcome State Fault Refusal :=
  dieWord (infoPstateSet c d) d (fun m n => m.setPstate n p.toNat) s

/-- PARK. -/
def execPark (c : Bool) (d : BitVec 7) (s : State) : Host.Outcome State Fault Refusal :=
  dieWord (infoPark c d) d (fun m n => m.park n) s

/-- UNPARK. -/
def execUnpark (c : Bool) (d : BitVec 7) (s : State) : Host.Outcome State Fault Refusal :=
  dieWord (infoUnpark c d) d (fun m n => m.unpark n) s

/-! The error queue and the TLB (19 R436, 17 R386). -/

/-- ERRQ.SET. -/
def execErrqSet (c : Bool) (d : BitVec 6) (l : BitVec 5) (s : State) : Host.Outcome State Fault Refusal :=
  runKind { info := infoErrqSet c d } (fun e t slot =>
      let base := e.now.vv t (2 * d.toNat)
      if base = 0 ∨ l = 0 then none
      else if base.toNat % 4096 ≠ 0 then some (.trap causeAlign 0 (BitVec.ofNat 32 slot) (base.extractLsb' 0 32) (base.extractLsb' 32 32))
      else if base.toNat / 2 ^ 55 ≠ 0 then some (.trap causeAccess 0 (BitVec.ofNat 32 (slot + 16)) (base.extractLsb' 0 32) (base.extractLsb' 32 32))
      else none)
    (once false (fun e t _ m =>
      let base := e.now.vv t (2 * d.toNat)
      let x := m.ctx (m.ctxOf t)
      m.setCtx (m.ctxOf t) (if base = 0 ∨ l = 0 then { x with errqbase := 0, errqlen := 0 } else { x with errqbase := base, errqlen := l.toNat }))) s

/-- TLB.INV: a release at device scope of the thread's earlier stores, then the page, or the context, leaves every TLB. -/
def execTlbInv (c : Bool) (d : BitVec 6) (w : BitVec 1) (s : State) : Host.Outcome State Fault Refusal :=
  runKind { info := infoTlbInv c d w, held := fun e t => unreleased e.now t } noCheck
    (once false (fun e t _ m =>
      let m := releaseAt e (releaseLines e m (m.coreOf t) [t] m.nextId) m.nextId { th := t, core := m.coreOf t, op := .fence, scope := 2 }
      m.shoot (m.ctxOf t) (if w = 1 then none else some (e.now.vv t (2 * d.toNat)).toNat))) s

/-- FENCE.TLB: not ready while an access that may use an old translation is outstanding. -/
def execFenceTlb (c : Bool) (s : State) : Host.Outcome State Fault Refusal :=
  runKind { info := infoFenceTlb c, held := fun e t => tlbFenceBlocked e t } noCheck (fun _ _ _ m => m) s

end Sys2Proof.Machine
end

