-- ==== Sys2Proof/Machine/Mailbox.lean ====
section
/-! DEFINITION. The words of BAR0 (20 R441, 23 R475, R482) and the mailbox commands (20 R442, R443, R491, 22 R473, R492, 23 R484). -/

namespace Sys2Proof.Machine

/-! Words (R441, R475). -/

/-- REGISTER_WRITE: MBCMD, go, the overrun bit and MBBUF; a write elsewhere has no effect. -/
def execRegisterWrite (offset : Nat) (value : BitVec 32) (s : State) : Host.Outcome State Fault Refusal :=
  eventS (fun s =>
    let b := s.board
    let put := fun (b : Board) => { s with board := b }
    if offset = 0x000 then put { b with mbcmd := value.setWidth 16 }
    else if offset = 0x004 then
      if value.getLsbD 0 = false then s
      else if b.mbstate = .busy then put { b with overrun := true }
      else put { b with mbstate := .busy, mbreason := 0, mbrun := b.mbcmd }
    else if offset = 0x008 then put { b with overrun := b.overrun && !value.getLsbD 2 }
    else if 0x1000 ≤ offset ∧ offset + 4 ≤ 0x2000 then put { b with mbbuf := Memory.writeN b.mbbuf (offset - 0x1000) 4 value.toNat }
    else s) s

/-- Codes of mailbox states (20 R441). -/
def MailState.code : MailState → Nat
  | .idle => 0 | .busy => 1 | .done => 2 | .failed => 3

/-- Codes of die states (23 R475). -/
def DieState.code : DieState → Nat
  | .running => 0 | .parking => 1 | .parked => 2 | .waking => 3 | .fenced => 4

/-- The word of BAR0 that the host or firmware reads at an offset (20 R441, 23 R475): a read has no effect. MBDOOR reads zero, as do
reserved bits and every offset that holds no word (01 R9, R10). -/
def State.bar0 (s : State) (offset : Nat) : BitVec 32 :=
  let b := s.board
  if offset = 0x000 then b.mbcmd.setWidth 32
  else if offset = 0x008 then BitVec.ofNat 32 (b.mbstate.code + (if b.overrun then 4 else 0) + 256 * (b.mbreason % 256))
  else if offset = 0x200 then BitVec.ofNat 32 (b.watts % 2048 + 65536 * b.avg.toNat)
  else if offset = 0x204 then
    BitVec.ofNat 32 (((List.range Config.dies).map (fun n => 64 ^ n * ((s.now.die n).state.code + 8 * ((s.now.die n).pstate % 8)))).sum +
      2 ^ 24 * (s.now.powerReason % 16))
  else if offset = 0x208 then b.split.setWidth 32
  else if 0x1000 ≤ offset ∧ offset + 4 ≤ 0x2000 then BitVec.ofNat 32 (Memory.readN b.mbbuf (offset - 0x1000) 4)
  else 0

/-- PWRCEIL_WRITE. -/
def execPwrceilWrite (value : BitVec 32) (s : State) : Host.Outcome State Fault Refusal :=
  eventS (fun s => { s with board := { s.board with watts := max 250 (min 1000 (fieldNat value.toNat 0 11)) } }) s

/-- SPLIT_WRITE. -/
def execSplitWrite (value : BitVec 32) (s : State) : Host.Outcome State Fault Refusal :=
  eventS (fun s => { s with board := { s.board with split := value.setWidth 6 } }) s

/-! The mailbox. -/

/-- `n` bytes of MBBUF. -/
def State.buf (s : State) (off n : Nat) : Nat := Memory.readN s.board.mbbuf off n

/-- Writing MBBUF. -/
def State.putBuf (s : State) (off n v : Nat) : State := { s with board := { s.board with mbbuf := Memory.writeN s.board.mbbuf off n v } }

/-- The command ends: done, or failed with a reason. -/
def State.endMail (s : State) (reason : Option Nat) : State :=
  { s with board := { s.board with
    mbstate := if reason.isNone then .done else .failed
    mbreason := reason.getD 0 } }

/-- The commands the mailbox answers in the safe state (23 R483). -/
def safeCommands : List Nat := [1, 2, 3, 0x30]

/-- A command of a code: go has been written and the mailbox is busy with it; its effect, and done or a reason. -/
def mail (code : Nat) (f : State → State × Option Nat) (s : State) : Host.Outcome State Fault Refusal :=
  eventS (fun s =>
    if s.board.mbstate ≠ .busy ∨ s.board.mbrun.toNat ≠ code then s
    else if s.board.safe && !safeCommands.contains code then s.endMail (some 2)
    else let (t, r) := f s; t.endMail r) s

/-- The codes of R442. -/
def mailCodes : List Nat :=
  [1, 2, 3, 0x10, 0x11, 0x12, 0x13, 0x14, 0x15, 0x16, 0x17, 0x18, 0x19, 0x1A, 0x1B, 0x20, 0x21, 0x22, 0x30, 0x31, 0x32, 0x40]

/-- UNKNOWN_MAILBOX_COMMAND: reason 1. -/
def execUnknownMailboxCommand (s : State) : Host.Outcome State Fault Refusal :=
  eventS (fun s =>
    if s.board.mbstate ≠ .busy ∨ mailCodes.contains s.board.mbrun.toNat = true then s
    else s.endMail (some (if s.board.safe then 2 else 1))) s

/-- DISCOVERY: the count of keys, then each key with its value. -/
def execDiscovery (s : State) : Host.Outcome State Fault Refusal :=
  mail 0x01 (fun s =>
    let n := Config.keys.length
    let s := s.putBuf 0 8 n
    ((List.range n).foldl (fun s i => match Config.keys[i]? with
      | some (k, v) => (s.putBuf (8 + 16 * i) 8 (Config.keyCode k)).putBuf (16 + 16 * i) 8 v
      | none => s) s, none)) s

/-- SELF_TEST_REPORT (23 R484). -/
def execSelfTestReport (s : State) : Host.Outcome State Fault Refusal :=
  mail 0x02 (fun s =>
    let b := s.board
    let s := ((s.putBuf 0 4 ((if b.failedUnits = 0 then 1 else 0) + (if b.safe then 2 else 0))).putBuf 4 4 b.failedUnits.toNat).putBuf 8 8 b.hostLanes
    ((List.range 11).foldl (fun s i => s.putBuf (16 + 8 * i) 8 (Sparse.get 0 b.corrected i)) s, none)) s

/-- MEMORY_REPORT. -/
def execMemoryReport (s : State) : Host.Outcome State Fault Refusal :=
  mail 0x03 (fun s => (((s.putBuf 0 8 s.board.expander).putBuf 8 8 s.board.localBase).putBuf 16 8 s.board.localLen, none)) s

/-- A number that names a context: one created and not retired (18 R388). -/
def Chip.named (c : Chip) (ctx : Nat) : Bool :=
  match Sparse.find? c.ctxs ctx with
  | some x => decide (x.state ≠ .retired)
  | none => false

/-- A command whose first word is a context number. -/
def ctxMail (code : Nat) (f : State → Nat → State × Option Nat) (s : State) : Host.Outcome State Fault Refusal :=
  mail code (fun s =>
    let ctx := s.buf 0 4
    if s.now.named ctx then f s ctx else (s, some 1)) s

/-- A request posted to a context. -/
def posted (s : State) (ctx : Nat) (r : Request) : State × Option Nat := ({ s with now := postRequest s s.now ctx r }, none)

/-- STOP_COMMAND. -/
def execStopCommand (s : State) : Host.Outcome State Fault Refusal := ctxMail 0x10 (fun s ctx => posted s ctx .stop) s

/-- SAVE_COMMAND. -/
def execSaveCommand (s : State) : Host.Outcome State Fault Refusal := ctxMail 0x11 (fun s ctx => posted s ctx .save) s

/-- RESUME_COMMAND. -/
def execResumeCommand (s : State) : Host.Outcome State Fault Refusal :=
  ctxMail 0x12 (fun s ctx =>
    let flags := s.buf 4 4
    if 1 < flags then (s, some 2) else posted s ctx (.resume (if flags = 1 then some (s.buf 8 4) else none))) s

/-- PRE_EMPT_COMMAND. -/
def execPreEmptCommand (s : State) : Host.Outcome State Fault Refusal :=
  ctxMail 0x13 (fun s ctx =>
    let n := s.buf 4 4
    let report := s.buf 8 8
    if n = 0 ∨ 160 < n ∨ populated s report = false ∨ populated s (report + 63) = false then (s, some 2) else posted s ctx (.preempt n report)) s

/-- MOVE. -/
def execMove (s : State) : Host.Outcome State Fault Refusal :=
  ctxMail 0x14 (fun s ctx => if 6143 < s.buf 4 2 ∨ s.buf 6 2 ≠ 0 then (s, some 2) else posted s ctx (.move (s.buf 4 2))) s

/-- KILL: at once, whatever is in progress (18 R391, R414). -/
def execKill (s : State) : Host.Outcome State Fault Refusal :=
  ctxMail 0x15 (fun s ctx => ({ s with now := kill s s.now ctx causeKillRequest { cause := causeKillRequest, source := 7 } }, none)) s

/-- RELEASE. -/
def execRelease (s : State) : Host.Outcome State Fault Refusal := ctxMail 0x16 (fun s ctx => posted s ctx .release) s

/-- CONTEXT_STATUS: CTXSTATE, then CTXRES; a retired context's number still names its last state until it is given again. -/
def execContextStatus (s : State) : Host.Outcome State Fault Refusal :=
  mail 0x17 (fun s =>
    let ctx := s.buf 0 4
    match Sparse.find? s.now.ctxs ctx with
    | some x => ((s.putBuf 0 4 (x.word 0x181).toNat).putBuf 4 4 (x.word 0x182).toNat, none)
    | none => (s, some 1)) s

/-- The lowest number that names no context (18 R388; log entry 64). -/
def Chip.freeNumber (c : Chip) : Option Nat := (List.range 65536).find? (fun n => decide (n ≠ 0) && !c.named n)

/-- A new context's allowed cores: every core of every die neither parked nor fenced (18 R404). -/
def Chip.openCores (c : Chip) : BitVec 160 :=
  coreSet ((List.range Config.cores).filter (fun k =>
    let d := (c.die (k / Config.coresPerDie)).state
    decide (d ≠ .parked) && decide (d ≠ .fenced)))

/-- CREATE_CONTEXT. -/
def execCreateContext (s : State) : Host.Outcome State Fault Refusal :=
  mail 0x18 (fun s =>
    let rd := s.buf
    let bad := decide (rd 0 8 % 65536 ≠ 0) || decide (rd 8 8 % 65536 ≠ 0) || decide (rd 0x10 8 % 65536 ≠ 0) || decide (1 < rd 0x30 4)
    if bad then (s, some 2)
    else match s.now.freeNumber with
      | none => (s, some 4)
      | some n =>
        let x : Ctx := { savebase := BitVec.ofNat 64 (rd 0 8), savelen := BitVec.ofNat 64 (rd 8 8), ckptbase := BitVec.ofNat 64 (rd 0x10 8)
                         ckptlen := BitVec.ofNat 64 (rd 0x18 8), ptbase := BitVec.ofNat 64 (rd 0x20 8), allowed := s.now.openCores }
        let c := s.now.setCtx n x
        if rd 0x28 8 = 0 then (({ s with now := c }).putBuf 0 4 n, none)
        else match loadObject s c n (rd 0x28 8) (decide (rd 0x30 4 = 1)) with
          | .inr _ => (s, some 3)
          | .inl (_, _, c) => (({ s with now := c }).putBuf 0 4 n, none)) s

/-- LOAD_CODE_OBJECT. -/
def execLoadCodeObject (s : State) : Host.Outcome State Fault Refusal :=
  ctxMail 0x19 (fun s ctx =>
    match loadObject s s.now ctx (s.buf 8 8) (bitAt (s.buf 0x10 4) 0) with
    | .inr r => (s, some r)
    | .inl (code, data, c) => ((({ s with now := c }).putBuf 0 8 code).putBuf 8 8 data, none)) s

/-- SET_ALLOWED_CORE_SET. -/
def execSetAllowedCoreSet (s : State) : Host.Outcome State Fault Refusal :=
  ctxMail 0x1A (fun s ctx => ({ s with now := s.now.setCtx ctx { s.now.ctx ctx with allowed := BitVec.ofNat 160 (s.buf 4 20) } }, none)) s

/-- The words kept per context that firmware may write (19 R429 and the register tables). -/
def contextWords : List Nat :=
  [0x100, 0x130, 0x138, 0x139, 0x140, 0x141, 0x160, 0x161, 0x162, 0x163, 0x164, 0x165, 0x167, 0x168, 0x183, 0x184, 0x188, 0x189, 0x18A, 0x18B, 0x1D0]

/-- WRITE_A_CONTEXT_CONTROL_WORD. -/
def execWriteAContextControlWord (s : State) : Host.Outcome State Fault Refusal :=
  ctxMail 0x1B (fun s ctx =>
    let a := s.buf 4 4
    if !contextWords.contains a then (s, some 2)
    else if (a = 0x183 ∨ a = 0x184) ∧ s.now.teamsOf ctx ≠ [] then (s, some 6)
    else ({ s with now := s.now.setCtx ctx ((s.now.ctx ctx).write a (BitVec.ofNat 64 (s.buf 8 8))) }, none)) s

/-! Keys and images (22 R473, R492). -/

/-- The bytes of MBBUF. -/
def State.bufBytes (s : State) (off n : Nat) : List (BitVec 8) := Memory.bytes s.board.mbbuf off n

/-- VERIFY_STENCIL_IMAGE: the host's verdict on the image whose header MBBUF holds, for the slot that is loading it. -/
def execVerifyStencilImage (s : State) : Host.Outcome State Fault Refusal :=
  mail 0x20 (fun s =>
    let slots := Sparse.keysWhere (fun _ (x : Slot) => decide (x.state = .loading) && x.assisted && x.verdict.isNone &&
      decide (physBytes s s.now x.image 128 = s.bufBytes 0 128)) s.now.slots
    match slots with
    | [] => (s, none)
    | i :: _ => ({ s with now := s.now.setSlot i { s.now.slot i with verdict := some (decide (s.buf 192 4 = 1)) } }, none)) s

/-- ENROL_OPERATOR_KEY. -/
def execEnrolOperatorKey (s : State) : Host.Outcome State Fault Refusal :=
  mail 0x21 (fun s =>
    let i := s.buf 0 4
    if i = 0 ∨ 4 < i ∨ s.buf 4 4 ≠ 0 then (s, some 2)
    else if !signatureOk Config.vendorKey (s.bufBytes 0 40) (s.bufBytes 0x28 64) then (s, some 3)
    else ({ s with board := { s.board with keys := Sparse.set s.board.keys i (BitVec.ofNat 256 (s.buf 8 32)) } }, none)) s

/-- KEY_STATUS. -/
def execKeyStatus (s : State) : Host.Outcome State Fault Refusal :=
  mail 0x22 (fun s => (s.putBuf 0 4 (((List.range 4).map (fun k => if (Sparse.find? s.board.keys (k + 1)).isSome then 2 ^ k else 0)).sum), none)) s

/-! Ports and the domain (20 R443, R448). -/

/-- Codes of port states. -/
def PortState.code : PortState → Nat
  | .down => 0 | .training => 1 | .up => 2 | .degraded => 3 | .fenced => 4

/-- The status word of a port. -/
def Port.word (p : Port) : Nat := p.state.code + 8 * (p.lanes / 4 % 32) + 256 * min p.replays 65535 + 2 ^ 24 * min p.dropped 255

/-- PORT_STATUS: the word of R448; its replays count from the last read. -/
def execPortStatus (s : State) : Host.Outcome State Fault Refusal :=
  mail 0x30 (fun s =>
    let i := s.buf 0 4
    if 17 < i then (s, some 2)
    else
      let p := s.board.port i
      ((s.putBuf 0 4 p.word).setPort i { p with replays := 0 }, none)) s

/-- FENCE_SCALE_UP_PORT. -/
def execFenceScaleUpPort (s : State) : Host.Outcome State Fault Refusal :=
  mail 0x31 (fun s =>
    let i := s.buf 0 4
    if 15 < i then (s, some 2) else ({ s with board := s.board.fencePort i }, none)) s

/-- UNFENCE_SCALE_UP_PORT: a fenced port goes down, a port that is down trains. -/
def execUnfenceScaleUpPort (s : State) : Host.Outcome State Fault Refusal :=
  mail 0x32 (fun s =>
    let i := s.buf 0 4
    if 15 < i then (s, some 2)
    else
      let p := s.board.port i
      (match p.state with
        | .fenced => s.setPort i { p with state := .down }
        | .down => s.setPort i { p with state := .training }
        | _ => s, none)) s

/-- DOMAIN_CONFIGURATION. -/
def execDomainConfiguration (s : State) : Host.Outcome State Fault Refusal :=
  mail 0x40 (fun s =>
    if 6143 < s.buf 0 2 ∨ 6143 < s.buf 2 2 ∨ s.buf 4 4 ≠ 0 then (s, some 2)
    else ({ s with board := { s.board with device := s.buf 0 2, master := some (s.buf 2 2) } }, none)) s

end Sys2Proof.Machine
end

