-- ==== Sys2Proof/Machine/Link.lean ====
section
/-! DEFINITION. The scale-up links (20 R444 to R449): flits in and out, the states of ports, domain time, and requests whose route is
lost. -/

namespace Sys2Proof.Machine

/-! Flows (R445). -/

/-- The key of a flow that ends here (R445). -/
def flowKey (h : BitVec 64) : Nat := flitSrc h + 2 ^ 13 * flitFlow h

/-- Whether the device grants page leases: it has a master, and has heard of it lately, or is it (R443, R447). -/
def Board.grants (b : Board) : Bool :=
  match b.master with
  | none => false
  | some m => decide (m = b.device) || decide (b.sinceSync < 65536)

/-! What another device asks for, and its answers (17 R381 to R385, 20 R446). -/

/-- A reply: the write time of the line in domain ticks, and data. -/
def answerTo (s : State) (m : Message) (p size op data : Nat) : Message :=
  { peer := m.peer, kind := 3, id := m.id, addr := Config.domainTime (s.now.line s (lineOf p)).wts s.board.dtick, size := size, op := op
    flow := m.flow, ordered := m.ordered, data := BitVec.ofNat 1024 data }

/-- A request of another device waits: its page moves, is marked copy-on-write or has leases out, or the bank that homes it wakes. -/
def farHeld (s : State) (c : Chip) (p : Nat) (write : Bool) : Bool :=
  c.bankWaking p || c.migrations.any (fun m => decide (m.source / 65536 = p / 65536)) || (write && (c.cowHeld p || leasePending s p))

/-- A read of another device at its home slice, uncached: the word is watched for it where it says so (12 R267, 17 R381). -/
def serveFarRead (s : State) (m : Message) : State :=
  let p := m.addr
  let c := recallNow s (quietLine s s.now (lineOf p)) (lineOf p) (maskOf p m.size)
  let c := if m.op = opWatch then { c with farWatch := (c.farWatch ++ [(p, m.peer)]).dedup } else c
  let s := { s with now := c }
  { s with now := c.tell (match poisonAt s c p m.size with
    | some _ => answerTo s m p m.size opPoison 0
    | none => answerTo s m p m.size 0 (peek s c p m.size)) }

/-- A write of another device at its home slice. -/
def serveFarWrite (s : State) (m : Message) : State :=
  let c := if m.size ≤ 8 then agentWrite s s.now none m.addr m.size m.data.toNat
    else agentWriteWords s none (m.size / 4) s.now m.addr m.data.toNat
  let s := { s with now := c }
  { s with now := c.tell (answerTo s m m.addr 0 0 0) }

/-- An atomic of another device at its home slice (11 R244); an append's exchange on a queue's header is refused where the queue is disabled
(09 R197). -/
def serveFarAtomic (s : State) (m : Message) : State :=
  let p := if m.op = opAppend then m.addr + 8 else m.addr
  let c := recallNow s (quietLine s s.now (lineOf p)) (lineOf p) (maskOf p m.size)
  let o := peek s c p m.size
  let y := m.data.toNat % 2 ^ (8 * m.size)
  let new := if m.op = opAppend then (if bitAt (peek s c (m.addr + 0x18) 4) 0 then some y else none)
    else (rmwOf m.op).bind (fun op => op.apply (8 * m.size) o y (m.data.toNat / 2 ^ 64 % 2 ^ (8 * m.size)))
  let c := match new with
    | some v => agentWrite s c none p m.size v
    | none => c
  let s' := { s with now := c }
  { s' with now := c.tell (match poisonAt s s.now p m.size with
    | some _ => answerTo s' m p m.size opPoison 0
    | none => answerTo s' m p m.size (if m.op = opAppend ∧ new.isNone = true then 2 else 0) o) }

/-- The home's answer to a lease asked for (17 R382, R383): granted for a page that some context maps read-shared, ending PAGELEASE ticks on,
with the page's lines where its write time is not the one the asker has. -/
def grantLease (s : State) (m : Message) : State :=
  match (mappers s s.now m.addr (fun y => decide (Pte.share y = 1))).head? with
  | none => s
  | some (ctx, _) =>
    if !s.board.grants then s
    else
      let page := m.addr / 65536
      let end_ := s.board.dtick + (s.now.ctx ctx).pagelease
      let time := pageTime s s.now (65536 * page)
      let c := if m.data.toNat = time + 1 then s.now else tellPage s s.now m.peer (65536 * page) (65536 * page)
      let c := c.tell { peer := m.peer, kind := 5, op := 1, addr := 65536 * page, flow := bulkFlow - 1, data := BitVec.ofNat 1024 (end_ + 2 ^ 64 * (time + 1)) }
      { s with now := c, board := { s.board with leasesGranted := Sparse.set s.board.leasesGranted page (max (Sparse.get 0 s.board.leasesGranted page) end_) } }

/-- A lease granted to this device: the copy is held until its end; lines whose page has been written since the copy was made are new (17
R382; log entry 116). -/
def takeLease (s : State) (m : Message) : State :=
  let page := (copyBase m.peer + m.addr) / 65536
  let time := m.data.toNat / 2 ^ 64 % 2 ^ 64 - 1
  let fresh : Bool := Sparse.find? s.board.pageTimes page = some time
  { s with
    now := if fresh then s.now else checkOutPage s s.now (65536 * page)
    board := { s.board with leasesHeld := Sparse.set s.board.leasesHeld page (m.data.toNat % 2 ^ 64), pageTimes := Sparse.set s.board.pageTimes page time } }

/-- The home hands a page to another device's drover (17 R384): its entries name the holder. -/
def grantCheckout (s : State) (m : Message) : State :=
  let base := m.addr / 65536 * 65536
  let c := giveUpPage s s.now m.peer base base
  { s with now := (mappers s c base (fun _ => true)).foldl (fun c q => match walk s c q.1 q.2 with
    | .leaf x at_ _ => (agentWrite s c none at_ 8 (x - 8192 * Pte.share x - 2 ^ 48 * Pte.dev x + 2 * 8192 + 2 ^ 48 * m.peer)).shoot q.1 (some q.2)
    | _ => c) c }

/-- The holder gives a page back that its home recalls (17 R384): its entries are in state 3 again. -/
def answerPageRecall (s : State) (m : Message) : State :=
  let base := copyBase m.peer + m.addr / 65536 * 65536
  let held := s.now.ctxs.flatMap (fun x => ((pagesOf s s.now x.1 (fun y => decide (Pte.state y = 4) && decide (Pte.dev y = m.peer))).filter (fun q =>
    decide (q.2 / 65536 = m.addr / 65536))).map (fun q => (x.1, q.1)))
  if held.isEmpty then s
  else
    let c := giveUpPage s s.now m.peer base m.addr
    { s with now := (held.foldl (fun c q => match walk s c q.1 q.2 with
      | .leaf x at_ _ => (agentWrite s c none at_ 8 (Pte.withState x 3)).shoot q.1 (some q.2)
      | _ => c) c).tell (bulk m.peer opReturn m.addr) }

/-- A page that its holder returns is home-only again; its lines are what the holder held (17 R384; log entry 116). -/
def takeReturn (s : State) (m : Message) : State :=
  { s with now := (mappers s s.now m.addr (fun y => decide (Pte.share y = 2) && decide (Pte.dev y = m.peer))).foldl (fun c q => match walk s c q.1 q.2 with
    | .leaf x at_ level => agentWrite s ((List.range (if level = 2 then 8192 else 1)).foldl (fun c i => checkOutPage s c (Pte.frame x + 65536 * i)) c) none at_ 8
        (x - 2 * 8192 - 2 ^ 48 * Pte.dev x)
    | _ => c) s.now }

/-- A reply to an access of this device (20 R446): what the other device's memory holds reaches the registers, a store has been performed. -/
def takeAnswer (s : State) (m : Message) : State :=
  match Sparse.find? s.now.accesses m.id with
  | none => s
  | some a =>
    if a.stage ≠ .remote ∨ a.dev ≠ some m.peer ∨ s.now.mayPerform m.id a = false then s
    else
      let poison : Option Nat := if m.op = opPoison then some 1 else none
      match a.op with
      | .load => giveData { s with now := s.now.seeAfar a } m.id
          { a with stage := .returned, result := a.taken (putBytes 0 (a.phys % 128) a.size m.data.toNat), poison := poison }
      | .rmw _ =>
        let c := if (s.now.team (s.now.teamOf a.th)).core.isSome then s.now.seeAfar a else s.now
        giveReply { s with now := c } m.id a (BitVec.ofNat 64 (m.data.toNat % 2 ^ (8 * a.size)))
      | .store => if a.poison.isSome then s else { s with now := settleFences s { s.now with accesses := Sparse.erase s.now.accesses m.id } a.th }
      | _ => s

/-- The base of so many frames of HBM in a row that nothing uses, taken by firmware (log entry 96). -/
def freeArea (e : State) (c : Chip) (len : Nat) : Nat × Chip :=
  let (v, c) := c.freeValue
  let used := fun (k : Nat) => (List.range (len / 65536)).any (fun i => !isHbm (65536 * (k + i)) || frameUsed e c (65536 * (k + i)))
  (65536 * firstFree used (2 ^ 23) (2 ^ 23) v.toNat, c)

/-- The last part of a context that another device moves here (18 R413): a context in state saved, with a number and a save area of its own,
the status words of the image, and the three physical words as this device's system software supplies them, which are free values.
Its teams are bytes of the area only (log entry 18). -/
def adoptContext (s : State) (m : Message) : State :=
  let mine := fun (p : Message) => decide (p.peer = m.peer) && decide (p.id = m.id)
  let s' := { s with board := { s.board with arriving := s.board.arriving.filter (fun p => !mine p) } }
  match s.now.freeNumber with
  | none => s'
  | some n =>
    let (base, c) := freeArea s s.now m.addr
    let c := (s.board.arriving.filter mine).foldl (fun c p => agentWriteBytes s c (base + p.addr) (leBytes 128 p.data.toNat)) c
    let (pt, c) := c.freeValue
    let (dq, c) := c.freeValue
    let (pool, c) := c.freeValue
    let at_ := fun (a : Nat) => base + 0x100 + 8 * (a - 0x100)
    let c := agentWrite s (agentWrite s (agentWrite s c none (at_ 0x160) 8 pt.toNat) none (at_ 0x164) 8 dq.toNat) none (at_ 0x167) 8 pool.toNat
    let w := fun (a : Nat) => peek s c (at_ a) 8
    { s' with now := c.setCtx n {
        state := .saved, savebase := BitVec.ofNat 64 base, savelen := BitVec.ofNat 64 m.addr, floor := m.data.toNat, allowed := c.openCores
        trapvec := BitVec.ofNat 64 (w 0x100), errqbase := BitVec.ofNat 64 (w 0x110), errqlen := w 0x111, leaselen := w 0x130
        fairlim := w 0x138, bintime := w 0x139, qtbase := BitVec.ofNat 64 (w 0x140), qtlen := w 0x141, ptbase := pt
        holdlim := w 0x161, drvcount := bitAt (w 0x162) 0, drvthresh := fieldNat (w 0x162) 8 8, pagelease := w 0x163, drvqbase := dq
        drvqtail := BitVec.ofNat 32 (w 0x165), drvqhead := BitVec.ofNat 32 (w 0x166), drvTaken := BitVec.ofNat 32 (w 0x166), poolbase := pool
        pooltail := BitVec.ofNat 32 (w 0x168), poolhead := BitVec.ofNat 32 (w 0x169) } }

/-- Acting on a message. A request that must wait stays in the inbox, its page no longer shared where it writes (17 R383). -/
def actOn (s : State) (m : Message) : State :=
  let stay := fun (s : State) => { s with board := { s.board with inbox := s.board.inbox ++ [m] } }
  let request := fun (write : Bool) (go : State → State) =>
    let c := recallFrame s s.now m.addr
    let s := { s with now := if write then demoteFrame s c m.addr else c }
    if !(populated s m.addr && populated s (m.addr + max m.size 1 - 1)) then { s with now := s.now.tell (answerTo s m 0 0 opPoison 0) }
    else if farHeld s s.now m.addr write then stay s
    else go s
  match m.kind with
  | 0 => request false (fun s => serveFarRead s m)
  | 1 => request true (fun s => serveFarWrite s m)
  | 2 => request true (fun s => serveFarAtomic s m)
  | 3 => takeAnswer s m
  | 4 => { s with now := (s.now.fireGlobal (copyBase m.peer + m.addr) 4) }
  | 5 => if m.op = 0 then grantLease s m else takeLease s m
  | 6 =>
    if m.op = opCheckout then request true (fun s => grantCheckout s m)
    else if m.op = opReturn then takeReturn s m
    else if m.op = opContext then { s with board := { s.board with arriving := s.board.arriving ++ [m] } }
    else if m.op = opContextEnd then adoptContext s m
    else if m.op = opRecall then (if s.now.frameBusy (copyBase m.peer + m.addr) then stay s else answerPageRecall s m)
    else s
  | _ => s

/-- The requests that wait, tried again in order. -/
def serveInbox (s : State) : State := s.board.inbox.foldl actOn { s with board := { s.board with inbox := [] } }

/-- The flits of an ordered flow come in order: a message is acted on when its last has come. A flit with no other is a message. -/
def deliverOrdered (s : State) (h : BitVec 64) (payload : BitVec 384) : State :=
  let key := flowKey h
  let f := Sparse.get {} s.board.flows key
  let ps := f.parts ++ [payload]
  let put := fun (g : Flow) => { s with board := { s.board with flows := Sparse.set s.board.flows key g } }
  if flitLast h then actOn (put { f with parts := [] }) (messageOf h ps) else put { f with parts := ps }

/-- The sequence numbers of the message that ends with flit `q` of an unordered flow, once the flit before its first is known to end
another, or begins the flow. -/
def Flow.run (f : Flow) (q : Nat) : Option (List Nat) :=
  (List.range 4).findSome? (fun n =>
    let at_ := fun (i : Nat) => (q + 2 ^ 16 - i) % 2 ^ 16
    if (decide (at_ n = 0) || f.ends.contains (at_ (n + 1))) && (List.range (n + 1)).all (fun i => (Sparse.find? f.loose (at_ i)).isSome) then
      some ((List.range (n + 1)).map (fun i => at_ (n - i)))
    else none)

/-- The flits of an unordered flow come in any order: messages that are whole are acted on. -/
def deliverLoose (s : State) (h : BitVec 64) (payload : BitVec 384) : State :=
  let key := flowKey h
  let f := Sparse.get {} s.board.flows key
  let f := { f with
    loose := Sparse.set f.loose (flitSeq h) (h, payload)
    ends := if flitLast h then flitSeq h :: f.ends.filter (fun x => decide ((flitSeq h + 2 ^ 16 - x) % 2 ^ 16 < 2 ^ 15)) else f.ends }
  let s := { s with board := { s.board with flows := Sparse.set s.board.flows key f } }
  ((f.loose.filter (fun x => flitLast x.2.1)).map (·.1)).foldl (fun s q =>
    let f := Sparse.get {} s.board.flows key
    match f.run q with
    | none => s
    | some qs =>
      let ps := qs.filterMap (fun i => (Sparse.find? f.loose i).map (·.2))
      let g := { f with loose := qs.foldl Sparse.erase f.loose }
      actOn { s with board := { s.board with flows := Sparse.set s.board.flows key g } } (messageOf ((((Sparse.find? f.loose q).map (·.1)).getD 0)) ps)) s

/-- Delivering what waits in a flow, in order, with no gap. -/
def drainFlow : Nat → State → Nat → State
  | 0, s, _ => s
  | n + 1, s, key =>
    let f := Sparse.get {} s.board.flows key
    match Sparse.find? f.waiting f.next with
    | none => s
    | some (h, p) =>
      let f := { f with next := (f.next + 1) % 2 ^ 16, waiting := Sparse.erase f.waiting f.next }
      drainFlow n (deliverOrdered { s with board := { s.board with flows := Sparse.set s.board.flows key f } } h p) key

/-- A flit of a flow that ends here (R445): an ordered flow delivers in sequence order, an unordered one on arrival, each sequence number
once. -/
def takeFlit (s : State) (h : BitVec 64) (payload : BitVec 384) : State :=
  let key := flowKey h
  let f := Sparse.get {} s.board.flows key
  let q := flitSeq h
  let ahead := (q + 2 ^ 16 - f.next) % 2 ^ 16
  let put := fun (g : Flow) => { s with board := { s.board with flows := Sparse.set s.board.flows key g } }
  if flitOrdered h then
    if 2 ^ 15 ≤ ahead then s
    else drainFlow (f.waiting.length + 1) (put { f with waiting := Sparse.set f.waiting q (h, payload) }) key
  else if f.seen.contains q then s
  else deliverLoose (put { f with seen := q :: f.seen.filter (fun x => decide ((q + 2 ^ 16 - x) % 2 ^ 16 < 2 ^ 15)) }) h payload

/-- FLIT_RECEIVE: a flit whose check fails is not delivered; a reserved kind, a bit of the header that must be zero (log entry 65) or another
device's number drops it and is counted. -/
def execFlitReceive (port : Nat) (header : BitVec 64) (payload : BitVec 384) (good : Bool) (s : State) : Host.Outcome State Fault Refusal :=
  eventS (fun s =>
    let p := s.board.port port
    if 15 < port ∨ p.carries = false ∨ good = false then s
    else if 7 < flitKind header ∨ fieldNat header.toNat 60 4 ≠ 0 ∨ flitDst header ≠ s.board.device then s.setPort port { p with dropped := min 255 (p.dropped + 1) }
    else takeFlit s header payload) s

/-- A replay counted: the eighth of one flit in a row starts training (R448). -/
def Port.replayed (p : Port) : Port :=
  let q := { p with replays := min 65535 (p.replays + 1), inRow := p.inRow + 1 }
  if q.inRow < 8 then q else { q with state := .training, lanes := 0, inRow := 0 }

/-- FLIT_REPLAY: the flit sent longest ago and not acknowledged is put on the line again. -/
def execFlitReplay (port : Nat) (s : State) : Host.Outcome State Fault Refusal :=
  eventS (fun s =>
    let p := s.board.port port
    if p.carries = false ∨ p.replay = [] then s
    else s.setPort port { p with wire := p.wire ++ p.replay.take 1 }.replayed) s

/-! The passing of time, and what it ends. -/

/-- TICK: the accumulator passes the next multiple of 128, and every clock rises by 1. A renewal reply that is on its way across a tick asks
again, so that a lease it brings ends within the bound of 12 R267 (log entry 134). Messages to other devices leave,
requests of theirs that waited are tried again, and contexts that resume run (18 R392). -/
def execTick (s : State) : Host.Outcome State Fault Refusal :=
  eventS (fun s =>
    let e := s.sendAll
    let c := finishResumes e (flushDeferred e (e.now.requeue (fun _ => true)))
    let b := e.board
    let n := (128 - b.accum + 2) / 3
    serveInbox { e with
      now := { c with
        cores := c.tickClocks
        threads := Sparse.mapVals c.tickThread c.threads
        ctxs := Sparse.mapVals (fun _ (x : Ctx) => { x with sinceMark := x.sinceMark + 1 }) c.ctxs }
      board := { b with accum := b.accum + 3 * n - 128, dtick := b.dtick + 1, sinceSync := b.sinceSync + 1 } }) s

/-- PAGE_LEASE_END: the last lease on a page has ended; the writes that waited for it go on. -/
def execPageLeaseEnd (page : Nat) (s : State) : Host.Outcome State Fault Refusal :=
  eventS (fun s => match Sparse.find? s.board.leasesGranted page with
    | some end_ =>
      if s.board.dtick < end_ then s
      else
        let s := { s with board := { s.board with leasesGranted := Sparse.erase s.board.leasesGranted page } }
        serveInbox { s with now := flushDeferred s s.now }
    | none => s) s

/-! Domain time (R447). -/

/-- TIME_SYNC_SEND: the master sends a time-sync flit on each port that carries traffic. -/
def execTimeSyncSend (s : State) : Host.Outcome State Fault Refusal :=
  eventS (fun s =>
    if s.board.master ≠ some s.board.device ∨ s.board.sinceSync < 1024 then s
    else
      let s := (List.range 16).foldl (fun s i =>
        let p := s.board.port i
        if p.carries then
          let q := Sparse.get 0 s.board.sendSeq i
          let h := flitHeader 0 s.board.device i q 7 false true
          let s := s.setPort i (p.send [(h, BitVec.ofNat 384 s.board.dtick)])
          { s with board := { s.board with sendSeq := Sparse.set s.board.sendSeq i ((q + 1) % 2 ^ 16) } }
        else s) s
      { s with board := { s.board with sinceSync := 0 } }) s

/-- TIME_SYNC_RECEIVE: DTICK takes the master's count and the route's delay, and never steps back. -/
def execTimeSyncReceive (dtick : BitVec 48) (delay : Nat) (s : State) : Host.Outcome State Fault Refusal :=
  eventS (fun s =>
    if s.board.master = none ∨ s.board.master = some s.board.device then s
    else { s with board := { s.board with dtick := max s.board.dtick (min (2 ^ 48 - 1) (dtick.toNat + delay)), sinceSync := 0 } }) s

/-- SYNC_LOSS_TIMEOUT: every page lease held counts as ended. -/
def execSyncLossTimeout (s : State) : Host.Outcome State Fault Refusal :=
  eventS (fun s =>
    if s.board.sinceSync < 65536 ∨ s.board.master = some s.board.device then s
    else { s with board := { s.board with leasesHeld := [] } }) s

/-! Port states (R448). -/

/-- Lanes of a port at full width: x16 for the host and expander ports (R439, R440), 256 GB/s at 64 GT/s for a scale-up port (log
entry 66). -/
def fullLanes (port : Nat) : Nat := if port < 16 then 32 else 16

/-- TRAINING_SUCCESS: the expanders of port 17 are enumerated (20 R440). -/
def execTrainingSuccess (port lanes : Nat) (s : State) : Host.Outcome State Fault Refusal :=
  eventS (fun s =>
    let p := s.board.port port
    let s := if port = 17 ∧ p.state = .training ∧ (lanes = 16 ∨ lanes = 8 ∨ lanes = 4) then
        { s with board := { s.board with expander := Config.expanderBytes % 2 ^ 46 } } else s
    if 17 < port ∨ p.state ≠ .training ∨ (16 ≤ port ∧ lanes ≠ 16 ∧ lanes ≠ 8 ∧ lanes ≠ 4) then s
    else if lanes = fullLanes port then s.setPort port { p with state := .up, lanes := lanes, inRow := 0 }
    else if 0 < lanes ∧ 2 * lanes ≤ fullLanes port then s.setPort port { p with state := .degraded, lanes := lanes, inRow := 0 }
    else s) s

/-- TRAINING_TIMEOUT: expanders that fail training leave their range unpopulated (20 R440). -/
def execTrainingTimeout (port : Nat) (s : State) : Host.Outcome State Fault Refusal :=
  eventS (fun s =>
    let p := s.board.port port
    if p.state = .training then
      let s := if port = 17 then { s with board := { s.board with expander := 0 } } else s
      s.setPort port { p with state := .down, lanes := 0 }
    else s) s

/-- TRAINING_RETRY; the host port stays down once barn die 0 is fenced (21 R462). -/
def execTrainingRetry (port : Nat) (s : State) : Host.Outcome State Fault Refusal :=
  eventS (fun s =>
    let p := s.board.port port
    if p.state = .down ∧ !(decide (port = 16) && s.board.barnFenced.contains 0) then s.setPort port { p with state := .training } else s) s

/-- LINK_RETRAIN: sent flits stay to be replayed after training. -/
def execLinkRetrain (port : Nat) (s : State) : Host.Outcome State Fault Refusal :=
  eventS (fun s =>
    let p := s.board.port port
    if p.carries then s.setPort port { p with state := .training, lanes := 0 } else s) s

/-! Lost routes (R449). -/

/-- ROUTE_FAILURE: a request to another device whose message no route can carry: a load's or atomic's data is an uncorrectable error of
subcode 1; a store is never acknowledged, and its error is recorded once. -/
def execRouteFailure (req : Nat) (s : State) : Host.Outcome State Fault Refusal :=
  eventS (fun s =>
    match Sparse.find? s.now.accesses req with
    | none => s
    | some a =>
      if a.stage ≠ .remote ∨ s.board.routeLost = false then s
      else match a.op with
        | .store =>
          if a.poison.isSome then s
          else
            let c := s.now.setAccess req { a with poison := some 1 }
            { s with now := errorRecord s c a.ctx (c.threadRec a.th causeUncorrectable 1 6 (c.thread a.th).pc.toNat a.va 0 0 0 0) }
        | .ecall => s
        | _ => giveData s req { a with stage := .returned, poison := some 1 }) s

end Sys2Proof.Machine
end

