-- ==== Sys2Proof/Machine/Memory.lean ====
section
/-! DEFINITION. Loads and stores, majors 0x2C to 0x30 (11 R243); atomics, 0x31 and 0x32 (R244); acquires, releases and fences,
0x33 (R247, R248); cache control and the stash, 0x34 (R249, R250). -/

namespace Sys2Proof.Machine

/-! Loads and stores. -/

/-- LD. -/
def execLd (c u : Bool) (t : BitVec 2) (z : BitVec 3) (d : BitVec 7) (b : BitVec 6) (o : BitVec 5) (s : State) :
    Host.Outcome State Fault Refusal :=
  let ea := fun (m : Chip) x => globalEA m x (2 * b.toNat) o (sizeBytes z)
  runWord (.ld c u t z d b o) (fun e x slot => globalVerdict e x slot (ea e.now x) (sizeBytes z) false)
    (once u (fun e x takers m => request e m x takers (loadReq t (sizeBytes z) d.toNat tagRaw (sizeSigned z)) (ea e.now x))) s

/-- ST. -/
def execSt (c u : Bool) (t : BitVec 2) (z : BitVec 3) (d : BitVec 7) (b : BitVec 6) (o : BitVec 5) (s : State) :
    Host.Outcome State Fault Refusal :=
  let ea := fun (m : Chip) x => globalEA m x (2 * b.toNat) o (sizeBytes z)
  runWord (.st c u t z d b o) (fun e x slot => globalVerdict e x slot (ea e.now x) (sizeBytes z) true)
    (once u (fun e x _ m => request e m x [] (storeReq e.now x t (sizeBytes z) d.toNat) (ea e.now x))) s

/-- LDS. -/
def execLds (c u : Bool) (t : BitVec 2) (z : BitVec 3) (d b : BitVec 7) (o : BitVec 5) (s : State) : Host.Outcome State Fault Refusal :=
  let space := spaceOf t
  let off := fun (m : Chip) x => localOffset m x b.toNat (decide (space = .rmt)) o (sizeBytes z)
  runWord (.lds c u t z d b o) (fun e x slot => localVerdict e x slot space (e.now.v x b.toNat) (off e.now x) (sizeBytes z) false)
    (once u (fun e x takers m =>
      let n := (off e.now x).toNat
      match space with
      | .stash => stashReq e m x takers (loadReq 1 (sizeBytes z) d.toNat tagRaw (sizeSigned z)) n
      | _ => localLoad e m x takers (m.localTeam x space (e.now.v x b.toNat)) n (sizeBytes z) t.toNat d.toNat (sizeSigned z))) s

/-- STS. -/
def execSts (c u : Bool) (t : BitVec 2) (z : BitVec 3) (d b : BitVec 7) (o : BitVec 5) (s : State) : Host.Outcome State Fault Refusal :=
  let space := spaceOf t
  let off := fun (m : Chip) x => localOffset m x b.toNat (decide (space = .rmt)) o (sizeBytes z)
  runWord (.sts c u t z d b o) (fun e x slot => localVerdict e x slot space (e.now.v x b.toNat) (off e.now x) (sizeBytes z) true)
    (once u (fun e x _ m =>
      let n := (off e.now x).toNat
      match space with
      | .stash => stashReq e m x [] (storeReq e.now x 1 (sizeBytes z) d.toNat) n
      | _ =>
        let k := m.localTeam x space (e.now.v x b.toNat)
        (m.writeLocal k n (sizeBytes z) (regsValue e.now x d.toNat (regsOf (sizeBytes z)))).stampLocal k (m.coreOf x))) s

/-- LDF: four bytes, tagged with the format. -/
def execLdf (c u : Bool) (t : BitVec 2) (f : BitVec 3) (d : BitVec 7) (b : BitVec 6) (o : BitVec 5) (s : State) :
    Host.Outcome State Fault Refusal :=
  let ea := fun (m : Chip) x => globalEA m x (2 * b.toNat) o 4
  runWord (.ldf c u t f d b o) (fun e x slot => globalVerdict e x slot (ea e.now x) 4 false)
    (once u (fun e x takers m => request e m x takers (loadReq t 4 d.toNat (f.setWidth 4 + 2) false) (ea e.now x))) s

/-! Atomics. -/

/-- A read-modify-write word over the address pair `a` with operand `b` (11 R244); with CAS the compare value stands in `b`
and the new value after it. -/
def atomic (i : Instr) (u : Bool) (op : RmwOp) (w : BitVec 1) (order : BitVec 2) (scope : BitVec 3) (promote : Bool) (d a b : Nat)
    (s : State) : Host.Outcome State Fault Refusal :=
  let size := wideBytes w
  let n := wideRegs w
  let ea := fun (m : Chip) x => m.vv x (2 * a)
  runWord i (fun e x slot => globalVerdict e x slot (ea e.now x) size true)
    (once u (fun e x takers m =>
      let first := regsValue e.now x b n
      let second := regsValue e.now x (b + n) n
      let y := if op = .cas then second else first
      request e m x takers { rmwReq op size d order scope y first with promote := promote } (ea e.now x))) s

/-- ATOM.ADD. -/
def execAtomAdd (c u : Bool) (w : BitVec 1) (r : BitVec 2) (sc : BitVec 3) (d : BitVec 5) (a : BitVec 4) (b : BitVec 5) (s : State) :
    Host.Outcome State Fault Refusal := atomic (.atomAdd c u w r sc d a b) u .add w r sc false d.toNat a.toNat b.toNat s
/-- ATOM.MIN.S32. -/
def execAtomMinS32 (c u : Bool) (w : BitVec 1) (r : BitVec 2) (sc : BitVec 3) (d : BitVec 5) (a : BitVec 4) (b : BitVec 5) (s : State) :
    Host.Outcome State Fault Refusal := atomic (.atomMinS32 c u w r sc d a b) u .minS w r sc false d.toNat a.toNat b.toNat s
/-- ATOM.MAX.S32. -/
def execAtomMaxS32 (c u : Bool) (w : BitVec 1) (r : BitVec 2) (sc : BitVec 3) (d : BitVec 5) (a : BitVec 4) (b : BitVec 5) (s : State) :
    Host.Outcome State Fault Refusal := atomic (.atomMaxS32 c u w r sc d a b) u .maxS w r sc false d.toNat a.toNat b.toNat s
/-- ATOM.MIN.N32. -/
def execAtomMinN32 (c u : Bool) (w : BitVec 1) (r : BitVec 2) (sc : BitVec 3) (d : BitVec 5) (a : BitVec 4) (b : BitVec 5) (s : State) :
    Host.Outcome State Fault Refusal := atomic (.atomMinN32 c u w r sc d a b) u .minU w r sc false d.toNat a.toNat b.toNat s
/-- ATOM.MAX.N32. -/
def execAtomMaxN32 (c u : Bool) (w : BitVec 1) (r : BitVec 2) (sc : BitVec 3) (d : BitVec 5) (a : BitVec 4) (b : BitVec 5) (s : State) :
    Host.Outcome State Fault Refusal := atomic (.atomMaxN32 c u w r sc d a b) u .maxU w r sc false d.toNat a.toNat b.toNat s
/-- ATOM.AND. -/
def execAtomAnd (c u : Bool) (w : BitVec 1) (r : BitVec 2) (sc : BitVec 3) (d : BitVec 5) (a : BitVec 4) (b : BitVec 5) (s : State) :
    Host.Outcome State Fault Refusal := atomic (.atomAnd c u w r sc d a b) u .and w r sc false d.toNat a.toNat b.toNat s
/-- ATOM.OR. -/
def execAtomOr (c u : Bool) (w : BitVec 1) (r : BitVec 2) (sc : BitVec 3) (d : BitVec 5) (a : BitVec 4) (b : BitVec 5) (s : State) :
    Host.Outcome State Fault Refusal := atomic (.atomOr c u w r sc d a b) u .or w r sc false d.toNat a.toNat b.toNat s
/-- ATOM.XOR. -/
def execAtomXor (c u : Bool) (w : BitVec 1) (r : BitVec 2) (sc : BitVec 3) (d : BitVec 5) (a : BitVec 4) (b : BitVec 5) (s : State) :
    Host.Outcome State Fault Refusal := atomic (.atomXor c u w r sc d a b) u .xor w r sc false d.toNat a.toNat b.toNat s
/-- ATOMX.XCHG. -/
def execAtomxXchg (c u : Bool) (w : BitVec 1) (r : BitVec 2) (sc : BitVec 3) (d : BitVec 5) (a : BitVec 4) (b : BitVec 5) (s : State) :
    Host.Outcome State Fault Refusal := atomic (.atomxXchg c u w r sc d a b) u .xchg w r sc false d.toNat a.toNat b.toNat s
/-- ATOMX.CAS. -/
def execAtomxCas (c u : Bool) (w : BitVec 1) (r : BitVec 2) (sc : BitVec 3) (d : BitVec 5) (a : BitVec 4) (b : BitVec 5) (s : State) :
    Host.Outcome State Fault Refusal := atomic (.atomxCas c u w r sc d a b) u .cas w r sc false d.toNat a.toNat b.toNat s
/-- ATOMX.INCW. -/
def execAtomxIncw (c u : Bool) (w : BitVec 1) (r : BitVec 2) (sc : BitVec 3) (d : BitVec 5) (a : BitVec 4) (b : BitVec 5) (s : State) :
    Host.Outcome State Fault Refusal := atomic (.atomxIncw c u w r sc d a b) u .incw w r sc false d.toNat a.toNat b.toNat s
/-- ATOMX.DECW. -/
def execAtomxDecw (c u : Bool) (w : BitVec 1) (r : BitVec 2) (sc : BitVec 3) (d : BitVec 5) (a : BitVec 4) (b : BitVec 5) (s : State) :
    Host.Outcome State Fault Refusal := atomic (.atomxDecw c u w r sc d a b) u .decw w r sc false d.toNat a.toNat b.toNat s
/-- ATOMX.FADD.F32. -/
def execAtomxFaddF32 (c u : Bool) (r : BitVec 2) (sc : BitVec 3) (d : BitVec 5) (a : BitVec 4) (b : BitVec 5) (s : State) :
    Host.Outcome State Fault Refusal := atomic (.atomxFaddF32 c u r sc d a b) u .fadd 0 r sc false d.toNat a.toNat b.toNat s
/-- ATOMX.FMIN.F32. -/
def execAtomxFminF32 (c u : Bool) (r : BitVec 2) (sc : BitVec 3) (d : BitVec 5) (a : BitVec 4) (b : BitVec 5) (s : State) :
    Host.Outcome State Fault Refusal := atomic (.atomxFminF32 c u r sc d a b) u .fmin 0 r sc false d.toNat a.toNat b.toNat s
/-- ATOMX.FMAX.F32. -/
def execAtomxFmaxF32 (c u : Bool) (r : BitVec 2) (sc : BitVec 3) (d : BitVec 5) (a : BitVec 4) (b : BitVec 5) (s : State) :
    Host.Outcome State Fault Refusal := atomic (.atomxFmaxF32 c u r sc d a b) u .fmax 0 r sc false d.toNat a.toNat b.toNat s
/-- ATOMP. -/
def execAtomp (c u : Bool) (w : BitVec 1) (r : BitVec 2) (sc : BitVec 3) (d : BitVec 5) (a : BitVec 4) (b : BitVec 5) (s : State) :
    Host.Outcome State Fault Refusal := atomic (.atomp c u w r sc d a b) u .add w r sc true d.toNat a.toNat b.toNat s

/-! Acquires, releases and fences. -/

/-- LDA. -/
def execLda (c u : Bool) (w : BitVec 1) (sc : BitVec 3) (d : BitVec 5) (a : BitVec 4) (s : State) : Host.Outcome State Fault Refusal :=
  let ea := fun (m : Chip) x => m.vv x (2 * a.toNat)
  runWord (.lda c u w sc d a) (fun e x slot => globalVerdict e x slot (ea e.now x) (wideBytes w) false)
    (once u (fun e x takers m => request e m x takers
      { loadReq 0 (wideBytes w) d.toNat tagRaw false with order := 1, scope := sc } (ea e.now x))) s

/-- LDAP. -/
def execLdap (c u : Bool) (w : BitVec 1) (sc : BitVec 3) (d : BitVec 5) (a : BitVec 4) (s : State) : Host.Outcome State Fault Refusal :=
  let ea := fun (m : Chip) x => m.vv x (2 * a.toNat)
  runWord (.ldap c u w sc d a) (fun e x slot => globalVerdict e x slot (ea e.now x) (wideBytes w) false)
    (once u (fun e x takers m => request e m x takers
      { loadReq 0 (wideBytes w) d.toNat tagRaw false with order := 1, scope := sc, promote := true } (ea e.now x))) s

/-- STL. -/
def execStl (c u : Bool) (w : BitVec 1) (sc : BitVec 3) (a : BitVec 4) (b : BitVec 5) (s : State) : Host.Outcome State Fault Refusal :=
  let ea := fun (m : Chip) x => m.vv x (2 * a.toNat)
  runWord (.stl c u w sc a b) (fun e x slot => globalVerdict e x slot (ea e.now x) (wideBytes w) true)
    (once u (fun e x _ m => request e m x []
      { storeReq e.now x 0 (wideBytes w) b.toNat with order := 2, scope := sc } (ea e.now x))) s

/-- A fence in one thread; one that nothing precedes completes at once (11 R247). -/
def fenceReq (e : State) (c : Chip) (t : Nat) (order : BitVec 2) (scope : BitVec 3) : Chip :=
  let (id, c) := c.fresh
  let c := c.setAccess id { th := t, core := c.coreOf t, ctx := c.ctxOf t, op := .fence, size := 0, order := order, scope := scope
                            slot := (e.issue.map Issue.slot).getD 0 }
  settleFences e c t

/-- A fence in every thread of the issue group, U or not (11 R247). -/
def fenceAct (order : BitVec 2) (scope : BitVec 3) : Act :=
  fun e _ live c => (live.filter e.now.visible).foldl (fun c t => fenceReq e c t order scope) c

/-- FENCE. -/
def execFence (c u : Bool) (r : BitVec 2) (sc : BitVec 3) (s : State) : Host.Outcome State Fault Refusal :=
  runWord (.fence c u r sc) noCheck (fenceAct r sc) s

/-- FENCE.SC: an acquire-release fence; every synchronising access of this model is performed in one order. -/
def execFenceSc (c u : Bool) (sc : BitVec 3) (s : State) : Host.Outcome State Fault Refusal :=
  runWord (.fenceSc c u sc) noCheck (fenceAct 3 sc) s

/-! Cache control: no fault, and no effect at an address that does not translate or may not be read (11 R249). -/

/-- The line a cache-control word names in a thread: of another device's page, the line of its copy here (17 R381). -/
def cacheLine (e : State) (t a : Nat) : Option Nat :=
  let ea := e.now.vv t (2 * a)
  if ea.toNat / 2 ^ 55 ≠ 0 then none
  else match threadTrans e e.now t ea false with
    | .ok p _ _ => some (lineOf p)
    | _ => none

/-- The line that PREF fetches: of another device's page one under a page lease that holds (17 R382). -/
def prefLine (e : State) (t a : Nat) : Option Nat :=
  match threadTrans e e.now t (e.now.vv t (2 * a)) false with
  | .ok p _ (some _) => if leaseGood e p then cacheLine e t a else none
  | _ => cacheLine e t a

/-- PREF: leased into L1, owned into L1, or into the home slice. -/
def execPref (c u : Bool) (a : BitVec 6) (h : BitVec 2) (s : State) : Host.Outcome State Fault Refusal :=
  runWord (.pref c u a h) noCheck (once u (fun e t _ m => match prefLine e t a.toNat with
    | none => m
    | some ln =>
      let m := touch e m (m.coreOf t) (m.ctxOf t) (e.now.vv t (2 * a.toNat)).toNat false
      let (id, m) := m.fresh
      m.setAccess id { th := t, core := m.coreOf t, ctx := m.ctxOf t, op := .fetch h.toNat, phys := 128 * ln, size := 128
                       clk := (m.core (m.coreOf t)).clk })) s

/-- FLUSH. -/
def execFlush (c u : Bool) (a : BitVec 6) (s : State) : Host.Outcome State Fault Refusal :=
  runWord (.flush c u a) noCheck (once u (fun e t _ m => match cacheLine e t a.toNat with
    | none => m
    | some ln => match m.l1? (m.coreOf t) ln with
      | some l => if l.owned ≠ 0 ∨ l.dirty ≠ 0 then writebackReq e m t ln [] true else m
      | none => m)) s

/-- INVAL: dirty words written back first, with the core's earlier released lines in order. -/
def execInval (c u : Bool) (a : BitVec 6) (s : State) : Host.Outcome State Fault Refusal :=
  runWord (.inval c u a) noCheck (once u (fun e t _ m => match cacheLine e t a.toNat with
    | none => m
    | some ln =>
      let k := m.coreOf t
      let m := if (m.line e ln).owner = some k then recallNow e (quietLine e m ln) ln allWords else m
      m.dropL1 k ln)) s

/-- STASH.MAP's window: first line and length; none where the descriptor is bad (11 R250). -/
def stashWindow (b : Word) (spad : Nat) : Option (Nat × Nat) :=
  let first := fieldNat b.toNat 0 12
  let n := fieldNat b.toNat 16 13
  if fieldNat b.toNat 12 4 ≠ 0 ∨ fieldNat b.toNat 29 3 ≠ 0 ∨ n = 0 ∨ 4096 < n ∨ spad < 128 * (first + n) then none else some (first, n)

/-- STASH.MAP: once for the issue group, with the operands of its lowest active home lane (log entry 32). DESIGN CHOICE (log
entry 141): TRAPINFO2 and TRAPINFO3 of subcode 8 hold the global base, and the write bit is 0. -/
def execStashMap (c u : Bool) (a : BitVec 6) (b : BitVec 7) (s : State) : Host.Outcome State Fault Refusal :=
  let check : Check := fun e t slot =>
    let ea := e.now.vv t (2 * a.toNat)
    if ea.toNat % 128 ≠ 0 then some (memTrap slot causeAlign 0 false 0 ea)
    else if ea.toNat / 2 ^ 55 ≠ 0 then some (memTrap slot causeAccess 1 false 0 ea)
    else if (stashWindow (e.now.v t b.toNat) (e.now.team (e.now.teamOf t)).spad).isNone then some (memTrap slot causeAccess 8 false 0 ea)
    else none
  runWord (.stashMap c u a b) check (once true (fun e l _ m =>
    match stashWindow (e.now.v l b.toNat) (e.now.team (e.now.teamOf l)).spad with
    | none => m
    | some (first, n) =>
      let m := stashDropNow e m l
      m.setTeam (m.teamOf l) { m.team (m.teamOf l) with
        stash := some { first := first, lines := n, base := (e.now.vv l (2 * a.toNat)).toNat } })) s

/-- STASH.WB. -/
def execStashWb (c u : Bool) (s : State) : Host.Outcome State Fault Refusal :=
  runWord (.stashWb c u) noCheck (once true (fun e l _ m => match (m.team (m.teamOf l)).stash with
    | some w => windowBack e m l w false
    | none => m)) s

/-- STASH.DROP. -/
def execStashDrop (c u : Bool) (s : State) : Host.Outcome State Fault Refusal :=
  runWord (.stashDrop c u) noCheck (once true (fun e l _ m => stashDropNow e m l)) s

end Sys2Proof.Machine
end

