-- ==== Sys2Proof/Machine/Plate.lean ====
section
/-! DEFINITION. The press, plates and tiles, majors 0x39 to 0x3B (15 R341 to R351). -/

namespace Sys2Proof.Machine

/-! MX.ISSUE, MX.READY, MX.CANCEL and MX.QUIESCE. -/

/-- The copy of the block at an offset of a team's memory (15 R324). -/
def blockAt (c : Chip) (team off : Nat) : BitVec 512 := BitVec.ofNat 512 (Memory.readN (c.team team).lmem off 64)

/-- The checks of MX.ISSUE in the order of 15 R332; a quad issue waits while a publication is not complete (R330). -/
def issueVerdict (i : Instr) (a : Nat) : Check := fun e t slot =>
  let c := e.now
  let team := c.teamOf t
  let off := (c.v t a).toNat
  let b := blockAt c team off
  let param := fun sub => trapAt slot causeMxParam sub (BitVec.ofNat 32 off) 0
  let plates := blkTargets b ++ blkAPlates b
  if off % 64 ≠ 0 || (c.team team).badRange off 64 then some (param 1)
  else if (c.team team).poisonedAt off 64 then some (memTrap slot causeUncorrectable 3 false 0 (BitVec.ofNat 64 off))
  else if 8 < blkFmtA b ∨ 8 < blkFmtB b ∨ 1 < blkFmtC b ∨ blk b 31 1 ≠ 0 then some (trapAt slot causeFormat 4 0 0)
  else match blkParam c team b with
    | some sub => some (param sub)
    | none => (plates.findSome? (fun n => plateRange c team slot n)).orElse (fun _ =>
        (plates.findSome? (fun n => plateOf c t slot n)).orElse (fun _ =>
          if !blkQuad b then none
          else
            let pubs := quadPubs c team b
            if pubs.length < 4 then some (.wait { kind := .quad, word := i, slot := slot, place := (e.issue.map (·.at_)).getD 0, lead := t }) else joinCheck c slot off b pubs))

/-- MX.ISSUE. -/
def execMxIssue (c : Bool) (d a : BitVec 7) (s : State) : Host.Outcome State Fault Refusal :=
  let i := Instr.mxIssue c d a
  runWord i (issueVerdict i a.toNat) (groupOnce (fun e l takers m =>
    let team := m.teamOf l
    let b := blockAt e.now team (e.now.v l a.toNat).toNat
    let pubs := if blkQuad b then quadPubs m team b else []
    let (id, m) := m.enterPress takers { newEntry e m l .issue with block := b, off := (e.now.v l a.toNat).toNat, pubs := pubs }
    let (h, m) := m.newHandle (m.coreOf l) (.press id)
    let m := match Sparse.find? m.press id with
      | some q => m.setPress id { q with handle := some h }
      | none => m
    let m := { m with pubs := Sparse.mapVals (fun k p => if pubs.contains k then { p with consumed := true } else p) m.pubs }
    takers.foldl (fun m t => m.setReg t d.toNat (handleReg h)) m)) s

/-- MX.READY: the thread joins its group's open publication; where its range is not the one the publication began with, the
publication has a range that no issue matches. -/
def execMxReady (c : Bool) (d : BitVec 7) (a : BitVec 4) (q : BitVec 1) (s : State) : Host.Outcome State Fault Refusal :=
  let n := readyTiles q
  runWord (.mxReady c d a q) noCheck (once false (fun e t takers m =>
    let g := groupOf t
    let (id, p, m) := match m.openPub g with
      | some (id, p) => (id, p, m)
      | none => let (id, m) := m.fresh; (id, ({ group := g, first := a.toNat, count := n, level := (e.now.thread t).level } : Publication), m)
    let (h, m) := m.newHandle (m.coreOf t) (.publication id (laneOf t))
    let regs := fun x => (List.range (8 * n)).map (fun j => e.now.reg x (8 * a.toNat + j))
    let p := { p with
      count := if p.first = a.toNat ∧ p.count = n then n else 0
      lanes := (p.lanes ++ takers.map laneOf).dedup
      tags := takers.foldl (fun x y => Sparse.set x (laneOf y) ((regs y).map (·.tag))) p.tags
      vals := takers.foldl (fun x y => Sparse.set x (laneOf y) ((regs y).map (·.bits))) p.vals
      handles := Sparse.set p.handles h (laneOf t) }
    let m := m.setPub id p
    takers.foldl (fun m x => (m.setReg x d.toNat (handleReg h)).countTile x h) m)) s

/-- MX.CANCEL: every unresolved operation of the group. -/
def execMxCancel (c : Bool) (s : State) : Host.Outcome State Fault Refusal :=
  runWord (.mxCancel c) noCheck (groupOnce (fun _ l _ m =>
    { m with press := Sparse.mapVals (fun _ q =>
        if q.group = groupOf l ∧ q.kind = .issue ∧ q.ended = false then { q with cancel := true } else q) m.press })) s

/-- MX.QUIESCE: not ready until the entries it covers have resolved (`Chip.unquiet`), and nothing more. -/
def execMxQuiesce (c : Bool) (s : State) : Host.Outcome State Fault Refusal :=
  runWord (.mxQuiesce c) noCheck (fun _ _ _ m => m) s

/-! Queued plate instructions. -/

/-- A queued word over plate v(a): what it enters, after the checks of its own. -/
def queuedWord (i : Instr) (a : Nat) (check : Check) (make : State → Chip → Nat → PressEntry) (s : State) : Host.Outcome State Fault Refusal :=
  runWord i (fun e t slot => (check e t slot).orElse (fun _ => plateOf e.now t slot (e.now.v t a).toNat))
    (groupOnce (fun e l takers m => (m.enterPress takers { make e m l with plate := (e.now.v l a).toNat }).2)) s

/-- PL.ZERO. -/
def execPlZero (c : Bool) (a : BitVec 7) (f : BitVec 1) (s : State) : Host.Outcome State Fault Refusal :=
  queuedWord (.plZero c a f) a.toNat noCheck (fun e m l => { newEntry e m l .zero with int := decide (f = 1) }) s

/-- PL.FREE. -/
def execPlFree (c : Bool) (a : BitVec 7) (s : State) : Host.Outcome State Fault Refusal :=
  queuedWord (.plFree c a) a.toNat noCheck (fun e m l => newEntry e m l .free) s

/-- The checks of a plate's address in memory (15 R347). -/
def plateAddress (b : Nat) (write : Bool) : Check := fun e t slot => globalVerdict e t slot (e.now.vv t (2 * b)) 4096 write

/-- The physical address of a transfer, its page's bits set. -/
def platePlace (e : State) (m : Chip) (t : Nat) (ea : BitVec 64) (write : Bool) : Nat × Chip :=
  match threadTrans e m t ea write with
  | .ok p _ _ => (p, touch e m (m.coreOf t) (m.ctxOf t) ea.toNat write)
  | _ => (0, m)

/-- A queued word between a plate and memory. -/
def plateMemory (i : Instr) (kind : PressKind) (a b : Nat) (int write : Bool) (s : State) : Host.Outcome State Fault Refusal :=
  runWord i (fun e t slot => (plateAddress b write e t slot).orElse (fun _ => plateOf e.now t slot (e.now.v t a).toNat))
    (groupOnce (fun e l takers m =>
      let ea := e.now.vv l (2 * b)
      let (p, m) := platePlace e m l ea write
      let m := if write && (m.team (m.teamOf l)).rollback then commitNow e m (m.teamOf l) else m
      (m.enterPress takers { newEntry e m l kind with plate := (e.now.v l a).toNat, int := int, addr := ea.toNat, phys := p }).2)) s

/-- PL.LD. -/
def execPlLd (c : Bool) (f : BitVec 1) (a : BitVec 7) (b : BitVec 6) (s : State) : Host.Outcome State Fault Refusal :=
  plateMemory (.plLd c f a b) .ld a.toNat b.toNat (decide (f = 1)) false s

/-- PL.ST. -/
def execPlSt (c : Bool) (a : BitVec 7) (b : BitVec 6) (s : State) : Host.Outcome State Fault Refusal :=
  plateMemory (.plSt c a b) .st a.toNat b.toNat false true s

/-- PL.SCALE: s is read at issue. -/
def execPlScale (c : Bool) (a b : BitVec 7) (s : State) : Host.Outcome State Fault Refusal :=
  queuedWord (.plScale c a b) a.toNat noCheck (fun e m l => { newEntry e m l .scale with scale := e.now.v l b.toNat }) s

/-! Owner tags and spills (15 R346). -/

/-- PL.CLAIM. -/
def execPlClaim (c : Bool) (a : BitVec 7) (l : BitVec 1) (s : State) : Host.Outcome State Fault Refusal :=
  let lvl : Level := if l = 1 then .supervisor else .user
  let check : Check := fun e t slot =>
    let team := e.now.teamOf t
    let n := (e.now.v t a.toNat).toNat
    (plateRange e.now team slot n).orElse (fun _ =>
      match (e.now.plateOfTeam team n).owner with
      | none => none
      | some o => if o = e.now.tagOf team n lvl then none else some (plateFault e.now team slot 2 n))
  runWord (.plClaim c a l) check (groupOnce (fun e t _ m =>
    let team := m.teamOf t
    let n := (e.now.v t a.toNat).toNat
    match (m.plateOfTeam team n).owner with
    | some _ => m
    | none => m.onPlate team n (fun _ => Plate.fresh (m.tagOf team n lvl) m.stamp))) s

/-- PL.SAVE: another owner's plate goes to that owner's slot. -/
def execPlSave (c : Bool) (a : BitVec 7) (s : State) : Host.Outcome State Fault Refusal :=
  runWord (.plSave c a) (fun e t slot => plateRange e.now (e.now.teamOf t) slot (e.now.v t a.toNat).toNat) (groupOnce (fun e t _ m =>
    let team := m.teamOf t
    let n := (e.now.v t a.toNat).toNat
    match (m.plateOfTeam team n).owner, m.physical team n with
    | some o, some p => if o.team = team ∧ o.entry = n then m else spillPlate e m (m.coreOfTeam team) p
    | _, _ => m)) s

/-- PL.RST: the slot of the level at which the team owns the plate. -/
def execPlRst (c : Bool) (a : BitVec 7) (s : State) : Host.Outcome State Fault Refusal :=
  let own := fun (m : Chip) team n => match (m.plateOfTeam team n).owner with
    | some o => if o.team = team ∧ o.entry = n then some o.level.code else none
    | none => none
  let check : Check := fun e t slot =>
    let team := e.now.teamOf t
    let n := (e.now.v t a.toNat).toNat
    (plateRange e.now team slot n).orElse (fun _ => if (own e.now team n).isNone then some (plateFault e.now team slot 1 n) else none)
  runWord (.plRst c a) check (groupOnce (fun e t _ m =>
    let team := m.teamOf t
    let n := (e.now.v t a.toNat).toNat
    match own m team n with
    | some l => if (m.team team).spilled.contains (spillKey l n) then restorePlate e m team n l else m
    | none => m)) s

/-! PL.RD and PL.WR (15 R347), rows by HOMELANE. -/

/-- The number of element (HOMELANE, col) for a thread. -/
def plateIndex (c : Chip) (t : Nat) (k : BitVec 5) : Nat := 32 * c.laneBit t + k.toNat

/-- PL.RD: a poisoned element is consumed (21 R453, R454). -/
def execPlRd (c : Bool) (d a : BitVec 7) (k : BitVec 5) (s : State) : Host.Outcome State Fault Refusal :=
  runWord (.plRd c d a k) (fun e t slot => plateOf e.now t slot (e.now.v t a.toNat).toNat)
    (fun e _ live m => live.foldl (fun m t =>
      let team := m.teamOf t
      let n := (e.now.v t a.toNat).toNat
      let m := (m.disturb team n).onPlate team n id
      let p := m.plateOfTeam team n
      let j := plateIndex m t k
      let tag := if p.int then tagInt else tagF32
      if p.poison.contains j then
        let (v, m) := m.freeValue
        (m.consume t ((e.issue.map Issue.slot).getD 0) 4 n).writeV t d.toNat (v.setWidth 32) tag
      else m.writeV t d.toNat (Sparse.get 0 p.elems j) tag) m) s

/-- PL.WR. -/
def execPlWr (c : Bool) (d a : BitVec 7) (k : BitVec 5) (s : State) : Host.Outcome State Fault Refusal :=
  runWord (.plWr c d a k) (fun e t slot => plateOf e.now t slot (e.now.v t a.toNat).toNat)
    (fun e _ live m => live.foldl (fun m t =>
      let team := m.teamOf t
      let n := (e.now.v t a.toNat).toNat
      let j := plateIndex m t k
      let m := m.onPlate team n (fun p => { p with wrote := true, elems := Sparse.set p.elems j (e.now.v t d.toNat), poison := p.poison.filter (· != j) })
      m.disturb team n) m) s

/-! Tiles (15 R349 to R351). -/

/-- TLD. -/
def execTld (c : Bool) (d : BitVec 4) (a : BitVec 7) (f : BitVec 3) (s : State) : Host.Outcome State Fault Refusal :=
  runWord (.tld c d a f) (fun e t slot => locVerdict (e.now.team (e.now.teamOf t)) slot (e.now.v t a.toNat).toNat 32 false)
    (once false (fun e t takers m =>
      let team := m.teamOf t
      let off := (e.now.v t a.toNat).toNat
      let (id, m) := localRead e m t takers team off 32 0
        { op := .tile, dest := 8 * d.toNat, count := 8, tag := f.setWidth 4 + 2, result := BitVec.ofNat 256 (m.readLocal team off 32) }
      takers.foldl (fun m x => m.countTile x id) m)) s

/-- TST: performed at commit, and so out of the tiles counter when every earlier entry is. -/
def execTst (c : Bool) (d : BitVec 4) (a : BitVec 7) (s : State) : Host.Outcome State Fault Refusal :=
  runWord (.tst c d a) (fun e t slot => locVerdict (e.now.team (e.now.teamOf t)) slot (e.now.v t a.toNat).toNat 32 true)
    (once false (fun e t takers m =>
      let m := m.writeLocal (m.teamOf t) (e.now.v t a.toNat).toNat 32 (regsValue e.now t (8 * d.toNat) 8)
      let (id, m) := m.fresh
      takers.foldl (fun m x => m.countTile x id) m)) s

/-- One converted plate element (15 R350): the format suffix, mode and saturation. -/
def tileElement (f : BitVec 3) (mode : Mode) (sat int : Bool) (x : Word) : Nat :=
  let v := if int then Val.ofInt x.toInt else f32 x
  if f = 5 then (BitVec.ofInt 8 (toIntClamped mode (-128) 127 v)).toNat
  else if f = 6 then (BitVec.ofInt 8 (toIntClamped mode 0 255 v)).toNat
  else roundTag (f.setWidth 4 + 2) mode sat v

/-- Register j of a tile converted from a plate row (15 R350). -/
def tileWord (p : Plate) (row : Nat) (f : BitVec 3) (mode : Mode) (sat : Bool) (h j : Nat) : Word :=
  let el := fun col => tileElement f mode sat p.int (Sparse.get 0 p.elems (32 * row + col))
  if f = 1 then BitVec.ofNat 32 (el (16 * h + 2 * j) + 2 ^ 16 * el (16 * h + 2 * j + 1))
  else BitVec.ofNat 32 (el (4 * j) + 2 ^ 8 * el (4 * j + 1) + 2 ^ 16 * el (4 * j + 2) + 2 ^ 24 * el (4 * j + 3))

/-- Whether the columns that register j is made of hold poison. -/
def tilePoison (p : Plate) (row : Nat) (f : BitVec 3) (h j : Nat) : Bool :=
  let cols := if f = 1 then [16 * h + 2 * j, 16 * h + 2 * j + 1] else [4 * j, 4 * j + 1, 4 * j + 2, 4 * j + 3]
  cols.any (fun k => p.poison.contains (32 * row + k))

/-- TCVT. -/
def execTcvt (c : Bool) (d : BitVec 4) (a : BitVec 7) (h sc : BitVec 1) (r : BitVec 2) (f : BitVec 3) (s : State) : Host.Outcome State Fault Refusal :=
  runWord (.tcvt c d a h sc r f) (fun e t slot => plateOf e.now t slot (e.now.v t a.toNat).toNat)
    (fun e _ live m => live.foldl (fun m t =>
      let team := m.teamOf t
      let n := (e.now.v t a.toNat).toNat
      let m := (m.disturb team n).onPlate team n id
      let p := m.plateOfTeam team n
      let row := m.laneBit t
      (List.range 8).foldl (fun m j =>
        if tilePoison p row f h.toNat j then
          let (v, m) := m.freeValue
          (m.consume t ((e.issue.map Issue.slot).getD 0) 4 n).writeV t (8 * d.toNat + j) (v.setWidth 32) (f.setWidth 4 + 2)
        else m.writeV t (8 * d.toNat + j) (tileWord p row f (modeOf r) (decide (sc = 1)) h.toNat j) (f.setWidth 4 + 2)) m) m) s

/-- TZERO. -/
def execTzero (c : Bool) (d : BitVec 4) (f : BitVec 3) (s : State) : Host.Outcome State Fault Refusal :=
  runWord (.tzero c d f) noCheck (perThread false (fun _ _ t m =>
    (List.range 8).foldl (fun m j => m.writeV t (8 * d.toNat + j) (if f = 4 then 0x77777777 else 0) (f.setWidth 4 + 2)) m)) s

/-- TTRN (15 R351). -/
def execTtrn (c : Bool) (d a m : BitVec 4) (s : State) : Host.Outcome State Fault Refusal :=
  collective (.ttrn c d a m) m.toNat d.toNat s

end Sys2Proof.Machine
end

