-- ==== Sys2Proof/Machine/Units.lean ====
section
/-! DEFINITION. What firmware does about errors, images and power: the scrubber and the fences of dies (21 R450 to R462), the loading
of stencil images (22 R472 to R474), and the power states of dies (23 R475 to R483). -/

namespace Sys2Proof.Machine

/-! The scrubber (21 R450 to R452). -/

/-- The global address at which a context maps a physical byte of this device or of the host. -/
def globalOf (s : State) (p ctx : Nat) : Option Nat :=
  ((pagesOf s s.now ctx (fun x => decide (Pte.state x ≤ 2))).find? (fun x => decide (x.2 / 65536 = p / 65536))).map (fun x => x.1 + p % 65536)

/-- The context whose page table maps a physical byte, and the global address there (01 R32, 21 R454; log entry 68). -/
def frameOwner (s : State) (p : Nat) : Option Nat × Nat :=
  match Sparse.keysWhere (fun ctx _ => (globalOf s p ctx).isSome) s.now.ctxs with
  | [] => (none, 0)
  | ctx :: _ => (some ctx, (globalOf s p ctx).getD 0)

/-- The error record of an uncorrectable word that the scrubber finds, with the address or index that R454 gives it: a global address, a
team-local offset, or a register, a team-virtual plate or a thread. -/
def scrubRecord (s : State) (c : Chip) (ctx : Option Nat) (sub addr : Nat) : Chip :=
  match ctx with
  | none => c
  | some ctx => errorRecord s c ctx
      { cause := causeUncorrectable, sub := sub, source := 6, addr := recordAddr causeUncorrectable sub addr, i1 := BitVec.ofNat 32 (16 * sub), i2 := BitVec.ofNat 32 addr
        i3 := BitVec.ofNat 32 (addr / 2 ^ 32) }

/-- A 32-byte chunk of memory is poisoned. -/
def poisonChunk (s : State) (chunk sub : Nat) : State :=
  { s with board := { s.board with poisoned := (List.range 8).foldl (fun p i => Sparse.set p (8 * chunk + i) sub) s.board.poisoned } }

/-- An uncorrectable word found in an array, a row of R450, at an index of that array: a register by 128 × thread + register, a word
of local store by 2¹⁷ × team + word, an element of a plate by 1,024 × (384 × core + plate) + element, the state of a thread, an L1 word by
160 × word + core, an L2 word by its physical word number, a chunk of memory (log entry 68). A clean copy is dropped and fetched
again; the directory's entries belong to no context. -/
def scrubBad (s : State) (array index : Nat) : State :=
  let c := s.now
  match array with
  | 0 =>
    let t := index / 128
    let r := index % 128
    if c.active t then
      let c := c.setThread t { c.thread t with regs := Sparse.set (c.thread t).regs r { c.reg t r with poison := some 2 } }
      { s with now := scrubRecord s c (some (c.ctxOf t)) 2 r }
    else s
  | 1 =>
    let team := index / 131072
    let w := index % 131072
    let k := c.team team
    if k.live && decide (4 * w < k.spad) then
      { s with now := scrubRecord s (c.setTeam team { k with lpoison := (w :: k.lpoison).dedup }) (some k.ctx) 3 (4 * w) }
    else s
  | 2 =>
    let core := index / 1024 / Config.plates
    let p := index / 1024 % Config.plates
    let x := c.plate core p
    match x.owner with
    | some o => { s with now := scrubRecord s (c.setPlate core p { x with poison := (index % 1024 :: x.poison).dedup }) (some o.ctx) 4 o.entry }
    | none => s
  | 3 =>
    if c.active index && (c.thread index).due.isNone then
      let c := c.setThread index { c.thread index with due := some { subcode := 10, addr := c.tidOf index } }
      { s with now := scrubRecord s c (some (c.ctxOf index)) 10 (c.tidOf index) }
    else s
  | 5 =>
    let k := index % Config.cores
    let w := index / Config.cores
    match c.l1? k (w / 32) with
    | some l =>
      if (l.owned ||| l.dirty).getLsbD (w % 32) then
        { s with now := scrubRecord s (c.setL1 k (w / 32) { l with poison := l.poison ||| BitVec.ofNat 32 (2 ^ (w % 32)) }) (some l.ctx) 5 ((globalOf s (4 * w) l.ctx).getD 0) }
      else s
    | none => s
  | 6 =>
    match Sparse.find? c.home (index / 32) with
    | some h =>
      if h.dirty.getLsbD (index % 32) then
        let c := c.setLine (index / 32) { h with poison := h.poison ||| BitVec.ofNat 32 (2 ^ (index % 32)) }
        { s with now := scrubRecord s c (frameOwner s (4 * index)).1 6 (frameOwner s (4 * index)).2 }
      else s
    | none => s
  | 8 =>
    if isHbm (32 * index) then
      { poisonChunk s index 7 with now := scrubRecord s c (frameOwner s (32 * index)).1 7 (frameOwner s (32 * index)).2 }
    else s
  | 9 =>
    if (barnOfPhys (32 * index)).isSome then
      { poisonChunk s index 8 with now := scrubRecord s c (frameOwner s (32 * index)).1 8 (frameOwner s (32 * index)).2 }
    else s
  | _ => s

/-! Fences of field dies (21 R461). -/

/-- The cores of a field die. -/
def coresOfDie (d : Nat) : List Nat := (List.range Config.coresPerDie).map (fun i => Config.coresPerDie * d + i)

/-- The contexts that span a die: a team, a plate's owner tag or an owned L1 line of theirs lies there. -/
def Chip.spanning (c : Chip) (d : Nat) : List Nat :=
  let here := fun (k : Nat) => decide (k / Config.coresPerDie = d)
  (Sparse.keysWhere (fun ctx _ =>
    c.teams.any (fun p => decide (p.2.ctx = ctx) && (match p.2.core with | some k => here k | none => false)) ||
    c.cores.any (fun k => here k.1 &&
      (k.2.plates.any (fun p => match p.2.owner with | some o => decide (o.ctx = ctx) | none => false) ||
        k.2.l1.any (fun l => decide (l.2.ctx = ctx) && decide (l.2.owned ≠ 0))))) c.ctxs)

/-- The L1s of a die go: what they owned returns to its home, the dirty words poisoned. -/
def Chip.loseL1s (c : Chip) (d : Nat) : Chip :=
  let ks := coresOfDie d
  let home := Sparse.mapVals (fun ln (h : HomeLine) => match h.owner with
    | some k =>
      if ks.contains k then { h with
        owner := none, owned := 0, state := .shared
        poison := h.poison ||| (((c.l1? k ln).getD {}).dirty &&& h.owned) }
      else h
    | none => h) c.home
  { c with home := home, cores := Sparse.mapVals (fun k (x : Core) => if ks.contains k then { x with l1 := [], release := [], tlb := [] } else x) c.cores }

/-- A field die is fenced: every context that spans it is killed, and what it holds is lost. -/
def fenceDie (s : State) (d : Nat) : State :=
  if 3 < d ∨ (s.now.die d).state = .fenced then s
  else
    let c := (s.now.spanning d).foldl (fun c ctx => kill s c ctx causeUncorrectable { cause := causeUncorrectable, sub := 11, source := 7 }) s.now
    let c := c.loseL1s d
    { s with now := c.setDie d { c.die d with state := .fenced, target := none, unpark := false, banks := [], fencing := false } }

/-- A condition that fences a die: with error triage host-assisted the fence waits for the host (23 R482). -/
def fenceOrWait (s : State) (d : Nat) : State :=
  if 3 < d ∨ (s.now.die d).state = .fenced then s
  else if s.board.split.getLsbD 4 then { s with now := s.now.setDie d { s.now.die d with fencing := true } }
  else fenceDie s d

/-- DIE_FENCE. -/
def execDieFence (die : Nat) (s : State) : Host.Outcome State Fault Refusal := eventS (fun s => fenceOrWait s die) s

/-- HEARTBEAT_LOSS. -/
def execHeartbeatLoss (die : Nat) (s : State) : Host.Outcome State Fault Refusal := eventS (fun s => fenceOrWait s die) s

/-- TRIAGE_TIMEOUT: a fence that has waited for the host proceeds. -/
def execTriageTimeout (die : Nat) (s : State) : Host.Outcome State Fault Refusal :=
  eventS (fun s => if (s.now.die die).fencing then fenceDie s die else s) s

/-- SCRUB: a corrected word is counted and changes nothing else. -/
def execScrub (array index : Nat) (bad : Bool) (s : State) : Host.Outcome State Fault Refusal :=
  eventS (fun s =>
    if bad then (if array = 7 then fenceOrWait s index else scrubBad s array index)
    else if 10 ≤ array ∨ array = 4 then s
    else { s with board := { s.board with corrected := Sparse.set s.board.corrected array (min (2 ^ 64 - 1) (Sparse.get 0 s.board.corrected array + 1)) } }) s

/-! Fences of barn dies (21 R462). -/

/-- The safe state: every context killed, every field die fenced. -/
def enterSafe (s : State) : State :=
  let s := (Sparse.keysWhere (fun _ _ => true) s.now.ctxs).foldl (fun s ctx =>
    { s with now := kill s s.now ctx causeUncorrectable { cause := causeUncorrectable, sub := 11, source := 7 } }) s
  let s := (List.range 4).foldl fenceDie s
  { s with board := { s.board with safe := true } }

/-- A migration that a fenced barn die held: the page returns to its source state where its source frame is reachable, else it is
poisoned; what waits for the page fails (17 R490). -/
def stopMigration (s : State) (c : Chip) (m : Migration) : Chip :=
  let x := peek s c m.entryAt 8
  let st := if lostHome s c m.source then 6 else m.fromState
  let c := agentWrite s c none m.entryAt 8 (Pte.withState x st)
  let c := { c with migrations := c.migrations.filter (· != m) }
  let c := match m.ring with
    | some n => completeRecord s c m.ctx n (recordWord (if m.toNear then 0 else 1) 0 0 2)
    | none => c
  c.resolvePage m.ctx m.va serviceFailed

/-- A context's streaming checkpoint fails. Which etcher slice streams it is not stated: a free value says whether it is this one
(log entry 2). -/
def failStream (s : State) (c : Chip) (ctx : Nat) : Chip :=
  let x := c.ctx ctx
  match List.find? (fun (p : Nat × Ckpt) => decide (p.2.state = .streaming)) x.ckpts with
  | none => c
  | some (seq, k) =>
    let (v, c) := c.freeValue
    if v.getLsbD 0 then
      c.setCtx ctx (dropCow s c ctx (k.pages.drop k.streamed) { x with ckpts := Sparse.set x.ckpts seq { k with state := .failed, blocks := [], pages := [] } })
    else c

/-- The scale-up ports of a barn die (log entry 67). -/
def barnPorts (b : Nat) : List Nat := (List.range 8).map (fun i => 8 * b + i)

/-- A barn die is fenced. The standbys on barn die 1 run the reeve and the steward as barn die 0 did; a second fence ends in the safe
state. -/
def fenceBarn (s : State) (b : Nat) : State :=
  if 1 < b ∨ s.board.barnFenced.contains b then s
  else
    let second := !s.board.barnFenced.isEmpty
    let s := { s with board := { s.board with barnFenced := b :: s.board.barnFenced } }
    let s := (barnPorts b).foldl (fun s i => { s with board := s.board.fencePort i }) s
    let s := if b = 0 then s.setPort 16 { s.board.port 16 with state := .down, lanes := 0 } else s
    if second then enterSafe s
    else
      let c := (Sparse.keysWhere (fun _ _ => true) s.now.ctxs).foldl (failStream s) s.now
      { s with now := (c.migrations.filter (fun m => decide (m.barn = b))).foldl (stopMigration s) c }

/-- BARN_DIE_FENCE. -/
def execBarnDieFence (barn : Nat) (s : State) : Host.Outcome State Fault Refusal := eventS (fun s => fenceBarn s barn) s

/-- STANDBY_FAILURE: a standby is in use once barn die 0 is fenced. -/
def execStandbyFailure (s : State) : Host.Outcome State Fault Refusal :=
  eventS (fun s => if s.board.barnFenced.contains 0 && !s.board.safe then enterSafe s else s) s

/-! Stencil images (22 R472 to R474). -/

/-- The slot an image's header describes, loaded. -/
def imageSlot (s : State) (p : Nat) : Slot :=
  let f := imageField s p
  { state := .loaded, image := p, patchid := f 6 2, action := f 9 1, prio := f 0xA 1, levels := BitVec.ofNat 2 (f 0xB 1), cause := f 0xC 1, nrep := f 0xD 1
    mask := BitVec.ofNat 32 (f 0x10 4), value := BitVec.ofNat 32 (f 0x14 4)
    rep := (List.range 3).map (fun j => BitVec.ofNat 32 (f (0x18 + 4 * j) 4)), merge := (List.range 3).map (fun j => BitVec.ofNat 32 (f (0x24 + 4 * j) 4))
    entry := f 0x30 4, code := physBytes s s.now (p + 128) (f 0x34 4) }

/-- The key that an image names, where there is one. -/
def imageKey (s : State) (idx : Nat) : Option (BitVec 256) := if idx = 0 then some Config.vendorKey else Sparse.find? s.board.keys idx

/-- A field outside its range, or a field that must be zero and is not. -/
def imageBad (s : State) (p : Nat) : Bool :=
  let f := imageField s p
  let emulate := decide (f 9 1 = 3)
  let nrep := f 0xD 1
  decide (4 < f 8 1) || decide (f 9 1 = 0) || decide (3 < f 9 1) || decide (15 < f 0xA 1) || decide (f 0xB 1 = 0) || decide (3 < f 0xB 1) ||
    !(decide (f 0xC 1 = 0) || nameable (f 0xC 1)) ||
    (if f 9 1 = 2 then decide (nrep = 0) || decide (3 < nrep) else decide (nrep ≠ 0)) ||
    decide (f 0xE 2 ≠ 0) || decide (BitVec.ofNat 32 (f 0x14 4) &&& ~~~BitVec.ofNat 32 (f 0x10 4) ≠ 0) ||
    (List.range 3).any (fun j => decide (nrep ≤ j) && (decide (f (0x18 + 4 * j) 4 ≠ 0) || decide (f (0x24 + 4 * j) 4 ≠ 0))) ||
    (if emulate then decide (f 0x30 4 % 12 ≠ 0) || decide (f 0x34 4 ≤ f 0x30 4) || decide (f 0x34 4 % 12 ≠ 0) || decide (65532 < f 0x34 4)
      else decide (f 0x30 4 ≠ 0) || decide (f 0x34 4 ≠ 0)) ||
    decide (f 0x40 64 ≠ 0)

/-- What the checks of a load find: they wait for the host, fail with a reason, or pass. -/
inductive LoadCheck where
  | waits
  | fails (reason : Nat)
  | passes

/-- The signature of an image, or the host's verdict in its place. A key that is not enrolled is found by the next check. -/
def checkSignature (s : State) (x : Slot) (verdict : Option Bool) : LoadCheck :=
  let f := imageField s x.image
  if x.assisted then (match verdict with | none => .waits | some ok => if ok then .passes else .fails 3)
  else match imageKey s (f 8 1) with
    | none => .passes
    | some k =>
      if signatureOk k (physBytes s s.now x.image (128 + f 0x34 4)) (physBytes s s.now (x.image + 128 + f 0x34 4) 64) then .passes else .fails 3

/-- The checks of a load in their order. -/
def checkLoad (s : State) (slot : Nat) (x : Slot) (verdict : Option Bool) : LoadCheck :=
  let p := x.image
  let f := imageField s p
  let len := 128 + f 0x34 4 + 64
  let key := f 8 1
  if decide (p % 128 ≠ 0) || !readable s p 128 then .fails 1
  else if f 0 4 ≠ 0x4C494E53 ∨ f 4 2 ≠ 1 ∨ f 0x38 8 ≠ len then .fails 2
  else if !readable s p len then .fails 1
  else match checkSignature s x verdict with
    | .waits => .waits
    | .fails r => .fails r
    | .passes =>
      if (key = 0 ∧ 8 ≤ slot) ∨ (1 ≤ key ∧ key ≤ 4 ∧ (slot < 8 ∨ imageKey s key = none)) then .fails 4
      else if imageBad s p then .fails 5
      else if x.legal = false then .fails 6
      else .passes

/-- The end of a load: the image copied, or the slot failed and its records written. -/
def finishLoad (s : State) (slot : Nat) (verdict : Option Bool) : State :=
  let x := s.now.slot slot
  if x.state ≠ .loading then s
  else match checkLoad s slot x verdict with
    | .waits => s
    | .passes => { s with now := s.now.setSlot slot (imageSlot s x.image) }
    | .fails r =>
      { s with now := loadRecords s (s.now.setSlot slot { state := .failed, reason := r, image := x.image }) slot r (imagePatchid s x.image) }

/-- PATCH_LOAD_COMPLETE; in host-assisted mode the load waits for the verdict. -/
def execPatchLoadComplete (slot : Nat) (s : State) : Host.Outcome State Fault Refusal :=
  eventS (fun s => finishLoad s slot (s.now.slot slot).verdict) s

/-- VERIFY_TIMEOUT. -/
def execVerifyTimeout (slot : Nat) (s : State) : Host.Outcome State Fault Refusal :=
  eventS (fun s => if (s.now.slot slot).assisted && (s.now.slot slot).verdict.isNone then finishLoad s slot (some false) else s) s

/-- The chains decoded ahead in every pen are discarded. -/
def Chip.discardAll (c : Chip) : Chip :=
  { c with crofts := Sparse.mapVals (fun _ (f : Croft) => { f with pens := Sparse.mapVals (fun _ (p : Pen) => { p with code := none }) f.pens }) c.crofts }

/-- PATCH_ARM_COMPLETE. -/
def execPatchArmComplete (slot : Nat) (s : State) : Host.Outcome State Fault Refusal :=
  event (fun e =>
    let x := e.now.slot slot
    if x.state = .loaded ∧ x.arming then (e.now.setSlot slot { x with state := .armed, arming := false }).discardAll else e.now) s

/-- A slot that drains is still in use: a thread in its routine, or a chain it has rewritten that has not issued. -/
def Chip.slotBusy (c : Chip) (slot : Nat) : Bool :=
  c.threads.any (fun p => (decide (p.2.level = .firmware) && decide (fieldNat p.2.emu.ctl.toNat 4 4 = slot)) || (match p.2.patched with | some q => decide (q.1 = slot) | none => false)) ||
    c.crofts.any (fun f => f.2.pens.any (fun p => match p.2.code with | some x => x.rewrittenBy.contains slot | none => false))

/-- DRAIN_COMPLETE. -/
def execDrainComplete (slot : Nat) (s : State) : Host.Outcome State Fault Refusal :=
  event (fun e =>
    let x := e.now.slot slot
    if x.state = .draining ∧ e.now.slotBusy slot = false then e.now.setSlot slot { x with state := .loaded } else e.now) s

/-! Power (23 R475 to R483). -/

/-- REEVE_SHARE: shares in units of 1/1024 of the ceiling, a parked or fenced die's its floor; the average never lies above the
ceiling it was shared under. -/
def execReeveShare (avg : BitVec 11) (share0 share1 share2 share3 : Nat) (s : State) : Host.Outcome State Fault Refusal :=
  eventS (fun s =>
    let share := fun (d n : Nat) => if (s.now.die d).state = .parked ∨ (s.now.die d).state = .fenced then Config.dieFloor else n
    let l := [share 0 share0, share 1 share1, share 2 share2, share 3 share3]
    if 1024 < l.sum ∨ s.board.ceiling < avg.toNat then s
    else
      let c := (List.range 4).foldl (fun (c : Chip) d => c.setDie d { c.die d with share := l.getD d 0 }) s.now
      { s with now := c, board := { s.board with avg := avg, ceiling := s.board.watts } }) s

/-- PSTATE_TRANSITION. -/
def execPstateTransition (die : Nat) (s : State) : Host.Outcome State Fault Refusal :=
  event (fun e => match (e.now.die die).target with
    | none => e.now
    | some p => e.now.setDie die { e.now.die die with pstate := p, target := none }) s

/-- The L1s of a parking die are emptied, every owned word going to its home. -/
def emptyL1s (e : State) (c : Chip) (d : Nat) : Chip :=
  (coresOfDie d).foldl (fun c k =>
    let c := drainNow e c k
    let c := (Sparse.keysWhere (fun _ (l : L1Line) => decide (l.owned ≠ 0)) (c.core k).l1).foldl (fun c ln => recallNow e c ln allWords) c
    if (c.core k).l1.isEmpty then c else c.setCore k { c.core k with l1 := [] }) c

/-- Every plate of a die that carries an owner tag is spilled. -/
def spillDie (e : State) (c : Chip) (d : Nat) : Chip :=
  (coresOfDie d).foldl (fun c k =>
    (Sparse.keysWhere (fun _ (p : Plate) => p.owner.isSome) (c.core k).plates).foldl (fun c p => spillPlate e c k p) c) c

/-- The lines homed on a die are written back to its HBM; tags and times stay (12 R275). -/
def cleanDie (s : State) (d : Nat) : State :=
  (Sparse.keysWhere (fun ln (h : HomeLine) => decide (dieOfPhys (128 * ln) = some d) && decide (h.dirty ≠ 0)) s.now.home).foldl cleanLine s

/-- PARK_COMPLETE; a die whose unpark waits wakes at once. -/
def execParkComplete (die : Nat) (s : State) : Host.Outcome State Fault Refusal :=
  eventS (fun s =>
    if (s.now.die die).state ≠ .parking then s
    else
      let s := cleanDie { s with now := spillDie s (emptyL1s s s.now die) die } die
      let c := s.now.setDie die { s.now.die die with state := .parked }
      { s with now := if (c.die die).unpark then c.wake die else c }) s

/-- BANK_READY. -/
def execBankReady (die bank : Nat) (s : State) : Host.Outcome State Fault Refusal :=
  event (fun e =>
    if (e.now.die die).state = .waking then e.now.setDie die { e.now.die die with banks := (e.now.die die).banks.filter (· != bank) } else e.now) s

/-- WAKE_COMPLETE: the arrays hold zeros and every plate's owner tag is invalid. -/
def execWakeComplete (die : Nat) (s : State) : Host.Outcome State Fault Refusal :=
  event (fun e =>
    let c := e.now
    let x := c.die die
    if x.state ≠ .waking ∨ x.banks ≠ [] then c
    else
      let ks := coresOfDie die
      let c := { c with cores := Sparse.mapVals (fun k (y : Core) => if ks.contains k then { y with l1 := [], plates := [] } else y) c.cores }
      c.setDie die { x with state := .running }) s

/-- POWER_ON_SELF_TEST: a reset, and the test. The keys are kept (22 R492), the bytes of memory stand as they are (log entry 69); a test that fails
ends in the safe state, the host port up at x4 or wider. -/
def execPowerOnSelfTest (failed : BitVec 32) (hostLanes : Nat) (s : State) : Host.Outcome State Fault Refusal :=
  eventS (fun s =>
    let lanes := if hostLanes = 8 ∨ hostLanes = 16 then hostLanes else 4
    let now : Chip := { nextId := s.now.nextId, stamp := s.now.stamp, free := s.now.free }
    let board : Board := { keys := s.board.keys, hostLanes := lanes }
    let t : State := { s with now := now, base := none, board := board, shadows := [], marks := [] }
    if failed = 0 then t
    else
      let port : Port := { state := if lanes = 16 then .up else .degraded, lanes := lanes }
      let t := t.setPort 16 port
      { t with
        now := (List.range 4).foldl (fun (c : Chip) d => c.setDie d { c.die d with state := .fenced }) t.now
        board := { t.board with safe := true, failedUnits := failed } }) s

end Sys2Proof.Machine
end

