-- ==== Sys2Proof/Machine/Dispatch.lean ====
section
/-! DEFINITION. One arm for each constructor of Instr: a direct call of its meaning. -/

namespace Sys2Proof.Machine

/-- Executing one instruction word in the open issue, or letting one event happen. -/
def exec (i : Instr) (s : State) : Host.Outcome State Fault Refusal :=
  match i with
  | .issueGroup croft => Sys2Proof.Machine.execIssueGroup croft s
  | .penStarved croft pen => Sys2Proof.Machine.execPenStarved croft pen s
  | .pauseExpiry th => Sys2Proof.Machine.execPauseExpiry th s
  | .yieldEnd th => Sys2Proof.Machine.execYieldEnd th s
  | .tick => Sys2Proof.Machine.execTick s
  | .rebaseSweep => Sys2Proof.Machine.execRebaseSweep s
  | .rebaseSweepComplete => Sys2Proof.Machine.execRebaseSweepComplete s
  | .loadDataReturn acc => Sys2Proof.Machine.execLoadDataReturn acc s
  | .renewRequest acc => Sys2Proof.Machine.execRenewRequest acc s
  | .renewReply acc => Sys2Proof.Machine.execRenewReply acc s
  | .homeStore acc => Sys2Proof.Machine.execHomeStore acc s
  | .ownedRequest acc => Sys2Proof.Machine.execOwnedRequest acc s
  | .homeAtomic acc => Sys2Proof.Machine.execHomeAtomic acc s
  | .recallLine line => Sys2Proof.Machine.execRecall line s
  | .persistentRequest slice => Sys2Proof.Machine.execPersistentRequest slice s
  | .sliceEviction line => Sys2Proof.Machine.execSliceEviction line s
  | .hostMemAccess op addr size data cache => Sys2Proof.Machine.execHostMemAccess op addr size data cache s
  | .backInvalidationResponse line => Sys2Proof.Machine.execBackInvalidationResponse line s
  | .hostSnoop line inval => Sys2Proof.Machine.execHostSnoop line inval s
  | .surveyorWalk core ctx va => Sys2Proof.Machine.execSurveyorWalk core ctx va s
  | .holdLimitExpiry th => Sys2Proof.Machine.execHoldLimitExpiry th s
  | .pageFaultService ctx va => Sys2Proof.Machine.execPageFaultService ctx va s
  | .droverCommand ctx => Sys2Proof.Machine.execDroverCommand ctx s
  | .migration ctx va => Sys2Proof.Machine.execMigration ctx va s
  | .migrationComplete ctx va => Sys2Proof.Machine.execMigrationComplete ctx va s
  | .farPagePromotion ctx va => Sys2Proof.Machine.execFarPagePromotion ctx va s
  | .pageLeaseEnd page => Sys2Proof.Machine.execPageLeaseEnd page s
  | .timeSyncSend => Sys2Proof.Machine.execTimeSyncSend s
  | .timeSyncReceive dtick delay => Sys2Proof.Machine.execTimeSyncReceive dtick delay s
  | .syncLossTimeout => Sys2Proof.Machine.execSyncLossTimeout s
  | .flitReceive port header payload good => Sys2Proof.Machine.execFlitReceive port header payload good s
  | .flitReplay port => Sys2Proof.Machine.execFlitReplay port s
  | .trainingSuccess port lanes => Sys2Proof.Machine.execTrainingSuccess port lanes s
  | .trainingTimeout port => Sys2Proof.Machine.execTrainingTimeout port s
  | .trainingRetry port => Sys2Proof.Machine.execTrainingRetry port s
  | .linkRetrain port => Sys2Proof.Machine.execLinkRetrain port s
  | .routeFailure req => Sys2Proof.Machine.execRouteFailure req s
  | .stewardTake ctx qix => Sys2Proof.Machine.execStewardTake ctx qix s
  | .queueEnableChange ctx qix => Sys2Proof.Machine.execQueueEnableChange ctx qix s
  | .dependencesMet launch => Sys2Proof.Machine.execDependencesMet launch s
  | .clusterPlacement => Sys2Proof.Machine.execClusterPlacement s
  | .teamRetirement team => Sys2Proof.Machine.execTeamRetirement team s
  | .binTimerExpiry core bin => Sys2Proof.Machine.execBinTimerExpiry core bin s
  | .binLaunch core bin croft => Sys2Proof.Machine.execBinLaunch core bin croft s
  | .barrierTimeout th => Sys2Proof.Machine.execBarrierTimeout th s
  | .waitLimitExpiry th => Sys2Proof.Machine.execWaitLimitExpiry th s
  | .watchFire th => Sys2Proof.Machine.execWatchFire th s
  | .carterTransferUnit unit => Sys2Proof.Machine.execCarterTransferUnit unit s
  | .copyElement batch elem => Sys2Proof.Machine.execCopyElement batch elem s
  | .batchResolve batch => Sys2Proof.Machine.execBatchResolve batch s
  | .remapWrite batch elem => Sys2Proof.Machine.execRemapWrite batch elem s
  | .remapTimeout team => Sys2Proof.Machine.execRemapTimeout team s
  | .remoteAtomicReply acc data => Sys2Proof.Machine.execRemoteAtomicReply acc data s
  | .ecallAnswer acc answer => Sys2Proof.Machine.execEcallAnswer acc answer s
  | .pressTileStep core blocks => Sys2Proof.Machine.execPressTileStep core blocks s
  | .pressEntryResolve entry => Sys2Proof.Machine.execPressEntryResolve entry s
  | .quadJoin th => Sys2Proof.Machine.execQuadJoin th s
  | .ploughElementRead group stream => Sys2Proof.Machine.execPloughElementRead group stream s
  | .contextQuiescent ctx => Sys2Proof.Machine.execContextQuiescent ctx s
  | .saveComplete ctx => Sys2Proof.Machine.execSaveComplete ctx s
  | .preemptReport ctx => Sys2Proof.Machine.execPreemptReport ctx s
  | .moveTransferDone ctx ok => Sys2Proof.Machine.execMoveTransferDone ctx ok s
  | .automaticMark ctx => Sys2Proof.Machine.execAutomaticMark ctx s
  | .markStagingComplete ctx => Sys2Proof.Machine.execMarkStagingComplete ctx s
  | .checkpointStream ctx => Sys2Proof.Machine.execCheckpointStream ctx s
  | .checkpointComplete ctx => Sys2Proof.Machine.execCheckpointComplete ctx s
  | .copyOnWriteRelease ctx va => Sys2Proof.Machine.execCopyOnWriteRelease ctx va s
  | .scrub array index bad => Sys2Proof.Machine.execScrub array index bad s
  | .uncorrectable th => Sys2Proof.Machine.execUncorrectable th s
  | .committedEarly team => Sys2Proof.Machine.execCommittedEarly team s
  | .rollback team => Sys2Proof.Machine.execRollback team s
  | .heartbeatLoss die => Sys2Proof.Machine.execHeartbeatLoss die s
  | .dieFence die => Sys2Proof.Machine.execDieFence die s
  | .barnDieFence barn => Sys2Proof.Machine.execBarnDieFence barn s
  | .reeveShare avg share0 share1 share2 share3 => Sys2Proof.Machine.execReeveShare avg share0 share1 share2 share3 s
  | .pstateTransition die => Sys2Proof.Machine.execPstateTransition die s
  | .parkComplete die => Sys2Proof.Machine.execParkComplete die s
  | .wakeComplete die => Sys2Proof.Machine.execWakeComplete die s
  | .bankReady die bank => Sys2Proof.Machine.execBankReady die bank s
  | .powerOnSelfTest failed hostLanes => Sys2Proof.Machine.execPowerOnSelfTest failed hostLanes s
  | .patchLoadComplete slot => Sys2Proof.Machine.execPatchLoadComplete slot s
  | .patchArmComplete slot => Sys2Proof.Machine.execPatchArmComplete slot s
  | .drainComplete slot => Sys2Proof.Machine.execDrainComplete slot s
  | .registerWrite offset value => Sys2Proof.Machine.execRegisterWrite offset value s
  | .pwrceilWrite value => Sys2Proof.Machine.execPwrceilWrite value s
  | .splitWrite value => Sys2Proof.Machine.execSplitWrite value s
  | .discovery => Sys2Proof.Machine.execDiscovery s
  | .selfTestReport => Sys2Proof.Machine.execSelfTestReport s
  | .memoryReport => Sys2Proof.Machine.execMemoryReport s
  | .stopCommand => Sys2Proof.Machine.execStopCommand s
  | .saveCommand => Sys2Proof.Machine.execSaveCommand s
  | .resumeCommand => Sys2Proof.Machine.execResumeCommand s
  | .preEmptCommand => Sys2Proof.Machine.execPreEmptCommand s
  | .move => Sys2Proof.Machine.execMove s
  | .kill => Sys2Proof.Machine.execKill s
  | .release => Sys2Proof.Machine.execRelease s
  | .contextStatus => Sys2Proof.Machine.execContextStatus s
  | .createContext => Sys2Proof.Machine.execCreateContext s
  | .loadCodeObject => Sys2Proof.Machine.execLoadCodeObject s
  | .setAllowedCoreSet => Sys2Proof.Machine.execSetAllowedCoreSet s
  | .writeAContextControlWord => Sys2Proof.Machine.execWriteAContextControlWord s
  | .verifyStencilImage => Sys2Proof.Machine.execVerifyStencilImage s
  | .enrolOperatorKey => Sys2Proof.Machine.execEnrolOperatorKey s
  | .keyStatus => Sys2Proof.Machine.execKeyStatus s
  | .portStatus => Sys2Proof.Machine.execPortStatus s
  | .fenceScaleUpPort => Sys2Proof.Machine.execFenceScaleUpPort s
  | .unfenceScaleUpPort => Sys2Proof.Machine.execUnfenceScaleUpPort s
  | .domainConfiguration => Sys2Proof.Machine.execDomainConfiguration s
  | .iadd c u d a b => Sys2Proof.Machine.execIadd c u d a b s
  | .isub c u d a b => Sys2Proof.Machine.execIsub c u d a b s
  | .iminS32 c u d a b => Sys2Proof.Machine.execIminS32 c u d a b s
  | .imaxS32 c u d a b => Sys2Proof.Machine.execImaxS32 c u d a b s
  | .iminN32 c u d a b => Sys2Proof.Machine.execIminN32 c u d a b s
  | .imaxN32 c u d a b => Sys2Proof.Machine.execImaxN32 c u d a b s
  | .iabsd c u d a b => Sys2Proof.Machine.execIabsd c u d a b s
  | .ineg c u d a => Sys2Proof.Machine.execIneg c u d a s
  | .imul c u d a b => Sys2Proof.Machine.execImul c u d a b s
  | .imulhS32 c u d a b => Sys2Proof.Machine.execImulhS32 c u d a b s
  | .imulhN32 c u d a b => Sys2Proof.Machine.execImulhN32 c u d a b s
  | .imad c u d a b => Sys2Proof.Machine.execImad c u d a b s
  | .idivS32 c u d a b => Sys2Proof.Machine.execIdivS32 c u d a b s
  | .idivN32 c u d a b => Sys2Proof.Machine.execIdivN32 c u d a b s
  | .iremS32 c u d a b => Sys2Proof.Machine.execIremS32 c u d a b s
  | .iremN32 c u d a b => Sys2Proof.Machine.execIremN32 c u d a b s
  | .iaddD c u d a b => Sys2Proof.Machine.execIaddD c u d a b s
  | .isubD c u d a b => Sys2Proof.Machine.execIsubD c u d a b s
  | .imulD c u d a b => Sys2Proof.Machine.execImulD c u d a b s
  | .imadwS32 c u d a b => Sys2Proof.Machine.execImadwS32 c u d a b s
  | .imadwN32 c u d a b => Sys2Proof.Machine.execImadwN32 c u d a b s
  | .shlD c u d a b => Sys2Proof.Machine.execShlD c u d a b s
  | .shrD c u d a b => Sys2Proof.Machine.execShrD c u d a b s
  | .sarD c u d a b => Sys2Proof.Machine.execSarD c u d a b s
  | .and c u d a b => Sys2Proof.Machine.execAnd c u d a b s
  | .or c u d a b => Sys2Proof.Machine.execOr c u d a b s
  | .xor c u d a b => Sys2Proof.Machine.execXor c u d a b s
  | .andn c u d a b => Sys2Proof.Machine.execAndn c u d a b s
  | .orn c u d a b => Sys2Proof.Machine.execOrn c u d a b s
  | .xnor c u d a b => Sys2Proof.Machine.execXnor c u d a b s
  | .not c u d a => Sys2Proof.Machine.execNot c u d a s
  | .mov c u d a => Sys2Proof.Machine.execMov c u d a s
  | .shl c u d a b => Sys2Proof.Machine.execShl c u d a b s
  | .shr c u d a b => Sys2Proof.Machine.execShr c u d a b s
  | .sar c u d a b => Sys2Proof.Machine.execSar c u d a b s
  | .rotl c u d a b => Sys2Proof.Machine.execRotl c u d a b s
  | .popc c u d a => Sys2Proof.Machine.execPopc c u d a s
  | .clz c u d a => Sys2Proof.Machine.execClz c u d a s
  | .brev c u d a => Sys2Proof.Machine.execBrev c u d a s
  | .ffs c u d a => Sys2Proof.Machine.execFfs c u d a s
  | .bfxS32 c u d a b => Sys2Proof.Machine.execBfxS32 c u d a b s
  | .bfxN32 c u d a b => Sys2Proof.Machine.execBfxN32 c u d a b s
  | .bfi c u d a b => Sys2Proof.Machine.execBfi c u d a b s
  | .perm c u d a b => Sys2Proof.Machine.execPerm c u d a b s
  | .shf c u d a b => Sys2Proof.Machine.execShf c u d a b s
  | .iaddsS32 c u d a b => Sys2Proof.Machine.execIaddsS32 c u d a b s
  | .isubsS32 c u d a b => Sys2Proof.Machine.execIsubsS32 c u d a b s
  | .iaddsN32 c u d a b => Sys2Proof.Machine.execIaddsN32 c u d a b s
  | .iaddi c u d a imm => Sys2Proof.Machine.execIaddi c u d a imm s
  | .andi c u d a imm => Sys2Proof.Machine.execAndi c u d a imm s
  | .ori c u d a imm => Sys2Proof.Machine.execOri c u d a imm s
  | .xori c u d a imm => Sys2Proof.Machine.execXori c u d a imm s
  | .shfi c u d a sc n => Sys2Proof.Machine.execShfi c u d a sc n s
  | .imuli c u d a imm => Sys2Proof.Machine.execImuli c u d a imm s
  | .leai c u d a imm => Sys2Proof.Machine.execLeai c u d a imm s
  | .movi c u d imm => Sys2Proof.Machine.execMovi c u d imm s
  | .movhi c u d imm => Sys2Proof.Machine.execMovhi c u d imm s
  | .kld c u d k => Sys2Proof.Machine.execKld c u d k s
  | .isetp c u f e p a b => Sys2Proof.Machine.execIsetp c u f e p a b s
  | .fsetp c u f e p a b => Sys2Proof.Machine.execFsetp c u f e p a b s
  | .pand c u d a b => Sys2Proof.Machine.execPand c u d a b s
  | .por c u d a b => Sys2Proof.Machine.execPor c u d a b s
  | .pxor c u d a b => Sys2Proof.Machine.execPxor c u d a b s
  | .pnot c u d a => Sys2Proof.Machine.execPnot c u d a s
  | .p2v c u d => Sys2Proof.Machine.execP2v c u d s
  | .v2p c u a => Sys2Proof.Machine.execV2p c u a s
  | .pset c u d b => Sys2Proof.Machine.execPset c u d b s
  | .selp c u d a b p => Sys2Proof.Machine.execSelp c u d a b p s
  | .mand c u d a b => Sys2Proof.Machine.execMand c u d a b s
  | .mor c u d a b => Sys2Proof.Machine.execMor c u d a b s
  | .mxor c u d a b => Sys2Proof.Machine.execMxor c u d a b s
  | .mnot c u d a => Sys2Proof.Machine.execMnot c u d a s
  | .mfromv c u d a => Sys2Proof.Machine.execMfromv c u d a s
  | .mtov c u d a => Sys2Proof.Machine.execMtov c u d a s
  | .mpopc c u d a => Sys2Proof.Machine.execMpopc c u d a s
  | .mself c u d => Sys2Proof.Machine.execMself c u d s
  | .fadd c u d a b => Sys2Proof.Machine.execFadd c u d a b s
  | .fsub c u d a b => Sys2Proof.Machine.execFsub c u d a b s
  | .fmul c u d a b => Sys2Proof.Machine.execFmul c u d a b s
  | .fmin c u d a b => Sys2Proof.Machine.execFmin c u d a b s
  | .fmax c u d a b => Sys2Proof.Machine.execFmax c u d a b s
  | .fabs c u d a => Sys2Proof.Machine.execFabs c u d a s
  | .fneg c u d a => Sys2Proof.Machine.execFneg c u d a s
  | .fcpsgn c u d a b => Sys2Proof.Machine.execFcpsgn c u d a b s
  | .fma c u d a b => Sys2Proof.Machine.execFma c u d a b s
  | .fms c u d a b => Sys2Proof.Machine.execFms c u d a b s
  | .fnma c u d a b => Sys2Proof.Machine.execFnma c u d a b s
  | .fnms c u d a b => Sys2Proof.Machine.execFnms c u d a b s
  | .frcp c u d a => Sys2Proof.Machine.execFrcp c u d a s
  | .frsq c u d a => Sys2Proof.Machine.execFrsq c u d a s
  | .fsqrta c u d a => Sys2Proof.Machine.execFsqrta c u d a s
  | .fex2 c u d a => Sys2Proof.Machine.execFex2 c u d a s
  | .flg2 c u d a => Sys2Proof.Machine.execFlg2 c u d a s
  | .fsinp c u d a => Sys2Proof.Machine.execFsinp c u d a s
  | .fcosp c u d a => Sys2Proof.Machine.execFcosp c u d a s
  | .ftanh c u d a => Sys2Proof.Machine.execFtanh c u d a s
  | .fdiv c u d a b => Sys2Proof.Machine.execFdiv c u d a b s
  | .fsqrt c u d a => Sys2Proof.Machine.execFsqrt c u d a s
  | .frintRn c u d a => Sys2Proof.Machine.execFrintRn c u d a s
  | .frintRz c u d a => Sys2Proof.Machine.execFrintRz c u d a s
  | .frintRd c u d a => Sys2Proof.Machine.execFrintRd c u d a s
  | .frintRu c u d a => Sys2Proof.Machine.execFrintRu c u d a s
  | .fclass c u d a => Sys2Proof.Machine.execFclass c u d a s
  | .fscalb c u d a b => Sys2Proof.Machine.execFscalb c u d a b s
  | .cvt c u sc r d a b => Sys2Proof.Machine.execCvt c u sc r d a b s
  | .pkbf c u d a b => Sys2Proof.Machine.execPkbf c u d a b s
  | .pke4Lo c u d a b => Sys2Proof.Machine.execPke4Lo c u d a b s
  | .pke4Hi c u d a b => Sys2Proof.Machine.execPke4Hi c u d a b s
  | .pke5Lo c u d a b => Sys2Proof.Machine.execPke5Lo c u d a b s
  | .pke5Hi c u d a b => Sys2Proof.Machine.execPke5Hi c u d a b s
  | .pkpsLo c u d a b => Sys2Proof.Machine.execPkpsLo c u d a b s
  | .pkpsHi c u d a b => Sys2Proof.Machine.execPkpsHi c u d a b s
  | .unpk c u d a j => Sys2Proof.Machine.execUnpk c u d a j s
  | .dot2Bf16 c u d a b => Sys2Proof.Machine.execDot2Bf16 c u d a b s
  | .dot4E4m3 c u d a b => Sys2Proof.Machine.execDot4E4m3 c u d a b s
  | .dot4E5m2 c u d a b => Sys2Proof.Machine.execDot4E5m2 c u d a b s
  | .dot4Ps8 c u d a b => Sys2Proof.Machine.execDot4Ps8 c u d a b s
  | .dot4S8 c u d a b => Sys2Proof.Machine.execDot4S8 c u d a b s
  | .dot4N8 c u d a b => Sys2Proof.Machine.execDot4N8 c u d a b s
  | .hadd2Bf16 c u d a b => Sys2Proof.Machine.execHadd2Bf16 c u d a b s
  | .hmul2Bf16 c u d a b => Sys2Proof.Machine.execHmul2Bf16 c u d a b s
  | .brm u n f w x y z => Sys2Proof.Machine.execBrm u n f w x y z s
  | .tgt g h => Sys2Proof.Machine.execTgt g h s
  | .jmp u imm => Sys2Proof.Machine.execJmp u imm s
  | .call u d imm => Sys2Proof.Machine.execCall u d imm s
  | .jmpr a => Sys2Proof.Machine.execJmpr a s
  | .callr d a => Sys2Proof.Machine.execCallr d a s
  | .ret a => Sys2Proof.Machine.execRet a s
  | .exit => Sys2Proof.Machine.execExit s
  | .spawn c d a b => Sys2Proof.Machine.execSpawn c d a b s
  | .spawnf c d a b => Sys2Proof.Machine.execSpawnf c d a b s
  | .trap c b => Sys2Proof.Machine.execTrap c b s
  | .bkpt c => Sys2Proof.Machine.execBkpt c s
  | .nop c => Sys2Proof.Machine.execNop c s
  | .pause c a => Sys2Proof.Machine.execPause c a s
  | .yield c => Sys2Proof.Machine.execYield c s
  | .ffence c => Sys2Proof.Machine.execFfence c s
  | .clkrd c d => Sys2Proof.Machine.execClkrd c d s
  | .renew c a => Sys2Proof.Machine.execRenew c a s
  | .resume c => Sys2Proof.Machine.execResume c s
  | .shflIdx c d a m => Sys2Proof.Machine.execShflIdx c d a m s
  | .shflXor c d a m => Sys2Proof.Machine.execShflXor c d a m s
  | .shflUp c d a m => Sys2Proof.Machine.execShflUp c d a m s
  | .shflDn c d a m => Sys2Proof.Machine.execShflDn c d a m s
  | .voteAll c d n a m => Sys2Proof.Machine.execVoteAll c d n a m s
  | .voteAny c d n a m => Sys2Proof.Machine.execVoteAny c d n a m s
  | .ballot c d n a m => Sys2Proof.Machine.execBallot c d n a m s
  | .matchLanes c d a m => Sys2Proof.Machine.execMatchLanes c d a m s
  | .radd c d a m => Sys2Proof.Machine.execRadd c d a m s
  | .rminS32 c d a m => Sys2Proof.Machine.execRminS32 c d a m s
  | .rmaxS32 c d a m => Sys2Proof.Machine.execRmaxS32 c d a m s
  | .rand c d a m => Sys2Proof.Machine.execRand c d a m s
  | .ror c d a m => Sys2Proof.Machine.execRor c d a m s
  | .rxor c d a m => Sys2Proof.Machine.execRxor c d a m s
  | .rfadd c d a m => Sys2Proof.Machine.execRfadd c d a m s
  | .rminN32 c d a m => Sys2Proof.Machine.execRminN32 c d a m s
  | .barSync c n => Sys2Proof.Machine.execBarSync c n s
  | .barArv c d n => Sys2Proof.Machine.execBarArv c d n s
  | .barWait c d n => Sys2Proof.Machine.execBarWait c d n s
  | .barClu c => Sys2Proof.Machine.execBarClu c s
  | .barGrid c => Sys2Proof.Machine.execBarGrid c s
  | .gsync c m => Sys2Proof.Machine.execGsync c m s
  | .barTest c d n => Sys2Proof.Machine.execBarTest c d n s
  | .barSet c d n => Sys2Proof.Machine.execBarSet c d n s
  | .waitNe c d a b => Sys2Proof.Machine.execWaitNe c d a b s
  | .waitEq c d a b => Sys2Proof.Machine.execWaitEq c d a b s
  | .waitGe c d a b => Sys2Proof.Machine.execWaitGe c d a b s
  | .watch c d a => Sys2Proof.Machine.execWatch c d a s
  | .unwatch c d => Sys2Proof.Machine.execUnwatch c d s
  | .wake c a => Sys2Proof.Machine.execWake c a s
  | .ld c u t z d b o => Sys2Proof.Machine.execLd c u t z d b o s
  | .st c u t z d b o => Sys2Proof.Machine.execSt c u t z d b o s
  | .lds c u t z d b o => Sys2Proof.Machine.execLds c u t z d b o s
  | .sts c u t z d b o => Sys2Proof.Machine.execSts c u t z d b o s
  | .ldf c u t f d b o => Sys2Proof.Machine.execLdf c u t f d b o s
  | .atomAdd c u w r sc d a b => Sys2Proof.Machine.execAtomAdd c u w r sc d a b s
  | .atomMinS32 c u w r sc d a b => Sys2Proof.Machine.execAtomMinS32 c u w r sc d a b s
  | .atomMaxS32 c u w r sc d a b => Sys2Proof.Machine.execAtomMaxS32 c u w r sc d a b s
  | .atomMinN32 c u w r sc d a b => Sys2Proof.Machine.execAtomMinN32 c u w r sc d a b s
  | .atomMaxN32 c u w r sc d a b => Sys2Proof.Machine.execAtomMaxN32 c u w r sc d a b s
  | .atomAnd c u w r sc d a b => Sys2Proof.Machine.execAtomAnd c u w r sc d a b s
  | .atomOr c u w r sc d a b => Sys2Proof.Machine.execAtomOr c u w r sc d a b s
  | .atomXor c u w r sc d a b => Sys2Proof.Machine.execAtomXor c u w r sc d a b s
  | .atomxXchg c u w r sc d a b => Sys2Proof.Machine.execAtomxXchg c u w r sc d a b s
  | .atomxCas c u w r sc d a b => Sys2Proof.Machine.execAtomxCas c u w r sc d a b s
  | .atomxIncw c u w r sc d a b => Sys2Proof.Machine.execAtomxIncw c u w r sc d a b s
  | .atomxDecw c u w r sc d a b => Sys2Proof.Machine.execAtomxDecw c u w r sc d a b s
  | .atomxFaddF32 c u r sc d a b => Sys2Proof.Machine.execAtomxFaddF32 c u r sc d a b s
  | .atomxFminF32 c u r sc d a b => Sys2Proof.Machine.execAtomxFminF32 c u r sc d a b s
  | .atomxFmaxF32 c u r sc d a b => Sys2Proof.Machine.execAtomxFmaxF32 c u r sc d a b s
  | .lda c u w sc d a => Sys2Proof.Machine.execLda c u w sc d a s
  | .stl c u w sc a b => Sys2Proof.Machine.execStl c u w sc a b s
  | .fence c u r sc => Sys2Proof.Machine.execFence c u r sc s
  | .fenceSc c u sc => Sys2Proof.Machine.execFenceSc c u sc s
  | .ldap c u w sc d a => Sys2Proof.Machine.execLdap c u w sc d a s
  | .atomp c u w r sc d a b => Sys2Proof.Machine.execAtomp c u w r sc d a b s
  | .pref c u a h => Sys2Proof.Machine.execPref c u a h s
  | .flush c u a => Sys2Proof.Machine.execFlush c u a s
  | .inval c u a => Sys2Proof.Machine.execInval c u a s
  | .stashMap c u a b => Sys2Proof.Machine.execStashMap c u a b s
  | .stashWb c u => Sys2Proof.Machine.execStashWb c u s
  | .stashDrop c u => Sys2Proof.Machine.execStashDrop c u s
  | .cpyG2s c z d a => Sys2Proof.Machine.execCpyG2s c z d a s
  | .cpyS2g c z d a => Sys2Proof.Machine.execCpyS2g c z d a s
  | .cpyG2g c z d a => Sys2Proof.Machine.execCpyG2g c z d a s
  | .cpyS2s c z d a => Sys2Proof.Machine.execCpyS2s c z d a s
  | .cpyFlag c a b => Sys2Proof.Machine.execCpyFlag c a b s
  | .cpyCommit c d sc => Sys2Proof.Machine.execCpyCommit c d sc s
  | .htest c d a => Sys2Proof.Machine.execHtest c d a s
  | .hcancel c a => Sys2Proof.Machine.execHcancel c a s
  | .hwait c a => Sys2Proof.Machine.execHwait c a s
  | .cntrd c d => Sys2Proof.Machine.execCntrd c d s
  | .waitc c l sc k t => Sys2Proof.Machine.execWaitc c l sc k t s
  | .mxIssue c d a => Sys2Proof.Machine.execMxIssue c d a s
  | .mxReady c d a q => Sys2Proof.Machine.execMxReady c d a q s
  | .mxCancel c => Sys2Proof.Machine.execMxCancel c s
  | .mxQuiesce c => Sys2Proof.Machine.execMxQuiesce c s
  | .plZero c a f => Sys2Proof.Machine.execPlZero c a f s
  | .plClaim c a l => Sys2Proof.Machine.execPlClaim c a l s
  | .plFree c a => Sys2Proof.Machine.execPlFree c a s
  | .plLd c f a b => Sys2Proof.Machine.execPlLd c f a b s
  | .plSt c a b => Sys2Proof.Machine.execPlSt c a b s
  | .plRd c d a k => Sys2Proof.Machine.execPlRd c d a k s
  | .plWr c d a k => Sys2Proof.Machine.execPlWr c d a k s
  | .plScale c a b => Sys2Proof.Machine.execPlScale c a b s
  | .plSave c a => Sys2Proof.Machine.execPlSave c a s
  | .plRst c a => Sys2Proof.Machine.execPlRst c a s
  | .tld c d a f => Sys2Proof.Machine.execTld c d a f s
  | .tst c d a => Sys2Proof.Machine.execTst c d a s
  | .tcvt c d a h sc r f => Sys2Proof.Machine.execTcvt c d a h sc r f s
  | .tzero c d f => Sys2Proof.Machine.execTzero c d f s
  | .ttrn c d a m => Sys2Proof.Machine.execTtrn c d a m s
  | .plwLoop c l a => Sys2Proof.Machine.execPlwLoop c l a s
  | .plwStrm c t z q a b => Sys2Proof.Machine.execPlwStrm c t z q a b s
  | .plwGo c m => Sys2Proof.Machine.execPlwGo c m s
  | .plwStop c => Sys2Proof.Machine.execPlwStop c s
  | .qpop c d n => Sys2Proof.Machine.execQpop c d n s
  | .qpeek c d n => Sys2Proof.Machine.execQpeek c d n s
  | .qlen c d n => Sys2Proof.Machine.execQlen c d n s
  | .plwStat c d => Sys2Proof.Machine.execPlwStat c d s
  | .launch c d a b => Sys2Proof.Machine.execLaunch c d a b s
  | .qpush c d a b => Sys2Proof.Machine.execQpush c d a b s
  | .kstat c d a => Sys2Proof.Machine.execKstat c d a s
  | .qstat c d a => Sys2Proof.Machine.execQstat c d a s
  | .srd c d imm => Sys2Proof.Machine.execSrd c d imm s
  | .swr c d imm => Sys2Proof.Machine.execSwr c d imm s
  | .tret c => Sys2Proof.Machine.execTret c s
  | .ecall c d imm => Sys2Proof.Machine.execEcall c d imm s
  | .ctxStop c d => Sys2Proof.Machine.execCtxStop c d s
  | .ctxSave c d => Sys2Proof.Machine.execCtxSave c d s
  | .ctxRst c d f => Sys2Proof.Machine.execCtxRst c d f s
  | .preempt c d imm => Sys2Proof.Machine.execPreempt c d imm s
  | .ckptMark c d f => Sys2Proof.Machine.execCkptMark c d f s
  | .ckptStat c d => Sys2Proof.Machine.execCkptStat c d s
  | .patchLoad c d sc => Sys2Proof.Machine.execPatchLoad c d sc s
  | .patchArm c sc => Sys2Proof.Machine.execPatchArm c sc s
  | .patchDisarm c sc => Sys2Proof.Machine.execPatchDisarm c sc s
  | .patchQry c d sc => Sys2Proof.Machine.execPatchQry c d sc s
  | .pstateSet c d p => Sys2Proof.Machine.execPstateSet c d p s
  | .park c d => Sys2Proof.Machine.execPark c d s
  | .unpark c d => Sys2Proof.Machine.execUnpark c d s
  | .errqSet c d l => Sys2Proof.Machine.execErrqSet c d l s
  | .tlbInv c d w => Sys2Proof.Machine.execTlbInv c d w s
  | .fenceTlb c => Sys2Proof.Machine.execFenceTlb c s
  | .verifyTimeout slot => Sys2Proof.Machine.execVerifyTimeout slot s
  | .triageTimeout die => Sys2Proof.Machine.execTriageTimeout die s
  | .unknownMailboxCommand => Sys2Proof.Machine.execUnknownMailboxCommand s
  | .standbyFailure => Sys2Proof.Machine.execStandbyFailure s

end Sys2Proof.Machine
end

