-- ==== Sys2Proof/Machine/Fetch.lean ====
section
/-! DEFINITION. Fetching and decoding a chain (03 R34 to R53, R489; 22 R466 to R470). -/

namespace Sys2Proof.Machine

/-- What decode makes of one word of a chain. -/
inductive Piece where
  | word (i : Instr)
  /-- ILLEGAL_OPCODE: subcode. -/
  | illegal (sub : Nat)
  /-- CHAIN_FAULT of the word by itself: subcode, and the instruction it would be with C = 0. -/
  | chain (sub : Nat) (i : Option Instr)
  /-- Claimed by a stencil slot that traps or emulates. -/
  | claimed (sl : Nat)

/-- A word of a chain: as fetched, its slot, as decoded (the replacement where a stencil slot rewrites it), whether a stencil
supplied it, and what decode makes of it. -/
structure Part where
  raw : Word
  slot : Nat
  word : Word
  supplied : Bool := false
  piece : Piece

/-- The fault of fetching a word: its cause, subcode and address (03 R36, 11 R239, 17 R370, 21 R453). -/
def fetchFault (cause sub slot : Nat) (i0 : Word) (a : Nat) : Verdict :=
  .trap cause i0 (BitVec.ofNat 32 (slot + 16 * sub)) (BitVec.ofNat 32 a) (BitVec.ofNat 32 (a / 2 ^ 32))

/-- Where a level fetches an address from: the base of the code region that holds it. -/
def codeBase (c : Chip) (ctx : Nat) (lvl : Level) (a : Nat) : Option Nat :=
  if lvl = .firmware then
    let sl := (a - 2 ^ 54) / 2 ^ 32
    if 2 ^ 54 ≤ a ∧ a - routineBase sl < (c.slot sl).code.length then some (routineBase sl) else none
  else (c.region? ctx a).map (·.base)

/-- The word at an address, or what becomes of the threads that fetch it. -/
def fetchWord (e : State) (c : Chip) (k ctx : Nat) (lvl : Level) (a slot : Nat) : Except Verdict Word :=
  if a / 2 ^ 55 ≠ 0 then .error (fetchFault causeAccess 1 slot 0 a)
  else match codeBase c ctx lvl a with
    | none => .error (fetchFault causeAccess 15 slot 0 a)
    | some _ =>
      if lvl = .firmware then .ok (BitVec.ofNat 32 ((codeWord e c k ctx lvl a).getD 0))
      else match translate e c k ctx lvl a .fetch with
        | .ok p _ _ => if pageAway e c ctx a then .error (.hold (a / 65536 * 65536)) else
          match poisonAt e c p 4 with
          | some sub => .error (fetchFault causeUncorrectable sub slot 0 a)
          | none => .ok (BitVec.ofNat 32 (coreView e c k p 4))
        | .fault cause sub i0 => .error (fetchFault cause sub slot i0 a)
        | .serve => .error (.hold (a / 65536 * 65536))
        | .migrating => .error (.hold (a / 65536 * 65536))

/-- What decode makes of a word that no stencil claims. -/
noncomputable def plainPiece (w : Word) : Piece :=
  match decodeWord w with
  | .ok i => .word i
  | .error (.illegal n) => .illegal n
  | .error (.chain n) => .chain n (match decodeCore w.toNat with | .ok i => some i | .error _ => none)

/-- The replacement words of a slot for a matched word (22 R469). -/
def replacements (x : Slot) (w : Word) : List Word :=
  (List.range x.nrep).map (fun j =>
    let m := x.merge.getD j 0
    let r := (x.rep.getD j 0 &&& ~~~m) ||| (w &&& m)
    if j + 1 = x.nrep then (r &&& 0x7FFFFFFF) ||| (w &&& 0x80000000) else r)

/-- The parts a fetched word becomes (22 R466 to R470): itself, claimed, or rewritten; `patched` names the slot that
rewrites it at the fault path. -/
noncomputable def partsOf (c : Chip) (t : Nat) (w : Word) (slot : Nat) (patched : Option Nat) : List Part × Option Nat :=
  let pick := match patched with
    | some sl => some sl
    | none => stencilPick c t w 0
  match pick with
  | none => ([{ raw := w, slot := slot, word := w, piece := plainPiece w }], none)
  | some sl =>
    if (c.slot sl).action = 2 then 
      ((replacements (c.slot sl) w).map (fun r => { raw := w, slot := slot, word := r, supplied := true, piece := plainPiece r }), some sl)
    else ([{ raw := w, slot := slot, word := w, piece := .claimed sl }], none)

/-- The words of a chain from an address on, at most the packet's. -/
def rawChain (e : State) (c : Chip) (k ctx : Nat) (lvl : Level) : Nat → Nat → Nat → List (Word × Nat) × Option Verdict
  | 0, _, _ => ([], none)
  | n + 1, a, slot =>
    match fetchWord e c k ctx lvl a slot with
    | .error v => ([], some v)
    | .ok w =>
      if bitAt w.toNat 31 ∧ slot < 2 then
        let r := rawChain e c k ctx lvl n (a + 4) (slot + 1)
        ((w, slot) :: r.1, r.2)
      else ([(w, slot)], none)

/-- The instruction of a part, whatever its chain bit. -/
def Part.instr? (p : Part) : Option Instr :=
  match p.piece with
  | .word i => some i
  | .chain _ i => i
  | _ => none

/-- A part's pipe and destinations for the checks of R38; a claimed word counts as a CTL word (03 R41). ECALL names v(d) as a destination
at every level, as it does at supervisor level (19 R433; DEDUCED, log entry 138). -/
def Part.info (p : Part) : OpInfo :=
  match p.instr? with
  | some (.ecall c d n) => { opInfo (.ecall c d n) with dests := [d.toNat] }
  | some i => opInfo i
  | none => {}

/-- Whether two words name a common destination (03 R38). -/
def OpInfo.clash (a b : OpInfo) : Bool :=
  a.dests.any (fun d => b.dests.contains d) || a.preds.any (fun d => b.preds.contains d) || a.masks.any (fun d => b.masks.contains d)

/-- Whether a part is a TGT word. -/
def Part.isTgt (p : Part) : Bool :=
  match p.instr? with
  | some (.tgt ..) => true
  | _ => false

/-- Whether a part is a BRM header. -/
def Part.isBrm (p : Part) : Bool :=
  match p.instr? with
  | some (.brm ..) => true
  | _ => false

/-- Whether a part is a terminator (03 R38). -/
def Part.ends (p : Part) : Bool := (p.instr?.map endsChain).getD false && !p.isTgt

/-- The CHAIN_FAULT conditions of a list of parts with the place each is charged to (03 R38, R489): subcodes 2, 6 and 7, and
5 for a TGT word, which stands behind no header here, and for a header with C = 1; one that is a chain by itself takes its fault when
it executes. -/
def chainFaults (ps : List Part) : List (Nat × Nat) :=
  (List.range ps.length).flatMap (fun j =>
    match ps[j]? with
    | none => []
    | some p =>
      let before := ps.take j
      (if before.any (fun q => q.info.pipe == p.info.pipe) then [(j, 2)] else []) ++
      (match p.piece with
        | .chain n _ => (j, n) :: (if p.isBrm then [(j, 5)] else [])
        | _ => if p.isTgt && decide (ps.length ≠ 1) then [(j, 5)] else []) ++
      (if before.any (fun q => q.info.clash p.info) then [(j, 6)] else []) ++
      (if p.ends && decide (j + 1 < ps.length) then [(j, 7)] else []))

/-- The BRM header of a list of parts, whatever its chain bit: its slot, how many words of its unit follow it, from its pairs field, and
whether its pairs are an odd number (03 R49). -/
def brmTargets (ps : List Part) : Option (Nat × Nat × Bool) :=
  ps.findSome? (fun p => match p.instr? with
    | some (.brm _ n _ _ _ _ _) => some (p.slot, if n.toNat ≤ 1 then 1 else 2, decide (n.toNat % 2 = 0))
    | _ => none)

/-- A decode fault of one word (03 R53, R489). -/
def decodeFault (cause sub slot : Nat) (w : Word) : Verdict := .trap cause w (BitVec.ofNat 32 (slot + 16 * sub)) 0 0

/-- The first fault of a list by slot, then by subcode. -/
def lowest (l : List (Nat × Nat)) : Option (Nat × Nat) :=
  l.foldl (fun b x => match b with
    | none => some x
    | some y => if x.1 < y.1 ∨ (x.1 = y.1 ∧ x.2 < y.2) then some x else b) none

/-- The verdict of the lowest slot, the first of a slot. -/
def lowestFate (l : List (Nat × Bool × Verdict)) : Option (Bool × Verdict) :=
  (l.foldl (fun (b : Option (Nat × Bool × Verdict)) x => match b with
    | none => some x
    | some y => if x.1 < y.1 then some x else b) none).map (·.2)

/-- The words of a decoded list of parts. -/
def chainWords (ps : List Part) : List ChainWord :=
  ps.filterMap (fun p => match p.piece with
    | .word i => some { instr := i, raw := p.raw, slot := p.slot, supplied := p.supplied }
    | _ => none)

/-- The words of a fetched chain, with the stencil slot that rewrites one of them at the fault path. -/
noncomputable def partsAll (c : Chip) (t : Nat) (patched : Option (Nat × Nat)) (l : List (Word × Nat)) : List Part × List Nat :=
  l.foldl (fun b x =>
    let force := match patched with | some (sl, slot) => if slot = x.2 then some sl else none | none => none
    let r := partsOf c t x.1 x.2 force
    (b.1 ++ r.1, b.2 ++ r.2.toList)) ([], [])

/-- The words behind a BRM header that its pairs call for (03 R49): the header's slot, how many, and those in its packet. -/
structure Unit where
  at_ : Nat
  count : Nat
  odd : Bool
  parts : List Part := []

/-- Whether the part in a target's place is a TGT word, or one a stencil slot claims. -/
def Part.targets (p : Part) : Bool := fieldNat p.word.toNat 24 6 == 0x21

/-- The parts of a chain with those of its BRM unit that are TGT words, which are judged with it (03 R489). -/
def unitParts (ps : List Part) (u : Option Unit) : List Part :=
  ps ++ (match u with
    | some u => u.parts.filter (fun p => p.targets && !ps.any (fun q => decide (q.slot = p.slot)))
    | none => [])

/-- The words whose stencil slot traps, or whose chain is too long for its emulation (03 R41, 22 R468, R470). -/
def claimFates (c : Chip) (all : List Part) : List (Nat × Bool × Verdict) :=
  all.filterMap (fun p => match p.piece with
    | .claimed sl =>
      let x := c.slot sl
      some (p.slot, false, if x.action = 3 ∧ all.length = 1 then Verdict.emulate sl p.raw 0
        else patchTrap c p.raw p.slot (if x.action = 3 then 3 else 1) sl 0)
    | _ => none)

/-- The ILLEGAL_OPCODE conditions of a chain and its BRM unit (03 R52, R53, R489), an unused t1 that is not zero among them. -/
def illegalFates (all : List Part) (u : Option Unit) : List (Nat × Bool × Verdict) :=
  all.filterMap (fun p => match p.piece with
    | .illegal n => some (p.slot, p.supplied, decodeFault causeIllegal n p.slot p.raw)
    | _ => none) ++
  (match u with
    | some u => match u.odd, u.parts[u.count - 1]? with
      | true, some p => match p.instr? with
        | some (.tgt _ h) => if h = 0 then [] else [(p.slot, p.supplied, decodeFault causeIllegal 6 p.slot p.raw)]
        | _ => []
      | _, _ => []
    | none => [])

/-- The CHAIN_FAULT conditions of a chain and its BRM unit, each with the slot it is charged to (03 R38, R49, R489): a header
without room for its target words, or followed by another word, is charged with subcode 5; so is a TGT word with C = 1, with
subcode 1 beside it in slot 2. -/
def chainFates (ps : List Part) (raws : List (Word × Nat)) (u : Option Unit) : List (Nat × Nat) :=
  let slotAt := fun j => match ps[j]? with | some p => p.slot | none => 0
  (chainFaults ps).map (fun f => (slotAt f.1, f.2)) ++
  raws.filterMap (fun x => if x.2 = 2 ∧ bitAt x.1.toNat 31 then some (2, 1) else none) ++
  (match u with
    | none => []
    | some u =>
      (if decide (u.parts.length = u.count) && u.parts.all Part.targets then [] else [(u.at_, 5)]) ++
      (u.parts.filter Part.targets).flatMap (fun p =>
        if bitAt p.raw.toNat 31 then (p.slot, 5) :: (if p.slot = 2 then [(2, 1)] else []) else []))

/-- Judging a chain (03 R52, R489): what becomes of the threads that reach it, if it does not execute, and whether a word
that a stencil supplied is at fault. An ILLEGAL_OPCODE, a word that cannot be fetched and a claimed word are reported by the
lowest slot (03 R40); where no word is illegal or unfetched, a breach of R38, for which a claimed word counts as a CTL word
(03 R41), is reported before a claim. DEDUCED: the place of a word that cannot be fetched among the words that are illegal, which the spec
does not give (log entry 19). -/
def judgeChain (c : Chip) (ps : List Part) (raws : List (Word × Nat)) (u : Option Unit) (unfetched : Option (Nat × Verdict)) :
    Option (Bool × Verdict) :=
  let all := unitParts ps u
  let hard := illegalFates all u ++ (unfetched.map (fun x => (x.1, false, x.2))).toList
  let claims := claimFates c all
  let rawAt := fun slot => match all.find? (fun p => decide (p.slot = slot)) with | some p => (p.supplied, p.raw) | none => (false, 0)
  if hard.isEmpty then
    match lowest (chainFates ps raws u) with
    | some f => some ((rawAt f.1).1, decodeFault causeChain f.2 f.1 (rawAt f.1).2)
    | none => lowestFate claims
  else lowestFate (hard ++ claims)

/-- The unit of a chain that holds a BRM header: the words that its targets take in its packet, as far as they can be fetched. -/
noncomputable def fetchUnit (e : State) (t k ctx : Nat) (lvl : Level) (a slot : Nat) (ps : List Part) :
    Option Unit × List Nat × Option (Nat × Verdict) :=
  match brmTargets ps with
  | none => (none, [], none)
  | some (h, n, odd) =>
    let ws := ((List.range n).map (fun j => h + 1 + j)).filter (fun i => decide (i ≤ 2)) |>.map (fun i =>
      (i, fetchWord e e.now k ctx lvl (a + 4 * (i - slot)) i))
    let got := (ws.takeWhile (fun x => match x.2 with | .ok _ => true | .error _ => false)).filterMap
      (fun x => match x.2 with | .ok w => some (w, x.1) | .error _ => none)
    let bad := ws.findSome? (fun x => match x.2 with | .error v => some (x.1, v) | .ok _ => none)
    let r := partsAll e.now t none got
    (some { at_ := h, count := n, odd := odd, parts := r.1 }, r.2, bad)

/-- Fetching and decoding the chain a thread stands at; a spawned thread whose entry address enters a chain faults at its first
fetch (07 R153). -/
noncomputable def fetchChain (s : State) (t : Nat) : Fetched :=
  let c := s.now
  let th := c.thread t
  let ctx := c.ctxOf t
  let k := c.coreOf t
  let a := th.pc.toNat
  let slot := match codeBase c ctx th.level a with
    | some b => slotOf b a
    | none => 0
  let r := rawChain s c k ctx th.level 3 a slot
  let n := r.1.length
  let (ps, by_) := partsAll c t th.patched r.1
  let (u, byU, badU) := if r.2.isSome then (none, [], none) else fetchUnit s t k ctx th.level a slot ps
  let unfetched := (r.2.map (fun v => (slot + n, v))).orElse (fun _ => badU)
  let base : Fetched := { words := chainWords ps, len := n, rewrittenBy := by_ ++ byU
                          targets := match u with | some u => u.parts.map (·.word) | none => [] }
  let entry := if th.entering then badTarget s c k ctx th.level th.pc else none
  match entry, judgeChain c ps r.1 u unfetched with
  | some sub, _ =>
    let raw := (r.1.head?.map (·.1)).getD 0
    { base with fault := some (.trap causeChain raw (BitVec.ofNat 32 (slot + 16 * sub)) (th.pc.extractLsb' 0 32) (th.pc.extractLsb' 32 32)) }
  | none, some (sup, v) => { base with fault := some v, supplied := sup }
  | none, none => base

/-- Fetching for an open issue: its chain, the pages' accessed bits and the translations kept. -/
noncomputable def fetchIssue (s : State) (iss : Issue) : State :=
  match iss.members.head? with
  | none => { s with issue := none, base := none }
  | some t =>
    let f := fetchChain s t
    { s with now := touchFetch s s.now t iss.pc f, issue := some { iss with code := some f } }

/-- Decoding ahead for the pens of a croft whose chain is not decoded, or met a fault that may have gone. -/
noncomputable def decodePens (s : State) (croft : Nat) : State :=
  let f := s.now.croft croft
  let pens := Sparse.mapVals (fun i (p : Pen) =>
    match (s.now.penThreads croft i).head? with
    | none => p
    | some t => if (match p.code with | none => true | some x => x.fault.isSome) then { p with code := some (fetchChain s t) } else p) f.pens
  { s with now := s.now.setCroft croft { f with pens := pens } }

/-- Whether replacement words are a legal chain by themselves (22 R473, reason 6): the words with merged fields taken as
zero, C as the rewrite leaves it. -/
noncomputable def legalReplacement (x : Slot) : Bool :=
  let ws := replacements x 0
  let ps : List Part := ws.map (fun w => { raw := w, slot := 0, word := w, supplied := true, piece := plainPiece w })
  (ps.all (fun p => match p.piece with | .illegal _ => false | _ => true)) && (chainFaults ps).isEmpty && (ws.dropLast).all (fun w => bitAt w.toNat 31)

end Sys2Proof.Machine
end

