-- ==== Sys2Proof/Machine/Events.lean ====
section
/-! DEFINITION. Which event happens next when the environment names none (log entry 8), what a step prepares for an
event, and what the next step does. -/

namespace Sys2Proof.Machine

/-- What may happen next to an access. -/
noncomputable def accessEvents (c : Chip) (id : Nat) (a : Access) : List Instr :=
  match a.stage, a.op with
  | .returned, _ => [.loadDataReturn id]
  | .reply .., _ => [.renewReply id]
  | .atHome, _ => [.recallLine (a.phys / 128), .backInvalidationResponse (a.phys / 128), .loadDataReturn id]
  | .remote, .load => [.loadDataReturn id, .routeFailure id]
  | .remote, .store => [.homeStore id, .routeFailure id]
  | .remote, _ => [.routeFailure id]
  | _, .load => [if c.wantsOwned a then .ownedRequest id else .renewRequest id, .loadDataReturn id]
  | _, .store => [if c.wantsOwned a then .ownedRequest id else .homeStore id]
  | _, .rmw _ => [.homeAtomic id]
  | _, .fetch _ => [if c.wantsOwned a then .ownedRequest id else .renewRequest id]
  | _, .writeback _ => [.homeStore id]
  | _, _ => []

/-- What may happen next to a thread. -/
noncomputable def threadEvents (t : Nat) (x : Thread) : List Instr :=
  (match x.waitsOn with
    | some r => (match r.kind with
      | .word _ => [.watchFire t, .waitLimitExpiry t]
      | .quad => [.quadJoin t, .barrierTimeout t]
      | _ => [.barrierTimeout t])
    | none => []) ++
  (if x.paused = 0 then [] else [.pauseExpiry t]) ++ (if x.yielding.isSome then [.yieldEnd t] else []) ++
    (if x.due.isSome then [.uncorrectable t] else []) ++ (if x.held.isSome then [.holdLimitExpiry t] else [])

/-- What may happen next on a core: an issue cycle of each croft, a press step, its spawn bins. -/
noncomputable def coreEvents (k : Nat) (x : Core) : List Instr :=
  [.issueGroup (4 * k), .issueGroup (4 * k + 1), .issueGroup (4 * k + 2), .issueGroup (4 * k + 3), .pressTileStep k 32] ++
    x.bins.flatMap (fun b => Instr.binTimerExpiry k b.1 :: (List.range 4).map (fun i => Instr.binLaunch k b.1 (4 * k + i)))

/-- What may happen next to a context. -/
noncomputable def ctxEvents (i : Nat) (x : Ctx) : List Instr :=
  [.contextQuiescent i, .saveComplete i, .markStagingComplete i, .checkpointStream i, .checkpointComplete i, .preemptReport i, .droverCommand i,
    .automaticMark i] ++
  ((List.range (min x.qtlen 256) ++ x.queues.map (·.1)).dedup).flatMap (fun q => [Instr.queueEnableChange i q, Instr.stewardTake i q]) ++
  x.farCount.map (fun p => Instr.farPagePromotion i (65536 * p.1))

/-- The commands firmware runs for a mailbox that is busy. -/
noncomputable def mailEvents : List Instr :=
  [.discovery, .selfTestReport, .memoryReport, .stopCommand, .saveCommand, .resumeCommand, .preEmptCommand, .move, .kill, .release, .contextStatus,
    .createContext, .loadCodeObject, .setAllowedCoreSet, .writeAContextControlWord, .verifyStencilImage, .enrolOperatorKey, .keyStatus, .portStatus,
    .fenceScaleUpPort, .unfenceScaleUpPort, .domainConfiguration, .unknownMailboxCommand]

/-- What may happen next in the field dies and the stencil's slots. -/
noncomputable def unitEvents (c : Chip) : List Instr :=
  c.slots.flatMap (fun p => match p.2.state with
    | .loading => [Instr.patchLoadComplete p.1]
    | .loaded => [.patchArmComplete p.1]
    | .draining => [.drainComplete p.1]
    | _ => []) ++
  c.dies.flatMap (fun p =>
    (if p.2.target.isSome then [Instr.pstateTransition p.1] else []) ++
    (match p.2.state with
      | .parking => [.parkComplete p.1]
      | .waking => p.2.banks.map (Instr.bankReady p.1) ++ [.wakeComplete p.1]
      | _ => []))

/-- The pages that an access has faulted on or is held on, as far as the machine lists them: those of handles, of held threads, of copy
elements, of press operations, of plough streams, of pens, and of the steward and the drover. -/
noncomputable def heldPages (s : State) : List (Nat × Nat) :=
  let c := s.now
  (c.handles.filterMap (fun p => match p.2.of with | .page ctx va => some (ctx, va) | _ => none) ++
    c.threads.filterMap (fun p => p.2.held.map (fun h => (c.ctxOf p.1, h.1))) ++
    c.batches.flatMap (fun p => p.2.elems.flatMap (fun x => if x.done then [] else [(c.ctxOf p.2.th, x.src.toNat), (c.ctxOf p.2.th, x.dst.toNat)])) ++
    c.press.map (fun p => ((c.team p.2.team).ctx, p.2.addr)) ++
    c.groups.flatMap (fun p => (List.range 4).flatMap (fun n => if p.2.plough.active n then
      (c.alive p.1).map (fun t => ((c.team p.2.team).ctx, (p.2.plough.address n (laneOf t) (Sparse.get 0 p.2.plough.next n)).toNat)) else [])) ++
    c.crofts.flatMap (fun p => p.2.pens.flatMap (fun q => [(q.2.ctx, q.2.pc.toNat), (q.2.ctx, q.2.pc.toNat + 12)])) ++
    c.ctxs.flatMap (fun p => (unitReads s c p.1).map (fun a => (p.1, a)))).map (fun p => (p.1, p.2 / 65536 * 65536))

/-- The events of the device's own that a state has an object for, in a fixed order. An event whose condition does not hold leaves
the state as it is (01 R15). -/
noncomputable def candidates (s : State) : List Instr :=
  let c := s.now
  c.cores.flatMap (fun p => coreEvents p.1 p.2) ++
  c.accesses.flatMap (fun p => accessEvents c p.1 p.2) ++
  c.slices.flatMap (fun p => if p.2.persistent.isEmpty then [] else [Instr.persistentRequest p.1]) ++
  c.batches.flatMap (fun p => (List.range p.2.elems.length).map (fun i => Instr.copyElement p.1 i) ++ [Instr.batchResolve p.1]) ++
  c.press.map (fun p => Instr.pressEntryResolve p.1) ++
  c.groups.flatMap (fun p => if p.2.plough.state = .running ∨ p.2.plough.state = .held then (List.range 4).map (fun q => Instr.ploughElementRead p.1 q) else []) ++
  c.threads.flatMap (fun p => threadEvents p.1 p.2) ++
  ((heldPages s).filter (fun p => demanded s c p.1 p.2)).dedup.map (fun p => Instr.pageFaultService p.1 p.2) ++
  c.migrations.flatMap (fun m => [Instr.migration m.ctx m.va, .migrationComplete m.ctx m.va]) ++
  c.teams.map (fun p => Instr.teamRetirement p.1) ++
  c.launches.flatMap (fun p => match p.2.state with | .pending => [Instr.dependencesMet p.1] | .ready => [.clusterPlacement] | .running => [.clusterPlacement] | _ => []) ++
  c.ctxs.flatMap (fun p => ctxEvents p.1 p.2) ++
  unitEvents c ++
  (if c.sweeping then [Instr.rebaseSweepComplete] else []) ++ (if c.pastBase || c.sweepQueued then [Instr.rebaseSweep] else []) ++
  (if s.board.mbstate = .busy then mailEvents else []) ++
  [Instr.tick]

/-- The event that happens when the environment names none. -/
noncomputable def chosenEvent (s : State) : Instr := ((candidates s)[s.chosen % (candidates s).length]?).getD .tick

/-- What decoding prepares for an event: an issue cycle needs the chains of the croft's pens decoded, the checks of a loaded
image its replacement words judged. -/
noncomputable def prepare (i : Instr) (s : State) : State :=
  match i with
  | .issueGroup croft => decodePens s croft
  | .patchLoadComplete slot => { s with now := s.now.setSlot slot { s.now.slot slot with legal := legalReplacement (imageSlot s (s.now.slot slot).image) } }
  | _ => s

/-- The threads released from waits, or whose chain a stencil rewrites at the fault path, that issue together: those of one
group at one PC (07 R139, log entry 9). -/
def grantedIssue (s : State) : Option Issue :=
  match s.now.granted with
  | [] => none
  | t :: _ =>
    let c := s.now
    let th := c.thread t
    let ms := ((List.range 32).map (fun l => 32 * groupOf t + l)).filter (fun x =>
      c.granted.contains x && decide ((c.thread x).pc = th.pc) && decide ((c.thread x).level = th.level) && decide ((c.thread x).patched = th.patched))
    some { members := ms, pc := th.pc, pen := c.penOfThread t }

/-- A line that leaves its slice because the slice holds more than its 4 MiB: the lowest line of the slice at which nothing is in progress
(00 R4, 12 R281; log entry 16). -/
def crowdedOut (c : Chip) : Option Nat :=
  if c.home.length ≤ Config.sliceLines then none
  else (Sparse.keysWhere (fun _ h => !h.busy && h.conflict.isEmpty) c.home).find? (fun ln =>
    decide (Config.sliceLines < (c.home.filter (fun p => decide (sliceOf p.1 = sliceOf ln))).length))

/-- A sweep is due, and some access could soon store a time of B + 2^24 or more: accesses wait until it completes (12 R271). A step raises
no time by 2^16. -/
def Chip.sweepUrgent (c : Chip) : Bool :=
  let late := fun (t : Nat) => decide (c.timeBase + 2 ^ 24 ≤ t + 2 ^ 16)
  c.pastBase && (c.cores.any (fun p => late p.2.clk) || c.home.any (fun p => late (c.timeOf p.2.gen p.2.rts)))

/-! What the next step does. -/

/-- What a step does: execute an instruction in a state, or only come to a state. -/
inductive StepPlan where
  | run (i : Instr) (s : State)
  | done (s : State)

/-- The next word of an open chain that is fetched; a chain that does not execute ends for all its threads (03 R53). -/
def planWord (s : State) (iss : Issue) (f : Fetched) : StepPlan :=
  match f.fault with
  | some v => .done (commitIssue s { iss with dead := iss.members.map (fun t => (t, 0, v)) })
  | none => match f.words[iss.at_]? with
    | some w => .run w.instr s
    | none => .done (closeChain s)

/-- Fetching the chain of an open issue, then its first word. -/
noncomputable def planFetch (s : State) (iss : Issue) : StepPlan :=
  let s := fetchIssue s iss
  match s.issue with
  | none => .done s
  | some iss => planWord s iss (iss.code.getD {})

/-- What the next step does: the open chain goes on; else released threads issue; else a slice that holds too many lines evicts one; else
a sweep that accesses wait for goes on; else the event the environment names next; else the event the model chooses. -/
noncomputable def plan (s : State) : StepPlan :=
  match s.issue with
  | some iss => match iss.code with
    | some f => planWord s iss f
    | none => planFetch s iss
  | none => match grantedIssue s with
    | some iss => planFetch { s with issue := some iss } iss
    | none => match crowdedOut s.now with
      | some ln => .run (.sliceEviction ln) s
      | none =>
        if s.now.sweepUrgent && s.board.sweeps then .run (if s.now.sweeping then .rebaseSweepComplete else .rebaseSweep) s
        else match s.agenda with
        | i :: rest => .run i (prepare i { s with agenda := rest })
        | [] => .run (chosenEvent s) (prepare (chosenEvent s) { s with chosen := s.chosen + 1 })

end Sys2Proof.Machine
end

