-- ==== Sys2Proof/Machine/Step.lean ====
section
/-! DEFINITION. One step: the next word of the open chain, or the next event. -/

namespace Sys2Proof.Machine

/-- One step of the machine. -/
noncomputable def step (s : State) : Host.Outcome State Fault Refusal :=
  match plan s with
  | .run i t => exec i t
  | .done t => .next t

/-- The code region that `withFetchWord` loads. -/
def fetchBase : Nat := 0x10000

/-- The words laid out for one instruction: a branch header with its target words, a word with C = 1 with a word of another
pipe after it. -/
def fetchWords (w : Nat) : List Nat :=
  let major := fieldNat w 24 6
  if major = 0x20 then (if fieldNat w 22 2 ≤ 1 then [w, 0x21000000] else [w, 0x21000000, 0x21000000])
  else if bitAt w 31 then [w, if major ∈ [0x24, 0x25, 0x29, 0x2A, 0x3D, 0x3E] then 0x38FFFFFF else 0x25000000, 0x25000000]
  else [w, 0x25000000, 0x25000000]

/-- The bytes of a list of words. -/
def wordBytes (ws : List Nat) : List (BitVec 8) := ws.flatMap (leBytes 4)

/-- A state whose very next step fetches and runs the instruction: a running context with one code region, one team of one
thread on core 0 with the most registers a kernel declares, a cached translation of the page, and an open issue of that
thread at the region's first word (log entry 10). -/
def State.withFetchWord (s : State) (nbits w : Nat) : State :=
  let bytes := wordBytes (fetchWords (w % 2 ^ nbits))
  let c := s.now
  let c := c.setCtx 1 { c.ctx 1 with state := .running, regions := [{ base := fetchBase, len := 12 }] }
  let c := c.setLaunch 1 { (c.launch 1) with ctx := 1, state := .running, placed := 1, regs := 128 }
  let c := c.setCluster 1 { launch := 1, teams := [1] }
  let c := c.setTeam 1 { c.team 1 with live := true, ctx := 1, launch := 1, threads := 1, regs := 128, cluster := 1, core := some 0 }
  let c := c.setGroup 1 { c.group 1 with team := 1, croft := 0, resident := true, order := 1 }
  let c := c.setCroft 0 { c.croft 0 with pens := [(0, { ctx := 1, level := .user, pc := BitVec.ofNat 64 fetchBase })] }
  let t : TlbEntry := { ctx := 1, page := fetchBase / 65536, span := 1, entry := BitVec.ofNat 64 (fetchBase + 0x7F) }
  let c := c.setCore 0 { c.core 0 with tlb := t :: (c.core 0).tlb }
  let c := c.setThread 32 { c.thread 32 with present := true, place := .pen 0, pc := BitVec.ofNat 64 fetchBase }
  { s with now := { c with nextId := c.nextId + 1 }, base := none, issue := some { members := [32], pc := BitVec.ofNat 64 fetchBase, pen := some 0 }
           mem := Memory.writeBytes s.mem fetchBase bytes }

end Sys2Proof.Machine
end

