-- ==== Sys2Proof/Safety.lean ====
section
/-! DEFINITION. What a safe run is: every step of it answers a next state; and the terms in which the claims about instruction
words are stated: when a word of the open chain runs in every thread of the issue group that is still undecided, and the state
it then leaves. -/

namespace Sys2Proof.Machine

/-- `n` steps from a state, while each answers a next state. -/
noncomputable def runs : Nat → State → Option State
  | 0, s => some s
  | n + 1, s => match step s with
    | .next t => runs n t
    | _ => none

/-- A run of any length from a state neither faults nor is refused. -/
def Safe (s : State) : Prop := ∀ n, (runs n s).isSome

/-- A thread of the issue group has no verdict that stands: no trap, no soft fault, no hold (07 R139). -/
def Issue.Undecided (iss : Issue) (t : Nat) : Prop := ∀ v, iss.verdict t = some v → v.final = false

/-- Thread `t`, with the operands of thread `l`, may run a word whose operands are `o`: the level suffices (19 R434); every
register lies in the team's allocation (05 R91); every source that is read has an accepted tag (04 R84), is written and not
waited for (07 R134) and holds no poison (21 R453); no destination is pending (11 R240); no acquire holds the word and no
counter it raises is full (11 R241, R247); no page and no MX.QUIESCE holds the thread (15 R343, 17 R372). -/
def CanRun (e : State) (t l : Nat) (o : OpInfo) : Prop :=
  o.least ≤ (e.now.thread l).level.code ∧
  (∀ x ∈ o.srcs, x.reg < (e.now.team (e.now.teamOf l)).regs) ∧
  (∀ d ∈ o.dests, d < (e.now.team (e.now.teamOf l)).regs) ∧
  (∀ x ∈ o.srcs, x.read e.now l = true →
    x.tagOk e.now l = true ∧ x.ready e.now l = true ∧ (e.now.reg l x.reg).poison = none) ∧
  (∀ d ∈ o.dests, destReady e.now t d = true) ∧ memReady e.now t o = true ∧ stalled e t = false

/-- The word `i` runs in the open chain of `s`: some thread of the issue group has not failed, and in every undecided one the
word may run, nothing else holds it, the pair of a protected thread agrees (21 R456), and the word's own condition is met. -/
def Runs (i : Instr) (own : State → Nat → Prop) (s : State) (iss : Issue) : Prop :=
  s.issue = some iss ∧ iss.live ≠ [] ∧ ∀ t ∈ iss.members, iss.Undecided t →
    CanRun s.before t (wordLead s.before t i) (opInfo i) ∧ blocked s.before t i = false ∧
    pairCheck i s.before.now (wordLead s.before t i) iss.slot = none ∧ own s.before (wordLead s.before t i)

/-- A word without a condition of its own. -/
def always : State → Nat → Prop := fun _ _ => True

/-- The open chain after a word that has failed in no thread: its effect made, the machine before the chain kept, the next word
next. -/
def carried (s : State) (iss : Issue) (m : Chip) : State :=
  { s with now := m, base := some s.before.now, issue := some { iss with at_ := iss.at_ + 1 } }

/-- With C = 0 the word ends its chain (03 R38). -/
def ended (c : Bool) (s : State) : State := if c then s else closeChain s

/-- Where the word runs, executing it answers the state with its effect `act`; with C = 0 that chain then closes. -/
def Does (i : Instr) (c : Bool) (own : State → Nat → Prop) (act : Act) : Prop :=
  ∀ s iss, Runs i own s iss → exec i s = .next (ended c (carried s iss (act s.before iss.members iss.live s.now)))

/-- The same for a word that transfers control: each thread that has not failed is given where it goes. -/
def Jumps (i : Instr) (c : Bool) (own : State → Nat → Prop) (act : Act) (f : State → List Nat → Nat → Option Jump) : Prop :=
  ∀ s iss, Runs i own s iss → exec i s = .next (ended c { carried s iss (act s.before iss.members iss.live s.now) with
    issue := some { iss with at_ := iss.at_ + 1
                             jumps := iss.jumps ++ iss.live.filterMap (fun t => (f s.before iss.members t).map (fun j => (t, j))) } })

/-- The threads of the issue group still undecided. -/
def Issue.undecided (iss : Issue) : List Nat := iss.members.filter (fun t => match iss.verdict t with | some v => !v.final | none => true)

/-- The open chain after a word that has failed in every undecided thread: the machine as it is, their verdicts noted. -/
def failed (s : State) (iss : Issue) (v : Nat → Verdict) : State :=
  { s with base := some s.before.now
           issue := some { iss with dead := iss.dead.filter (fun d => !iss.undecided.contains d.1) ++ iss.undecided.map (fun t => (t, iss.at_, v t))
                                    at_ := iss.at_ + 1 } }

/-- Where the word `i` may run in every undecided thread but for its own condition, which `own` says fails there, executing it
gives each the verdict `v` (state before the chain, thread whose operands are taken, slot); with C = 0 that chain then closes. -/
def Fails (i : Instr) (c : Bool) (own : State → Nat → Prop) (v : State → Nat → Nat → Verdict) : Prop :=
  ∀ s iss, s.issue = some iss →
    (∀ t ∈ iss.members, iss.Undecided t → CanRun s.before t (wordLead s.before t i) (opInfo i) ∧ blocked s.before t i = false ∧
      own s.before (wordLead s.before t i)) →
    exec i s = .next (ended c (failed s iss (fun t => v s.before (wordLead s.before t i) iss.slot)))

/-- A word with no effect but its place in the chain. -/
def noEffect : Act := fun _ _ _ m => m

/-- v(d) := f(v(a)) with a tag, in every thread that has not failed; with U = 1 from the operands of the lowest active home lane
(07 R162). -/
def Unary (i : Instr) (c u : Bool) (d a : Nat) (tag : Tag) (f : Word → Word) : Prop :=
  Does i c always (perThread u (fun pre l t m => m.writeV t d (f (pre.v l a)) tag))

/-- v(d) := f(v(a), v(b)) with a tag, likewise. -/
def Binary (i : Instr) (c u : Bool) (d a b : Nat) (tag : Tag) (f : Word → Word → Word) : Prop :=
  Does i c always (perThread u (fun pre l t m => m.writeV t d (f (pre.v l a) (pre.v l b)) tag))

/-- v(d) := f(old v(d), v(a), v(b)) with a tag, likewise. -/
def Ternary (i : Instr) (c u : Bool) (d a b : Nat) (tag : Tag) (f : Word → Word → Word → Word) : Prop :=
  Does i c always (perThread u (fun pre l t m => m.writeV t d (f (pre.v l d) (pre.v l a) (pre.v l b)) tag))

/-- The register pair at d := f(pair at a, pair at b), tag INT, likewise. -/
def PairBinary (i : Instr) (c u : Bool) (d a b : Nat) (f : BitVec 64 → BitVec 64 → BitVec 64) : Prop :=
  Does i c always (perThread u (fun pre l t m => m.writeVV t d (f (pre.vv l a) (pre.vv l b)) tagInt))

/-- p(d) := f of the predicates and registers before the chain, likewise. -/
def Predicate (i : Instr) (c u : Bool) (d : Nat) (f : Chip → Nat → Bool) : Prop :=
  Does i c always (perThread u (fun pre l t m => m.writeP t d (f pre l)))

/-- A target at a level is one that 07 R144 allows, and can be told so: the page of the word before it is not held for fetch (17
R372). -/
def openTarget (e : State) (l : Nat) (lvl : Level) (pc : Addr) : Prop :=
  badTarget e e.now (e.now.coreOf l) (e.now.ctxOf l) lvl pc = none ∧ targetHeld e e.now (e.now.coreOf l) (e.now.ctxOf l) lvl pc = none

/-- The target of an indirect transfer at the thread's own level is one it may take. -/
def goodTarget (pc : Chip → Nat → Addr) (e : State) (l : Nat) : Prop := openTarget e l (e.now.thread l).level (pc e.now l)

/-- A collective over mask `m` with destination `d` (07 R139, R156): granted, or alone where the mask does not name the thread's own
lane, it takes its result; else it waits. -/
def Collective (i : Instr) (c : Bool) (m d : Nat) : Prop :=
  Does i c (fun e l => (e.grantOf l).isSome = true ∨ (e.now.readM (groupOf l) m).getLsbD (e.now.laneBit l) = false)
    (fun e _ live x => live.foldl (fun x t => x.takeGrant t d ((e.grantOf t).getD (collectiveResult e.now i [t] t))) x) ∧
  Fails i c (fun e l => e.grantOf l = none ∧ (e.now.readM (groupOf l) m).getLsbD (e.now.laneBit l) = true)
    (fun e _ slot => waitFor e slot (.collective m) 0 i true)

/-- An access of `size` bytes at `ea` is aligned, in the address space, and translates (11 R238). -/
def Reachable (e : State) (l : Nat) (ea : BitVec 64) (size : Nat) (write : Bool) : Prop :=
  ea.toNat % size = 0 ∧ ea.toNat < 2 ^ 55 ∧ ∃ p far dev, threadTrans e e.now l ea write = .ok p far dev

/-- A team-local access of `size` bytes at an offset passes the checks of its space (11 R238, R250); in the stash, with those of the
read that fills a line not yet filled. -/
def LocalReachable (e : State) (l : Nat) (space : Space) (base : Word) (off : Int) (size : Nat) (write : Bool) : Prop :=
  let k := e.now.team (e.now.teamOf l)
  off % size = 0 ∧ 0 ≤ off ∧ match space with
    | .loc => off + size ≤ k.spad ∧ k.inWindow off.toNat size = false
    | .rmt => off + size ≤ k.spad ∧ rmtZero base = true ∧ rmtX base < k.clw ∧ rmtY base < k.clh ∧
        (e.now.sibling l (rmtX base) (rmtY base)).isSome = true
    | .stash => ∃ w, k.stash = some w ∧ off + size ≤ (128 * w.lines : Nat) ∧ (∀ slot, stashTouch e l slot w off.toNat size = none) ∧
        Reachable e l (BitVec.ofNat 64 (w.base + off.toNat)) size write

/-- The event `i`, with no chain open and its own condition met, happens: executing it answers the state that `f` gives. -/
def Happens (i : Instr) (own : State → Prop) (f : State → State) : Prop :=
  ∀ s, s.issue = none → own s → exec i s = .next (f s)

/-- The event `i`, likewise, answers some next state that stands to the old one as `post` says. -/
def Leaves (i : Instr) (own : State → Prop) (post : State → State → Prop) : Prop :=
  ∀ s, s.issue = none → own s → ∃ t, exec i s = .next t ∧ post s t

/-- The mailbox command `i`, with the mailbox busy with its code outside the safe state and its own condition met, has the effect
`f` and is done (20 R441). -/
def Answers (i : Instr) (code : Nat) (own : State → Prop) (f : State → State) : Prop :=
  Happens i (fun s => s.board.mbstate = .busy ∧ s.board.mbrun.toNat = code ∧ s.board.safe = false ∧ own s)
    (fun s => { f s with board := { (f s).board with mbstate := .done, mbreason := 0 } })

/-- A machine `d` differs from `c` only in what a computing word may write: the registers, predicates and masks that `o` names, those of
the threads `ms` alone, the errors due to them, and the count of free values. -/
def OnlyResults (o : OpInfo) (ms : List Nat) (c d : Chip) : Prop :=
  (∀ x r, x ∉ ms ∨ r ∉ o.dests → d.reg x r = c.reg x r) ∧
  (∀ x k, x ∉ ms ∨ k ∉ o.preds → d.p x k = c.p x k) ∧
  (∀ g k, k ∉ o.masks → d.mask g k = c.mask g k) ∧
  (∀ x, { d.thread x with regs := [], preds := 0, due := none } = { c.thread x with regs := [], preds := 0, due := none }) ∧
  (∀ g, { d.group g with masks := [] } = { c.group g with masks := [] }) ∧
  { d with threads := [], groups := [], free := 0 } = { c with threads := [], groups := [], free := 0 }

/-- What every step keeps: memory and the mailbox buffer in their canonical form, the timer's residue below a step of its count (02
R28), the power words in their ranges (23 R475, R476). -/
def State.Sound (s : State) : Prop :=
  s.mem.wf = true ∧ s.board.mbbuf.wf = true ∧ s.board.accum < 3 ∧ (250 ≤ s.board.watts ∧ s.board.watts ≤ 1000) ∧
    (250 ≤ s.board.ceiling ∧ s.board.ceiling ≤ 1000) ∧ s.board.avg.toNat ≤ 1000

end Sys2Proof.Machine
end

