-- ==== Sys2Proof/WellFormed.lean ====
section
/-! DEFINITION. Which instructions a word can hold (03 R45 to R49): no reserved field value, no misaligned register
field, nothing in an unused part, and a listed CVT selector. -/

namespace Sys2Proof

/-- A CVT selector is one of the table of 06 R124 (03 R51). -/
def selectorListed : Instr → Bool
  | .cvt _ _ _ _ _ _ b => (cvtSelector b.toNat).isSome
  | _ => true

/-- The instruction is one that a word of 03 R43 encodes. -/
def wellFormed (i : Instr) : Bool :=
  hasWord i && selectorListed i && !reservedValue i && !misaligned i && !unusedNonzero i

end Sys2Proof
end

