-- ==== Sys2Proof/Certificates/Slice0/Obligations.lean ====
section
/-! DEFINITION. The statements for the provers. -/

open Sys2Proof Sys2Proof.Machine

/-- O1. Decoding the word of a well-formed instruction gives the instruction back, every operand at every value its field admits
(03 R43 to R53). An event has no word and is not well formed. -/
def Obligations.WordRoundTrip : Prop :=
  ∀ i : Instr, wellFormed i = true → ∃ w, encode i = some w ∧ decodeWord w = .ok i

/-- O2. The other direction: a word that decodes is the word of the instruction it decodes to, so no bit of a word is ignored, and
that instruction is well formed (03 R45, R46, R52). -/
def Obligations.DecodedWordsEncode : Prop :=
  ∀ (w : Word) (i : Instr), decodeWord w = .ok i → wellFormed i = true ∧ encode i = some w

/-- O3. Words written out from the forms and opcode tables of 03 R43 to R51 decode to the instructions they stand for: an IADD, an
IADDI, a MOVI, an LD, an ATOM.ADD, a BAR.ARV, a WAITC and an SRD.
A word whose major the opcode map does not list is refused with subcode 1 of ILLEGAL_OPCODE (03 R50, R52, R53). -/
def Obligations.SampleWordsDecode : Prop :=
  (decodeWord 0x01004103#32 = .ok (.iadd false false 1 2 3) ∧
  decodeWord 0xC80A0FFF#32 = .ok (.iaddi true true 5 3 0x3FF) ∧
  decodeWord 0x10FE8000#32 = .ok (.movi false false 127 0x08000) ∧
  decodeWord 0x2C6A4091#32 = .ok (.ld false false 1 5 36 2 17) ∧
  decodeWord 0x311410C6#32 = .ok (.atomAdd false false 1 1 0 4 3 6) ∧
  decodeWord 0x29010E07#32 = .ok (.barArv false 7 7) ∧
  decodeWord 0x38FC0FC0#32 = .ok (.waitc false 63 0 63 0) ∧
  decodeWord 0x3E000410#32 = .ok (.srd false 2 0x010)) ∧
  (∀ w : Word, fieldNat w.toNat 24 6 ∈ [0x00, 0x07, 0x0F, 0x1F, 0x28, 0x2B, 0x35, 0x3F] → decodeWord w = .error (.illegal 1))

/-- O4. Majors 0x01 and 0x02: the integer arithmetic of 05 R96 and R97, each result of 32 bits with tag INT. -/
def Obligations.IntegerWords : Prop :=
  ∀ (c u : Bool) (d a b : BitVec 7),
    Binary (.iadd c u d a b) c u d.toNat a.toNat b.toNat tagInt (fun x y => x + y) ∧
    Binary (.isub c u d a b) c u d.toNat a.toNat b.toNat tagInt (fun x y => x - y) ∧
    Binary (.iminS32 c u d a b) c u d.toNat a.toNat b.toNat tagInt (fun x y => BitVec.ofInt 32 (min x.toInt y.toInt)) ∧
    Binary (.imaxS32 c u d a b) c u d.toNat a.toNat b.toNat tagInt (fun x y => BitVec.ofInt 32 (max x.toInt y.toInt)) ∧
    Binary (.iminN32 c u d a b) c u d.toNat a.toNat b.toNat tagInt (fun x y => BitVec.ofNat 32 (min x.toNat y.toNat)) ∧
    Binary (.imaxN32 c u d a b) c u d.toNat a.toNat b.toNat tagInt (fun x y => BitVec.ofNat 32 (max x.toNat y.toNat)) ∧
    Binary (.iabsd c u d a b) c u d.toNat a.toNat b.toNat tagInt (fun x y => BitVec.ofInt 32 |x.toInt - y.toInt|) ∧
    Unary (.ineg c u d a) c u d.toNat a.toNat tagInt (fun x => BitVec.ofInt 32 (-x.toInt)) ∧
    Binary (.imul c u d a b) c u d.toNat a.toNat b.toNat tagInt (fun x y => BitVec.ofNat 32 (x.toNat * y.toNat)) ∧
    Binary (.imulhS32 c u d a b) c u d.toNat a.toNat b.toNat tagInt (fun x y => BitVec.ofInt 32 (x.toInt * y.toInt / 2 ^ 32)) ∧
    Binary (.imulhN32 c u d a b) c u d.toNat a.toNat b.toNat tagInt (fun x y => BitVec.ofNat 32 (x.toNat * y.toNat / 2 ^ 32)) ∧
    Ternary (.imad c u d a b) c u d.toNat a.toNat b.toNat tagInt (fun z x y => x * y + z) ∧
    Binary (.idivS32 c u d a b) c u d.toNat a.toNat b.toNat tagInt
      (fun x y => if y = 0 then BitVec.allOnes 32 else BitVec.ofInt 32 (x.toInt.tdiv y.toInt)) ∧
    Binary (.idivN32 c u d a b) c u d.toNat a.toNat b.toNat tagInt
      (fun x y => if y = 0 then BitVec.allOnes 32 else BitVec.ofNat 32 (x.toNat / y.toNat)) ∧
    Binary (.iremS32 c u d a b) c u d.toNat a.toNat b.toNat tagInt (fun x y => if y = 0 then x else BitVec.ofInt 32 (x.toInt.tmod y.toInt)) ∧
    Binary (.iremN32 c u d a b) c u d.toNat a.toNat b.toNat tagInt (fun x y => if y = 0 then x else BitVec.ofNat 32 (x.toNat % y.toNat))

/-- O5. Major 0x03: the 64-bit arithmetic on register pairs of 05 R98, with the counts of R101. -/
def Obligations.PairWords : Prop :=
  ∀ (c u : Bool) (d a b : BitVec 6) (p q : BitVec 7),
    PairBinary (.iaddD c u d a b) c u (2 * d.toNat) (2 * a.toNat) (2 * b.toNat) (fun x y => x + y) ∧
    PairBinary (.isubD c u d a b) c u (2 * d.toNat) (2 * a.toNat) (2 * b.toNat) (fun x y => x - y) ∧
    PairBinary (.imulD c u d a b) c u (2 * d.toNat) (2 * a.toNat) (2 * b.toNat) (fun x y => x * y) ∧
    Does (.imadwS32 c u d p q) c always (perThread u (fun pre l t m => m.writeVV t (2 * d.toNat)
      (BitVec.ofInt 64 ((pre.v l p.toNat).toInt * (pre.v l q.toNat).toInt + (pre.vv l (2 * d.toNat)).toInt)) tagInt)) ∧
    Does (.imadwN32 c u d p q) c always (perThread u (fun pre l t m => m.writeVV t (2 * d.toNat)
      (BitVec.ofNat 64 ((pre.v l p.toNat).toNat * (pre.v l q.toNat).toNat + (pre.vv l (2 * d.toNat)).toNat)) tagInt)) ∧
    Does (.shlD c u d a q) c always (perThread u (fun pre l t m => m.writeVV t (2 * d.toNat)
      (BitVec.ofNat 64 ((pre.vv l (2 * a.toNat)).toNat * 2 ^ (pre.v l q.toNat).toNat)) tagInt)) ∧
    Does (.shrD c u d a q) c always (perThread u (fun pre l t m => m.writeVV t (2 * d.toNat)
      (BitVec.ofNat 64 ((pre.vv l (2 * a.toNat)).toNat / 2 ^ (pre.v l q.toNat).toNat)) tagInt)) ∧
    Does (.sarD c u d a q) c always (perThread u (fun pre l t m => m.writeVV t (2 * d.toNat)
      (BitVec.ofInt 64 ((pre.vv l (2 * a.toNat)).toInt / 2 ^ (pre.v l q.toNat).toNat)) tagInt))

/-- O6. Majors 0x04 and 0x05: logic, moves, shifts and bit counts (05 R99 to R101). MOV copies the bits and the tag of its source,
and the reference a pending handle stands for (05 R92). -/
def Obligations.LogicWords : Prop :=
  ∀ (c u : Bool) (d a b : BitVec 7),
    Binary (.and c u d a b) c u d.toNat a.toNat b.toNat tagInt (fun x y => x &&& y) ∧
    Binary (.or c u d a b) c u d.toNat a.toNat b.toNat tagInt (fun x y => x ||| y) ∧
    Binary (.xor c u d a b) c u d.toNat a.toNat b.toNat tagInt (fun x y => x ^^^ y) ∧
    Binary (.andn c u d a b) c u d.toNat a.toNat b.toNat tagInt (fun x y => x &&& ~~~y) ∧
    Binary (.orn c u d a b) c u d.toNat a.toNat b.toNat tagInt (fun x y => x ||| ~~~y) ∧
    Binary (.xnor c u d a b) c u d.toNat a.toNat b.toNat tagInt (fun x y => ~~~(x ^^^ y)) ∧
    Unary (.not c u d a) c u d.toNat a.toNat tagInt (fun x => ~~~x) ∧
    Does (.mov c u d a) c always (perThread u (fun pre l t m => m.setReg t d.toNat
      { bits := pre.v l a.toNat, tag := (pre.reg l a.toNat).tag, wait := (pre.reg l a.toNat).wait, poison := none })) ∧
    Binary (.shl c u d a b) c u d.toNat a.toNat b.toNat tagInt (fun x y => BitVec.ofNat 32 (x.toNat * 2 ^ y.toNat)) ∧
    Binary (.shr c u d a b) c u d.toNat a.toNat b.toNat tagInt (fun x y => BitVec.ofNat 32 (x.toNat / 2 ^ y.toNat)) ∧
    Binary (.sar c u d a b) c u d.toNat a.toNat b.toNat tagInt (fun x y => BitVec.ofInt 32 (x.toInt / 2 ^ y.toNat)) ∧
    Binary (.rotl c u d a b) c u d.toNat a.toNat b.toNat tagInt (fun x y => x.rotateLeft (y.toNat % 32)) ∧
    Unary (.popc c u d a) c u d.toNat a.toNat tagInt (fun x => BitVec.ofNat 32 (popCount x)) ∧
    Unary (.clz c u d a) c u d.toNat a.toNat tagInt (fun x => BitVec.ofNat 32 (leadingZeros x)) ∧
    Unary (.brev c u d a) c u d.toNat a.toNat tagInt bitReverse ∧
    Unary (.ffs c u d a) c u d.toNat a.toNat tagInt findFirst

/-- O7. What the bit counts of 05 R100 are: POPC the number of 1 bits; CLZ the number of zero bits above the most significant 1, 32
for 0; BREV moves bit j to bit 31 − j; FFS the index of the least significant 1, all ones for 0. -/
def Obligations.BitCounts : Prop :=
  ∀ x : Word,
    popCount x = (Finset.univ.filter (fun j : Fin 32 => x.getLsbD j = true)).card ∧
    leadingZeros x = (if x = 0 then 32 else 31 - Nat.log2 x.toNat) ∧
    (∀ j < 32, (bitReverse x).getLsbD (31 - j) = x.getLsbD j) ∧
    (x = 0 → findFirst x = BitVec.allOnes 32) ∧
    (∀ j < 32, x.getLsbD j = true → (∀ k < j, x.getLsbD k = false) → findFirst x = BitVec.ofNat 32 j)

/-- O8. Major 0x06: bit fields, byte permutation, funnel shift and saturating sums (05 R102). -/
def Obligations.FieldWords : Prop :=
  ∀ (c u : Bool) (d a b : BitVec 7),
    Binary (.bfxS32 c u d a b) c u d.toNat a.toNat b.toNat tagInt (fieldExtract true) ∧
    Binary (.bfxN32 c u d a b) c u d.toNat a.toNat b.toNat tagInt (fieldExtract false) ∧
    Ternary (.bfi c u d a b) c u d.toNat a.toNat b.toNat tagInt fieldInsert ∧
    Ternary (.perm c u d a b) c u d.toNat a.toNat b.toNat tagInt permute ∧
    Ternary (.shf c u d a b) c u d.toNat a.toNat b.toNat tagInt
      (fun z x y => BitVec.ofNat 32 ((z.toNat * 2 ^ 32 + x.toNat) / 2 ^ (y.toNat % 32))) ∧
    Binary (.iaddsS32 c u d a b) c u d.toNat a.toNat b.toNat tagInt
      (fun x y => BitVec.ofInt 32 (max (-(2 ^ 31)) (min (2 ^ 31 - 1) (x.toInt + y.toInt)))) ∧
    Binary (.isubsS32 c u d a b) c u d.toNat a.toNat b.toNat tagInt
      (fun x y => BitVec.ofInt 32 (max (-(2 ^ 31)) (min (2 ^ 31 - 1) (x.toInt - y.toInt)))) ∧
    Binary (.iaddsN32 c u d a b) c u d.toNat a.toNat b.toNat tagInt (fun x y => BitVec.ofNat 32 (min (2 ^ 32 - 1) (x.toNat + y.toNat)))

/-- O9. The bits of BFX, BFI and PERM (05 R102), by the position and length fields of the control word: a field of length 0 reads
0; bit j of a field is the operand's bit pos + j, beyond bit 31 the sign bit for .s32 and 0 for .n32, and above the field the
result repeats the field's top bit for .s32; BFI replaces exactly the field's bits; PERM takes each byte from the selected byte of
the operand or the old destination. -/
def Obligations.FieldBits : Prop :=
  ∀ (z x y : Word) (j : Nat), j < 32 →
    (fieldLen y = 0 → fieldExtract true x y = 0 ∧ fieldExtract false x y = 0) ∧
    (j < fieldLen y → (fieldExtract false x y).getLsbD j = (decide (fieldPos y + j ≤ 31) && x.getLsbD (fieldPos y + j))) ∧
    (j < fieldLen y → (fieldExtract true x y).getLsbD j = x.getLsbD (min 31 (fieldPos y + j))) ∧
    (fieldLen y ≤ j → (fieldExtract false x y).getLsbD j = false) ∧
    (0 < fieldLen y → fieldLen y ≤ j → (fieldExtract true x y).getLsbD j = (fieldExtract true x y).getLsbD (fieldLen y - 1)) ∧
    (fieldInsert z x y).getLsbD j =
      (if fieldPos y ≤ j ∧ j < fieldPos y + fieldLen y then x.getLsbD (j - fieldPos y) else z.getLsbD j) ∧
    (permute z x y).getLsbD j =
      (let n := fieldNat y.toNat (4 * (j / 8)) 4
       let src := if n % 8 < 4 then x else z
       if 8 ≤ n then src.getLsbD (8 * (n % 4) + 7) else src.getLsbD (8 * (n % 4) + j % 8))

/-- O10. Majors 0x08 to 0x12: immediate arithmetic, address formation, constants and the constant bank (05 R103 to R105). -/
def Obligations.ImmediateWords : Prop :=
  ∀ (c u : Bool) (d a : BitVec 7) (p q : BitVec 6) (imm : BitVec 10) (sc : BitVec 2) (n : BitVec 6) (wide : BitVec 17),
    Unary (.iaddi c u d a imm) c u d.toNat a.toNat tagInt (fun x => x + BitVec.ofInt 32 imm.toInt) ∧
    Unary (.andi c u d a imm) c u d.toNat a.toNat tagInt (fun x => x &&& BitVec.ofInt 32 imm.toInt) ∧
    Unary (.ori c u d a imm) c u d.toNat a.toNat tagInt (fun x => x ||| BitVec.ofInt 32 imm.toInt) ∧
    Unary (.xori c u d a imm) c u d.toNat a.toNat tagInt (fun x => x ^^^ BitVec.ofInt 32 imm.toInt) ∧
    Unary (.imuli c u d a imm) c u d.toNat a.toNat tagInt (fun x => x * BitVec.ofInt 32 imm.toInt) ∧
    Unary (.shfi c u d a sc n) c u d.toNat a.toNat tagInt (fun x =>
      if sc = 0 then BitVec.ofNat 32 (x.toNat * 2 ^ n.toNat) else if sc = 1 then BitVec.ofNat 32 (x.toNat / 2 ^ n.toNat)
      else if sc = 2 then BitVec.ofInt 32 (x.toInt / 2 ^ n.toNat) else x.rotateLeft (n.toNat % 32)) ∧
    Does (.leai c u p q imm) c always (perThread u (fun pre l t m =>
      m.writeVV t (2 * p.toNat) (pre.vv l (2 * q.toNat) + BitVec.ofInt 64 imm.toInt) tagInt)) ∧
    Does (.movi c u d wide) c always (perThread u (fun _ _ t m => m.writeV t d.toNat (BitVec.ofInt 32 wide.toInt) tagRaw)) ∧
    Unary (.movhi c u d wide) c u d.toNat d.toNat tagRaw (fun z => BitVec.ofNat 32 (wide.toNat * 2 ^ 15 + z.toNat % 2 ^ 15)) ∧
    Does (.kld c u d imm) c always (perThread u (fun pre l t m =>
      m.writeV t d.toNat (Sparse.get 0 (pre.team (pre.teamOf l)).kbank imm.toNat) tagRaw))

/-- O11. Majors 0x13 to 0x16: compares, predicate logic and selection (05 R106 to R109). A compare combines its condition with the
predicate's value before the chain.
The conditions of ISETP and FSETP and the combine operations (05 R106, R107). -/
def Obligations.PredicateWords : Prop :=
  (∀ (c u : Bool) (f : BitVec 3) (e : BitVec 2) (p q r : BitVec 3) (d a b : BitVec 7) (k : BitVec 1),
    Predicate (.isetp c u f e p a b) c u p.toNat (fun pre l => combine e (pre.p l p.toNat) (condInt f (pre.v l a.toNat) (pre.v l b.toNat))) ∧
    Predicate (.fsetp c u f e p a b) c u p.toNat (fun pre l => combine e (pre.p l p.toNat) (condFloat f (pre.v l a.toNat) (pre.v l b.toNat))) ∧
    Predicate (.pand c u p q r) c u p.toNat (fun pre l => pre.p l q.toNat && pre.p l r.toNat) ∧
    Predicate (.por c u p q r) c u p.toNat (fun pre l => pre.p l q.toNat || pre.p l r.toNat) ∧
    Predicate (.pxor c u p q r) c u p.toNat (fun pre l => pre.p l q.toNat != pre.p l r.toNat) ∧
    Predicate (.pnot c u p q) c u p.toNat (fun pre l => !pre.p l q.toNat) ∧
    Predicate (.pset c u p k) c u p.toNat (fun _ _ => decide (k = 1)) ∧
    Does (.p2v c u d) c always (perThread u (fun pre l t m => m.writeV t d.toNat ((pre.thread l).preds.setWidth 32) tagInt)) ∧
    Does (.v2p c u a) c always (perThread u (fun pre l t m => m.setThread t { m.thread t with preds := (pre.v l a.toNat).setWidth 8 })) ∧
    Does (.selp c u d a b p) c always (perThread u (fun pre l t m =>
      if pre.p l p.toNat = true then m.writeV t d.toNat (pre.v l a.toNat) (pre.reg l a.toNat).tag
      else m.writeV t d.toNat (pre.v l b.toNat) (pre.reg l b.toNat).tag))) ∧
  (∀ (x y : Word) (q b : Bool),
    condInt 0 x y = decide (x = y) ∧ condInt 1 x y = decide (x ≠ y) ∧ condInt 2 x y = decide (x.toInt < y.toInt) ∧
    condInt 3 x y = decide (x.toInt ≤ y.toInt) ∧ condInt 4 x y = decide (x.toNat < y.toNat) ∧ condInt 5 x y = decide (x.toNat ≤ y.toNat) ∧
    condInt 6 x y = decide (x &&& y ≠ 0) ∧ condInt 7 x y = decide (x &&& y = 0) ∧
    combine 0 q b = b ∧ combine 1 q b = (q && b) ∧ combine 2 q b = (q || b) ∧ combine 3 q b = (q != b) ∧
    (((f32 x).isNan || (f32 y).isNan) = true → condFloat 0 x y = false ∧ condFloat 1 x y = false ∧ condFloat 2 x y = false ∧ condFloat 3 x y = false ∧
      condFloat 4 x y = true ∧ condFloat 5 x y = false ∧ condFloat 6 x y = true ∧ condFloat 7 x y = true) ∧
    (((f32 x).isNan || (f32 y).isNan) = false → condFloat 4 x y = false ∧ condFloat 5 x y = true ∧ condFloat 6 x y = condFloat 1 x y ∧
      condFloat 7 x y = condFloat 2 x y ∧ condFloat 1 x y = (!condFloat 0 x y)))

/-- O12. Major 0x17: mask registers, once for each group that has threads in the issue group (05 R110, R111). -/
def Obligations.MaskWords : Prop :=
  ∀ (c u : Bool) (d a b : BitVec 4) (v : BitVec 7),
    Does (.mand c u d a b) c always (oncePerGroup (fun pre g _ _ m => m.writeM g d.toNat (pre.readM g a.toNat &&& pre.readM g b.toNat))) ∧
    Does (.mor c u d a b) c always (oncePerGroup (fun pre g _ _ m => m.writeM g d.toNat (pre.readM g a.toNat ||| pre.readM g b.toNat))) ∧
    Does (.mxor c u d a b) c always (oncePerGroup (fun pre g _ _ m => m.writeM g d.toNat (pre.readM g a.toNat ^^^ pre.readM g b.toNat))) ∧
    Does (.mnot c u d a) c always (oncePerGroup (fun pre g _ _ m => m.writeM g d.toNat (~~~pre.readM g a.toNat))) ∧
    Does (.mfromv c u d v) c always (oncePerGroup (fun pre g ts _ m => m.writeM g d.toNat (pre.v (ts.headD 0) v.toNat))) ∧
    Does (.mself c u d) c always (oncePerGroup (fun pre g ts _ m => m.writeM g d.toNat (pre.maskOfThreads ts))) ∧
    Does (.mtov c u v a) c always (oncePerGroup (fun pre g _ live m =>
      live.foldl (fun m t => m.writeV t v.toNat (pre.readM g a.toNat) tagInt) m)) ∧
    Does (.mpopc c u v a) c always (oncePerGroup (fun pre g _ live m =>
      live.foldl (fun m t => m.writeV t v.toNat (BitVec.ofNat 32 (popCount (pre.readM g a.toNat))) tagInt) m))

/-- O13. Majors 0x18 to 0x1B: the floating words, each rounded once to nearest even (06 R112, R115 to R122). -/
def Obligations.FloatWords : Prop :=
  ∀ (c u : Bool) (d a b : BitVec 7),
    Binary (.fadd c u d a b) c u d.toNat a.toNat b.toNat tagF32 (fun x y => toF32 (Val.add (f32 x) (f32 y))) ∧
    Binary (.fsub c u d a b) c u d.toNat a.toNat b.toNat tagF32 (fun x y => toF32 (Val.add (f32 x) (Val.negate (f32 y)))) ∧
    Binary (.fmul c u d a b) c u d.toNat a.toNat b.toNat tagF32 (fun x y => toF32 (Val.mul (f32 x) (f32 y))) ∧
    Binary (.fdiv c u d a b) c u d.toNat a.toNat b.toNat tagF32 (fun x y => toF32 (Val.div (f32 x) (f32 y))) ∧
    Unary (.fsqrt c u d a) c u d.toNat a.toNat tagF32 (fun x => toF32 (Val.sqrt (f32 x))) ∧
    Binary (.fmin c u d a b) c u d.toNat a.toNat b.toNat tagF32 fminWord ∧
    Binary (.fmax c u d a b) c u d.toNat a.toNat b.toNat tagF32 fmaxWord ∧
    Unary (.fabs c u d a) c u d.toNat a.toNat tagF32 (fun x => x &&& 0x7FFFFFFF) ∧
    Unary (.fneg c u d a) c u d.toNat a.toNat tagF32 (fun x => x ^^^ 0x80000000) ∧
    Binary (.fcpsgn c u d a b) c u d.toNat a.toNat b.toNat tagF32 (fun x y => (x &&& 0x7FFFFFFF) ||| (y &&& 0x80000000)) ∧
    Ternary (.fma c u d a b) c u d.toNat a.toNat b.toNat tagF32 (fun z x y => toF32 (Val.add (Val.mul (f32 x) (f32 y)) (f32 z))) ∧
    Ternary (.fms c u d a b) c u d.toNat a.toNat b.toNat tagF32 (fun z x y => toF32 (Val.add (Val.mul (f32 x) (f32 y)) (Val.negate (f32 z)))) ∧
    Ternary (.fnma c u d a b) c u d.toNat a.toNat b.toNat tagF32
      (fun z x y => toF32 (Val.add (Val.negate (Val.mul (f32 x) (f32 y))) (Val.negate (f32 z)))) ∧
    Ternary (.fnms c u d a b) c u d.toNat a.toNat b.toNat tagF32 (fun z x y => toF32 (Val.add (Val.negate (Val.mul (f32 x) (f32 y))) (f32 z))) ∧
    Unary (.frcp c u d a) c u d.toNat a.toNat tagF32 frcp ∧
    Unary (.frsq c u d a) c u d.toNat a.toNat tagF32 frsq ∧
    Unary (.fsqrta c u d a) c u d.toNat a.toNat tagF32 fsqrta ∧
    Unary (.fex2 c u d a) c u d.toNat a.toNat tagF32 fex2 ∧
    Unary (.flg2 c u d a) c u d.toNat a.toNat tagF32 flg2 ∧
    Unary (.fsinp c u d a) c u d.toNat a.toNat tagF32 fsinp ∧
    Unary (.fcosp c u d a) c u d.toNat a.toNat tagF32 fcosp ∧
    Unary (.ftanh c u d a) c u d.toNat a.toNat tagF32 ftanh ∧
    Unary (.frintRn c u d a) c u d.toNat a.toNat tagF32 (roundWord .rn) ∧
    Unary (.frintRz c u d a) c u d.toNat a.toNat tagF32 (roundWord .rz) ∧
    Unary (.frintRd c u d a) c u d.toNat a.toNat tagF32 (roundWord .rd) ∧
    Unary (.frintRu c u d a) c u d.toNat a.toNat tagF32 (roundWord .ru) ∧
    Unary (.fclass c u d a) c u d.toNat a.toNat tagInt classMask ∧
    Binary (.fscalb c u d a b) c u d.toNat a.toNat b.toNat tagF32 scaleWord

/-- O14. Majors 0x1C to 0x1E: conversions, packing and unpacking, dot products and packed arithmetic (06 R123 to R130). -/
def Obligations.PackedWords : Prop :=
  ∀ (c u : Bool) (sc : BitVec 1) (r j : BitVec 2) (d a b : BitVec 7),
    Does (.cvt c u sc r d a b) c always (perThread u (fun pre l t m =>
      m.writeV t d.toNat (convert b (modeOf r) (decide (sc = 1)) (pre.v l a.toNat)).1 (convert b (modeOf r) (decide (sc = 1)) (pre.v l a.toNat)).2)) ∧
    Binary (.pkbf c u d a b) c u d.toNat a.toNat b.toNat tagBf16
      (fun x y => BitVec.ofNat 32 (roundTag tagBf16 .rn false (f32 x) + 2 ^ 16 * roundTag tagBf16 .rn false (f32 y))) ∧
    Binary (.pke4Lo c u d a b) c u d.toNat a.toNat b.toNat tagE4m3 (packLow tagE4m3 0) ∧
    Ternary (.pke4Hi c u d a b) c u d.toNat a.toNat b.toNat tagE4m3 (packHigh tagE4m3) ∧
    Binary (.pke5Lo c u d a b) c u d.toNat a.toNat b.toNat tagE5m2 (packLow tagE5m2 0) ∧
    Ternary (.pke5Hi c u d a b) c u d.toNat a.toNat b.toNat tagE5m2 (packHigh tagE5m2) ∧
    Binary (.pkpsLo c u d a b) c u d.toNat a.toNat b.toNat tagPs8 (packLow tagPs8 0x77) ∧
    Ternary (.pkpsHi c u d a b) c u d.toNat a.toNat b.toNat tagPs8 (packHigh tagPs8) ∧
    Does (.unpk c u d a j) c always (perThread u (fun pre l t m =>
      m.writeV t d.toNat (unpack (pre.reg l a.toNat) j.toNat).1 (unpack (pre.reg l a.toNat) j.toNat).2)) ∧
    Ternary (.dot2Bf16 c u d a b) c u d.toNat a.toNat b.toNat tagF32 (fun z x y => toF32 (Val.add (f32 z) (dotSum tagBf16 2 x y))) ∧
    Ternary (.dot4E4m3 c u d a b) c u d.toNat a.toNat b.toNat tagF32 (fun z x y => toF32 (Val.add (f32 z) (dotSum tagE4m3 4 x y))) ∧
    Ternary (.dot4E5m2 c u d a b) c u d.toNat a.toNat b.toNat tagF32 (fun z x y => toF32 (Val.add (f32 z) (dotSum tagE5m2 4 x y))) ∧
    Ternary (.dot4Ps8 c u d a b) c u d.toNat a.toNat b.toNat tagF32 (fun z x y => toF32 (Val.add (f32 z) (dotSum tagPs8 4 x y))) ∧
    Ternary (.dot4S8 c u d a b) c u d.toNat a.toNat b.toNat tagInt (fun z x y => BitVec.ofInt 32 (z.toInt + dotInt true x y)) ∧
    Ternary (.dot4N8 c u d a b) c u d.toNat a.toNat b.toNat tagInt (fun z x y => BitVec.ofInt 32 (z.toNat + dotInt false x y)) ∧
    Binary (.hadd2Bf16 c u d a b) c u d.toNat a.toNat b.toNat tagBf16 (pairwise Val.add) ∧
    Binary (.hmul2Bf16 c u d a b) c u d.toNat a.toNat b.toNat tagBf16 (pairwise Val.mul)

/-- O15. F32 registers hold what the arithmetic reads: the value of a word that is not NaN, encoded again, is that word, and every
NaN encodes to the default NaN (04 R66, R69). -/
def Obligations.FloatRoundTrip : Prop :=
  ∀ x : Word, ((f32 x).isNan = false → toF32 (f32 x) = x) ∧ ((f32 x).isNan = true → toF32 (f32 x) = 0x7FC00000)


/-- O16. Major 0x20 and 0x22: BRM takes its first pair that holds, else its default; JMP and CALL go to their own packet plus 12 times
a signed packet offset; JMPR, CALLR and RET go to the address in a register pair; EXIT ends the thread; CALL and CALLR write the
address of the word after the chain (07 R144 to R149).
The offsets and the link value of those words, for an open chain whose first word stands in slot k of its packet: the
packet is 4 k bytes before the chain, an offset counts packets of 12 bytes, a branch takes offset j from the fields t0, t1, t0, t1 of
its target words, and the link value is the address after the chain's words in memory (03 R35, 07 R145 to R147). -/
def Obligations.TransferWords : Prop :=
  (∀ (u : Bool) (n f : BitVec 2) (w x y z : BitVec 4) (imm : BitVec 17) (d a : BitVec 6),
    Jumps (.brm u n f w x y z) false (fun e l => ¬ (branchTaken e.now l n [w, x, y, z] = none ∧ f = 2)) noEffect
      (fun e all t => match branchTaken e.now (if u = true then all.headD t else t) n [w, x, y, z] with
        | some j => some (.to (packetTarget e (branchOffset e j)))
        | none => if f = 1 then some .exit else none) ∧
    Jumps (.jmp u imm) false always noEffect (fun e _ _ => some (.to (packetTarget e imm))) ∧
    Jumps (.call u d imm) false always (link u d) (fun e _ _ => some (.to (packetTarget e imm))) ∧
    Jumps (.jmpr a) false (goodTarget (fun m l => m.vv l (2 * a.toNat))) noEffect (fun e _ t => some (.to (e.now.vv t (2 * a.toNat)))) ∧
    Jumps (.callr d a) false (goodTarget (fun m l => m.vv l (2 * a.toNat))) (link false d) (fun e _ t => some (.to (e.now.vv t (2 * a.toNat)))) ∧
    Jumps (.ret a) false (goodTarget (fun m l => m.vv l (2 * a.toNat))) noEffect (fun e _ t => some (.to (e.now.vv t (2 * a.toNat)))) ∧
    Jumps .exit false always noEffect (fun _ _ _ => some .exit)) ∧
  (∀ (s : State) (iss : Issue) (code : Fetched) (w : ChainWord) (t0 t1 : Word) (imm : BitVec 17),
    s.issue = some iss → iss.code = some code → code.words[0]? = some w → code.targets = [t0, t1] →
    packetTarget s imm = iss.pc - BitVec.ofNat 64 (4 * w.slot) + BitVec.ofInt 64 (12 * imm.toInt) ∧
    (branchOffset s 0).toNat = t0.toNat / 2 ^ 12 % 2 ^ 12 ∧ (branchOffset s 1).toNat = t0.toNat % 2 ^ 12 ∧
    (branchOffset s 2).toNat = t1.toNat / 2 ^ 12 % 2 ^ 12 ∧ (branchOffset s 3).toNat = t1.toNat % 2 ^ 12 ∧
    iss.next = iss.pc + BitVec.ofNat 64 (4 * code.len))

/-- O17. Traps that a word itself makes: TRAP commits its chain and then traps, BKPT and a TGT outside its place fail, a BRM with
default trap fails with TRAPINFO0 = 0x80 where no pair holds, and a bad target of JMPR, CALLR or RET fails with CHAIN_FAULT (03 R489,
07 R144, R146, R154); a target whose preceding word lies on a page that is held for fetch holds the thread (17 R372). And what becomes of a thread that executes a BKPT or such a TGT, whose own effect is the trap: it stands at its
context's trap vector, at supervisor level, with TRAPPC the chain's first word (07 R154, 19 R425). -/
def Obligations.TrappingWords : Prop :=
  (∀ (i : Instr) (g h : BitVec 12) (cause sub t p : Nat) (raw : Word) (s : State) (iss : Issue),
    let e := s.before
    let th := e.now.thread t
    (i = .bkpt false ∧ cause = causeBreak ∧ sub = 0 ∧ raw = 0) ∨ (i = .tgt g h ∧ cause = causeChain ∧ sub = 5 ∧ raw = iss.raw) →
    s.issue = some iss → iss.members = [t] → iss.dead = [] → th.present = true → th.place = .pen p → th.patched = none →
    CanRun e t t (opInfo i) → blocked e t i = false → th.level ≠ .firmware → trapRefused e e.now t iss.pc = false → e.now.slots = [] →
    ∃ s', exec i s = .next s' ∧ s'.issue = none ∧
      let y := s'.now.thread t
      y.level = .supervisor ∧ y.pc = (e.now.ctx (e.now.ctxOf t)).trapvec ∧
        y.trap = { pc := iss.pc, cause := BitVec.ofNat 32 (cause + 256 * th.level.code + if th.cont = true then 1024 else 0)
                   info0 := raw, info1 := BitVec.ofNat 32 (iss.slot + 16 * sub), info2 := 0, info3 := 0 }) ∧
  ∀ (c u : Bool) (n : BitVec 2) (w x y z : BitVec 4) (b : BitVec 7) (d a : BitVec 6) (g h : BitVec 12) (k : Nat),
    Jumps (.trap c b) c always noEffect (fun e _ _ => some (.trapNext (b.setWidth 32) (BitVec.ofNat 32 ((e.issue.map Issue.slot).getD 0)) 0 0)) ∧
    Fails (.bkpt c) c always (fun _ _ slot => trapAt slot causeBreak 0 0 0) ∧
    Fails (.tgt g h) false always (fun e _ slot => .trap causeChain ((e.issue.map Issue.raw).getD 0) (BitVec.ofNat 32 (slot + 16 * 5)) 0 0) ∧
    Fails (.brm u n 2 w x y z) false (fun e l => branchTaken e.now l n [w, x, y, z] = none)
      (fun _ _ slot => .trap causeTrap 0x80 (BitVec.ofNat 32 slot) 0 0) ∧
    (∀ i ∈ [Instr.jmpr a, .callr d a, .ret a],
      Fails i false (fun e l => badTarget e e.now (e.now.coreOf l) (e.now.ctxOf l) (e.now.thread l).level (e.now.vv l (2 * a.toNat)) = some k)
        (fun e l slot => .trap causeChain ((e.issue.map Issue.raw).getD 0) (BitVec.ofNat 32 (slot + 16 * k))
          ((e.now.vv l (2 * a.toNat)).extractLsb' 0 32) ((e.now.vv l (2 * a.toNat)).extractLsb' 32 32)) ∧
      (∀ va, Fails i false (fun e l =>
          badTarget e e.now (e.now.coreOf l) (e.now.ctxOf l) (e.now.thread l).level (e.now.vv l (2 * a.toNat)) = none ∧
          targetHeld e e.now (e.now.coreOf l) (e.now.ctxOf l) (e.now.thread l).level (e.now.vv l (2 * a.toNat)) = some va)
        (fun _ _ _ => .hold va)))

/-- O18. Pacing, the clock and continuation (07 R155): NOP does nothing; PAUSE paces the thread for at most 65535 core cycles; YIELD
lets the other pens that could issue do so first, for at most FAIRLIM cycles; FFENCE discards the croft's decoded words of the
context; CLKRD reads the core clock; RESUME leaves continuation for FPC, and traps outside it. -/
def Obligations.PacingWords : Prop :=
  ∀ (c : Bool) (a : BitVec 7) (d : BitVec 6),
    Does (.nop c) c always noEffect ∧
    Does (.pause c a) c always (perThread false (fun pre l t m => m.setThread t { m.thread t with paused := min (pre.v l a.toNat).toNat 65535 })) ∧
    Does (.yield c) c always (fun e _ live m => live.foldl (fun m t =>
      let others := ((e.now.croft (m.croftOf t)).pens.map (·.1)).filter
        (fun p => decide (e.now.penOfThread t ≠ some p) && penQualifies e (m.croftOf t) p)
      m.setThread t { m.thread t with yielding := if others.isEmpty = true then none else some (others, (m.ctx (m.ctxOf t)).fairlim) }) m) ∧
    Does (.ffence c) c always (fun _ _ live m => live.foldl (fun m t => m.setCroft (m.croftOf t) { m.croft (m.croftOf t) with
      pens := Sparse.mapVals (fun _ p => if p.ctx = m.ctxOf t then { p with code := none } else p) (m.croft (m.croftOf t)).pens }) m) ∧
    Does (.clkrd c d) c always (perThread false (fun pre l t m =>
      m.writeVV t (2 * d.toNat) (BitVec.ofNat 64 (pre.core (pre.coreOf l)).clk) tagInt)) ∧
    Jumps (.resume c) c (fun e l => (e.now.thread l).cont = true ∧ goodTarget (fun m x => (m.thread x).fpc) e l) noEffect
      (fun e _ t => some (.resume (e.now.thread t).fpc)) ∧
    Fails (.resume c) c (fun e l => (e.now.thread l).cont = false) (fun _ _ slot => trapAt slot causeHandle 2 0 0)

/-- O19. SPAWN and SPAWNF place an argument in a bin once for each visible thread (07 R151, R152, 21 R456): a misaligned or
out-of-range entry gives status 1 and no free bin status 2, both without a placement; else status 0, the argument and level being
added to the bin of that team and entry, which SPAWNF closes at once and a full bin closes of itself; a shadow's lane is added beside
its thread's. So one thread alone in its issue group, with an aligned entry and a bin that is open for it, or else a free one, completes:
its argument stands in that bin, at the next home lane, its earlier stores are released, and its register holds 0 with tag INT. -/
def Obligations.SpawnWords : Prop :=
  ∀ (c : Bool) (d b : BitVec 7) (a : BitVec 6),
    Does (.spawn c d a b) c always (once false (fun e t takers m =>
      spawnOne false (fun x => e.now.vv x (2 * a.toNat)) (fun x => e.now.v x b.toNat) d.toNat e t takers m)) ∧
    Does (.spawnf c d a b) c always (once false (fun e t takers m =>
      spawnOne true (fun x => e.now.vv x (2 * a.toNat)) (fun x => e.now.v x b.toNat) d.toNat e t takers m)) ∧
    (∀ (fast : Bool) (entry : Nat → Addr) (arg : Nat → Word) (r : Nat) (e : State) (t : Nat) (m : Chip),
      ((entry t).toNat % 4 ≠ 0 ∨ 2 ^ 55 ≤ (entry t).toNat → spawnOne fast entry arg r e t [t] m = m.writeV t r 1 tagInt) ∧
      ((entry t).toNat % 4 = 0 → (entry t).toNat < 2 ^ 55 →
        (∀ p ∈ (m.core (m.coreOf t)).bins, p.2.opens (m.teamOf t) (entry t) = false) →
        (∀ i < Config.bins, (Sparse.find? (m.core (m.coreOf t)).bins i).isSome = true) →
        spawnOne fast entry arg r e t [t] m = m.writeV t r 2 tagInt)) ∧
    (∀ (fast : Bool) (s : State) (iss : Issue) (t i : Nat) (x : Bin),
      let w := if fast = true then Instr.spawnf c d a b else .spawn c d a b
      let e := s.before
      let m := s.now
      let bins := (m.core (m.coreOf t)).bins
      let entry := e.now.vv t (2 * a.toNat)
      let time := (m.ctx (m.ctxOf t)).bintime
      let mine := (e.now.v t b.toNat, (m.thread t).level)
      let args := x.args ++ (if m.guarded t = true then [mine, mine] else [mine])
      let y := { x with args := args, closed := x.closed || fast || decide (32 ≤ args.length), hurried := x.hurried || fast }
      Runs w always s iss → iss.members = [t] → iss.dead = [] → e.now.visible t = true → entry.toNat % 4 = 0 → entry.toNat < 2 ^ 55 →
      (List.find? (fun p : Nat × Bin => p.2.opens (m.teamOf t) entry) bins = some (i, x) ∨
        ((∀ p ∈ bins, p.2.opens (m.teamOf t) entry = false) ∧ i < Config.bins ∧ Sparse.find? bins i = none ∧
          (∀ j < i, (Sparse.find? bins j).isSome = true) ∧ x = { team := m.teamOf t, entry := entry, timer := time, closed := decide (time = 0) })) →
      exec w s = .next (ended c (carried s iss
        ((releaseLines e (m.setCore (m.coreOf t) { m.core (m.coreOf t) with bins := Sparse.set bins i y }) (m.coreOf t) [t] m.nextId).writeV
          t d.toNat 0 tagInt))))

/-- O20. Majors 0x26 and 0x27, and TTRN: a thread whose own lane the mask does not name, and one whose participation set has
arrived, takes its result; any other waits, its word having arrived (07 R139, R156, 15 R351). -/
def Obligations.CollectiveWords : Prop :=
  ∀ (c : Bool) (d a : BitVec 7) (q p : BitVec 3) (n : BitVec 1) (td ta : BitVec 4) (m : BitVec 4),
    Collective (.shflIdx c d a m) c m.toNat d.toNat ∧ Collective (.shflXor c d a m) c m.toNat d.toNat ∧
    Collective (.shflUp c d a m) c m.toNat d.toNat ∧ Collective (.shflDn c d a m) c m.toNat d.toNat ∧
    Collective (.voteAll c q n p m) c m.toNat q.toNat ∧ Collective (.voteAny c q n p m) c m.toNat q.toNat ∧
    Collective (.ballot c d n p m) c m.toNat d.toNat ∧ Collective (.matchLanes c d a m) c m.toNat d.toNat ∧
    Collective (.radd c d a m) c m.toNat d.toNat ∧ Collective (.rminS32 c d a m) c m.toNat d.toNat ∧
    Collective (.rmaxS32 c d a m) c m.toNat d.toNat ∧ Collective (.rminN32 c d a m) c m.toNat d.toNat ∧
    Collective (.rand c d a m) c m.toNat d.toNat ∧ Collective (.ror c d a m) c m.toNat d.toNat ∧
    Collective (.rxor c d a m) c m.toNat d.toNat ∧ Collective (.rfadd c d a m) c m.toNat d.toNat ∧
    Collective (.ttrn c td ta m) c m.toNat td.toNat

/-- O21. What a collective gives each of its participants (07 R159 to R161): a shuffle the register and tag of the participant on the
source lane, or the thread's own; a vote the AND or OR of the condition; BALLOT and MATCH the lanes that meet a condition; a
reduction one value over the set, RFADD the exact sum rounded once. `ps` are the participants
counted: those of the set, a shadow standing for its visible thread (21 R456). -/
def Obligations.CollectiveResults : Prop :=
  ∀ (m : Chip) (set : List Nat) (t : Nat) (c : Bool) (d a : BitVec 7) (q p : BitVec 3) (n : BitVec 1) (k : BitVec 4),
    let ps := (set.map m.leadOf).dedup
    let src := fun (l : Int) => Grant.value (m.reg ((partOn m ps l).getD t) a.toNat).bits (m.reg ((partOn m ps l).getD t) a.toNat).tag
    let res := fun i => collectiveResult m i set t
    (∀ x ∈ ps, (∀ y ∈ ps, m.laneBit y = m.laneBit x → y = x) → m.laneBit x < 32 → partOn m ps (m.laneBit x) = some x) ∧
    (∀ l : Int, (l < 0 ∨ 31 < l ∨ ∀ x ∈ ps, (m.laneBit x : Int) ≠ l) → partOn m ps l = none) ∧
    res (.shflIdx c d a k) = src ((m.v t d.toNat).toNat % 32 : Nat) ∧ res (.shflXor c d a k) = src (m.laneBit t ^^^ (m.v t d.toNat).toNat % 32 : Nat) ∧
    res (.shflUp c d a k) = src (m.laneBit t - (m.v t d.toNat).toNat) ∧ res (.shflDn c d a k) = src (m.laneBit t + (m.v t d.toNat).toNat) ∧
    (res (.voteAll c q n p k) = .flag true ↔ ∀ x ∈ ps, (m.p x p.toNat != decide (n = 1)) = true) ∧
    (res (.voteAny c q n p k) = .flag true ↔ ∃ x ∈ ps, (m.p x p.toNat != decide (n = 1)) = true) ∧
    (∃ w, res (.ballot c d n p k) = .value w tagInt ∧
      ∀ j < 32, w.getLsbD j = true ↔ ∃ x ∈ ps, m.laneBit x = j ∧ (m.p x p.toNat != decide (n = 1)) = true) ∧
    (∃ w, res (.matchLanes c d a k) = .value w tagInt ∧ ∀ j < 32, w.getLsbD j = true ↔ ∃ x ∈ ps, m.laneBit x = j ∧ m.v x a.toNat = m.v t a.toNat) ∧
    res (.radd c d a k) = .value (ps.map (fun x => m.v x a.toNat)).sum tagInt ∧
    res (.rfadd c d a k) = .value (toF32 (Val.sum (ps.map (fun x => f32 (m.v x a.toNat))))) tagF32 ∧
    (ps ≠ [] →
      (∃ x ∈ ps, res (.rminS32 c d a k) = .value (m.v x a.toNat) tagInt ∧ ∀ y ∈ ps, (m.v x a.toNat).toInt ≤ (m.v y a.toNat).toInt) ∧
      (∃ x ∈ ps, res (.rmaxS32 c d a k) = .value (m.v x a.toNat) tagInt ∧ ∀ y ∈ ps, (m.v y a.toNat).toInt ≤ (m.v x a.toNat).toInt) ∧
      (∃ x ∈ ps, res (.rminN32 c d a k) = .value (m.v x a.toNat) tagInt ∧ ∀ y ∈ ps, (m.v x a.toNat).toNat ≤ (m.v y a.toNat).toNat) ∧
      (∃ w, res (.rand c d a k) = .value w tagInt ∧ ∀ j < 32, w.getLsbD j = true ↔ ∀ x ∈ ps, (m.v x a.toNat).getLsbD j = true) ∧
      (∃ w, res (.ror c d a k) = .value w tagInt ∧ ∀ j < 32, w.getLsbD j = true ↔ ∃ x ∈ ps, (m.v x a.toNat).getLsbD j = true) ∧
      (∃ w, res (.rxor c d a k) = .value w tagInt ∧
        ∀ j < 32, w.getLsbD j = decide ((ps.filter (fun x => (m.v x a.toNat).getLsbD j)).length % 2 = 1)))

/-- O22. Named barriers (13 R284, R286, R288): below the team's declared number, BAR.ARV writes the phase and arrives, a release at core
scope; BAR.WAIT on a past phase and a released BAR.SYNC or BAR.WAIT go on; BAR.SYNC arrives and waits, BAR.WAIT on the present
phase waits; a second arrival in one phase waits without arriving, and BAR.ARV then
writes the phase in which the completion let it arrive; BAR.TEST compares, BAR.SET sets or queues the count; at or above
the number, ACCESS_VIOLATION subcode 9. -/
def Obligations.NamedBarrierWords : Prop :=
  ∀ (c : Bool) (d : BitVec 7) (n : BitVec 4),
    let has := fun (e : State) (l : Nat) => n.toNat < (e.now.team (e.now.teamOf l)).barriers
    let twice := fun (e : State) (l : Nat) => has e l ∧ l ∈ (e.now.bar l n.toNat).arrived
    let waits := fun (i : Instr) (second arrives : Bool) (e : State) (l slot : Nat) =>
      waitFor e slot (.barrier n.toNat second) (e.now.bar l n.toNat).phase i arrives
    Does (.barSync c n) c (fun e l => has e l ∧ (e.grantOf l).isSome = true) noEffect ∧
    Fails (.barSync c n) c (fun e l => has e l ∧ e.grantOf l = none ∧ l ∉ (e.now.bar l n.toNat).arrived) (waits (.barSync c n) false true) ∧
    Fails (.barSync c n) c (fun e l => twice e l ∧ e.grantOf l = none) (waits (.barSync c n) true false) ∧
    Does (.barArv c d n) c (fun e l => has e l ∧ ((e.grantOf l).isSome = true ∨ l ∉ (e.now.bar l n.toNat).arrived)) (fun e _ live m =>
      live.foldl (fun m t => match e.grantOf t with
        | some (.token phase) => m.writeV t d.toNat phase tagInt
        | _ => (releaseArrival e (m.setBar t n.toNat { m.bar t n.toNat with arrived := (m.bar t n.toNat).arrived ++ [t] }) t false).writeV t d.toNat
            (m.bar t n.toNat).phase tagInt) m) ∧
    Fails (.barArv c d n) c (fun e l => twice e l ∧ e.grantOf l = none) (waits (.barArv c d n) true false) ∧
    Does (.barWait c d n) c (fun e l => has e l ∧ ((e.grantOf l).isSome = true ∨ (e.now.bar l n.toNat).phase ≠ e.now.v l d.toNat)) noEffect ∧
    Fails (.barWait c d n) c (fun e l => has e l ∧ e.grantOf l = none ∧ (e.now.bar l n.toNat).phase = e.now.v l d.toNat)
      (waits (.barWait c d n) false false) ∧
    Does (.barTest c d n) c has (perThread false (fun pre l t m =>
      m.writeV t d.toNat (if (pre.bar l n.toNat).phase = pre.v l d.toNat then 0 else 1) tagInt)) ∧
    Does (.barSet c d n) c has (perThread false (fun pre l t m => m.setBar t n.toNat
      (if (m.bar t n.toNat).arrived = [] then { m.bar t n.toNat with count := min (pre.v l d.toNat).toNat 1024 }
       else { m.bar t n.toNat with pend := some (min (pre.v l d.toNat).toNat 1024) }))) ∧
    (∀ i ∈ [Instr.barSync c n, .barArv c d n, .barWait c d n, .barTest c d n, .barSet c d n],
      Fails i c (fun e l => ¬ has e l) (fun _ _ slot => trapAt slot causeAccess 9 (BitVec.ofNat 32 n.toNat) 0))

/-- O23. BAR.CLU, BAR.GRID and GSYNC (13 R289 to R291): each waits, its word having arrived, until it is released, and then goes
on; GSYNC of a thread that the mask does not name goes on alone; BAR.GRID of a launch that is not co-resident is ACCESS_VIOLATION
subcode 10. -/
def Obligations.WideBarrierWords : Prop :=
  ∀ (c : Bool) (n : BitVec 4),
    let grid := fun (e : State) (l : Nat) => e.now.launch (e.now.team (e.now.teamOf l)).launch
    Does (.barClu c) c (fun e l => (e.grantOf l).isSome = true) noEffect ∧
    Fails (.barClu c) c (fun e l => e.grantOf l = none)
      (fun e l slot => waitFor e slot .cluster (e.now.cluster (e.now.team (e.now.teamOf l)).cluster).phase (.barClu c) true) ∧
    Does (.barGrid c) c (fun e l => (grid e l).coresident = true ∧ (e.grantOf l).isSome = true) noEffect ∧
    Fails (.barGrid c) c (fun e l => (grid e l).coresident = true ∧ e.grantOf l = none)
      (fun e l slot => waitFor e slot .grid (grid e l).gridPhase (.barGrid c) true) ∧
    Fails (.barGrid c) c (fun e l => (grid e l).coresident = false) (fun _ _ slot => trapAt slot causeAccess 10 0 0) ∧
    Does (.gsync c n) c (fun e l => (e.grantOf l).isSome = true ∨ (e.now.readM (groupOf l) n.toNat).getLsbD (e.now.laneBit l) = false) noEffect ∧
    Fails (.gsync c n) c (fun e l => e.grantOf l = none ∧ (e.now.readM (groupOf l) n.toNat).getLsbD (e.now.laneBit l) = true)
      (fun e _ slot => waitFor e slot (.gsync n.toNat) 0 (.gsync c n) true)

/-- O24. Completing a named barrier's phase (13 R285, R287): in all mode when every present thread counted, launched and not exited, has
arrived; in count mode when count arrivals are there. Then the phase rises by one, the arrivals clear, a pending count takes effect.
Until then nothing changes. Outside rollback mode, where nothing waits for the phase. -/
def Obligations.BarrierCompletion : Prop :=
  ∀ (m : Chip) (team n : Nat),
    let b := Sparse.get {} (m.team team).bars n
    let waits := fun (i : Nat) (r : WaitRec) => decide (m.teamOf i = team) && (match r.kind with | .barrier k _ => decide (k = n) | _ => false)
    let full := if b.count = 0 then (∀ t ∈ m.counted [team], t ∈ b.arrived) ∧ ∃ t ∈ b.arrived, m.visible t = true
      else b.count ≤ (b.arrived.filter m.visible).length
    m.waiters waits = [] → (m.team team).rollback = false →
    (¬ full → m.settleBarrier team n = m) ∧
    (full → Sparse.get {} ((m.settleBarrier team n).team team).bars n = { phase := b.phase + 1, arrived := [], count := b.pend.getD b.count, pend := none } ∧
      (∀ j, j ≠ n → Sparse.get {} ((m.settleBarrier team n).team team).bars j = Sparse.get {} (m.team team).bars j) ∧
      (∀ u, u ≠ team → (m.settleBarrier team n).team u = m.team u) ∧ (m.settleBarrier team n).threads = m.threads)

/-- O25. The word waits and WATCH, UNWATCH and WAKE (13 R296 to R298): with a watched address that can be read, WAIT.cond goes on where
its condition holds and writes the value it read or was granted; where it does not, the thread waits with the limit of v(d), or
TIMEOUT where that is 0; a poisoned word traps (21 R454); WATCH arms the slot; UNWATCH disarms it and tells whether it fired; WAKE fires the slots on its word. A word on a page that another device has
checked out holds the thread until the page is back (17 R384); one in a bank that wakes is not ready (23 R481).
The conditions of the word waits, and that a wait is held to the order of the wrapping difference (13 R297): NE and EQ compare
the words, GE holds where x − y, taken modulo 2^32, is below 2^31. -/
def Obligations.WordWaits : Prop :=
  (∀ (c : Bool) (d b : BitVec 7) (a : BitVec 6),
    let ea := fun (m : Chip) (l : Nat) => m.vv l (2 * a.toNat)
    let free := fun (e : State) (l : Nat) => ∀ slot, watchVerdict e l slot (ea e.now l) = none
    let away := fun (e : State) (l : Nat) => watchAway e e.now l (ea e.now l)
    let clear := fun (e : State) (l : Nat) => free e l ∧ away e l = false ∧ watchStalls e e.now l (ea e.now l) = false
    let armed := fun (e : State) (m : Chip) (t : Nat) => (armWatch e m t (ea e.now t)).nextFree (watchRemote e e.now t (ea e.now t))
    let watching := fun (e : State) (m : Chip) (t : Nat) =>
      if (watchLocal (ea e.now t) && e.storedAhead) = true then (armed e m t).fireSlot t else armed e m t
    let read := fun (e : State) (l : Nat) => watchRead e e.now l (ea e.now l)
    (∀ p ∈ [(Instr.waitNe c d a b, WaitCond.ne), (.waitEq c d a b, .eq), (.waitGe c d a b, .ge)],
      Does p.1 c (fun e l => (e.grantOf l).isSome = true ∨
          (clear e l ∧ (read e l).2 = none ∧ p.2.holds (read e l).1 (e.now.v l b.toNat) = true))
        (fun e _ live m => live.foldl (fun m t => (match e.grantOf t with
          | some (.value x tag) => m.writeV t d.toNat x tag
          | _ => ((armWatch e m t (ea e.now t)).writeV t d.toNat (read e t).1 tagRaw).nextFree (watchRemote e e.now t (ea e.now t))).disarm t true) m) ∧
      Fails p.1 c (fun e l => e.grantOf l = none ∧ clear e l ∧ (read e l).2 = none ∧ p.2.holds (read e l).1 (e.now.v l b.toNat) = false)
        (fun e l slot => waitFor e slot (.word (if e.now.v l d.toNat = 0 then (e.now.team (e.now.teamOf l)).timeout.toNat else (e.now.v l d.toNat).toNat))
          (read e l).1 p.1 false) ∧
      (∀ sub, Fails p.1 c (fun e l => e.grantOf l = none ∧ clear e l ∧ (read e l).2 = some sub)
        (fun e l slot => memTrap slot causeUncorrectable sub false 0 (ea e.now l)))) ∧
    (∀ i ∈ [Instr.waitNe c d a b, .waitEq c d a b, .waitGe c d a b, .watch c d a],
      Fails i c (fun e l => (i ≠ .watch c d a → e.grantOf l = none) ∧ free e l ∧ away e l = true) (fun e l _ => .hold (ea e.now l).toNat) ∧
      Fails i c (fun e l => (i ≠ .watch c d a → e.grantOf l = none) ∧ free e l ∧ away e l = false ∧ watchStalls e e.now l (ea e.now l) = true)
        (fun _ _ _ => .notReady)) ∧
    Does (.watch c d a) c clear (fun e _ live m => live.foldl (fun m t => match read e t with
      | (x, none) => (watching e m t).writeV t d.toNat x tagRaw
      | (_, some sub) => ((watching e m t).freeValue.2.consume t ((e.issue.map Issue.slot).getD 0) sub (ea e.now t).toNat).writeV t d.toNat
          ((watching e m t).freeValue.1.setWidth 32) tagRaw) m) ∧
    Does (.unwatch c d) c always (perThread false (fun pre _ t m =>
      (m.disarm t (pre.thread t).watch.fired).writeV t d.toNat (if (pre.thread t).watch.fired = true then 1 else 0) tagInt)) ∧
    Does (.wake c a) c free (fun e _ live m => live.foldl (fun m t => match watchPlace e e.now t (ea e.now t) with
      | none => m
      | some p => if watchLocal (ea e.now t) = true then m.fireLocal (m.teamOf t) p 4 else m.fireGlobal p 4) m)) ∧
  (∀ x y : Word, (WaitCond.ne.holds x y = true ↔ x ≠ y) ∧ (WaitCond.eq.holds x y = true ↔ x = y) ∧
    (WaitCond.ge.holds x y = true ↔ (x.toNat + 2 ^ 32 - y.toNat) % 2 ^ 32 < 2 ^ 31))


/-- O26. LD, ST and LDF at an address they may reach, LDS and STS at an offset they may reach (11 R236 to R243): once for each visible
thread, or once for the group with U = 1, a request with the size, sign and data of the form enters the table, and a load's
registers wait for it; a team-local store is made at once. -/
def Obligations.LoadStoreWords : Prop :=
  ∀ (c u : Bool) (t : BitVec 2) (z f : BitVec 3) (d w : BitVec 7) (b : BitVec 6) (o : BitVec 5),
    let n := sizeBytes z
    let ea := fun (m : Chip) (l : Nat) => m.vv l (2 * b.toNat) + BitVec.ofInt 64 (o.toInt * n)
    let ea4 := fun (m : Chip) (l : Nat) => m.vv l (2 * b.toNat) + BitVec.ofInt 64 (o.toInt * 4)
    let off := fun (m : Chip) (l : Nat) => ((if t = 1 then (m.v l w.toNat).toNat % 2 ^ 19 else (m.v l w.toNat).toNat : Nat) : Int) + o.toInt * n
    Does (.ld c u t z d b o) c (fun e l => Reachable e l (ea e.now l) n false)
      (once u (fun e x takers m => request e m x takers (loadReq t n d.toNat tagRaw (sizeSigned z)) (ea e.now x))) ∧
    Does (.st c u t z d b o) c (fun e l => Reachable e l (ea e.now l) n true)
      (once u (fun e x _ m => request e m x [] (storeReq e.now x t n d.toNat) (ea e.now x))) ∧
    Does (.ldf c u t f d b o) c (fun e l => Reachable e l (ea4 e.now l) 4 false)
      (once u (fun e x takers m => request e m x takers (loadReq t 4 d.toNat (f.setWidth 4 + 2) false) (ea4 e.now x))) ∧
    Does (.lds c u t z d w o) c (fun e l => LocalReachable e l (spaceOf t) (e.now.v l w.toNat) (off e.now l) n false)
      (once u (fun e x takers m => match spaceOf t with
        | .stash => stashReq e m x takers (loadReq 1 n d.toNat tagRaw (sizeSigned z)) (off e.now x).toNat
        | sp => localLoad e m x takers (m.localTeam x sp (e.now.v x w.toNat)) (off e.now x).toNat n t.toNat d.toNat (sizeSigned z))) ∧
    Does (.sts c u t z d w o) c (fun e l => LocalReachable e l (spaceOf t) (e.now.v l w.toNat) (off e.now l) n true)
      (once u (fun e x _ m => match spaceOf t with
        | .stash => stashReq e m x [] (storeReq e.now x 1 n d.toNat) (off e.now x).toNat
        | sp => (m.writeLocal (m.localTeam x sp (e.now.v x w.toNat)) (off e.now x).toNat n (regsValue e.now x d.toNat (regsOf n))).stampLocal
            (m.localTeam x sp (e.now.v x w.toNat)) (m.coreOf x)))

/-- O27. The atomics of majors 0x31 to 0x33 at an address they may reach (11 R244): a request with the operation, the operand
register or pair, with CAS the new value behind the compare value, and the order and scope of the word; ATOMP with promotion. -/
def Obligations.AtomicWords : Prop :=
  ∀ (c u : Bool) (w : BitVec 1) (r : BitVec 2) (sc : BitVec 3) (d : BitVec 5) (a : BitVec 4) (b : BitVec 5),
    let n := if w = 1 then 8 else 4
    let does := fun (i : Instr) (op : RmwOp) (size : Nat) (promote : Bool) =>
      Does i c (fun e l => Reachable e l (e.now.vv l (2 * a.toNat)) size true) (once u (fun e x takers m =>
        let first := regsValue e.now x b.toNat (size / 4)
        let second := regsValue e.now x (b.toNat + size / 4) (size / 4)
        request e m x takers { rmwReq op size d.toNat r sc (if op = .cas then second else first) first with promote := promote }
          (e.now.vv x (2 * a.toNat))))
    does (.atomAdd c u w r sc d a b) .add n false ∧ does (.atomMinS32 c u w r sc d a b) .minS n false ∧
    does (.atomMaxS32 c u w r sc d a b) .maxS n false ∧ does (.atomMinN32 c u w r sc d a b) .minU n false ∧
    does (.atomMaxN32 c u w r sc d a b) .maxU n false ∧ does (.atomAnd c u w r sc d a b) .and n false ∧
    does (.atomOr c u w r sc d a b) .or n false ∧ does (.atomXor c u w r sc d a b) .xor n false ∧
    does (.atomxXchg c u w r sc d a b) .xchg n false ∧ does (.atomxCas c u w r sc d a b) .cas n false ∧
    does (.atomxIncw c u w r sc d a b) .incw n false ∧ does (.atomxDecw c u w r sc d a b) .decw n false ∧
    does (.atomxFaddF32 c u r sc d a b) .fadd 4 false ∧ does (.atomxFminF32 c u r sc d a b) .fmin 4 false ∧
    does (.atomxFmaxF32 c u r sc d a b) .fmax 4 false ∧ does (.atomp c u w r sc d a b) .add n true

/-- O28. Major 0x33 (11 R245 to R248): LDA and LDAP are acquire loads, STL a release store, with their scopes, where
they may reach their address; FENCE and FENCE.SC make a fence of their order and scope in every visible thread, U or not. -/
def Obligations.SyncWords : Prop :=
  ∀ (c u : Bool) (w : BitVec 1) (r : BitVec 2) (sc : BitVec 3) (d : BitVec 5) (a : BitVec 4) (b : BitVec 5),
    let n := if w = 1 then 8 else 4
    let ea := fun (m : Chip) (l : Nat) => m.vv l (2 * a.toNat)
    Does (.lda c u w sc d a) c (fun e l => Reachable e l (ea e.now l) n false) (once u (fun e x takers m =>
      request e m x takers { loadReq 0 n d.toNat tagRaw false with order := 1, scope := sc } (ea e.now x))) ∧
    Does (.ldap c u w sc d a) c (fun e l => Reachable e l (ea e.now l) n false) (once u (fun e x takers m =>
      request e m x takers { loadReq 0 n d.toNat tagRaw false with order := 1, scope := sc, promote := true } (ea e.now x))) ∧
    Does (.stl c u w sc a b) c (fun e l => Reachable e l (ea e.now l) n true) (once u (fun e x _ m =>
      request e m x [] { storeReq e.now x 0 n b.toNat with order := 2, scope := sc } (ea e.now x))) ∧
    Does (.fence c u r sc) c always (fun e _ live m => (live.filter e.now.visible).foldl (fun m t => fenceReq e m t r sc) m) ∧
    Does (.fenceSc c u sc) c always (fun e _ live m => (live.filter e.now.visible).foldl (fun m t => fenceReq e m t 3 sc) m)

/-- O29. What a memory word does where it may not make its access (11 R238, R239): ALIGN_FAULT first, then ACCESS_VIOLATION subcode 1
above the address space, then what the translation says; the write bit is set for stores and atomics. Shown of LD, ST, LDF, LDA,
LDAP, STL and every atomic at once; `p` are the word, its address, its size and whether it writes. -/
def Obligations.AccessFaults : Prop :=
  ∀ (c u : Bool) (t : BitVec 2) (z f : BitVec 3) (d : BitVec 7) (b : BitVec 6) (o : BitVec 5) (w : BitVec 1) (r : BitVec 2) (sc : BitVec 3)
    (x y : BitVec 5) (a : BitVec 4),
    let at_ := fun (m : Chip) (l : Nat) => m.vv l (2 * a.toNat)
    let n := wideBytes w
    ∀ p ∈ ([(.ld c u t z d b o, (fun m l => globalEA m l (2 * b.toNat) o (sizeBytes z)), sizeBytes z, false),
        (.st c u t z d b o, (fun m l => globalEA m l (2 * b.toNat) o (sizeBytes z)), sizeBytes z, true),
        (.ldf c u t f d b o, (fun m l => globalEA m l (2 * b.toNat) o 4), 4, false),
        (.lda c u w sc x a, at_, n, false), (.ldap c u w sc x a, at_, n, false), (.stl c u w sc a y, at_, n, true),
        (.atomAdd c u w r sc x a y, at_, n, true), (.atomMinS32 c u w r sc x a y, at_, n, true), (.atomMaxS32 c u w r sc x a y, at_, n, true),
        (.atomMinN32 c u w r sc x a y, at_, n, true), (.atomMaxN32 c u w r sc x a y, at_, n, true), (.atomAnd c u w r sc x a y, at_, n, true),
        (.atomOr c u w r sc x a y, at_, n, true), (.atomXor c u w r sc x a y, at_, n, true), (.atomxXchg c u w r sc x a y, at_, n, true),
        (.atomxCas c u w r sc x a y, at_, n, true), (.atomxIncw c u w r sc x a y, at_, n, true), (.atomxDecw c u w r sc x a y, at_, n, true),
        (.atomxFaddF32 c u r sc x a y, at_, 4, true), (.atomxFminF32 c u r sc x a y, at_, 4, true), (.atomxFmaxF32 c u r sc x a y, at_, 4, true),
        (.atomp c u w r sc x a y, at_, n, true)] : List (Instr × (Chip → Nat → BitVec 64) × Nat × Bool)),
      let ea := fun (e : State) (l : Nat) => p.2.1 e.now l
      let good := fun (e : State) (l : Nat) => (ea e l).toNat % p.2.2.1 = 0 ∧ (ea e l).toNat < 2 ^ 55
      let trap := fun (cause sub : Nat) (i0 : Word) (e : State) (l slot : Nat) => Verdict.trap cause i0
        (BitVec.ofNat 32 (slot + 16 * sub + (if p.2.2.2 = true ∧ cause ≠ causeUncorrectable then 256 else 0)))
        ((ea e l).extractLsb' 0 32) ((ea e l).extractLsb' 32 32)
      Fails p.1 c (fun e l => (ea e l).toNat % p.2.2.1 ≠ 0) (trap causeAlign 0 0) ∧
      Fails p.1 c (fun e l => (ea e l).toNat % p.2.2.1 = 0 ∧ 2 ^ 55 ≤ (ea e l).toNat) (trap causeAccess 1 0) ∧
      (∀ cause sub i0, Fails p.1 c (fun e l => good e l ∧ threadTrans e e.now l (ea e l) p.2.2.2 = .fault cause sub i0) (trap cause sub i0)) ∧
      Fails p.1 c (fun e l => good e l ∧ threadTrans e e.now l (ea e l) p.2.2.2 = .serve) (fun e l _ =>
        if e.now.maySoft l = true then .soft (ea e l).toNat else .hold (ea e l).toNat) ∧
      Fails p.1 c (fun e l => good e l ∧ threadTrans e e.now l (ea e l) p.2.2.2 = .migrating) (fun e l _ => pageVerdict e.now l (ea e l).toNat true)

/-- O30. What LDS and STS do where they may not make their access (11 R238, R239, R250): the offset aligned, then in range, then, by
space, not in the mapped window, a sibling that exists, a window that holds it; TRAPINFO2 holds the offset. -/
def Obligations.LocalFaults : Prop :=
  ∀ (c u : Bool) (t : BitVec 2) (z : BitVec 3) (d w : BitVec 7) (o : BitVec 5),
    let n := sizeBytes z
    let off := fun (e : State) (l : Nat) => localOffset e.now l w.toNat (decide (t = 1)) o n
    let team := fun (e : State) (l : Nat) => e.now.team (e.now.teamOf l)
    let base := fun (e : State) (l : Nat) => e.now.v l w.toNat
    let inside := fun (e : State) (l : Nat) => off e l % n = 0 ∧ 0 ≤ off e l ∧ off e l + n ≤ (team e l).spad
    let sited := fun (e : State) (l : Nat) => rmtZero (base e l) = true ∧ rmtX (base e l) < (team e l).clw ∧ rmtY (base e l) < (team e l).clh
    ∀ p ∈ [(Instr.lds c u t z d w o, false), (.sts c u t z d w o, true)],
      let trap := fun (cause sub : Nat) (e : State) (l slot : Nat) => localTrap slot cause sub p.2 (off e l)
      Fails p.1 c (fun e l => off e l % n ≠ 0) (trap causeAlign 0) ∧
      (t = 0 ∨ t = 1 → Fails p.1 c (fun e l => off e l % n = 0 ∧ (off e l < 0 ∨ (team e l).spad < off e l + n)) (trap causeAccess 4)) ∧
      (t = 0 → Fails p.1 c (fun e l => inside e l ∧ (team e l).inWindow (off e l).toNat n = true) (trap causeAccess 7)) ∧
      (t = 1 → Fails p.1 c (fun e l => inside e l ∧ ¬ sited e l) (trap causeAccess 5)) ∧
      (t = 1 → Fails p.1 c (fun e l => inside e l ∧ sited e l ∧ e.now.sibling l (rmtX (base e l)) (rmtY (base e l)) = none) (trap causeAccess 14)) ∧
      (t = 2 → Fails p.1 c (fun e l => off e l % n = 0 ∧ off e l < 0) (trap causeAccess 4)) ∧
      (t = 2 → Fails p.1 c (fun e l => off e l % n = 0 ∧ 0 ≤ off e l ∧
        ∀ x, (team e l).stash = some x → (128 * x.lines : Nat) < off e l + n) (trap causeAccess 6))

/-- O31. Cache control and the stash (11 R249, R250, 07 R155): RENEW, PREF, FLUSH and INVAL act on the line of an address that
translates, and do nothing at another, RENEW and PREF of another device's page only under a page lease that holds (17 R382); STASH.MAP with an aligned address and a good descriptor drops the old window and maps
the new one, once for the issue group; STASH.WB writes the window's dirty lines back; STASH.DROP ends it. -/
def Obligations.CacheWords : Prop :=
  ∀ (c u : Bool) (a : BitVec 6) (h : BitVec 2) (b : BitVec 7),
    let fetch := fun (e : State) (t how : Nat) (m : Chip) => match prefLine e t a.toNat with
      | none => m
      | some ln =>
        let m := touch e m (m.coreOf t) (m.ctxOf t) (e.now.vv t (2 * a.toNat)).toNat false
        m.fresh.2.setAccess m.fresh.1 { th := t, core := m.coreOf t, ctx := m.ctxOf t, op := .fetch how, phys := 128 * ln, size := 128
                                        clk := (m.core (m.coreOf t)).clk }
    let window := fun (e : State) (l : Nat) => stashWindow (e.now.v l b.toNat) (e.now.team (e.now.teamOf l)).spad
    Does (.pref c u a h) c always (once u (fun e t _ m => fetch e t h.toNat m)) ∧
    Does (.renew c a) c always (once false (fun e t _ m =>
      if 2 ^ 55 ≤ (e.now.vv t (2 * a.toNat)).toNat then m
      else match translate e m (m.coreOf t) (m.ctxOf t) (m.thread t).level (e.now.vv t (2 * a.toNat)).toNat .read with
        | .ok p false dev => if dev.isSome = true ∧ leaseGood e p = false then m else
          let m := touch e m (m.coreOf t) (m.ctxOf t) (e.now.vv t (2 * a.toNat)).toNat false
          m.fresh.2.setAccess m.fresh.1 { th := t, core := m.coreOf t, ctx := m.ctxOf t, op := .fetch 0, va := (e.now.vv t (2 * a.toNat)).toNat
                                          phys := p / 128 * 128, size := 128, clk := (m.core (m.coreOf t)).clk }
        | _ => m)) ∧
    Does (.flush c u a) c always (once u (fun e t _ m => match cacheLine e t a.toNat with
      | none => m
      | some ln => match m.l1? (m.coreOf t) ln with
        | some l => if l.owned ≠ 0 ∨ l.dirty ≠ 0 then writebackReq e m t ln [] true else m
        | none => m)) ∧
    Does (.inval c u a) c always (once u (fun e t _ m => match cacheLine e t a.toNat with
      | none => m
      | some ln => (if (m.line e ln).owner = some (m.coreOf t) then recallNow e (quietLine e m ln) ln allWords else m).dropL1 (m.coreOf t) ln)) ∧
    Does (.stashMap c u a b) c (fun e l => (e.now.vv l (2 * a.toNat)).toNat % 128 = 0 ∧ (e.now.vv l (2 * a.toNat)).toNat < 2 ^ 55 ∧
        (window e l).isSome = true)
      (once true (fun e l _ m => match window e l with
        | none => m
        | some (first, n) => (stashDropNow e m l).setTeam ((stashDropNow e m l).teamOf l)
          { (stashDropNow e m l).team ((stashDropNow e m l).teamOf l) with
            stash := some { first := first, lines := n, base := (e.now.vv l (2 * a.toNat)).toNat } })) ∧
    Does (.stashWb c u) c always (once true (fun e l _ m => match (m.team (m.teamOf l)).stash with
      | some w => windowBack e m l w false
      | none => m)) ∧
    Does (.stashDrop c u) c always (once true (fun e l _ m => stashDropNow e m l)) ∧
    Fails (.stashMap c u a b) c (fun e l => (e.now.vv l (2 * a.toNat)).toNat % 128 ≠ 0)
      (fun e l slot => memTrap slot causeAlign 0 false 0 (e.now.vv l (2 * a.toNat))) ∧
    Fails (.stashMap c u a b) c (fun e l => (e.now.vv l (2 * a.toNat)).toNat % 128 = 0 ∧ (e.now.vv l (2 * a.toNat)).toNat < 2 ^ 55 ∧ window e l = none)
      (fun e l slot => memTrap slot causeAccess 8 false 0 (e.now.vv l (2 * a.toNat)))

/-- O32. What a request leaves (11 R237, R240): at an address that translates on this device, near, outside rollback mode and with room for the line in the core's L1, one new
access holds the request with its thread, core, context and physical address, after the page's bits are set; the registers it
covers wait for it in every thread that receives the data, and no other register changes. -/
def Obligations.RequestEntersTable : Prop :=
  ∀ (e : State) (m : Chip) (t : Nat) (takers : List Nat) (a : Access) (ea : BitVec 64) (p : Nat),
    threadTrans e m t ea a.writes = .ok p false none →
    let m0 := touch e m (m.coreOf t) (m.ctxOf t) ea.toNat a.writes
    let m' := request e m t takers a ea
    (m0.team (m0.teamOf t)).rollback = false → m0.victim (m.coreOf t) (lineOf p) = none →
    m'.accesses = Sparse.set m0.accesses m0.nextId { a with
      th := t, core := m.coreOf t, ctx := m.ctxOf t, va := ea.toNat, phys := p, stage := .issued, clk := (m0.core (m.coreOf t)).clk, takers := takers
      issue := e.now.nextId, dev := none, slot := (e.issue.map Issue.slot).getD 0 } ∧
    (∀ x ∈ takers, ∀ n, a.dest ≤ n → n < a.dest + a.count → m'.reg x n = { m0.reg x n with wait := some (.access m0.nextId), poison := none }) ∧
    (∀ x n, (x ∉ takers ∨ n < a.dest ∨ a.dest + a.count ≤ n) → m'.reg x n = m0.reg x n) ∧ m'.nextId = m0.nextId + 1

/-- O33. The result of a read-modify-write (11 R244), over old value, operand and compare value of 32 or 64 bits: the value stored, or
none where CAS stores nothing. -/
def Obligations.ReadModifyWriteResults : Prop :=
  ∀ (n : Nat) (o y c : BitVec n), n = 32 ∨ n = 64 →
    let f := fun (op : RmwOp) => op.apply n o.toNat y.toNat c.toNat
    f .add = some (o + y).toNat ∧
    f .minS = some (if o.toInt ≤ y.toInt then o else y).toNat ∧ f .maxS = some (if y.toInt ≤ o.toInt then o else y).toNat ∧
    f .minU = some (if o ≤ y then o else y).toNat ∧ f .maxU = some (if y ≤ o then o else y).toNat ∧
    f .and = some (o &&& y).toNat ∧ f .or = some (o ||| y).toNat ∧ f .xor = some (o ^^^ y).toNat ∧ f .xchg = some y.toNat ∧
    f .cas = (if o = c then some y.toNat else none) ∧
    f .incw = some (if y ≤ o then 0 else o + 1).toNat ∧ f .decw = some (if o = 0 ∨ y < o then y else o - 1).toNat


/-- O34. The copy words and CPY.FLAG, majors 0x36 and 0x37 (14 R306, R307, R310): where their operands pass the checks of R307, each
visible thread appends one element, with its size and its operands' addresses or offsets, to its open batch of its level, or
gives that batch its flag; an operand of CPY.FLAG that is misaligned or beyond the team's memory faults. -/
def Obligations.CopyWords : Prop :=
  ∀ (c : Bool) (z : BitVec 2) (d a : BitVec 6) (x y : BitVec 7),
    let n := if z = 0 then 4 else if z = 1 then 8 else 16
    let glob := fun (r : BitVec 6) (m : Chip) (t : Nat) => CpyEnd.glob (m.vv t (2 * r.toNat))
    let loc := fun (r : BitVec 7) (m : Chip) (t : Nat) => CpyEnd.loc (m.v t r.toNat).toNat
    let rmt := fun (r : BitVec 7) (m : Chip) (t : Nat) => CpyEnd.rmt (m.v t r.toNat)
    (∀ p ∈ ([(.cpyG2s c z x a, 0, glob a, loc x), (.cpyS2g c z d y, 1, loc y, glob d), (.cpyG2g c z d a, 2, glob a, glob d),
        (.cpyS2s c z x y, 3, rmt y, rmt x)] : List (Instr × BitVec 2 × (Chip → Nat → CpyEnd) × (Chip → Nat → CpyEnd))),
      ∃ act : Act, Does p.1 c (fun e l => ∀ slot, cpyVerdict e.now l slot n (p.2.2.1 e.now l) (p.2.2.2 e.now l) = none) act ∧
        ∀ (e : State) (t : Nat) (m : Chip), e.now.visible t = true → (m.team (m.teamOf t)).rollback = false →
          (∀ id, Sparse.find? (m.thread t).openBatch (m.thread t).level.code = some id → (Sparse.find? m.batches id).isSome = true) →
          ∃ id b u, Sparse.find? ((act e [t] [t] m).thread t).openBatch (m.thread t).level.code = some id ∧
            Sparse.find? (act e [t] [t] m).batches id = some b ∧
            b.elems = (match Sparse.find? (m.thread t).openBatch (m.thread t).level.code with
              | some i => ((Sparse.find? m.batches i).map (·.elems)).getD []
              | none => []) ++ [{ kind := p.2.1, size := n, src := (p.2.2.1 e.now t).bits, dst := (p.2.2.2 e.now t).bits, unit := u }]) ∧
    Does (.cpyFlag c x y) c (fun e l => (e.now.v l x.toNat).toNat % 4 = 0 ∧
        (e.now.v l x.toNat).toNat + 4 ≤ (e.now.team (e.now.teamOf l)).spad ∧
        (e.now.team (e.now.teamOf l)).inWindow (e.now.v l x.toNat).toNat 4 = false)
      (once false (fun e t _ m => match Sparse.find? (m.openBatchOf t (m.thread t).level).2.batches (m.openBatchOf t (m.thread t).level).1 with
        | some b => (m.openBatchOf t (m.thread t).level).2.setBatch (m.openBatchOf t (m.thread t).level).1
            { b with flag := some ((e.now.v t x.toNat).toNat, e.now.v t y.toNat) }
        | none => (m.openBatchOf t (m.thread t).level).2)) ∧
    Fails (.cpyFlag c x y) c (fun e l => (e.now.v l x.toNat).toNat % 4 ≠ 0)
      (fun e l slot => memTrap slot causeAlign 0 true 0 (BitVec.ofNat 64 (e.now.v l x.toNat).toNat)) ∧
    Fails (.cpyFlag c x y) c (fun e l => (e.now.v l x.toNat).toNat % 4 = 0 ∧ (e.now.team (e.now.teamOf l)).spad < (e.now.v l x.toNat).toNat + 4)
      (fun e l slot => memTrap slot causeAccess 4 true 0 (BitVec.ofNat 64 (e.now.v l x.toNat).toNat))

/-- O35. CPY.COMMIT, HTEST, HCANCEL, HWAIT, CNTRD and WAITC (14 R303, R304, R312, R313, 11 R241): a commit closes the open batch of
the thread's level with its scope and gives its register the batch's handle; HTEST tells whether a register is no longer pending
and HWAIT, HTEST and WAITC change nothing else; HCANCEL cancels the operation a pending handle names; CNTRD packs the loads,
stores, copies and tiles counters. -/
def Obligations.HandleWords : Prop :=
  ∀ (c : Bool) (d a : BitVec 7) (p : BitVec 3) (sc : BitVec 3) (l k n t : BitVec 6),
    (∃ act : State → Nat → List Nat → Chip → Chip, Does (.cpyCommit c d sc) c always (once false act) ∧ ∀ (e : State) (x : Nat) (m : Chip),
      let id := (m.openBatchOf x (m.thread x).level).1
      ∃ h, ((act e x [x] m).reg x d.toNat) = { bits := 0, tag := tagHandle, wait := some (.handle h), poison := none } ∧
        Sparse.find? (act e x [x] m).handles h = some { core := m.coreOf x, of := .batch id } ∧
        Sparse.find? ((act e x [x] m).thread x).openBatch (m.thread x).level.code = none ∧
        ∀ b, Sparse.find? (act e x [x] m).batches id = some b → b.scope = sc ∧ b.committed.isSome = true ∧ b.handle = some h) ∧
    Does (.htest c p a) c always (perThread false (fun pre i x m => m.writeP x p.toNat (pre.reg i a.toNat).wait.isNone)) ∧
    Does (.hcancel c a) c always (once false (fun e x _ m => match (e.now.reg x a.toNat).wait with
      | some (.handle h) => cancelRef e m h
      | _ => m)) ∧
    Does (.hwait c a) c always noEffect ∧
    Does (.cntrd c d) c always (perThread false (fun pre i x m => m.writeV x d.toNat
      (BitVec.ofNat 32 (pre.loads i * 2 ^ 18 + pre.stores i * 2 ^ 12 + pre.copies i * 2 ^ 6 + pre.tiles i)) tagInt)) ∧
    Does (.waitc c l k n t) c always noEffect ∧
    (∀ (e : State) (x : Nat), blocked e x (.waitc c l k n t) = false ↔
      e.now.loads x ≤ l.toNat ∧ e.now.stores x ≤ k.toNat ∧ e.now.copies x ≤ n.toNat ∧ e.now.tiles x ≤ t.toNat)

/-- O36. MX.ISSUE, MX.READY, MX.CANCEL and MX.QUIESCE (15 R324, R329, R341 to R345): once for each group, an issue whose parameter
block passes its checks enters the group's queue with a copy of the block and gives its register a handle; MX.READY gives each
thread a handle of its group's publication; MX.CANCEL marks every unresolved operation of the group; MX.QUIESCE has no effect but
that it is not ready, and so holds its thread, while an entry of the team, at whichever level it was entered, is unresolved (log entry
41). A block that is misaligned is MX_PARAM subcode 1. -/
def Obligations.PressWords : Prop :=
  ∀ (c : Bool) (d a : BitVec 7) (ra : BitVec 4) (q : BitVec 1),
    (∃ act : State → Nat → List Nat → Chip → Chip, Does (.mxIssue c d a) c (fun e l => ∀ slot, issueVerdict (.mxIssue c d a) a.toNat e l slot = none) (groupOnce act) ∧
      ∀ (e : State) (l : Nat) (m : Chip), ∃ id h, ((act e l [l] m).reg l d.toNat) = handleReg h ∧
        Sparse.find? (act e l [l] m).handles h = some { core := m.coreOf l, of := .press id } ∧
        ∃ x, Sparse.find? (act e l [l] m).press id = some x ∧ x.kind = .issue ∧ x.group = groupOf l ∧ x.level = (m.thread l).level ∧ x.handle = some h ∧ x.off = (e.now.v l a.toNat).toNat ∧
          x.block = BitVec.ofNat 512 (Memory.readN (e.now.team (m.teamOf l)).lmem (e.now.v l a.toNat).toNat 64)) ∧
    Fails (.mxIssue c d a) c (fun e l => (e.now.v l a.toNat).toNat % 64 ≠ 0)
      (fun e l slot => trapAt slot causeMxParam 1 (e.now.v l a.toNat) 0) ∧
    (∃ act : State → Nat → List Nat → Chip → Chip, Does (.mxReady c d ra q) c always (once false act) ∧ ∀ (e : State) (t : Nat) (m : Chip), ∃ id h p,
      ((act e t [t] m).reg t d.toNat) = handleReg h ∧
      Sparse.find? (act e t [t] m).handles h = some { core := m.coreOf t, of := .publication id (laneOf t) } ∧
      Sparse.find? (act e t [t] m).pubs id = some p ∧ laneOf t ∈ p.lanes ∧
      (m.openPub (groupOf t) = none → p = {
        group := groupOf t, first := ra.toNat, count := readyTiles q, level := (e.now.thread t).level, lanes := [laneOf t],
        tags := [(laneOf t, (List.range (8 * readyTiles q)).map (fun j => (e.now.reg t (8 * ra.toNat + j)).tag))],
        vals := [(laneOf t, (List.range (8 * readyTiles q)).map (fun j => (e.now.reg t (8 * ra.toNat + j)).bits))],
        handles := [(h, laneOf t)], consumed := false })) ∧
    Does (.mxCancel c) c always (groupOnce (fun _ l _ m => { m with press := Sparse.mapVals (fun _ x =>
      if x.group = groupOf l ∧ x.kind = .issue ∧ x.ended = false then { x with cancel := true } else x) m.press })) ∧
    Does (.mxQuiesce c) c always noEffect ∧
    (∀ (e : State) (t : Nat), blocked e t (.mxQuiesce c) = false ↔
      ∀ p ∈ e.now.press, p.2.team ≠ e.now.teamOf t)

/-- O37. The queued plate words and the owner tags (15 R334, R343, R344, R346, R347): once for each group, PL.ZERO, PL.FREE and
PL.SCALE of a plate that the thread's level owns, PL.LD and PL.ST also at a reachable address aligned to 4096, enter the group's
queue; PL.CLAIM gives an unowned plate to the team at a level; PL.SAVE spills another owner's plate; PL.RST reads a spilled plate
back. A plate beyond the team's number is PLATE_RANGE, one that is not owned PLATE_FAULT. -/
def Obligations.PlateWords : Prop :=
  ∀ (c : Bool) (a v : BitVec 7) (b : BitVec 6) (f l : BitVec 1),
    let num := fun (e : State) (t : Nat) => (e.now.v t a.toNat).toNat
    let mine := fun (e : State) (t : Nat) => num e t < (e.now.team (e.now.teamOf t)).plates
    let owned := fun (e : State) (t : Nat) => mine e t ∧ e.now.plateValid (e.now.teamOf t) (num e t) (e.now.thread t).level = true
    let enters := fun (make : State → Chip → Nat → PressEntry) =>
      groupOnce (fun e t takers m => (m.enterPress takers { make e m t with plate := num e t }).2)
    let moved := fun (kind : PressKind) (int write : Bool) => groupOnce (fun e t takers m =>
      let ea := e.now.vv t (2 * b.toNat)
      let q := platePlace e m t ea write
      let m := if write = true ∧ (q.2.team (q.2.teamOf t)).rollback = true then commitNow e q.2 (q.2.teamOf t) else q.2
      (m.enterPress takers { newEntry e m t kind with plate := num e t, int := int, addr := ea.toNat, phys := q.1 }).2)
    Does (.plZero c a f) c owned (enters (fun e m t => { newEntry e m t .zero with int := decide (f = 1) })) ∧
    Does (.plFree c a) c owned (enters (fun e m t => newEntry e m t .free)) ∧
    Does (.plScale c a v) c owned (enters (fun e m t => { newEntry e m t .scale with scale := e.now.v t v.toNat })) ∧
    Does (.plLd c f a b) c (fun e t => Reachable e t (e.now.vv t (2 * b.toNat)) 4096 false ∧ owned e t) (moved .ld (decide (f = 1)) false) ∧
    Does (.plSt c a b) c (fun e t => Reachable e t (e.now.vv t (2 * b.toNat)) 4096 true ∧ owned e t) (moved .st false true) ∧
    Does (.plClaim c a l) c (fun e t => mine e t ∧ ∀ o, (e.now.plateOfTeam (e.now.teamOf t) (num e t)).owner = some o →
        o = e.now.tagOf (e.now.teamOf t) (num e t) (if l = 1 then .supervisor else .user))
      (groupOnce (fun e t _ m => match (m.plateOfTeam (m.teamOf t) (num e t)).owner with
        | some _ => m
        | none => m.onPlate (m.teamOf t) (num e t) (fun _ =>
            Plate.fresh (m.tagOf (m.teamOf t) (num e t) (if l = 1 then .supervisor else .user)) m.stamp))) ∧
    Does (.plSave c a) c mine (groupOnce (fun e t _ m =>
      match (m.plateOfTeam (m.teamOf t) (num e t)).owner, m.physical (m.teamOf t) (num e t) with
      | some o, some p => if o.team = m.teamOf t ∧ o.entry = num e t then m else spillPlate e m (m.coreOfTeam (m.teamOf t)) p
      | _, _ => m)) ∧
    (∃ act : State → Nat → List Nat → Chip → Chip, Does (.plRst c a) c (fun e t => mine e t ∧ ∃ o, (e.now.plateOfTeam (e.now.teamOf t) (num e t)).owner = some o ∧
        o.team = e.now.teamOf t ∧ o.entry = num e t) (groupOnce act) ∧
      ∀ e t takers m o, (m.plateOfTeam (m.teamOf t) (num e t)).owner = some o → o.team = m.teamOf t → o.entry = num e t →
        act e t takers m = if spillKey o.level.code (num e t) ∈ (m.team (m.teamOf t)).spilled
          then restorePlate e m (m.teamOf t) (num e t) o.level.code else m) ∧
    (∀ i ∈ [Instr.plZero c a f, .plFree c a, .plScale c a v, .plClaim c a l, .plSave c a, .plRst c a],
      Fails i c (fun e t => ¬ mine e t) (fun e t slot => trapAt slot causePlateRange 0 (BitVec.ofNat 32 (num e t)) 0)) ∧
    (∀ i ∈ [Instr.plZero c a f, .plFree c a, .plScale c a v],
      Fails i c (fun e t => mine e t ∧ ¬ owned e t) (fun e t slot => plateFault e.now (e.now.teamOf t) slot 1 (num e t)))

/-- O38. PL.RD, PL.WR and the tile words (15 R347, R349, R350): of a plate the thread's level owns, PL.RD reads and PL.WR writes the
element (home lane, column), its tag INT or F32 by the plate's format; TLD and TST move 32 bytes between a tile and team-local
memory at an offset they may reach; TCVT converts a plate row into a tile; TZERO clears a tile. The values of PL.RD, PL.WR and TCVT are
those of a plate that no unresolved entry names and none has left unconsumed (R331, R344). -/
def Obligations.TileWords : Prop :=
  ∀ (c : Bool) (d a : BitVec 7) (k : BitVec 5) (td : BitVec 4) (h sc : BitVec 1) (r : BitVec 2) (f : BitVec 3),
    let num := fun (e : State) (t : Nat) => (e.now.v t a.toNat).toNat
    let owned := fun (e : State) (t : Nat) => num e t < (e.now.team (e.now.teamOf t)).plates ∧
      e.now.plateValid (e.now.teamOf t) (num e t) (e.now.thread t).level = true
    let quiet := fun (m : Chip) (team n : Nat) =>
      (∀ p ∈ m.press, p.2.team = team → n ∉ p.2.plates) ∧ (m.plateOfTeam team n).left = none
    (∃ act : State → Chip → Nat → Chip, Does (.plRd c d a k) c owned (fun e _ live m => live.foldl (act e) m) ∧ ∀ e m t,
      let p := m.plateOfTeam (m.teamOf t) (num e t)
      quiet m (m.teamOf t) (num e t) → 32 * m.laneBit t + k.toNat ∉ p.poison →
      act e m t = (m.onPlate (m.teamOf t) (num e t) id).writeV t d.toNat
        (Sparse.get 0 p.elems (32 * m.laneBit t + k.toNat)) (if p.int = true then tagInt else tagF32)) ∧
    (∃ act : State → Chip → Nat → Chip, Does (.plWr c d a k) c owned (fun e _ live m => live.foldl (act e) m) ∧ ∀ e m t,
      quiet m (m.teamOf t) (num e t) →
      act e m t = m.onPlate (m.teamOf t) (num e t) (fun p => { p with
        wrote := true, elems := Sparse.set p.elems (32 * m.laneBit t + k.toNat) (e.now.v t d.toNat)
        poison := p.poison.filter (· != 32 * m.laneBit t + k.toNat) })) ∧
    (∃ act : State → Nat → List Nat → Chip → Chip, Does (.tld c td a f) c (fun e l => LocalReachable e l .loc 0 (num e l) 32 false) (once false act) ∧ ∀ e t takers m, ∃ id x,
      Sparse.find? (act e t takers m).accesses id = some x ∧ x.stage = .returned ∧ x.dest = 8 * td.toNat ∧ x.count = 8 ∧ x.takers = takers ∧
      x.tag = f.setWidth 4 + 2 ∧ x.result = BitVec.ofNat 256 (Memory.readN (m.team (m.teamOf t)).lmem (num e t) 32)) ∧
    (∃ act : State → Nat → List Nat → Chip → Chip, Does (.tst c td a) c (fun e l => LocalReachable e l .loc 0 (num e l) 32 true) (once false act) ∧ ∀ e t takers m,
      (act e t takers m).teams = (m.writeLocal (m.teamOf t) (num e t) 32 (regsValue e.now t (8 * td.toNat) 8)).teams) ∧
    (∃ act : State → Chip → Nat → Chip, Does (.tcvt c td a h sc r f) c owned (fun e _ live m => live.foldl (act e) m) ∧ ∀ e m t,
      let p := m.plateOfTeam (m.teamOf t) (num e t)
      quiet m (m.teamOf t) (num e t) → p.poison = [] →
      act e m t = (List.range 8).foldl (fun m j => m.writeV t (8 * td.toNat + j)
        (tileWord p (m.laneBit t) f (modeOf r) (decide (sc = 1)) h.toNat j) (f.setWidth 4 + 2)) (m.onPlate (m.teamOf t) (num e t) id)) ∧
    Does (.tzero c td f) c always (perThread false (fun _ _ t m => (List.range 8).foldl (fun m j =>
      m.writeV t (8 * td.toNat + j) (if f = 4 then 0x77777777 else 0) (f.setWidth 4 + 2)) m))

/-- O39. Major 0x3C (16 R359 to R364): PLW.LOOP sets a count, at least 1; PLW.STRM defines a stream, each thread its own base; PLW.GO
captures and starts the streams of its mask; PLW.STOP stops the plough; QLEN and PLW.STAT report; QPOP and QPEEK give the head entry
of a lane that has one and that no press operation names, QPOP taking it; on a lane that is empty for good they raise
ACCESS_VIOLATION subcode 11. -/
def Obligations.PloughWords : Prop :=
  ∀ (c : Bool) (l t z q n : BitVec 2) (a d : BitVec 7) (s : BitVec 6) (b : BitVec 5) (m : BitVec 4),
    Does (.plwLoop c l a) c always (groupOnce (fun e x _ y => y.onPlough (groupOf x) (fun p =>
      { p with counts := p.counts.set l.toNat (max 1 ((e.now.v x a.toNat).toNat % 2 ^ 24)) }))) ∧
    Does (.plwStrm c t z q s b) c always (fun e _ live y => live.foldl (fun y x => y.onPlough (groupOf x) (fun p => { p with
      streams := Sparse.set p.streams q.toNat { size := z.toNat, kind := t, strides := (List.range 4).map (fun j => e.now.v (e.groupLead x) (4 * b.toNat + j)) }
      bases := Sparse.set p.bases (32 * q.toNat + laneOf x) (e.now.vv x (2 * s.toNat)) })) y) ∧
    Does (.plwGo c m) c always (groupOnce (fun _ x _ y => y.onPlough (groupOf x) (fun p => { p.go m with after := y.nextId }))) ∧
    Does (.plwStop c) c always (groupOnce (fun _ x _ y => y.onPlough (groupOf x) (fun p => { p with state := .stopped }))) ∧
    Does (.qlen c d n) c always (perThread false (fun pre i x y =>
      let f := pre.furrow i n.toNat
      y.writeV x d.toNat (BitVec.ofNat 32 (f.entries.length + (if f.fault.isSome = true then 1 else 0) +
        (if (pre.group (groupOf i)).plough.done.getLsbD n.toNat = true then 128 else 0) +
        (if f.entries = [] ∧ f.fault.isSome = true then 256 else 0))) tagInt)) ∧
    Does (.plwStat c d) c always (groupOnce (fun e x takers y => takers.foldl (fun y i =>
      y.writeV i d.toNat (e.now.group (groupOf x)).plough.statusWord tagInt) y)) ∧
    (∀ p ∈ [(Instr.qpop c d n, 1), (.qpeek c d n, 0)],
      (∃ act : State → Chip → Nat → Chip, Does p.1 c (fun e i => (e.now.furrow i n.toNat).entries ≠ []) (fun e _ live y => live.foldl (act e) y) ∧ ∀ e y x,
        (e.now.furrow x n.toNat).entries ≠ [] → e.now.furrowNamed (groupOf x) n.toNat = false →
        act e y x = (y.onPlough (groupOf x) (fun k => k.setLane n.toNat (laneOf x)
          { e.now.furrow x n.toNat with entries := (e.now.furrow x n.toNat).entries.drop p.2 })).writeV x d.toNat
            ((e.now.furrow x n.toNat).entries.headD 0) tagRaw) ∧
      Fails p.1 c (fun e i => (e.now.furrow i n.toNat).entries = [] ∧ (e.now.furrow i n.toNat).fault = none)
        (fun _ _ slot => trapAt slot causeAccess 11 (BitVec.ofNat 32 n.toNat) 0))

/-- O40. Major 0x3D (09 R190, R196 to R200): LAUNCH and QPUSH at a record and a header that are 128-byte places they may write, and
that nothing holds, append the record, once for each visible thread: LAUNCH gives a handle, or the status of a disabled queue, and QPUSH 0, or 1 for it; KSTAT
and QSTAT read the steward's view; a bad record, header or queue address is QUEUE_FAULT subcode 1, 2 or 3. -/
def Obligations.QueueWords : Prop :=
  ∀ (c : Bool) (d : BitVec 7) (p a b : BitVec 6),
    let rec_ := fun (e : State) (t : Nat) => e.now.vv t (2 * a.toNat)
    let head := fun (e : State) (t : Nat) => e.now.vv t (2 * b.toNat)
    let fine := fun (x : BitVec 64) => x.toNat % 128 = 0 ∧ x.toNat < 2 ^ 55
    let early := fun (e : State) (m : Chip) (t : Nat) => if (m.team (m.teamOf t)).rollback = true then commitNow e m (m.teamOf t) else m
    let free := fun (e : State) (t : Nat) => appendWaits e t (rec_ e t) = false ∧ appendWaits e t (head e t) = false
    Does (.launch c d a b) c (fun e t => fine (rec_ e t) ∧ fine (head e t) ∧ free e t ∧ ∀ slot, transVerdict e t slot (rec_ e t) true = none ∧
        transVerdict e t slot (head e t) true = none)
      (once false (fun e t takers m => match append e (early e m t) t (rec_ e t) (head e t) with
        | (true, m) => takers.foldl (fun y x => y.setReg x d.toNat (handleReg m.nextId))
            (m.fresh.2.setHandle m.nextId { core := m.coreOf t, of := .launch (m.ctxOf t) (rec_ e t).toNat })
        | (false, m) => takers.foldl (fun m x => m.writeV x d.toNat (BitVec.ofNat 32 (queueStatus 12)) tagHandle) m)) ∧
    Does (.qpush c d a b) c (fun e t => fine (rec_ e t) ∧ fine (head e t) ∧ free e t ∧ ∀ slot, transVerdict e t slot (rec_ e t) true = none ∧
        transVerdict e t slot (head e t) true = none)
      (once false (fun e t takers m => takers.foldl (fun y x => y.writeV x d.toNat
        (if (append e (early e m t) t (rec_ e t) (head e t)).1 = true then 0 else 1) tagInt) (append e (early e m t) t (rec_ e t) (head e t)).2)) ∧
    Does (.kstat c p a) c (fun e t => fine (rec_ e t)) (perThread false (fun pre l t m =>
      let x := pre.heldLaunch (pre.ctxOf l) (pre.vv l (2 * a.toNat)).toNat
      (m.writeV t (2 * p.toNat) (BitVec.ofNat 32 ((x.map (fun y => y.state.code)).getD 0)) tagInt).writeV t (2 * p.toNat + 1)
        (BitVec.ofNat 32 ((x.map (fun y => min y.left (2 ^ 32 - 1))).getD 0)) tagInt)) ∧
    Does (.qstat c d a) c (fun e t => fine (rec_ e t)) (perThread false (fun pre l t m =>
      m.writeV t d.toNat (BitVec.ofNat 32 (pre.queueView (pre.ctxOf l) (pre.vv l (2 * a.toNat)).toNat)) tagInt)) ∧
    (∀ i ∈ [Instr.launch c d a b, .qpush c d a b], Fails i c (fun e t => ¬ fine (rec_ e t)) (fun e t slot => queueTrap slot 1 (rec_ e t)) ∧
      Fails i c (fun e t => fine (rec_ e t) ∧ ¬ fine (head e t)) (fun e t slot => queueTrap slot 2 (head e t))) ∧
    (∀ i ∈ [Instr.kstat c p a, .qstat c d a], Fails i c (fun e t => ¬ fine (rec_ e t)) (fun e t slot => queueTrap slot 3 (rec_ e t)))

/-- O41. SRD and SWR (08 R180, 19 R429, R430): SRD gives the status word's value with tag INT, in a pair where it has 64 bits, and
FHANDLE as a reference; SWR writes its writable bits from its register or pair. -/
def Obligations.StatusWords : Prop :=
  ∀ (c : Bool) (d : BitVec 7) (imm : BitVec 9),
    Does (.srd c d imm) c always (perThread false (fun pre l t m =>
      if imm = 0x021 then m.setReg t d.toNat { (pre.thread l).fhandle with tag := tagHandle }
      else if statusWidth imm.toNat = some 64 then m.writeVV t d.toNat (statusRead pre l imm.toNat) tagInt
      else m.writeV t d.toNat ((statusRead pre l imm.toNat).setWidth 32) tagInt)) ∧
    Does (.swr c d imm) c always (perThread false (fun pre l t m => statusWrite m t imm.toNat
      (if statusWidth imm.toNat = some 64 then pre.vv l d.toNat else (pre.v l d.toNat).setWidth 64)))

/-- O42. The trap words of a thread, read and written as status words (19 R429): what a write leaves is what a read gives, but
for TRAPCAUSE, whose in-continuation flag a write keeps and whose bits above it stay zero; a write changes no other thread, and no
register, level or PC of its own. The context's own words keep their writable bits likewise, and a write of a read-only user word changes nothing. -/
def Obligations.StatusWordsReadBack : Prop :=
  ∀ (m : Chip) (t : Nat) (v : BitVec 64),
    let wr := fun a => statusWrite m t a v
    let rd := fun a => statusRead (wr a) t a
    rd 0x102 = v ∧ (∀ a ∈ [0x103, 0x104, 0x105, 0x106, 0x012], rd a = (v.setWidth 32).setWidth 64) ∧
    (∀ j, (rd 0x101).getLsbD j = if j < 10 then v.getLsbD j else ((m.thread t).trap.cause &&& 0x400).getLsbD j) ∧
    (∀ a ∈ [0x022, 0x100, 0x140, 0x160, 0x164, 0x167, 0x183, 0x184, 0x18A, 0x18B], rd a = v) ∧
    rd 0x130 = BitVec.ofNat 64 (max 1 (v.toNat % 2 ^ 8)) ∧ rd 0x138 = BitVec.ofNat 64 (max 1 (v.toNat % 2 ^ 16)) ∧
    rd 0x163 = BitVec.ofNat 64 (max 1 (v.toNat % 2 ^ 16)) ∧ rd 0x139 = BitVec.ofNat 64 (v.toNat % 2 ^ 16) ∧
    rd 0x189 = BitVec.ofNat 64 (min 400 (v.toNat % 2 ^ 10)) ∧
    (∀ a u, u ≠ t → (wr a).thread u = m.thread u) ∧
    (∀ a, ((wr a).thread t).regs = (m.thread t).regs ∧ ((wr a).thread t).level = (m.thread t).level ∧ ((wr a).thread t).pc = (m.thread t).pc) ∧
    (∀ a ∈ [0x000, 0x001, 0x002, 0x003, 0x004, 0x005, 0x006, 0x007, 0x008, 0x009, 0x00A, 0x00B, 0x010, 0x011, 0x020, 0x021], wr a = m)

/-- O43. TRET and ECALL (19 R432, R433, 22 R470): TRET goes to the level and PC that TRAPCAUSE and TRAPPC hold, or, at firmware level,
that the emulation words hold, where the routine raises no cause; as its chain commits, the thread stands there, and the routine's open
firmware batch is committed with it (14 R302); a level above its own is PRIVILEGE subcode 4; ECALL at user level
commits its chain and traps with TRAPINFO0 = 0x1000 + its number, at supervisor level asks firmware and its register waits, at
firmware level is PRIVILEGE subcode 1. -/
def Obligations.TrapReturnWords : Prop :=
  ∀ (c : Bool) (d : BitVec 7) (imm : BitVec 9),
    let back := fun (th : Thread) => if th.level = .firmware then (fieldNat th.emu.ctl.toNat 0 2, th.emu.npc) else (fieldNat th.trap.cause.toNat 8 2, th.trap.pc)
    let level := fun (n : Nat) => (levelOf n).getD .user
    Jumps (.tret c) c (fun e l => (back (e.now.thread l)).1 ≤ (e.now.thread l).level.code ∧
        (raiseOf (e.now.thread l) = none →
          openTarget e l (level (back (e.now.thread l)).1) (back (e.now.thread l)).2))
      noEffect
      (fun e _ t => some (match raiseOf (e.now.thread t) with
        | some k => .raise (level (back (e.now.thread t)).1) (e.now.thread t).emu.pc k (e.now.thread t).emu.word
        | none => .ret (level (back (e.now.thread t)).1) (back (e.now.thread t)).2)) ∧
    (∀ (e : State) (iss : Issue) (succ : Addr) (m : Chip) (t : Nat) (lvl : Level) (pc : Addr), iss.jump t = some (.ret lvl pc) →
      let y := m.setThread t { m.thread t with grants := [], patched := none, held := none, entering := false, lastIssue := m.stamp, level := lvl, pc := pc }
      commitThread e iss succ m t =
        if (Sparse.find? (m.thread t).openBatch 2).isSome = true then (y.closeBatch t .firmware 2).2 else y) ∧
    (∀ th : Thread, raiseOf th = (if th.level = .firmware ∧ nameable (fieldNat th.emu.ctl.toNat 16 8) = true
      then some (fieldNat th.emu.ctl.toNat 16 8) else none)) ∧
    Fails (.tret c) c (fun e l => (e.now.thread l).level.code < (back (e.now.thread l)).1) (fun _ _ slot => trapAt slot causePrivilege 4 2 0) ∧
    Jumps (.ecall c d imm) c (fun e l => (e.now.thread l).level ≠ .firmware)
      (once false (fun e t takers m => if (e.now.thread t).level ≠ .supervisor then m
        else (m.fresh.2.setAccess m.nextId {
          th := t, core := m.coreOf t, ctx := m.ctxOf t, op := .ecall, size := 0,
          data := (e.now.v t d.toNat).setWidth 128, compare := imm.setWidth 64, dest := d.toNat, count := 1, tag := tagInt, takers := takers,
          slot := (e.issue.map Issue.slot).getD 0 }).markPending takers d.toNat m.nextId 1))
      (fun e _ t => if (e.now.thread t).level ≠ .user then none
        else some (.trapNext (BitVec.ofNat 32 (0x1000 + imm.toNat)) (BitVec.ofNat 32 ((e.issue.map Issue.slot).getD 0))
          (e.now.v t d.toNat) (d.setWidth 32))) ∧
    Fails (.ecall c d imm) c (fun e l => (e.now.thread l).level = .firmware) (fun _ _ slot => trapAt slot causePrivilege 1 3 0)

/-- O44. The request sub-ops of major 0x3E (18 R390, R394, R402, R417, 22 R465, R473, R474, 23 R478 to R481, 19 R436, 17 R386): each
posts its request once for each visible thread and completes; CKPT.STAT, PATCH.QRY read; ERRQ.SET sets the context's error queue,
at an address that is aligned; TLB.INV takes a page, or the whole context, out of every TLB after a release; FENCE.TLB waits for
older accesses and does nothing else. CKPT.MARK and CKPT.STAT of another context by a supervisor are PRIVILEGE subcode 5. -/
def Obligations.RequestWords : Prop :=
  ∀ (c : Bool) (d : BitVec 7) (p : BitVec 6) (k : BitVec 5) (f w : BitVec 1) (sc : BitVec 4) (pst : BitVec 3) (imm : BitVec 9) (l : BitVec 5),
    let posts := fun (i : Instr) (act : State → Nat → Chip → Chip) => Does i c always (once false (fun e t _ m => act e t m))
    let v := fun (e : State) (t : Nat) => e.now.v t d.toNat
    let dies := fun (act : Chip → Nat → Chip) (e : State) (t : Nat) (m : Chip) =>
      (List.range 4).foldl (fun m n => if (v e t).getLsbD n = true then act m n else m) m
    let named := fun (e : State) (t : Nat) (x : Word) => if x = 0 then e.now.ctxOf t else x.toNat
    let base := fun (e : State) (t : Nat) => e.now.vv t (2 * p.toNat)
    posts (.ctxStop c d) (fun e t m => postRequest e m (v e t).toNat .stop) ∧
    posts (.ctxSave c d) (fun e t m => postRequest e m (v e t).toNat .save) ∧
    posts (.ctxRst c p f) (fun e t m => postRequest e m (e.now.v t (2 * p.toNat)).toNat
      (.resume (if f = 1 then some (e.now.v t (2 * p.toNat + 1)).toNat else none))) ∧
    posts (.preempt c k imm) (fun e t m => postRequest e m (e.now.v t (4 * k.toNat)).toNat (.preempt imm.toNat (e.now.vv t (4 * k.toNat + 2)).toNat)) ∧
    Does (.ckptMark c d f) c (fun e t => (e.now.thread t).level = .supervisor → named e t (v e t) = e.now.ctxOf t)
      (once false (fun e t _ m => postRequest e m (named e t (v e t)) (.mark (decide (f = 1))))) ∧
    Does (.ckptStat c p) c (fun e t => (e.now.thread t).level = .supervisor → named e t (e.now.v t (2 * p.toNat + 1)) = e.now.ctxOf t)
      (perThread false (fun pre x t m => m.writeV t (2 * p.toNat) (BitVec.ofNat 32
        (((Sparse.find? (pre.ctx (if pre.v x (2 * p.toNat + 1) = 0 then pre.ctxOf x else (pre.v x (2 * p.toNat + 1)).toNat)).ckpts
          (pre.v x (2 * p.toNat)).toNat).map (fun q => q.state.code)).getD 0)) tagInt)) ∧
    posts (.patchLoad c p sc) (fun e t m => postLoad e m sc.toNat (base e t).toNat) ∧
    posts (.patchArm c sc) (fun _ _ m => if (m.slot sc.toNat).state = .loaded then m.setSlot sc.toNat { m.slot sc.toNat with arming := true } else m) ∧
    posts (.patchDisarm c sc) (fun _ _ m => if (m.slot sc.toNat).state = .armed then m.setSlot sc.toNat { m.slot sc.toNat with state := .draining }
      else m.setSlot sc.toNat { m.slot sc.toNat with arming := false }) ∧
    Does (.patchQry c d sc) c always (perThread false (fun pre _ t m => m.writeV t d.toNat (pre.pslot sc.toNat) tagInt)) ∧
    posts (.pstateSet c d pst) (dies (fun m n => m.setPstate n pst.toNat)) ∧ posts (.park c d) (dies Chip.park) ∧
    posts (.unpark c d) (dies Chip.unpark) ∧
    Does (.errqSet c p l) c (fun e t => base e t ≠ 0 → l ≠ 0 → (base e t).toNat % 4096 = 0 ∧ (base e t).toNat < 2 ^ 55)
      (once false (fun e t _ m => m.setCtx (m.ctxOf t) (if base e t = 0 ∨ l = 0 then { m.ctx (m.ctxOf t) with errqbase := 0, errqlen := 0 }
        else { m.ctx (m.ctxOf t) with errqbase := base e t, errqlen := l.toNat }))) ∧
    posts (.tlbInv c p w) (fun e t m =>
      let m := releaseAt e (releaseLines e m (m.coreOf t) [t] m.nextId) m.nextId { th := t, core := m.coreOf t, op := .fence, scope := 2 }
      m.shoot (m.ctxOf t) (if w = 1 then none else some (base e t).toNat)) ∧
    Does (.fenceTlb c) c always noEffect ∧
    Fails (.ckptMark c d f) c (fun e t => (e.now.thread t).level = .supervisor ∧ named e t (v e t) ≠ e.now.ctxOf t)
      (fun _ _ slot => trapAt slot causePrivilege 5 0x14 0) ∧
    Fails (.ckptStat c p) c (fun e t => (e.now.thread t).level = .supervisor ∧ named e t (e.now.v t (2 * p.toNat + 1)) ≠ e.now.ctxOf t)
      (fun _ _ slot => trapAt slot causePrivilege 5 0x15 0)

/-- O45. A step runs the decoded instruction (07 R135, 03 R40): the next word of a fetched chain; at a thread's PC, fetching first, the
instruction that the word there decodes to, where its chain is that word alone; with no chain open the released threads' chain, else
the eviction of a line from a slice that holds more than its 4 MiB (log entry 16), else a rebase sweep that accesses wait for (12 R271), else
the event that the environment names next, else the one that the model chooses (log entry 8). A chain whose words have all executed
closes, and one that does not decode ends for every thread. -/
def Obligations.StepRunsTheWord : Prop :=
  (∀ (s : State) (iss : Issue) (f : Fetched) (w : ChainWord), s.issue = some iss → iss.code = some f → f.fault = none →
    f.words[iss.at_]? = some w → step s = exec w.instr s) ∧
  (∀ (s : State) (iss : Issue) (f : Fetched), s.issue = some iss → iss.code = some f → f.fault = none → f.words[iss.at_]? = none →
    step s = .next (closeChain s)) ∧
  (∀ (s : State) (iss : Issue) (f : Fetched) (v : Verdict), s.issue = some iss → iss.code = some f → f.fault = some v →
    step s = .next (commitIssue s { iss with dead := iss.members.map (fun t => (t, 0, v)) })) ∧
  (∀ (s : State) (iss : Issue) (t : Nat) (ms : List Nat) (w : Word) (i : Instr),
    let th := s.now.thread t
    let slot := ((codeBase s.now (s.now.ctxOf t) th.level th.pc.toNat).map (fun b => slotOf b th.pc.toNat)).getD 0
    s.issue = some iss → iss.code = none → iss.at_ = 0 → iss.members = t :: ms → th.patched = none → th.entering = false →
    fetchWord s s.now (s.now.coreOf t) (s.now.ctxOf t) th.level th.pc.toNat slot = .ok w → bitAt w.toNat 31 = false →
    stencilPick s.now t w 0 = none → decodeWord w = .ok i → (∀ u n f a b c d, i ≠ .brm u n f a b c d) →
    step s = exec i { s with
      now := if th.level = .firmware then s.now else touch s s.now (s.now.coreOf t) (s.now.ctxOf t) iss.pc.toNat false
      issue := some { iss with code := some { words := [{ instr := i, raw := w, slot := slot }] } } }) ∧
  (∀ (s : State) (iss : Issue), s.issue = none → grantedIssue s = some iss → step s = step { s with issue := some iss }) ∧
  (∀ (s : State) (ln : Nat), s.issue = none → s.now.granted = [] → crowdedOut s.now = some ln → step s = exec (.sliceEviction ln) s) ∧
  (∀ (s : State), s.issue = none → s.now.granted = [] → crowdedOut s.now = none → s.now.sweepUrgent = true → s.board.sweeps = true →
    step s = exec (if s.now.sweeping = true then .rebaseSweepComplete else .rebaseSweep) s) ∧
  (∀ (s : State) (i : Instr) (rest : List Instr), s.issue = none → s.now.granted = [] → crowdedOut s.now = none →
    (s.now.sweepUrgent && s.board.sweeps) = false → s.agenda = i :: rest → step s = exec i (prepare i { s with agenda := rest })) ∧
  (∀ (s : State), s.issue = none → s.now.granted = [] → crowdedOut s.now = none → (s.now.sweepUrgent && s.board.sweeps) = false → s.agenda = [] →
    step s = exec (chosenEvent s) (prepare (chosenEvent s) { s with chosen := s.chosen + 1 }))

/-- O46. What every word checks before its own conditions, in this order (07 R134, 03 R52, 04 R84 to R86, 05 R91, 19 R434): readiness; the
level, PRIVILEGE; the team's registers, REGISTER_RANGE; the tags of the sources it reads, FORMAT_FAULT, which reports the lowest
subcode, the tag found and the first tag of the accepted ones. Where every undecided thread of the issue group meets one of these,
nothing of the word takes effect. -/
def Obligations.IssueChecks : Prop :=
  ∀ (i : Instr) (s : State) (iss : Issue), wellFormed i = true → s.issue = some iss →
    let e := s.before
    let l := fun t => wordLead e t i
    let o := opInfo i
    let each := fun (p : Nat → Prop) => ∀ t ∈ iss.members, iss.Undecided t → p t
    let ready := fun t => readyWith e t (l t) o (blocked e t i) = true
    let high := fun t => o.least ≤ (e.now.thread (l t)).level.code
    let regs := fun t => (e.now.team (e.now.teamOf (l t))).regs
    let within := fun t => (∀ x ∈ o.srcs, x.reg < regs t) ∧ ∀ d ∈ o.dests, d < regs t
    let bad := fun t => o.srcs.filter (fun x => x.read e.now (l t) && !x.tagOk e.now (l t))
    (each (fun t => ¬ ready t) → exec i s = .next (ended o.c (failed s iss (fun _ => .notReady)))) ∧
    (each (fun t => ready t ∧ ¬ high t) →
      exec i s = .next (ended o.c (failed s iss (fun _ => trapAt iss.slot causePrivilege o.privSub (BitVec.ofNat 32 o.privInfo) 0)))) ∧
    (each (fun t => ready t ∧ high t ∧ ¬ within t) → exec i s = .next (ended o.c (failed s iss (fun _ => trapAt iss.slot causeRange 0 0 0)))) ∧
    (∀ x : Nat → Src, each (fun t => ready t ∧ high t ∧ within t ∧ (1 ≤ (x t).code ∧ (x t).code ≤ 5) ∧
        (bad t).find? (fun y => decide (y.code = (x t).code)) = some (x t) ∧ ∀ y ∈ bad t, (x t).code ≤ y.code) →
      exec i s = .next (ended o.c (failed s iss (fun t => trapAt iss.slot causeFormat (x t).code
        (BitVec.ofNat 32 ((e.now.reg (l t) (x t).reg).tag.toNat + 16 * (((x t).tags.head?).getD 0).toNat)) 0))))

/-- O47. Trap entry (19 R425, R427, 22 R470): TRAPPC, TRAPCAUSE with the level and the in-continuation flag, the four information words, the
supervisor level and TRAPVEC, and nothing else of the machine but the error record of an UNCORRECTABLE or a PROTECTED_MISMATCH. Where the
vector is zero, breaks 03 R36 or 07 R144, or a supervisor's chain at TRAPVEC itself traps, the context is killed instead (19 R426); so
it is where a stencil routine traps. -/
def Obligations.TrapEntry : Prop :=
  ∀ (e : State) (c : Chip) (t : Nat) (pc ret : Addr) (cause : Nat) (i0 i1 i2 i3 : Word),
    let th := c.thread t
    let vec := (c.ctx (c.ctxOf t)).trapvec
    let entered := enterTrap e c t pc ret cause i0 i1 i2 i3
    let refused := vec = 0 ∨ 2 ^ 55 ≤ vec.toNat ∨ badTarget e c (c.coreOf t) (c.ctxOf t) .supervisor vec ≠ none ∨ (th.level = .supervisor ∧ pc = vec)
    let taken := fun (m : Chip) => m.setThread t { m.thread t with
      trap := { pc := ret, cause := BitVec.ofNat 32 (cause + 256 * (m.thread t).level.code + if (m.thread t).cont = true then 1024 else 0)
                info0 := i0, info1 := i1, info2 := i2, info3 := i3 }
      level := .supervisor, pc := (m.ctx (c.ctxOf t)).trapvec, grants := [], patched := none, held := none, entering := false }
    (th.level ≠ .firmware → ¬ refused → cause ≠ causeUncorrectable → cause ≠ causeMismatch → entered = taken c) ∧
    (th.level ≠ .firmware → ¬ refused → cause = causeUncorrectable ∨ cause = causeMismatch →
      ∃ r : ErrRec, r.cause = cause ∧ r.pc = ret.toNat ∧ r.killed = false ∧ entered = taken (errorRecord e c (c.ctxOf t) r)) ∧
    (th.level = .firmware ∨ refused → ∃ r : ErrRec, r.cause = cause ∧ r.pc = ret.toNat ∧ entered = kill e c (c.ctxOf t) cause r)

/-- O48. Every step keeps the canonical form of memory and of the mailbox buffer, the timer's residue, and the ranges of the power words. -/
def Obligations.StepKeepsSound : Prop :=
  ∀ s t : State, s.Sound → step s = .next t → t.Sound

/-- O49. The state after reset is sound and holds what the rules give: no memory listed, no thread present, clocks and the base of stored
times 0 in generation 0 (12 R252), every die running at P5 (23 R475), PWRCEIL 800, every port in training (20 R448), no chain open; and a context as it
is created holds the reset values of its words. -/
def Obligations.ResetState : Prop :=
  State.reset.Sound ∧ State.reset.mem = [] ∧ State.reset.issue = none ∧ State.reset.agenda = [] ∧
  (∀ t, (State.reset.now.thread t).present = false ∧ (State.reset.now.thread t).level = .user ∧ (State.reset.now.thread t).preds = 0) ∧
  (∀ t r, State.reset.now.v t r = 0 ∧ (State.reset.now.reg t r).tag = tagRaw ∧ (State.reset.now.reg t r).wait = none) ∧
  (∀ k, (State.reset.now.core k).clk = 0 ∧ (State.reset.now.core k).tlb = []) ∧ State.reset.now.timeBase = 0 ∧ State.reset.now.generation = false ∧
  (∀ d, (State.reset.now.die d).state = .running ∧ (State.reset.now.die d).pstate = 5) ∧
  (∀ i, (State.reset.now.slot i).state = .empty) ∧ (∀ p, (State.reset.board.port p).state = .training) ∧
  State.reset.board.watts = 800 ∧ State.reset.board.mbstate = .idle ∧ State.reset.board.dtick = 0 ∧
  (∀ x : Ctx, x = {} → x.trapvec = 0 ∧ x.errqbase = 0 ∧ x.leaselen = 32 ∧ x.fairlim = 256 ∧ x.bintime = 256 ∧ x.holdlim = 94 ∧ x.drvthresh = 8 ∧
    x.pagelease = 256 ∧ x.ckptint = 2343750 ∧ x.ckptrate = 400 ∧ x.patchsel = 0xFFFF) ∧
  (∀ k : Team, k = {} → k.timeout = 4687500 ∧ k.contvec = 0 ∧ k.plsel = 0)

/-- O50. The frame of the computing words, majors 0x01 to 0x1E, with C = 1: whatever their checks find, they change no byte of memory, no
word of the board, and of the machine only the registers, predicates and masks that they name as destinations, in threads of the
issue group, and the errors due to those threads; the bytes of memory read as before. -/
def Obligations.ComputingWordFrame : Prop :=
  ∀ (i : Instr) (w : Word) (s t : State) (iss : Issue), s.issue = some iss → wellFormed i = true → encode i = some w →
    fieldNat w.toNat 24 6 ≤ 0x1E → (opInfo i).c = true → exec i s = .next t →
    t.mem = s.mem ∧ t.board = s.board ∧ t.agenda = s.agenda ∧ t.shadows = s.shadows ∧ t.marks = s.marks ∧
    OnlyResults (opInfo i) iss.members s.now t.now ∧ ∀ p n, peek t t.now p n = peek s s.now p n

/-- O51. A chain that ends with no thread failed and no transfer (03 R39, 07 R135, R140): it commits as one unit. Every thread of the issue
group goes on behind the chain at its level; no other thread's PC or level changes, no register, predicate or mask; and outside
rollback mode, where an interval may close and release what it holds (21 R458), no byte of memory; no chain is open. Where its threads are on the tables, no thread waits, and outside protected mode. -/
def Obligations.ChainCommits : Prop :=
  ∀ (s : State) (iss : Issue), s.issue = some iss → iss.dead = [] → iss.jumps = [] → iss.members ≠ [] →
    (∀ t ∈ iss.members, s.now.exists? t = true ∧ s.now.guarded t = false) → (∀ t, (s.now.thread t).waitsOn = none) →
    let t := closeChain s
    let code := iss.code.getD {}
    t.issue = none ∧ t.base = none ∧ t.mem = s.mem ∧ t.board = s.board ∧
    (∀ x ∈ iss.members, (t.now.thread x).pc = iss.pc + BitVec.ofNat 64 (4 * (code.len + code.targets.length))) ∧
    (∀ x, x ∉ iss.members → (t.now.thread x).pc = (s.now.thread x).pc) ∧
    (∀ x, (t.now.thread x).level = (s.now.thread x).level ∧ (t.now.thread x).regs = (s.now.thread x).regs ∧
      (t.now.thread x).preds = (s.now.thread x).preds ∧ (t.now.thread x).trap = (s.now.thread x).trap) ∧
    (∀ g, (t.now.group g).masks = (s.now.group g).masks) ∧
    ((∀ k, (s.now.team k).rollback = false ∧ (s.now.team k).interval.opened = false) → t.now.home = s.now.home ∧ ∀ p n, peek t t.now p n = peek s s.now p n)

/-- O52. Stores by byte (01 R5): writing n bytes changes exactly the n bytes from the address on, little-endian; two canonical
memories that read alike are equal; and the frame of STS outside the stash: every byte of every team's memory but those stored by the
threads that execute it reads as before. -/
def Obligations.StoredBytes : Prop :=
  (∀ (m : Memory) (a n v p : Nat), m.wf = true → Memory.read (Memory.writeN m a n v) p =
    if a ≤ p ∧ p < a + n then BitVec.ofNat 8 (v / 256 ^ (p - a)) else Memory.read m p) ∧
  (∀ m n : Memory, m.wf = true → n.wf = true → (∀ p, Memory.read m p = Memory.read n p) → m = n) ∧
  (∀ (u : Bool) (t : BitVec 2) (z : BitVec 3) (d w : BitVec 7) (o : BitVec 5) (s s' : State) (iss : Issue) (team a : Nat),
    let n := sizeBytes z
    let off := fun (m : Chip) (l : Nat) => ((if t = 1 then (m.v l w.toNat).toNat % 2 ^ 19 else (m.v l w.toNat).toNat : Nat) : Int) + o.toInt * n
    let e := s.before
    Runs (.sts true u t z d w o) (fun e l => LocalReachable e l (spaceOf t) (e.now.v l w.toNat) (off e.now l) n true) s iss →
    spaceOf t ≠ .stash → (∀ k, ((s.now.team k).lmem).wf = true) → exec (.sts true u t z d w o) s = .next s' →
    (∀ x ∈ (if u = true then [iss.members.headD 0] else iss.live),
      ¬ (team = s.now.localTeam x (spaceOf t) (e.now.v x w.toNat) ∧ (off e.now x).toNat ≤ a ∧ a < (off e.now x).toNat + n)) →
    Memory.read (s'.now.team team).lmem a = Memory.read (s.now.team team).lmem a ∧ s'.mem = s.mem)

/-- O53. An event happens between chains: with a chain open every event leaves the state as it is (01 R15, log entry 8). And the events
of a core: an issue cycle of a croft (07 R135, R141), a starved pen, the ends of a pause and of a yield (07 R155), the timer and the
launch of a spawn bin (07 R152, R153), a tick (02 R28), where nothing waits for one, and the rebase sweep (12 R270 to R272). -/
def Obligations.CoreEvents : Prop :=
  (∀ (i : Instr) (s : State), hasWord i = false → s.issue ≠ none → exec i s = .next s) ∧
  ∀ k bin f pen th : Nat,
    Happens (.issueGroup f) (fun s => choosePen s f = none)
      (fun s => { s with now := (countCycle s s.now f none).settleWaits (s.now.groupsOn f) }) ∧
    (∀ p ts t ms code, Happens (.issueGroup f)
      (fun s => choosePen s f = some (p, ts) ∧ s.now.pickLanes ts = t :: ms ∧ (∀ x ∈ t :: ms, s.now.heldFor x = []) ∧
        (Sparse.find? (s.now.croft f).pens p).bind Pen.code = some code)
      (fun s =>
        let c := countCycle s s.now f (some p)
        { s with
          now := touchFetch s c t (s.now.thread t).pc code
          base := none
          issue := some { members := t :: ms, pc := (s.now.thread t).pc, pen := some p, code := some code } })) ∧
    (∀ p, Happens (.penStarved f pen)
      (fun s => Sparse.find? (s.now.croft f).pens pen = some p ∧ p.starved = none ∧ (s.now.ctx p.ctx).fairlim ≤ p.fair)
      (fun s => { s with now := s.now.tickStamp.2.setCroft f { s.now.croft f with
        pens := Sparse.set (s.now.croft f).pens pen { p with starved := some s.now.stamp } } })) ∧
    Happens (.pauseExpiry th) (fun s => (s.now.thread th).paused = 1)
      (fun s => { s with now := s.now.setThread th { s.now.thread th with paused := 0 } }) ∧
    (∀ ps n, Happens (.yieldEnd th) (fun s => (s.now.thread th).yielding = some (ps, n) ∧ (ps = [] ∨ n = 0))
      (fun s => { s with now := s.now.setThread th { s.now.thread th with yielding := none } })) ∧
    (∀ b, Happens (.binTimerExpiry k bin) (fun s => Sparse.find? (s.now.core k).bins bin = some b ∧ b.timer = 0 ∧ s.now.mayRun b.team = true)
      (fun s => { s with now := s.now.setCore k { s.now.core k with bins := Sparse.set (s.now.core k).bins bin { b with closed := true } } })) ∧
    (∀ b : Bin, Leaves (.binLaunch k bin f)
      (fun s => Sparse.find? (s.now.freeGroups.core k).bins bin = some b ∧ b.closed = true ∧ s.now.freeGroups.mayRun b.team = true ∧ f / 4 = k ∧
        s.now.freeGroups.croftRoom f (s.now.freeGroups.team b.team).regs = true ∧ b.args.length ≤ 32)
      (fun s t => Sparse.find? (t.now.core k).bins bin = none ∧ (t.now.group s.now.nextId).team = b.team ∧ (t.now.group s.now.nextId).croft = f ∧
        ∀ l a, b.args[l]? = some a → let x := t.now.thread (32 * s.now.nextId + l)
          x.present = true ∧ x.pc = b.entry ∧ x.level = a.2 ∧ x.regs = [(0, { bits := a.1 })])) ∧
    Leaves .tick (fun s => s.board.accum < 3 ∧ s.now.deferred = [] ∧ s.board.inbox = [] ∧ ∀ p ∈ s.now.ctxs, p.2.state ≠ .resuming) (fun s t =>
      (∀ n < Config.cores, (t.now.core n).clk = min (2 ^ 48 - 1) ((s.now.core n).clk + 1)) ∧ t.board.dtick = s.board.dtick + 1 ∧
      t.board.accum < 3 ∧ (∃ n, s.board.accum + 3 * n = t.board.accum + 128) ∧ t.mem = s.mem) ∧
    (
      let barn := fun (s : State) => s.board.barnFenced.contains 0 = true → s.board.barnFenced.contains 1 = false
      Leaves .rebaseSweep (fun s => (s.now.pastBase || s.now.sweepQueued) = true ∧ s.now.sweeping = false ∧ barn s) (fun s t =>
        let b := s.now.timeBase + 2 ^ 22
        t.now.timeBase = b ∧ t.now.generation = (!s.now.generation) ∧ t.now.sweeping = true ∧ t.now.sweepQueued = false ∧
        (∀ n < Config.cores, (t.now.core n).clk = min (2 ^ 48 - 1) (max (s.now.core n).clk (b + 1))) ∧
        (∀ n h, Sparse.find? s.now.home n = some h → h.gen = s.now.generation →
          (t.now.line t n).wts = max b h.wts ∧ (t.now.line t n).rts = max b h.rts ∧ (t.now.line t n).data = h.data) ∧ t.mem = s.mem) ∧
      Happens .rebaseSweep (fun s => (s.now.pastBase || s.now.sweepQueued) = true ∧ s.now.sweeping = true ∧ barn s)
        (fun s => { s with now := { s.now with sweepQueued := true } }) ∧
      Leaves .rebaseSweepComplete barn (fun s t => t.now.sweeping = false ∧ t.now.timeBase = s.now.timeBase ∧
        (∀ n h, Sparse.find? t.now.home n = some h → h.gen = t.now.generation) ∧ (∀ n, t.now.line t n = s.now.line s n) ∧
        (∀ k n, t.now.l1? k n = s.now.l1? k n) ∧ t.mem = s.mem))

/-- O54. The events of outstanding accesses (11 R240 to R246, 12 R257 to R265, R276, 20 R449), at a line that nothing holds: a renewal
extends the lease, its reply brings the clock and the lease to the core; a store is established later than every lease and changes
exactly its bytes; an atomic returns the old value and stores the new one; a grant gives the core the line; data that has come back is
written to the registers that wait for it; a lost route makes it an uncorrectable error. What another device's memory holds is a free value (log entry 6). -/
def Obligations.AccessEvents : Prop :=
  ∀ (id : Nat) (a : Access),
    let ln := lineOf a.phys
    let at_ := fun (s : State) => Sparse.find? s.now.accesses id = some a
    let sent := fun (s : State) => { a with clk := (s.now.core a.core).clk }
    let quiet := fun (s : State) => (s.now.line s ln).busy = false ∧ (s.now.line s ln).hshare = false ∧ (s.now.line s ln).owner = none ∧
      a.dev = none ∧ s.now.bankWaking a.phys = false ∧ s.now.timeFits (requestTime s s.now (sent s)) = true
    let room := fun (s : State) => s.now.victim a.core ln = none
    let alone := fun (s : State) => ∀ p ∈ s.now.accesses, p.2.th = a.th ∨ p.2.core = a.core → p.2.op ≠ .fence
    let sized := a.size ∈ [1, 2, 4, 8, 16] ∧ a.phys % a.size = 0
    let only := fun (s t : State) => ∀ q, q < a.phys ∨ a.phys + a.size ≤ q → peek t t.now q 1 = peek s s.now q 1
    let old := fun (s : State) => peek s s.now a.phys a.size
    let arrived := fun (s : State) => a.detached = true ∨ (s.now.team (s.now.teamOf a.th)).core.isSome = true
    let granted := fun (_ t : State) => (t.now.line t ln).owner = some a.core ∧ (t.now.line t ln).owned = allWords ∧
      ∃ b, Sparse.find? t.now.accesses id = some b ∧ b.stage = .returned
    Happens (.loadDataReturn id) (fun s => at_ s ∧ a.stage = .returned ∧ arrived s) (fun s => giveData s id a) ∧
    (a.poison = none → ∀ s, giveData s id a = { s with now := settleFences s (s.now.deliver id a) a.th }) ∧
    (a.poison = none → ∀ m : Chip, Sparse.find? (m.deliver id a).accesses id = none ∧ ∀ x ∈ m.waitingFor id a,
      (m.deliver id a).reg x.1 x.2.1 = { bits := a.word x.2.2, tag := a.tag, wait := none, poison := none }) ∧
    Leaves (.renewRequest id) (fun s => at_ s ∧ a.op = .load ∧ (a.kind = 0 ∨ a.kind = 2) ∧ isHost a.phys = false ∧ a.promote = false ∧ a.stage = .issued ∧
        s.now.mayGo a = true ∧ (a.isAcq = true → s.now.mayPerform id a = true) ∧ quiet s)
      (fun s t =>
        let h := s.now.line s ln
        let r := max (s.now.core a.core).clk h.wts + (s.now.ctx a.ctx).leaselen
        (t.now.line t ln).rts = max h.rts r ∧ (t.now.line t ln).wts = h.wts ∧
          ∃ d, Sparse.find? t.now.accesses id = some { sent s with stage := .reply h.wts r d (~~~h.owned) } ∧ ∀ x, d = some x → x = h.data) ∧
    (∀ wts rts d v, Leaves (.renewReply id) (fun s => at_ s ∧ a.op = .load ∧ a.kind = 0 ∧ a.stage = .reply wts rts d v ∧ room s ∧
        (∀ l, s.now.l1? a.core ln = some l → l.owned = 0) ∧ (d = none → (s.now.l1? a.core ln).isSome = true))
      (fun s t =>
        let w := max s.now.timeBase wts
        (t.now.core a.core).clk = min (2 ^ 48 - 1) (max (s.now.core a.core).clk w) ∧
          ∃ l, t.now.l1? a.core ln = some l ∧ l.wts = w ∧ l.rts = max s.now.timeBase rts ∧ ∀ x, d = some x → l.valid = v ∧ l.data = x)) ∧
    Leaves (.homeStore id) (fun s => at_ s ∧ a.op = .store ∧ s.now.wantsOwned a = false ∧ a.order = 0 ∧ a.stage = .issued ∧ sized ∧
        s.now.mayPerform id a = true ∧ writeHeld s s.now a.phys = false ∧ (s.now.core a.core).release.length ≤ Config.releaseLines ∧ quiet s ∧ room s ∧
        alone s)
      (fun s t => peek t t.now a.phys a.size = a.data.toNat % 2 ^ (8 * a.size) ∧ only s t ∧ Sparse.find? t.now.accesses id = none ∧ t.mem = s.mem ∧
        (t.now.line t ln).wts = max (s.now.core a.core).clk ((s.now.line s ln).rts + 1) ∧ (t.now.line t ln).rts = (t.now.line t ln).wts) ∧
    Happens (.homeStore id) (fun s => at_ s ∧ a.op = .store ∧ a.stage = .remote ∧ a.poison = none ∧ s.board.routeLost = false ∧ s.now.mayPerform id a = true)
      (fun s => { s with now := settleFences s { s.now with accesses := Sparse.erase s.now.accesses id } a.th }) ∧
    (∀ op, Leaves (.homeAtomic id) (fun s => at_ s ∧ a.op = .rmw op ∧ s.now.wantsOwned a = false ∧ a.order = 0 ∧ a.promote = false ∧ a.stage = .issued ∧ sized ∧
        s.now.mayPerform id a = true ∧ writeHeld s s.now a.phys = false ∧ s.now.mates id a = [] ∧ quiet s ∧ alone s)
      (fun s t =>
        let new := op.apply (8 * a.size) (old s) (a.data.toNat % 2 ^ (8 * a.size)) a.compare.toNat
        peek t t.now a.phys a.size = (new.getD (old s)) % 2 ^ (8 * a.size) ∧ only s t ∧
          ∃ b, Sparse.find? t.now.accesses id = some b ∧ b.stage = .returned ∧ b.result = BitVec.ofNat 256 (old s))) ∧
    Leaves (.ownedRequest id) (fun s => at_ s ∧ a.op = .load ∧ s.now.wantsOwned a = true ∧ a.isRel = false ∧ a.stage = .issued ∧ s.now.mayGo a = true ∧
        s.now.mayPerform id a = true ∧ s.now.aheadFor id ln = false ∧ quiet s ∧ room s) granted ∧
    Leaves (.persistentRequest (sliceOf ln)) (fun s => at_ s ∧ a.op = .load ∧ s.now.wantsOwned a = true ∧ a.isRel = false ∧ a.stage = .issued ∧
        s.now.mayGo a = true ∧ s.now.mayPerform id a = true ∧ (s.now.slice (sliceOf ln)).persistent.head? = some id ∧ quiet s ∧ room s) granted ∧
    (∀ op data, Happens (.remoteAtomicReply id data) (fun s => at_ s ∧ a.op = .rmw op ∧ a.stage = .remote ∧ arrived s ∧ s.now.mayPerform id a = true)
      (fun s =>
        let c := if (s.now.team (s.now.teamOf a.th)).core.isSome = true then s.now.seeAfar a else s.now
        { s with now := settleFences { s with now := c } (c.deliver id { a with
          stage := .returned, poison := none, result := (BitVec.ofNat 64 (data.toNat % 2 ^ (8 * a.size))).setWidth 256 }) a.th })) ∧
    (∀ answer, Happens (.ecallAnswer id answer) (fun s => at_ s ∧ a.op = .ecall ∧ arrived s)
      (fun s => { s with now := settleFences s (s.now.deliver id { a with
        stage := .returned, poison := none, result := (answer.setWidth 64).setWidth 256 }) a.th })) ∧
    Happens (.loadDataReturn id) (fun s => at_ s ∧ a.op = .load ∧ a.stage = .remote ∧ arrived s ∧ s.board.routeLost = false ∧ s.now.mayPerform id a = true)
      (fun s => remoteData s id a) ∧
    Happens (.routeFailure id) (fun s => at_ s ∧ a.stage = .remote ∧ s.board.routeLost = true ∧ a.op ≠ .store ∧ a.op ≠ .ecall)
      (fun s => giveData s id { a with stage := .returned, poison := some 1 })

/-- O55. The events at the homes and of waiting words: a recall is answered and takes the words it names from their owner (12 R263), an
evicted line leaves its data in memory and its times in its slice (12 R255, R281), the host reads and writes (12 R277, R278, R280), a
walk fills a TLB (17 R371), a woken wait reads its word again, a limit that has passed ends it (13 R297, R298), an interval commits
early (21 R459). -/
def Obligations.HomeEvents : Prop :=
  (∀ (e : State) (m : Chip) (ln : Nat) (ws : BitVec 32), ((m.line e ln).owner = none → (m.line e ln).owned = 0) →
    (∀ p ∈ m.accesses, p.2.op ≠ .store) → (∀ k, (m.team k).rollback = false) → ((recallNow e m ln ws).line e ln).owned &&& ws = 0) ∧
  ∀ (ln : Nat) (h : HomeLine),
    let at_ := fun (s : State) => s.now.line s ln = h
    Happens (.recallLine ln) (fun s => at_ s ∧ h.state ≠ .invalidating ∧ h.held ≠ [] ∧ h.owner.any (drainWaits s s.now) = false)
      (fun s =>
        let c := recallNow s s.now ln h.recalled
        let c := c.setLine ln { c.line s ln with state := (c.line s ln).rest, recalled := 0, held := [] }
        { s with now := @Proto.serveHeld (answersAt s.now.depth) s c ln h.held }) ∧
    Leaves (.sliceEviction ln) (fun s => Sparse.find? s.now.home ln = some h ∧ h.busy = false ∧ h.releasers = [] ∧ h.conflict = [] ∧ h.owner = none ∧ s.mem.wf = true)
      (fun s t => Sparse.find? t.now.home ln = none ∧
        (t.now.sliceAt (sliceOf ln)).memts = max (s.now.sliceAt (sliceOf ln)).memts (s.now.line s ln).rts ∧
        (∀ j < 128, Memory.read t.mem (128 * ln + j) =
          if h.dirty.getLsbD (j / 4) = true then BitVec.ofNat 8 (h.data.toNat / 2 ^ (8 * j)) else Memory.read s.mem (128 * ln + j)) ∧
        (∀ p, p / 128 ≠ ln → Memory.read t.mem p = Memory.read s.mem p)) ∧
    (∀ addr size data cache,
      let l := fun (s : State) => s.now.line s (lineOf addr)
      let host := fun (s : State) => size ∈ [1, 2, 4, 8] ∧ addr % size = 0 ∧ deviceMemory s addr = true ∧ s.now.bankWaking addr = false ∧
        (l s).busy = false ∧ (l s).conflict = [] ∧ (l s).owner = none ∧ recallFrame s s.now addr = s.now
      let w := fun (s : State) => max s.now.hostClk ((l s).rts + 1)
      let answer := fun (s : State) => some { addr := addr, size := size, value := BitVec.ofNat 64 (peek s s.now addr size), poison := poisonAt s s.now addr size }
      Leaves (.hostMemAccess 1 addr size data cache) (fun s => host s ∧ demoteFrame s s.now addr = s.now ∧ writeHeld s s.now addr = false ∧
          s.now.timeFits (w s) = true)
        (fun s t => peek t t.now addr size = data.toNat % 2 ^ (8 * size) ∧
          (∀ q, q < addr ∨ addr + size ≤ q → peek t t.now q 1 = peek s s.now q 1) ∧ (l t).wts = w s ∧ (l t).rts = w s ∧ t.now.hostClk = w s) ∧
      Leaves (.hostMemAccess 0 addr size data cache) host
        (fun s t => t.now.hostReply = answer s ∧ t.now.hostClk = max s.now.hostClk (l s).wts ∧ t.mem = s.mem ∧
          (l t).hshare = (cache || (l s).hshare) ∧ ∀ q, peek t t.now q 1 = peek s s.now q 1)) ∧
    Happens (.backInvalidationResponse ln) (fun s => at_ s ∧ h.state = .invalidating)
      (fun s =>
        let c := @Proto.serveHeld (answersAt s.now.depth) s (s.now.setLine ln { h with state := h.rest, hshare := false, held := [], recalled := 0 }) ln h.held
        { s with now := if (c.line s ln).held = [] then @Proto.serveConflict (answersAt s.now.depth) s c ln else c }) ∧
    (∀ (e : State) (c : Chip), (c.line e ln).conflict = [] → serveConflict e c ln = c.setLine ln { c.line e ln with conflict := [] }) ∧
    (∀ (e : State) (c : Chip) x, (c.line e ln).conflict = [x] → @Proto.hostWaits e c x.1 x.2.1 = false →
      serveConflict e c ln = let d := hostServe e c x.1 x.2.1 x.2.2.1 x.2.2.2.1 x.2.2.2.2; d.setLine ln { d.line e ln with conflict := [] }) ∧
    (∀ inval, Happens (.hostSnoop ln inval) (fun s => Sparse.find? s.now.home ln = some h ∧ isHost (128 * ln) = true ∧ h.busy = false)
      (fun s => if inval = true then hostWrites (evictLine s ln) ln
        else { evictLine s ln with now := (evictLine s ln).now.setLine ln { h with dirty := 0, exclusive := false } })) ∧
    (∀ core ctx va x p level, Leaves (.surveyorWalk core ctx va)
      (fun s => core < Config.cores ∧ va < 2 ^ 55 ∧ (Sparse.find? s.now.ctxs ctx).isSome = true ∧ walk s s.now ctx va = .leaf x p level ∧ (level = 2 ∨ level = 3) ∧
        Pte.state x ≠ 2 ∧ Pte.state x ≠ 5 ∧ Pte.state x ≠ 6)
      (fun s t => (t.now.tlbFind core ctx va).map (·.entry.toNat) = some (x % 2 ^ 64) ∧ { t.now with cores := [] } = { s.now with cores := [] } ∧ t.mem = s.mem)) ∧
    (∀ th r cond pair b x,
      let ea := fun (s : State) => s.now.vv th pair
      let woken := fun (s : State) => (s.now.thread th).waitsOn = some r ∧ (s.now.thread th).watch.fired = true ∧ s.now.mayRun (s.now.teamOf th) = true ∧
        waitParts r.word = some (cond, pair, b) ∧ watchVerdict s th r.slot (ea s) = none ∧ watchAway s s.now th (ea s) = false ∧
        watchStalls s s.now th (ea s) = false ∧
        watchRead s (armWatch s s.now th (ea s)) th (ea s) = (x, none)
      let now := fun (s : State) =>
        let m := armWatch s s.now th (ea s)
        m.nextFree (watchRemote s m th (ea s))
      Happens (.watchFire th) (fun s => woken s ∧ cond.holds x ((now s).v th b) = true)
        (fun s => { s with now := (now s).release th (.value x tagRaw) }) ∧
      Happens (.watchFire th) (fun s => woken s ∧ cond.holds x ((now s).v th b) = false)
        (fun s => { s with now := (now s).setThread th { (now s).thread th with place := .waiting { r with seen := x } } })) ∧
    (∀ th r limit, Happens (.waitLimitExpiry th)
      (fun s => (s.now.thread th).waitsOn = some r ∧ r.kind = .word limit ∧ limit ≠ 0 ∧ limit ≤ r.waited ∧ s.now.mayRun (s.now.teamOf th) = true)
      (fun s => { s with now := s.now.release th (.value r.seen tagRaw) })) ∧
    (∀ k core,
      let open_ := fun (s : State) => (s.now.team k).rollback = true ∧ (s.now.team k).interval.early = false ∧ (s.now.team k).interval.held ≠ [] ∧
        (s.now.team k).core = some core
      Happens (.committedEarly k) open_ (fun s => { s with now := commitNow s s.now k }) ∧
      Leaves (.committedEarly k)
        (fun s => open_ s ∧ (s.now.core core).release.length + (s.now.team k).interval.held.length ≤ Config.releaseLines)
        (fun s t => (t.now.team k).interval.early = true ∧ (t.now.team k).interval.held = [] ∧
          ∀ w ∈ (s.now.team k).interval.held, w / 32 ∈ (t.now.core core).release))

/-- O56. The events of the carter, of the page-fault service and of the drover (14 R303 to R318, 17 R372 to R377, R383, R490): elements
are sent and performed, batches resolve, the elements of a saved team are written through or sent again; a held thread soft-faults;
pages are served; command records are taken; pages migrate; leases end. -/
def Obligations.CopyAndPageEvents : Prop :=
  ∀ (id i ctx va th team unit : Nat) (b : Batch) (x : Elem) (d : BitVec 128) (m : Migration),
    let at_ := fun (s : State) => Sparse.find? s.now.batches id = some b ∧ b.elems[i]? = some x
    let placed := fun (s : State) => (s.now.team (s.now.teamOf b.th)).core.isSome = true
    let finished := b.setElem i (fun y => { y with done := true, data := none })
    Happens (.carterTransferUnit unit) (fun s => s.now.batches = [(id, b)] ∧ b.elems = [x] ∧ x.unit = unit ∧ s.now.maySend b x = true)
      (fun s => { s with now := sendElem s s.now id 0 b x }) ∧
    Happens (.carterTransferUnit unit) (fun s => ∀ p ∈ s.now.batches, ∀ y ∈ p.2.elems, y.unit ≠ unit) (fun s => s) ∧
    (∀ (e : State) (c : Chip) (k off k' off' : Nat), targetSpot e c b x = .local_ k' off' → sourceSpot e c b x = .local_ k off →
      (c.team k).poisonedAt off x.size = false →
      sendElem e c id i b x = c.setBatch id (b.setElem i (fun y => { y with sent := true, data := some (BitVec.ofNat 128 (c.readLocal k off x.size)) }))) ∧
    Happens (.copyElement id i) (fun s => at_ s ∧ x.sent = true ∧ x.done = false ∧ x.data = some d ∧ placed s)
      (fun s => { s with now := landElem s s.now id i b x d }) ∧
    (∀ (e : State) (c : Chip) (k off : Nat), targetSpot e c b x = .local_ k off → Sparse.find? c.batches id = some b →
      landElem e c id i b x d = ((c.writeLocal k off x.size d.toNat).stampLocal k (c.coreOf b.th)).setBatch id finished) ∧
    Leaves (.batchResolve id) (fun s => Sparse.find? s.now.batches id = some b ∧ b.settled = true ∧ s.now.batchFirst b = true ∧ placed s)
      (fun s t => Sparse.find? t.now.batches id = none ∧ t.mem = s.mem ∧
        ∀ h, b.handle = some h → ∀ t' r, (s.now.reg t' r).wait = some (.handle h) →
          t.now.reg t' r = { s.now.reg t' r with bits := BitVec.ofNat 32 b.status, tag := tagHandle, wait := none }) ∧
    Happens (.remapWrite id i) (fun s => at_ s ∧ x.done = false ∧ x.data = some d ∧ s.now.cores.any (fun k => k.2.remap.contains (s.now.teamOf b.th)) = true)
      (fun s =>
        let c := noteLate s (landElem s s.now id i b x d) (s.now.teamOf b.th) b x
        let c := (resolveLate s c.batches.length c b.th).freeRemap (s.now.teamOf b.th)
        { s with now := refreshImage s c (c.ctxOf b.th) }) ∧
    Happens (.remapTimeout team) (fun s => (s.now.team team).core = none ∧ s.now.cores.any (fun k => k.2.remap.contains team) = true)
      (fun s =>
        let undo := fun (y : Elem) => if (y.sent && !y.done && (decide (y.kind = 0) || decide (y.kind = 3))) = true then { y with sent := false, data := none } else y
        let c := { s.now with batches := Sparse.mapVals (fun _ (b : Batch) => if s.now.teamOf b.th = team then { b with elems := b.elems.map undo } else b) s.now.batches }
        { s with now := refreshImage s (c.freeRemap team) (s.now.team team).ctx }) ∧
    (∀ n (w : Word × Nat),
      let due := fun (s : State) => (s.now.thread th).held = some (va, n) ∧ (s.now.thread th).heldWord = some w ∧
        (s.now.ctx (s.now.ctxOf th)).holdlim ≤ n ∧ heldPage s s.now th = true ∧ s.now.maySoft th = true ∧
        s.now.mayRun (s.now.teamOf th) = true
      let away := fun (s : State) => targetHeld s s.now (s.now.coreOf th) (s.now.ctxOf th) (s.now.thread th).level (s.now.team (s.now.teamOf th)).contvec
      Happens (.holdLimitExpiry th) (fun s => due s ∧ badContinuation s s.now th = none ∧ (away s).isSome = true) (fun s => s) ∧
      (∀ k, Happens (.holdLimitExpiry th) (fun s => due s ∧ badContinuation s s.now th = some k)
        (fun s =>
          let vec := (s.now.team (s.now.teamOf th)).contvec
          let pc := (s.now.thread th).pc
          { s with now := takeTrap s s.now th pc pc causeChain w.1 (BitVec.ofNat 32 (w.2 + 16 * k)) (vec.extractLsb' 0 32) (vec.extractLsb' 32 32) })) ∧
      Happens (.holdLimitExpiry th) (fun s => (s.now.thread th).heldWord = none) (fun s => s) ∧
      Leaves (.holdLimitExpiry th) (fun s => due s ∧ badContinuation s s.now th = none ∧ away s = none)
      (fun s t =>
        let y := t.now.thread th
        y.fpc = (s.now.thread th).pc ∧ y.cont = true ∧ y.pc = (s.now.team (s.now.teamOf th)).contvec ∧ y.level = (s.now.thread th).level ∧ y.held = none ∧
          y.fhandle.tag = tagHandle ∧ ∃ h, y.fhandle.wait = some (.handle h))) ∧
    Happens (.pageFaultService ctx va) (fun s => demanded s s.now ctx va = true ∧ pageAway s s.now ctx va = true)
      (fun s => { s with now := touch s s.now 0 ctx va false }) ∧
    Happens (.pageFaultService ctx va) (fun s => demanded s s.now ctx va = true ∧ pageAway s s.now ctx va = false ∧ s.board.split.getLsbD 0 = false)
      (fun s => { s with now := servePage s s.now ctx va }) ∧
    Happens (.pageFaultService ctx va) (fun s => demanded s s.now ctx va = true ∧ pageAway s s.now ctx va = false ∧ s.board.split.getLsbD 0 = true)
      (fun s => { s with now := watchPage s s.now ctx va }) ∧
    (∀ (e : State) (c : Chip) (y a l : Nat), walk e c ctx va = .leaf y a l →
      (Pte.state y = 0 → servePage e c ctx va = c.resolvePage ctx va 0) ∧
      (Pte.state y = 6 → servePage e c ctx va = c.resolvePage ctx va serviceFailed) ∧
      ∀ f c', l = 3 → c.poolBusy ctx = false → takeFrame e 1024 c ctx = (some f, c') →
        (Pte.state y = 5 → bitAt y 11 = true → servePage e c ctx va = fillPage e c' ctx va y a f) ∧
        (Pte.state y = 1 → bitAt y 12 = false → servePage e c ctx va = startMigration e c' ctx (va / 65536 * 65536) f none (some f))) ∧
    (∀ (e : State) (c : Chip) (y a target : Nat) (ring pool : Option Nat),
      let k : Migration := { ctx := ctx, va := va, entryAt := a, source := Pte.frame y, target := target, toNear := isHbm target
                             ring := ring, pool := pool, fromState := Pte.state y }
      pageLeaf e c ctx va = some (y, a) → (c.migrations.filter (fun q => decide (q.barn = k.barn))).length < Config.migrations → c.cowHeld k.source = false →
      startMigration e c ctx va target ring pool =
        let c := (agentWrite e c none a 8 (Pte.withState y 2)).shoot ctx (some va)
        { c with migrations := c.migrations ++ [k] }) ∧
    (∀ p : Nat,
      let k := fun (s : State) => s.now.ctx ctx
      let n := fun (s : State) => (k s).drvTaken.toNat
      let here := fun (s : State) => (k s).drvTaken ≠ (k s).drvqtail ∧ (k s).state ≠ .killed ∧ (k s).state ≠ .retired ∧
        deviceRead s s.now ctx ((k s).ring + 16 * (n s % 256)) = some p
      let word := fun (s : State) => peek s s.now (p + 8) 8
      let page := fun (s : State) => peek s s.now p 8
      let read := fun (s : State) => readCommand s s.now ctx (page s) (word s)
      let taken := fun (s : State) (c : Chip) =>
        let c := touch s c 0 ctx ((k s).ring + 16 * (n s % 256)) false
        c.setCtx ctx { c.ctx ctx with drvTaken := (k s).drvTaken + 1 }
      let done := fun (s : State) (c : Chip) => { s with now := completeRecord s c ctx (n s) (recordWord (word s % 4) 0 0 1) }
      Happens (.droverCommand ctx) (fun s => here s ∧ read s = .done) (fun s => done s (taken s s.now)) ∧
      Happens (.droverCommand ctx) (fun s => here s ∧ read s = .wait) (fun s => s) ∧
      (∀ f, Happens (.droverCommand ctx)
        (fun s => here s ∧ read s = .migrate f ∧ (startMigration s s.now ctx (page s) f (some (n s)) none).migrations.length ≠ s.now.migrations.length)
        (fun s => { s with now := taken s (startMigration s s.now ctx (page s) f (some (n s)) none) })) ∧
      (∀ y a,
        let base := copyBase (Pte.dev y) + Pte.frame y
        let told := fun (s : State) (c : Chip) (op : Nat) => (c.shoot ctx (some (page s))).tell (bulk (Pte.dev y) op (Pte.frame y))
        Happens (.droverCommand ctx) (fun s => here s ∧ read s = .checkOut y a)
          (fun s => done s (told s (agentWrite s (checkOutPage s (taken s s.now) base) none a 8 (Pte.withState y 4)) opCheckout)) ∧
        Happens (.droverCommand ctx) (fun s => here s ∧ read s = .giveBack y a ∧ s.now.frameBusy base = false)
          (fun s => done s (told s (agentWrite s (giveUpPage s (taken s s.now) (Pte.dev y) base (Pte.frame y)) none a 8 (Pte.withState y 3)) opReturn))) ∧
      (∀ st, Happens (.droverCommand ctx) (fun s => here s ∧ read s = .refuse st)
        (fun s => { s with now := completeRecord s (taken s s.now) ctx (n s) (recordWord (word s % 4) 0 st 2) }))) ∧
    Happens (.migration ctx va) (fun s => s.now.migrationOf ctx va = some m ∧ m.copied = false ∧ s.now.frameBusy m.source = false)
      (fun s =>
        let s := movePage s m.source m.target
        { s with now := { s.now with migrations := s.now.migrations.map (fun k => if k = m then { k with copied := true } else k) } }) ∧
    Happens (.migrationComplete ctx va) (fun s => s.now.migrationOf ctx va = some m ∧ m.copied = true) (fun s => { s with now := endMigration s s.now m }) ∧
    (∀ y at_ f c, Happens (.farPagePromotion ctx va)
      (fun s => pageLeaf s s.now ctx va = some (y, at_) ∧ (s.now.ctx ctx).drvcount = true ∧ Sparse.get 0 (s.now.ctx ctx).farCount (va / 65536) ≠ 0 ∧
        16 * (s.now.ctx ctx).drvthresh ≤ Sparse.get 0 (s.now.ctx ctx).farCount (va / 65536) ∧ Pte.state y = 1 ∧ s.now.poolBusy ctx = false ∧
        takeFrame s 1024 s.now ctx = (some f, c))
      (fun s => { s with now := startMigration s c ctx (va / 65536 * 65536) f none (some f) })) ∧
    (∀ page n, Happens (.pageLeaseEnd page) (fun s => Sparse.find? s.board.leasesGranted page = some n ∧ n ≤ s.board.dtick)
      (fun s =>
        let s := { s with board := { s.board with leasesGranted := Sparse.erase s.board.leasesGranted page } }
        serveInbox { s with now := flushDeferred s s.now }))

/-- O57. The events of the steward, of stops and saves, and of checkpoints (08 R182 to R184, 09 R185 to R195, 18 R392 to R421): queues,
dependences, placement and retirement; a context that is quiescent stops, saves or takes its mark; reports and moves end; checkpoints
stream. A pre-emption whose report address nothing populates is the fault unpopulatedPhysical (20 R438, log entry 107). -/
def Obligations.StewardAndContextEvents : Prop :=
  ∀ ctx q n : Nat,
    let x := fun (s : State) => s.now.ctx ctx
    let put := fun (s : State) (y : Ctx) => s.now.setCtx ctx y
    (Happens (.queueEnableChange ctx q) (fun s => (Sparse.find? s.now.ctxs ctx).isSome = true)
        (fun s => { s with now := enableQueue s (syncQueue s s.now ctx q) ctx q }) ∧
      (∀ c k r p, Happens (.stewardTake ctx q)
        (fun s => (Sparse.find? s.now.ctxs ctx).isSome = true ∧ (x s).served = true ∧
          enableQueue s (syncQueue s (stewardTouch s s.now ctx [(x s).table + 8 * q]) ctx q) ctx q = c ∧
          Sparse.find? (c.ctx ctx).queues q = some k ∧ k.state ≠ .disabled ∧ k.state ≠ .faulted ∧ takeWaits s c ctx k = false ∧ (deviceRead s c ctx (k.header + 0x10)).isSome = true ∧
          nextRecord s c ctx k = some r ∧ r ≠ 0 ∧ deviceRead s c ctx r = some p ∧ badRecordAddr s c ctx r = false)
        (fun s => { s with now := takeRecord s (stewardTouch s c ctx (queueReads s c ctx k.header)) ctx q k r p }))) ∧
    (∀ l, Happens (.dependencesMet n) (fun s => Sparse.find? s.now.launches n = some l ∧ l.state = .pending ∧
          (∀ a ∈ l.afters, wordState s s.now l.ctx a = 0 ∨ (l.proceed = true ∧ wordState s s.now l.ctx a = 2)))
        (fun s => { s with now := settleQueue s (readyLaunch s s.now n l) l.ctx l.qix }) ∧
      Happens (.dependencesMet n) (fun s => Sparse.find? s.now.launches n = some l ∧ l.state = .pending ∧ l.proceed = false ∧ doneWaits s s.now l.ctx l.doneAddr = false ∧
          ∃ a ∈ l.afters, wordState s s.now l.ctx a = 2)
        (fun s => { s with now := settleQueue s (killLaunch s s.now n 11) l.ctx l.qix })) ∧
    (∀ h rest c, Happens .clusterPlacement (fun s => s.now.readyHeads = h :: rest ∧ placeNext s s.now h.2.1 = some c)
      (fun s =>
        let y := c.ctx h.2.2.ctx
        let c' := if y.state = .loaded then c.setCtx h.2.2.ctx { y with state := .running } else c
        noteIntervals { s with now := settleQueue s { c' with turn := h.1 } h.2.2.ctx h.2.2.qix })) ∧
    (∀ core, Happens (.teamRetirement n) (fun s => (s.now.team n).core = some core ∧ s.now.teamDone n = true ∧
          doneWaits s s.now (s.now.team n).ctx (s.now.launch (s.now.team n).launch).doneAddr = false)
      (fun s => { s with now := retireTeam s s.now n core, shadows := Sparse.erase s.shadows n })) ∧
    (
      let still := fun (s : State) => (x s).state = .stopping ∧ s.now.quiescent (s.now.placedTeams ctx) = true
      let back := fun (s : State) => s.now.withdrawWaits (s.now.placedTeams ctx)
      let put := fun (s : State) (y : Ctx) => (back s).setCtx ctx { y with floor := (back s).floorWith ctx }
      Happens (.contextQuiescent ctx) (fun s => still s ∧ (x s).current = some .save)
        (fun s => { s with now := put s { x s with state := .saving } }) ∧
      (∀ f, Happens (.contextQuiescent ctx) (fun s => still s ∧ (x s).current = some (.mark f))
        (fun s => { s with now := put s { x s with state := .stopped, ckptseq := (x s).ckptseq + 1 } })) ∧
      Leaves (.contextQuiescent ctx) (fun s => still s ∧ (x s).current = some .stop ∧ (x s).requests = [])
        (fun s t => t.now.ctx ctx = { x s with floor := (back s).floorWith ctx, state := .stopped, res := 1, reason := 0, current := none } ∧ t.mem = s.mem)) ∧
    (
      let still := fun (s : State) => (x s).state = .saving ∧ s.now.quiescent (s.now.placedTeams ctx) = true
      Happens (.saveComplete ctx) (fun s => still s ∧ s.now.imageFits ctx (s.now.teamsOf ctx) = true)
        (fun s =>
          let c := (s.now.placedTeams ctx).foldl Chip.saveTeam (flushTeams s s.now ctx (s.now.placedTeams ctx))
          let c := unwatchQueues s (writeImage s c ctx (c.savedTeams ctx)) ctx
          { s with now := nextRequest s (c.setCtx ctx { c.ctx ctx with res := 1, reason := 0, current := none, state := .saved }) ctx }) ∧
      Leaves (.saveComplete ctx) (fun s => still s ∧ s.now.imageFits ctx (s.now.teamsOf ctx) = false ∧ (x s).requests = [])
        (fun s t => t.now = put s { x s with res := 2, reason := 7, current := none, state := .stopped })) ∧
    (∀ p,
      let still := fun (s : State) => (x s).preempt = some p ∧
        s.now.quiescent ((s.now.placedTeams ctx).filter (fun t => (s.now.team t).core.any (fun k => p.vacate.getLsbD k))) = true
      Happens (.preemptReport ctx) (fun s => still s ∧ populated s p.report = true ∧ populated s (p.report + 63) = true)
        (fun s => { s with now := endPreempt s s.now ctx p }) ∧
      (∀ s, s.issue = none → still s → (populated s p.report && populated s (p.report + 63)) = false →
        exec (.preemptReport ctx) s = .fault .unpopulatedPhysical)) ∧
    (∀ d,
      let moving := fun (s : State) => (x s).state = .migrating ∧ (x s).current = some (.move d) ∧
        s.now.cores.any (fun k => k.2.remap.any (fun t => decide ((s.now.team t).ctx = ctx))) = false
      Happens (.moveTransferDone ctx true) moving
        (fun s => { s with now := (handOver s s.now ctx d).setCtx ctx { x s with state := .retired, current := none, requests := [] } }) ∧
      Leaves (.moveTransferDone ctx false) (fun s => moving s ∧ (x s).requests = [])
        (fun s t => t.now = put s { x s with res := 2, reason := 8, current := none, state := .saved })) ∧
    (
      let due := fun (s : State) => s.board.split.getLsbD 1 = false ∧ (x s).state = .running ∧ (x s).ckptint ≠ 0 ∧ (x s).ckptint.toNat ≤ (x s).sinceMark ∧
        (∀ r ∈ (x s).requests ++ (x s).current.toList, ∀ f, r ≠ .mark f)
      Happens (.automaticMark ctx) (fun s => due s ∧ (x s).staged = false) (fun s => { s with now := postRequest s s.now ctx (.mark false) }) ∧
      Happens (.automaticMark ctx) (fun s => due s ∧ (x s).staged = true) (fun s => { s with now := put s { x s with sinceMark := 0 } })) ∧
    (∀ f, Leaves (.markStagingComplete ctx) (fun s => (x s).state = .stopped ∧ (x s).current = some (.mark f) ∧ (x s).requests = [])
      (fun s t => (t.now.ctx ctx).state = .running ∧ (t.now.ctx ctx).current = none ∧ (t.now.ctx ctx).sinceMark = 0 ∧ t.mem = s.mem ∧
        ∃ k, Sparse.find? (t.now.ctx ctx).ckpts (x s).ckptseq.toNat = some k ∧ (k.state = .staged ∨ k.state = .failed) ∧ k.floor = (x s).floor ∧
          (k.full = false → f = false ∧ (x s).ckptFresh = false))) ∧
    (∀ seq k va,
      let streams := fun (s : State) => (x s).ckptrate ≠ 0 ∧ (x s).ckptIn .streaming = some (seq, k)
      Happens (.checkpointStream ctx) (fun s => streams s ∧ k.pages[k.streamed]? = some va) (fun s => { s with now := streamPage s s.now ctx seq va k }) ∧
      Happens (.checkpointStream ctx) (fun s => (x s).ckptrate ≠ 0 ∧ (x s).ckptIn .streaming = none ∧ (x s).ckptIn .staged = some (seq, k))
        (fun s => { s with now := nextRequest s (startStream s s.now ctx seq k) ctx }) ∧
      Happens (.copyOnWriteRelease ctx va) (fun s => streams s ∧ va ∈ k.pages.drop k.streamed) (fun s => { s with now := streamPage s s.now ctx seq va k }) ∧
      Leaves (.checkpointComplete ctx) (fun s => (x s).ckptIn .streaming = some (seq, k) ∧ k.pages.length ≤ k.streamed ∧ (x s).requests = [])
        (fun s t => t.now = put s { x s with ckpts := Sparse.set (x s).ckpts seq { k with state := .complete }, ckptdone := BitVec.ofNat 32 seq }))

/-- O58. The events of the links, of power and of the stencil's slots (20 R444 to R448, 22 R473, R474, 23 R475 to R483): domain time,
flits, the states of ports; shares, P-states, parking and waking of dies; the reset; loading, arming and draining of slots. -/
def Obligations.LinkAndPowerEvents : Prop :=
  ∀ (p d n : Nat),
    let port := fun (s : State) => s.board.port p
    Leaves .timeSyncSend (fun s => s.board.master = some s.board.device ∧ 1024 ≤ s.board.sinceSync)
      (fun s t => t.board.sinceSync = 0 ∧ t.now = s.now ∧ ∀ i < 16, if (s.board.port i).carries = true then
        (t.board.port i).replay = (s.board.port i).replay ++
          [(flitHeader 0 s.board.device i (Sparse.get 0 s.board.sendSeq i) 7 false true, BitVec.ofNat 384 s.board.dtick)]
        else t.board.port i = s.board.port i) ∧
    (∀ v delay, Happens (.timeSyncReceive v delay) (fun s => s.board.master ≠ none ∧ s.board.master ≠ some s.board.device)
      (fun s => { s with board := { s.board with dtick := max s.board.dtick (min (2 ^ 48 - 1) (v.toNat + delay)), sinceSync := 0 } })) ∧
    Happens .syncLossTimeout (fun s => 65536 ≤ s.board.sinceSync ∧ s.board.master ≠ some s.board.device)
      (fun s => { s with board := { s.board with leasesHeld := [] } }) ∧
    (∀ h pay, Happens (.flitReceive p h pay true) (fun s => p < 16 ∧ (port s).carries = true ∧ flitKind h ≤ 7 ∧ fieldNat h.toNat 60 4 = 0 ∧ flitDst h = s.board.device) (fun s => takeFlit s h pay) ∧
      Happens (.flitReceive p h pay true) (fun s => p < 16 ∧ (port s).carries = true ∧ (7 < flitKind h ∨ fieldNat h.toNat 60 4 ≠ 0 ∨ flitDst h ≠ s.board.device))
        (fun s => s.setPort p { port s with dropped := min 255 ((port s).dropped + 1) }) ∧
      Happens (.flitReceive p h pay false) (fun _ => True) id ∧
      (∀ s, flitOrdered h = false → (Sparse.get {} s.board.flows (flowKey h)).seen.contains (flitSeq h) = true → takeFlit s h pay = s) ∧
      (∀ s m, m.kind = 4 → actOn s m = { s with now := s.now.fireGlobal (copyBase m.peer + m.addr) 4 }) ∧
      (∀ (s : State) (f : Flow), Sparse.get {} s.board.flows (flowKey h) = f → flitLast h = true → f.parts = [] →
        deliverOrdered s h pay = actOn { s with board := { s.board with flows := Sparse.set s.board.flows (flowKey h) f } } (messageOf h [pay]))) ∧
    Happens (.flitReplay p) (fun s => (port s).carries = true ∧ (port s).replay ≠ [] ∧ (port s).inRow < 7)
      (fun s => s.setPort p { port s with wire := (port s).wire ++ (port s).replay.take 1, replays := min 65535 ((port s).replays + 1), inRow := (port s).inRow + 1 }) ∧
    Happens (.flitReplay p) (fun s => (port s).carries = true ∧ (port s).replay ≠ [] ∧ 7 ≤ (port s).inRow)
      (fun s => s.setPort p { port s with wire := (port s).wire ++ (port s).replay.take 1, replays := min 65535 ((port s).replays + 1), state := .training, lanes := 0, inRow := 0 }) ∧
    (
      let expands := fun (bytes : Nat) (s : State) => if p = 17 then { s with board := { s.board with expander := bytes } } else s
      let width := 16 ≤ p → n = 16 ∨ n = 8 ∨ n = 4
      Happens (.trainingSuccess p n) (fun s => p ≤ 17 ∧ (port s).state = .training ∧ n = fullLanes p ∧ width)
        (fun s => (expands (Config.expanderBytes % 2 ^ 46) s).setPort p { port s with state := .up, lanes := n, inRow := 0 }) ∧
      Happens (.trainingSuccess p n) (fun s => p ≤ 17 ∧ (port s).state = .training ∧ 0 < n ∧ 2 * n ≤ fullLanes p ∧ width)
        (fun s => (expands (Config.expanderBytes % 2 ^ 46) s).setPort p { port s with state := .degraded, lanes := n, inRow := 0 }) ∧
      Happens (.trainingSuccess p n) (fun _ => 16 ≤ p ∧ n ∉ [16, 8, 4]) (fun s => s) ∧
      Happens (.trainingTimeout p) (fun s => (port s).state = .training) (fun s => (expands 0 s).setPort p { port s with state := .down, lanes := 0 })) ∧
    Happens (.trainingRetry p) (fun s => (port s).state = .down ∧ (p ≠ 16 ∨ 0 ∉ s.board.barnFenced)) (fun s => s.setPort p { port s with state := .training }) ∧
    Happens (.linkRetrain p) (fun s => (port s).carries = true) (fun s => s.setPort p { port s with state := .training, lanes := 0 }) ∧
    (∀ (avg : BitVec 11) (a b c e : Nat),
      let share := fun (s : State) (i m : Nat) => if (s.now.die i).state = .parked ∨ (s.now.die i).state = .fenced then Config.dieFloor else m
      Leaves (.reeveShare avg a b c e) (fun s => share s 0 a + share s 1 b + share s 2 c + share s 3 e ≤ 1024 ∧ avg.toNat ≤ s.board.ceiling)
        (fun s t => t.board = { s.board with avg := avg, ceiling := s.board.watts } ∧ (t.now.die 0).share = share s 0 a ∧ (t.now.die 1).share = share s 1 b ∧
          (t.now.die 2).share = share s 2 c ∧ (t.now.die 3).share = share s 3 e)) ∧
    (∀ k, Happens (.pstateTransition d) (fun s => (s.now.die d).target = some k)
      (fun s => { s with now := s.now.setDie d { s.now.die d with pstate := k, target := none } })) ∧
    Happens (.parkComplete d) (fun s => (s.now.die d).state = .parking)
      (fun s =>
        let t := cleanDie { s with now := spillDie s (emptyL1s s s.now d) d } d
        let c := t.now.setDie d { t.now.die d with state := .parked }
        { t with now := if (c.die d).unpark = true then c.wake d else c }) ∧
    Happens (.bankReady d n) (fun s => (s.now.die d).state = .waking)
      (fun s => { s with now := s.now.setDie d { s.now.die d with banks := (s.now.die d).banks.filter (· != n) } }) ∧
    Leaves (.wakeComplete d) (fun s => (s.now.die d).state = .waking ∧ (s.now.die d).banks = [])
      (fun s t => t.now.die d = { s.now.die d with state := .running } ∧ (∀ k ∈ coresOfDie d, (t.now.core k).l1 = [] ∧ (t.now.core k).plates = []) ∧
        (∀ k, k ∉ coresOfDie d → t.now.core k = s.now.core k) ∧ t.mem = s.mem) ∧
    Leaves (.powerOnSelfTest 0 n) (fun _ => True)
      (fun s t => t.mem = s.mem ∧ t.board.keys = s.board.keys ∧ t.now = { nextId := s.now.nextId, stamp := s.now.stamp, free := s.now.free } ∧
        t.board = { keys := s.board.keys, hostLanes := if n = 8 ∨ n = 16 then n else 4 }) ∧
    (∀ w : BitVec 32, w ≠ 0 → Leaves (.powerOnSelfTest w n) (fun _ => True)
      (fun s t => t.board.safe = true ∧ t.board.failedUnits = w ∧ (∀ i < 4, (t.now.die i).state = .fenced) ∧ t.mem = s.mem)) ∧
    (
      let x := fun (s : State) => s.now.slot n
      let checked := fun (s : State) => checkLoad s n (x s) (x s).verdict
      Happens (.patchLoadComplete n) (fun s => (x s).state = .loading ∧ checked s = .passes)
        (fun s => { s with now := s.now.setSlot n (imageSlot s (x s).image) }) ∧
      (∀ r, Happens (.patchLoadComplete n) (fun s => (x s).state = .loading ∧ checked s = .fails r)
        (fun s =>
          let id := if (x s).image % 128 = 0 ∧ readable s (x s).image 128 = true then imageField s (x s).image 6 2 else 0
          { s with now := loadRecords s (s.now.setSlot n { state := .failed, reason := r, image := (x s).image }) n r id })) ∧
      Happens (.verifyTimeout n) (fun s => (x s).state = .loading ∧ (x s).assisted = true ∧ (x s).verdict = none) (fun s => finishLoad s n (some false)) ∧
      Happens (.patchArmComplete n) (fun s => (x s).state = .loaded ∧ (x s).arming = true)
        (fun s => { s with now := (s.now.setSlot n { x s with state := .armed, arming := false }).discardAll }) ∧
      Happens (.drainComplete n) (fun s => (x s).state = .draining ∧ s.now.slotBusy n = false)
        (fun s => { s with now := s.now.setSlot n { x s with state := .loaded } }))

/-- O59. The events of errors, of barriers that time out, of the press and of the plough (13 R292, R293, 15 R323, R330, R344, 16 R364, 21
R450 to R462, R454, R460, 23 R482): a corrected word is only counted; an error that is due traps; a team is rolled back; dies are
fenced, at once or when the host has not answered; a timed-out barrier gives one record and a trap to every waiter; a quad joins. -/
def Obligations.ErrorAndPressEvents : Prop :=
  ∀ (k n th : Nat),
    Happens (.scrub k n false) (fun _ => k < 10 ∧ k ≠ 4)
      (fun s => { s with board := { s.board with
        corrected := Sparse.set s.board.corrected k (min (2 ^ 64 - 1) (Sparse.get 0 s.board.corrected k + 1)) } }) ∧
    Happens (.scrub k n true) (fun _ => k ≠ 7) (fun s => scrubBad s k n) ∧
    (∀ s, s.now.active (n / 128) = true → ((scrubBad s 0 n).now = scrubRecord s (s.now.setThread (n / 128) { s.now.thread (n / 128) with
      regs := Sparse.set (s.now.thread (n / 128)).regs (n % 128) { s.now.reg (n / 128) (n % 128) with poison := some 2 } })
      (some (s.now.ctxOf (n / 128))) 2 (n % 128))) ∧
    (∀ d, Happens (.uncorrectable th) (fun s => (s.now.thread th).due = some d ∧ s.now.mayRun (s.now.teamOf th) = true ∧ s.now.guarded th = false)
      (fun s => poisonTrap s th d.slot d.subcode d.addr (min d.since 256))) ∧
    Happens (.rollback k) (fun s => (s.now.team k).live = true ∧ (s.now.team k).rollback = true ∧ (s.now.team k).core.isSome = true ∧
        (s.now.team k).interval.early = false ∧ (s.now.team k).interval.rolled < 3)
      (fun s => rollbackTeam s k { cause := causeUncorrectable, sub := 10, source := 6, x := (s.now.team k).x, y := (s.now.team k).y, z := (s.now.team k).z
                                   core := (s.now.team k).core }) ∧
    (∀ i ∈ [Instr.dieFence n, .heartbeatLoss n],
      Leaves i (fun s => n < 4 ∧ (s.now.die n).state ≠ .fenced ∧ s.board.split.getLsbD 4 = false)
        (fun s t => t = fenceDie s n ∧ (t.now.die n).state = .fenced ∧ (t.now.die n).fencing = false ∧ t.mem = s.mem ∧ t.board = s.board) ∧
      Happens i (fun s => n < 4 ∧ (s.now.die n).state ≠ .fenced ∧ s.board.split.getLsbD 4 = true)
        (fun s => { s with now := s.now.setDie n { s.now.die n with fencing := true } })) ∧
    Leaves (.triageTimeout n) (fun s => n < 4 ∧ (s.now.die n).state ≠ .fenced ∧ (s.now.die n).fencing = true)
      (fun s t => t = fenceDie s n ∧ (t.now.die n).state = .fenced) ∧
    Happens (.barnDieFence n) (fun s => n < 2 ∧ n ∉ s.board.barnFenced) (fun s => fenceBarn s n) ∧
    Happens .standbyFailure (fun s => 0 ∈ s.board.barnFenced ∧ s.board.safe = false) enterSafe ∧
    (∀ s, (enterSafe s).board.safe = true) ∧
    (∀ r t q kind index arrived expected,
      let ws := fun (s : State) => s.now.coWaiters th r
      let count := min arrived 65535 + 65536 * min expected 65535
      let i1 : Word := BitVec.ofNat 32 (q.slot + 16 * kind)
      Happens (.barrierTimeout th)
        (fun s => (s.now.thread th).waitsOn = some r ∧ s.now.earliest (ws s) = some (t, q) ∧ q.timeout ≠ 0 ∧ q.timeout ≤ q.waited ∧
          s.now.mayRun (s.now.teamOf th) = true ∧ ¬ (r.kind = .quad ∧ 4 ≤ s.now.joined th r) ∧ s.now.waitInfo th r (ws s) = (kind, index, arrived, expected))
        (fun s => { s with now := (ws s).foldl (timeoutThread s kind index count) (errorRecord s s.now (s.now.ctxOf t)
          (s.now.threadRec t causeTimeout kind 2 (s.now.thread t).pc.toNat 0 0 i1 (BitVec.ofNat 32 index) (BitVec.ofNat 32 count))) }) ∧
      Happens (.barrierTimeout th)
        (fun s => (s.now.thread th).waitsOn = some r ∧ s.now.earliest (ws s) = some (t, q) ∧ q.timeout ≠ 0 ∧ q.timeout ≤ q.waited ∧
          s.now.mayRun (s.now.teamOf th) = true ∧ r.kind = .quad ∧ 4 ≤ s.now.joined th r)
        (fun s => { s with now := (ws s).foldl (fun c t => c.release t .joined) s.now }) ∧
      Happens (.quadJoin th)
        (fun s => (s.now.thread th).waitsOn = some r ∧ r.kind = .quad ∧ 4 ≤ s.now.joined th r ∧ s.now.mayRun (s.now.teamOf th) = true)
        (fun s => { s with now := (ws s).foldl (fun c t => c.release t .joined) s.now })) ∧
    Happens (.pressTileStep k n) (fun _ => n ≠ 0) (fun s => { s with now := pressStep s (s.now.releaseHeld k) k n (s.now.releaseHeld k).pressMay }) ∧
    (∀ q, Leaves (.pressEntryResolve n)
      (fun s => Sparse.find? s.now.press n = some q ∧ (s.now.team q.team).core.isSome = true ∧ (q.ended = true ∨ q.cancel = true ∨ q.fault.isSome = true))
      (fun s t => t = { s with now := s.now.resolvePress n q q.status } ∧ Sparse.find? t.now.press n = none)) ∧
    Happens (.ploughElementRead k n) (fun s => (s.now.group k).resident = true ∧ n < 4 ∧ s.now.mayRun (s.now.group k).team = true)
      (fun s => { s with now := ploughRead s s.now k n })

/-- O60. The words of BAR0, as they are written and read, and the mailbox (01 R9, R10, 20 R441 to R443, R448, 22 R473, R492, 23 R475, R482, R484): the command words, go, the
overrun bit and the buffer; the power words, clamped; and each command, once go has started it outside the safe state: where its
operands are in range it has its effect and is done, else it fails with its reason. -/
def Obligations.HostCommands : Prop :=
  (∀ (o : Nat) (v : BitVec 32),
    let put := fun (own : State → Prop) (f : Board → Board) => Happens (.registerWrite o v) own (fun s => { s with board := f s.board })
    (o = 0 → put (fun _ => True) (fun b => { b with mbcmd := v.setWidth 16 })) ∧
    (o = 4 → put (fun s => v.getLsbD 0 = true ∧ s.board.mbstate ≠ .busy) (fun b => { b with mbstate := .busy, mbreason := 0, mbrun := b.mbcmd })) ∧
    (o = 4 → put (fun s => v.getLsbD 0 = true ∧ s.board.mbstate = .busy) (fun b => { b with overrun := true })) ∧
    (o = 8 → put (fun _ => v.getLsbD 2 = true) (fun b => { b with overrun := false })) ∧
    (0x1000 ≤ o → o + 4 ≤ 0x2000 → put (fun _ => True) (fun b => { b with mbbuf := Memory.writeN b.mbbuf (o - 0x1000) 4 v.toNat })) ∧
    Happens (.pwrceilWrite v) (fun _ => True) (fun s => { s with board := { s.board with watts := max 250 (min 1000 (v.toNat % 2 ^ 11)) } }) ∧
    Happens (.splitWrite v) (fun _ => True) (fun s => { s with board := { s.board with split := v.setWidth 6 } }) ∧
    (∀ s : State, (o = 0 → s.bar0 o = s.board.mbcmd.setWidth 32) ∧ (o = 4 → s.bar0 o = 0) ∧
      (o = 8 → s.bar0 o = BitVec.ofNat 32 (s.board.mbstate.code + (if s.board.overrun = true then 4 else 0) + 256 * (s.board.mbreason % 256))) ∧
      (o = 0x200 → (s.bar0 o).toNat = s.board.watts % 2 ^ 11 + 2 ^ 16 * s.board.avg.toNat) ∧ (o = 0x208 → s.bar0 o = s.board.split.setWidth 32) ∧
      (0x1000 ≤ o → o + 4 ≤ 0x2000 → s.bar0 o = BitVec.ofNat 32 (Memory.readN s.board.mbbuf (o - 0x1000) 4)))) ∧
  (
    let ctx := fun (s : State) => s.buf 0 4
    let named := fun (s : State) => s.now.named (ctx s) = true
    let posts := fun (s : State) (r : Request) => { s with now := postRequest s s.now (ctx s) r }
    Answers .discovery 0x01 (fun _ => True) (fun s => (List.range Config.keys.length).foldl (fun s i =>
      (s.putBuf (8 + 16 * i) 8 (Config.keyCode (Config.keys.getD i ("", 0)).1)).putBuf (16 + 16 * i) 8 (Config.keys.getD i ("", 0)).2)
      (s.putBuf 0 8 Config.keys.length)) ∧
    Answers .selfTestReport 0x02 (fun _ => True) (fun s => (List.range 11).foldl (fun t i => t.putBuf (16 + 8 * i) 8 (Sparse.get 0 s.board.corrected i))
      (((s.putBuf 0 4 (if s.board.failedUnits = 0 then 1 else 0)).putBuf 4 4 s.board.failedUnits.toNat).putBuf 8 8 s.board.hostLanes)) ∧
    Answers .memoryReport 0x03 (fun _ => True) (fun s => ((s.putBuf 0 8 s.board.expander).putBuf 8 8 s.board.localBase).putBuf 16 8 s.board.localLen) ∧
    Answers .stopCommand 0x10 named (fun s => posts s .stop) ∧
    Answers .saveCommand 0x11 named (fun s => posts s .save) ∧
    Answers .resumeCommand 0x12 (fun s => named s ∧ s.buf 4 4 = 0) (fun s => posts s (.resume none)) ∧
    Answers .resumeCommand 0x12 (fun s => named s ∧ s.buf 4 4 = 1) (fun s => posts s (.resume (some (s.buf 8 4)))) ∧
    Answers .preEmptCommand 0x13 (fun s => named s ∧ s.buf 4 4 ≠ 0 ∧ s.buf 4 4 ≤ 160 ∧ populated s (s.buf 8 8) = true ∧ populated s (s.buf 8 8 + 63) = true)
      (fun s => posts s (.preempt (s.buf 4 4) (s.buf 8 8))) ∧
    Answers .move 0x14 (fun s => named s ∧ s.buf 4 2 ≤ 6143 ∧ s.buf 6 2 = 0) (fun s => posts s (.move (s.buf 4 2))) ∧
    Answers .kill 0x15 named (fun s => { s with now := Machine.kill s s.now (ctx s) causeKillRequest { cause := causeKillRequest, source := 7 } }) ∧
    Answers .release 0x16 named (fun s => posts s .release) ∧
    (∀ x, Answers .contextStatus 0x17 (fun s => Sparse.find? s.now.ctxs (ctx s) = some x)
      (fun s => (s.putBuf 0 4 (x.state.code)).putBuf 4 4 (x.word 0x182).toNat)) ∧
    (∀ n, Answers .createContext 0x18 (fun s => s.buf 0 8 % 65536 = 0 ∧ s.buf 8 8 % 65536 = 0 ∧ s.buf 0x10 8 % 65536 = 0 ∧ s.buf 0x30 4 ≤ 1 ∧ s.buf 0x28 8 = 0 ∧
        s.now.freeNumber = some n)
      (fun s => State.putBuf { s with now := s.now.setCtx n {
        savebase := BitVec.ofNat 64 (s.buf 0 8), savelen := BitVec.ofNat 64 (s.buf 8 8), ckptbase := BitVec.ofNat 64 (s.buf 0x10 8)
        ckptlen := BitVec.ofNat 64 (s.buf 0x18 8), ptbase := BitVec.ofNat 64 (s.buf 0x20 8), allowed := s.now.openCores } } 0 4 n)) ∧
    (∀ n code data c,
      let fresh := fun (s : State) => s.now.setCtx n {
        savebase := BitVec.ofNat 64 (s.buf 0 8), savelen := BitVec.ofNat 64 (s.buf 8 8), ckptbase := BitVec.ofNat 64 (s.buf 0x10 8)
        ckptlen := BitVec.ofNat 64 (s.buf 0x18 8), ptbase := BitVec.ofNat 64 (s.buf 0x20 8), allowed := s.now.openCores }
      Answers .createContext 0x18 (fun s => s.buf 0 8 % 65536 = 0 ∧ s.buf 8 8 % 65536 = 0 ∧ s.buf 0x10 8 % 65536 = 0 ∧ s.buf 0x30 4 ≤ 1 ∧ s.buf 0x28 8 ≠ 0 ∧
        s.now.freeNumber = some n ∧ loadObject s (fresh s) n (s.buf 0x28 8) (decide (s.buf 0x30 4 = 1)) = .inl (code, data, c))
      (fun s => State.putBuf { s with now := c } 0 4 n)) ∧
    (∀ code data c, Answers .loadCodeObject 0x19 (fun s => named s ∧ loadObject s s.now (ctx s) (s.buf 8 8) (bitAt (s.buf 0x10 4) 0) = .inl (code, data, c))
      (fun s => (State.putBuf { s with now := c } 0 8 code).putBuf 8 8 data)) ∧
    Answers .setAllowedCoreSet 0x1A named (fun s => { s with now := s.now.setCtx (ctx s) { s.now.ctx (ctx s) with allowed := BitVec.ofNat 160 (s.buf 4 20) } }) ∧
    Answers .writeAContextControlWord 0x1B (fun s => named s ∧ s.buf 4 4 ∈ contextWords ∧ (s.buf 4 4 = 0x183 ∨ s.buf 4 4 = 0x184 → s.now.teamsOf (ctx s) = []))
      (fun s => { s with now := s.now.setCtx (ctx s) ((s.now.ctx (ctx s)).write (s.buf 4 4) (BitVec.ofNat 64 (s.buf 8 8))) }) ∧
    (∀ i rest, Answers .verifyStencilImage 0x20 (fun s => Sparse.keysWhere (fun _ (x : Slot) => decide (x.state = .loading) && x.assisted && x.verdict.isNone &&
        decide (physBytes s s.now x.image 128 = s.bufBytes 0 128)) s.now.slots = i :: rest)
      (fun s => { s with now := s.now.setSlot i { s.now.slot i with verdict := some (decide (s.buf 192 4 = 1)) } })) ∧
    Answers .enrolOperatorKey 0x21 (fun s => s.buf 0 4 ≠ 0 ∧ s.buf 0 4 ≤ 4 ∧ s.buf 4 4 = 0 ∧
        signatureOk Config.vendorKey (s.bufBytes 0 40) (s.bufBytes 0x28 64) = true)
      (fun s => { s with board := { s.board with keys := Sparse.set s.board.keys (s.buf 0 4) (BitVec.ofNat 256 (s.buf 8 32)) } }) ∧
    Answers .keyStatus 0x22 (fun _ => True) (fun s => s.putBuf 0 4 (((List.range 4).map (fun k =>
      if (Sparse.find? s.board.keys (k + 1)).isSome = true then 2 ^ k else 0)).sum)) ∧
    Answers .portStatus 0x30 (fun s => s.buf 0 4 ≤ 17) (fun s =>
      (s.putBuf 0 4 (s.board.port (s.buf 0 4)).word).setPort (s.buf 0 4) { s.board.port (s.buf 0 4) with replays := 0 }) ∧
    Answers .fenceScaleUpPort 0x31 (fun s => s.buf 0 4 ≤ 15) (fun s => { s with board := s.board.fencePort (s.buf 0 4) }) ∧
    Answers .unfenceScaleUpPort 0x32 (fun s => s.buf 0 4 ≤ 15 ∧ (s.board.port (s.buf 0 4)).state = .fenced)
      (fun s => s.setPort (s.buf 0 4) { s.board.port (s.buf 0 4) with state := .down }) ∧
    Answers .unfenceScaleUpPort 0x32 (fun s => s.buf 0 4 ≤ 15 ∧ (s.board.port (s.buf 0 4)).state = .down)
      (fun s => s.setPort (s.buf 0 4) { s.board.port (s.buf 0 4) with state := .training }) ∧
    Answers .domainConfiguration 0x40 (fun s => s.buf 0 2 ≤ 6143 ∧ s.buf 2 2 ≤ 6143 ∧ s.buf 4 4 = 0)
      (fun s => { s with board := { s.board with device := s.buf 0 2, master := some (s.buf 2 2) } }) ∧
    Happens .unknownMailboxCommand (fun s => s.board.mbstate = .busy ∧ mailCodes.contains s.board.mbrun.toNat = false)
      (fun s => { s with board := { s.board with mbstate := .failed, mbreason := if s.board.safe = true then 2 else 1 } }) ∧
    (
      let fails := fun (i : Instr) (code : Nat) (own : State → Prop) (reason : Nat) =>
        Happens i (fun s => s.board.mbstate = .busy ∧ s.board.mbrun.toNat = code ∧ s.board.safe = false ∧ own s)
          (fun s => { s with board := { s.board with mbstate := .failed, mbreason := reason } })
      (∀ p ∈ [(Instr.stopCommand, 0x10), (.saveCommand, 0x11), (.resumeCommand, 0x12), (.preEmptCommand, 0x13), (.move, 0x14), (.kill, 0x15), (.release, 0x16),
          (.loadCodeObject, 0x19), (.setAllowedCoreSet, 0x1A), (.writeAContextControlWord, 0x1B)], fails p.1 p.2 (fun s => ¬ named s) 1) ∧
      fails .resumeCommand 0x12 (fun s => named s ∧ 1 < s.buf 4 4) 2 ∧
      fails .preEmptCommand 0x13 (fun s => named s ∧ (s.buf 4 4 = 0 ∨ 160 < s.buf 4 4 ∨ populated s (s.buf 8 8) = false ∨ populated s (s.buf 8 8 + 63) = false)) 2 ∧
      fails .move 0x14 (fun s => named s ∧ (6143 < s.buf 4 2 ∨ s.buf 6 2 ≠ 0)) 2 ∧
      fails .contextStatus 0x17 (fun s => Sparse.find? s.now.ctxs (ctx s) = none) 1 ∧
      fails .createContext 0x18 (fun s => s.buf 0 8 % 65536 ≠ 0 ∨ s.buf 8 8 % 65536 ≠ 0 ∨ s.buf 0x10 8 % 65536 ≠ 0 ∨ 1 < s.buf 0x30 4) 2 ∧
      (∀ r, fails .loadCodeObject 0x19 (fun s => named s ∧ loadObject s s.now (ctx s) (s.buf 8 8) (bitAt (s.buf 0x10 4) 0) = .inr r) r) ∧
      fails .writeAContextControlWord 0x1B (fun s => named s ∧ s.buf 4 4 ∉ contextWords) 2 ∧
      fails .writeAContextControlWord 0x1B (fun s => named s ∧ (s.buf 4 4 = 0x183 ∨ s.buf 4 4 = 0x184) ∧ s.now.teamsOf (ctx s) ≠ []) 6 ∧
      fails .enrolOperatorKey 0x21 (fun s => s.buf 0 4 = 0 ∨ 4 < s.buf 0 4 ∨ s.buf 4 4 ≠ 0) 2 ∧
      fails .portStatus 0x30 (fun s => 17 < s.buf 0 4) 2 ∧
      fails .fenceScaleUpPort 0x31 (fun s => 15 < s.buf 0 4) 2 ∧ fails .unfenceScaleUpPort 0x32 (fun s => 15 < s.buf 0 4) 2 ∧
      fails .domainConfiguration 0x40 (fun s => 6143 < s.buf 0 2 ∨ 6143 < s.buf 2 2 ∨ s.buf 4 4 ≠ 0) 2))
end

