-- ==== Sys2Proof/Laws/State.lean ====
section
/-! SUPPORT. Every field of the machine after every update of one of its tables: one lemma for each field and update, so that no
proof unfolds a record update. -/

namespace Sys2Proof.Machine

/-! `Chip.setThread`. -/

@[simp] theorem Chip.setThread_threads (c : Chip) (t : Nat) (x : Thread) : (c.setThread t x).threads = Sparse.set c.threads t x := rfl
@[simp] theorem Chip.setThread_groups (c : Chip) (t : Nat) (x : Thread) : (c.setThread t x).groups = c.groups := rfl
@[simp] theorem Chip.setThread_teams (c : Chip) (t : Nat) (x : Thread) : (c.setThread t x).teams = c.teams := rfl
@[simp] theorem Chip.setThread_clusters (c : Chip) (t : Nat) (x : Thread) : (c.setThread t x).clusters = c.clusters := rfl
@[simp] theorem Chip.setThread_launches (c : Chip) (t : Nat) (x : Thread) : (c.setThread t x).launches = c.launches := rfl
@[simp] theorem Chip.setThread_ctxs (c : Chip) (t : Nat) (x : Thread) : (c.setThread t x).ctxs = c.ctxs := rfl
@[simp] theorem Chip.setThread_crofts (c : Chip) (t : Nat) (x : Thread) : (c.setThread t x).crofts = c.crofts := rfl
@[simp] theorem Chip.setThread_cores (c : Chip) (t : Nat) (x : Thread) : (c.setThread t x).cores = c.cores := rfl
@[simp] theorem Chip.setThread_home (c : Chip) (t : Nat) (x : Thread) : (c.setThread t x).home = c.home := rfl
@[simp] theorem Chip.setThread_slices (c : Chip) (t : Nat) (x : Thread) : (c.setThread t x).slices = c.slices := rfl
@[simp] theorem Chip.setThread_lookout (c : Chip) (t : Nat) (x : Thread) : (c.setThread t x).lookout = c.lookout := rfl
@[simp] theorem Chip.setThread_accesses (c : Chip) (t : Nat) (x : Thread) : (c.setThread t x).accesses = c.accesses := rfl
@[simp] theorem Chip.setThread_batches (c : Chip) (t : Nat) (x : Thread) : (c.setThread t x).batches = c.batches := rfl
@[simp] theorem Chip.setThread_press (c : Chip) (t : Nat) (x : Thread) : (c.setThread t x).press = c.press := rfl
@[simp] theorem Chip.setThread_pubs (c : Chip) (t : Nat) (x : Thread) : (c.setThread t x).pubs = c.pubs := rfl
@[simp] theorem Chip.setThread_handles (c : Chip) (t : Nat) (x : Thread) : (c.setThread t x).handles = c.handles := rfl
@[simp] theorem Chip.setThread_migrations (c : Chip) (t : Nat) (x : Thread) : (c.setThread t x).migrations = c.migrations := rfl
@[simp] theorem Chip.setThread_slots (c : Chip) (t : Nat) (x : Thread) : (c.setThread t x).slots = c.slots := rfl
@[simp] theorem Chip.setThread_dies (c : Chip) (t : Nat) (x : Thread) : (c.setThread t x).dies = c.dies := rfl
@[simp] theorem Chip.setThread_powerReason (c : Chip) (t : Nat) (x : Thread) : (c.setThread t x).powerReason = c.powerReason := rfl
@[simp] theorem Chip.setThread_timeBase (c : Chip) (t : Nat) (x : Thread) : (c.setThread t x).timeBase = c.timeBase := rfl
@[simp] theorem Chip.setThread_generation (c : Chip) (t : Nat) (x : Thread) : (c.setThread t x).generation = c.generation := rfl
@[simp] theorem Chip.setThread_hostClk (c : Chip) (t : Nat) (x : Thread) : (c.setThread t x).hostClk = c.hostClk := rfl
@[simp] theorem Chip.setThread_hostReply (c : Chip) (t : Nat) (x : Thread) : (c.setThread t x).hostReply = c.hostReply := rfl
@[simp] theorem Chip.setThread_doors (c : Chip) (t : Nat) (x : Thread) : (c.setThread t x).doors = c.doors := rfl
@[simp] theorem Chip.setThread_sweeping (c : Chip) (t : Nat) (x : Thread) : (c.setThread t x).sweeping = c.sweeping := rfl
@[simp] theorem Chip.setThread_sweepQueued (c : Chip) (t : Nat) (x : Thread) : (c.setThread t x).sweepQueued = c.sweepQueued := rfl
@[simp] theorem Chip.setThread_turn (c : Chip) (t : Nat) (x : Thread) : (c.setThread t x).turn = c.turn := rfl
@[simp] theorem Chip.setThread_granted (c : Chip) (t : Nat) (x : Thread) : (c.setThread t x).granted = c.granted := rfl
@[simp] theorem Chip.setThread_outbox (c : Chip) (t : Nat) (x : Thread) : (c.setThread t x).outbox = c.outbox := rfl
@[simp] theorem Chip.setThread_deferred (c : Chip) (t : Nat) (x : Thread) : (c.setThread t x).deferred = c.deferred := rfl
@[simp] theorem Chip.setThread_farWatch (c : Chip) (t : Nat) (x : Thread) : (c.setThread t x).farWatch = c.farWatch := rfl
@[simp] theorem Chip.setThread_nextId (c : Chip) (t : Nat) (x : Thread) : (c.setThread t x).nextId = c.nextId := rfl
@[simp] theorem Chip.setThread_stamp (c : Chip) (t : Nat) (x : Thread) : (c.setThread t x).stamp = c.stamp := rfl
@[simp] theorem Chip.setThread_free (c : Chip) (t : Nat) (x : Thread) : (c.setThread t x).free = c.free := rfl

/-! `Chip.setGroup`. -/

@[simp] theorem Chip.setGroup_threads (c : Chip) (t : Nat) (x : Group) : (c.setGroup t x).threads = c.threads := rfl
@[simp] theorem Chip.setGroup_groups (c : Chip) (t : Nat) (x : Group) : (c.setGroup t x).groups = Sparse.set c.groups t x := rfl
@[simp] theorem Chip.setGroup_teams (c : Chip) (t : Nat) (x : Group) : (c.setGroup t x).teams = c.teams := rfl
@[simp] theorem Chip.setGroup_clusters (c : Chip) (t : Nat) (x : Group) : (c.setGroup t x).clusters = c.clusters := rfl
@[simp] theorem Chip.setGroup_launches (c : Chip) (t : Nat) (x : Group) : (c.setGroup t x).launches = c.launches := rfl
@[simp] theorem Chip.setGroup_ctxs (c : Chip) (t : Nat) (x : Group) : (c.setGroup t x).ctxs = c.ctxs := rfl
@[simp] theorem Chip.setGroup_crofts (c : Chip) (t : Nat) (x : Group) : (c.setGroup t x).crofts = c.crofts := rfl
@[simp] theorem Chip.setGroup_cores (c : Chip) (t : Nat) (x : Group) : (c.setGroup t x).cores = c.cores := rfl
@[simp] theorem Chip.setGroup_home (c : Chip) (t : Nat) (x : Group) : (c.setGroup t x).home = c.home := rfl
@[simp] theorem Chip.setGroup_slices (c : Chip) (t : Nat) (x : Group) : (c.setGroup t x).slices = c.slices := rfl
@[simp] theorem Chip.setGroup_lookout (c : Chip) (t : Nat) (x : Group) : (c.setGroup t x).lookout = c.lookout := rfl
@[simp] theorem Chip.setGroup_accesses (c : Chip) (t : Nat) (x : Group) : (c.setGroup t x).accesses = c.accesses := rfl
@[simp] theorem Chip.setGroup_batches (c : Chip) (t : Nat) (x : Group) : (c.setGroup t x).batches = c.batches := rfl
@[simp] theorem Chip.setGroup_press (c : Chip) (t : Nat) (x : Group) : (c.setGroup t x).press = c.press := rfl
@[simp] theorem Chip.setGroup_pubs (c : Chip) (t : Nat) (x : Group) : (c.setGroup t x).pubs = c.pubs := rfl
@[simp] theorem Chip.setGroup_handles (c : Chip) (t : Nat) (x : Group) : (c.setGroup t x).handles = c.handles := rfl
@[simp] theorem Chip.setGroup_migrations (c : Chip) (t : Nat) (x : Group) : (c.setGroup t x).migrations = c.migrations := rfl
@[simp] theorem Chip.setGroup_slots (c : Chip) (t : Nat) (x : Group) : (c.setGroup t x).slots = c.slots := rfl
@[simp] theorem Chip.setGroup_dies (c : Chip) (t : Nat) (x : Group) : (c.setGroup t x).dies = c.dies := rfl
@[simp] theorem Chip.setGroup_powerReason (c : Chip) (t : Nat) (x : Group) : (c.setGroup t x).powerReason = c.powerReason := rfl
@[simp] theorem Chip.setGroup_timeBase (c : Chip) (t : Nat) (x : Group) : (c.setGroup t x).timeBase = c.timeBase := rfl
@[simp] theorem Chip.setGroup_generation (c : Chip) (t : Nat) (x : Group) : (c.setGroup t x).generation = c.generation := rfl
@[simp] theorem Chip.setGroup_hostClk (c : Chip) (t : Nat) (x : Group) : (c.setGroup t x).hostClk = c.hostClk := rfl
@[simp] theorem Chip.setGroup_hostReply (c : Chip) (t : Nat) (x : Group) : (c.setGroup t x).hostReply = c.hostReply := rfl
@[simp] theorem Chip.setGroup_doors (c : Chip) (t : Nat) (x : Group) : (c.setGroup t x).doors = c.doors := rfl
@[simp] theorem Chip.setGroup_sweeping (c : Chip) (t : Nat) (x : Group) : (c.setGroup t x).sweeping = c.sweeping := rfl
@[simp] theorem Chip.setGroup_sweepQueued (c : Chip) (t : Nat) (x : Group) : (c.setGroup t x).sweepQueued = c.sweepQueued := rfl
@[simp] theorem Chip.setGroup_turn (c : Chip) (t : Nat) (x : Group) : (c.setGroup t x).turn = c.turn := rfl
@[simp] theorem Chip.setGroup_granted (c : Chip) (t : Nat) (x : Group) : (c.setGroup t x).granted = c.granted := rfl
@[simp] theorem Chip.setGroup_outbox (c : Chip) (t : Nat) (x : Group) : (c.setGroup t x).outbox = c.outbox := rfl
@[simp] theorem Chip.setGroup_deferred (c : Chip) (t : Nat) (x : Group) : (c.setGroup t x).deferred = c.deferred := rfl
@[simp] theorem Chip.setGroup_farWatch (c : Chip) (t : Nat) (x : Group) : (c.setGroup t x).farWatch = c.farWatch := rfl
@[simp] theorem Chip.setGroup_nextId (c : Chip) (t : Nat) (x : Group) : (c.setGroup t x).nextId = c.nextId := rfl
@[simp] theorem Chip.setGroup_stamp (c : Chip) (t : Nat) (x : Group) : (c.setGroup t x).stamp = c.stamp := rfl
@[simp] theorem Chip.setGroup_free (c : Chip) (t : Nat) (x : Group) : (c.setGroup t x).free = c.free := rfl

/-! `Chip.setTeam`. -/

@[simp] theorem Chip.setTeam_threads (c : Chip) (t : Nat) (x : Team) : (c.setTeam t x).threads = c.threads := rfl
@[simp] theorem Chip.setTeam_groups (c : Chip) (t : Nat) (x : Team) : (c.setTeam t x).groups = c.groups := rfl
@[simp] theorem Chip.setTeam_teams (c : Chip) (t : Nat) (x : Team) : (c.setTeam t x).teams = Sparse.set c.teams t x := rfl
@[simp] theorem Chip.setTeam_clusters (c : Chip) (t : Nat) (x : Team) : (c.setTeam t x).clusters = c.clusters := rfl
@[simp] theorem Chip.setTeam_launches (c : Chip) (t : Nat) (x : Team) : (c.setTeam t x).launches = c.launches := rfl
@[simp] theorem Chip.setTeam_ctxs (c : Chip) (t : Nat) (x : Team) : (c.setTeam t x).ctxs = c.ctxs := rfl
@[simp] theorem Chip.setTeam_crofts (c : Chip) (t : Nat) (x : Team) : (c.setTeam t x).crofts = c.crofts := rfl
@[simp] theorem Chip.setTeam_cores (c : Chip) (t : Nat) (x : Team) : (c.setTeam t x).cores = c.cores := rfl
@[simp] theorem Chip.setTeam_home (c : Chip) (t : Nat) (x : Team) : (c.setTeam t x).home = c.home := rfl
@[simp] theorem Chip.setTeam_slices (c : Chip) (t : Nat) (x : Team) : (c.setTeam t x).slices = c.slices := rfl
@[simp] theorem Chip.setTeam_lookout (c : Chip) (t : Nat) (x : Team) : (c.setTeam t x).lookout = c.lookout := rfl
@[simp] theorem Chip.setTeam_accesses (c : Chip) (t : Nat) (x : Team) : (c.setTeam t x).accesses = c.accesses := rfl
@[simp] theorem Chip.setTeam_batches (c : Chip) (t : Nat) (x : Team) : (c.setTeam t x).batches = c.batches := rfl
@[simp] theorem Chip.setTeam_press (c : Chip) (t : Nat) (x : Team) : (c.setTeam t x).press = c.press := rfl
@[simp] theorem Chip.setTeam_pubs (c : Chip) (t : Nat) (x : Team) : (c.setTeam t x).pubs = c.pubs := rfl
@[simp] theorem Chip.setTeam_handles (c : Chip) (t : Nat) (x : Team) : (c.setTeam t x).handles = c.handles := rfl
@[simp] theorem Chip.setTeam_migrations (c : Chip) (t : Nat) (x : Team) : (c.setTeam t x).migrations = c.migrations := rfl
@[simp] theorem Chip.setTeam_slots (c : Chip) (t : Nat) (x : Team) : (c.setTeam t x).slots = c.slots := rfl
@[simp] theorem Chip.setTeam_dies (c : Chip) (t : Nat) (x : Team) : (c.setTeam t x).dies = c.dies := rfl
@[simp] theorem Chip.setTeam_powerReason (c : Chip) (t : Nat) (x : Team) : (c.setTeam t x).powerReason = c.powerReason := rfl
@[simp] theorem Chip.setTeam_timeBase (c : Chip) (t : Nat) (x : Team) : (c.setTeam t x).timeBase = c.timeBase := rfl
@[simp] theorem Chip.setTeam_generation (c : Chip) (t : Nat) (x : Team) : (c.setTeam t x).generation = c.generation := rfl
@[simp] theorem Chip.setTeam_hostClk (c : Chip) (t : Nat) (x : Team) : (c.setTeam t x).hostClk = c.hostClk := rfl
@[simp] theorem Chip.setTeam_hostReply (c : Chip) (t : Nat) (x : Team) : (c.setTeam t x).hostReply = c.hostReply := rfl
@[simp] theorem Chip.setTeam_doors (c : Chip) (t : Nat) (x : Team) : (c.setTeam t x).doors = c.doors := rfl
@[simp] theorem Chip.setTeam_sweeping (c : Chip) (t : Nat) (x : Team) : (c.setTeam t x).sweeping = c.sweeping := rfl
@[simp] theorem Chip.setTeam_sweepQueued (c : Chip) (t : Nat) (x : Team) : (c.setTeam t x).sweepQueued = c.sweepQueued := rfl
@[simp] theorem Chip.setTeam_turn (c : Chip) (t : Nat) (x : Team) : (c.setTeam t x).turn = c.turn := rfl
@[simp] theorem Chip.setTeam_granted (c : Chip) (t : Nat) (x : Team) : (c.setTeam t x).granted = c.granted := rfl
@[simp] theorem Chip.setTeam_outbox (c : Chip) (t : Nat) (x : Team) : (c.setTeam t x).outbox = c.outbox := rfl
@[simp] theorem Chip.setTeam_deferred (c : Chip) (t : Nat) (x : Team) : (c.setTeam t x).deferred = c.deferred := rfl
@[simp] theorem Chip.setTeam_farWatch (c : Chip) (t : Nat) (x : Team) : (c.setTeam t x).farWatch = c.farWatch := rfl
@[simp] theorem Chip.setTeam_nextId (c : Chip) (t : Nat) (x : Team) : (c.setTeam t x).nextId = c.nextId := rfl
@[simp] theorem Chip.setTeam_stamp (c : Chip) (t : Nat) (x : Team) : (c.setTeam t x).stamp = c.stamp := rfl
@[simp] theorem Chip.setTeam_free (c : Chip) (t : Nat) (x : Team) : (c.setTeam t x).free = c.free := rfl

/-! `Chip.setCluster`. -/

@[simp] theorem Chip.setCluster_threads (c : Chip) (t : Nat) (x : Cluster) : (c.setCluster t x).threads = c.threads := rfl
@[simp] theorem Chip.setCluster_groups (c : Chip) (t : Nat) (x : Cluster) : (c.setCluster t x).groups = c.groups := rfl
@[simp] theorem Chip.setCluster_teams (c : Chip) (t : Nat) (x : Cluster) : (c.setCluster t x).teams = c.teams := rfl
@[simp] theorem Chip.setCluster_clusters (c : Chip) (t : Nat) (x : Cluster) : (c.setCluster t x).clusters = Sparse.set c.clusters t x := rfl
@[simp] theorem Chip.setCluster_launches (c : Chip) (t : Nat) (x : Cluster) : (c.setCluster t x).launches = c.launches := rfl
@[simp] theorem Chip.setCluster_ctxs (c : Chip) (t : Nat) (x : Cluster) : (c.setCluster t x).ctxs = c.ctxs := rfl
@[simp] theorem Chip.setCluster_crofts (c : Chip) (t : Nat) (x : Cluster) : (c.setCluster t x).crofts = c.crofts := rfl
@[simp] theorem Chip.setCluster_cores (c : Chip) (t : Nat) (x : Cluster) : (c.setCluster t x).cores = c.cores := rfl
@[simp] theorem Chip.setCluster_home (c : Chip) (t : Nat) (x : Cluster) : (c.setCluster t x).home = c.home := rfl
@[simp] theorem Chip.setCluster_slices (c : Chip) (t : Nat) (x : Cluster) : (c.setCluster t x).slices = c.slices := rfl
@[simp] theorem Chip.setCluster_lookout (c : Chip) (t : Nat) (x : Cluster) : (c.setCluster t x).lookout = c.lookout := rfl
@[simp] theorem Chip.setCluster_accesses (c : Chip) (t : Nat) (x : Cluster) : (c.setCluster t x).accesses = c.accesses := rfl
@[simp] theorem Chip.setCluster_batches (c : Chip) (t : Nat) (x : Cluster) : (c.setCluster t x).batches = c.batches := rfl
@[simp] theorem Chip.setCluster_press (c : Chip) (t : Nat) (x : Cluster) : (c.setCluster t x).press = c.press := rfl
@[simp] theorem Chip.setCluster_pubs (c : Chip) (t : Nat) (x : Cluster) : (c.setCluster t x).pubs = c.pubs := rfl
@[simp] theorem Chip.setCluster_handles (c : Chip) (t : Nat) (x : Cluster) : (c.setCluster t x).handles = c.handles := rfl
@[simp] theorem Chip.setCluster_migrations (c : Chip) (t : Nat) (x : Cluster) : (c.setCluster t x).migrations = c.migrations := rfl
@[simp] theorem Chip.setCluster_slots (c : Chip) (t : Nat) (x : Cluster) : (c.setCluster t x).slots = c.slots := rfl
@[simp] theorem Chip.setCluster_dies (c : Chip) (t : Nat) (x : Cluster) : (c.setCluster t x).dies = c.dies := rfl
@[simp] theorem Chip.setCluster_powerReason (c : Chip) (t : Nat) (x : Cluster) : (c.setCluster t x).powerReason = c.powerReason := rfl
@[simp] theorem Chip.setCluster_timeBase (c : Chip) (t : Nat) (x : Cluster) : (c.setCluster t x).timeBase = c.timeBase := rfl
@[simp] theorem Chip.setCluster_generation (c : Chip) (t : Nat) (x : Cluster) : (c.setCluster t x).generation = c.generation := rfl
@[simp] theorem Chip.setCluster_hostClk (c : Chip) (t : Nat) (x : Cluster) : (c.setCluster t x).hostClk = c.hostClk := rfl
@[simp] theorem Chip.setCluster_hostReply (c : Chip) (t : Nat) (x : Cluster) : (c.setCluster t x).hostReply = c.hostReply := rfl
@[simp] theorem Chip.setCluster_doors (c : Chip) (t : Nat) (x : Cluster) : (c.setCluster t x).doors = c.doors := rfl
@[simp] theorem Chip.setCluster_sweeping (c : Chip) (t : Nat) (x : Cluster) : (c.setCluster t x).sweeping = c.sweeping := rfl
@[simp] theorem Chip.setCluster_sweepQueued (c : Chip) (t : Nat) (x : Cluster) : (c.setCluster t x).sweepQueued = c.sweepQueued := rfl
@[simp] theorem Chip.setCluster_turn (c : Chip) (t : Nat) (x : Cluster) : (c.setCluster t x).turn = c.turn := rfl
@[simp] theorem Chip.setCluster_granted (c : Chip) (t : Nat) (x : Cluster) : (c.setCluster t x).granted = c.granted := rfl
@[simp] theorem Chip.setCluster_outbox (c : Chip) (t : Nat) (x : Cluster) : (c.setCluster t x).outbox = c.outbox := rfl
@[simp] theorem Chip.setCluster_deferred (c : Chip) (t : Nat) (x : Cluster) : (c.setCluster t x).deferred = c.deferred := rfl
@[simp] theorem Chip.setCluster_farWatch (c : Chip) (t : Nat) (x : Cluster) : (c.setCluster t x).farWatch = c.farWatch := rfl
@[simp] theorem Chip.setCluster_nextId (c : Chip) (t : Nat) (x : Cluster) : (c.setCluster t x).nextId = c.nextId := rfl
@[simp] theorem Chip.setCluster_stamp (c : Chip) (t : Nat) (x : Cluster) : (c.setCluster t x).stamp = c.stamp := rfl
@[simp] theorem Chip.setCluster_free (c : Chip) (t : Nat) (x : Cluster) : (c.setCluster t x).free = c.free := rfl

/-! `Chip.setLaunch`. -/

@[simp] theorem Chip.setLaunch_threads (c : Chip) (t : Nat) (x : Launch) : (c.setLaunch t x).threads = c.threads := rfl
@[simp] theorem Chip.setLaunch_groups (c : Chip) (t : Nat) (x : Launch) : (c.setLaunch t x).groups = c.groups := rfl
@[simp] theorem Chip.setLaunch_teams (c : Chip) (t : Nat) (x : Launch) : (c.setLaunch t x).teams = c.teams := rfl
@[simp] theorem Chip.setLaunch_clusters (c : Chip) (t : Nat) (x : Launch) : (c.setLaunch t x).clusters = c.clusters := rfl
@[simp] theorem Chip.setLaunch_launches (c : Chip) (t : Nat) (x : Launch) : (c.setLaunch t x).launches = Sparse.set c.launches t x := rfl
@[simp] theorem Chip.setLaunch_ctxs (c : Chip) (t : Nat) (x : Launch) : (c.setLaunch t x).ctxs = c.ctxs := rfl
@[simp] theorem Chip.setLaunch_crofts (c : Chip) (t : Nat) (x : Launch) : (c.setLaunch t x).crofts = c.crofts := rfl
@[simp] theorem Chip.setLaunch_cores (c : Chip) (t : Nat) (x : Launch) : (c.setLaunch t x).cores = c.cores := rfl
@[simp] theorem Chip.setLaunch_home (c : Chip) (t : Nat) (x : Launch) : (c.setLaunch t x).home = c.home := rfl
@[simp] theorem Chip.setLaunch_slices (c : Chip) (t : Nat) (x : Launch) : (c.setLaunch t x).slices = c.slices := rfl
@[simp] theorem Chip.setLaunch_lookout (c : Chip) (t : Nat) (x : Launch) : (c.setLaunch t x).lookout = c.lookout := rfl
@[simp] theorem Chip.setLaunch_accesses (c : Chip) (t : Nat) (x : Launch) : (c.setLaunch t x).accesses = c.accesses := rfl
@[simp] theorem Chip.setLaunch_batches (c : Chip) (t : Nat) (x : Launch) : (c.setLaunch t x).batches = c.batches := rfl
@[simp] theorem Chip.setLaunch_press (c : Chip) (t : Nat) (x : Launch) : (c.setLaunch t x).press = c.press := rfl
@[simp] theorem Chip.setLaunch_pubs (c : Chip) (t : Nat) (x : Launch) : (c.setLaunch t x).pubs = c.pubs := rfl
@[simp] theorem Chip.setLaunch_handles (c : Chip) (t : Nat) (x : Launch) : (c.setLaunch t x).handles = c.handles := rfl
@[simp] theorem Chip.setLaunch_migrations (c : Chip) (t : Nat) (x : Launch) : (c.setLaunch t x).migrations = c.migrations := rfl
@[simp] theorem Chip.setLaunch_slots (c : Chip) (t : Nat) (x : Launch) : (c.setLaunch t x).slots = c.slots := rfl
@[simp] theorem Chip.setLaunch_dies (c : Chip) (t : Nat) (x : Launch) : (c.setLaunch t x).dies = c.dies := rfl
@[simp] theorem Chip.setLaunch_powerReason (c : Chip) (t : Nat) (x : Launch) : (c.setLaunch t x).powerReason = c.powerReason := rfl
@[simp] theorem Chip.setLaunch_timeBase (c : Chip) (t : Nat) (x : Launch) : (c.setLaunch t x).timeBase = c.timeBase := rfl
@[simp] theorem Chip.setLaunch_generation (c : Chip) (t : Nat) (x : Launch) : (c.setLaunch t x).generation = c.generation := rfl
@[simp] theorem Chip.setLaunch_hostClk (c : Chip) (t : Nat) (x : Launch) : (c.setLaunch t x).hostClk = c.hostClk := rfl
@[simp] theorem Chip.setLaunch_hostReply (c : Chip) (t : Nat) (x : Launch) : (c.setLaunch t x).hostReply = c.hostReply := rfl
@[simp] theorem Chip.setLaunch_doors (c : Chip) (t : Nat) (x : Launch) : (c.setLaunch t x).doors = c.doors := rfl
@[simp] theorem Chip.setLaunch_sweeping (c : Chip) (t : Nat) (x : Launch) : (c.setLaunch t x).sweeping = c.sweeping := rfl
@[simp] theorem Chip.setLaunch_sweepQueued (c : Chip) (t : Nat) (x : Launch) : (c.setLaunch t x).sweepQueued = c.sweepQueued := rfl
@[simp] theorem Chip.setLaunch_turn (c : Chip) (t : Nat) (x : Launch) : (c.setLaunch t x).turn = c.turn := rfl
@[simp] theorem Chip.setLaunch_granted (c : Chip) (t : Nat) (x : Launch) : (c.setLaunch t x).granted = c.granted := rfl
@[simp] theorem Chip.setLaunch_outbox (c : Chip) (t : Nat) (x : Launch) : (c.setLaunch t x).outbox = c.outbox := rfl
@[simp] theorem Chip.setLaunch_deferred (c : Chip) (t : Nat) (x : Launch) : (c.setLaunch t x).deferred = c.deferred := rfl
@[simp] theorem Chip.setLaunch_farWatch (c : Chip) (t : Nat) (x : Launch) : (c.setLaunch t x).farWatch = c.farWatch := rfl
@[simp] theorem Chip.setLaunch_nextId (c : Chip) (t : Nat) (x : Launch) : (c.setLaunch t x).nextId = c.nextId := rfl
@[simp] theorem Chip.setLaunch_stamp (c : Chip) (t : Nat) (x : Launch) : (c.setLaunch t x).stamp = c.stamp := rfl
@[simp] theorem Chip.setLaunch_free (c : Chip) (t : Nat) (x : Launch) : (c.setLaunch t x).free = c.free := rfl

/-! `Chip.setCtx`. -/

@[simp] theorem Chip.setCtx_threads (c : Chip) (t : Nat) (x : Ctx) : (c.setCtx t x).threads = c.threads := rfl
@[simp] theorem Chip.setCtx_groups (c : Chip) (t : Nat) (x : Ctx) : (c.setCtx t x).groups = c.groups := rfl
@[simp] theorem Chip.setCtx_teams (c : Chip) (t : Nat) (x : Ctx) : (c.setCtx t x).teams = c.teams := rfl
@[simp] theorem Chip.setCtx_clusters (c : Chip) (t : Nat) (x : Ctx) : (c.setCtx t x).clusters = c.clusters := rfl
@[simp] theorem Chip.setCtx_launches (c : Chip) (t : Nat) (x : Ctx) : (c.setCtx t x).launches = c.launches := rfl
@[simp] theorem Chip.setCtx_ctxs (c : Chip) (t : Nat) (x : Ctx) : (c.setCtx t x).ctxs = Sparse.set c.ctxs t x := rfl
@[simp] theorem Chip.setCtx_crofts (c : Chip) (t : Nat) (x : Ctx) : (c.setCtx t x).crofts = c.crofts := rfl
@[simp] theorem Chip.setCtx_cores (c : Chip) (t : Nat) (x : Ctx) : (c.setCtx t x).cores = c.cores := rfl
@[simp] theorem Chip.setCtx_home (c : Chip) (t : Nat) (x : Ctx) : (c.setCtx t x).home = c.home := rfl
@[simp] theorem Chip.setCtx_slices (c : Chip) (t : Nat) (x : Ctx) : (c.setCtx t x).slices = c.slices := rfl
@[simp] theorem Chip.setCtx_lookout (c : Chip) (t : Nat) (x : Ctx) : (c.setCtx t x).lookout = c.lookout := rfl
@[simp] theorem Chip.setCtx_accesses (c : Chip) (t : Nat) (x : Ctx) : (c.setCtx t x).accesses = c.accesses := rfl
@[simp] theorem Chip.setCtx_batches (c : Chip) (t : Nat) (x : Ctx) : (c.setCtx t x).batches = c.batches := rfl
@[simp] theorem Chip.setCtx_press (c : Chip) (t : Nat) (x : Ctx) : (c.setCtx t x).press = c.press := rfl
@[simp] theorem Chip.setCtx_pubs (c : Chip) (t : Nat) (x : Ctx) : (c.setCtx t x).pubs = c.pubs := rfl
@[simp] theorem Chip.setCtx_handles (c : Chip) (t : Nat) (x : Ctx) : (c.setCtx t x).handles = c.handles := rfl
@[simp] theorem Chip.setCtx_migrations (c : Chip) (t : Nat) (x : Ctx) : (c.setCtx t x).migrations = c.migrations := rfl
@[simp] theorem Chip.setCtx_slots (c : Chip) (t : Nat) (x : Ctx) : (c.setCtx t x).slots = c.slots := rfl
@[simp] theorem Chip.setCtx_dies (c : Chip) (t : Nat) (x : Ctx) : (c.setCtx t x).dies = c.dies := rfl
@[simp] theorem Chip.setCtx_powerReason (c : Chip) (t : Nat) (x : Ctx) : (c.setCtx t x).powerReason = c.powerReason := rfl
@[simp] theorem Chip.setCtx_timeBase (c : Chip) (t : Nat) (x : Ctx) : (c.setCtx t x).timeBase = c.timeBase := rfl
@[simp] theorem Chip.setCtx_generation (c : Chip) (t : Nat) (x : Ctx) : (c.setCtx t x).generation = c.generation := rfl
@[simp] theorem Chip.setCtx_hostClk (c : Chip) (t : Nat) (x : Ctx) : (c.setCtx t x).hostClk = c.hostClk := rfl
@[simp] theorem Chip.setCtx_hostReply (c : Chip) (t : Nat) (x : Ctx) : (c.setCtx t x).hostReply = c.hostReply := rfl
@[simp] theorem Chip.setCtx_doors (c : Chip) (t : Nat) (x : Ctx) : (c.setCtx t x).doors = c.doors := rfl
@[simp] theorem Chip.setCtx_sweeping (c : Chip) (t : Nat) (x : Ctx) : (c.setCtx t x).sweeping = c.sweeping := rfl
@[simp] theorem Chip.setCtx_sweepQueued (c : Chip) (t : Nat) (x : Ctx) : (c.setCtx t x).sweepQueued = c.sweepQueued := rfl
@[simp] theorem Chip.setCtx_turn (c : Chip) (t : Nat) (x : Ctx) : (c.setCtx t x).turn = c.turn := rfl
@[simp] theorem Chip.setCtx_granted (c : Chip) (t : Nat) (x : Ctx) : (c.setCtx t x).granted = c.granted := rfl
@[simp] theorem Chip.setCtx_outbox (c : Chip) (t : Nat) (x : Ctx) : (c.setCtx t x).outbox = c.outbox := rfl
@[simp] theorem Chip.setCtx_deferred (c : Chip) (t : Nat) (x : Ctx) : (c.setCtx t x).deferred = c.deferred := rfl
@[simp] theorem Chip.setCtx_farWatch (c : Chip) (t : Nat) (x : Ctx) : (c.setCtx t x).farWatch = c.farWatch := rfl
@[simp] theorem Chip.setCtx_nextId (c : Chip) (t : Nat) (x : Ctx) : (c.setCtx t x).nextId = c.nextId := rfl
@[simp] theorem Chip.setCtx_stamp (c : Chip) (t : Nat) (x : Ctx) : (c.setCtx t x).stamp = c.stamp := rfl
@[simp] theorem Chip.setCtx_free (c : Chip) (t : Nat) (x : Ctx) : (c.setCtx t x).free = c.free := rfl

/-! `Chip.setCroft`. -/

@[simp] theorem Chip.setCroft_threads (c : Chip) (t : Nat) (x : Croft) : (c.setCroft t x).threads = c.threads := rfl
@[simp] theorem Chip.setCroft_groups (c : Chip) (t : Nat) (x : Croft) : (c.setCroft t x).groups = c.groups := rfl
@[simp] theorem Chip.setCroft_teams (c : Chip) (t : Nat) (x : Croft) : (c.setCroft t x).teams = c.teams := rfl
@[simp] theorem Chip.setCroft_clusters (c : Chip) (t : Nat) (x : Croft) : (c.setCroft t x).clusters = c.clusters := rfl
@[simp] theorem Chip.setCroft_launches (c : Chip) (t : Nat) (x : Croft) : (c.setCroft t x).launches = c.launches := rfl
@[simp] theorem Chip.setCroft_ctxs (c : Chip) (t : Nat) (x : Croft) : (c.setCroft t x).ctxs = c.ctxs := rfl
@[simp] theorem Chip.setCroft_crofts (c : Chip) (t : Nat) (x : Croft) : (c.setCroft t x).crofts = Sparse.set c.crofts t x := rfl
@[simp] theorem Chip.setCroft_cores (c : Chip) (t : Nat) (x : Croft) : (c.setCroft t x).cores = c.cores := rfl
@[simp] theorem Chip.setCroft_home (c : Chip) (t : Nat) (x : Croft) : (c.setCroft t x).home = c.home := rfl
@[simp] theorem Chip.setCroft_slices (c : Chip) (t : Nat) (x : Croft) : (c.setCroft t x).slices = c.slices := rfl
@[simp] theorem Chip.setCroft_lookout (c : Chip) (t : Nat) (x : Croft) : (c.setCroft t x).lookout = c.lookout := rfl
@[simp] theorem Chip.setCroft_accesses (c : Chip) (t : Nat) (x : Croft) : (c.setCroft t x).accesses = c.accesses := rfl
@[simp] theorem Chip.setCroft_batches (c : Chip) (t : Nat) (x : Croft) : (c.setCroft t x).batches = c.batches := rfl
@[simp] theorem Chip.setCroft_press (c : Chip) (t : Nat) (x : Croft) : (c.setCroft t x).press = c.press := rfl
@[simp] theorem Chip.setCroft_pubs (c : Chip) (t : Nat) (x : Croft) : (c.setCroft t x).pubs = c.pubs := rfl
@[simp] theorem Chip.setCroft_handles (c : Chip) (t : Nat) (x : Croft) : (c.setCroft t x).handles = c.handles := rfl
@[simp] theorem Chip.setCroft_migrations (c : Chip) (t : Nat) (x : Croft) : (c.setCroft t x).migrations = c.migrations := rfl
@[simp] theorem Chip.setCroft_slots (c : Chip) (t : Nat) (x : Croft) : (c.setCroft t x).slots = c.slots := rfl
@[simp] theorem Chip.setCroft_dies (c : Chip) (t : Nat) (x : Croft) : (c.setCroft t x).dies = c.dies := rfl
@[simp] theorem Chip.setCroft_powerReason (c : Chip) (t : Nat) (x : Croft) : (c.setCroft t x).powerReason = c.powerReason := rfl
@[simp] theorem Chip.setCroft_timeBase (c : Chip) (t : Nat) (x : Croft) : (c.setCroft t x).timeBase = c.timeBase := rfl
@[simp] theorem Chip.setCroft_generation (c : Chip) (t : Nat) (x : Croft) : (c.setCroft t x).generation = c.generation := rfl
@[simp] theorem Chip.setCroft_hostClk (c : Chip) (t : Nat) (x : Croft) : (c.setCroft t x).hostClk = c.hostClk := rfl
@[simp] theorem Chip.setCroft_hostReply (c : Chip) (t : Nat) (x : Croft) : (c.setCroft t x).hostReply = c.hostReply := rfl
@[simp] theorem Chip.setCroft_doors (c : Chip) (t : Nat) (x : Croft) : (c.setCroft t x).doors = c.doors := rfl
@[simp] theorem Chip.setCroft_sweeping (c : Chip) (t : Nat) (x : Croft) : (c.setCroft t x).sweeping = c.sweeping := rfl
@[simp] theorem Chip.setCroft_sweepQueued (c : Chip) (t : Nat) (x : Croft) : (c.setCroft t x).sweepQueued = c.sweepQueued := rfl
@[simp] theorem Chip.setCroft_turn (c : Chip) (t : Nat) (x : Croft) : (c.setCroft t x).turn = c.turn := rfl
@[simp] theorem Chip.setCroft_granted (c : Chip) (t : Nat) (x : Croft) : (c.setCroft t x).granted = c.granted := rfl
@[simp] theorem Chip.setCroft_outbox (c : Chip) (t : Nat) (x : Croft) : (c.setCroft t x).outbox = c.outbox := rfl
@[simp] theorem Chip.setCroft_deferred (c : Chip) (t : Nat) (x : Croft) : (c.setCroft t x).deferred = c.deferred := rfl
@[simp] theorem Chip.setCroft_farWatch (c : Chip) (t : Nat) (x : Croft) : (c.setCroft t x).farWatch = c.farWatch := rfl
@[simp] theorem Chip.setCroft_nextId (c : Chip) (t : Nat) (x : Croft) : (c.setCroft t x).nextId = c.nextId := rfl
@[simp] theorem Chip.setCroft_stamp (c : Chip) (t : Nat) (x : Croft) : (c.setCroft t x).stamp = c.stamp := rfl
@[simp] theorem Chip.setCroft_free (c : Chip) (t : Nat) (x : Croft) : (c.setCroft t x).free = c.free := rfl

/-! `Chip.setCore`. -/

@[simp] theorem Chip.setCore_threads (c : Chip) (t : Nat) (x : Core) : (c.setCore t x).threads = c.threads := rfl
@[simp] theorem Chip.setCore_groups (c : Chip) (t : Nat) (x : Core) : (c.setCore t x).groups = c.groups := rfl
@[simp] theorem Chip.setCore_teams (c : Chip) (t : Nat) (x : Core) : (c.setCore t x).teams = c.teams := rfl
@[simp] theorem Chip.setCore_clusters (c : Chip) (t : Nat) (x : Core) : (c.setCore t x).clusters = c.clusters := rfl
@[simp] theorem Chip.setCore_launches (c : Chip) (t : Nat) (x : Core) : (c.setCore t x).launches = c.launches := rfl
@[simp] theorem Chip.setCore_ctxs (c : Chip) (t : Nat) (x : Core) : (c.setCore t x).ctxs = c.ctxs := rfl
@[simp] theorem Chip.setCore_crofts (c : Chip) (t : Nat) (x : Core) : (c.setCore t x).crofts = c.crofts := rfl
@[simp] theorem Chip.setCore_cores (c : Chip) (t : Nat) (x : Core) : (c.setCore t x).cores = Sparse.set c.cores t x := rfl
@[simp] theorem Chip.setCore_home (c : Chip) (t : Nat) (x : Core) : (c.setCore t x).home = c.home := rfl
@[simp] theorem Chip.setCore_slices (c : Chip) (t : Nat) (x : Core) : (c.setCore t x).slices = c.slices := rfl
@[simp] theorem Chip.setCore_lookout (c : Chip) (t : Nat) (x : Core) : (c.setCore t x).lookout = c.lookout := rfl
@[simp] theorem Chip.setCore_accesses (c : Chip) (t : Nat) (x : Core) : (c.setCore t x).accesses = c.accesses := rfl
@[simp] theorem Chip.setCore_batches (c : Chip) (t : Nat) (x : Core) : (c.setCore t x).batches = c.batches := rfl
@[simp] theorem Chip.setCore_press (c : Chip) (t : Nat) (x : Core) : (c.setCore t x).press = c.press := rfl
@[simp] theorem Chip.setCore_pubs (c : Chip) (t : Nat) (x : Core) : (c.setCore t x).pubs = c.pubs := rfl
@[simp] theorem Chip.setCore_handles (c : Chip) (t : Nat) (x : Core) : (c.setCore t x).handles = c.handles := rfl
@[simp] theorem Chip.setCore_migrations (c : Chip) (t : Nat) (x : Core) : (c.setCore t x).migrations = c.migrations := rfl
@[simp] theorem Chip.setCore_slots (c : Chip) (t : Nat) (x : Core) : (c.setCore t x).slots = c.slots := rfl
@[simp] theorem Chip.setCore_dies (c : Chip) (t : Nat) (x : Core) : (c.setCore t x).dies = c.dies := rfl
@[simp] theorem Chip.setCore_powerReason (c : Chip) (t : Nat) (x : Core) : (c.setCore t x).powerReason = c.powerReason := rfl
@[simp] theorem Chip.setCore_timeBase (c : Chip) (t : Nat) (x : Core) : (c.setCore t x).timeBase = c.timeBase := rfl
@[simp] theorem Chip.setCore_generation (c : Chip) (t : Nat) (x : Core) : (c.setCore t x).generation = c.generation := rfl
@[simp] theorem Chip.setCore_hostClk (c : Chip) (t : Nat) (x : Core) : (c.setCore t x).hostClk = c.hostClk := rfl
@[simp] theorem Chip.setCore_hostReply (c : Chip) (t : Nat) (x : Core) : (c.setCore t x).hostReply = c.hostReply := rfl
@[simp] theorem Chip.setCore_doors (c : Chip) (t : Nat) (x : Core) : (c.setCore t x).doors = c.doors := rfl
@[simp] theorem Chip.setCore_sweeping (c : Chip) (t : Nat) (x : Core) : (c.setCore t x).sweeping = c.sweeping := rfl
@[simp] theorem Chip.setCore_sweepQueued (c : Chip) (t : Nat) (x : Core) : (c.setCore t x).sweepQueued = c.sweepQueued := rfl
@[simp] theorem Chip.setCore_turn (c : Chip) (t : Nat) (x : Core) : (c.setCore t x).turn = c.turn := rfl
@[simp] theorem Chip.setCore_granted (c : Chip) (t : Nat) (x : Core) : (c.setCore t x).granted = c.granted := rfl
@[simp] theorem Chip.setCore_outbox (c : Chip) (t : Nat) (x : Core) : (c.setCore t x).outbox = c.outbox := rfl
@[simp] theorem Chip.setCore_deferred (c : Chip) (t : Nat) (x : Core) : (c.setCore t x).deferred = c.deferred := rfl
@[simp] theorem Chip.setCore_farWatch (c : Chip) (t : Nat) (x : Core) : (c.setCore t x).farWatch = c.farWatch := rfl
@[simp] theorem Chip.setCore_nextId (c : Chip) (t : Nat) (x : Core) : (c.setCore t x).nextId = c.nextId := rfl
@[simp] theorem Chip.setCore_stamp (c : Chip) (t : Nat) (x : Core) : (c.setCore t x).stamp = c.stamp := rfl
@[simp] theorem Chip.setCore_free (c : Chip) (t : Nat) (x : Core) : (c.setCore t x).free = c.free := rfl

/-! `Chip.setSlot`. -/

@[simp] theorem Chip.setSlot_threads (c : Chip) (t : Nat) (x : Slot) : (c.setSlot t x).threads = c.threads := rfl
@[simp] theorem Chip.setSlot_groups (c : Chip) (t : Nat) (x : Slot) : (c.setSlot t x).groups = c.groups := rfl
@[simp] theorem Chip.setSlot_teams (c : Chip) (t : Nat) (x : Slot) : (c.setSlot t x).teams = c.teams := rfl
@[simp] theorem Chip.setSlot_clusters (c : Chip) (t : Nat) (x : Slot) : (c.setSlot t x).clusters = c.clusters := rfl
@[simp] theorem Chip.setSlot_launches (c : Chip) (t : Nat) (x : Slot) : (c.setSlot t x).launches = c.launches := rfl
@[simp] theorem Chip.setSlot_ctxs (c : Chip) (t : Nat) (x : Slot) : (c.setSlot t x).ctxs = c.ctxs := rfl
@[simp] theorem Chip.setSlot_crofts (c : Chip) (t : Nat) (x : Slot) : (c.setSlot t x).crofts = c.crofts := rfl
@[simp] theorem Chip.setSlot_cores (c : Chip) (t : Nat) (x : Slot) : (c.setSlot t x).cores = c.cores := rfl
@[simp] theorem Chip.setSlot_home (c : Chip) (t : Nat) (x : Slot) : (c.setSlot t x).home = c.home := rfl
@[simp] theorem Chip.setSlot_slices (c : Chip) (t : Nat) (x : Slot) : (c.setSlot t x).slices = c.slices := rfl
@[simp] theorem Chip.setSlot_lookout (c : Chip) (t : Nat) (x : Slot) : (c.setSlot t x).lookout = c.lookout := rfl
@[simp] theorem Chip.setSlot_accesses (c : Chip) (t : Nat) (x : Slot) : (c.setSlot t x).accesses = c.accesses := rfl
@[simp] theorem Chip.setSlot_batches (c : Chip) (t : Nat) (x : Slot) : (c.setSlot t x).batches = c.batches := rfl
@[simp] theorem Chip.setSlot_press (c : Chip) (t : Nat) (x : Slot) : (c.setSlot t x).press = c.press := rfl
@[simp] theorem Chip.setSlot_pubs (c : Chip) (t : Nat) (x : Slot) : (c.setSlot t x).pubs = c.pubs := rfl
@[simp] theorem Chip.setSlot_handles (c : Chip) (t : Nat) (x : Slot) : (c.setSlot t x).handles = c.handles := rfl
@[simp] theorem Chip.setSlot_migrations (c : Chip) (t : Nat) (x : Slot) : (c.setSlot t x).migrations = c.migrations := rfl
@[simp] theorem Chip.setSlot_slots (c : Chip) (t : Nat) (x : Slot) : (c.setSlot t x).slots = Sparse.set c.slots t x := rfl
@[simp] theorem Chip.setSlot_dies (c : Chip) (t : Nat) (x : Slot) : (c.setSlot t x).dies = c.dies := rfl
@[simp] theorem Chip.setSlot_powerReason (c : Chip) (t : Nat) (x : Slot) : (c.setSlot t x).powerReason = c.powerReason := rfl
@[simp] theorem Chip.setSlot_timeBase (c : Chip) (t : Nat) (x : Slot) : (c.setSlot t x).timeBase = c.timeBase := rfl
@[simp] theorem Chip.setSlot_generation (c : Chip) (t : Nat) (x : Slot) : (c.setSlot t x).generation = c.generation := rfl
@[simp] theorem Chip.setSlot_hostClk (c : Chip) (t : Nat) (x : Slot) : (c.setSlot t x).hostClk = c.hostClk := rfl
@[simp] theorem Chip.setSlot_hostReply (c : Chip) (t : Nat) (x : Slot) : (c.setSlot t x).hostReply = c.hostReply := rfl
@[simp] theorem Chip.setSlot_doors (c : Chip) (t : Nat) (x : Slot) : (c.setSlot t x).doors = c.doors := rfl
@[simp] theorem Chip.setSlot_sweeping (c : Chip) (t : Nat) (x : Slot) : (c.setSlot t x).sweeping = c.sweeping := rfl
@[simp] theorem Chip.setSlot_sweepQueued (c : Chip) (t : Nat) (x : Slot) : (c.setSlot t x).sweepQueued = c.sweepQueued := rfl
@[simp] theorem Chip.setSlot_turn (c : Chip) (t : Nat) (x : Slot) : (c.setSlot t x).turn = c.turn := rfl
@[simp] theorem Chip.setSlot_granted (c : Chip) (t : Nat) (x : Slot) : (c.setSlot t x).granted = c.granted := rfl
@[simp] theorem Chip.setSlot_outbox (c : Chip) (t : Nat) (x : Slot) : (c.setSlot t x).outbox = c.outbox := rfl
@[simp] theorem Chip.setSlot_deferred (c : Chip) (t : Nat) (x : Slot) : (c.setSlot t x).deferred = c.deferred := rfl
@[simp] theorem Chip.setSlot_farWatch (c : Chip) (t : Nat) (x : Slot) : (c.setSlot t x).farWatch = c.farWatch := rfl
@[simp] theorem Chip.setSlot_nextId (c : Chip) (t : Nat) (x : Slot) : (c.setSlot t x).nextId = c.nextId := rfl
@[simp] theorem Chip.setSlot_stamp (c : Chip) (t : Nat) (x : Slot) : (c.setSlot t x).stamp = c.stamp := rfl
@[simp] theorem Chip.setSlot_free (c : Chip) (t : Nat) (x : Slot) : (c.setSlot t x).free = c.free := rfl

/-! `Chip.setDie`. -/

@[simp] theorem Chip.setDie_threads (c : Chip) (t : Nat) (x : Die) : (c.setDie t x).threads = c.threads := rfl
@[simp] theorem Chip.setDie_groups (c : Chip) (t : Nat) (x : Die) : (c.setDie t x).groups = c.groups := rfl
@[simp] theorem Chip.setDie_teams (c : Chip) (t : Nat) (x : Die) : (c.setDie t x).teams = c.teams := rfl
@[simp] theorem Chip.setDie_clusters (c : Chip) (t : Nat) (x : Die) : (c.setDie t x).clusters = c.clusters := rfl
@[simp] theorem Chip.setDie_launches (c : Chip) (t : Nat) (x : Die) : (c.setDie t x).launches = c.launches := rfl
@[simp] theorem Chip.setDie_ctxs (c : Chip) (t : Nat) (x : Die) : (c.setDie t x).ctxs = c.ctxs := rfl
@[simp] theorem Chip.setDie_crofts (c : Chip) (t : Nat) (x : Die) : (c.setDie t x).crofts = c.crofts := rfl
@[simp] theorem Chip.setDie_cores (c : Chip) (t : Nat) (x : Die) : (c.setDie t x).cores = c.cores := rfl
@[simp] theorem Chip.setDie_home (c : Chip) (t : Nat) (x : Die) : (c.setDie t x).home = c.home := rfl
@[simp] theorem Chip.setDie_slices (c : Chip) (t : Nat) (x : Die) : (c.setDie t x).slices = c.slices := rfl
@[simp] theorem Chip.setDie_lookout (c : Chip) (t : Nat) (x : Die) : (c.setDie t x).lookout = c.lookout := rfl
@[simp] theorem Chip.setDie_accesses (c : Chip) (t : Nat) (x : Die) : (c.setDie t x).accesses = c.accesses := rfl
@[simp] theorem Chip.setDie_batches (c : Chip) (t : Nat) (x : Die) : (c.setDie t x).batches = c.batches := rfl
@[simp] theorem Chip.setDie_press (c : Chip) (t : Nat) (x : Die) : (c.setDie t x).press = c.press := rfl
@[simp] theorem Chip.setDie_pubs (c : Chip) (t : Nat) (x : Die) : (c.setDie t x).pubs = c.pubs := rfl
@[simp] theorem Chip.setDie_handles (c : Chip) (t : Nat) (x : Die) : (c.setDie t x).handles = c.handles := rfl
@[simp] theorem Chip.setDie_migrations (c : Chip) (t : Nat) (x : Die) : (c.setDie t x).migrations = c.migrations := rfl
@[simp] theorem Chip.setDie_slots (c : Chip) (t : Nat) (x : Die) : (c.setDie t x).slots = c.slots := rfl
@[simp] theorem Chip.setDie_dies (c : Chip) (t : Nat) (x : Die) : (c.setDie t x).dies = Sparse.set c.dies t x := rfl
@[simp] theorem Chip.setDie_powerReason (c : Chip) (t : Nat) (x : Die) : (c.setDie t x).powerReason = c.powerReason := rfl
@[simp] theorem Chip.setDie_timeBase (c : Chip) (t : Nat) (x : Die) : (c.setDie t x).timeBase = c.timeBase := rfl
@[simp] theorem Chip.setDie_generation (c : Chip) (t : Nat) (x : Die) : (c.setDie t x).generation = c.generation := rfl
@[simp] theorem Chip.setDie_hostClk (c : Chip) (t : Nat) (x : Die) : (c.setDie t x).hostClk = c.hostClk := rfl
@[simp] theorem Chip.setDie_hostReply (c : Chip) (t : Nat) (x : Die) : (c.setDie t x).hostReply = c.hostReply := rfl
@[simp] theorem Chip.setDie_doors (c : Chip) (t : Nat) (x : Die) : (c.setDie t x).doors = c.doors := rfl
@[simp] theorem Chip.setDie_sweeping (c : Chip) (t : Nat) (x : Die) : (c.setDie t x).sweeping = c.sweeping := rfl
@[simp] theorem Chip.setDie_sweepQueued (c : Chip) (t : Nat) (x : Die) : (c.setDie t x).sweepQueued = c.sweepQueued := rfl
@[simp] theorem Chip.setDie_turn (c : Chip) (t : Nat) (x : Die) : (c.setDie t x).turn = c.turn := rfl
@[simp] theorem Chip.setDie_granted (c : Chip) (t : Nat) (x : Die) : (c.setDie t x).granted = c.granted := rfl
@[simp] theorem Chip.setDie_outbox (c : Chip) (t : Nat) (x : Die) : (c.setDie t x).outbox = c.outbox := rfl
@[simp] theorem Chip.setDie_deferred (c : Chip) (t : Nat) (x : Die) : (c.setDie t x).deferred = c.deferred := rfl
@[simp] theorem Chip.setDie_farWatch (c : Chip) (t : Nat) (x : Die) : (c.setDie t x).farWatch = c.farWatch := rfl
@[simp] theorem Chip.setDie_nextId (c : Chip) (t : Nat) (x : Die) : (c.setDie t x).nextId = c.nextId := rfl
@[simp] theorem Chip.setDie_stamp (c : Chip) (t : Nat) (x : Die) : (c.setDie t x).stamp = c.stamp := rfl
@[simp] theorem Chip.setDie_free (c : Chip) (t : Nat) (x : Die) : (c.setDie t x).free = c.free := rfl

/-! `Chip.setSlice`. -/

@[simp] theorem Chip.setSlice_threads (c : Chip) (t : Nat) (x : Slice) : (c.setSlice t x).threads = c.threads := rfl
@[simp] theorem Chip.setSlice_groups (c : Chip) (t : Nat) (x : Slice) : (c.setSlice t x).groups = c.groups := rfl
@[simp] theorem Chip.setSlice_teams (c : Chip) (t : Nat) (x : Slice) : (c.setSlice t x).teams = c.teams := rfl
@[simp] theorem Chip.setSlice_clusters (c : Chip) (t : Nat) (x : Slice) : (c.setSlice t x).clusters = c.clusters := rfl
@[simp] theorem Chip.setSlice_launches (c : Chip) (t : Nat) (x : Slice) : (c.setSlice t x).launches = c.launches := rfl
@[simp] theorem Chip.setSlice_ctxs (c : Chip) (t : Nat) (x : Slice) : (c.setSlice t x).ctxs = c.ctxs := rfl
@[simp] theorem Chip.setSlice_crofts (c : Chip) (t : Nat) (x : Slice) : (c.setSlice t x).crofts = c.crofts := rfl
@[simp] theorem Chip.setSlice_cores (c : Chip) (t : Nat) (x : Slice) : (c.setSlice t x).cores = c.cores := rfl
@[simp] theorem Chip.setSlice_home (c : Chip) (t : Nat) (x : Slice) : (c.setSlice t x).home = c.home := rfl
@[simp] theorem Chip.setSlice_slices (c : Chip) (t : Nat) (x : Slice) : (c.setSlice t x).slices = Sparse.set c.slices t x := rfl
@[simp] theorem Chip.setSlice_lookout (c : Chip) (t : Nat) (x : Slice) : (c.setSlice t x).lookout = c.lookout := rfl
@[simp] theorem Chip.setSlice_accesses (c : Chip) (t : Nat) (x : Slice) : (c.setSlice t x).accesses = c.accesses := rfl
@[simp] theorem Chip.setSlice_batches (c : Chip) (t : Nat) (x : Slice) : (c.setSlice t x).batches = c.batches := rfl
@[simp] theorem Chip.setSlice_press (c : Chip) (t : Nat) (x : Slice) : (c.setSlice t x).press = c.press := rfl
@[simp] theorem Chip.setSlice_pubs (c : Chip) (t : Nat) (x : Slice) : (c.setSlice t x).pubs = c.pubs := rfl
@[simp] theorem Chip.setSlice_handles (c : Chip) (t : Nat) (x : Slice) : (c.setSlice t x).handles = c.handles := rfl
@[simp] theorem Chip.setSlice_migrations (c : Chip) (t : Nat) (x : Slice) : (c.setSlice t x).migrations = c.migrations := rfl
@[simp] theorem Chip.setSlice_slots (c : Chip) (t : Nat) (x : Slice) : (c.setSlice t x).slots = c.slots := rfl
@[simp] theorem Chip.setSlice_dies (c : Chip) (t : Nat) (x : Slice) : (c.setSlice t x).dies = c.dies := rfl
@[simp] theorem Chip.setSlice_powerReason (c : Chip) (t : Nat) (x : Slice) : (c.setSlice t x).powerReason = c.powerReason := rfl
@[simp] theorem Chip.setSlice_timeBase (c : Chip) (t : Nat) (x : Slice) : (c.setSlice t x).timeBase = c.timeBase := rfl
@[simp] theorem Chip.setSlice_generation (c : Chip) (t : Nat) (x : Slice) : (c.setSlice t x).generation = c.generation := rfl
@[simp] theorem Chip.setSlice_hostClk (c : Chip) (t : Nat) (x : Slice) : (c.setSlice t x).hostClk = c.hostClk := rfl
@[simp] theorem Chip.setSlice_hostReply (c : Chip) (t : Nat) (x : Slice) : (c.setSlice t x).hostReply = c.hostReply := rfl
@[simp] theorem Chip.setSlice_doors (c : Chip) (t : Nat) (x : Slice) : (c.setSlice t x).doors = c.doors := rfl
@[simp] theorem Chip.setSlice_sweeping (c : Chip) (t : Nat) (x : Slice) : (c.setSlice t x).sweeping = c.sweeping := rfl
@[simp] theorem Chip.setSlice_sweepQueued (c : Chip) (t : Nat) (x : Slice) : (c.setSlice t x).sweepQueued = c.sweepQueued := rfl
@[simp] theorem Chip.setSlice_turn (c : Chip) (t : Nat) (x : Slice) : (c.setSlice t x).turn = c.turn := rfl
@[simp] theorem Chip.setSlice_granted (c : Chip) (t : Nat) (x : Slice) : (c.setSlice t x).granted = c.granted := rfl
@[simp] theorem Chip.setSlice_outbox (c : Chip) (t : Nat) (x : Slice) : (c.setSlice t x).outbox = c.outbox := rfl
@[simp] theorem Chip.setSlice_deferred (c : Chip) (t : Nat) (x : Slice) : (c.setSlice t x).deferred = c.deferred := rfl
@[simp] theorem Chip.setSlice_farWatch (c : Chip) (t : Nat) (x : Slice) : (c.setSlice t x).farWatch = c.farWatch := rfl
@[simp] theorem Chip.setSlice_nextId (c : Chip) (t : Nat) (x : Slice) : (c.setSlice t x).nextId = c.nextId := rfl
@[simp] theorem Chip.setSlice_stamp (c : Chip) (t : Nat) (x : Slice) : (c.setSlice t x).stamp = c.stamp := rfl
@[simp] theorem Chip.setSlice_free (c : Chip) (t : Nat) (x : Slice) : (c.setSlice t x).free = c.free := rfl

/-! `Chip.setAccess`. -/

@[simp] theorem Chip.setAccess_threads (c : Chip) (t : Nat) (x : Access) : (c.setAccess t x).threads = c.threads := rfl
@[simp] theorem Chip.setAccess_groups (c : Chip) (t : Nat) (x : Access) : (c.setAccess t x).groups = c.groups := rfl
@[simp] theorem Chip.setAccess_teams (c : Chip) (t : Nat) (x : Access) : (c.setAccess t x).teams = c.teams := rfl
@[simp] theorem Chip.setAccess_clusters (c : Chip) (t : Nat) (x : Access) : (c.setAccess t x).clusters = c.clusters := rfl
@[simp] theorem Chip.setAccess_launches (c : Chip) (t : Nat) (x : Access) : (c.setAccess t x).launches = c.launches := rfl
@[simp] theorem Chip.setAccess_ctxs (c : Chip) (t : Nat) (x : Access) : (c.setAccess t x).ctxs = c.ctxs := rfl
@[simp] theorem Chip.setAccess_crofts (c : Chip) (t : Nat) (x : Access) : (c.setAccess t x).crofts = c.crofts := rfl
@[simp] theorem Chip.setAccess_cores (c : Chip) (t : Nat) (x : Access) : (c.setAccess t x).cores = c.cores := rfl
@[simp] theorem Chip.setAccess_home (c : Chip) (t : Nat) (x : Access) : (c.setAccess t x).home = c.home := rfl
@[simp] theorem Chip.setAccess_slices (c : Chip) (t : Nat) (x : Access) : (c.setAccess t x).slices = c.slices := rfl
@[simp] theorem Chip.setAccess_lookout (c : Chip) (t : Nat) (x : Access) : (c.setAccess t x).lookout = c.lookout := rfl
@[simp] theorem Chip.setAccess_accesses (c : Chip) (t : Nat) (x : Access) : (c.setAccess t x).accesses = Sparse.set c.accesses t x := rfl
@[simp] theorem Chip.setAccess_batches (c : Chip) (t : Nat) (x : Access) : (c.setAccess t x).batches = c.batches := rfl
@[simp] theorem Chip.setAccess_press (c : Chip) (t : Nat) (x : Access) : (c.setAccess t x).press = c.press := rfl
@[simp] theorem Chip.setAccess_pubs (c : Chip) (t : Nat) (x : Access) : (c.setAccess t x).pubs = c.pubs := rfl
@[simp] theorem Chip.setAccess_handles (c : Chip) (t : Nat) (x : Access) : (c.setAccess t x).handles = c.handles := rfl
@[simp] theorem Chip.setAccess_migrations (c : Chip) (t : Nat) (x : Access) : (c.setAccess t x).migrations = c.migrations := rfl
@[simp] theorem Chip.setAccess_slots (c : Chip) (t : Nat) (x : Access) : (c.setAccess t x).slots = c.slots := rfl
@[simp] theorem Chip.setAccess_dies (c : Chip) (t : Nat) (x : Access) : (c.setAccess t x).dies = c.dies := rfl
@[simp] theorem Chip.setAccess_powerReason (c : Chip) (t : Nat) (x : Access) : (c.setAccess t x).powerReason = c.powerReason := rfl
@[simp] theorem Chip.setAccess_timeBase (c : Chip) (t : Nat) (x : Access) : (c.setAccess t x).timeBase = c.timeBase := rfl
@[simp] theorem Chip.setAccess_generation (c : Chip) (t : Nat) (x : Access) : (c.setAccess t x).generation = c.generation := rfl
@[simp] theorem Chip.setAccess_hostClk (c : Chip) (t : Nat) (x : Access) : (c.setAccess t x).hostClk = c.hostClk := rfl
@[simp] theorem Chip.setAccess_hostReply (c : Chip) (t : Nat) (x : Access) : (c.setAccess t x).hostReply = c.hostReply := rfl
@[simp] theorem Chip.setAccess_doors (c : Chip) (t : Nat) (x : Access) : (c.setAccess t x).doors = c.doors := rfl
@[simp] theorem Chip.setAccess_sweeping (c : Chip) (t : Nat) (x : Access) : (c.setAccess t x).sweeping = c.sweeping := rfl
@[simp] theorem Chip.setAccess_sweepQueued (c : Chip) (t : Nat) (x : Access) : (c.setAccess t x).sweepQueued = c.sweepQueued := rfl
@[simp] theorem Chip.setAccess_turn (c : Chip) (t : Nat) (x : Access) : (c.setAccess t x).turn = c.turn := rfl
@[simp] theorem Chip.setAccess_granted (c : Chip) (t : Nat) (x : Access) : (c.setAccess t x).granted = c.granted := rfl
@[simp] theorem Chip.setAccess_outbox (c : Chip) (t : Nat) (x : Access) : (c.setAccess t x).outbox = c.outbox := rfl
@[simp] theorem Chip.setAccess_deferred (c : Chip) (t : Nat) (x : Access) : (c.setAccess t x).deferred = c.deferred := rfl
@[simp] theorem Chip.setAccess_farWatch (c : Chip) (t : Nat) (x : Access) : (c.setAccess t x).farWatch = c.farWatch := rfl
@[simp] theorem Chip.setAccess_nextId (c : Chip) (t : Nat) (x : Access) : (c.setAccess t x).nextId = c.nextId := rfl
@[simp] theorem Chip.setAccess_stamp (c : Chip) (t : Nat) (x : Access) : (c.setAccess t x).stamp = c.stamp := rfl
@[simp] theorem Chip.setAccess_free (c : Chip) (t : Nat) (x : Access) : (c.setAccess t x).free = c.free := rfl

/-! `Chip.setBatch`. -/

@[simp] theorem Chip.setBatch_threads (c : Chip) (t : Nat) (x : Batch) : (c.setBatch t x).threads = c.threads := rfl
@[simp] theorem Chip.setBatch_groups (c : Chip) (t : Nat) (x : Batch) : (c.setBatch t x).groups = c.groups := rfl
@[simp] theorem Chip.setBatch_teams (c : Chip) (t : Nat) (x : Batch) : (c.setBatch t x).teams = c.teams := rfl
@[simp] theorem Chip.setBatch_clusters (c : Chip) (t : Nat) (x : Batch) : (c.setBatch t x).clusters = c.clusters := rfl
@[simp] theorem Chip.setBatch_launches (c : Chip) (t : Nat) (x : Batch) : (c.setBatch t x).launches = c.launches := rfl
@[simp] theorem Chip.setBatch_ctxs (c : Chip) (t : Nat) (x : Batch) : (c.setBatch t x).ctxs = c.ctxs := rfl
@[simp] theorem Chip.setBatch_crofts (c : Chip) (t : Nat) (x : Batch) : (c.setBatch t x).crofts = c.crofts := rfl
@[simp] theorem Chip.setBatch_cores (c : Chip) (t : Nat) (x : Batch) : (c.setBatch t x).cores = c.cores := rfl
@[simp] theorem Chip.setBatch_home (c : Chip) (t : Nat) (x : Batch) : (c.setBatch t x).home = c.home := rfl
@[simp] theorem Chip.setBatch_slices (c : Chip) (t : Nat) (x : Batch) : (c.setBatch t x).slices = c.slices := rfl
@[simp] theorem Chip.setBatch_lookout (c : Chip) (t : Nat) (x : Batch) : (c.setBatch t x).lookout = c.lookout := rfl
@[simp] theorem Chip.setBatch_accesses (c : Chip) (t : Nat) (x : Batch) : (c.setBatch t x).accesses = c.accesses := rfl
@[simp] theorem Chip.setBatch_batches (c : Chip) (t : Nat) (x : Batch) : (c.setBatch t x).batches = Sparse.set c.batches t x := rfl
@[simp] theorem Chip.setBatch_press (c : Chip) (t : Nat) (x : Batch) : (c.setBatch t x).press = c.press := rfl
@[simp] theorem Chip.setBatch_pubs (c : Chip) (t : Nat) (x : Batch) : (c.setBatch t x).pubs = c.pubs := rfl
@[simp] theorem Chip.setBatch_handles (c : Chip) (t : Nat) (x : Batch) : (c.setBatch t x).handles = c.handles := rfl
@[simp] theorem Chip.setBatch_migrations (c : Chip) (t : Nat) (x : Batch) : (c.setBatch t x).migrations = c.migrations := rfl
@[simp] theorem Chip.setBatch_slots (c : Chip) (t : Nat) (x : Batch) : (c.setBatch t x).slots = c.slots := rfl
@[simp] theorem Chip.setBatch_dies (c : Chip) (t : Nat) (x : Batch) : (c.setBatch t x).dies = c.dies := rfl
@[simp] theorem Chip.setBatch_powerReason (c : Chip) (t : Nat) (x : Batch) : (c.setBatch t x).powerReason = c.powerReason := rfl
@[simp] theorem Chip.setBatch_timeBase (c : Chip) (t : Nat) (x : Batch) : (c.setBatch t x).timeBase = c.timeBase := rfl
@[simp] theorem Chip.setBatch_generation (c : Chip) (t : Nat) (x : Batch) : (c.setBatch t x).generation = c.generation := rfl
@[simp] theorem Chip.setBatch_hostClk (c : Chip) (t : Nat) (x : Batch) : (c.setBatch t x).hostClk = c.hostClk := rfl
@[simp] theorem Chip.setBatch_hostReply (c : Chip) (t : Nat) (x : Batch) : (c.setBatch t x).hostReply = c.hostReply := rfl
@[simp] theorem Chip.setBatch_doors (c : Chip) (t : Nat) (x : Batch) : (c.setBatch t x).doors = c.doors := rfl
@[simp] theorem Chip.setBatch_sweeping (c : Chip) (t : Nat) (x : Batch) : (c.setBatch t x).sweeping = c.sweeping := rfl
@[simp] theorem Chip.setBatch_sweepQueued (c : Chip) (t : Nat) (x : Batch) : (c.setBatch t x).sweepQueued = c.sweepQueued := rfl
@[simp] theorem Chip.setBatch_turn (c : Chip) (t : Nat) (x : Batch) : (c.setBatch t x).turn = c.turn := rfl
@[simp] theorem Chip.setBatch_granted (c : Chip) (t : Nat) (x : Batch) : (c.setBatch t x).granted = c.granted := rfl
@[simp] theorem Chip.setBatch_outbox (c : Chip) (t : Nat) (x : Batch) : (c.setBatch t x).outbox = c.outbox := rfl
@[simp] theorem Chip.setBatch_deferred (c : Chip) (t : Nat) (x : Batch) : (c.setBatch t x).deferred = c.deferred := rfl
@[simp] theorem Chip.setBatch_farWatch (c : Chip) (t : Nat) (x : Batch) : (c.setBatch t x).farWatch = c.farWatch := rfl
@[simp] theorem Chip.setBatch_nextId (c : Chip) (t : Nat) (x : Batch) : (c.setBatch t x).nextId = c.nextId := rfl
@[simp] theorem Chip.setBatch_stamp (c : Chip) (t : Nat) (x : Batch) : (c.setBatch t x).stamp = c.stamp := rfl
@[simp] theorem Chip.setBatch_free (c : Chip) (t : Nat) (x : Batch) : (c.setBatch t x).free = c.free := rfl

/-! `Chip.setPress`. -/

@[simp] theorem Chip.setPress_threads (c : Chip) (t : Nat) (x : PressEntry) : (c.setPress t x).threads = c.threads := rfl
@[simp] theorem Chip.setPress_groups (c : Chip) (t : Nat) (x : PressEntry) : (c.setPress t x).groups = c.groups := rfl
@[simp] theorem Chip.setPress_teams (c : Chip) (t : Nat) (x : PressEntry) : (c.setPress t x).teams = c.teams := rfl
@[simp] theorem Chip.setPress_clusters (c : Chip) (t : Nat) (x : PressEntry) : (c.setPress t x).clusters = c.clusters := rfl
@[simp] theorem Chip.setPress_launches (c : Chip) (t : Nat) (x : PressEntry) : (c.setPress t x).launches = c.launches := rfl
@[simp] theorem Chip.setPress_ctxs (c : Chip) (t : Nat) (x : PressEntry) : (c.setPress t x).ctxs = c.ctxs := rfl
@[simp] theorem Chip.setPress_crofts (c : Chip) (t : Nat) (x : PressEntry) : (c.setPress t x).crofts = c.crofts := rfl
@[simp] theorem Chip.setPress_cores (c : Chip) (t : Nat) (x : PressEntry) : (c.setPress t x).cores = c.cores := rfl
@[simp] theorem Chip.setPress_home (c : Chip) (t : Nat) (x : PressEntry) : (c.setPress t x).home = c.home := rfl
@[simp] theorem Chip.setPress_slices (c : Chip) (t : Nat) (x : PressEntry) : (c.setPress t x).slices = c.slices := rfl
@[simp] theorem Chip.setPress_lookout (c : Chip) (t : Nat) (x : PressEntry) : (c.setPress t x).lookout = c.lookout := rfl
@[simp] theorem Chip.setPress_accesses (c : Chip) (t : Nat) (x : PressEntry) : (c.setPress t x).accesses = c.accesses := rfl
@[simp] theorem Chip.setPress_batches (c : Chip) (t : Nat) (x : PressEntry) : (c.setPress t x).batches = c.batches := rfl
@[simp] theorem Chip.setPress_press (c : Chip) (t : Nat) (x : PressEntry) : (c.setPress t x).press = Sparse.set c.press t x := rfl
@[simp] theorem Chip.setPress_pubs (c : Chip) (t : Nat) (x : PressEntry) : (c.setPress t x).pubs = c.pubs := rfl
@[simp] theorem Chip.setPress_handles (c : Chip) (t : Nat) (x : PressEntry) : (c.setPress t x).handles = c.handles := rfl
@[simp] theorem Chip.setPress_migrations (c : Chip) (t : Nat) (x : PressEntry) : (c.setPress t x).migrations = c.migrations := rfl
@[simp] theorem Chip.setPress_slots (c : Chip) (t : Nat) (x : PressEntry) : (c.setPress t x).slots = c.slots := rfl
@[simp] theorem Chip.setPress_dies (c : Chip) (t : Nat) (x : PressEntry) : (c.setPress t x).dies = c.dies := rfl
@[simp] theorem Chip.setPress_powerReason (c : Chip) (t : Nat) (x : PressEntry) : (c.setPress t x).powerReason = c.powerReason := rfl
@[simp] theorem Chip.setPress_timeBase (c : Chip) (t : Nat) (x : PressEntry) : (c.setPress t x).timeBase = c.timeBase := rfl
@[simp] theorem Chip.setPress_generation (c : Chip) (t : Nat) (x : PressEntry) : (c.setPress t x).generation = c.generation := rfl
@[simp] theorem Chip.setPress_hostClk (c : Chip) (t : Nat) (x : PressEntry) : (c.setPress t x).hostClk = c.hostClk := rfl
@[simp] theorem Chip.setPress_hostReply (c : Chip) (t : Nat) (x : PressEntry) : (c.setPress t x).hostReply = c.hostReply := rfl
@[simp] theorem Chip.setPress_doors (c : Chip) (t : Nat) (x : PressEntry) : (c.setPress t x).doors = c.doors := rfl
@[simp] theorem Chip.setPress_sweeping (c : Chip) (t : Nat) (x : PressEntry) : (c.setPress t x).sweeping = c.sweeping := rfl
@[simp] theorem Chip.setPress_sweepQueued (c : Chip) (t : Nat) (x : PressEntry) : (c.setPress t x).sweepQueued = c.sweepQueued := rfl
@[simp] theorem Chip.setPress_turn (c : Chip) (t : Nat) (x : PressEntry) : (c.setPress t x).turn = c.turn := rfl
@[simp] theorem Chip.setPress_granted (c : Chip) (t : Nat) (x : PressEntry) : (c.setPress t x).granted = c.granted := rfl
@[simp] theorem Chip.setPress_outbox (c : Chip) (t : Nat) (x : PressEntry) : (c.setPress t x).outbox = c.outbox := rfl
@[simp] theorem Chip.setPress_deferred (c : Chip) (t : Nat) (x : PressEntry) : (c.setPress t x).deferred = c.deferred := rfl
@[simp] theorem Chip.setPress_farWatch (c : Chip) (t : Nat) (x : PressEntry) : (c.setPress t x).farWatch = c.farWatch := rfl
@[simp] theorem Chip.setPress_nextId (c : Chip) (t : Nat) (x : PressEntry) : (c.setPress t x).nextId = c.nextId := rfl
@[simp] theorem Chip.setPress_stamp (c : Chip) (t : Nat) (x : PressEntry) : (c.setPress t x).stamp = c.stamp := rfl
@[simp] theorem Chip.setPress_free (c : Chip) (t : Nat) (x : PressEntry) : (c.setPress t x).free = c.free := rfl

/-! `Chip.setPub`. -/

@[simp] theorem Chip.setPub_threads (c : Chip) (t : Nat) (x : Publication) : (c.setPub t x).threads = c.threads := rfl
@[simp] theorem Chip.setPub_groups (c : Chip) (t : Nat) (x : Publication) : (c.setPub t x).groups = c.groups := rfl
@[simp] theorem Chip.setPub_teams (c : Chip) (t : Nat) (x : Publication) : (c.setPub t x).teams = c.teams := rfl
@[simp] theorem Chip.setPub_clusters (c : Chip) (t : Nat) (x : Publication) : (c.setPub t x).clusters = c.clusters := rfl
@[simp] theorem Chip.setPub_launches (c : Chip) (t : Nat) (x : Publication) : (c.setPub t x).launches = c.launches := rfl
@[simp] theorem Chip.setPub_ctxs (c : Chip) (t : Nat) (x : Publication) : (c.setPub t x).ctxs = c.ctxs := rfl
@[simp] theorem Chip.setPub_crofts (c : Chip) (t : Nat) (x : Publication) : (c.setPub t x).crofts = c.crofts := rfl
@[simp] theorem Chip.setPub_cores (c : Chip) (t : Nat) (x : Publication) : (c.setPub t x).cores = c.cores := rfl
@[simp] theorem Chip.setPub_home (c : Chip) (t : Nat) (x : Publication) : (c.setPub t x).home = c.home := rfl
@[simp] theorem Chip.setPub_slices (c : Chip) (t : Nat) (x : Publication) : (c.setPub t x).slices = c.slices := rfl
@[simp] theorem Chip.setPub_lookout (c : Chip) (t : Nat) (x : Publication) : (c.setPub t x).lookout = c.lookout := rfl
@[simp] theorem Chip.setPub_accesses (c : Chip) (t : Nat) (x : Publication) : (c.setPub t x).accesses = c.accesses := rfl
@[simp] theorem Chip.setPub_batches (c : Chip) (t : Nat) (x : Publication) : (c.setPub t x).batches = c.batches := rfl
@[simp] theorem Chip.setPub_press (c : Chip) (t : Nat) (x : Publication) : (c.setPub t x).press = c.press := rfl
@[simp] theorem Chip.setPub_pubs (c : Chip) (t : Nat) (x : Publication) : (c.setPub t x).pubs = Sparse.set c.pubs t x := rfl
@[simp] theorem Chip.setPub_handles (c : Chip) (t : Nat) (x : Publication) : (c.setPub t x).handles = c.handles := rfl
@[simp] theorem Chip.setPub_migrations (c : Chip) (t : Nat) (x : Publication) : (c.setPub t x).migrations = c.migrations := rfl
@[simp] theorem Chip.setPub_slots (c : Chip) (t : Nat) (x : Publication) : (c.setPub t x).slots = c.slots := rfl
@[simp] theorem Chip.setPub_dies (c : Chip) (t : Nat) (x : Publication) : (c.setPub t x).dies = c.dies := rfl
@[simp] theorem Chip.setPub_powerReason (c : Chip) (t : Nat) (x : Publication) : (c.setPub t x).powerReason = c.powerReason := rfl
@[simp] theorem Chip.setPub_timeBase (c : Chip) (t : Nat) (x : Publication) : (c.setPub t x).timeBase = c.timeBase := rfl
@[simp] theorem Chip.setPub_generation (c : Chip) (t : Nat) (x : Publication) : (c.setPub t x).generation = c.generation := rfl
@[simp] theorem Chip.setPub_hostClk (c : Chip) (t : Nat) (x : Publication) : (c.setPub t x).hostClk = c.hostClk := rfl
@[simp] theorem Chip.setPub_hostReply (c : Chip) (t : Nat) (x : Publication) : (c.setPub t x).hostReply = c.hostReply := rfl
@[simp] theorem Chip.setPub_doors (c : Chip) (t : Nat) (x : Publication) : (c.setPub t x).doors = c.doors := rfl
@[simp] theorem Chip.setPub_sweeping (c : Chip) (t : Nat) (x : Publication) : (c.setPub t x).sweeping = c.sweeping := rfl
@[simp] theorem Chip.setPub_sweepQueued (c : Chip) (t : Nat) (x : Publication) : (c.setPub t x).sweepQueued = c.sweepQueued := rfl
@[simp] theorem Chip.setPub_turn (c : Chip) (t : Nat) (x : Publication) : (c.setPub t x).turn = c.turn := rfl
@[simp] theorem Chip.setPub_granted (c : Chip) (t : Nat) (x : Publication) : (c.setPub t x).granted = c.granted := rfl
@[simp] theorem Chip.setPub_outbox (c : Chip) (t : Nat) (x : Publication) : (c.setPub t x).outbox = c.outbox := rfl
@[simp] theorem Chip.setPub_deferred (c : Chip) (t : Nat) (x : Publication) : (c.setPub t x).deferred = c.deferred := rfl
@[simp] theorem Chip.setPub_farWatch (c : Chip) (t : Nat) (x : Publication) : (c.setPub t x).farWatch = c.farWatch := rfl
@[simp] theorem Chip.setPub_nextId (c : Chip) (t : Nat) (x : Publication) : (c.setPub t x).nextId = c.nextId := rfl
@[simp] theorem Chip.setPub_stamp (c : Chip) (t : Nat) (x : Publication) : (c.setPub t x).stamp = c.stamp := rfl
@[simp] theorem Chip.setPub_free (c : Chip) (t : Nat) (x : Publication) : (c.setPub t x).free = c.free := rfl

/-! `Chip.setHandle`. -/

@[simp] theorem Chip.setHandle_threads (c : Chip) (t : Nat) (x : Handle) : (c.setHandle t x).threads = c.threads := rfl
@[simp] theorem Chip.setHandle_groups (c : Chip) (t : Nat) (x : Handle) : (c.setHandle t x).groups = c.groups := rfl
@[simp] theorem Chip.setHandle_teams (c : Chip) (t : Nat) (x : Handle) : (c.setHandle t x).teams = c.teams := rfl
@[simp] theorem Chip.setHandle_clusters (c : Chip) (t : Nat) (x : Handle) : (c.setHandle t x).clusters = c.clusters := rfl
@[simp] theorem Chip.setHandle_launches (c : Chip) (t : Nat) (x : Handle) : (c.setHandle t x).launches = c.launches := rfl
@[simp] theorem Chip.setHandle_ctxs (c : Chip) (t : Nat) (x : Handle) : (c.setHandle t x).ctxs = c.ctxs := rfl
@[simp] theorem Chip.setHandle_crofts (c : Chip) (t : Nat) (x : Handle) : (c.setHandle t x).crofts = c.crofts := rfl
@[simp] theorem Chip.setHandle_cores (c : Chip) (t : Nat) (x : Handle) : (c.setHandle t x).cores = c.cores := rfl
@[simp] theorem Chip.setHandle_home (c : Chip) (t : Nat) (x : Handle) : (c.setHandle t x).home = c.home := rfl
@[simp] theorem Chip.setHandle_slices (c : Chip) (t : Nat) (x : Handle) : (c.setHandle t x).slices = c.slices := rfl
@[simp] theorem Chip.setHandle_lookout (c : Chip) (t : Nat) (x : Handle) : (c.setHandle t x).lookout = c.lookout := rfl
@[simp] theorem Chip.setHandle_accesses (c : Chip) (t : Nat) (x : Handle) : (c.setHandle t x).accesses = c.accesses := rfl
@[simp] theorem Chip.setHandle_batches (c : Chip) (t : Nat) (x : Handle) : (c.setHandle t x).batches = c.batches := rfl
@[simp] theorem Chip.setHandle_press (c : Chip) (t : Nat) (x : Handle) : (c.setHandle t x).press = c.press := rfl
@[simp] theorem Chip.setHandle_pubs (c : Chip) (t : Nat) (x : Handle) : (c.setHandle t x).pubs = c.pubs := rfl
@[simp] theorem Chip.setHandle_handles (c : Chip) (t : Nat) (x : Handle) : (c.setHandle t x).handles = Sparse.set c.handles t x := rfl
@[simp] theorem Chip.setHandle_migrations (c : Chip) (t : Nat) (x : Handle) : (c.setHandle t x).migrations = c.migrations := rfl
@[simp] theorem Chip.setHandle_slots (c : Chip) (t : Nat) (x : Handle) : (c.setHandle t x).slots = c.slots := rfl
@[simp] theorem Chip.setHandle_dies (c : Chip) (t : Nat) (x : Handle) : (c.setHandle t x).dies = c.dies := rfl
@[simp] theorem Chip.setHandle_powerReason (c : Chip) (t : Nat) (x : Handle) : (c.setHandle t x).powerReason = c.powerReason := rfl
@[simp] theorem Chip.setHandle_timeBase (c : Chip) (t : Nat) (x : Handle) : (c.setHandle t x).timeBase = c.timeBase := rfl
@[simp] theorem Chip.setHandle_generation (c : Chip) (t : Nat) (x : Handle) : (c.setHandle t x).generation = c.generation := rfl
@[simp] theorem Chip.setHandle_hostClk (c : Chip) (t : Nat) (x : Handle) : (c.setHandle t x).hostClk = c.hostClk := rfl
@[simp] theorem Chip.setHandle_hostReply (c : Chip) (t : Nat) (x : Handle) : (c.setHandle t x).hostReply = c.hostReply := rfl
@[simp] theorem Chip.setHandle_doors (c : Chip) (t : Nat) (x : Handle) : (c.setHandle t x).doors = c.doors := rfl
@[simp] theorem Chip.setHandle_sweeping (c : Chip) (t : Nat) (x : Handle) : (c.setHandle t x).sweeping = c.sweeping := rfl
@[simp] theorem Chip.setHandle_sweepQueued (c : Chip) (t : Nat) (x : Handle) : (c.setHandle t x).sweepQueued = c.sweepQueued := rfl
@[simp] theorem Chip.setHandle_turn (c : Chip) (t : Nat) (x : Handle) : (c.setHandle t x).turn = c.turn := rfl
@[simp] theorem Chip.setHandle_granted (c : Chip) (t : Nat) (x : Handle) : (c.setHandle t x).granted = c.granted := rfl
@[simp] theorem Chip.setHandle_outbox (c : Chip) (t : Nat) (x : Handle) : (c.setHandle t x).outbox = c.outbox := rfl
@[simp] theorem Chip.setHandle_deferred (c : Chip) (t : Nat) (x : Handle) : (c.setHandle t x).deferred = c.deferred := rfl
@[simp] theorem Chip.setHandle_farWatch (c : Chip) (t : Nat) (x : Handle) : (c.setHandle t x).farWatch = c.farWatch := rfl
@[simp] theorem Chip.setHandle_nextId (c : Chip) (t : Nat) (x : Handle) : (c.setHandle t x).nextId = c.nextId := rfl
@[simp] theorem Chip.setHandle_stamp (c : Chip) (t : Nat) (x : Handle) : (c.setHandle t x).stamp = c.stamp := rfl
@[simp] theorem Chip.setHandle_free (c : Chip) (t : Nat) (x : Handle) : (c.setHandle t x).free = c.free := rfl

end Sys2Proof.Machine
end

