-- ==== Sys2Proof/Laws/Tables.lean ====
section
/-! SUPPORT. Tables by key: reading after writing; and the registers, predicates and masks that rest on them. -/

namespace Sys2Proof.Machine

@[simp] theorem Sparse.find?_nil {ν : Type} (k : Nat) : Sparse.find? ([] : Sparse ν) k = none := rfl

/-- A key reads as written. -/
@[simp] theorem Sparse.find?_set_same {ν : Type} (m : Sparse ν) (k : Nat) (v : ν) : Sparse.find? (Sparse.set m k v) k = some v := by
  induction m with
  | nil => simp [Sparse.set, Sparse.find?]
  | cons p t ih =>
    obtain ⟨j, w⟩ := p
    simp only [Sparse.set]
    split
    · simp [Sparse.find?]
    · split
      · simp [Sparse.find?]
      · rename_i h
        simp [Sparse.find?, Ne.symm h, ih]

/-- Another key reads as before. -/
theorem Sparse.find?_set_other {ν : Type} (m : Sparse ν) {k l : Nat} (v : ν) (h : l ≠ k) :
    Sparse.find? (Sparse.set m k v) l = Sparse.find? m l := by
  induction m with
  | nil => simp [Sparse.set, Sparse.find?, h.symm]
  | cons p t ih =>
    obtain ⟨j, w⟩ := p
    simp only [Sparse.set]
    split
    · simp [Sparse.find?, h.symm]
    · split
      · rename_i h2
        subst h2
        simp [Sparse.find?, h.symm]
      · simp only [Sparse.find?]
        rw [ih]

@[simp] theorem Sparse.get_set_same {ν : Type} (d : ν) (m : Sparse ν) (k : Nat) (v : ν) : Sparse.get d (Sparse.set m k v) k = v := by
  simp [Sparse.get]

theorem Sparse.get_set_other {ν : Type} (d : ν) (m : Sparse ν) {k l : Nat} (v : ν) (h : l ≠ k) :
    Sparse.get d (Sparse.set m k v) l = Sparse.get d m l := by
  simp [Sparse.get, Sparse.find?_set_other m v h]

/-- A key in one form for both cases. -/
theorem Sparse.get_set {ν : Type} (d : ν) (m : Sparse ν) (k l : Nat) (v : ν) :
    Sparse.get d (Sparse.set m k v) l = if l = k then v else Sparse.get d m l := by
  by_cases h : l = k
  · simp [h]
  · simp [Sparse.get_set_other d m v h, h]

/-! Threads and groups. -/

theorem Chip.thread_setThread (c : Chip) (t u : Nat) (x : Thread) : (c.setThread t x).thread u = if u = t then x else c.thread u := by
  simp [Chip.thread, Sparse.get_set]

@[simp] theorem Chip.thread_setThread_same (c : Chip) (t : Nat) (x : Thread) : (c.setThread t x).thread t = x := by
  simp [Chip.thread_setThread]

theorem Chip.group_setGroup (c : Chip) (g h : Nat) (x : Group) : (c.setGroup g x).group h = if h = g then x else c.group h := by
  simp [Chip.group, Sparse.get_set]

@[simp] theorem Chip.group_setThread (c : Chip) (t g : Nat) (x : Thread) : (c.setThread t x).group g = c.group g := rfl
@[simp] theorem Chip.team_setThread (c : Chip) (t g : Nat) (x : Thread) : (c.setThread t x).team g = c.team g := rfl
@[simp] theorem Chip.ctx_setThread (c : Chip) (t g : Nat) (x : Thread) : (c.setThread t x).ctx g = c.ctx g := rfl
@[simp] theorem Chip.teamOf_setThread (c : Chip) (t u : Nat) (x : Thread) : (c.setThread t x).teamOf u = c.teamOf u := rfl
@[simp] theorem Chip.ctxOf_setThread (c : Chip) (t u : Nat) (x : Thread) : (c.setThread t x).ctxOf u = c.ctxOf u := rfl
@[simp] theorem Chip.coreOf_setThread (c : Chip) (t u : Nat) (x : Thread) : (c.setThread t x).coreOf u = c.coreOf u := rfl

/-! Registers. -/

theorem Chip.reg_setReg (c : Chip) (t n u m : Nat) (r : Reg) :
    (c.setReg t n r).reg u m = if u = t ∧ m = n then r else c.reg u m := by
  by_cases h : u = t
  · subst h
    simp [Chip.reg, Chip.setReg, Sparse.get_set]
  · simp [Chip.reg, Chip.setReg, Chip.thread_setThread, h]

/-- A register as WriteV leaves it (01 R12). -/
theorem Chip.reg_writeV (c : Chip) (t n u m : Nat) (x : Word) (tag : Tag) :
    (c.writeV t n x tag).reg u m = if u = t ∧ m = n then { bits := x, tag := tag } else c.reg u m :=
  Chip.reg_setReg c t n u m _

@[simp] theorem Chip.v_writeV_same (c : Chip) (t n : Nat) (x : Word) (tag : Tag) : (c.writeV t n x tag).v t n = x := by
  simp [Chip.v, Chip.reg_writeV]

/-- WriteV leaves every predicate as it was. -/
@[simp] theorem Chip.p_writeV (c : Chip) (t n u k : Nat) (x : Word) (tag : Tag) : (c.writeV t n x tag).p u k = c.p u k := by
  by_cases h : u = t
  · subst h
    simp [Chip.p, Chip.writeV, Chip.setReg]
  · simp [Chip.p, Chip.writeV, Chip.setReg, Chip.thread_setThread, h]

/-- WriteP leaves every register as it was. -/
@[simp] theorem Chip.reg_writeP (c : Chip) (t k u n : Nat) (b : Bool) : (c.writeP t k b).reg u n = c.reg u n := by
  by_cases h : u = t
  · subst h
    simp [Chip.reg, Chip.writeP]
  · simp [Chip.reg, Chip.writeP, Chip.thread_setThread, h]

/-- A mask register as written (07 R110). -/
theorem Chip.mask_writeM (c : Chip) (g k h n : Nat) (x : Word) :
    (c.writeM g k x).mask h n = if h = g ∧ n = k then x else c.mask h n := by
  by_cases e : h = g
  · subst e
    simp [Chip.mask, Chip.writeM, Chip.group_setGroup, Sparse.get_set]
  · simp [Chip.mask, Chip.writeM, Chip.group_setGroup, e]

end Sys2Proof.Machine
end

