-- ==== Sys2Proof/Laws/Chain.lean ====
section
/-! SUPPORT. What one word of a chain does, said once: a word always answers a next state; where its checks pass in every
undecided thread, that state holds its effect and nothing else of the open chain changes. -/

namespace Sys2Proof.Machine

/-- A word answers a next state whatever its checks find. -/
theorem runKind_next (k : WordKind) (check : Check) (act : Act) (s : State) : ∃ t, runKind k check act s = .next t := by
  unfold runKind
  split <;> exact ⟨_, rfl⟩

/-- A word that transfers control answers a next state whatever its checks find. -/
theorem runKindJump_next (k : WordKind) (check : Check) (act : Act) (f : State → List Nat → Nat → Option Jump) (s : State) :
    ∃ t, runKindJump k check act f s = .next t := by
  unfold runKindJump
  split <;> exact ⟨_, rfl⟩

/-- Whether a thread is undecided, as a test. -/
theorem Issue.undecided_iff (iss : Issue) (t : Nat) :
    iss.Undecided t ↔ (match iss.verdict t with | some v => !v.final | none => true) = true := by
  unfold Issue.Undecided
  cases h : iss.verdict t <;> simp

/-- A thread that has not failed is undecided. -/
theorem Issue.undecided_of_live {iss : Issue} {t : Nat} (h : t ∈ iss.live) : t ∈ iss.members ∧ iss.Undecided t := by
  simp only [Issue.live, List.mem_filter, Option.isNone_iff_eq_none] at h
  exact ⟨h.1, fun v hv => by simp [h.2] at hv⟩

/-- No operand of a thread that may run a word is poisoned. -/
theorem poisonedSource_of_canRun {e : State} {t l : Nat} {o : OpInfo} (h : CanRun e t l o) : poisonedSource e.now l o = none := by
  simp only [poisonedSource, List.findSome?_eq_none_iff, List.mem_filter, Option.map_eq_none_iff]
  exact fun x hx => (h.2.2.2.1 x hx.1 hx.2).2.2

theorem poisonCheck_of_canRun {e : State} {t l slot : Nat} {o : OpInfo} (h : CanRun e t l o) : poisonCheck e.now l slot o = none := by
  unfold poisonCheck
  split
  · rfl
  · rw [poisonedSource_of_canRun h]; rfl

/-- A thread that may run a word is ready for it. -/
theorem readyWith_of_canRun {e : State} {t l : Nat} {o : OpInfo} (h : CanRun e t l o) : readyWith e t l o false = true := by
  obtain ⟨-, -, -, h4, h5, h6, h7⟩ := h
  simp only [readyWith, h6, h7, Bool.and_eq_true, List.all_eq_true]
  refine ⟨⟨⟨⟨fun x hx => ?_, h5⟩, trivial⟩, rfl⟩, rfl⟩
  by_cases hr : x.read e.now l = true
  · exact (h4 x hx hr).2.1
  · simp [Src.ready, hr]

/-- A thread that may run a word passes the checks of every word. -/
theorem issueCheck_of_canRun {e : State} {t l slot : Nat} {o : OpInfo} (h : CanRun e t l o) : issueCheck e.now l slot o = none := by
  obtain ⟨h1, h2, h3, h4, -⟩ := h
  have hr : (o.srcs.any (fun s => decide ((e.now.team (e.now.teamOf l)).regs ≤ s.reg)) ||
      o.dests.any (fun d => decide ((e.now.team (e.now.teamOf l)).regs ≤ d))) = false := by
    simp only [Bool.or_eq_false_iff, List.any_eq_false, decide_eq_true_eq, Nat.not_le]
    exact ⟨h2, h3⟩
  have hb : o.srcs.filter (fun s => s.read e.now l && !s.tagOk e.now l) = [] := by
    simp only [List.filter_eq_nil_iff, Bool.and_eq_true, Bool.not_eq_true', not_and, Bool.not_eq_false]
    exact fun x hx hx2 => (h4 x hx hx2).1
  simp only [issueCheck, Nat.not_lt.mpr h1, hr, hb, if_false]
  rfl

/-- The checks of a word find nothing in a thread that may run it. -/
theorem wordVerdict_none {k : WordKind} {check : Check} {pre : State} {t slot : Nat} (h : CanRun pre t (k.lead pre t) k.info)
    (hh : k.held pre t = false) (hc : check pre (k.lead pre t) slot = none) (hp : k.pair pre.now (k.lead pre t) slot = none) :
    wordVerdict k check pre t slot = none := by
  simp only [wordVerdict, hh, readyWith_of_canRun h, issueCheck_of_canRun h, hc, hp, poisonCheck_of_canRun h]
  rfl

theorem consumePoison_none {pre : Chip} {lead : Nat → Nat} {live : List Nat} {slot : Nat} {o : OpInfo} {c : Chip}
    (h : ∀ t ∈ live, poisonedSource pre (lead t) o = none) : consumePoison pre lead live slot o c = c := by
  unfold consumePoison
  induction live generalizing c with
  | nil => rfl
  | cons t ts ih =>
    simp only [List.foldl_cons, h t List.mem_cons_self]
    exact ih (fun x hx => h x (List.mem_cons_of_mem _ hx))

/-- A word whose checks find nothing in any undecided thread: its effect, and the next word. -/
theorem wordStep_clean {k : WordKind} {check : Check} {act : Act} {s : State} {iss : Issue}
    (h : ∀ t ∈ iss.members, iss.Undecided t → wordVerdict k check s.before t iss.slot = none)
    (hl : iss.live ≠ []) (hp : ∀ t ∈ iss.live, poisonedSource s.before.now (k.lead s.before t) k.info = none) :
    wordStep k check act s iss = carried s iss (act s.before iss.members iss.live s.now) := by
  have hj : iss.judge k check s.before = [] := by
    simp only [Issue.judge, List.filterMap_eq_nil_iff, List.mem_filter, Option.map_eq_none_iff]
    exact fun t ht => h t ht.1 ((iss.undecided_iff t).mpr ht.2)
  have hi : ({ iss with dead := iss.dead ++ [], at_ := iss.at_ + 1 } : Issue) = { iss with at_ := iss.at_ + 1 } := by
    simp
  have hlive : ({ iss with at_ := iss.at_ + 1 } : Issue).live = iss.live := rfl
  have hf : iss.dead.filter (fun d => !([] : List (Nat × Nat × Verdict)).any (fun b => decide (b.1 = d.1))) = iss.dead := by simp
  simp only [wordStep, hj, hf, hi, hlive, List.isEmpty_iff, hl, if_false, carried]
  rw [consumePoison_none hp]

/-- A word of `runKind` that passes its checks. -/
theorem runKind_clean {k : WordKind} {check : Check} {act : Act} {s : State} {iss : Issue} (hs : s.issue = some iss)
    (h : ∀ t ∈ iss.members, iss.Undecided t → CanRun s.before t (k.lead s.before t) k.info ∧ k.held s.before t = false ∧
      k.pair s.before.now (k.lead s.before t) iss.slot = none ∧ check s.before (k.lead s.before t) iss.slot = none)
    (hl : iss.live ≠ []) :
    runKind k check act s = .next (ended k.info.c (carried s iss (act s.before iss.members iss.live s.now))) := by
  have hw := wordStep_clean (act := act) (fun t ht hu => wordVerdict_none (h t ht hu).1 (h t ht hu).2.1 (h t ht hu).2.2.2 (h t ht hu).2.2.1)
    hl (fun t ht => poisonedSource_of_canRun (h t (Issue.undecided_of_live ht).1 (Issue.undecided_of_live ht).2).1)
  simp only [runKind, hs, hw, ended]

/-- A word of `runKindJump` that passes its checks. -/
theorem runKindJump_clean {k : WordKind} {check : Check} {act : Act} {f : State → List Nat → Nat → Option Jump} {s : State} {iss : Issue}
    (hs : s.issue = some iss)
    (h : ∀ t ∈ iss.members, iss.Undecided t → CanRun s.before t (k.lead s.before t) k.info ∧ k.held s.before t = false ∧
      k.pair s.before.now (k.lead s.before t) iss.slot = none ∧ check s.before (k.lead s.before t) iss.slot = none)
    (hl : iss.live ≠ []) :
    runKindJump k check act f s = .next (ended k.info.c { carried s iss (act s.before iss.members iss.live s.now) with
      issue := some { iss with at_ := iss.at_ + 1
                               jumps := iss.jumps ++ iss.live.filterMap (fun t => (f s.before iss.members t).map (fun j => (t, j))) } }) := by
  have hw := wordStep_clean (act := act) (fun t ht hu => wordVerdict_none (h t ht hu).1 (h t ht hu).2.1 (h t ht hu).2.2.2 (h t ht hu).2.2.1)
    hl (fun t ht => poisonedSource_of_canRun (h t (Issue.undecided_of_live ht).1 (Issue.undecided_of_live ht).2).1)
  simp only [runKindJump, hs, hw, ended]
  rfl

/-- An instruction whose meaning is a word over `act` does `act` where it runs: `check` finds nothing under the word's own
condition. -/
theorem does_of_runWord {i : Instr} {c : Bool} {own : State → Nat → Prop} {check : Check} {act : Act}
    (he : ∀ s, exec i s = runWord i check act s) (hc : (opInfo i).c = c)
    (ho : ∀ e l slot, own e l → check e l slot = none) : Does i c own act := by
  subst hc
  intro s iss hr
  rw [he]
  exact runKind_clean hr.1 (fun t ht hu => ⟨(hr.2.2 t ht hu).1, (hr.2.2 t ht hu).2.1, (hr.2.2 t ht hu).2.2.1, ho _ _ _ (hr.2.2 t ht hu).2.2.2⟩) hr.2.1

/-- The same for a word that transfers control. -/
theorem jumps_of_runJump {i : Instr} {c : Bool} {own : State → Nat → Prop} {check : Check} {act : Act} {f : State → List Nat → Nat → Option Jump}
    (he : ∀ s, exec i s = runJump i check act f s) (hc : (opInfo i).c = c)
    (ho : ∀ e l slot, own e l → check e l slot = none) : Jumps i c own act f := by
  subst hc
  intro s iss hr
  rw [he]
  exact runKindJump_clean hr.1 (fun t ht hu => ⟨(hr.2.2 t ht hu).1, (hr.2.2 t ht hu).2.1, (hr.2.2 t ht hu).2.2.1, ho _ _ _ (hr.2.2 t ht hu).2.2.2⟩) hr.2.1

/-- A word whose checks fail in every undecided thread leaves the machine as it is. -/
theorem wordStep_failed {k : WordKind} {check : Check} {act : Act} {s : State} {iss : Issue} {v : Nat → Verdict}
    (h : ∀ t ∈ iss.members, iss.Undecided t → wordVerdict k check s.before t iss.slot = some (v t)) :
    wordStep k check act s iss = failed s iss v ∧
      ({ iss with dead := iss.dead.filter (fun d => !iss.undecided.contains d.1) ++ iss.undecided.map (fun t => (t, iss.at_, v t))
                  at_ := iss.at_ + 1 } : Issue).live = [] := by
  have hu : ∀ t ∈ iss.undecided, wordVerdict k check s.before t iss.slot = some (v t) := fun t ht => by
    simp only [Issue.undecided, List.mem_filter] at ht
    exact h t ht.1 ((iss.undecided_iff t).mpr ht.2)
  have hj : iss.judge k check s.before = iss.undecided.map (fun t => (t, iss.at_, v t)) := by
    rw [← List.filterMap_eq_map]
    exact List.filterMap_congr (fun t ht => by simp [hu t ht])
  have hc : ∀ n, ((iss.undecided.map (fun t => (t, iss.at_, v t))).any (fun b => decide (b.1 = n))) = iss.undecided.contains n := by
    intro n
    induction iss.undecided with
    | nil => rfl
    | cons x xs ih =>
      simp only [List.map_cons, List.any_cons, ih, List.contains_cons]
      congr 1
      rw [Bool.eq_iff_iff]
      simp only [decide_eq_true_eq, beq_iff_eq]
      exact ⟨Eq.symm, Eq.symm⟩
  have hl : ({ iss with dead := iss.dead.filter (fun d => !iss.undecided.contains d.1) ++ iss.undecided.map (fun t => (t, iss.at_, v t))
                        at_ := iss.at_ + 1 } : Issue).live = [] := by
    simp only [Issue.live, List.filter_eq_nil_iff, Option.isNone_iff_eq_none, Issue.verdict, Option.map_eq_none_iff, List.find?_eq_none,
      List.mem_append, List.mem_map, List.mem_filter, decide_eq_true_eq]
    intro t ht hn
    by_cases hm : t ∈ iss.undecided
    · exact hn _ (.inr ⟨t, hm, rfl⟩) rfl
    · have : ¬ iss.Undecided t := fun hx => hm (List.mem_filter.mpr ⟨ht, (iss.undecided_iff t).mp hx⟩)
      simp only [Issue.Undecided, Issue.verdict, Option.map_eq_some_iff, not_forall] at this
      obtain ⟨w, ⟨d, hd, -⟩, -⟩ := this
      have h1 := List.mem_of_find?_eq_some hd
      have h2 := List.find?_some hd
      simp only [decide_eq_true_eq] at h2
      exact hn d (.inl ⟨h1, by simpa [h2] using hm⟩) h2
  refine ⟨?_, hl⟩
  simp only [wordStep, hj, hc, hl, List.isEmpty_nil, if_true, failed]

/-- Such a word of `runKind`. -/
theorem runKind_failed {k : WordKind} {check : Check} {act : Act} {s : State} {iss : Issue} {v : Nat → Verdict} (hs : s.issue = some iss)
    (h : ∀ t ∈ iss.members, iss.Undecided t → wordVerdict k check s.before t iss.slot = some (v t)) :
    runKind k check act s = .next (ended k.info.c (failed s iss v)) := by
  simp only [runKind, hs, (wordStep_failed h).1, ended]

/-- Such a word of `runKindJump`. -/
theorem runKindJump_failed {k : WordKind} {check : Check} {act : Act} {f : State → List Nat → Nat → Option Jump} {s : State} {iss : Issue}
    {v : Nat → Verdict} (hs : s.issue = some iss) (h : ∀ t ∈ iss.members, iss.Undecided t → wordVerdict k check s.before t iss.slot = some (v t)) :
    runKindJump k check act f s = .next (ended k.info.c (failed s iss v)) := by
  have hl := (wordStep_failed (act := act) h).2
  simp only [runKindJump, hs, (wordStep_failed h).1, ended]
  simp only [failed] at hl ⊢
  rw [hl, List.filterMap_nil, List.append_nil]

/-- The verdict of a thread that may run the word but for the word's own check. -/
theorem wordVerdict_own {k : WordKind} {check : Check} {pre : State} {t slot : Nat} {v : Verdict} (h : CanRun pre t (k.lead pre t) k.info)
    (hh : k.held pre t = false) (hc : check pre (k.lead pre t) slot = some v) : wordVerdict k check pre t slot = some v := by
  simp only [wordVerdict, hh, readyWith_of_canRun h, issueCheck_of_canRun h, hc]
  rfl

theorem fails_of_runWord {i : Instr} {c : Bool} {own : State → Nat → Prop} {check : Check} {act : Act} {v : State → Nat → Nat → Verdict}
    (he : ∀ s, exec i s = runWord i check act s) (hc : (opInfo i).c = c)
    (ho : ∀ e l slot, own e l → check e l slot = some (v e l slot)) : Fails i c own v := by
  subst hc
  intro s iss hs h
  rw [he]
  exact runKind_failed (k := kindOf i) hs (fun t ht hu => wordVerdict_own (k := kindOf i) (h t ht hu).1 (h t ht hu).2.1 (ho _ _ _ (h t ht hu).2.2))

theorem fails_of_runJump {i : Instr} {c : Bool} {own : State → Nat → Prop} {check : Check} {act : Act} {f : State → List Nat → Nat → Option Jump}
    {v : State → Nat → Nat → Verdict} (he : ∀ s, exec i s = runJump i check act f s) (hc : (opInfo i).c = c)
    (ho : ∀ e l slot, own e l → check e l slot = some (v e l slot)) : Fails i c own v := by
  subst hc
  intro s iss hs h
  rw [he]
  exact runKindJump_failed (k := kindOf i) hs (fun t ht hu => wordVerdict_own (k := kindOf i) (h t ht hu).1 (h t ht hu).2.1 (ho _ _ _ (h t ht hu).2.2))

/-! The words of the SYS major, whose kind is written out. -/

/-- A kind that agrees with the one of an instruction where the instruction may run. -/
def WordKind.Fits (k : WordKind) (i : Instr) : Prop :=
  k.info = opInfo i ∧ (∀ e t, k.lead e t = wordLead e t i) ∧ (∀ e t, blocked e t i = false → k.held e t = false) ∧
    ∀ c t slot, pairCheck i c t slot = none → k.pair c t slot = none

theorem does_of_runKind {i : Instr} {k : WordKind} {c : Bool} {own : State → Nat → Prop} {check : Check} {act : Act}
    (he : ∀ s, exec i s = runKind k check act s) (hk : k.Fits i) (hc : (opInfo i).c = c)
    (ho : ∀ e l slot, own e l → check e l slot = none) : Does i c own act := by
  subst hc
  intro s iss hr
  obtain ⟨h1, h2, h3, h4⟩ := hk
  rw [he, ← h1]
  refine runKind_clean hr.1 (fun t ht hu => ?_) hr.2.1
  rw [h1, h2]
  exact ⟨(hr.2.2 t ht hu).1, h3 _ _ (hr.2.2 t ht hu).2.1, h4 _ _ _ (hr.2.2 t ht hu).2.2.1, ho _ _ _ (hr.2.2 t ht hu).2.2.2⟩

theorem jumps_of_runKindJump {i : Instr} {k : WordKind} {c : Bool} {own : State → Nat → Prop} {check : Check} {act : Act}
    {f : State → List Nat → Nat → Option Jump}
    (he : ∀ s, exec i s = runKindJump k check act f s) (hk : k.Fits i) (hc : (opInfo i).c = c)
    (ho : ∀ e l slot, own e l → check e l slot = none) : Jumps i c own act f := by
  subst hc
  intro s iss hr
  obtain ⟨h1, h2, h3, h4⟩ := hk
  rw [he, ← h1]
  refine runKindJump_clean hr.1 (fun t ht hu => ?_) hr.2.1
  rw [h1, h2]
  exact ⟨(hr.2.2 t ht hu).1, h3 _ _ (hr.2.2 t ht hu).2.1, h4 _ _ _ (hr.2.2 t ht hu).2.2.1, ho _ _ _ (hr.2.2 t ht hu).2.2.2⟩

theorem fails_of_runKind {i : Instr} {k : WordKind} {c : Bool} {own : State → Nat → Prop} {check : Check} {act : Act} {v : State → Nat → Nat → Verdict}
    (he : ∀ s, exec i s = runKind k check act s) (hk : k.Fits i) (hc : (opInfo i).c = c)
    (ho : ∀ e l slot, own e l → check e l slot = some (v e l slot)) : Fails i c own v := by
  subst hc
  intro s iss hs h
  obtain ⟨h1, h2, h3, -⟩ := hk
  rw [he, ← h1]
  exact runKind_failed hs (fun t ht hu => wordVerdict_own (by rw [h1, h2]; exact (h t ht hu).1) (h3 _ _ (h t ht hu).2.1)
    (by rw [h2]; exact ho _ _ _ (h t ht hu).2.2))

theorem fails_of_runKindJump {i : Instr} {k : WordKind} {c : Bool} {own : State → Nat → Prop} {check : Check} {act : Act}
    {f : State → List Nat → Nat → Option Jump} {v : State → Nat → Nat → Verdict}
    (he : ∀ s, exec i s = runKindJump k check act f s) (hk : k.Fits i) (hc : (opInfo i).c = c)
    (ho : ∀ e l slot, own e l → check e l slot = some (v e l slot)) : Fails i c own v := by
  subst hc
  intro s iss hs h
  obtain ⟨h1, h2, h3, -⟩ := hk
  rw [he, ← h1]
  exact runKindJump_failed hs (fun t ht hu => wordVerdict_own (by rw [h1, h2]; exact (h t ht hu).1) (h3 _ _ (h t ht hu).2.1)
    (by rw [h2]; exact ho _ _ _ (h t ht hu).2.2))

end Sys2Proof.Machine
end

