-- ==== Sys2Proof/Laws/Exec.lean ====
section
/-! SUPPORT. Executing each instruction is its meaning: one equation for each arm, so that no proof unfolds the dispatch. -/

namespace Sys2Proof.Machine

theorem exec_issueGroup (croft : Nat) (s : State) : exec (.issueGroup croft) s = execIssueGroup croft s := rfl
theorem exec_penStarved (croft : Nat) (pen : Nat) (s : State) : exec (.penStarved croft pen) s = execPenStarved croft pen s := rfl
theorem exec_pauseExpiry (th : Nat) (s : State) : exec (.pauseExpiry th) s = execPauseExpiry th s := rfl
theorem exec_yieldEnd (th : Nat) (s : State) : exec (.yieldEnd th) s = execYieldEnd th s := rfl
theorem exec_tick (s : State) : exec (.tick) s = execTick s := rfl
theorem exec_rebaseSweep (s : State) : exec (.rebaseSweep) s = execRebaseSweep s := rfl
theorem exec_rebaseSweepComplete (s : State) : exec (.rebaseSweepComplete) s = execRebaseSweepComplete s := rfl
theorem exec_loadDataReturn (acc : Nat) (s : State) : exec (.loadDataReturn acc) s = execLoadDataReturn acc s := rfl
theorem exec_renewRequest (acc : Nat) (s : State) : exec (.renewRequest acc) s = execRenewRequest acc s := rfl
theorem exec_renewReply (acc : Nat) (s : State) : exec (.renewReply acc) s = execRenewReply acc s := rfl
theorem exec_homeStore (acc : Nat) (s : State) : exec (.homeStore acc) s = execHomeStore acc s := rfl
theorem exec_ownedRequest (acc : Nat) (s : State) : exec (.ownedRequest acc) s = execOwnedRequest acc s := rfl
theorem exec_homeAtomic (acc : Nat) (s : State) : exec (.homeAtomic acc) s = execHomeAtomic acc s := rfl
theorem exec_recallLine (line : Nat) (s : State) : exec (.recallLine line) s = execRecall line s := rfl
theorem exec_persistentRequest (slice : Nat) (s : State) : exec (.persistentRequest slice) s = execPersistentRequest slice s := rfl
theorem exec_sliceEviction (line : Nat) (s : State) : exec (.sliceEviction line) s = execSliceEviction line s := rfl
theorem exec_hostMemAccess (op : BitVec 2) (addr : Nat) (size : Nat) (data : BitVec 64) (cache : Bool) (s : State) : exec (.hostMemAccess op addr size data cache) s = execHostMemAccess op addr size data cache s := rfl
theorem exec_backInvalidationResponse (line : Nat) (s : State) : exec (.backInvalidationResponse line) s = execBackInvalidationResponse line s := rfl
theorem exec_hostSnoop (line : Nat) (inval : Bool) (s : State) : exec (.hostSnoop line inval) s = execHostSnoop line inval s := rfl
theorem exec_surveyorWalk (core : Nat) (ctx : Nat) (va : Nat) (s : State) : exec (.surveyorWalk core ctx va) s = execSurveyorWalk core ctx va s := rfl
theorem exec_holdLimitExpiry (th : Nat) (s : State) : exec (.holdLimitExpiry th) s = execHoldLimitExpiry th s := rfl
theorem exec_pageFaultService (ctx : Nat) (va : Nat) (s : State) : exec (.pageFaultService ctx va) s = execPageFaultService ctx va s := rfl
theorem exec_droverCommand (ctx : Nat) (s : State) : exec (.droverCommand ctx) s = execDroverCommand ctx s := rfl
theorem exec_migration (ctx : Nat) (va : Nat) (s : State) : exec (.migration ctx va) s = execMigration ctx va s := rfl
theorem exec_migrationComplete (ctx : Nat) (va : Nat) (s : State) : exec (.migrationComplete ctx va) s = execMigrationComplete ctx va s := rfl
theorem exec_farPagePromotion (ctx : Nat) (va : Nat) (s : State) : exec (.farPagePromotion ctx va) s = execFarPagePromotion ctx va s := rfl
theorem exec_pageLeaseEnd (page : Nat) (s : State) : exec (.pageLeaseEnd page) s = execPageLeaseEnd page s := rfl
theorem exec_timeSyncSend (s : State) : exec (.timeSyncSend) s = execTimeSyncSend s := rfl
theorem exec_timeSyncReceive (dtick : BitVec 48) (delay : Nat) (s : State) : exec (.timeSyncReceive dtick delay) s = execTimeSyncReceive dtick delay s := rfl
theorem exec_syncLossTimeout (s : State) : exec (.syncLossTimeout) s = execSyncLossTimeout s := rfl
theorem exec_flitReceive (port : Nat) (header : BitVec 64) (payload : BitVec 384) (good : Bool) (s : State) : exec (.flitReceive port header payload good) s = execFlitReceive port header payload good s := rfl
theorem exec_flitReplay (port : Nat) (s : State) : exec (.flitReplay port) s = execFlitReplay port s := rfl
theorem exec_trainingSuccess (port : Nat) (lanes : Nat) (s : State) : exec (.trainingSuccess port lanes) s = execTrainingSuccess port lanes s := rfl
theorem exec_trainingTimeout (port : Nat) (s : State) : exec (.trainingTimeout port) s = execTrainingTimeout port s := rfl
theorem exec_trainingRetry (port : Nat) (s : State) : exec (.trainingRetry port) s = execTrainingRetry port s := rfl
theorem exec_linkRetrain (port : Nat) (s : State) : exec (.linkRetrain port) s = execLinkRetrain port s := rfl
theorem exec_routeFailure (req : Nat) (s : State) : exec (.routeFailure req) s = execRouteFailure req s := rfl
theorem exec_stewardTake (ctx : Nat) (qix : Nat) (s : State) : exec (.stewardTake ctx qix) s = execStewardTake ctx qix s := rfl
theorem exec_queueEnableChange (ctx : Nat) (qix : Nat) (s : State) : exec (.queueEnableChange ctx qix) s = execQueueEnableChange ctx qix s := rfl
theorem exec_dependencesMet (launch : Nat) (s : State) : exec (.dependencesMet launch) s = execDependencesMet launch s := rfl
theorem exec_clusterPlacement (s : State) : exec (.clusterPlacement) s = execClusterPlacement s := rfl
theorem exec_teamRetirement (team : Nat) (s : State) : exec (.teamRetirement team) s = execTeamRetirement team s := rfl
theorem exec_binTimerExpiry (core : Nat) (bin : Nat) (s : State) : exec (.binTimerExpiry core bin) s = execBinTimerExpiry core bin s := rfl
theorem exec_binLaunch (core : Nat) (bin : Nat) (croft : Nat) (s : State) : exec (.binLaunch core bin croft) s = execBinLaunch core bin croft s := rfl
theorem exec_barrierTimeout (th : Nat) (s : State) : exec (.barrierTimeout th) s = execBarrierTimeout th s := rfl
theorem exec_waitLimitExpiry (th : Nat) (s : State) : exec (.waitLimitExpiry th) s = execWaitLimitExpiry th s := rfl
theorem exec_watchFire (th : Nat) (s : State) : exec (.watchFire th) s = execWatchFire th s := rfl
theorem exec_carterTransferUnit (unit : Nat) (s : State) : exec (.carterTransferUnit unit) s = execCarterTransferUnit unit s := rfl
theorem exec_copyElement (batch : Nat) (elem : Nat) (s : State) : exec (.copyElement batch elem) s = execCopyElement batch elem s := rfl
theorem exec_batchResolve (batch : Nat) (s : State) : exec (.batchResolve batch) s = execBatchResolve batch s := rfl
theorem exec_remapWrite (batch : Nat) (elem : Nat) (s : State) : exec (.remapWrite batch elem) s = execRemapWrite batch elem s := rfl
theorem exec_remapTimeout (team : Nat) (s : State) : exec (.remapTimeout team) s = execRemapTimeout team s := rfl
theorem exec_remoteAtomicReply (acc : Nat) (data : BitVec 64) (s : State) : exec (.remoteAtomicReply acc data) s = execRemoteAtomicReply acc data s := rfl
theorem exec_ecallAnswer (acc : Nat) (answer : BitVec 32) (s : State) : exec (.ecallAnswer acc answer) s = execEcallAnswer acc answer s := rfl
theorem exec_pressTileStep (core : Nat) (blocks : Nat) (s : State) : exec (.pressTileStep core blocks) s = execPressTileStep core blocks s := rfl
theorem exec_pressEntryResolve (entry : Nat) (s : State) : exec (.pressEntryResolve entry) s = execPressEntryResolve entry s := rfl
theorem exec_quadJoin (th : Nat) (s : State) : exec (.quadJoin th) s = execQuadJoin th s := rfl
theorem exec_ploughElementRead (group : Nat) (stream : Nat) (s : State) : exec (.ploughElementRead group stream) s = execPloughElementRead group stream s := rfl
theorem exec_contextQuiescent (ctx : Nat) (s : State) : exec (.contextQuiescent ctx) s = execContextQuiescent ctx s := rfl
theorem exec_saveComplete (ctx : Nat) (s : State) : exec (.saveComplete ctx) s = execSaveComplete ctx s := rfl
theorem exec_preemptReport (ctx : Nat) (s : State) : exec (.preemptReport ctx) s = execPreemptReport ctx s := rfl
theorem exec_moveTransferDone (ctx : Nat) (ok : Bool) (s : State) : exec (.moveTransferDone ctx ok) s = execMoveTransferDone ctx ok s := rfl
theorem exec_automaticMark (ctx : Nat) (s : State) : exec (.automaticMark ctx) s = execAutomaticMark ctx s := rfl
theorem exec_markStagingComplete (ctx : Nat) (s : State) : exec (.markStagingComplete ctx) s = execMarkStagingComplete ctx s := rfl
theorem exec_checkpointStream (ctx : Nat) (s : State) : exec (.checkpointStream ctx) s = execCheckpointStream ctx s := rfl
theorem exec_checkpointComplete (ctx : Nat) (s : State) : exec (.checkpointComplete ctx) s = execCheckpointComplete ctx s := rfl
theorem exec_copyOnWriteRelease (ctx : Nat) (va : Nat) (s : State) : exec (.copyOnWriteRelease ctx va) s = execCopyOnWriteRelease ctx va s := rfl
theorem exec_scrub (array : Nat) (index : Nat) (bad : Bool) (s : State) : exec (.scrub array index bad) s = execScrub array index bad s := rfl
theorem exec_uncorrectable (th : Nat) (s : State) : exec (.uncorrectable th) s = execUncorrectable th s := rfl
theorem exec_committedEarly (team : Nat) (s : State) : exec (.committedEarly team) s = execCommittedEarly team s := rfl
theorem exec_rollback (team : Nat) (s : State) : exec (.rollback team) s = execRollback team s := rfl
theorem exec_heartbeatLoss (die : Nat) (s : State) : exec (.heartbeatLoss die) s = execHeartbeatLoss die s := rfl
theorem exec_dieFence (die : Nat) (s : State) : exec (.dieFence die) s = execDieFence die s := rfl
theorem exec_barnDieFence (barn : Nat) (s : State) : exec (.barnDieFence barn) s = execBarnDieFence barn s := rfl
theorem exec_reeveShare (avg : BitVec 11) (share0 : Nat) (share1 : Nat) (share2 : Nat) (share3 : Nat) (s : State) : exec (.reeveShare avg share0 share1 share2 share3) s = execReeveShare avg share0 share1 share2 share3 s := rfl
theorem exec_pstateTransition (die : Nat) (s : State) : exec (.pstateTransition die) s = execPstateTransition die s := rfl
theorem exec_parkComplete (die : Nat) (s : State) : exec (.parkComplete die) s = execParkComplete die s := rfl
theorem exec_wakeComplete (die : Nat) (s : State) : exec (.wakeComplete die) s = execWakeComplete die s := rfl
theorem exec_bankReady (die : Nat) (bank : Nat) (s : State) : exec (.bankReady die bank) s = execBankReady die bank s := rfl
theorem exec_powerOnSelfTest (failed : BitVec 32) (hostLanes : Nat) (s : State) : exec (.powerOnSelfTest failed hostLanes) s = execPowerOnSelfTest failed hostLanes s := rfl
theorem exec_patchLoadComplete (slot : Nat) (s : State) : exec (.patchLoadComplete slot) s = execPatchLoadComplete slot s := rfl
theorem exec_patchArmComplete (slot : Nat) (s : State) : exec (.patchArmComplete slot) s = execPatchArmComplete slot s := rfl
theorem exec_drainComplete (slot : Nat) (s : State) : exec (.drainComplete slot) s = execDrainComplete slot s := rfl
theorem exec_registerWrite (offset : Nat) (value : BitVec 32) (s : State) : exec (.registerWrite offset value) s = execRegisterWrite offset value s := rfl
theorem exec_pwrceilWrite (value : BitVec 32) (s : State) : exec (.pwrceilWrite value) s = execPwrceilWrite value s := rfl
theorem exec_splitWrite (value : BitVec 32) (s : State) : exec (.splitWrite value) s = execSplitWrite value s := rfl
theorem exec_discovery (s : State) : exec (.discovery) s = execDiscovery s := rfl
theorem exec_selfTestReport (s : State) : exec (.selfTestReport) s = execSelfTestReport s := rfl
theorem exec_memoryReport (s : State) : exec (.memoryReport) s = execMemoryReport s := rfl
theorem exec_stopCommand (s : State) : exec (.stopCommand) s = execStopCommand s := rfl
theorem exec_saveCommand (s : State) : exec (.saveCommand) s = execSaveCommand s := rfl
theorem exec_resumeCommand (s : State) : exec (.resumeCommand) s = execResumeCommand s := rfl
theorem exec_preEmptCommand (s : State) : exec (.preEmptCommand) s = execPreEmptCommand s := rfl
theorem exec_move (s : State) : exec (.move) s = execMove s := rfl
theorem exec_kill (s : State) : exec (.kill) s = execKill s := rfl
theorem exec_release (s : State) : exec (.release) s = execRelease s := rfl
theorem exec_contextStatus (s : State) : exec (.contextStatus) s = execContextStatus s := rfl
theorem exec_createContext (s : State) : exec (.createContext) s = execCreateContext s := rfl
theorem exec_loadCodeObject (s : State) : exec (.loadCodeObject) s = execLoadCodeObject s := rfl
theorem exec_setAllowedCoreSet (s : State) : exec (.setAllowedCoreSet) s = execSetAllowedCoreSet s := rfl
theorem exec_writeAContextControlWord (s : State) : exec (.writeAContextControlWord) s = execWriteAContextControlWord s := rfl
theorem exec_verifyStencilImage (s : State) : exec (.verifyStencilImage) s = execVerifyStencilImage s := rfl
theorem exec_enrolOperatorKey (s : State) : exec (.enrolOperatorKey) s = execEnrolOperatorKey s := rfl
theorem exec_keyStatus (s : State) : exec (.keyStatus) s = execKeyStatus s := rfl
theorem exec_portStatus (s : State) : exec (.portStatus) s = execPortStatus s := rfl
theorem exec_fenceScaleUpPort (s : State) : exec (.fenceScaleUpPort) s = execFenceScaleUpPort s := rfl
theorem exec_unfenceScaleUpPort (s : State) : exec (.unfenceScaleUpPort) s = execUnfenceScaleUpPort s := rfl
theorem exec_domainConfiguration (s : State) : exec (.domainConfiguration) s = execDomainConfiguration s := rfl
theorem exec_iadd (c : Bool) (u : Bool) (d : BitVec 7) (a : BitVec 7) (b : BitVec 7) (s : State) : exec (.iadd c u d a b) s = execIadd c u d a b s := rfl
theorem exec_isub (c : Bool) (u : Bool) (d : BitVec 7) (a : BitVec 7) (b : BitVec 7) (s : State) : exec (.isub c u d a b) s = execIsub c u d a b s := rfl
theorem exec_iminS32 (c : Bool) (u : Bool) (d : BitVec 7) (a : BitVec 7) (b : BitVec 7) (s : State) : exec (.iminS32 c u d a b) s = execIminS32 c u d a b s := rfl
theorem exec_imaxS32 (c : Bool) (u : Bool) (d : BitVec 7) (a : BitVec 7) (b : BitVec 7) (s : State) : exec (.imaxS32 c u d a b) s = execImaxS32 c u d a b s := rfl
theorem exec_iminN32 (c : Bool) (u : Bool) (d : BitVec 7) (a : BitVec 7) (b : BitVec 7) (s : State) : exec (.iminN32 c u d a b) s = execIminN32 c u d a b s := rfl
theorem exec_imaxN32 (c : Bool) (u : Bool) (d : BitVec 7) (a : BitVec 7) (b : BitVec 7) (s : State) : exec (.imaxN32 c u d a b) s = execImaxN32 c u d a b s := rfl
theorem exec_iabsd (c : Bool) (u : Bool) (d : BitVec 7) (a : BitVec 7) (b : BitVec 7) (s : State) : exec (.iabsd c u d a b) s = execIabsd c u d a b s := rfl
theorem exec_ineg (c : Bool) (u : Bool) (d : BitVec 7) (a : BitVec 7) (s : State) : exec (.ineg c u d a) s = execIneg c u d a s := rfl
theorem exec_imul (c : Bool) (u : Bool) (d : BitVec 7) (a : BitVec 7) (b : BitVec 7) (s : State) : exec (.imul c u d a b) s = execImul c u d a b s := rfl
theorem exec_imulhS32 (c : Bool) (u : Bool) (d : BitVec 7) (a : BitVec 7) (b : BitVec 7) (s : State) : exec (.imulhS32 c u d a b) s = execImulhS32 c u d a b s := rfl
theorem exec_imulhN32 (c : Bool) (u : Bool) (d : BitVec 7) (a : BitVec 7) (b : BitVec 7) (s : State) : exec (.imulhN32 c u d a b) s = execImulhN32 c u d a b s := rfl
theorem exec_imad (c : Bool) (u : Bool) (d : BitVec 7) (a : BitVec 7) (b : BitVec 7) (s : State) : exec (.imad c u d a b) s = execImad c u d a b s := rfl
theorem exec_idivS32 (c : Bool) (u : Bool) (d : BitVec 7) (a : BitVec 7) (b : BitVec 7) (s : State) : exec (.idivS32 c u d a b) s = execIdivS32 c u d a b s := rfl
theorem exec_idivN32 (c : Bool) (u : Bool) (d : BitVec 7) (a : BitVec 7) (b : BitVec 7) (s : State) : exec (.idivN32 c u d a b) s = execIdivN32 c u d a b s := rfl
theorem exec_iremS32 (c : Bool) (u : Bool) (d : BitVec 7) (a : BitVec 7) (b : BitVec 7) (s : State) : exec (.iremS32 c u d a b) s = execIremS32 c u d a b s := rfl
theorem exec_iremN32 (c : Bool) (u : Bool) (d : BitVec 7) (a : BitVec 7) (b : BitVec 7) (s : State) : exec (.iremN32 c u d a b) s = execIremN32 c u d a b s := rfl
theorem exec_iaddD (c : Bool) (u : Bool) (d : BitVec 6) (a : BitVec 6) (b : BitVec 6) (s : State) : exec (.iaddD c u d a b) s = execIaddD c u d a b s := rfl
theorem exec_isubD (c : Bool) (u : Bool) (d : BitVec 6) (a : BitVec 6) (b : BitVec 6) (s : State) : exec (.isubD c u d a b) s = execIsubD c u d a b s := rfl
theorem exec_imulD (c : Bool) (u : Bool) (d : BitVec 6) (a : BitVec 6) (b : BitVec 6) (s : State) : exec (.imulD c u d a b) s = execImulD c u d a b s := rfl
theorem exec_imadwS32 (c : Bool) (u : Bool) (d : BitVec 6) (a : BitVec 7) (b : BitVec 7) (s : State) : exec (.imadwS32 c u d a b) s = execImadwS32 c u d a b s := rfl
theorem exec_imadwN32 (c : Bool) (u : Bool) (d : BitVec 6) (a : BitVec 7) (b : BitVec 7) (s : State) : exec (.imadwN32 c u d a b) s = execImadwN32 c u d a b s := rfl
theorem exec_shlD (c : Bool) (u : Bool) (d : BitVec 6) (a : BitVec 6) (b : BitVec 7) (s : State) : exec (.shlD c u d a b) s = execShlD c u d a b s := rfl
theorem exec_shrD (c : Bool) (u : Bool) (d : BitVec 6) (a : BitVec 6) (b : BitVec 7) (s : State) : exec (.shrD c u d a b) s = execShrD c u d a b s := rfl
theorem exec_sarD (c : Bool) (u : Bool) (d : BitVec 6) (a : BitVec 6) (b : BitVec 7) (s : State) : exec (.sarD c u d a b) s = execSarD c u d a b s := rfl
theorem exec_and (c : Bool) (u : Bool) (d : BitVec 7) (a : BitVec 7) (b : BitVec 7) (s : State) : exec (.and c u d a b) s = execAnd c u d a b s := rfl
theorem exec_or (c : Bool) (u : Bool) (d : BitVec 7) (a : BitVec 7) (b : BitVec 7) (s : State) : exec (.or c u d a b) s = execOr c u d a b s := rfl
theorem exec_xor (c : Bool) (u : Bool) (d : BitVec 7) (a : BitVec 7) (b : BitVec 7) (s : State) : exec (.xor c u d a b) s = execXor c u d a b s := rfl
theorem exec_andn (c : Bool) (u : Bool) (d : BitVec 7) (a : BitVec 7) (b : BitVec 7) (s : State) : exec (.andn c u d a b) s = execAndn c u d a b s := rfl
theorem exec_orn (c : Bool) (u : Bool) (d : BitVec 7) (a : BitVec 7) (b : BitVec 7) (s : State) : exec (.orn c u d a b) s = execOrn c u d a b s := rfl
theorem exec_xnor (c : Bool) (u : Bool) (d : BitVec 7) (a : BitVec 7) (b : BitVec 7) (s : State) : exec (.xnor c u d a b) s = execXnor c u d a b s := rfl
theorem exec_not (c : Bool) (u : Bool) (d : BitVec 7) (a : BitVec 7) (s : State) : exec (.not c u d a) s = execNot c u d a s := rfl
theorem exec_mov (c : Bool) (u : Bool) (d : BitVec 7) (a : BitVec 7) (s : State) : exec (.mov c u d a) s = execMov c u d a s := rfl
theorem exec_shl (c : Bool) (u : Bool) (d : BitVec 7) (a : BitVec 7) (b : BitVec 7) (s : State) : exec (.shl c u d a b) s = execShl c u d a b s := rfl
theorem exec_shr (c : Bool) (u : Bool) (d : BitVec 7) (a : BitVec 7) (b : BitVec 7) (s : State) : exec (.shr c u d a b) s = execShr c u d a b s := rfl
theorem exec_sar (c : Bool) (u : Bool) (d : BitVec 7) (a : BitVec 7) (b : BitVec 7) (s : State) : exec (.sar c u d a b) s = execSar c u d a b s := rfl
theorem exec_rotl (c : Bool) (u : Bool) (d : BitVec 7) (a : BitVec 7) (b : BitVec 7) (s : State) : exec (.rotl c u d a b) s = execRotl c u d a b s := rfl
theorem exec_popc (c : Bool) (u : Bool) (d : BitVec 7) (a : BitVec 7) (s : State) : exec (.popc c u d a) s = execPopc c u d a s := rfl
theorem exec_clz (c : Bool) (u : Bool) (d : BitVec 7) (a : BitVec 7) (s : State) : exec (.clz c u d a) s = execClz c u d a s := rfl
theorem exec_brev (c : Bool) (u : Bool) (d : BitVec 7) (a : BitVec 7) (s : State) : exec (.brev c u d a) s = execBrev c u d a s := rfl
theorem exec_ffs (c : Bool) (u : Bool) (d : BitVec 7) (a : BitVec 7) (s : State) : exec (.ffs c u d a) s = execFfs c u d a s := rfl
theorem exec_bfxS32 (c : Bool) (u : Bool) (d : BitVec 7) (a : BitVec 7) (b : BitVec 7) (s : State) : exec (.bfxS32 c u d a b) s = execBfxS32 c u d a b s := rfl
theorem exec_bfxN32 (c : Bool) (u : Bool) (d : BitVec 7) (a : BitVec 7) (b : BitVec 7) (s : State) : exec (.bfxN32 c u d a b) s = execBfxN32 c u d a b s := rfl
theorem exec_bfi (c : Bool) (u : Bool) (d : BitVec 7) (a : BitVec 7) (b : BitVec 7) (s : State) : exec (.bfi c u d a b) s = execBfi c u d a b s := rfl
theorem exec_perm (c : Bool) (u : Bool) (d : BitVec 7) (a : BitVec 7) (b : BitVec 7) (s : State) : exec (.perm c u d a b) s = execPerm c u d a b s := rfl
theorem exec_shf (c : Bool) (u : Bool) (d : BitVec 7) (a : BitVec 7) (b : BitVec 7) (s : State) : exec (.shf c u d a b) s = execShf c u d a b s := rfl
theorem exec_iaddsS32 (c : Bool) (u : Bool) (d : BitVec 7) (a : BitVec 7) (b : BitVec 7) (s : State) : exec (.iaddsS32 c u d a b) s = execIaddsS32 c u d a b s := rfl
theorem exec_isubsS32 (c : Bool) (u : Bool) (d : BitVec 7) (a : BitVec 7) (b : BitVec 7) (s : State) : exec (.isubsS32 c u d a b) s = execIsubsS32 c u d a b s := rfl
theorem exec_iaddsN32 (c : Bool) (u : Bool) (d : BitVec 7) (a : BitVec 7) (b : BitVec 7) (s : State) : exec (.iaddsN32 c u d a b) s = execIaddsN32 c u d a b s := rfl
theorem exec_iaddi (c : Bool) (u : Bool) (d : BitVec 7) (a : BitVec 7) (imm : BitVec 10) (s : State) : exec (.iaddi c u d a imm) s = execIaddi c u d a imm s := rfl
theorem exec_andi (c : Bool) (u : Bool) (d : BitVec 7) (a : BitVec 7) (imm : BitVec 10) (s : State) : exec (.andi c u d a imm) s = execAndi c u d a imm s := rfl
theorem exec_ori (c : Bool) (u : Bool) (d : BitVec 7) (a : BitVec 7) (imm : BitVec 10) (s : State) : exec (.ori c u d a imm) s = execOri c u d a imm s := rfl
theorem exec_xori (c : Bool) (u : Bool) (d : BitVec 7) (a : BitVec 7) (imm : BitVec 10) (s : State) : exec (.xori c u d a imm) s = execXori c u d a imm s := rfl
theorem exec_shfi (c : Bool) (u : Bool) (d : BitVec 7) (a : BitVec 7) (sc : BitVec 2) (n : BitVec 6) (s : State) : exec (.shfi c u d a sc n) s = execShfi c u d a sc n s := rfl
theorem exec_imuli (c : Bool) (u : Bool) (d : BitVec 7) (a : BitVec 7) (imm : BitVec 10) (s : State) : exec (.imuli c u d a imm) s = execImuli c u d a imm s := rfl
theorem exec_leai (c : Bool) (u : Bool) (d : BitVec 6) (a : BitVec 6) (imm : BitVec 10) (s : State) : exec (.leai c u d a imm) s = execLeai c u d a imm s := rfl
theorem exec_movi (c : Bool) (u : Bool) (d : BitVec 7) (imm : BitVec 17) (s : State) : exec (.movi c u d imm) s = execMovi c u d imm s := rfl
theorem exec_movhi (c : Bool) (u : Bool) (d : BitVec 7) (imm : BitVec 17) (s : State) : exec (.movhi c u d imm) s = execMovhi c u d imm s := rfl
theorem exec_kld (c : Bool) (u : Bool) (d : BitVec 7) (k : BitVec 10) (s : State) : exec (.kld c u d k) s = execKld c u d k s := rfl
theorem exec_isetp (c : Bool) (u : Bool) (f : BitVec 3) (e : BitVec 2) (p : BitVec 3) (a : BitVec 7) (b : BitVec 7) (s : State) : exec (.isetp c u f e p a b) s = execIsetp c u f e p a b s := rfl
theorem exec_fsetp (c : Bool) (u : Bool) (f : BitVec 3) (e : BitVec 2) (p : BitVec 3) (a : BitVec 7) (b : BitVec 7) (s : State) : exec (.fsetp c u f e p a b) s = execFsetp c u f e p a b s := rfl
theorem exec_pand (c : Bool) (u : Bool) (d : BitVec 3) (a : BitVec 3) (b : BitVec 3) (s : State) : exec (.pand c u d a b) s = execPand c u d a b s := rfl
theorem exec_por (c : Bool) (u : Bool) (d : BitVec 3) (a : BitVec 3) (b : BitVec 3) (s : State) : exec (.por c u d a b) s = execPor c u d a b s := rfl
theorem exec_pxor (c : Bool) (u : Bool) (d : BitVec 3) (a : BitVec 3) (b : BitVec 3) (s : State) : exec (.pxor c u d a b) s = execPxor c u d a b s := rfl
theorem exec_pnot (c : Bool) (u : Bool) (d : BitVec 3) (a : BitVec 3) (s : State) : exec (.pnot c u d a) s = execPnot c u d a s := rfl
theorem exec_p2v (c : Bool) (u : Bool) (d : BitVec 7) (s : State) : exec (.p2v c u d) s = execP2v c u d s := rfl
theorem exec_v2p (c : Bool) (u : Bool) (a : BitVec 7) (s : State) : exec (.v2p c u a) s = execV2p c u a s := rfl
theorem exec_pset (c : Bool) (u : Bool) (d : BitVec 3) (b : BitVec 1) (s : State) : exec (.pset c u d b) s = execPset c u d b s := rfl
theorem exec_selp (c : Bool) (u : Bool) (d : BitVec 7) (a : BitVec 7) (b : BitVec 7) (p : BitVec 3) (s : State) : exec (.selp c u d a b p) s = execSelp c u d a b p s := rfl
theorem exec_mand (c : Bool) (u : Bool) (d : BitVec 4) (a : BitVec 4) (b : BitVec 4) (s : State) : exec (.mand c u d a b) s = execMand c u d a b s := rfl
theorem exec_mor (c : Bool) (u : Bool) (d : BitVec 4) (a : BitVec 4) (b : BitVec 4) (s : State) : exec (.mor c u d a b) s = execMor c u d a b s := rfl
theorem exec_mxor (c : Bool) (u : Bool) (d : BitVec 4) (a : BitVec 4) (b : BitVec 4) (s : State) : exec (.mxor c u d a b) s = execMxor c u d a b s := rfl
theorem exec_mnot (c : Bool) (u : Bool) (d : BitVec 4) (a : BitVec 4) (s : State) : exec (.mnot c u d a) s = execMnot c u d a s := rfl
theorem exec_mfromv (c : Bool) (u : Bool) (d : BitVec 4) (a : BitVec 7) (s : State) : exec (.mfromv c u d a) s = execMfromv c u d a s := rfl
theorem exec_mtov (c : Bool) (u : Bool) (d : BitVec 7) (a : BitVec 4) (s : State) : exec (.mtov c u d a) s = execMtov c u d a s := rfl
theorem exec_mpopc (c : Bool) (u : Bool) (d : BitVec 7) (a : BitVec 4) (s : State) : exec (.mpopc c u d a) s = execMpopc c u d a s := rfl
theorem exec_mself (c : Bool) (u : Bool) (d : BitVec 4) (s : State) : exec (.mself c u d) s = execMself c u d s := rfl
theorem exec_fadd (c : Bool) (u : Bool) (d : BitVec 7) (a : BitVec 7) (b : BitVec 7) (s : State) : exec (.fadd c u d a b) s = execFadd c u d a b s := rfl
theorem exec_fsub (c : Bool) (u : Bool) (d : BitVec 7) (a : BitVec 7) (b : BitVec 7) (s : State) : exec (.fsub c u d a b) s = execFsub c u d a b s := rfl
theorem exec_fmul (c : Bool) (u : Bool) (d : BitVec 7) (a : BitVec 7) (b : BitVec 7) (s : State) : exec (.fmul c u d a b) s = execFmul c u d a b s := rfl
theorem exec_fmin (c : Bool) (u : Bool) (d : BitVec 7) (a : BitVec 7) (b : BitVec 7) (s : State) : exec (.fmin c u d a b) s = execFmin c u d a b s := rfl
theorem exec_fmax (c : Bool) (u : Bool) (d : BitVec 7) (a : BitVec 7) (b : BitVec 7) (s : State) : exec (.fmax c u d a b) s = execFmax c u d a b s := rfl
theorem exec_fabs (c : Bool) (u : Bool) (d : BitVec 7) (a : BitVec 7) (s : State) : exec (.fabs c u d a) s = execFabs c u d a s := rfl
theorem exec_fneg (c : Bool) (u : Bool) (d : BitVec 7) (a : BitVec 7) (s : State) : exec (.fneg c u d a) s = execFneg c u d a s := rfl
theorem exec_fcpsgn (c : Bool) (u : Bool) (d : BitVec 7) (a : BitVec 7) (b : BitVec 7) (s : State) : exec (.fcpsgn c u d a b) s = execFcpsgn c u d a b s := rfl
theorem exec_fma (c : Bool) (u : Bool) (d : BitVec 7) (a : BitVec 7) (b : BitVec 7) (s : State) : exec (.fma c u d a b) s = execFma c u d a b s := rfl
theorem exec_fms (c : Bool) (u : Bool) (d : BitVec 7) (a : BitVec 7) (b : BitVec 7) (s : State) : exec (.fms c u d a b) s = execFms c u d a b s := rfl
theorem exec_fnma (c : Bool) (u : Bool) (d : BitVec 7) (a : BitVec 7) (b : BitVec 7) (s : State) : exec (.fnma c u d a b) s = execFnma c u d a b s := rfl
theorem exec_fnms (c : Bool) (u : Bool) (d : BitVec 7) (a : BitVec 7) (b : BitVec 7) (s : State) : exec (.fnms c u d a b) s = execFnms c u d a b s := rfl
theorem exec_frcp (c : Bool) (u : Bool) (d : BitVec 7) (a : BitVec 7) (s : State) : exec (.frcp c u d a) s = execFrcp c u d a s := rfl
theorem exec_frsq (c : Bool) (u : Bool) (d : BitVec 7) (a : BitVec 7) (s : State) : exec (.frsq c u d a) s = execFrsq c u d a s := rfl
theorem exec_fsqrta (c : Bool) (u : Bool) (d : BitVec 7) (a : BitVec 7) (s : State) : exec (.fsqrta c u d a) s = execFsqrta c u d a s := rfl
theorem exec_fex2 (c : Bool) (u : Bool) (d : BitVec 7) (a : BitVec 7) (s : State) : exec (.fex2 c u d a) s = execFex2 c u d a s := rfl
theorem exec_flg2 (c : Bool) (u : Bool) (d : BitVec 7) (a : BitVec 7) (s : State) : exec (.flg2 c u d a) s = execFlg2 c u d a s := rfl
theorem exec_fsinp (c : Bool) (u : Bool) (d : BitVec 7) (a : BitVec 7) (s : State) : exec (.fsinp c u d a) s = execFsinp c u d a s := rfl
theorem exec_fcosp (c : Bool) (u : Bool) (d : BitVec 7) (a : BitVec 7) (s : State) : exec (.fcosp c u d a) s = execFcosp c u d a s := rfl
theorem exec_ftanh (c : Bool) (u : Bool) (d : BitVec 7) (a : BitVec 7) (s : State) : exec (.ftanh c u d a) s = execFtanh c u d a s := rfl
theorem exec_fdiv (c : Bool) (u : Bool) (d : BitVec 7) (a : BitVec 7) (b : BitVec 7) (s : State) : exec (.fdiv c u d a b) s = execFdiv c u d a b s := rfl
theorem exec_fsqrt (c : Bool) (u : Bool) (d : BitVec 7) (a : BitVec 7) (s : State) : exec (.fsqrt c u d a) s = execFsqrt c u d a s := rfl
theorem exec_frintRn (c : Bool) (u : Bool) (d : BitVec 7) (a : BitVec 7) (s : State) : exec (.frintRn c u d a) s = execFrintRn c u d a s := rfl
theorem exec_frintRz (c : Bool) (u : Bool) (d : BitVec 7) (a : BitVec 7) (s : State) : exec (.frintRz c u d a) s = execFrintRz c u d a s := rfl
theorem exec_frintRd (c : Bool) (u : Bool) (d : BitVec 7) (a : BitVec 7) (s : State) : exec (.frintRd c u d a) s = execFrintRd c u d a s := rfl
theorem exec_frintRu (c : Bool) (u : Bool) (d : BitVec 7) (a : BitVec 7) (s : State) : exec (.frintRu c u d a) s = execFrintRu c u d a s := rfl
theorem exec_fclass (c : Bool) (u : Bool) (d : BitVec 7) (a : BitVec 7) (s : State) : exec (.fclass c u d a) s = execFclass c u d a s := rfl
theorem exec_fscalb (c : Bool) (u : Bool) (d : BitVec 7) (a : BitVec 7) (b : BitVec 7) (s : State) : exec (.fscalb c u d a b) s = execFscalb c u d a b s := rfl
theorem exec_cvt (c : Bool) (u : Bool) (sc : BitVec 1) (r : BitVec 2) (d : BitVec 7) (a : BitVec 7) (b : BitVec 7) (s : State) : exec (.cvt c u sc r d a b) s = execCvt c u sc r d a b s := rfl
theorem exec_pkbf (c : Bool) (u : Bool) (d : BitVec 7) (a : BitVec 7) (b : BitVec 7) (s : State) : exec (.pkbf c u d a b) s = execPkbf c u d a b s := rfl
theorem exec_pke4Lo (c : Bool) (u : Bool) (d : BitVec 7) (a : BitVec 7) (b : BitVec 7) (s : State) : exec (.pke4Lo c u d a b) s = execPke4Lo c u d a b s := rfl
theorem exec_pke4Hi (c : Bool) (u : Bool) (d : BitVec 7) (a : BitVec 7) (b : BitVec 7) (s : State) : exec (.pke4Hi c u d a b) s = execPke4Hi c u d a b s := rfl
theorem exec_pke5Lo (c : Bool) (u : Bool) (d : BitVec 7) (a : BitVec 7) (b : BitVec 7) (s : State) : exec (.pke5Lo c u d a b) s = execPke5Lo c u d a b s := rfl
theorem exec_pke5Hi (c : Bool) (u : Bool) (d : BitVec 7) (a : BitVec 7) (b : BitVec 7) (s : State) : exec (.pke5Hi c u d a b) s = execPke5Hi c u d a b s := rfl
theorem exec_pkpsLo (c : Bool) (u : Bool) (d : BitVec 7) (a : BitVec 7) (b : BitVec 7) (s : State) : exec (.pkpsLo c u d a b) s = execPkpsLo c u d a b s := rfl
theorem exec_pkpsHi (c : Bool) (u : Bool) (d : BitVec 7) (a : BitVec 7) (b : BitVec 7) (s : State) : exec (.pkpsHi c u d a b) s = execPkpsHi c u d a b s := rfl
theorem exec_unpk (c : Bool) (u : Bool) (d : BitVec 7) (a : BitVec 7) (j : BitVec 2) (s : State) : exec (.unpk c u d a j) s = execUnpk c u d a j s := rfl
theorem exec_dot2Bf16 (c : Bool) (u : Bool) (d : BitVec 7) (a : BitVec 7) (b : BitVec 7) (s : State) : exec (.dot2Bf16 c u d a b) s = execDot2Bf16 c u d a b s := rfl
theorem exec_dot4E4m3 (c : Bool) (u : Bool) (d : BitVec 7) (a : BitVec 7) (b : BitVec 7) (s : State) : exec (.dot4E4m3 c u d a b) s = execDot4E4m3 c u d a b s := rfl
theorem exec_dot4E5m2 (c : Bool) (u : Bool) (d : BitVec 7) (a : BitVec 7) (b : BitVec 7) (s : State) : exec (.dot4E5m2 c u d a b) s = execDot4E5m2 c u d a b s := rfl
theorem exec_dot4Ps8 (c : Bool) (u : Bool) (d : BitVec 7) (a : BitVec 7) (b : BitVec 7) (s : State) : exec (.dot4Ps8 c u d a b) s = execDot4Ps8 c u d a b s := rfl
theorem exec_dot4S8 (c : Bool) (u : Bool) (d : BitVec 7) (a : BitVec 7) (b : BitVec 7) (s : State) : exec (.dot4S8 c u d a b) s = execDot4S8 c u d a b s := rfl
theorem exec_dot4N8 (c : Bool) (u : Bool) (d : BitVec 7) (a : BitVec 7) (b : BitVec 7) (s : State) : exec (.dot4N8 c u d a b) s = execDot4N8 c u d a b s := rfl
theorem exec_hadd2Bf16 (c : Bool) (u : Bool) (d : BitVec 7) (a : BitVec 7) (b : BitVec 7) (s : State) : exec (.hadd2Bf16 c u d a b) s = execHadd2Bf16 c u d a b s := rfl
theorem exec_hmul2Bf16 (c : Bool) (u : Bool) (d : BitVec 7) (a : BitVec 7) (b : BitVec 7) (s : State) : exec (.hmul2Bf16 c u d a b) s = execHmul2Bf16 c u d a b s := rfl
theorem exec_brm (u : Bool) (n : BitVec 2) (f : BitVec 2) (w : BitVec 4) (x : BitVec 4) (y : BitVec 4) (z : BitVec 4) (s : State) : exec (.brm u n f w x y z) s = execBrm u n f w x y z s := rfl
theorem exec_tgt (g : BitVec 12) (h : BitVec 12) (s : State) : exec (.tgt g h) s = execTgt g h s := rfl
theorem exec_jmp (u : Bool) (imm : BitVec 17) (s : State) : exec (.jmp u imm) s = execJmp u imm s := rfl
theorem exec_call (u : Bool) (d : BitVec 6) (imm : BitVec 17) (s : State) : exec (.call u d imm) s = execCall u d imm s := rfl
theorem exec_jmpr (a : BitVec 6) (s : State) : exec (.jmpr a) s = execJmpr a s := rfl
theorem exec_callr (d : BitVec 6) (a : BitVec 6) (s : State) : exec (.callr d a) s = execCallr d a s := rfl
theorem exec_ret (a : BitVec 6) (s : State) : exec (.ret a) s = execRet a s := rfl
theorem exec_exit (s : State) : exec (.exit) s = execExit s := rfl
theorem exec_spawn (c : Bool) (d : BitVec 7) (a : BitVec 6) (b : BitVec 7) (s : State) : exec (.spawn c d a b) s = execSpawn c d a b s := rfl
theorem exec_spawnf (c : Bool) (d : BitVec 7) (a : BitVec 6) (b : BitVec 7) (s : State) : exec (.spawnf c d a b) s = execSpawnf c d a b s := rfl
theorem exec_trap (c : Bool) (b : BitVec 7) (s : State) : exec (.trap c b) s = execTrap c b s := rfl
theorem exec_bkpt (c : Bool) (s : State) : exec (.bkpt c) s = execBkpt c s := rfl
theorem exec_nop (c : Bool) (s : State) : exec (.nop c) s = execNop c s := rfl
theorem exec_pause (c : Bool) (a : BitVec 7) (s : State) : exec (.pause c a) s = execPause c a s := rfl
theorem exec_yield (c : Bool) (s : State) : exec (.yield c) s = execYield c s := rfl
theorem exec_ffence (c : Bool) (s : State) : exec (.ffence c) s = execFfence c s := rfl
theorem exec_clkrd (c : Bool) (d : BitVec 6) (s : State) : exec (.clkrd c d) s = execClkrd c d s := rfl
theorem exec_renew (c : Bool) (a : BitVec 6) (s : State) : exec (.renew c a) s = execRenew c a s := rfl
theorem exec_resume (c : Bool) (s : State) : exec (.resume c) s = execResume c s := rfl
theorem exec_shflIdx (c : Bool) (d : BitVec 7) (a : BitVec 7) (m : BitVec 4) (s : State) : exec (.shflIdx c d a m) s = execShflIdx c d a m s := rfl
theorem exec_shflXor (c : Bool) (d : BitVec 7) (a : BitVec 7) (m : BitVec 4) (s : State) : exec (.shflXor c d a m) s = execShflXor c d a m s := rfl
theorem exec_shflUp (c : Bool) (d : BitVec 7) (a : BitVec 7) (m : BitVec 4) (s : State) : exec (.shflUp c d a m) s = execShflUp c d a m s := rfl
theorem exec_shflDn (c : Bool) (d : BitVec 7) (a : BitVec 7) (m : BitVec 4) (s : State) : exec (.shflDn c d a m) s = execShflDn c d a m s := rfl
theorem exec_voteAll (c : Bool) (d : BitVec 3) (n : BitVec 1) (a : BitVec 3) (m : BitVec 4) (s : State) : exec (.voteAll c d n a m) s = execVoteAll c d n a m s := rfl
theorem exec_voteAny (c : Bool) (d : BitVec 3) (n : BitVec 1) (a : BitVec 3) (m : BitVec 4) (s : State) : exec (.voteAny c d n a m) s = execVoteAny c d n a m s := rfl
theorem exec_ballot (c : Bool) (d : BitVec 7) (n : BitVec 1) (a : BitVec 3) (m : BitVec 4) (s : State) : exec (.ballot c d n a m) s = execBallot c d n a m s := rfl
theorem exec_matchLanes (c : Bool) (d : BitVec 7) (a : BitVec 7) (m : BitVec 4) (s : State) : exec (.matchLanes c d a m) s = execMatchLanes c d a m s := rfl
theorem exec_radd (c : Bool) (d : BitVec 7) (a : BitVec 7) (m : BitVec 4) (s : State) : exec (.radd c d a m) s = execRadd c d a m s := rfl
theorem exec_rminS32 (c : Bool) (d : BitVec 7) (a : BitVec 7) (m : BitVec 4) (s : State) : exec (.rminS32 c d a m) s = execRminS32 c d a m s := rfl
theorem exec_rmaxS32 (c : Bool) (d : BitVec 7) (a : BitVec 7) (m : BitVec 4) (s : State) : exec (.rmaxS32 c d a m) s = execRmaxS32 c d a m s := rfl
theorem exec_rand (c : Bool) (d : BitVec 7) (a : BitVec 7) (m : BitVec 4) (s : State) : exec (.rand c d a m) s = execRand c d a m s := rfl
theorem exec_ror (c : Bool) (d : BitVec 7) (a : BitVec 7) (m : BitVec 4) (s : State) : exec (.ror c d a m) s = execRor c d a m s := rfl
theorem exec_rxor (c : Bool) (d : BitVec 7) (a : BitVec 7) (m : BitVec 4) (s : State) : exec (.rxor c d a m) s = execRxor c d a m s := rfl
theorem exec_rfadd (c : Bool) (d : BitVec 7) (a : BitVec 7) (m : BitVec 4) (s : State) : exec (.rfadd c d a m) s = execRfadd c d a m s := rfl
theorem exec_rminN32 (c : Bool) (d : BitVec 7) (a : BitVec 7) (m : BitVec 4) (s : State) : exec (.rminN32 c d a m) s = execRminN32 c d a m s := rfl
theorem exec_barSync (c : Bool) (n : BitVec 4) (s : State) : exec (.barSync c n) s = execBarSync c n s := rfl
theorem exec_barArv (c : Bool) (d : BitVec 7) (n : BitVec 4) (s : State) : exec (.barArv c d n) s = execBarArv c d n s := rfl
theorem exec_barWait (c : Bool) (d : BitVec 7) (n : BitVec 4) (s : State) : exec (.barWait c d n) s = execBarWait c d n s := rfl
theorem exec_barClu (c : Bool) (s : State) : exec (.barClu c) s = execBarClu c s := rfl
theorem exec_barGrid (c : Bool) (s : State) : exec (.barGrid c) s = execBarGrid c s := rfl
theorem exec_gsync (c : Bool) (m : BitVec 4) (s : State) : exec (.gsync c m) s = execGsync c m s := rfl
theorem exec_barTest (c : Bool) (d : BitVec 7) (n : BitVec 4) (s : State) : exec (.barTest c d n) s = execBarTest c d n s := rfl
theorem exec_barSet (c : Bool) (d : BitVec 7) (n : BitVec 4) (s : State) : exec (.barSet c d n) s = execBarSet c d n s := rfl
theorem exec_waitNe (c : Bool) (d : BitVec 7) (a : BitVec 6) (b : BitVec 7) (s : State) : exec (.waitNe c d a b) s = execWaitNe c d a b s := rfl
theorem exec_waitEq (c : Bool) (d : BitVec 7) (a : BitVec 6) (b : BitVec 7) (s : State) : exec (.waitEq c d a b) s = execWaitEq c d a b s := rfl
theorem exec_waitGe (c : Bool) (d : BitVec 7) (a : BitVec 6) (b : BitVec 7) (s : State) : exec (.waitGe c d a b) s = execWaitGe c d a b s := rfl
theorem exec_watch (c : Bool) (d : BitVec 7) (a : BitVec 6) (s : State) : exec (.watch c d a) s = execWatch c d a s := rfl
theorem exec_unwatch (c : Bool) (d : BitVec 7) (s : State) : exec (.unwatch c d) s = execUnwatch c d s := rfl
theorem exec_wake (c : Bool) (a : BitVec 6) (s : State) : exec (.wake c a) s = execWake c a s := rfl
theorem exec_ld (c : Bool) (u : Bool) (t : BitVec 2) (z : BitVec 3) (d : BitVec 7) (b : BitVec 6) (o : BitVec 5) (s : State) : exec (.ld c u t z d b o) s = execLd c u t z d b o s := rfl
theorem exec_st (c : Bool) (u : Bool) (t : BitVec 2) (z : BitVec 3) (d : BitVec 7) (b : BitVec 6) (o : BitVec 5) (s : State) : exec (.st c u t z d b o) s = execSt c u t z d b o s := rfl
theorem exec_lds (c : Bool) (u : Bool) (t : BitVec 2) (z : BitVec 3) (d : BitVec 7) (b : BitVec 7) (o : BitVec 5) (s : State) : exec (.lds c u t z d b o) s = execLds c u t z d b o s := rfl
theorem exec_sts (c : Bool) (u : Bool) (t : BitVec 2) (z : BitVec 3) (d : BitVec 7) (b : BitVec 7) (o : BitVec 5) (s : State) : exec (.sts c u t z d b o) s = execSts c u t z d b o s := rfl
theorem exec_ldf (c : Bool) (u : Bool) (t : BitVec 2) (f : BitVec 3) (d : BitVec 7) (b : BitVec 6) (o : BitVec 5) (s : State) : exec (.ldf c u t f d b o) s = execLdf c u t f d b o s := rfl
theorem exec_atomAdd (c : Bool) (u : Bool) (w : BitVec 1) (r : BitVec 2) (sc : BitVec 3) (d : BitVec 5) (a : BitVec 4) (b : BitVec 5) (s : State) : exec (.atomAdd c u w r sc d a b) s = execAtomAdd c u w r sc d a b s := rfl
theorem exec_atomMinS32 (c : Bool) (u : Bool) (w : BitVec 1) (r : BitVec 2) (sc : BitVec 3) (d : BitVec 5) (a : BitVec 4) (b : BitVec 5) (s : State) : exec (.atomMinS32 c u w r sc d a b) s = execAtomMinS32 c u w r sc d a b s := rfl
theorem exec_atomMaxS32 (c : Bool) (u : Bool) (w : BitVec 1) (r : BitVec 2) (sc : BitVec 3) (d : BitVec 5) (a : BitVec 4) (b : BitVec 5) (s : State) : exec (.atomMaxS32 c u w r sc d a b) s = execAtomMaxS32 c u w r sc d a b s := rfl
theorem exec_atomMinN32 (c : Bool) (u : Bool) (w : BitVec 1) (r : BitVec 2) (sc : BitVec 3) (d : BitVec 5) (a : BitVec 4) (b : BitVec 5) (s : State) : exec (.atomMinN32 c u w r sc d a b) s = execAtomMinN32 c u w r sc d a b s := rfl
theorem exec_atomMaxN32 (c : Bool) (u : Bool) (w : BitVec 1) (r : BitVec 2) (sc : BitVec 3) (d : BitVec 5) (a : BitVec 4) (b : BitVec 5) (s : State) : exec (.atomMaxN32 c u w r sc d a b) s = execAtomMaxN32 c u w r sc d a b s := rfl
theorem exec_atomAnd (c : Bool) (u : Bool) (w : BitVec 1) (r : BitVec 2) (sc : BitVec 3) (d : BitVec 5) (a : BitVec 4) (b : BitVec 5) (s : State) : exec (.atomAnd c u w r sc d a b) s = execAtomAnd c u w r sc d a b s := rfl
theorem exec_atomOr (c : Bool) (u : Bool) (w : BitVec 1) (r : BitVec 2) (sc : BitVec 3) (d : BitVec 5) (a : BitVec 4) (b : BitVec 5) (s : State) : exec (.atomOr c u w r sc d a b) s = execAtomOr c u w r sc d a b s := rfl
theorem exec_atomXor (c : Bool) (u : Bool) (w : BitVec 1) (r : BitVec 2) (sc : BitVec 3) (d : BitVec 5) (a : BitVec 4) (b : BitVec 5) (s : State) : exec (.atomXor c u w r sc d a b) s = execAtomXor c u w r sc d a b s := rfl
theorem exec_atomxXchg (c : Bool) (u : Bool) (w : BitVec 1) (r : BitVec 2) (sc : BitVec 3) (d : BitVec 5) (a : BitVec 4) (b : BitVec 5) (s : State) : exec (.atomxXchg c u w r sc d a b) s = execAtomxXchg c u w r sc d a b s := rfl
theorem exec_atomxCas (c : Bool) (u : Bool) (w : BitVec 1) (r : BitVec 2) (sc : BitVec 3) (d : BitVec 5) (a : BitVec 4) (b : BitVec 5) (s : State) : exec (.atomxCas c u w r sc d a b) s = execAtomxCas c u w r sc d a b s := rfl
theorem exec_atomxIncw (c : Bool) (u : Bool) (w : BitVec 1) (r : BitVec 2) (sc : BitVec 3) (d : BitVec 5) (a : BitVec 4) (b : BitVec 5) (s : State) : exec (.atomxIncw c u w r sc d a b) s = execAtomxIncw c u w r sc d a b s := rfl
theorem exec_atomxDecw (c : Bool) (u : Bool) (w : BitVec 1) (r : BitVec 2) (sc : BitVec 3) (d : BitVec 5) (a : BitVec 4) (b : BitVec 5) (s : State) : exec (.atomxDecw c u w r sc d a b) s = execAtomxDecw c u w r sc d a b s := rfl
theorem exec_atomxFaddF32 (c : Bool) (u : Bool) (r : BitVec 2) (sc : BitVec 3) (d : BitVec 5) (a : BitVec 4) (b : BitVec 5) (s : State) : exec (.atomxFaddF32 c u r sc d a b) s = execAtomxFaddF32 c u r sc d a b s := rfl
theorem exec_atomxFminF32 (c : Bool) (u : Bool) (r : BitVec 2) (sc : BitVec 3) (d : BitVec 5) (a : BitVec 4) (b : BitVec 5) (s : State) : exec (.atomxFminF32 c u r sc d a b) s = execAtomxFminF32 c u r sc d a b s := rfl
theorem exec_atomxFmaxF32 (c : Bool) (u : Bool) (r : BitVec 2) (sc : BitVec 3) (d : BitVec 5) (a : BitVec 4) (b : BitVec 5) (s : State) : exec (.atomxFmaxF32 c u r sc d a b) s = execAtomxFmaxF32 c u r sc d a b s := rfl
theorem exec_lda (c : Bool) (u : Bool) (w : BitVec 1) (sc : BitVec 3) (d : BitVec 5) (a : BitVec 4) (s : State) : exec (.lda c u w sc d a) s = execLda c u w sc d a s := rfl
theorem exec_stl (c : Bool) (u : Bool) (w : BitVec 1) (sc : BitVec 3) (a : BitVec 4) (b : BitVec 5) (s : State) : exec (.stl c u w sc a b) s = execStl c u w sc a b s := rfl
theorem exec_fence (c : Bool) (u : Bool) (r : BitVec 2) (sc : BitVec 3) (s : State) : exec (.fence c u r sc) s = execFence c u r sc s := rfl
theorem exec_fenceSc (c : Bool) (u : Bool) (sc : BitVec 3) (s : State) : exec (.fenceSc c u sc) s = execFenceSc c u sc s := rfl
theorem exec_ldap (c : Bool) (u : Bool) (w : BitVec 1) (sc : BitVec 3) (d : BitVec 5) (a : BitVec 4) (s : State) : exec (.ldap c u w sc d a) s = execLdap c u w sc d a s := rfl
theorem exec_atomp (c : Bool) (u : Bool) (w : BitVec 1) (r : BitVec 2) (sc : BitVec 3) (d : BitVec 5) (a : BitVec 4) (b : BitVec 5) (s : State) : exec (.atomp c u w r sc d a b) s = execAtomp c u w r sc d a b s := rfl
theorem exec_pref (c : Bool) (u : Bool) (a : BitVec 6) (h : BitVec 2) (s : State) : exec (.pref c u a h) s = execPref c u a h s := rfl
theorem exec_flush (c : Bool) (u : Bool) (a : BitVec 6) (s : State) : exec (.flush c u a) s = execFlush c u a s := rfl
theorem exec_inval (c : Bool) (u : Bool) (a : BitVec 6) (s : State) : exec (.inval c u a) s = execInval c u a s := rfl
theorem exec_stashMap (c : Bool) (u : Bool) (a : BitVec 6) (b : BitVec 7) (s : State) : exec (.stashMap c u a b) s = execStashMap c u a b s := rfl
theorem exec_stashWb (c : Bool) (u : Bool) (s : State) : exec (.stashWb c u) s = execStashWb c u s := rfl
theorem exec_stashDrop (c : Bool) (u : Bool) (s : State) : exec (.stashDrop c u) s = execStashDrop c u s := rfl
theorem exec_cpyG2s (c : Bool) (z : BitVec 2) (d : BitVec 7) (a : BitVec 6) (s : State) : exec (.cpyG2s c z d a) s = execCpyG2s c z d a s := rfl
theorem exec_cpyS2g (c : Bool) (z : BitVec 2) (d : BitVec 6) (a : BitVec 7) (s : State) : exec (.cpyS2g c z d a) s = execCpyS2g c z d a s := rfl
theorem exec_cpyG2g (c : Bool) (z : BitVec 2) (d : BitVec 6) (a : BitVec 6) (s : State) : exec (.cpyG2g c z d a) s = execCpyG2g c z d a s := rfl
theorem exec_cpyS2s (c : Bool) (z : BitVec 2) (d : BitVec 7) (a : BitVec 7) (s : State) : exec (.cpyS2s c z d a) s = execCpyS2s c z d a s := rfl
theorem exec_cpyFlag (c : Bool) (a : BitVec 7) (b : BitVec 7) (s : State) : exec (.cpyFlag c a b) s = execCpyFlag c a b s := rfl
theorem exec_cpyCommit (c : Bool) (d : BitVec 7) (sc : BitVec 3) (s : State) : exec (.cpyCommit c d sc) s = execCpyCommit c d sc s := rfl
theorem exec_htest (c : Bool) (d : BitVec 3) (a : BitVec 7) (s : State) : exec (.htest c d a) s = execHtest c d a s := rfl
theorem exec_hcancel (c : Bool) (a : BitVec 7) (s : State) : exec (.hcancel c a) s = execHcancel c a s := rfl
theorem exec_hwait (c : Bool) (a : BitVec 7) (s : State) : exec (.hwait c a) s = execHwait c a s := rfl
theorem exec_cntrd (c : Bool) (d : BitVec 7) (s : State) : exec (.cntrd c d) s = execCntrd c d s := rfl
theorem exec_waitc (c : Bool) (l : BitVec 6) (sc : BitVec 6) (k : BitVec 6) (t : BitVec 6) (s : State) : exec (.waitc c l sc k t) s = execWaitc c l sc k t s := rfl
theorem exec_mxIssue (c : Bool) (d : BitVec 7) (a : BitVec 7) (s : State) : exec (.mxIssue c d a) s = execMxIssue c d a s := rfl
theorem exec_mxReady (c : Bool) (d : BitVec 7) (a : BitVec 4) (q : BitVec 1) (s : State) : exec (.mxReady c d a q) s = execMxReady c d a q s := rfl
theorem exec_mxCancel (c : Bool) (s : State) : exec (.mxCancel c) s = execMxCancel c s := rfl
theorem exec_mxQuiesce (c : Bool) (s : State) : exec (.mxQuiesce c) s = execMxQuiesce c s := rfl
theorem exec_plZero (c : Bool) (a : BitVec 7) (f : BitVec 1) (s : State) : exec (.plZero c a f) s = execPlZero c a f s := rfl
theorem exec_plClaim (c : Bool) (a : BitVec 7) (l : BitVec 1) (s : State) : exec (.plClaim c a l) s = execPlClaim c a l s := rfl
theorem exec_plFree (c : Bool) (a : BitVec 7) (s : State) : exec (.plFree c a) s = execPlFree c a s := rfl
theorem exec_plLd (c : Bool) (f : BitVec 1) (a : BitVec 7) (b : BitVec 6) (s : State) : exec (.plLd c f a b) s = execPlLd c f a b s := rfl
theorem exec_plSt (c : Bool) (a : BitVec 7) (b : BitVec 6) (s : State) : exec (.plSt c a b) s = execPlSt c a b s := rfl
theorem exec_plRd (c : Bool) (d : BitVec 7) (a : BitVec 7) (k : BitVec 5) (s : State) : exec (.plRd c d a k) s = execPlRd c d a k s := rfl
theorem exec_plWr (c : Bool) (d : BitVec 7) (a : BitVec 7) (k : BitVec 5) (s : State) : exec (.plWr c d a k) s = execPlWr c d a k s := rfl
theorem exec_plScale (c : Bool) (a : BitVec 7) (b : BitVec 7) (s : State) : exec (.plScale c a b) s = execPlScale c a b s := rfl
theorem exec_plSave (c : Bool) (a : BitVec 7) (s : State) : exec (.plSave c a) s = execPlSave c a s := rfl
theorem exec_plRst (c : Bool) (a : BitVec 7) (s : State) : exec (.plRst c a) s = execPlRst c a s := rfl
theorem exec_tld (c : Bool) (d : BitVec 4) (a : BitVec 7) (f : BitVec 3) (s : State) : exec (.tld c d a f) s = execTld c d a f s := rfl
theorem exec_tst (c : Bool) (d : BitVec 4) (a : BitVec 7) (s : State) : exec (.tst c d a) s = execTst c d a s := rfl
theorem exec_tcvt (c : Bool) (d : BitVec 4) (a : BitVec 7) (h : BitVec 1) (sc : BitVec 1) (r : BitVec 2) (f : BitVec 3) (s : State) : exec (.tcvt c d a h sc r f) s = execTcvt c d a h sc r f s := rfl
theorem exec_tzero (c : Bool) (d : BitVec 4) (f : BitVec 3) (s : State) : exec (.tzero c d f) s = execTzero c d f s := rfl
theorem exec_ttrn (c : Bool) (d : BitVec 4) (a : BitVec 4) (m : BitVec 4) (s : State) : exec (.ttrn c d a m) s = execTtrn c d a m s := rfl
theorem exec_plwLoop (c : Bool) (l : BitVec 2) (a : BitVec 7) (s : State) : exec (.plwLoop c l a) s = execPlwLoop c l a s := rfl
theorem exec_plwStrm (c : Bool) (t : BitVec 2) (z : BitVec 2) (q : BitVec 2) (a : BitVec 6) (b : BitVec 5) (s : State) : exec (.plwStrm c t z q a b) s = execPlwStrm c t z q a b s := rfl
theorem exec_plwGo (c : Bool) (m : BitVec 4) (s : State) : exec (.plwGo c m) s = execPlwGo c m s := rfl
theorem exec_plwStop (c : Bool) (s : State) : exec (.plwStop c) s = execPlwStop c s := rfl
theorem exec_qpop (c : Bool) (d : BitVec 7) (n : BitVec 2) (s : State) : exec (.qpop c d n) s = execQpop c d n s := rfl
theorem exec_qpeek (c : Bool) (d : BitVec 7) (n : BitVec 2) (s : State) : exec (.qpeek c d n) s = execQpeek c d n s := rfl
theorem exec_qlen (c : Bool) (d : BitVec 7) (n : BitVec 2) (s : State) : exec (.qlen c d n) s = execQlen c d n s := rfl
theorem exec_plwStat (c : Bool) (d : BitVec 7) (s : State) : exec (.plwStat c d) s = execPlwStat c d s := rfl
theorem exec_launch (c : Bool) (d : BitVec 7) (a : BitVec 6) (b : BitVec 6) (s : State) : exec (.launch c d a b) s = execLaunch c d a b s := rfl
theorem exec_qpush (c : Bool) (d : BitVec 7) (a : BitVec 6) (b : BitVec 6) (s : State) : exec (.qpush c d a b) s = execQpush c d a b s := rfl
theorem exec_kstat (c : Bool) (d : BitVec 6) (a : BitVec 6) (s : State) : exec (.kstat c d a) s = execKstat c d a s := rfl
theorem exec_qstat (c : Bool) (d : BitVec 7) (a : BitVec 6) (s : State) : exec (.qstat c d a) s = execQstat c d a s := rfl
theorem exec_srd (c : Bool) (d : BitVec 7) (imm : BitVec 9) (s : State) : exec (.srd c d imm) s = execSrd c d imm s := rfl
theorem exec_swr (c : Bool) (d : BitVec 7) (imm : BitVec 9) (s : State) : exec (.swr c d imm) s = execSwr c d imm s := rfl
theorem exec_tret (c : Bool) (s : State) : exec (.tret c) s = execTret c s := rfl
theorem exec_ecall (c : Bool) (d : BitVec 7) (imm : BitVec 9) (s : State) : exec (.ecall c d imm) s = execEcall c d imm s := rfl
theorem exec_ctxStop (c : Bool) (d : BitVec 7) (s : State) : exec (.ctxStop c d) s = execCtxStop c d s := rfl
theorem exec_ctxSave (c : Bool) (d : BitVec 7) (s : State) : exec (.ctxSave c d) s = execCtxSave c d s := rfl
theorem exec_ctxRst (c : Bool) (d : BitVec 6) (f : BitVec 1) (s : State) : exec (.ctxRst c d f) s = execCtxRst c d f s := rfl
theorem exec_preempt (c : Bool) (d : BitVec 5) (imm : BitVec 9) (s : State) : exec (.preempt c d imm) s = execPreempt c d imm s := rfl
theorem exec_ckptMark (c : Bool) (d : BitVec 7) (f : BitVec 1) (s : State) : exec (.ckptMark c d f) s = execCkptMark c d f s := rfl
theorem exec_ckptStat (c : Bool) (d : BitVec 6) (s : State) : exec (.ckptStat c d) s = execCkptStat c d s := rfl
theorem exec_patchLoad (c : Bool) (d : BitVec 6) (sc : BitVec 4) (s : State) : exec (.patchLoad c d sc) s = execPatchLoad c d sc s := rfl
theorem exec_patchArm (c : Bool) (sc : BitVec 4) (s : State) : exec (.patchArm c sc) s = execPatchArm c sc s := rfl
theorem exec_patchDisarm (c : Bool) (sc : BitVec 4) (s : State) : exec (.patchDisarm c sc) s = execPatchDisarm c sc s := rfl
theorem exec_patchQry (c : Bool) (d : BitVec 7) (sc : BitVec 4) (s : State) : exec (.patchQry c d sc) s = execPatchQry c d sc s := rfl
theorem exec_pstateSet (c : Bool) (d : BitVec 7) (p : BitVec 3) (s : State) : exec (.pstateSet c d p) s = execPstateSet c d p s := rfl
theorem exec_park (c : Bool) (d : BitVec 7) (s : State) : exec (.park c d) s = execPark c d s := rfl
theorem exec_unpark (c : Bool) (d : BitVec 7) (s : State) : exec (.unpark c d) s = execUnpark c d s := rfl
theorem exec_errqSet (c : Bool) (d : BitVec 6) (l : BitVec 5) (s : State) : exec (.errqSet c d l) s = execErrqSet c d l s := rfl
theorem exec_tlbInv (c : Bool) (d : BitVec 6) (w : BitVec 1) (s : State) : exec (.tlbInv c d w) s = execTlbInv c d w s := rfl
theorem exec_fenceTlb (c : Bool) (s : State) : exec (.fenceTlb c) s = execFenceTlb c s := rfl
theorem exec_verifyTimeout (slot : Nat) (s : State) : exec (.verifyTimeout slot) s = execVerifyTimeout slot s := rfl
theorem exec_triageTimeout (die : Nat) (s : State) : exec (.triageTimeout die) s = execTriageTimeout die s := rfl
theorem exec_unknownMailboxCommand (s : State) : exec (.unknownMailboxCommand) s = execUnknownMailboxCommand s := rfl
theorem exec_standbyFailure (s : State) : exec (.standbyFailure) s = execStandbyFailure s := rfl

end Sys2Proof.Machine
end

