-- ==== Sys2Proof/Laws/Events.lean ====
section
/-! SUPPORT. Every instruction that no word holds is an event: with a chain open the state stands; and most events change only the machine's
tables. -/

namespace Sys2Proof.Machine

/-- The meaning of an event by its form: one that changes the machine's tables, one that may change more, or one of the two that
make their own check for an open chain. -/
def IsEvent (i : Instr) : Prop :=
  (∃ f, ∀ s, exec i s = event f s) ∨ (∃ f, ∀ s, exec i s = eventS f s) ∨ (∃ k, i = .issueGroup k) ∨ ∃ k, i = .preemptReport k

theorem isEvent_c {i : Instr} {f : State → Chip} (h : ∀ s, exec i s = event f s) : IsEvent i := .inl ⟨f, h⟩
theorem isEvent_s {i : Instr} {f : State → State} (h : ∀ s, exec i s = eventS f s) : IsEvent i := .inr (.inl ⟨f, h⟩)

theorem noWord_absurd {i : Instr} {p : Prop} (h : hasWord i = false) (hp : 0 < encodeNat i) : p := by
  simp [hasWord] at h; omega

/-- Every instruction without a word is an event. -/
theorem isEvent_of_hasWord {i : Instr} (hw : hasWord i = false) : IsEvent i := by
  cases i with
  | iadd a0 a1 a2 a3 a4 => exact noWord_absurd hw (Nat.add_pos_left (Nat.add_pos_left (Nat.add_pos_left (Nat.add_pos_left (Nat.add_pos_left (by decide : 0 < 0x01000000) _) _) _) _) _)
  | isub a0 a1 a2 a3 a4 => exact noWord_absurd hw (Nat.add_pos_left (Nat.add_pos_left (Nat.add_pos_left (Nat.add_pos_left (Nat.add_pos_left (by decide : 0 < 0x01200000) _) _) _) _) _)
  | iminS32 a0 a1 a2 a3 a4 => exact noWord_absurd hw (Nat.add_pos_left (Nat.add_pos_left (Nat.add_pos_left (Nat.add_pos_left (Nat.add_pos_left (by decide : 0 < 0x01400000) _) _) _) _) _)
  | imaxS32 a0 a1 a2 a3 a4 => exact noWord_absurd hw (Nat.add_pos_left (Nat.add_pos_left (Nat.add_pos_left (Nat.add_pos_left (Nat.add_pos_left (by decide : 0 < 0x01600000) _) _) _) _) _)
  | iminN32 a0 a1 a2 a3 a4 => exact noWord_absurd hw (Nat.add_pos_left (Nat.add_pos_left (Nat.add_pos_left (Nat.add_pos_left (Nat.add_pos_left (by decide : 0 < 0x01800000) _) _) _) _) _)
  | imaxN32 a0 a1 a2 a3 a4 => exact noWord_absurd hw (Nat.add_pos_left (Nat.add_pos_left (Nat.add_pos_left (Nat.add_pos_left (Nat.add_pos_left (by decide : 0 < 0x01A00000) _) _) _) _) _)
  | iabsd a0 a1 a2 a3 a4 => exact noWord_absurd hw (Nat.add_pos_left (Nat.add_pos_left (Nat.add_pos_left (Nat.add_pos_left (Nat.add_pos_left (by decide : 0 < 0x01C00000) _) _) _) _) _)
  | ineg a0 a1 a2 a3 => exact noWord_absurd hw (Nat.add_pos_left (Nat.add_pos_left (Nat.add_pos_left (Nat.add_pos_left (by decide : 0 < 0x01E00000) _) _) _) _)
  | imul a0 a1 a2 a3 a4 => exact noWord_absurd hw (Nat.add_pos_left (Nat.add_pos_left (Nat.add_pos_left (Nat.add_pos_left (Nat.add_pos_left (by decide : 0 < 0x02000000) _) _) _) _) _)
  | imulhS32 a0 a1 a2 a3 a4 => exact noWord_absurd hw (Nat.add_pos_left (Nat.add_pos_left (Nat.add_pos_left (Nat.add_pos_left (Nat.add_pos_left (by decide : 0 < 0x02200000) _) _) _) _) _)
  | imulhN32 a0 a1 a2 a3 a4 => exact noWord_absurd hw (Nat.add_pos_left (Nat.add_pos_left (Nat.add_pos_left (Nat.add_pos_left (Nat.add_pos_left (by decide : 0 < 0x02400000) _) _) _) _) _)
  | imad a0 a1 a2 a3 a4 => exact noWord_absurd hw (Nat.add_pos_left (Nat.add_pos_left (Nat.add_pos_left (Nat.add_pos_left (Nat.add_pos_left (by decide : 0 < 0x02600000) _) _) _) _) _)
  | idivS32 a0 a1 a2 a3 a4 => exact noWord_absurd hw (Nat.add_pos_left (Nat.add_pos_left (Nat.add_pos_left (Nat.add_pos_left (Nat.add_pos_left (by decide : 0 < 0x02800000) _) _) _) _) _)
  | idivN32 a0 a1 a2 a3 a4 => exact noWord_absurd hw (Nat.add_pos_left (Nat.add_pos_left (Nat.add_pos_left (Nat.add_pos_left (Nat.add_pos_left (by decide : 0 < 0x02A00000) _) _) _) _) _)
  | iremS32 a0 a1 a2 a3 a4 => exact noWord_absurd hw (Nat.add_pos_left (Nat.add_pos_left (Nat.add_pos_left (Nat.add_pos_left (Nat.add_pos_left (by decide : 0 < 0x02C00000) _) _) _) _) _)
  | iremN32 a0 a1 a2 a3 a4 => exact noWord_absurd hw (Nat.add_pos_left (Nat.add_pos_left (Nat.add_pos_left (Nat.add_pos_left (Nat.add_pos_left (by decide : 0 < 0x02E00000) _) _) _) _) _)
  | iaddD a0 a1 a2 a3 a4 => exact noWord_absurd hw (Nat.add_pos_left (Nat.add_pos_left (Nat.add_pos_left (Nat.add_pos_left (Nat.add_pos_left (by decide : 0 < 0x03000000) _) _) _) _) _)
  | isubD a0 a1 a2 a3 a4 => exact noWord_absurd hw (Nat.add_pos_left (Nat.add_pos_left (Nat.add_pos_left (Nat.add_pos_left (Nat.add_pos_left (by decide : 0 < 0x03200000) _) _) _) _) _)
  | imulD a0 a1 a2 a3 a4 => exact noWord_absurd hw (Nat.add_pos_left (Nat.add_pos_left (Nat.add_pos_left (Nat.add_pos_left (Nat.add_pos_left (by decide : 0 < 0x03400000) _) _) _) _) _)
  | imadwS32 a0 a1 a2 a3 a4 => exact noWord_absurd hw (Nat.add_pos_left (Nat.add_pos_left (Nat.add_pos_left (Nat.add_pos_left (Nat.add_pos_left (by decide : 0 < 0x03600000) _) _) _) _) _)
  | imadwN32 a0 a1 a2 a3 a4 => exact noWord_absurd hw (Nat.add_pos_left (Nat.add_pos_left (Nat.add_pos_left (Nat.add_pos_left (Nat.add_pos_left (by decide : 0 < 0x03800000) _) _) _) _) _)
  | shlD a0 a1 a2 a3 a4 => exact noWord_absurd hw (Nat.add_pos_left (Nat.add_pos_left (Nat.add_pos_left (Nat.add_pos_left (Nat.add_pos_left (by decide : 0 < 0x03A00000) _) _) _) _) _)
  | shrD a0 a1 a2 a3 a4 => exact noWord_absurd hw (Nat.add_pos_left (Nat.add_pos_left (Nat.add_pos_left (Nat.add_pos_left (Nat.add_pos_left (by decide : 0 < 0x03C00000) _) _) _) _) _)
  | sarD a0 a1 a2 a3 a4 => exact noWord_absurd hw (Nat.add_pos_left (Nat.add_pos_left (Nat.add_pos_left (Nat.add_pos_left (Nat.add_pos_left (by decide : 0 < 0x03E00000) _) _) _) _) _)
  | and a0 a1 a2 a3 a4 => exact noWord_absurd hw (Nat.add_pos_left (Nat.add_pos_left (Nat.add_pos_left (Nat.add_pos_left (Nat.add_pos_left (by decide : 0 < 0x04000000) _) _) _) _) _)
  | or a0 a1 a2 a3 a4 => exact noWord_absurd hw (Nat.add_pos_left (Nat.add_pos_left (Nat.add_pos_left (Nat.add_pos_left (Nat.add_pos_left (by decide : 0 < 0x04200000) _) _) _) _) _)
  | xor a0 a1 a2 a3 a4 => exact noWord_absurd hw (Nat.add_pos_left (Nat.add_pos_left (Nat.add_pos_left (Nat.add_pos_left (Nat.add_pos_left (by decide : 0 < 0x04400000) _) _) _) _) _)
  | andn a0 a1 a2 a3 a4 => exact noWord_absurd hw (Nat.add_pos_left (Nat.add_pos_left (Nat.add_pos_left (Nat.add_pos_left (Nat.add_pos_left (by decide : 0 < 0x04600000) _) _) _) _) _)
  | orn a0 a1 a2 a3 a4 => exact noWord_absurd hw (Nat.add_pos_left (Nat.add_pos_left (Nat.add_pos_left (Nat.add_pos_left (Nat.add_pos_left (by decide : 0 < 0x04800000) _) _) _) _) _)
  | xnor a0 a1 a2 a3 a4 => exact noWord_absurd hw (Nat.add_pos_left (Nat.add_pos_left (Nat.add_pos_left (Nat.add_pos_left (Nat.add_pos_left (by decide : 0 < 0x04A00000) _) _) _) _) _)
  | not a0 a1 a2 a3 => exact noWord_absurd hw (Nat.add_pos_left (Nat.add_pos_left (Nat.add_pos_left (Nat.add_pos_left (by decide : 0 < 0x04C00000) _) _) _) _)
  | mov a0 a1 a2 a3 => exact noWord_absurd hw (Nat.add_pos_left (Nat.add_pos_left (Nat.add_pos_left (Nat.add_pos_left (by decide : 0 < 0x04E00000) _) _) _) _)
  | shl a0 a1 a2 a3 a4 => exact noWord_absurd hw (Nat.add_pos_left (Nat.add_pos_left (Nat.add_pos_left (Nat.add_pos_left (Nat.add_pos_left (by decide : 0 < 0x05000000) _) _) _) _) _)
  | shr a0 a1 a2 a3 a4 => exact noWord_absurd hw (Nat.add_pos_left (Nat.add_pos_left (Nat.add_pos_left (Nat.add_pos_left (Nat.add_pos_left (by decide : 0 < 0x05200000) _) _) _) _) _)
  | sar a0 a1 a2 a3 a4 => exact noWord_absurd hw (Nat.add_pos_left (Nat.add_pos_left (Nat.add_pos_left (Nat.add_pos_left (Nat.add_pos_left (by decide : 0 < 0x05400000) _) _) _) _) _)
  | rotl a0 a1 a2 a3 a4 => exact noWord_absurd hw (Nat.add_pos_left (Nat.add_pos_left (Nat.add_pos_left (Nat.add_pos_left (Nat.add_pos_left (by decide : 0 < 0x05600000) _) _) _) _) _)
  | popc a0 a1 a2 a3 => exact noWord_absurd hw (Nat.add_pos_left (Nat.add_pos_left (Nat.add_pos_left (Nat.add_pos_left (by decide : 0 < 0x05800000) _) _) _) _)
  | clz a0 a1 a2 a3 => exact noWord_absurd hw (Nat.add_pos_left (Nat.add_pos_left (Nat.add_pos_left (Nat.add_pos_left (by decide : 0 < 0x05A00000) _) _) _) _)
  | brev a0 a1 a2 a3 => exact noWord_absurd hw (Nat.add_pos_left (Nat.add_pos_left (Nat.add_pos_left (Nat.add_pos_left (by decide : 0 < 0x05C00000) _) _) _) _)
  | ffs a0 a1 a2 a3 => exact noWord_absurd hw (Nat.add_pos_left (Nat.add_pos_left (Nat.add_pos_left (Nat.add_pos_left (by decide : 0 < 0x05E00000) _) _) _) _)
  | bfxS32 a0 a1 a2 a3 a4 => exact noWord_absurd hw (Nat.add_pos_left (Nat.add_pos_left (Nat.add_pos_left (Nat.add_pos_left (Nat.add_pos_left (by decide : 0 < 0x06000000) _) _) _) _) _)
  | bfxN32 a0 a1 a2 a3 a4 => exact noWord_absurd hw (Nat.add_pos_left (Nat.add_pos_left (Nat.add_pos_left (Nat.add_pos_left (Nat.add_pos_left (by decide : 0 < 0x06200000) _) _) _) _) _)
  | bfi a0 a1 a2 a3 a4 => exact noWord_absurd hw (Nat.add_pos_left (Nat.add_pos_left (Nat.add_pos_left (Nat.add_pos_left (Nat.add_pos_left (by decide : 0 < 0x06400000) _) _) _) _) _)
  | perm a0 a1 a2 a3 a4 => exact noWord_absurd hw (Nat.add_pos_left (Nat.add_pos_left (Nat.add_pos_left (Nat.add_pos_left (Nat.add_pos_left (by decide : 0 < 0x06600000) _) _) _) _) _)
  | shf a0 a1 a2 a3 a4 => exact noWord_absurd hw (Nat.add_pos_left (Nat.add_pos_left (Nat.add_pos_left (Nat.add_pos_left (Nat.add_pos_left (by decide : 0 < 0x06800000) _) _) _) _) _)
  | iaddsS32 a0 a1 a2 a3 a4 => exact noWord_absurd hw (Nat.add_pos_left (Nat.add_pos_left (Nat.add_pos_left (Nat.add_pos_left (Nat.add_pos_left (by decide : 0 < 0x06A00000) _) _) _) _) _)
  | isubsS32 a0 a1 a2 a3 a4 => exact noWord_absurd hw (Nat.add_pos_left (Nat.add_pos_left (Nat.add_pos_left (Nat.add_pos_left (Nat.add_pos_left (by decide : 0 < 0x06C00000) _) _) _) _) _)
  | iaddsN32 a0 a1 a2 a3 a4 => exact noWord_absurd hw (Nat.add_pos_left (Nat.add_pos_left (Nat.add_pos_left (Nat.add_pos_left (Nat.add_pos_left (by decide : 0 < 0x06E00000) _) _) _) _) _)
  | iaddi a0 a1 a2 a3 a4 => exact noWord_absurd hw (Nat.add_pos_left (Nat.add_pos_left (Nat.add_pos_left (Nat.add_pos_left (Nat.add_pos_left (by decide : 0 < 0x08000000) _) _) _) _) _)
  | andi a0 a1 a2 a3 a4 => exact noWord_absurd hw (Nat.add_pos_left (Nat.add_pos_left (Nat.add_pos_left (Nat.add_pos_left (Nat.add_pos_left (by decide : 0 < 0x09000000) _) _) _) _) _)
  | ori a0 a1 a2 a3 a4 => exact noWord_absurd hw (Nat.add_pos_left (Nat.add_pos_left (Nat.add_pos_left (Nat.add_pos_left (Nat.add_pos_left (by decide : 0 < 0x0A000000) _) _) _) _) _)
  | xori a0 a1 a2 a3 a4 => exact noWord_absurd hw (Nat.add_pos_left (Nat.add_pos_left (Nat.add_pos_left (Nat.add_pos_left (Nat.add_pos_left (by decide : 0 < 0x0B000000) _) _) _) _) _)
  | shfi a0 a1 a2 a3 a4 a5 => exact noWord_absurd hw (Nat.add_pos_left (Nat.add_pos_left (Nat.add_pos_left (Nat.add_pos_left (Nat.add_pos_left (Nat.add_pos_left (by decide : 0 < 0x0C000000) _) _) _) _) _) _)
  | imuli a0 a1 a2 a3 a4 => exact noWord_absurd hw (Nat.add_pos_left (Nat.add_pos_left (Nat.add_pos_left (Nat.add_pos_left (Nat.add_pos_left (by decide : 0 < 0x0D000000) _) _) _) _) _)
  | leai a0 a1 a2 a3 a4 => exact noWord_absurd hw (Nat.add_pos_left (Nat.add_pos_left (Nat.add_pos_left (Nat.add_pos_left (Nat.add_pos_left (by decide : 0 < 0x0E000000) _) _) _) _) _)
  | movi a0 a1 a2 a3 => exact noWord_absurd hw (Nat.add_pos_left (Nat.add_pos_left (Nat.add_pos_left (Nat.add_pos_left (by decide : 0 < 0x10000000) _) _) _) _)
  | movhi a0 a1 a2 a3 => exact noWord_absurd hw (Nat.add_pos_left (Nat.add_pos_left (Nat.add_pos_left (Nat.add_pos_left (by decide : 0 < 0x11000000) _) _) _) _)
  | kld a0 a1 a2 a3 => exact noWord_absurd hw (Nat.add_pos_left (Nat.add_pos_left (Nat.add_pos_left (Nat.add_pos_left (by decide : 0 < 0x12000000) _) _) _) _)
  | isetp a0 a1 a2 a3 a4 a5 a6 => exact noWord_absurd hw (Nat.add_pos_left (Nat.add_pos_left (Nat.add_pos_left (Nat.add_pos_left (Nat.add_pos_left (Nat.add_pos_left (Nat.add_pos_left (by decide : 0 < 0x13000000) _) _) _) _) _) _) _)
  | fsetp a0 a1 a2 a3 a4 a5 a6 => exact noWord_absurd hw (Nat.add_pos_left (Nat.add_pos_left (Nat.add_pos_left (Nat.add_pos_left (Nat.add_pos_left (Nat.add_pos_left (Nat.add_pos_left (by decide : 0 < 0x14000000) _) _) _) _) _) _) _)
  | pand a0 a1 a2 a3 a4 => exact noWord_absurd hw (Nat.add_pos_left (Nat.add_pos_left (Nat.add_pos_left (Nat.add_pos_left (Nat.add_pos_left (by decide : 0 < 0x15000000) _) _) _) _) _)
  | por a0 a1 a2 a3 a4 => exact noWord_absurd hw (Nat.add_pos_left (Nat.add_pos_left (Nat.add_pos_left (Nat.add_pos_left (Nat.add_pos_left (by decide : 0 < 0x15200000) _) _) _) _) _)
  | pxor a0 a1 a2 a3 a4 => exact noWord_absurd hw (Nat.add_pos_left (Nat.add_pos_left (Nat.add_pos_left (Nat.add_pos_left (Nat.add_pos_left (by decide : 0 < 0x15400000) _) _) _) _) _)
  | pnot a0 a1 a2 a3 => exact noWord_absurd hw (Nat.add_pos_left (Nat.add_pos_left (Nat.add_pos_left (Nat.add_pos_left (by decide : 0 < 0x15600000) _) _) _) _)
  | p2v a0 a1 a2 => exact noWord_absurd hw (Nat.add_pos_left (Nat.add_pos_left (Nat.add_pos_left (by decide : 0 < 0x15800000) _) _) _)
  | v2p a0 a1 a2 => exact noWord_absurd hw (Nat.add_pos_left (Nat.add_pos_left (Nat.add_pos_left (by decide : 0 < 0x15A00000) _) _) _)
  | pset a0 a1 a2 a3 => exact noWord_absurd hw (Nat.add_pos_left (Nat.add_pos_left (Nat.add_pos_left (Nat.add_pos_left (by decide : 0 < 0x15C00000) _) _) _) _)
  | selp a0 a1 a2 a3 a4 a5 => exact noWord_absurd hw (Nat.add_pos_left (Nat.add_pos_left (Nat.add_pos_left (Nat.add_pos_left (Nat.add_pos_left (Nat.add_pos_left (by decide : 0 < 0x16000000) _) _) _) _) _) _)
  | mand a0 a1 a2 a3 a4 => exact noWord_absurd hw (Nat.add_pos_left (Nat.add_pos_left (Nat.add_pos_left (Nat.add_pos_left (Nat.add_pos_left (by decide : 0 < 0x17000000) _) _) _) _) _)
  | mor a0 a1 a2 a3 a4 => exact noWord_absurd hw (Nat.add_pos_left (Nat.add_pos_left (Nat.add_pos_left (Nat.add_pos_left (Nat.add_pos_left (by decide : 0 < 0x17200000) _) _) _) _) _)
  | mxor a0 a1 a2 a3 a4 => exact noWord_absurd hw (Nat.add_pos_left (Nat.add_pos_left (Nat.add_pos_left (Nat.add_pos_left (Nat.add_pos_left (by decide : 0 < 0x17400000) _) _) _) _) _)
  | mnot a0 a1 a2 a3 => exact noWord_absurd hw (Nat.add_pos_left (Nat.add_pos_left (Nat.add_pos_left (Nat.add_pos_left (by decide : 0 < 0x17600000) _) _) _) _)
  | mfromv a0 a1 a2 a3 => exact noWord_absurd hw (Nat.add_pos_left (Nat.add_pos_left (Nat.add_pos_left (Nat.add_pos_left (by decide : 0 < 0x17800000) _) _) _) _)
  | mtov a0 a1 a2 a3 => exact noWord_absurd hw (Nat.add_pos_left (Nat.add_pos_left (Nat.add_pos_left (Nat.add_pos_left (by decide : 0 < 0x17A00000) _) _) _) _)
  | mpopc a0 a1 a2 a3 => exact noWord_absurd hw (Nat.add_pos_left (Nat.add_pos_left (Nat.add_pos_left (Nat.add_pos_left (by decide : 0 < 0x17C00000) _) _) _) _)
  | mself a0 a1 a2 => exact noWord_absurd hw (Nat.add_pos_left (Nat.add_pos_left (Nat.add_pos_left (by decide : 0 < 0x17E00000) _) _) _)
  | fadd a0 a1 a2 a3 a4 => exact noWord_absurd hw (Nat.add_pos_left (Nat.add_pos_left (Nat.add_pos_left (Nat.add_pos_left (Nat.add_pos_left (by decide : 0 < 0x18000000) _) _) _) _) _)
  | fsub a0 a1 a2 a3 a4 => exact noWord_absurd hw (Nat.add_pos_left (Nat.add_pos_left (Nat.add_pos_left (Nat.add_pos_left (Nat.add_pos_left (by decide : 0 < 0x18200000) _) _) _) _) _)
  | fmul a0 a1 a2 a3 a4 => exact noWord_absurd hw (Nat.add_pos_left (Nat.add_pos_left (Nat.add_pos_left (Nat.add_pos_left (Nat.add_pos_left (by decide : 0 < 0x18400000) _) _) _) _) _)
  | fmin a0 a1 a2 a3 a4 => exact noWord_absurd hw (Nat.add_pos_left (Nat.add_pos_left (Nat.add_pos_left (Nat.add_pos_left (Nat.add_pos_left (by decide : 0 < 0x18600000) _) _) _) _) _)
  | fmax a0 a1 a2 a3 a4 => exact noWord_absurd hw (Nat.add_pos_left (Nat.add_pos_left (Nat.add_pos_left (Nat.add_pos_left (Nat.add_pos_left (by decide : 0 < 0x18800000) _) _) _) _) _)
  | fabs a0 a1 a2 a3 => exact noWord_absurd hw (Nat.add_pos_left (Nat.add_pos_left (Nat.add_pos_left (Nat.add_pos_left (by decide : 0 < 0x18A00000) _) _) _) _)
  | fneg a0 a1 a2 a3 => exact noWord_absurd hw (Nat.add_pos_left (Nat.add_pos_left (Nat.add_pos_left (Nat.add_pos_left (by decide : 0 < 0x18C00000) _) _) _) _)
  | fcpsgn a0 a1 a2 a3 a4 => exact noWord_absurd hw (Nat.add_pos_left (Nat.add_pos_left (Nat.add_pos_left (Nat.add_pos_left (Nat.add_pos_left (by decide : 0 < 0x18E00000) _) _) _) _) _)
  | fma a0 a1 a2 a3 a4 => exact noWord_absurd hw (Nat.add_pos_left (Nat.add_pos_left (Nat.add_pos_left (Nat.add_pos_left (Nat.add_pos_left (by decide : 0 < 0x19000000) _) _) _) _) _)
  | fms a0 a1 a2 a3 a4 => exact noWord_absurd hw (Nat.add_pos_left (Nat.add_pos_left (Nat.add_pos_left (Nat.add_pos_left (Nat.add_pos_left (by decide : 0 < 0x19200000) _) _) _) _) _)
  | fnma a0 a1 a2 a3 a4 => exact noWord_absurd hw (Nat.add_pos_left (Nat.add_pos_left (Nat.add_pos_left (Nat.add_pos_left (Nat.add_pos_left (by decide : 0 < 0x19400000) _) _) _) _) _)
  | fnms a0 a1 a2 a3 a4 => exact noWord_absurd hw (Nat.add_pos_left (Nat.add_pos_left (Nat.add_pos_left (Nat.add_pos_left (Nat.add_pos_left (by decide : 0 < 0x19600000) _) _) _) _) _)
  | frcp a0 a1 a2 a3 => exact noWord_absurd hw (Nat.add_pos_left (Nat.add_pos_left (Nat.add_pos_left (Nat.add_pos_left (by decide : 0 < 0x1A000000) _) _) _) _)
  | frsq a0 a1 a2 a3 => exact noWord_absurd hw (Nat.add_pos_left (Nat.add_pos_left (Nat.add_pos_left (Nat.add_pos_left (by decide : 0 < 0x1A200000) _) _) _) _)
  | fsqrta a0 a1 a2 a3 => exact noWord_absurd hw (Nat.add_pos_left (Nat.add_pos_left (Nat.add_pos_left (Nat.add_pos_left (by decide : 0 < 0x1A400000) _) _) _) _)
  | fex2 a0 a1 a2 a3 => exact noWord_absurd hw (Nat.add_pos_left (Nat.add_pos_left (Nat.add_pos_left (Nat.add_pos_left (by decide : 0 < 0x1A600000) _) _) _) _)
  | flg2 a0 a1 a2 a3 => exact noWord_absurd hw (Nat.add_pos_left (Nat.add_pos_left (Nat.add_pos_left (Nat.add_pos_left (by decide : 0 < 0x1A800000) _) _) _) _)
  | fsinp a0 a1 a2 a3 => exact noWord_absurd hw (Nat.add_pos_left (Nat.add_pos_left (Nat.add_pos_left (Nat.add_pos_left (by decide : 0 < 0x1AA00000) _) _) _) _)
  | fcosp a0 a1 a2 a3 => exact noWord_absurd hw (Nat.add_pos_left (Nat.add_pos_left (Nat.add_pos_left (Nat.add_pos_left (by decide : 0 < 0x1AC00000) _) _) _) _)
  | ftanh a0 a1 a2 a3 => exact noWord_absurd hw (Nat.add_pos_left (Nat.add_pos_left (Nat.add_pos_left (Nat.add_pos_left (by decide : 0 < 0x1AE00000) _) _) _) _)
  | fdiv a0 a1 a2 a3 a4 => exact noWord_absurd hw (Nat.add_pos_left (Nat.add_pos_left (Nat.add_pos_left (Nat.add_pos_left (Nat.add_pos_left (by decide : 0 < 0x1B000000) _) _) _) _) _)
  | fsqrt a0 a1 a2 a3 => exact noWord_absurd hw (Nat.add_pos_left (Nat.add_pos_left (Nat.add_pos_left (Nat.add_pos_left (by decide : 0 < 0x1B200000) _) _) _) _)
  | frintRn a0 a1 a2 a3 => exact noWord_absurd hw (Nat.add_pos_left (Nat.add_pos_left (Nat.add_pos_left (Nat.add_pos_left (by decide : 0 < 0x1B400000) _) _) _) _)
  | frintRz a0 a1 a2 a3 => exact noWord_absurd hw (Nat.add_pos_left (Nat.add_pos_left (Nat.add_pos_left (Nat.add_pos_left (by decide : 0 < 0x1B600000) _) _) _) _)
  | frintRd a0 a1 a2 a3 => exact noWord_absurd hw (Nat.add_pos_left (Nat.add_pos_left (Nat.add_pos_left (Nat.add_pos_left (by decide : 0 < 0x1B800000) _) _) _) _)
  | frintRu a0 a1 a2 a3 => exact noWord_absurd hw (Nat.add_pos_left (Nat.add_pos_left (Nat.add_pos_left (Nat.add_pos_left (by decide : 0 < 0x1BA00000) _) _) _) _)
  | fclass a0 a1 a2 a3 => exact noWord_absurd hw (Nat.add_pos_left (Nat.add_pos_left (Nat.add_pos_left (Nat.add_pos_left (by decide : 0 < 0x1BC00000) _) _) _) _)
  | fscalb a0 a1 a2 a3 a4 => exact noWord_absurd hw (Nat.add_pos_left (Nat.add_pos_left (Nat.add_pos_left (Nat.add_pos_left (Nat.add_pos_left (by decide : 0 < 0x1BE00000) _) _) _) _) _)
  | cvt a0 a1 a2 a3 a4 a5 a6 => exact noWord_absurd hw (Nat.add_pos_left (Nat.add_pos_left (Nat.add_pos_left (Nat.add_pos_left (Nat.add_pos_left (Nat.add_pos_left (Nat.add_pos_left (by decide : 0 < 0x1C000000) _) _) _) _) _) _) _)
  | pkbf a0 a1 a2 a3 a4 => exact noWord_absurd hw (Nat.add_pos_left (Nat.add_pos_left (Nat.add_pos_left (Nat.add_pos_left (Nat.add_pos_left (by decide : 0 < 0x1D000000) _) _) _) _) _)
  | pke4Lo a0 a1 a2 a3 a4 => exact noWord_absurd hw (Nat.add_pos_left (Nat.add_pos_left (Nat.add_pos_left (Nat.add_pos_left (Nat.add_pos_left (by decide : 0 < 0x1D200000) _) _) _) _) _)
  | pke4Hi a0 a1 a2 a3 a4 => exact noWord_absurd hw (Nat.add_pos_left (Nat.add_pos_left (Nat.add_pos_left (Nat.add_pos_left (Nat.add_pos_left (by decide : 0 < 0x1D400000) _) _) _) _) _)
  | pke5Lo a0 a1 a2 a3 a4 => exact noWord_absurd hw (Nat.add_pos_left (Nat.add_pos_left (Nat.add_pos_left (Nat.add_pos_left (Nat.add_pos_left (by decide : 0 < 0x1D600000) _) _) _) _) _)
  | pke5Hi a0 a1 a2 a3 a4 => exact noWord_absurd hw (Nat.add_pos_left (Nat.add_pos_left (Nat.add_pos_left (Nat.add_pos_left (Nat.add_pos_left (by decide : 0 < 0x1D800000) _) _) _) _) _)
  | pkpsLo a0 a1 a2 a3 a4 => exact noWord_absurd hw (Nat.add_pos_left (Nat.add_pos_left (Nat.add_pos_left (Nat.add_pos_left (Nat.add_pos_left (by decide : 0 < 0x1DA00000) _) _) _) _) _)
  | pkpsHi a0 a1 a2 a3 a4 => exact noWord_absurd hw (Nat.add_pos_left (Nat.add_pos_left (Nat.add_pos_left (Nat.add_pos_left (Nat.add_pos_left (by decide : 0 < 0x1DC00000) _) _) _) _) _)
  | unpk a0 a1 a2 a3 a4 => exact noWord_absurd hw (Nat.add_pos_left (Nat.add_pos_left (Nat.add_pos_left (Nat.add_pos_left (Nat.add_pos_left (by decide : 0 < 0x1DE00000) _) _) _) _) _)
  | dot2Bf16 a0 a1 a2 a3 a4 => exact noWord_absurd hw (Nat.add_pos_left (Nat.add_pos_left (Nat.add_pos_left (Nat.add_pos_left (Nat.add_pos_left (by decide : 0 < 0x1E000000) _) _) _) _) _)
  | dot4E4m3 a0 a1 a2 a3 a4 => exact noWord_absurd hw (Nat.add_pos_left (Nat.add_pos_left (Nat.add_pos_left (Nat.add_pos_left (Nat.add_pos_left (by decide : 0 < 0x1E200000) _) _) _) _) _)
  | dot4E5m2 a0 a1 a2 a3 a4 => exact noWord_absurd hw (Nat.add_pos_left (Nat.add_pos_left (Nat.add_pos_left (Nat.add_pos_left (Nat.add_pos_left (by decide : 0 < 0x1E400000) _) _) _) _) _)
  | dot4Ps8 a0 a1 a2 a3 a4 => exact noWord_absurd hw (Nat.add_pos_left (Nat.add_pos_left (Nat.add_pos_left (Nat.add_pos_left (Nat.add_pos_left (by decide : 0 < 0x1E600000) _) _) _) _) _)
  | dot4S8 a0 a1 a2 a3 a4 => exact noWord_absurd hw (Nat.add_pos_left (Nat.add_pos_left (Nat.add_pos_left (Nat.add_pos_left (Nat.add_pos_left (by decide : 0 < 0x1E800000) _) _) _) _) _)
  | dot4N8 a0 a1 a2 a3 a4 => exact noWord_absurd hw (Nat.add_pos_left (Nat.add_pos_left (Nat.add_pos_left (Nat.add_pos_left (Nat.add_pos_left (by decide : 0 < 0x1EA00000) _) _) _) _) _)
  | hadd2Bf16 a0 a1 a2 a3 a4 => exact noWord_absurd hw (Nat.add_pos_left (Nat.add_pos_left (Nat.add_pos_left (Nat.add_pos_left (Nat.add_pos_left (by decide : 0 < 0x1EC00000) _) _) _) _) _)
  | hmul2Bf16 a0 a1 a2 a3 a4 => exact noWord_absurd hw (Nat.add_pos_left (Nat.add_pos_left (Nat.add_pos_left (Nat.add_pos_left (Nat.add_pos_left (by decide : 0 < 0x1EE00000) _) _) _) _) _)
  | brm a0 a1 a2 a3 a4 a5 a6 => exact noWord_absurd hw (Nat.add_pos_left (Nat.add_pos_left (Nat.add_pos_left (Nat.add_pos_left (Nat.add_pos_left (Nat.add_pos_left (Nat.add_pos_left (by decide : 0 < 0x20000000) _) _) _) _) _) _) _)
  | tgt a0 a1 => exact noWord_absurd hw (Nat.add_pos_left (Nat.add_pos_left (by decide : 0 < 0x21000000) _) _)
  | jmp a0 a1 => exact noWord_absurd hw (Nat.add_pos_left (Nat.add_pos_left (by decide : 0 < 0x22000000) _) _)
  | call a0 a1 a2 => exact noWord_absurd hw (Nat.add_pos_left (Nat.add_pos_left (Nat.add_pos_left (by decide : 0 < 0x23000000) _) _) _)
  | jmpr a0 => exact noWord_absurd hw (Nat.add_pos_left (by decide : 0 < 0x24000000) _)
  | callr a0 a1 => exact noWord_absurd hw (Nat.add_pos_left (Nat.add_pos_left (by decide : 0 < 0x24200000) _) _)
  | ret a0 => exact noWord_absurd hw (Nat.add_pos_left (by decide : 0 < 0x24400000) _)
  | exit => exact noWord_absurd hw (by decide : 0 < 0x24600000)
  | spawn a0 a1 a2 a3 => exact noWord_absurd hw (Nat.add_pos_left (Nat.add_pos_left (Nat.add_pos_left (Nat.add_pos_left (by decide : 0 < 0x24800000) _) _) _) _)
  | spawnf a0 a1 a2 a3 => exact noWord_absurd hw (Nat.add_pos_left (Nat.add_pos_left (Nat.add_pos_left (Nat.add_pos_left (by decide : 0 < 0x24A00000) _) _) _) _)
  | trap a0 a1 => exact noWord_absurd hw (Nat.add_pos_left (Nat.add_pos_left (by decide : 0 < 0x24C00000) _) _)
  | bkpt a0 => exact noWord_absurd hw (Nat.add_pos_left (by decide : 0 < 0x24E00000) _)
  | nop a0 => exact noWord_absurd hw (Nat.add_pos_left (by decide : 0 < 0x25000000) _)
  | pause a0 a1 => exact noWord_absurd hw (Nat.add_pos_left (Nat.add_pos_left (by decide : 0 < 0x25200000) _) _)
  | yield a0 => exact noWord_absurd hw (Nat.add_pos_left (by decide : 0 < 0x25400000) _)
  | ffence a0 => exact noWord_absurd hw (Nat.add_pos_left (by decide : 0 < 0x25600000) _)
  | clkrd a0 a1 => exact noWord_absurd hw (Nat.add_pos_left (Nat.add_pos_left (by decide : 0 < 0x25800000) _) _)
  | renew a0 a1 => exact noWord_absurd hw (Nat.add_pos_left (Nat.add_pos_left (by decide : 0 < 0x25A00000) _) _)
  | resume a0 => exact noWord_absurd hw (Nat.add_pos_left (by decide : 0 < 0x25C00000) _)
  | shflIdx a0 a1 a2 a3 => exact noWord_absurd hw (Nat.add_pos_left (Nat.add_pos_left (Nat.add_pos_left (Nat.add_pos_left (by decide : 0 < 0x26000000) _) _) _) _)
  | shflXor a0 a1 a2 a3 => exact noWord_absurd hw (Nat.add_pos_left (Nat.add_pos_left (Nat.add_pos_left (Nat.add_pos_left (by decide : 0 < 0x26200000) _) _) _) _)
  | shflUp a0 a1 a2 a3 => exact noWord_absurd hw (Nat.add_pos_left (Nat.add_pos_left (Nat.add_pos_left (Nat.add_pos_left (by decide : 0 < 0x26400000) _) _) _) _)
  | shflDn a0 a1 a2 a3 => exact noWord_absurd hw (Nat.add_pos_left (Nat.add_pos_left (Nat.add_pos_left (Nat.add_pos_left (by decide : 0 < 0x26600000) _) _) _) _)
  | voteAll a0 a1 a2 a3 a4 => exact noWord_absurd hw (Nat.add_pos_left (Nat.add_pos_left (Nat.add_pos_left (Nat.add_pos_left (Nat.add_pos_left (by decide : 0 < 0x26800000) _) _) _) _) _)
  | voteAny a0 a1 a2 a3 a4 => exact noWord_absurd hw (Nat.add_pos_left (Nat.add_pos_left (Nat.add_pos_left (Nat.add_pos_left (Nat.add_pos_left (by decide : 0 < 0x26A00000) _) _) _) _) _)
  | ballot a0 a1 a2 a3 a4 => exact noWord_absurd hw (Nat.add_pos_left (Nat.add_pos_left (Nat.add_pos_left (Nat.add_pos_left (Nat.add_pos_left (by decide : 0 < 0x26C00000) _) _) _) _) _)
  | matchLanes a0 a1 a2 a3 => exact noWord_absurd hw (Nat.add_pos_left (Nat.add_pos_left (Nat.add_pos_left (Nat.add_pos_left (by decide : 0 < 0x26E00000) _) _) _) _)
  | radd a0 a1 a2 a3 => exact noWord_absurd hw (Nat.add_pos_left (Nat.add_pos_left (Nat.add_pos_left (Nat.add_pos_left (by decide : 0 < 0x27000000) _) _) _) _)
  | rminS32 a0 a1 a2 a3 => exact noWord_absurd hw (Nat.add_pos_left (Nat.add_pos_left (Nat.add_pos_left (Nat.add_pos_left (by decide : 0 < 0x27200000) _) _) _) _)
  | rmaxS32 a0 a1 a2 a3 => exact noWord_absurd hw (Nat.add_pos_left (Nat.add_pos_left (Nat.add_pos_left (Nat.add_pos_left (by decide : 0 < 0x27400000) _) _) _) _)
  | rand a0 a1 a2 a3 => exact noWord_absurd hw (Nat.add_pos_left (Nat.add_pos_left (Nat.add_pos_left (Nat.add_pos_left (by decide : 0 < 0x27600000) _) _) _) _)
  | ror a0 a1 a2 a3 => exact noWord_absurd hw (Nat.add_pos_left (Nat.add_pos_left (Nat.add_pos_left (Nat.add_pos_left (by decide : 0 < 0x27800000) _) _) _) _)
  | rxor a0 a1 a2 a3 => exact noWord_absurd hw (Nat.add_pos_left (Nat.add_pos_left (Nat.add_pos_left (Nat.add_pos_left (by decide : 0 < 0x27A00000) _) _) _) _)
  | rfadd a0 a1 a2 a3 => exact noWord_absurd hw (Nat.add_pos_left (Nat.add_pos_left (Nat.add_pos_left (Nat.add_pos_left (by decide : 0 < 0x27C00000) _) _) _) _)
  | rminN32 a0 a1 a2 a3 => exact noWord_absurd hw (Nat.add_pos_left (Nat.add_pos_left (Nat.add_pos_left (Nat.add_pos_left (by decide : 0 < 0x27E00000) _) _) _) _)
  | barSync a0 a1 => exact noWord_absurd hw (Nat.add_pos_left (Nat.add_pos_left (by decide : 0 < 0x29000000) _) _)
  | barArv a0 a1 a2 => exact noWord_absurd hw (Nat.add_pos_left (Nat.add_pos_left (Nat.add_pos_left (by decide : 0 < 0x29010000) _) _) _)
  | barWait a0 a1 a2 => exact noWord_absurd hw (Nat.add_pos_left (Nat.add_pos_left (Nat.add_pos_left (by decide : 0 < 0x29020000) _) _) _)
  | barClu a0 => exact noWord_absurd hw (Nat.add_pos_left (by decide : 0 < 0x29030000) _)
  | barGrid a0 => exact noWord_absurd hw (Nat.add_pos_left (by decide : 0 < 0x29040000) _)
  | gsync a0 a1 => exact noWord_absurd hw (Nat.add_pos_left (Nat.add_pos_left (by decide : 0 < 0x29050000) _) _)
  | barTest a0 a1 a2 => exact noWord_absurd hw (Nat.add_pos_left (Nat.add_pos_left (Nat.add_pos_left (by decide : 0 < 0x29060000) _) _) _)
  | barSet a0 a1 a2 => exact noWord_absurd hw (Nat.add_pos_left (Nat.add_pos_left (Nat.add_pos_left (by decide : 0 < 0x29070000) _) _) _)
  | waitNe a0 a1 a2 a3 => exact noWord_absurd hw (Nat.add_pos_left (Nat.add_pos_left (Nat.add_pos_left (Nat.add_pos_left (by decide : 0 < 0x2A000000) _) _) _) _)
  | waitEq a0 a1 a2 a3 => exact noWord_absurd hw (Nat.add_pos_left (Nat.add_pos_left (Nat.add_pos_left (Nat.add_pos_left (by decide : 0 < 0x2A200000) _) _) _) _)
  | waitGe a0 a1 a2 a3 => exact noWord_absurd hw (Nat.add_pos_left (Nat.add_pos_left (Nat.add_pos_left (Nat.add_pos_left (by decide : 0 < 0x2A400000) _) _) _) _)
  | watch a0 a1 a2 => exact noWord_absurd hw (Nat.add_pos_left (Nat.add_pos_left (Nat.add_pos_left (by decide : 0 < 0x2A600000) _) _) _)
  | unwatch a0 a1 => exact noWord_absurd hw (Nat.add_pos_left (Nat.add_pos_left (by decide : 0 < 0x2A800000) _) _)
  | wake a0 a1 => exact noWord_absurd hw (Nat.add_pos_left (Nat.add_pos_left (by decide : 0 < 0x2AA00000) _) _)
  | ld a0 a1 a2 a3 a4 a5 a6 => exact noWord_absurd hw (Nat.add_pos_left (Nat.add_pos_left (Nat.add_pos_left (Nat.add_pos_left (Nat.add_pos_left (Nat.add_pos_left (Nat.add_pos_left (by decide : 0 < 0x2C000000) _) _) _) _) _) _) _)
  | st a0 a1 a2 a3 a4 a5 a6 => exact noWord_absurd hw (Nat.add_pos_left (Nat.add_pos_left (Nat.add_pos_left (Nat.add_pos_left (Nat.add_pos_left (Nat.add_pos_left (Nat.add_pos_left (by decide : 0 < 0x2D000000) _) _) _) _) _) _) _)
  | lds a0 a1 a2 a3 a4 a5 a6 => exact noWord_absurd hw (Nat.add_pos_left (Nat.add_pos_left (Nat.add_pos_left (Nat.add_pos_left (Nat.add_pos_left (Nat.add_pos_left (Nat.add_pos_left (by decide : 0 < 0x2E000000) _) _) _) _) _) _) _)
  | sts a0 a1 a2 a3 a4 a5 a6 => exact noWord_absurd hw (Nat.add_pos_left (Nat.add_pos_left (Nat.add_pos_left (Nat.add_pos_left (Nat.add_pos_left (Nat.add_pos_left (Nat.add_pos_left (by decide : 0 < 0x2F000000) _) _) _) _) _) _) _)
  | ldf a0 a1 a2 a3 a4 a5 a6 => exact noWord_absurd hw (Nat.add_pos_left (Nat.add_pos_left (Nat.add_pos_left (Nat.add_pos_left (Nat.add_pos_left (Nat.add_pos_left (Nat.add_pos_left (by decide : 0 < 0x30000000) _) _) _) _) _) _) _)
  | atomAdd a0 a1 a2 a3 a4 a5 a6 a7 => exact noWord_absurd hw (Nat.add_pos_left (Nat.add_pos_left (Nat.add_pos_left (Nat.add_pos_left (Nat.add_pos_left (Nat.add_pos_left (Nat.add_pos_left (Nat.add_pos_left (by decide : 0 < 0x31000000) _) _) _) _) _) _) _) _)
  | atomMinS32 a0 a1 a2 a3 a4 a5 a6 a7 => exact noWord_absurd hw (Nat.add_pos_left (Nat.add_pos_left (Nat.add_pos_left (Nat.add_pos_left (Nat.add_pos_left (Nat.add_pos_left (Nat.add_pos_left (Nat.add_pos_left (by decide : 0 < 0x31200000) _) _) _) _) _) _) _) _)
  | atomMaxS32 a0 a1 a2 a3 a4 a5 a6 a7 => exact noWord_absurd hw (Nat.add_pos_left (Nat.add_pos_left (Nat.add_pos_left (Nat.add_pos_left (Nat.add_pos_left (Nat.add_pos_left (Nat.add_pos_left (Nat.add_pos_left (by decide : 0 < 0x31400000) _) _) _) _) _) _) _) _)
  | atomMinN32 a0 a1 a2 a3 a4 a5 a6 a7 => exact noWord_absurd hw (Nat.add_pos_left (Nat.add_pos_left (Nat.add_pos_left (Nat.add_pos_left (Nat.add_pos_left (Nat.add_pos_left (Nat.add_pos_left (Nat.add_pos_left (by decide : 0 < 0x31600000) _) _) _) _) _) _) _) _)
  | atomMaxN32 a0 a1 a2 a3 a4 a5 a6 a7 => exact noWord_absurd hw (Nat.add_pos_left (Nat.add_pos_left (Nat.add_pos_left (Nat.add_pos_left (Nat.add_pos_left (Nat.add_pos_left (Nat.add_pos_left (Nat.add_pos_left (by decide : 0 < 0x31800000) _) _) _) _) _) _) _) _)
  | atomAnd a0 a1 a2 a3 a4 a5 a6 a7 => exact noWord_absurd hw (Nat.add_pos_left (Nat.add_pos_left (Nat.add_pos_left (Nat.add_pos_left (Nat.add_pos_left (Nat.add_pos_left (Nat.add_pos_left (Nat.add_pos_left (by decide : 0 < 0x31A00000) _) _) _) _) _) _) _) _)
  | atomOr a0 a1 a2 a3 a4 a5 a6 a7 => exact noWord_absurd hw (Nat.add_pos_left (Nat.add_pos_left (Nat.add_pos_left (Nat.add_pos_left (Nat.add_pos_left (Nat.add_pos_left (Nat.add_pos_left (Nat.add_pos_left (by decide : 0 < 0x31C00000) _) _) _) _) _) _) _) _)
  | atomXor a0 a1 a2 a3 a4 a5 a6 a7 => exact noWord_absurd hw (Nat.add_pos_left (Nat.add_pos_left (Nat.add_pos_left (Nat.add_pos_left (Nat.add_pos_left (Nat.add_pos_left (Nat.add_pos_left (Nat.add_pos_left (by decide : 0 < 0x31E00000) _) _) _) _) _) _) _) _)
  | atomxXchg a0 a1 a2 a3 a4 a5 a6 a7 => exact noWord_absurd hw (Nat.add_pos_left (Nat.add_pos_left (Nat.add_pos_left (Nat.add_pos_left (Nat.add_pos_left (Nat.add_pos_left (Nat.add_pos_left (Nat.add_pos_left (by decide : 0 < 0x32000000) _) _) _) _) _) _) _) _)
  | atomxCas a0 a1 a2 a3 a4 a5 a6 a7 => exact noWord_absurd hw (Nat.add_pos_left (Nat.add_pos_left (Nat.add_pos_left (Nat.add_pos_left (Nat.add_pos_left (Nat.add_pos_left (Nat.add_pos_left (Nat.add_pos_left (by decide : 0 < 0x32200000) _) _) _) _) _) _) _) _)
  | atomxIncw a0 a1 a2 a3 a4 a5 a6 a7 => exact noWord_absurd hw (Nat.add_pos_left (Nat.add_pos_left (Nat.add_pos_left (Nat.add_pos_left (Nat.add_pos_left (Nat.add_pos_left (Nat.add_pos_left (Nat.add_pos_left (by decide : 0 < 0x32400000) _) _) _) _) _) _) _) _)
  | atomxDecw a0 a1 a2 a3 a4 a5 a6 a7 => exact noWord_absurd hw (Nat.add_pos_left (Nat.add_pos_left (Nat.add_pos_left (Nat.add_pos_left (Nat.add_pos_left (Nat.add_pos_left (Nat.add_pos_left (Nat.add_pos_left (by decide : 0 < 0x32600000) _) _) _) _) _) _) _) _)
  | atomxFaddF32 a0 a1 a2 a3 a4 a5 a6 => exact noWord_absurd hw (Nat.add_pos_left (Nat.add_pos_left (Nat.add_pos_left (Nat.add_pos_left (Nat.add_pos_left (Nat.add_pos_left (Nat.add_pos_left (by decide : 0 < 0x32800000) _) _) _) _) _) _) _)
  | atomxFminF32 a0 a1 a2 a3 a4 a5 a6 => exact noWord_absurd hw (Nat.add_pos_left (Nat.add_pos_left (Nat.add_pos_left (Nat.add_pos_left (Nat.add_pos_left (Nat.add_pos_left (Nat.add_pos_left (by decide : 0 < 0x32A00000) _) _) _) _) _) _) _)
  | atomxFmaxF32 a0 a1 a2 a3 a4 a5 a6 => exact noWord_absurd hw (Nat.add_pos_left (Nat.add_pos_left (Nat.add_pos_left (Nat.add_pos_left (Nat.add_pos_left (Nat.add_pos_left (Nat.add_pos_left (by decide : 0 < 0x32C00000) _) _) _) _) _) _) _)
  | lda a0 a1 a2 a3 a4 a5 => exact noWord_absurd hw (Nat.add_pos_left (Nat.add_pos_left (Nat.add_pos_left (Nat.add_pos_left (Nat.add_pos_left (Nat.add_pos_left (by decide : 0 < 0x33040000) _) _) _) _) _) _)
  | stl a0 a1 a2 a3 a4 a5 => exact noWord_absurd hw (Nat.add_pos_left (Nat.add_pos_left (Nat.add_pos_left (Nat.add_pos_left (Nat.add_pos_left (Nat.add_pos_left (by decide : 0 < 0x33280000) _) _) _) _) _) _)
  | fence a0 a1 a2 a3 => exact noWord_absurd hw (Nat.add_pos_left (Nat.add_pos_left (Nat.add_pos_left (Nat.add_pos_left (by decide : 0 < 0x33400000) _) _) _) _)
  | fenceSc a0 a1 a2 => exact noWord_absurd hw (Nat.add_pos_left (Nat.add_pos_left (Nat.add_pos_left (by decide : 0 < 0x336C0000) _) _) _)
  | ldap a0 a1 a2 a3 a4 a5 => exact noWord_absurd hw (Nat.add_pos_left (Nat.add_pos_left (Nat.add_pos_left (Nat.add_pos_left (Nat.add_pos_left (Nat.add_pos_left (by decide : 0 < 0x33840000) _) _) _) _) _) _)
  | atomp a0 a1 a2 a3 a4 a5 a6 a7 => exact noWord_absurd hw (Nat.add_pos_left (Nat.add_pos_left (Nat.add_pos_left (Nat.add_pos_left (Nat.add_pos_left (Nat.add_pos_left (Nat.add_pos_left (Nat.add_pos_left (by decide : 0 < 0x33A00000) _) _) _) _) _) _) _) _)
  | pref a0 a1 a2 a3 => exact noWord_absurd hw (Nat.add_pos_left (Nat.add_pos_left (Nat.add_pos_left (Nat.add_pos_left (by decide : 0 < 0x34000000) _) _) _) _)
  | flush a0 a1 a2 => exact noWord_absurd hw (Nat.add_pos_left (Nat.add_pos_left (Nat.add_pos_left (by decide : 0 < 0x34200000) _) _) _)
  | inval a0 a1 a2 => exact noWord_absurd hw (Nat.add_pos_left (Nat.add_pos_left (Nat.add_pos_left (by decide : 0 < 0x34400000) _) _) _)
  | stashMap a0 a1 a2 a3 => exact noWord_absurd hw (Nat.add_pos_left (Nat.add_pos_left (Nat.add_pos_left (Nat.add_pos_left (by decide : 0 < 0x34600000) _) _) _) _)
  | stashWb a0 a1 => exact noWord_absurd hw (Nat.add_pos_left (Nat.add_pos_left (by decide : 0 < 0x34800000) _) _)
  | stashDrop a0 a1 => exact noWord_absurd hw (Nat.add_pos_left (Nat.add_pos_left (by decide : 0 < 0x34A00000) _) _)
  | cpyG2s a0 a1 a2 a3 => exact noWord_absurd hw (Nat.add_pos_left (Nat.add_pos_left (Nat.add_pos_left (Nat.add_pos_left (by decide : 0 < 0x36000000) _) _) _) _)
  | cpyS2g a0 a1 a2 a3 => exact noWord_absurd hw (Nat.add_pos_left (Nat.add_pos_left (Nat.add_pos_left (Nat.add_pos_left (by decide : 0 < 0x36400000) _) _) _) _)
  | cpyG2g a0 a1 a2 a3 => exact noWord_absurd hw (Nat.add_pos_left (Nat.add_pos_left (Nat.add_pos_left (Nat.add_pos_left (by decide : 0 < 0x36800000) _) _) _) _)
  | cpyS2s a0 a1 a2 a3 => exact noWord_absurd hw (Nat.add_pos_left (Nat.add_pos_left (Nat.add_pos_left (Nat.add_pos_left (by decide : 0 < 0x36C00000) _) _) _) _)
  | cpyFlag a0 a1 a2 => exact noWord_absurd hw (Nat.add_pos_left (Nat.add_pos_left (Nat.add_pos_left (by decide : 0 < 0x37000000) _) _) _)
  | cpyCommit a0 a1 a2 => exact noWord_absurd hw (Nat.add_pos_left (Nat.add_pos_left (Nat.add_pos_left (by decide : 0 < 0x37200000) _) _) _)
  | htest a0 a1 a2 => exact noWord_absurd hw (Nat.add_pos_left (Nat.add_pos_left (Nat.add_pos_left (by decide : 0 < 0x37400000) _) _) _)
  | hcancel a0 a1 => exact noWord_absurd hw (Nat.add_pos_left (Nat.add_pos_left (by decide : 0 < 0x37600000) _) _)
  | hwait a0 a1 => exact noWord_absurd hw (Nat.add_pos_left (Nat.add_pos_left (by decide : 0 < 0x37800000) _) _)
  | cntrd a0 a1 => exact noWord_absurd hw (Nat.add_pos_left (Nat.add_pos_left (by decide : 0 < 0x37A00000) _) _)
  | waitc a0 a1 a2 a3 a4 => exact noWord_absurd hw (Nat.add_pos_left (Nat.add_pos_left (Nat.add_pos_left (Nat.add_pos_left (Nat.add_pos_left (by decide : 0 < 0x38000000) _) _) _) _) _)
  | mxIssue a0 a1 a2 => exact noWord_absurd hw (Nat.add_pos_left (Nat.add_pos_left (Nat.add_pos_left (by decide : 0 < 0x39000000) _) _) _)
  | mxReady a0 a1 a2 a3 => exact noWord_absurd hw (Nat.add_pos_left (Nat.add_pos_left (Nat.add_pos_left (Nat.add_pos_left (by decide : 0 < 0x39200000) _) _) _) _)
  | mxCancel a0 => exact noWord_absurd hw (Nat.add_pos_left (by decide : 0 < 0x39400000) _)
  | mxQuiesce a0 => exact noWord_absurd hw (Nat.add_pos_left (by decide : 0 < 0x39600000) _)
  | plZero a0 a1 a2 => exact noWord_absurd hw (Nat.add_pos_left (Nat.add_pos_left (Nat.add_pos_left (by decide : 0 < 0x39800000) _) _) _)
  | plClaim a0 a1 a2 => exact noWord_absurd hw (Nat.add_pos_left (Nat.add_pos_left (Nat.add_pos_left (by decide : 0 < 0x39A00000) _) _) _)
  | plFree a0 a1 => exact noWord_absurd hw (Nat.add_pos_left (Nat.add_pos_left (by decide : 0 < 0x39C00000) _) _)
  | plLd a0 a1 a2 a3 => exact noWord_absurd hw (Nat.add_pos_left (Nat.add_pos_left (Nat.add_pos_left (Nat.add_pos_left (by decide : 0 < 0x3A000000) _) _) _) _)
  | plSt a0 a1 a2 => exact noWord_absurd hw (Nat.add_pos_left (Nat.add_pos_left (Nat.add_pos_left (by decide : 0 < 0x3A200000) _) _) _)
  | plRd a0 a1 a2 a3 => exact noWord_absurd hw (Nat.add_pos_left (Nat.add_pos_left (Nat.add_pos_left (Nat.add_pos_left (by decide : 0 < 0x3A400000) _) _) _) _)
  | plWr a0 a1 a2 a3 => exact noWord_absurd hw (Nat.add_pos_left (Nat.add_pos_left (Nat.add_pos_left (Nat.add_pos_left (by decide : 0 < 0x3A600000) _) _) _) _)
  | plScale a0 a1 a2 => exact noWord_absurd hw (Nat.add_pos_left (Nat.add_pos_left (Nat.add_pos_left (by decide : 0 < 0x3A800000) _) _) _)
  | plSave a0 a1 => exact noWord_absurd hw (Nat.add_pos_left (Nat.add_pos_left (by decide : 0 < 0x3AA00000) _) _)
  | plRst a0 a1 => exact noWord_absurd hw (Nat.add_pos_left (Nat.add_pos_left (by decide : 0 < 0x3AC00000) _) _)
  | tld a0 a1 a2 a3 => exact noWord_absurd hw (Nat.add_pos_left (Nat.add_pos_left (Nat.add_pos_left (Nat.add_pos_left (by decide : 0 < 0x3B000000) _) _) _) _)
  | tst a0 a1 a2 => exact noWord_absurd hw (Nat.add_pos_left (Nat.add_pos_left (Nat.add_pos_left (by decide : 0 < 0x3B200000) _) _) _)
  | tcvt a0 a1 a2 a3 a4 a5 a6 => exact noWord_absurd hw (Nat.add_pos_left (Nat.add_pos_left (Nat.add_pos_left (Nat.add_pos_left (Nat.add_pos_left (Nat.add_pos_left (Nat.add_pos_left (by decide : 0 < 0x3B400000) _) _) _) _) _) _) _)
  | tzero a0 a1 a2 => exact noWord_absurd hw (Nat.add_pos_left (Nat.add_pos_left (Nat.add_pos_left (by decide : 0 < 0x3B600000) _) _) _)
  | ttrn a0 a1 a2 a3 => exact noWord_absurd hw (Nat.add_pos_left (Nat.add_pos_left (Nat.add_pos_left (Nat.add_pos_left (by decide : 0 < 0x3B800000) _) _) _) _)
  | plwLoop a0 a1 a2 => exact noWord_absurd hw (Nat.add_pos_left (Nat.add_pos_left (Nat.add_pos_left (by decide : 0 < 0x3C000000) _) _) _)
  | plwStrm a0 a1 a2 a3 a4 a5 => exact noWord_absurd hw (Nat.add_pos_left (Nat.add_pos_left (Nat.add_pos_left (Nat.add_pos_left (Nat.add_pos_left (Nat.add_pos_left (by decide : 0 < 0x3C200000) _) _) _) _) _) _)
  | plwGo a0 a1 => exact noWord_absurd hw (Nat.add_pos_left (Nat.add_pos_left (by decide : 0 < 0x3C400000) _) _)
  | plwStop a0 => exact noWord_absurd hw (Nat.add_pos_left (by decide : 0 < 0x3C600000) _)
  | qpop a0 a1 a2 => exact noWord_absurd hw (Nat.add_pos_left (Nat.add_pos_left (Nat.add_pos_left (by decide : 0 < 0x3C800000) _) _) _)
  | qpeek a0 a1 a2 => exact noWord_absurd hw (Nat.add_pos_left (Nat.add_pos_left (Nat.add_pos_left (by decide : 0 < 0x3CA00000) _) _) _)
  | qlen a0 a1 a2 => exact noWord_absurd hw (Nat.add_pos_left (Nat.add_pos_left (Nat.add_pos_left (by decide : 0 < 0x3CC00000) _) _) _)
  | plwStat a0 a1 => exact noWord_absurd hw (Nat.add_pos_left (Nat.add_pos_left (by decide : 0 < 0x3CE00000) _) _)
  | launch a0 a1 a2 a3 => exact noWord_absurd hw (Nat.add_pos_left (Nat.add_pos_left (Nat.add_pos_left (Nat.add_pos_left (by decide : 0 < 0x3D000000) _) _) _) _)
  | qpush a0 a1 a2 a3 => exact noWord_absurd hw (Nat.add_pos_left (Nat.add_pos_left (Nat.add_pos_left (Nat.add_pos_left (by decide : 0 < 0x3D200000) _) _) _) _)
  | kstat a0 a1 a2 => exact noWord_absurd hw (Nat.add_pos_left (Nat.add_pos_left (Nat.add_pos_left (by decide : 0 < 0x3D400000) _) _) _)
  | qstat a0 a1 a2 => exact noWord_absurd hw (Nat.add_pos_left (Nat.add_pos_left (Nat.add_pos_left (by decide : 0 < 0x3D600000) _) _) _)
  | srd a0 a1 a2 => exact noWord_absurd hw (Nat.add_pos_left (Nat.add_pos_left (Nat.add_pos_left (by decide : 0 < 0x3E000000) _) _) _)
  | swr a0 a1 a2 => exact noWord_absurd hw (Nat.add_pos_left (Nat.add_pos_left (Nat.add_pos_left (by decide : 0 < 0x3E010000) _) _) _)
  | tret a0 => exact noWord_absurd hw (Nat.add_pos_left (by decide : 0 < 0x3E020000) _)
  | ecall a0 a1 a2 => exact noWord_absurd hw (Nat.add_pos_left (Nat.add_pos_left (Nat.add_pos_left (by decide : 0 < 0x3E030000) _) _) _)
  | ctxStop a0 a1 => exact noWord_absurd hw (Nat.add_pos_left (Nat.add_pos_left (by decide : 0 < 0x3E100000) _) _)
  | ctxSave a0 a1 => exact noWord_absurd hw (Nat.add_pos_left (Nat.add_pos_left (by decide : 0 < 0x3E110000) _) _)
  | ctxRst a0 a1 a2 => exact noWord_absurd hw (Nat.add_pos_left (Nat.add_pos_left (Nat.add_pos_left (by decide : 0 < 0x3E120000) _) _) _)
  | preempt a0 a1 a2 => exact noWord_absurd hw (Nat.add_pos_left (Nat.add_pos_left (Nat.add_pos_left (by decide : 0 < 0x3E130000) _) _) _)
  | ckptMark a0 a1 a2 => exact noWord_absurd hw (Nat.add_pos_left (Nat.add_pos_left (Nat.add_pos_left (by decide : 0 < 0x3E140000) _) _) _)
  | ckptStat a0 a1 => exact noWord_absurd hw (Nat.add_pos_left (Nat.add_pos_left (by decide : 0 < 0x3E150000) _) _)
  | patchLoad a0 a1 a2 => exact noWord_absurd hw (Nat.add_pos_left (Nat.add_pos_left (Nat.add_pos_left (by decide : 0 < 0x3E200000) _) _) _)
  | patchArm a0 a1 => exact noWord_absurd hw (Nat.add_pos_left (Nat.add_pos_left (by decide : 0 < 0x3E210000) _) _)
  | patchDisarm a0 a1 => exact noWord_absurd hw (Nat.add_pos_left (Nat.add_pos_left (by decide : 0 < 0x3E220000) _) _)
  | patchQry a0 a1 a2 => exact noWord_absurd hw (Nat.add_pos_left (Nat.add_pos_left (Nat.add_pos_left (by decide : 0 < 0x3E230000) _) _) _)
  | pstateSet a0 a1 a2 => exact noWord_absurd hw (Nat.add_pos_left (Nat.add_pos_left (Nat.add_pos_left (by decide : 0 < 0x3E300000) _) _) _)
  | park a0 a1 => exact noWord_absurd hw (Nat.add_pos_left (Nat.add_pos_left (by decide : 0 < 0x3E310000) _) _)
  | unpark a0 a1 => exact noWord_absurd hw (Nat.add_pos_left (Nat.add_pos_left (by decide : 0 < 0x3E320000) _) _)
  | errqSet a0 a1 a2 => exact noWord_absurd hw (Nat.add_pos_left (Nat.add_pos_left (Nat.add_pos_left (by decide : 0 < 0x3E400000) _) _) _)
  | tlbInv a0 a1 a2 => exact noWord_absurd hw (Nat.add_pos_left (Nat.add_pos_left (Nat.add_pos_left (by decide : 0 < 0x3E410000) _) _) _)
  | fenceTlb a0 => exact noWord_absurd hw (Nat.add_pos_left (by decide : 0 < 0x3E420000) _)
  | issueGroup a0 => exact .inr (.inr (.inl ⟨_, rfl⟩))
  | penStarved a0 a1 => exact isEvent_c (fun s => exec_penStarved _ _ s)
  | pauseExpiry a0 => exact isEvent_c (fun s => exec_pauseExpiry _ s)
  | yieldEnd a0 => exact isEvent_c (fun s => exec_yieldEnd _ s)
  | tick => exact isEvent_s (fun s => exec_tick s)
  | rebaseSweep => exact isEvent_c (fun s => exec_rebaseSweep s)
  | rebaseSweepComplete => exact isEvent_c (fun s => exec_rebaseSweepComplete s)
  | loadDataReturn a0 => exact isEvent_s (fun s => exec_loadDataReturn _ s)
  | renewRequest a0 => exact isEvent_c (fun s => exec_renewRequest _ s)
  | renewReply a0 => exact isEvent_c (fun s => exec_renewReply _ s)
  | homeStore a0 => exact isEvent_c (fun s => exec_homeStore _ s)
  | ownedRequest a0 => exact isEvent_c (fun s => exec_ownedRequest _ s)
  | homeAtomic a0 => exact isEvent_c (fun s => exec_homeAtomic _ s)
  | recallLine a0 => exact isEvent_c (fun s => exec_recallLine _ s)
  | persistentRequest a0 => exact isEvent_c (fun s => exec_persistentRequest _ s)
  | sliceEviction a0 => exact isEvent_s (fun s => exec_sliceEviction _ s)
  | hostMemAccess a0 a1 a2 a3 a4 => exact isEvent_c (fun s => exec_hostMemAccess _ _ _ _ _ s)
  | backInvalidationResponse a0 => exact isEvent_c (fun s => exec_backInvalidationResponse _ s)
  | hostSnoop a0 a1 => exact isEvent_s (fun s => exec_hostSnoop _ _ s)
  | surveyorWalk a0 a1 a2 => exact isEvent_c (fun s => exec_surveyorWalk _ _ _ s)
  | holdLimitExpiry a0 => exact isEvent_c (fun s => exec_holdLimitExpiry _ s)
  | pageFaultService a0 a1 => exact isEvent_c (fun s => exec_pageFaultService _ _ s)
  | droverCommand a0 => exact isEvent_c (fun s => exec_droverCommand _ s)
  | migration a0 a1 => exact isEvent_s (fun s => exec_migration _ _ s)
  | migrationComplete a0 a1 => exact isEvent_c (fun s => exec_migrationComplete _ _ s)
  | farPagePromotion a0 a1 => exact isEvent_c (fun s => exec_farPagePromotion _ _ s)
  | pageLeaseEnd a0 => exact isEvent_s (fun s => exec_pageLeaseEnd _ s)
  | timeSyncSend => exact isEvent_s (fun s => exec_timeSyncSend s)
  | timeSyncReceive a0 a1 => exact isEvent_s (fun s => exec_timeSyncReceive _ _ s)
  | syncLossTimeout => exact isEvent_s (fun s => exec_syncLossTimeout s)
  | flitReceive a0 a1 a2 a3 => exact isEvent_s (fun s => exec_flitReceive _ _ _ _ s)
  | flitReplay a0 => exact isEvent_s (fun s => exec_flitReplay _ s)
  | trainingSuccess a0 a1 => exact isEvent_s (fun s => exec_trainingSuccess _ _ s)
  | trainingTimeout a0 => exact isEvent_s (fun s => exec_trainingTimeout _ s)
  | trainingRetry a0 => exact isEvent_s (fun s => exec_trainingRetry _ s)
  | linkRetrain a0 => exact isEvent_s (fun s => exec_linkRetrain _ s)
  | routeFailure a0 => exact isEvent_s (fun s => exec_routeFailure _ s)
  | stewardTake a0 a1 => exact isEvent_c (fun s => exec_stewardTake _ _ s)
  | queueEnableChange a0 a1 => exact isEvent_c (fun s => exec_queueEnableChange _ _ s)
  | dependencesMet a0 => exact isEvent_c (fun s => exec_dependencesMet _ s)
  | clusterPlacement => exact isEvent_s (fun s => exec_clusterPlacement s)
  | teamRetirement a0 => exact isEvent_s (fun s => exec_teamRetirement _ s)
  | binTimerExpiry a0 a1 => exact isEvent_c (fun s => exec_binTimerExpiry _ _ s)
  | binLaunch a0 a1 a2 => exact isEvent_c (fun s => exec_binLaunch _ _ _ s)
  | barrierTimeout a0 => exact isEvent_c (fun s => exec_barrierTimeout _ s)
  | waitLimitExpiry a0 => exact isEvent_c (fun s => exec_waitLimitExpiry _ s)
  | watchFire a0 => exact isEvent_s (fun s => exec_watchFire _ s)
  | carterTransferUnit a0 => exact isEvent_c (fun s => exec_carterTransferUnit _ s)
  | copyElement a0 a1 => exact isEvent_c (fun s => exec_copyElement _ _ s)
  | batchResolve a0 => exact isEvent_c (fun s => exec_batchResolve _ s)
  | remapWrite a0 a1 => exact isEvent_c (fun s => exec_remapWrite _ _ s)
  | remapTimeout a0 => exact isEvent_c (fun s => exec_remapTimeout _ s)
  | remoteAtomicReply a0 a1 => exact isEvent_s (fun s => exec_remoteAtomicReply _ _ s)
  | ecallAnswer a0 a1 => exact isEvent_s (fun s => exec_ecallAnswer _ _ s)
  | pressTileStep a0 a1 => exact isEvent_c (fun s => exec_pressTileStep _ _ s)
  | pressEntryResolve a0 => exact isEvent_c (fun s => exec_pressEntryResolve _ s)
  | quadJoin a0 => exact isEvent_c (fun s => exec_quadJoin _ s)
  | ploughElementRead a0 a1 => exact isEvent_c (fun s => exec_ploughElementRead _ _ s)
  | contextQuiescent a0 => exact isEvent_c (fun s => exec_contextQuiescent _ s)
  | saveComplete a0 => exact isEvent_c (fun s => exec_saveComplete _ s)
  | preemptReport a0 => exact .inr (.inr (.inr ⟨_, rfl⟩))
  | moveTransferDone a0 a1 => exact isEvent_c (fun s => exec_moveTransferDone _ _ s)
  | automaticMark a0 => exact isEvent_c (fun s => exec_automaticMark _ s)
  | markStagingComplete a0 => exact isEvent_s (fun s => exec_markStagingComplete _ s)
  | checkpointStream a0 => exact isEvent_c (fun s => exec_checkpointStream _ s)
  | checkpointComplete a0 => exact isEvent_c (fun s => exec_checkpointComplete _ s)
  | copyOnWriteRelease a0 a1 => exact isEvent_c (fun s => exec_copyOnWriteRelease _ _ s)
  | scrub a0 a1 a2 => exact isEvent_s (fun s => exec_scrub _ _ _ s)
  | uncorrectable a0 => exact isEvent_s (fun s => exec_uncorrectable _ s)
  | committedEarly a0 => exact isEvent_c (fun s => exec_committedEarly _ s)
  | rollback a0 => exact isEvent_s (fun s => exec_rollback _ s)
  | heartbeatLoss a0 => exact isEvent_s (fun s => exec_heartbeatLoss _ s)
  | dieFence a0 => exact isEvent_s (fun s => exec_dieFence _ s)
  | barnDieFence a0 => exact isEvent_s (fun s => exec_barnDieFence _ s)
  | reeveShare a0 a1 a2 a3 a4 => exact isEvent_s (fun s => exec_reeveShare _ _ _ _ _ s)
  | pstateTransition a0 => exact isEvent_c (fun s => exec_pstateTransition _ s)
  | parkComplete a0 => exact isEvent_s (fun s => exec_parkComplete _ s)
  | wakeComplete a0 => exact isEvent_c (fun s => exec_wakeComplete _ s)
  | bankReady a0 a1 => exact isEvent_c (fun s => exec_bankReady _ _ s)
  | powerOnSelfTest a0 a1 => exact isEvent_s (fun s => exec_powerOnSelfTest _ _ s)
  | patchLoadComplete a0 => exact isEvent_s (fun s => exec_patchLoadComplete _ s)
  | patchArmComplete a0 => exact isEvent_c (fun s => exec_patchArmComplete _ s)
  | drainComplete a0 => exact isEvent_c (fun s => exec_drainComplete _ s)
  | registerWrite a0 a1 => exact isEvent_s (fun s => exec_registerWrite _ _ s)
  | pwrceilWrite a0 => exact isEvent_s (fun s => exec_pwrceilWrite _ s)
  | splitWrite a0 => exact isEvent_s (fun s => exec_splitWrite _ s)
  | discovery => exact isEvent_s (fun s => exec_discovery s)
  | selfTestReport => exact isEvent_s (fun s => exec_selfTestReport s)
  | memoryReport => exact isEvent_s (fun s => exec_memoryReport s)
  | stopCommand => exact isEvent_s (fun s => exec_stopCommand s)
  | saveCommand => exact isEvent_s (fun s => exec_saveCommand s)
  | resumeCommand => exact isEvent_s (fun s => exec_resumeCommand s)
  | preEmptCommand => exact isEvent_s (fun s => exec_preEmptCommand s)
  | move => exact isEvent_s (fun s => exec_move s)
  | kill => exact isEvent_s (fun s => exec_kill s)
  | release => exact isEvent_s (fun s => exec_release s)
  | contextStatus => exact isEvent_s (fun s => exec_contextStatus s)
  | createContext => exact isEvent_s (fun s => exec_createContext s)
  | loadCodeObject => exact isEvent_s (fun s => exec_loadCodeObject s)
  | setAllowedCoreSet => exact isEvent_s (fun s => exec_setAllowedCoreSet s)
  | writeAContextControlWord => exact isEvent_s (fun s => exec_writeAContextControlWord s)
  | verifyStencilImage => exact isEvent_s (fun s => exec_verifyStencilImage s)
  | enrolOperatorKey => exact isEvent_s (fun s => exec_enrolOperatorKey s)
  | keyStatus => exact isEvent_s (fun s => exec_keyStatus s)
  | portStatus => exact isEvent_s (fun s => exec_portStatus s)
  | fenceScaleUpPort => exact isEvent_s (fun s => exec_fenceScaleUpPort s)
  | unfenceScaleUpPort => exact isEvent_s (fun s => exec_unfenceScaleUpPort s)
  | domainConfiguration => exact isEvent_s (fun s => exec_domainConfiguration s)
  | verifyTimeout a0 => exact isEvent_s (fun s => exec_verifyTimeout _ s)
  | triageTimeout a0 => exact isEvent_s (fun s => exec_triageTimeout _ s)
  | unknownMailboxCommand => exact isEvent_s (fun s => exec_unknownMailboxCommand s)
  | standbyFailure => exact isEvent_s (fun s => exec_standbyFailure s)

/-- With a chain open an event leaves the state as it is. -/
theorem IsEvent.waits {i : Instr} (h : IsEvent i) {s : State} (hs : s.issue ≠ none) : exec i s = .next s := by
  obtain ⟨x, hx⟩ := Option.ne_none_iff_exists'.1 hs
  rcases h with ⟨f, h⟩ | ⟨f, h⟩ | ⟨k, rfl⟩ | ⟨k, rfl⟩
  · rw [h, event, hx]
  · rw [h, eventS, hx]
  · rw [exec_issueGroup, execIssueGroup, hx]
  · rw [exec_preemptReport, execPreemptReport, hx]

end Sys2Proof.Machine
end

