-- ==== Sys2Proof/Laws/Forms.lean ====
section
/-! SUPPORT. Every instruction that a word holds executes through `runKind` or `runKindJump`, with its own operands, lead and holds; so
whatever holds of those holds of every word. -/

namespace Sys2Proof.Machine

/-- The meaning of an instruction is one word of the open chain, judged by the instruction's operands. -/
def IsWord (i : Instr) : Prop :=
  ∃ k : WordKind, k.info = opInfo i ∧ (∀ e t, k.lead e t = wordLead e t i) ∧ (∀ e t, k.held e t = blocked e t i) ∧
    ((∃ check act, ∀ s, exec i s = runKind k check act s) ∨ ∃ check act f, ∀ s, exec i s = runKindJump k check act f s)

theorem isWord_of {i : Instr} {check : Check} {act : Act} (h : ∀ s, exec i s = runWord i check act s) : IsWord i :=
  ⟨kindOf i, rfl, fun _ _ => rfl, fun _ _ => rfl, .inl ⟨check, act, h⟩⟩

theorem isWord_jump {i : Instr} {check : Check} {act : Act} {f : State → List Nat → Nat → Option Jump}
    (h : ∀ s, exec i s = runJump i check act f s) : IsWord i :=
  ⟨kindOf i, rfl, fun _ _ => rfl, fun _ _ => rfl, .inr ⟨check, act, f, h⟩⟩

theorem isWord_of_sys {i : Instr} {k : WordKind} {check : Check} {act : Act} (h : ∀ s, exec i s = runKind k check act s) (h1 : k.info = opInfo i)
    (h2 : ∀ e t, k.lead e t = wordLead e t i := by intros; rfl) (h3 : ∀ e t, k.held e t = blocked e t i := by intros; rfl) : IsWord i :=
  ⟨k, h1, h2, h3, .inl ⟨check, act, h⟩⟩

theorem isWord_jump_sys {i : Instr} {k : WordKind} {check : Check} {act : Act} {f : State → List Nat → Nat → Option Jump}
    (h : ∀ s, exec i s = runKindJump k check act f s) (h1 : k.info = opInfo i)
    (h2 : ∀ e t, k.lead e t = wordLead e t i := by intros; rfl) (h3 : ∀ e t, k.held e t = blocked e t i := by intros; rfl) : IsWord i :=
  ⟨k, h1, h2, h3, .inr ⟨check, act, f, h⟩⟩

/-- Every instruction that a word holds. -/
theorem isWord_of_hasWord {i : Instr} (hw : hasWord i = true) : IsWord i := by
  cases i with
  | iadd a0 a1 a2 a3 a4 => exact isWord_of (fun s => exec_iadd _ _ _ _ _ s)
  | isub a0 a1 a2 a3 a4 => exact isWord_of (fun s => exec_isub _ _ _ _ _ s)
  | iminS32 a0 a1 a2 a3 a4 => exact isWord_of (fun s => exec_iminS32 _ _ _ _ _ s)
  | imaxS32 a0 a1 a2 a3 a4 => exact isWord_of (fun s => exec_imaxS32 _ _ _ _ _ s)
  | iminN32 a0 a1 a2 a3 a4 => exact isWord_of (fun s => exec_iminN32 _ _ _ _ _ s)
  | imaxN32 a0 a1 a2 a3 a4 => exact isWord_of (fun s => exec_imaxN32 _ _ _ _ _ s)
  | iabsd a0 a1 a2 a3 a4 => exact isWord_of (fun s => exec_iabsd _ _ _ _ _ s)
  | ineg a0 a1 a2 a3 => exact isWord_of (fun s => exec_ineg _ _ _ _ s)
  | imul a0 a1 a2 a3 a4 => exact isWord_of (fun s => exec_imul _ _ _ _ _ s)
  | imulhS32 a0 a1 a2 a3 a4 => exact isWord_of (fun s => exec_imulhS32 _ _ _ _ _ s)
  | imulhN32 a0 a1 a2 a3 a4 => exact isWord_of (fun s => exec_imulhN32 _ _ _ _ _ s)
  | imad a0 a1 a2 a3 a4 => exact isWord_of (fun s => exec_imad _ _ _ _ _ s)
  | idivS32 a0 a1 a2 a3 a4 => exact isWord_of (fun s => exec_idivS32 _ _ _ _ _ s)
  | idivN32 a0 a1 a2 a3 a4 => exact isWord_of (fun s => exec_idivN32 _ _ _ _ _ s)
  | iremS32 a0 a1 a2 a3 a4 => exact isWord_of (fun s => exec_iremS32 _ _ _ _ _ s)
  | iremN32 a0 a1 a2 a3 a4 => exact isWord_of (fun s => exec_iremN32 _ _ _ _ _ s)
  | iaddD a0 a1 a2 a3 a4 => exact isWord_of (fun s => exec_iaddD _ _ _ _ _ s)
  | isubD a0 a1 a2 a3 a4 => exact isWord_of (fun s => exec_isubD _ _ _ _ _ s)
  | imulD a0 a1 a2 a3 a4 => exact isWord_of (fun s => exec_imulD _ _ _ _ _ s)
  | imadwS32 a0 a1 a2 a3 a4 => exact isWord_of (fun s => exec_imadwS32 _ _ _ _ _ s)
  | imadwN32 a0 a1 a2 a3 a4 => exact isWord_of (fun s => exec_imadwN32 _ _ _ _ _ s)
  | shlD a0 a1 a2 a3 a4 => exact isWord_of (fun s => exec_shlD _ _ _ _ _ s)
  | shrD a0 a1 a2 a3 a4 => exact isWord_of (fun s => exec_shrD _ _ _ _ _ s)
  | sarD a0 a1 a2 a3 a4 => exact isWord_of (fun s => exec_sarD _ _ _ _ _ s)
  | and a0 a1 a2 a3 a4 => exact isWord_of (fun s => exec_and _ _ _ _ _ s)
  | or a0 a1 a2 a3 a4 => exact isWord_of (fun s => exec_or _ _ _ _ _ s)
  | xor a0 a1 a2 a3 a4 => exact isWord_of (fun s => exec_xor _ _ _ _ _ s)
  | andn a0 a1 a2 a3 a4 => exact isWord_of (fun s => exec_andn _ _ _ _ _ s)
  | orn a0 a1 a2 a3 a4 => exact isWord_of (fun s => exec_orn _ _ _ _ _ s)
  | xnor a0 a1 a2 a3 a4 => exact isWord_of (fun s => exec_xnor _ _ _ _ _ s)
  | not a0 a1 a2 a3 => exact isWord_of (fun s => exec_not _ _ _ _ s)
  | mov a0 a1 a2 a3 => exact isWord_of (fun s => exec_mov _ _ _ _ s)
  | shl a0 a1 a2 a3 a4 => exact isWord_of (fun s => exec_shl _ _ _ _ _ s)
  | shr a0 a1 a2 a3 a4 => exact isWord_of (fun s => exec_shr _ _ _ _ _ s)
  | sar a0 a1 a2 a3 a4 => exact isWord_of (fun s => exec_sar _ _ _ _ _ s)
  | rotl a0 a1 a2 a3 a4 => exact isWord_of (fun s => exec_rotl _ _ _ _ _ s)
  | popc a0 a1 a2 a3 => exact isWord_of (fun s => exec_popc _ _ _ _ s)
  | clz a0 a1 a2 a3 => exact isWord_of (fun s => exec_clz _ _ _ _ s)
  | brev a0 a1 a2 a3 => exact isWord_of (fun s => exec_brev _ _ _ _ s)
  | ffs a0 a1 a2 a3 => exact isWord_of (fun s => exec_ffs _ _ _ _ s)
  | bfxS32 a0 a1 a2 a3 a4 => exact isWord_of (fun s => exec_bfxS32 _ _ _ _ _ s)
  | bfxN32 a0 a1 a2 a3 a4 => exact isWord_of (fun s => exec_bfxN32 _ _ _ _ _ s)
  | bfi a0 a1 a2 a3 a4 => exact isWord_of (fun s => exec_bfi _ _ _ _ _ s)
  | perm a0 a1 a2 a3 a4 => exact isWord_of (fun s => exec_perm _ _ _ _ _ s)
  | shf a0 a1 a2 a3 a4 => exact isWord_of (fun s => exec_shf _ _ _ _ _ s)
  | iaddsS32 a0 a1 a2 a3 a4 => exact isWord_of (fun s => exec_iaddsS32 _ _ _ _ _ s)
  | isubsS32 a0 a1 a2 a3 a4 => exact isWord_of (fun s => exec_isubsS32 _ _ _ _ _ s)
  | iaddsN32 a0 a1 a2 a3 a4 => exact isWord_of (fun s => exec_iaddsN32 _ _ _ _ _ s)
  | iaddi a0 a1 a2 a3 a4 => exact isWord_of (fun s => exec_iaddi _ _ _ _ _ s)
  | andi a0 a1 a2 a3 a4 => exact isWord_of (fun s => exec_andi _ _ _ _ _ s)
  | ori a0 a1 a2 a3 a4 => exact isWord_of (fun s => exec_ori _ _ _ _ _ s)
  | xori a0 a1 a2 a3 a4 => exact isWord_of (fun s => exec_xori _ _ _ _ _ s)
  | shfi a0 a1 a2 a3 a4 a5 => exact isWord_of (fun s => exec_shfi _ _ _ _ _ _ s)
  | imuli a0 a1 a2 a3 a4 => exact isWord_of (fun s => exec_imuli _ _ _ _ _ s)
  | leai a0 a1 a2 a3 a4 => exact isWord_of (fun s => exec_leai _ _ _ _ _ s)
  | movi a0 a1 a2 a3 => exact isWord_of (fun s => exec_movi _ _ _ _ s)
  | movhi a0 a1 a2 a3 => exact isWord_of (fun s => exec_movhi _ _ _ _ s)
  | kld a0 a1 a2 a3 => exact isWord_of (fun s => exec_kld _ _ _ _ s)
  | isetp a0 a1 a2 a3 a4 a5 a6 => exact isWord_of (fun s => exec_isetp _ _ _ _ _ _ _ s)
  | fsetp a0 a1 a2 a3 a4 a5 a6 => exact isWord_of (fun s => exec_fsetp _ _ _ _ _ _ _ s)
  | pand a0 a1 a2 a3 a4 => exact isWord_of (fun s => exec_pand _ _ _ _ _ s)
  | por a0 a1 a2 a3 a4 => exact isWord_of (fun s => exec_por _ _ _ _ _ s)
  | pxor a0 a1 a2 a3 a4 => exact isWord_of (fun s => exec_pxor _ _ _ _ _ s)
  | pnot a0 a1 a2 a3 => exact isWord_of (fun s => exec_pnot _ _ _ _ s)
  | p2v a0 a1 a2 => exact isWord_of (fun s => exec_p2v _ _ _ s)
  | v2p a0 a1 a2 => exact isWord_of (fun s => exec_v2p _ _ _ s)
  | pset a0 a1 a2 a3 => exact isWord_of (fun s => exec_pset _ _ _ _ s)
  | selp a0 a1 a2 a3 a4 a5 => exact isWord_of (fun s => exec_selp _ _ _ _ _ _ s)
  | mand a0 a1 a2 a3 a4 => exact isWord_of (fun s => exec_mand _ _ _ _ _ s)
  | mor a0 a1 a2 a3 a4 => exact isWord_of (fun s => exec_mor _ _ _ _ _ s)
  | mxor a0 a1 a2 a3 a4 => exact isWord_of (fun s => exec_mxor _ _ _ _ _ s)
  | mnot a0 a1 a2 a3 => exact isWord_of (fun s => exec_mnot _ _ _ _ s)
  | mfromv a0 a1 a2 a3 => exact isWord_of (fun s => exec_mfromv _ _ _ _ s)
  | mtov a0 a1 a2 a3 => exact isWord_of (fun s => exec_mtov _ _ _ _ s)
  | mpopc a0 a1 a2 a3 => exact isWord_of (fun s => exec_mpopc _ _ _ _ s)
  | mself a0 a1 a2 => exact isWord_of (fun s => exec_mself _ _ _ s)
  | fadd a0 a1 a2 a3 a4 => exact isWord_of (fun s => exec_fadd _ _ _ _ _ s)
  | fsub a0 a1 a2 a3 a4 => exact isWord_of (fun s => exec_fsub _ _ _ _ _ s)
  | fmul a0 a1 a2 a3 a4 => exact isWord_of (fun s => exec_fmul _ _ _ _ _ s)
  | fmin a0 a1 a2 a3 a4 => exact isWord_of (fun s => exec_fmin _ _ _ _ _ s)
  | fmax a0 a1 a2 a3 a4 => exact isWord_of (fun s => exec_fmax _ _ _ _ _ s)
  | fabs a0 a1 a2 a3 => exact isWord_of (fun s => exec_fabs _ _ _ _ s)
  | fneg a0 a1 a2 a3 => exact isWord_of (fun s => exec_fneg _ _ _ _ s)
  | fcpsgn a0 a1 a2 a3 a4 => exact isWord_of (fun s => exec_fcpsgn _ _ _ _ _ s)
  | fma a0 a1 a2 a3 a4 => exact isWord_of (fun s => exec_fma _ _ _ _ _ s)
  | fms a0 a1 a2 a3 a4 => exact isWord_of (fun s => exec_fms _ _ _ _ _ s)
  | fnma a0 a1 a2 a3 a4 => exact isWord_of (fun s => exec_fnma _ _ _ _ _ s)
  | fnms a0 a1 a2 a3 a4 => exact isWord_of (fun s => exec_fnms _ _ _ _ _ s)
  | frcp a0 a1 a2 a3 => exact isWord_of (fun s => exec_frcp _ _ _ _ s)
  | frsq a0 a1 a2 a3 => exact isWord_of (fun s => exec_frsq _ _ _ _ s)
  | fsqrta a0 a1 a2 a3 => exact isWord_of (fun s => exec_fsqrta _ _ _ _ s)
  | fex2 a0 a1 a2 a3 => exact isWord_of (fun s => exec_fex2 _ _ _ _ s)
  | flg2 a0 a1 a2 a3 => exact isWord_of (fun s => exec_flg2 _ _ _ _ s)
  | fsinp a0 a1 a2 a3 => exact isWord_of (fun s => exec_fsinp _ _ _ _ s)
  | fcosp a0 a1 a2 a3 => exact isWord_of (fun s => exec_fcosp _ _ _ _ s)
  | ftanh a0 a1 a2 a3 => exact isWord_of (fun s => exec_ftanh _ _ _ _ s)
  | fdiv a0 a1 a2 a3 a4 => exact isWord_of (fun s => exec_fdiv _ _ _ _ _ s)
  | fsqrt a0 a1 a2 a3 => exact isWord_of (fun s => exec_fsqrt _ _ _ _ s)
  | frintRn a0 a1 a2 a3 => exact isWord_of (fun s => exec_frintRn _ _ _ _ s)
  | frintRz a0 a1 a2 a3 => exact isWord_of (fun s => exec_frintRz _ _ _ _ s)
  | frintRd a0 a1 a2 a3 => exact isWord_of (fun s => exec_frintRd _ _ _ _ s)
  | frintRu a0 a1 a2 a3 => exact isWord_of (fun s => exec_frintRu _ _ _ _ s)
  | fclass a0 a1 a2 a3 => exact isWord_of (fun s => exec_fclass _ _ _ _ s)
  | fscalb a0 a1 a2 a3 a4 => exact isWord_of (fun s => exec_fscalb _ _ _ _ _ s)
  | cvt a0 a1 a2 a3 a4 a5 a6 => exact isWord_of (fun s => exec_cvt _ _ _ _ _ _ _ s)
  | pkbf a0 a1 a2 a3 a4 => exact isWord_of (fun s => exec_pkbf _ _ _ _ _ s)
  | pke4Lo a0 a1 a2 a3 a4 => exact isWord_of (fun s => exec_pke4Lo _ _ _ _ _ s)
  | pke4Hi a0 a1 a2 a3 a4 => exact isWord_of (fun s => exec_pke4Hi _ _ _ _ _ s)
  | pke5Lo a0 a1 a2 a3 a4 => exact isWord_of (fun s => exec_pke5Lo _ _ _ _ _ s)
  | pke5Hi a0 a1 a2 a3 a4 => exact isWord_of (fun s => exec_pke5Hi _ _ _ _ _ s)
  | pkpsLo a0 a1 a2 a3 a4 => exact isWord_of (fun s => exec_pkpsLo _ _ _ _ _ s)
  | pkpsHi a0 a1 a2 a3 a4 => exact isWord_of (fun s => exec_pkpsHi _ _ _ _ _ s)
  | unpk a0 a1 a2 a3 a4 => exact isWord_of (fun s => exec_unpk _ _ _ _ _ s)
  | dot2Bf16 a0 a1 a2 a3 a4 => exact isWord_of (fun s => exec_dot2Bf16 _ _ _ _ _ s)
  | dot4E4m3 a0 a1 a2 a3 a4 => exact isWord_of (fun s => exec_dot4E4m3 _ _ _ _ _ s)
  | dot4E5m2 a0 a1 a2 a3 a4 => exact isWord_of (fun s => exec_dot4E5m2 _ _ _ _ _ s)
  | dot4Ps8 a0 a1 a2 a3 a4 => exact isWord_of (fun s => exec_dot4Ps8 _ _ _ _ _ s)
  | dot4S8 a0 a1 a2 a3 a4 => exact isWord_of (fun s => exec_dot4S8 _ _ _ _ _ s)
  | dot4N8 a0 a1 a2 a3 a4 => exact isWord_of (fun s => exec_dot4N8 _ _ _ _ _ s)
  | hadd2Bf16 a0 a1 a2 a3 a4 => exact isWord_of (fun s => exec_hadd2Bf16 _ _ _ _ _ s)
  | hmul2Bf16 a0 a1 a2 a3 a4 => exact isWord_of (fun s => exec_hmul2Bf16 _ _ _ _ _ s)
  | brm a0 a1 a2 a3 a4 a5 a6 => exact isWord_jump (fun s => exec_brm _ _ _ _ _ _ _ s)
  | tgt a0 a1 => exact isWord_of (fun s => exec_tgt _ _ s)
  | jmp a0 a1 => exact isWord_jump (fun s => exec_jmp _ _ s)
  | call a0 a1 a2 => exact isWord_jump (fun s => exec_call _ _ _ s)
  | jmpr a0 => exact isWord_jump (fun s => exec_jmpr _ s)
  | callr a0 a1 => exact isWord_jump (fun s => exec_callr _ _ s)
  | ret a0 => exact isWord_jump (fun s => exec_ret _ s)
  | exit => exact isWord_jump (fun s => exec_exit s)
  | spawn a0 a1 a2 a3 => exact isWord_of (fun s => exec_spawn _ _ _ _ s)
  | spawnf a0 a1 a2 a3 => exact isWord_of (fun s => exec_spawnf _ _ _ _ s)
  | trap a0 a1 => exact isWord_jump (fun s => exec_trap _ _ s)
  | bkpt a0 => exact isWord_of (fun s => exec_bkpt _ s)
  | nop a0 => exact isWord_of (fun s => exec_nop _ s)
  | pause a0 a1 => exact isWord_of (fun s => exec_pause _ _ s)
  | yield a0 => exact isWord_of (fun s => exec_yield _ s)
  | ffence a0 => exact isWord_of (fun s => exec_ffence _ s)
  | clkrd a0 a1 => exact isWord_of (fun s => exec_clkrd _ _ s)
  | renew a0 a1 => exact isWord_of (fun s => exec_renew _ _ s)
  | resume a0 => exact isWord_jump (fun s => exec_resume _ s)
  | shflIdx a0 a1 a2 a3 => exact isWord_of (fun s => exec_shflIdx _ _ _ _ s)
  | shflXor a0 a1 a2 a3 => exact isWord_of (fun s => exec_shflXor _ _ _ _ s)
  | shflUp a0 a1 a2 a3 => exact isWord_of (fun s => exec_shflUp _ _ _ _ s)
  | shflDn a0 a1 a2 a3 => exact isWord_of (fun s => exec_shflDn _ _ _ _ s)
  | voteAll a0 a1 a2 a3 a4 => exact isWord_of (fun s => exec_voteAll _ _ _ _ _ s)
  | voteAny a0 a1 a2 a3 a4 => exact isWord_of (fun s => exec_voteAny _ _ _ _ _ s)
  | ballot a0 a1 a2 a3 a4 => exact isWord_of (fun s => exec_ballot _ _ _ _ _ s)
  | matchLanes a0 a1 a2 a3 => exact isWord_of (fun s => exec_matchLanes _ _ _ _ s)
  | radd a0 a1 a2 a3 => exact isWord_of (fun s => exec_radd _ _ _ _ s)
  | rminS32 a0 a1 a2 a3 => exact isWord_of (fun s => exec_rminS32 _ _ _ _ s)
  | rmaxS32 a0 a1 a2 a3 => exact isWord_of (fun s => exec_rmaxS32 _ _ _ _ s)
  | rand a0 a1 a2 a3 => exact isWord_of (fun s => exec_rand _ _ _ _ s)
  | ror a0 a1 a2 a3 => exact isWord_of (fun s => exec_ror _ _ _ _ s)
  | rxor a0 a1 a2 a3 => exact isWord_of (fun s => exec_rxor _ _ _ _ s)
  | rfadd a0 a1 a2 a3 => exact isWord_of (fun s => exec_rfadd _ _ _ _ s)
  | rminN32 a0 a1 a2 a3 => exact isWord_of (fun s => exec_rminN32 _ _ _ _ s)
  | barSync a0 a1 => exact isWord_of (fun s => exec_barSync _ _ s)
  | barArv a0 a1 a2 => exact isWord_of (fun s => exec_barArv _ _ _ s)
  | barWait a0 a1 a2 => exact isWord_of (fun s => exec_barWait _ _ _ s)
  | barClu a0 => exact isWord_of (fun s => exec_barClu _ s)
  | barGrid a0 => exact isWord_of (fun s => exec_barGrid _ s)
  | gsync a0 a1 => exact isWord_of (fun s => exec_gsync _ _ s)
  | barTest a0 a1 a2 => exact isWord_of (fun s => exec_barTest _ _ _ s)
  | barSet a0 a1 a2 => exact isWord_of (fun s => exec_barSet _ _ _ s)
  | waitNe a0 a1 a2 a3 => exact isWord_of (fun s => exec_waitNe _ _ _ _ s)
  | waitEq a0 a1 a2 a3 => exact isWord_of (fun s => exec_waitEq _ _ _ _ s)
  | waitGe a0 a1 a2 a3 => exact isWord_of (fun s => exec_waitGe _ _ _ _ s)
  | watch a0 a1 a2 => exact isWord_of (fun s => exec_watch _ _ _ s)
  | unwatch a0 a1 => exact isWord_of (fun s => exec_unwatch _ _ s)
  | wake a0 a1 => exact isWord_of (fun s => exec_wake _ _ s)
  | ld a0 a1 a2 a3 a4 a5 a6 => exact isWord_of (fun s => exec_ld _ _ _ _ _ _ _ s)
  | st a0 a1 a2 a3 a4 a5 a6 => exact isWord_of (fun s => exec_st _ _ _ _ _ _ _ s)
  | lds a0 a1 a2 a3 a4 a5 a6 => exact isWord_of (fun s => exec_lds _ _ _ _ _ _ _ s)
  | sts a0 a1 a2 a3 a4 a5 a6 => exact isWord_of (fun s => exec_sts _ _ _ _ _ _ _ s)
  | ldf a0 a1 a2 a3 a4 a5 a6 => exact isWord_of (fun s => exec_ldf _ _ _ _ _ _ _ s)
  | atomAdd a0 a1 a2 a3 a4 a5 a6 a7 => exact isWord_of (fun s => exec_atomAdd _ _ _ _ _ _ _ _ s)
  | atomMinS32 a0 a1 a2 a3 a4 a5 a6 a7 => exact isWord_of (fun s => exec_atomMinS32 _ _ _ _ _ _ _ _ s)
  | atomMaxS32 a0 a1 a2 a3 a4 a5 a6 a7 => exact isWord_of (fun s => exec_atomMaxS32 _ _ _ _ _ _ _ _ s)
  | atomMinN32 a0 a1 a2 a3 a4 a5 a6 a7 => exact isWord_of (fun s => exec_atomMinN32 _ _ _ _ _ _ _ _ s)
  | atomMaxN32 a0 a1 a2 a3 a4 a5 a6 a7 => exact isWord_of (fun s => exec_atomMaxN32 _ _ _ _ _ _ _ _ s)
  | atomAnd a0 a1 a2 a3 a4 a5 a6 a7 => exact isWord_of (fun s => exec_atomAnd _ _ _ _ _ _ _ _ s)
  | atomOr a0 a1 a2 a3 a4 a5 a6 a7 => exact isWord_of (fun s => exec_atomOr _ _ _ _ _ _ _ _ s)
  | atomXor a0 a1 a2 a3 a4 a5 a6 a7 => exact isWord_of (fun s => exec_atomXor _ _ _ _ _ _ _ _ s)
  | atomxXchg a0 a1 a2 a3 a4 a5 a6 a7 => exact isWord_of (fun s => exec_atomxXchg _ _ _ _ _ _ _ _ s)
  | atomxCas a0 a1 a2 a3 a4 a5 a6 a7 => exact isWord_of (fun s => exec_atomxCas _ _ _ _ _ _ _ _ s)
  | atomxIncw a0 a1 a2 a3 a4 a5 a6 a7 => exact isWord_of (fun s => exec_atomxIncw _ _ _ _ _ _ _ _ s)
  | atomxDecw a0 a1 a2 a3 a4 a5 a6 a7 => exact isWord_of (fun s => exec_atomxDecw _ _ _ _ _ _ _ _ s)
  | atomxFaddF32 a0 a1 a2 a3 a4 a5 a6 => exact isWord_of (fun s => exec_atomxFaddF32 _ _ _ _ _ _ _ s)
  | atomxFminF32 a0 a1 a2 a3 a4 a5 a6 => exact isWord_of (fun s => exec_atomxFminF32 _ _ _ _ _ _ _ s)
  | atomxFmaxF32 a0 a1 a2 a3 a4 a5 a6 => exact isWord_of (fun s => exec_atomxFmaxF32 _ _ _ _ _ _ _ s)
  | lda a0 a1 a2 a3 a4 a5 => exact isWord_of (fun s => exec_lda _ _ _ _ _ _ s)
  | stl a0 a1 a2 a3 a4 a5 => exact isWord_of (fun s => exec_stl _ _ _ _ _ _ s)
  | fence a0 a1 a2 a3 => exact isWord_of (fun s => exec_fence _ _ _ _ s)
  | fenceSc a0 a1 a2 => exact isWord_of (fun s => exec_fenceSc _ _ _ s)
  | ldap a0 a1 a2 a3 a4 a5 => exact isWord_of (fun s => exec_ldap _ _ _ _ _ _ s)
  | atomp a0 a1 a2 a3 a4 a5 a6 a7 => exact isWord_of (fun s => exec_atomp _ _ _ _ _ _ _ _ s)
  | pref a0 a1 a2 a3 => exact isWord_of (fun s => exec_pref _ _ _ _ s)
  | flush a0 a1 a2 => exact isWord_of (fun s => exec_flush _ _ _ s)
  | inval a0 a1 a2 => exact isWord_of (fun s => exec_inval _ _ _ s)
  | stashMap a0 a1 a2 a3 => exact isWord_of (fun s => exec_stashMap _ _ _ _ s)
  | stashWb a0 a1 => exact isWord_of (fun s => exec_stashWb _ _ s)
  | stashDrop a0 a1 => exact isWord_of (fun s => exec_stashDrop _ _ s)
  | cpyG2s a0 a1 a2 a3 => exact isWord_of (fun s => exec_cpyG2s _ _ _ _ s)
  | cpyS2g a0 a1 a2 a3 => exact isWord_of (fun s => exec_cpyS2g _ _ _ _ s)
  | cpyG2g a0 a1 a2 a3 => exact isWord_of (fun s => exec_cpyG2g _ _ _ _ s)
  | cpyS2s a0 a1 a2 a3 => exact isWord_of (fun s => exec_cpyS2s _ _ _ _ s)
  | cpyFlag a0 a1 a2 => exact isWord_of (fun s => exec_cpyFlag _ _ _ s)
  | cpyCommit a0 a1 a2 => exact isWord_of (fun s => exec_cpyCommit _ _ _ s)
  | htest a0 a1 a2 => exact isWord_of (fun s => exec_htest _ _ _ s)
  | hcancel a0 a1 => exact isWord_of (fun s => exec_hcancel _ _ s)
  | hwait a0 a1 => exact isWord_of (fun s => exec_hwait _ _ s)
  | cntrd a0 a1 => exact isWord_of (fun s => exec_cntrd _ _ s)
  | waitc a0 a1 a2 a3 a4 => exact isWord_of (fun s => exec_waitc _ _ _ _ _ s)
  | mxIssue a0 a1 a2 => exact isWord_of (fun s => exec_mxIssue _ _ _ s)
  | mxReady a0 a1 a2 a3 => exact isWord_of (fun s => exec_mxReady _ _ _ _ s)
  | mxCancel a0 => exact isWord_of (fun s => exec_mxCancel _ s)
  | mxQuiesce a0 => exact isWord_of (fun s => exec_mxQuiesce _ s)
  | plZero a0 a1 a2 => exact isWord_of (fun s => exec_plZero _ _ _ s)
  | plClaim a0 a1 a2 => exact isWord_of (fun s => exec_plClaim _ _ _ s)
  | plFree a0 a1 => exact isWord_of (fun s => exec_plFree _ _ s)
  | plLd a0 a1 a2 a3 => exact isWord_of (fun s => exec_plLd _ _ _ _ s)
  | plSt a0 a1 a2 => exact isWord_of (fun s => exec_plSt _ _ _ s)
  | plRd a0 a1 a2 a3 => exact isWord_of (fun s => exec_plRd _ _ _ _ s)
  | plWr a0 a1 a2 a3 => exact isWord_of (fun s => exec_plWr _ _ _ _ s)
  | plScale a0 a1 a2 => exact isWord_of (fun s => exec_plScale _ _ _ s)
  | plSave a0 a1 => exact isWord_of (fun s => exec_plSave _ _ s)
  | plRst a0 a1 => exact isWord_of (fun s => exec_plRst _ _ s)
  | tld a0 a1 a2 a3 => exact isWord_of (fun s => exec_tld _ _ _ _ s)
  | tst a0 a1 a2 => exact isWord_of (fun s => exec_tst _ _ _ s)
  | tcvt a0 a1 a2 a3 a4 a5 a6 => exact isWord_of (fun s => exec_tcvt _ _ _ _ _ _ _ s)
  | tzero a0 a1 a2 => exact isWord_of (fun s => exec_tzero _ _ _ s)
  | ttrn a0 a1 a2 a3 => exact isWord_of (fun s => exec_ttrn _ _ _ _ s)
  | plwLoop a0 a1 a2 => exact isWord_of (fun s => exec_plwLoop _ _ _ s)
  | plwStrm a0 a1 a2 a3 a4 a5 => exact isWord_of (fun s => exec_plwStrm _ _ _ _ _ _ s)
  | plwGo a0 a1 => exact isWord_of (fun s => exec_plwGo _ _ s)
  | plwStop a0 => exact isWord_of (fun s => exec_plwStop _ s)
  | qpop a0 a1 a2 => exact isWord_of (fun s => exec_qpop _ _ _ s)
  | qpeek a0 a1 a2 => exact isWord_of (fun s => exec_qpeek _ _ _ s)
  | qlen a0 a1 a2 => exact isWord_of (fun s => exec_qlen _ _ _ s)
  | plwStat a0 a1 => exact isWord_of (fun s => exec_plwStat _ _ s)
  | launch a0 a1 a2 a3 => exact isWord_of (fun s => exec_launch _ _ _ _ s)
  | qpush a0 a1 a2 a3 => exact isWord_of (fun s => exec_qpush _ _ _ _ s)
  | kstat a0 a1 a2 => exact isWord_of (fun s => exec_kstat _ _ _ s)
  | qstat a0 a1 a2 => exact isWord_of (fun s => exec_qstat _ _ _ s)
  | srd a0 a1 a2 => exact isWord_of_sys (fun s => exec_srd _ _ _ s) rfl
  | swr a0 a1 a2 => exact isWord_of_sys (fun s => exec_swr _ _ _ s) rfl
  | tret a0 => exact isWord_jump_sys (fun s => exec_tret _ s) rfl
  | ecall a0 a1 a2 => exact isWord_jump_sys (fun s => exec_ecall _ _ _ s) rfl
  | ctxStop a0 a1 => exact isWord_of_sys (fun s => exec_ctxStop _ _ s) rfl
  | ctxSave a0 a1 => exact isWord_of_sys (fun s => exec_ctxSave _ _ s) rfl
  | ctxRst a0 a1 a2 => exact isWord_of_sys (fun s => exec_ctxRst _ _ _ s) rfl
  | preempt a0 a1 a2 => exact isWord_of_sys (fun s => exec_preempt _ _ _ s) rfl
  | ckptMark a0 a1 a2 => exact isWord_of_sys (fun s => exec_ckptMark _ _ _ s) rfl
  | ckptStat a0 a1 => exact isWord_of_sys (fun s => exec_ckptStat _ _ s) rfl
  | patchLoad a0 a1 a2 => exact isWord_of_sys (fun s => exec_patchLoad _ _ _ s) rfl
  | patchArm a0 a1 => exact isWord_of_sys (fun s => exec_patchArm _ _ s) rfl
  | patchDisarm a0 a1 => exact isWord_of_sys (fun s => exec_patchDisarm _ _ s) rfl
  | patchQry a0 a1 a2 => exact isWord_of_sys (fun s => exec_patchQry _ _ _ s) rfl
  | pstateSet a0 a1 a2 => exact isWord_of_sys (fun s => exec_pstateSet _ _ _ s) rfl
  | park a0 a1 => exact isWord_of_sys (fun s => exec_park _ _ s) rfl
  | unpark a0 a1 => exact isWord_of_sys (fun s => exec_unpark _ _ s) rfl
  | errqSet a0 a1 a2 => exact isWord_of_sys (fun s => exec_errqSet _ _ _ s) rfl
  | tlbInv a0 a1 a2 => exact isWord_of_sys (fun s => exec_tlbInv _ _ _ s) rfl
  | fenceTlb a0 => exact isWord_of_sys (fun s => exec_fenceTlb _ s) rfl
  | issueGroup a0 => cases hw
  | penStarved a0 a1 => cases hw
  | pauseExpiry a0 => cases hw
  | yieldEnd a0 => cases hw
  | tick => cases hw
  | rebaseSweep => cases hw
  | rebaseSweepComplete => cases hw
  | loadDataReturn a0 => cases hw
  | renewRequest a0 => cases hw
  | renewReply a0 => cases hw
  | homeStore a0 => cases hw
  | ownedRequest a0 => cases hw
  | homeAtomic a0 => cases hw
  | recallLine a0 => cases hw
  | persistentRequest a0 => cases hw
  | sliceEviction a0 => cases hw
  | hostMemAccess a0 a1 a2 a3 a4 => cases hw
  | backInvalidationResponse a0 => cases hw
  | hostSnoop a0 a1 => cases hw
  | surveyorWalk a0 a1 a2 => cases hw
  | holdLimitExpiry a0 => cases hw
  | pageFaultService a0 a1 => cases hw
  | droverCommand a0 => cases hw
  | migration a0 a1 => cases hw
  | migrationComplete a0 a1 => cases hw
  | farPagePromotion a0 a1 => cases hw
  | pageLeaseEnd a0 => cases hw
  | timeSyncSend => cases hw
  | timeSyncReceive a0 a1 => cases hw
  | syncLossTimeout => cases hw
  | flitReceive a0 a1 a2 a3 => cases hw
  | flitReplay a0 => cases hw
  | trainingSuccess a0 a1 => cases hw
  | trainingTimeout a0 => cases hw
  | trainingRetry a0 => cases hw
  | linkRetrain a0 => cases hw
  | routeFailure a0 => cases hw
  | stewardTake a0 a1 => cases hw
  | queueEnableChange a0 a1 => cases hw
  | dependencesMet a0 => cases hw
  | clusterPlacement => cases hw
  | teamRetirement a0 => cases hw
  | binTimerExpiry a0 a1 => cases hw
  | binLaunch a0 a1 a2 => cases hw
  | barrierTimeout a0 => cases hw
  | waitLimitExpiry a0 => cases hw
  | watchFire a0 => cases hw
  | carterTransferUnit a0 => cases hw
  | copyElement a0 a1 => cases hw
  | batchResolve a0 => cases hw
  | remapWrite a0 a1 => cases hw
  | remapTimeout a0 => cases hw
  | remoteAtomicReply a0 a1 => cases hw
  | ecallAnswer a0 a1 => cases hw
  | pressTileStep a0 a1 => cases hw
  | pressEntryResolve a0 => cases hw
  | quadJoin a0 => cases hw
  | ploughElementRead a0 a1 => cases hw
  | contextQuiescent a0 => cases hw
  | saveComplete a0 => cases hw
  | preemptReport a0 => cases hw
  | moveTransferDone a0 a1 => cases hw
  | automaticMark a0 => cases hw
  | markStagingComplete a0 => cases hw
  | checkpointStream a0 => cases hw
  | checkpointComplete a0 => cases hw
  | copyOnWriteRelease a0 a1 => cases hw
  | scrub a0 a1 a2 => cases hw
  | uncorrectable a0 => cases hw
  | committedEarly a0 => cases hw
  | rollback a0 => cases hw
  | heartbeatLoss a0 => cases hw
  | dieFence a0 => cases hw
  | barnDieFence a0 => cases hw
  | reeveShare a0 a1 a2 a3 a4 => cases hw
  | pstateTransition a0 => cases hw
  | parkComplete a0 => cases hw
  | wakeComplete a0 => cases hw
  | bankReady a0 a1 => cases hw
  | powerOnSelfTest a0 a1 => cases hw
  | patchLoadComplete a0 => cases hw
  | patchArmComplete a0 => cases hw
  | drainComplete a0 => cases hw
  | registerWrite a0 a1 => cases hw
  | pwrceilWrite a0 => cases hw
  | splitWrite a0 => cases hw
  | discovery => cases hw
  | selfTestReport => cases hw
  | memoryReport => cases hw
  | stopCommand => cases hw
  | saveCommand => cases hw
  | resumeCommand => cases hw
  | preEmptCommand => cases hw
  | move => cases hw
  | kill => cases hw
  | release => cases hw
  | contextStatus => cases hw
  | createContext => cases hw
  | loadCodeObject => cases hw
  | setAllowedCoreSet => cases hw
  | writeAContextControlWord => cases hw
  | verifyStencilImage => cases hw
  | enrolOperatorKey => cases hw
  | keyStatus => cases hw
  | portStatus => cases hw
  | fenceScaleUpPort => cases hw
  | unfenceScaleUpPort => cases hw
  | domainConfiguration => cases hw
  | verifyTimeout a0 => cases hw
  | triageTimeout a0 => cases hw
  | unknownMailboxCommand => cases hw
  | standbyFailure => cases hw

end Sys2Proof.Machine
end

