-- ==== Sys2Proof/Laws/Memory.lean ====
section
/-! SUPPORT. Memory by byte: the canonical form is kept by every memory operation, and a byte reads as last written. -/

namespace Sys2Proof.Machine

/-! The canonical form. -/

theorem Memory.wfFrom_mono {m : Memory} {n k : Nat} (h : Memory.wfFrom n m = true) (hk : k ≤ n) : Memory.wfFrom k m = true := by
  cases m with
  | nil => rfl
  | cons p t =>
    obtain ⟨x, y⟩ := p
    simp only [Memory.wfFrom, Bool.and_eq_true, decide_eq_true_eq] at h ⊢
    exact ⟨⟨by omega, h.1.2⟩, h.2⟩

/-- Nothing below the start of a canonical form is listed. -/
theorem Memory.read_below {m : Memory} {n a : Nat} (h : Memory.wfFrom n m = true) (ha : a < n) : Memory.read m a = background := by
  cases m with
  | nil => rfl
  | cons p t =>
    obtain ⟨x, y⟩ := p
    simp only [Memory.wfFrom, Bool.and_eq_true, decide_eq_true_eq] at h
    simp [Memory.read, show a < x by omega]

theorem Memory.wfFrom_write {m : Memory} {n a : Nat} (b : BitVec 8) (h : Memory.wfFrom n m = true) (ha : n ≤ a) :
    Memory.wfFrom n (Memory.write m a b) = true := by
  induction m generalizing n with
  | nil => by_cases hb : b = background <;> simp [Memory.write, Memory.wfFrom, hb, ha]
  | cons p t ih =>
    obtain ⟨x, y⟩ := p
    have h0 := h
    simp only [Memory.wfFrom, Bool.and_eq_true, decide_eq_true_eq] at h
    obtain ⟨⟨hx, hy⟩, ht⟩ := h
    simp only [Memory.write]
    split
    · split
      · exact h0
      · rename_i hb
        simp only [Memory.wfFrom, Bool.and_eq_true, decide_eq_true_eq]
        exact ⟨⟨ha, hb⟩, ⟨by omega, hy⟩, ht⟩
    · split
      · split
        · exact Memory.wfFrom_mono ht (by omega)
        · rename_i h1 h2 hb
          subst h2
          simp only [Memory.wfFrom, Bool.and_eq_true, decide_eq_true_eq]
          exact ⟨⟨ha, hb⟩, ht⟩
      · simp only [Memory.wfFrom, Bool.and_eq_true, decide_eq_true_eq]
        exact ⟨⟨hx, hy⟩, ih ht (by omega)⟩

/-- A write of one byte keeps the canonical form. -/
theorem Memory.wf_write {m : Memory} (a : Nat) (b : BitVec 8) (h : Memory.wf m = true) : Memory.wf (Memory.write m a b) = true :=
  Memory.wfFrom_write b h (Nat.zero_le _)

/-- A write of a number keeps the canonical form. -/
theorem Memory.wf_writeN {m : Memory} (a n v : Nat) (h : Memory.wf m = true) : Memory.wf (Memory.writeN m a n v) = true := by
  induction n generalizing m a v with
  | zero => exact h
  | succ n ih => exact ih _ _ (Memory.wf_write _ _ h)

/-- A write of a list of bytes keeps the canonical form. -/
theorem Memory.wf_writeBytes {m : Memory} (a : Nat) (bs : List (BitVec 8)) (h : Memory.wf m = true) :
    Memory.wf (Memory.writeBytes m a bs) = true := by
  induction bs generalizing m a with
  | nil => exact h
  | cons b bs ih => exact ih _ (Memory.wf_write _ _ h)

theorem Memory.wfFrom_filter {m : Memory} {n : Nat} (f : Nat × BitVec 8 → Bool) (h : Memory.wfFrom n m = true) :
    Memory.wfFrom n (m.filter f) = true := by
  induction m generalizing n with
  | nil => rfl
  | cons p t ih =>
    obtain ⟨x, y⟩ := p
    simp only [Memory.wfFrom, Bool.and_eq_true, decide_eq_true_eq] at h
    obtain ⟨⟨hx, hy⟩, ht⟩ := h
    simp only [List.filter_cons]
    split
    · simp only [Memory.wfFrom, Bool.and_eq_true, decide_eq_true_eq]
      exact ⟨⟨hx, hy⟩, ih ht⟩
    · exact Memory.wfFrom_mono (ih ht) (by omega)

/-- Clearing a range keeps the canonical form. -/
theorem Memory.wf_clear {m : Memory} (lo hi : Nat) (h : Memory.wf m = true) : Memory.wf (Memory.clear m lo hi) = true :=
  Memory.wfFrom_filter _ h

/-- A slice of a memory in canonical form is in canonical form. -/
theorem Memory.wf_slice {m : Memory} (lo hi : Nat) (h : Memory.wf m = true) : Memory.wf (Memory.slice m lo hi) = true :=
  Memory.wfFrom_filter _ h

/-! Reading after writing. -/

theorem Memory.read_write_from {m : Memory} {n a c : Nat} (b : BitVec 8) (h : Memory.wfFrom n m = true) :
    Memory.read (Memory.write m a b) c = if c = a then b else Memory.read m c := by
  induction m generalizing n with
  | nil =>
    by_cases hb : b = background
    · simp [Memory.write, Memory.read, hb]
    · by_cases hc : c = a
      · simp [Memory.write, Memory.read, hb, hc]
      · simp [Memory.write, Memory.read, hb, hc]
  | cons p t ih =>
    obtain ⟨x, y⟩ := p
    simp only [Memory.wfFrom, Bool.and_eq_true, decide_eq_true_eq] at h
    obtain ⟨⟨hx, hy⟩, ht⟩ := h
    simp only [Memory.write]
    split
    · rename_i hax
      by_cases hc : c = a
      · subst hc
        by_cases hb : b = background
        · simp [Memory.read, hb, hax]
        · simp [Memory.read, hb]
      · by_cases hb : b = background
        · simp [hb, hc]
        · simp only [hb, if_false, hc]
          simp only [Memory.read]
          by_cases h1 : c < a
          · simp [h1, show c < x by omega]
          · simp [h1, hc]
    · rename_i hax
      split
      · rename_i hx2
        subst hx2
        by_cases hb : b = background
        · by_cases hc : c = a
          · subst hc
            simp [hb, Memory.read_below ht (Nat.lt_succ_self _)]
          · simp only [hb, if_true, hc, if_false]
            by_cases h1 : c < a
            · simp [Memory.read, h1, Memory.read_below ht (show c < a + 1 by omega)]
            · simp [Memory.read, h1, hc]
        · by_cases hc : c = a
          · subst hc
            simp [hb, Memory.read]
          · simp [hb, Memory.read, hc]
      · rename_i hne
        simp only [Memory.read]
        by_cases h1 : c < x
        · have hc : c ≠ a := by omega
          simp [h1, hc]
        · by_cases h2 : c = x
          · have hc : c ≠ a := by omega
            simp [h2, Ne.symm hne]
          · simp only [h1, h2, if_false]
            exact ih ht

/-- A byte reads as written, and every other byte as before. -/
theorem Memory.read_write {m : Memory} {a c : Nat} (b : BitVec 8) (h : Memory.wf m = true) :
    Memory.read (Memory.write m a b) c = if c = a then b else Memory.read m c :=
  Memory.read_write_from b h

/-- Bytes outside a written range read as before. -/
theorem Memory.read_writeN_other {m : Memory} {a n v c : Nat} (h : Memory.wf m = true) (hc : c < a ∨ a + n ≤ c) :
    Memory.read (Memory.writeN m a n v) c = Memory.read m c := by
  induction n generalizing m a v with
  | zero => rfl
  | succ n ih =>
    rw [Memory.writeN, ih (Memory.wf_write _ _ h) (by omega), Memory.read_write _ h]
    simp [show c ≠ a by omega]

end Sys2Proof.Machine
end

