-- ==== Sys2Proof/Laws/Peek.lean ====
section
/-! SUPPORT. Bytes read through the lines of the homes: a read within a line is a field of its data, and replacing bytes of a line
changes those bytes alone. -/

namespace Sys2Proof.Machine

theorem Memory.readN_lt (m : Memory) (a n : Nat) : Memory.readN m a n < 2 ^ (8 * n) := by
  induction n generalizing a with
  | zero => simp [Memory.readN]
  | succ n ih =>
    have h1 := (Memory.read m a).isLt
    have h2 := ih (a + 1)
    rw [Memory.readN, show 8 * (n + 1) = 8 * n + 8 by ring, pow_add]
    omega

theorem Memory.readN_add (m : Memory) (a k n : Nat) : Memory.readN m a (k + n) = Memory.readN m a k + 2 ^ (8 * k) * Memory.readN m (a + k) n := by
  induction k generalizing a with
  | zero => simp [Memory.readN]
  | succ k ih =>
    rw [show k + 1 + n = (k + n) + 1 by omega, Memory.readN, Memory.readN, ih, show a + 1 + k = a + (k + 1) by omega,
      show 8 * (k + 1) = 8 + 8 * k by ring, pow_add]
    ring

theorem Memory.readN_slice (m : Memory) {a k n w : Nat} (h : k + n ≤ w) :
    Memory.readN m a w / 2 ^ (8 * k) % 2 ^ (8 * n) = Memory.readN m (a + k) n := by
  obtain ⟨r, rfl⟩ := Nat.exists_eq_add_of_le h
  rw [show k + n + r = k + (n + r) by omega, Memory.readN_add, Memory.readN_add m (a + k)]
  have h1 := Memory.readN_lt m a k
  have h2 := Memory.readN_lt m (a + k) n
  rw [Nat.add_mul_div_left _ _ (by positivity), Nat.div_eq_of_lt h1, Nat.zero_add, Nat.add_mul_mod_self_left, Nat.mod_eq_of_lt h2]

theorem peek_eq (e : State) (c : Chip) {p n : Nat} (hn : 0 < n) (h : p % 128 + n ≤ 128) :
    peek e c p n = getBytes (peekLine e c (lineOf p)) (p % 128) n := by
  unfold peek
  split
  · rename_i hh
    have : peekLine e c (lineOf p) = BitVec.ofNat 1024 (Memory.readN e.mem (128 * lineOf p) 128) := by
      simp [peekLine, Chip.line, hh]
    rw [this, getBytes, BitVec.toNat_ofNat, Nat.mod_eq_of_lt (show _ < 2 ^ 1024 from Memory.readN_lt _ _ 128), Memory.readN_slice _ h]
    rw [show 128 * lineOf p + p % 128 = p by unfold lineOf; omega]
  · unfold spanOf
    rw [show (p % 128 + n + 127) / 128 = 1 by omega]
    simp [getBytes, lineOf]

theorem peek_congr {e e' : State} {c c' : Chip} {p n : Nat} (hn : 0 < n) (h : p % 128 + n ≤ 128)
    (hl : peekLine e' c' (lineOf p) = peekLine e c (lineOf p)) : peek e' c' p n = peek e c p n := by
  rw [peek_eq _ _ hn h, peek_eq _ _ hn h, hl]

theorem add_mul_lt_mul {a b x y : Nat} (ha : a < x) (hb : b < y) : a + b * x < x * y := by
  calc a + b * x < x + b * x := by omega
    _ = (b + 1) * x := by ring
    _ ≤ y * x := Nat.mul_le_mul_right _ hb
    _ = x * y := Nat.mul_comm _ _

theorem putBytes_lt {d off size v : Nat} (h : off + size ≤ 128) (hd : d < 2 ^ 1024) :
    d % 2 ^ (8 * off) + (v % 2 ^ (8 * size)) * 2 ^ (8 * off) + d / 2 ^ (8 * (off + size)) * 2 ^ (8 * (off + size)) < 2 ^ 1024 := by
  have e2 : (2:ℕ) ^ (8 * (off + size)) = 2 ^ (8 * off) * 2 ^ (8 * size) := by rw [← pow_add, Nat.mul_add]
  obtain ⟨r, hr⟩ := Nat.exists_eq_add_of_le h
  have e1 : (2:ℕ) ^ 1024 = 2 ^ (8 * (off + size)) * 2 ^ (8 * r) := by
    have := pow_add (2:ℕ) (8 * (off + size)) (8 * r)
    rw [show 8 * (off + size) + 8 * r = 1024 by omega] at this
    exact this
  have h1 := Nat.mod_lt d (show 0 < 2 ^ (8 * off) by positivity)
  have h2 := Nat.mod_lt v (show 0 < 2 ^ (8 * size) by positivity)
  have h3 : d / 2 ^ (8 * (off + size)) < 2 ^ (8 * r) := by
    rw [Nat.div_lt_iff_lt_mul (by positivity), mul_comm, ← e1]; exact hd
  have h4 : d % 2 ^ (8 * off) + (v % 2 ^ (8 * size)) * 2 ^ (8 * off) < 2 ^ (8 * (off + size)) := by
    rw [e2]; exact add_mul_lt_mul h1 h2
  rw [e1]; exact add_mul_lt_mul h4 h3

theorem getBytes_putBytes (d : BitVec 1024) {off size v : Nat} (h : off + size ≤ 128) :
    getBytes (putBytes d off size v) off size = v % 2 ^ (8 * size) := by
  unfold getBytes putBytes
  rw [BitVec.toNat_ofNat, Nat.mod_eq_of_lt (putBytes_lt h d.isLt)]
  generalize d.toNat = n
  have e2 : (2:ℕ) ^ (8 * (off + size)) = 2 ^ (8 * off) * 2 ^ (8 * size) := by rw [← pow_add]; congr 1; omega
  rw [show n % 2 ^ (8 * off) + v % 2 ^ (8 * size) * 2 ^ (8 * off) + n / 2 ^ (8 * (off + size)) * 2 ^ (8 * (off + size)) =
    n % 2 ^ (8 * off) + 2 ^ (8 * off) * (v % 2 ^ (8 * size) + 2 ^ (8 * size) * (n / 2 ^ (8 * (off + size)))) by rw [e2]; ring]
  rw [Nat.add_mul_div_left _ _ (by positivity), Nat.div_eq_of_lt (Nat.mod_lt _ (by positivity)), Nat.zero_add, Nat.add_mul_mod_self_left, Nat.mod_mod]

theorem getBytes_putBytes_other (d : BitVec 1024) {off size v q : Nat} (h : off + size ≤ 128) (hq : q < off ∨ off + size ≤ q) :
    getBytes (putBytes d off size v) q 1 = getBytes d q 1 := by
  unfold getBytes putBytes
  rw [BitVec.toNat_ofNat, Nat.mod_eq_of_lt (putBytes_lt h d.isLt)]
  generalize d.toNat = n
  have e2 : (2:ℕ) ^ (8 * (off + size)) = 2 ^ (8 * off) * 2 ^ (8 * size) := by rw [← pow_add]; congr 1; omega
  rcases hq with hq | hq
  · obtain ⟨r, rfl⟩ := Nat.exists_eq_add_of_le (show q + 1 ≤ off by omega)
    rw [show n % 2 ^ (8 * (q + 1 + r)) + v % 2 ^ (8 * size) * 2 ^ (8 * (q + 1 + r)) + n / 2 ^ (8 * (q + 1 + r + size)) * 2 ^ (8 * (q + 1 + r + size)) =
      n % 2 ^ (8 * (q + 1 + r)) + 2 ^ (8 * (q + 1 + r)) * (v % 2 ^ (8 * size) + 2 ^ (8 * size) * (n / 2 ^ (8 * (q + 1 + r + size)))) by rw [e2]; ring]
    generalize v % 2 ^ (8 * size) + 2 ^ (8 * size) * (n / 2 ^ (8 * (q + 1 + r + size))) = X
    have e3 : (2:ℕ) ^ (8 * (q + 1 + r)) = 2 ^ (8 * q) * (2 ^ (8 * 1) * 2 ^ (8 * r)) := by rw [← pow_add, ← pow_add]; congr 1; omega
    rw [e3, show n % (2 ^ (8 * q) * (2 ^ (8 * 1) * 2 ^ (8 * r))) + 2 ^ (8 * q) * (2 ^ (8 * 1) * 2 ^ (8 * r)) * X =
      n % (2 ^ (8 * q) * (2 ^ (8 * 1) * 2 ^ (8 * r))) + 2 ^ (8 * q) * ((2 ^ (8 * 1) * 2 ^ (8 * r)) * X) by ring]
    rw [Nat.add_mul_div_left _ _ (by positivity), Nat.mod_mul_right_div_self, mul_assoc, Nat.add_mul_mod_self_left, Nat.mod_mul_right_mod]
  · obtain ⟨r, rfl⟩ := Nat.exists_eq_add_of_le hq
    have hlow : n % 2 ^ (8 * off) + v % 2 ^ (8 * size) * 2 ^ (8 * off) < 2 ^ (8 * (off + size)) := by
      have h1 := Nat.mod_lt n (show 0 < 2 ^ (8 * off) by positivity)
      have h2 := Nat.mod_lt v (show 0 < 2 ^ (8 * size) by positivity)
      rw [e2]; exact add_mul_lt_mul h1 h2
    have e3 : (2:ℕ) ^ (8 * (off + size + r)) = 2 ^ (8 * (off + size)) * 2 ^ (8 * r) := by rw [← pow_add]; congr 1; omega
    rw [e3, ← Nat.div_div_eq_div_mul, ← Nat.div_div_eq_div_mul, mul_comm (n / 2 ^ (8 * (off + size))), Nat.add_mul_div_left _ _ (by positivity),
      Nat.div_eq_of_lt hlow, Nat.zero_add]

/-- Two machines read stored times alike. -/
def SameTimes (c d : Chip) : Prop := d.slices = c.slices ∧ d.dies = c.dies ∧ d.timeBase = c.timeBase ∧ d.generation = c.generation

theorem SameTimes.refl (c : Chip) : SameTimes c c := ⟨rfl, rfl, rfl, rfl⟩

theorem SameTimes.trans {a b c : Chip} (h : SameTimes a b) (k : SameTimes b c) : SameTimes a c :=
  ⟨k.1.trans h.1, k.2.1.trans h.2.1, k.2.2.1.trans h.2.2.1, k.2.2.2.trans h.2.2.2⟩

theorem SameTimes.timeOf {c d : Chip} (h : SameTimes c d) : d.timeOf = c.timeOf := by
  funext g t; simp only [Chip.timeOf, h.2.2.1, h.2.2.2]

theorem SameTimes.timed {c d : Chip} (h : SameTimes c d) : d.timed = c.timed := by
  funext l; simp only [Chip.timed, h.timeOf, h.2.2.2]

theorem SameTimes.sliceAt {c d : Chip} (h : SameTimes c d) : d.sliceAt = c.sliceAt := by
  funext k; simp only [Chip.sliceAt, h.1, h.timeOf, h.2.2.1, h.2.2.2]

/-- Machine `d` has the homes and L1s of `c`, but for line `ln`. -/
def SameLines (ln : Nat) (c d : Chip) : Prop :=
  (∀ n, n ≠ ln → Sparse.find? d.home n = Sparse.find? c.home n ∧ ∀ k, d.l1? k n = c.l1? k n) ∧ SameTimes c d

theorem SameLines.refl (ln : Nat) (c : Chip) : SameLines ln c c := ⟨fun _ _ => ⟨rfl, fun _ => rfl⟩, .refl c⟩

theorem SameLines.trans {ln : Nat} {a b c : Chip} (h : SameLines ln a b) (k : SameLines ln b c) : SameLines ln a c :=
  ⟨fun n hn => ⟨(k.1 n hn).1.trans (h.1 n hn).1, fun j => ((k.1 n hn).2 j).trans ((h.1 n hn).2 j)⟩, h.2.trans k.2⟩

theorem sameLines_of {ln : Nat} {c d : Chip} (h1 : d.home = c.home) (h2 : d.cores = c.cores) (h3 : SameTimes c d) : SameLines ln c d :=
  ⟨fun n _ => ⟨by rw [h1], fun k => by simp only [Chip.l1?, Chip.core, h2, h3.timed]⟩, h3⟩

theorem sameLines_setLine (ln : Nat) (c : Chip) (h : HomeLine) : SameLines ln c (c.setLine ln h) :=
  ⟨fun _ hn => ⟨Sparse.find?_set_other _ _ hn, fun _ => rfl⟩, .refl _⟩

theorem Chip.core_setCore (c : Chip) (k j : Nat) (x : Core) : (c.setCore k x).core j = if j = k then x else c.core j := by
  simp [Chip.core, Chip.setCore, Sparse.get_set]

theorem sameLines_setCore {ln k : Nat} {c : Chip} {x : Core} (h : ∀ n, n ≠ ln → Sparse.find? x.l1 n = Sparse.find? (c.core k).l1 n) :
    SameLines ln c (c.setCore k x) := by
  refine ⟨fun n hn => ⟨rfl, fun j => ?_⟩, .refl _⟩
  simp only [Chip.l1?, Chip.core_setCore]
  split
  · rename_i e; subst e; rw [h n hn]; rfl
  · rfl

theorem sameLines_setL1 (ln k : Nat) (c : Chip) (l : L1Line) : SameLines ln c (c.setL1 k ln l) :=
  sameLines_setCore (fun _ hn => Sparse.find?_set_other _ _ hn)

theorem sameLines_clockAdvance (ln k t : Nat) (c : Chip) : SameLines ln c (c.clockAdvance k t) := sameLines_setCore (fun _ _ => rfl)
theorem sameLines_fireGlobal (ln p n : Nat) (c : Chip) : SameLines ln c (c.fireGlobal p n) := sameLines_of rfl rfl (.refl _)
theorem sameLines_noteWrite (ln p n : Nat) (c : Chip) : SameLines ln c (c.noteWrite p n) := sameLines_of rfl rfl (.refl _)
theorem sameLines_setAccess (ln id : Nat) (c : Chip) (a : Access) : SameLines ln c (c.setAccess id a) := sameLines_of rfl rfl (.refl _)

theorem sameLines_clearPending (ln k : Nat) (c : Chip) : SameLines ln c (c.clearPending k ln) := by
  unfold Chip.clearPending
  split
  · exact .refl _ _
  · exact sameLines_setL1 _ _ _ _

theorem sameLines_requeueLine (ln k n : Nat) (c : Chip) : SameLines ln c (c.requeueLine k n) := sameLines_of rfl rfl (.refl _)

theorem sameLines_putHome (c : Chip) (ln p size v t : Nat) (h : HomeLine) : SameLines ln c (putHome c ln p size v t h) :=
  ((sameLines_setLine _ _ _).trans (sameLines_fireGlobal _ _ _ _)).trans (sameLines_noteWrite _ _ _ _)

theorem sameLines_storeReply (e : State) (c : Chip) (k ln : Nat) (ws : BitVec 32) (h : HomeLine) (alloc : Bool) :
    SameLines ln c (storeReply e c k ln ws h alloc) := by
  unfold storeReply
  extract_lets h' take c1
  have h1 : SameLines ln c c1 := sameLines_requeueLine _ _ _ _
  split
  · split
    · exact h1.trans (sameLines_setL1 _ _ _ _)
    · exact h1
  · exact h1.trans (sameLines_setL1 _ _ _ _)

theorem sameLines_homeStore (e : State) (c : Chip) (k p size v : Nat) (kind : BitVec 2) : SameLines (lineOf p) c (homeStore e c k p size v kind) := by
  unfold homeStore
  extract_lets ln h t c1
  have h1 : SameLines ln c c1 := (sameLines_putHome _ _ _ _ _ _ _).trans (sameLines_clockAdvance _ _ _ _)
  split
  · exact h1
  · exact h1.trans (sameLines_storeReply _ _ _ _ _ _ _)

/-- The lines that are the same read the same. -/
theorem SameLines.line {ln : Nat} {c d : Chip} (h : SameLines ln c d) {e e' : State} (hm : e'.mem = e.mem) (hb : e'.board = e.board) {n : Nat} (hn : n ≠ ln) :
    d.line e' n = c.line e n := by
  have hd : d.die = c.die := by funext k; simp only [Chip.die, h.2.2.1]
  have hp : chunkPoison e' d = chunkPoison e c := by funext p; simp only [chunkPoison, hd, hb]
  simp only [Chip.line, (h.1 n hn).1, lostHome, hp, memts, h.2.1, h.2.2.2.1, h.2.2.2.2, h.2.timeOf, h.2.sliceAt, fillPoison, hm]
  rfl

theorem SameLines.peekLine {ln : Nat} {c d : Chip} (h : SameLines ln c d) {e e' : State} (hm : e'.mem = e.mem) (hb : e'.board = e.board) {n : Nat} (hn : n ≠ ln) :
    peekLine e' d n = peekLine e c n := by
  simp only [Machine.peekLine, h.line hm hb hn, (h.1 n hn).2]

/-- A line that is listed has the fields listed, but for its poison, and its times as the current base reads them. -/
theorem Chip.line_of_find {e : State} {c : Chip} {ln : Nat} {h : HomeLine} (hf : Sparse.find? c.home ln = some h) :
    (c.line e ln).data = h.data ∧ (c.line e ln).owner = h.owner ∧ (c.line e ln).owned = h.owned ∧ (c.line e ln).wts = c.timeOf h.gen h.wts ∧
      (c.line e ln).rts = c.timeOf h.gen h.rts ∧ (c.line e ln).state = h.state ∧ (c.line e ln).hshare = h.hshare ∧ (c.line e ln).held = h.held ∧ (c.line e ln).dirty = h.dirty := by
  simp only [Chip.line, hf, and_self]

theorem peekLine_unowned {e : State} {c : Chip} {ln : Nat} (h : (c.line e ln).owner = none) : peekLine e c ln = (c.line e ln).data := by
  simp only [peekLine, h]

/-- Bytes written in an unowned line, every other line being the same: they read as written, and every other byte as before. -/
theorem peek_of_put {e e' : State} {c d : Chip} {p size v : Nat} (hm : e'.mem = e.mem) (hb : e'.board = e.board) (hs : 0 < size) (hp : p % 128 + size ≤ 128)
    (h : SameLines (lineOf p) c d) (ho : (d.line e' (lineOf p)).owner = none) (hc : (c.line e (lineOf p)).owner = none)
    (hd : (d.line e' (lineOf p)).data = putBytes (c.line e (lineOf p)).data (p % 128) size v) :
    peek e' d p size = v % 2 ^ (8 * size) ∧ ∀ q, q < p ∨ p + size ≤ q → peek e' d q 1 = peek e c q 1 := by
  constructor
  · rw [peek_eq _ _ hs hp, peekLine_unowned ho, hd, getBytes_putBytes _ hp]
  · intro q hq
    rw [peek_eq _ _ one_pos (by omega), peek_eq _ _ one_pos (by omega)]
    by_cases hl : lineOf q = lineOf p
    · rw [hl, peekLine_unowned ho, peekLine_unowned hc, hd]
      unfold lineOf at hl
      exact getBytes_putBytes_other _ hp (by omega)
    · rw [h.peekLine hm hb hl]

end Sys2Proof.Machine
end

