-- ==== Sys2Proof/Laws/PerInstr.lean ====
section
/-! SUPPORT. The statements made instruction by instruction. RoundTrip: the word of a well-formed instruction decodes to it; first
what the fields of a word hold, one lemma for each layout of 03 R43. -/

namespace Sys2Proof

theorem bitNat_le (b : Bool) : bitNat b ≤ 1 := by cases b <;> decide

theorem bitAt_of {w n : Nat} {b : Bool} (h : w / 2 ^ n % 2 = bitNat b) : bitAt w n = b := by
  unfold bitAt
  rw [h]
  cases b <;> rfl

theorem bitAt_false_of {w n : Nat} (h : w / 2 ^ n % 2 = 0) : bitAt w n = false := by
  unfold bitAt
  rw [h]
  rfl

theorem fieldBits_of {w lo len : Nat} {x : BitVec len} (h : w / 2 ^ lo % 2 ^ len = x.toNat) : fieldBits w lo len = x := by
  apply BitVec.eq_of_toNat_eq
  simpa [fieldBits, BitVec.toNat_ofNat] using h

theorem decodeWord_of {w : Nat} {i : Instr} (h0 : w < 2 ^ 32) (hd : decodeCore w = .ok i) (he : (endsChain i && bitAt w 31) = false) :
    decodeWord (BitVec.ofNat 32 w) = .ok i := by
  have h : (BitVec.ofNat 32 w).toNat = w := by simpa [BitVec.toNat_ofNat] using Nat.mod_eq_of_lt h0
  simp only [decodeWord, h, hd, he]
  rfl

theorem checked_of {i j : Instr} {r u a z : Bool} (hj : j = i) (hwf : wellFormed i = true) (hr : r = true) (hu : u = true) (ha : a = true)
    (hz : z = true) : checked j r u a z = .ok i := by
  subst hj
  simp only [wellFormed, Bool.and_eq_true, Bool.not_eq_true'] at hwf
  obtain ⟨⟨⟨-, h3⟩, h5⟩, h6⟩ := hwf
  simp [checked, hr, hu, ha, hz, h3, h5, h6]

/-- A number made of fields: position, width, value. -/
def packed : List (Nat × Nat × Nat) → Nat
  | [] => 0
  | (lo, _, v) :: t => v * 2 ^ lo + packed t

/-- Fields in rising order from a position on, each value within its width, all below bit 32. -/
def fits : Nat → List (Nat × Nat × Nat) → Prop
  | p, [] => p ≤ 32
  | p, (lo, len, v) :: t => p ≤ lo ∧ v < 2 ^ len ∧ fits (lo + len) t

theorem fits_le {p k lo len v : Nat} {l : List (Nat × Nat × Nat)} (h : fits p l) (hk : l[k]? = some (lo, len, v)) : p ≤ lo := by
  induction l generalizing p k with
  | nil => simp at hk
  | cons a t ih =>
    obtain ⟨lo', len', v'⟩ := a
    cases k with
    | zero =>
      simp only [List.getElem?_cons_zero, Option.some.injEq, Prod.mk.injEq] at hk
      exact hk.1 ▸ h.1
    | succ k => exact Nat.le_trans (Nat.le_trans h.1 (Nat.le_add_right _ _)) (ih h.2.2 (by simpa using hk))

theorem packed_dvd {p : Nat} {l : List (Nat × Nat × Nat)} (h : fits p l) : 2 ^ p ∣ packed l := by
  induction l generalizing p with
  | nil => exact Nat.dvd_zero _
  | cons a t ih =>
    obtain ⟨lo, len, v⟩ := a
    exact Nat.dvd_add (Nat.dvd_trans (Nat.pow_dvd_pow 2 h.1) (Nat.dvd_mul_left _ _))
      (Nat.dvd_trans (Nat.pow_dvd_pow 2 (by have := h.1; omega)) (ih h.2.2))

theorem packed_lt {p : Nat} {l : List (Nat × Nat × Nat)} (h : fits p l) : packed l < 2 ^ 32 := by
  suffices hs : packed l + 2 ^ p ≤ 2 ^ 32 from Nat.lt_of_lt_of_le (Nat.lt_add_of_pos_right (Nat.two_pow_pos p)) hs
  induction l generalizing p with
  | nil => simpa [packed] using Nat.pow_le_pow_right (by decide) h
  | cons a t ih =>
    obtain ⟨lo, len, v⟩ := a
    have h1 := ih h.2.2
    have h2 : 2 ^ p ≤ 2 ^ lo := Nat.pow_le_pow_right (by decide) h.1
    have h3 : (v + 1) * 2 ^ lo ≤ 2 ^ (lo + len) := by
      rw [Nat.pow_add, Nat.mul_comm]
      exact Nat.mul_le_mul_left _ h.2.1
    rw [Nat.add_mul] at h3
    simp only [packed]
    omega

/-- Each field of a packed number reads as packed. -/
theorem packed_get {p k lo len v : Nat} {l : List (Nat × Nat × Nat)} (h : fits p l) (hk : l[k]? = some (lo, len, v)) :
    packed l / 2 ^ lo % 2 ^ len = v := by
  induction l generalizing p k with
  | nil => simp at hk
  | cons a t ih =>
    obtain ⟨lo', len', v'⟩ := a
    obtain ⟨h1, h2, h3⟩ := h
    obtain ⟨q, hq⟩ := packed_dvd h3
    cases k with
    | zero =>
      simp only [List.getElem?_cons_zero, Option.some.injEq, Prod.mk.injEq] at hk
      obtain ⟨rfl, rfl, rfl⟩ := hk
      rw [packed, hq, Nat.pow_add, Nat.mul_assoc, Nat.mul_comm v', ← Nat.mul_add, Nat.mul_div_cancel_left _ (Nat.two_pow_pos lo'),
        Nat.add_mul_mod_self_left, Nat.mod_eq_of_lt h2]
    | succ k =>
      have hk' : t[k]? = some (lo, len, v) := by simpa using hk
      rw [← ih h3 hk']
      have hle : lo' + len' ≤ lo := fits_le h3 hk'
      congr 1
      obtain ⟨e, rfl⟩ := Nat.exists_eq_add_of_le hle
      have hv : v' * 2 ^ lo' < 2 ^ (lo' + len') := by
        rw [Nat.pow_add, Nat.mul_comm]
        exact Nat.mul_lt_mul_of_pos_left h2 (Nat.two_pow_pos lo')
      rw [packed, Nat.pow_add, ← Nat.div_div_eq_div_mul, ← Nat.div_div_eq_div_mul, hq, Nat.add_mul_div_left _ _ (Nat.two_pow_pos _),
        Nat.div_eq_of_lt hv, Nat.zero_add, Nat.mul_div_cancel_left _ (Nat.two_pow_pos _)]

theorem bitNat_lt (b : Bool) : bitNat b < 2 ^ 1 := by cases b <;> decide

theorem beq_of {n k : Nat} (h : n = k) : (n == k) = true := by simp [h]
theorem band_true_of {a b : Bool} (ha : a = true) (hb : b = true) : (a && b) = true := by rw [ha, hb]; rfl
theorem bnot_true_of {a : Bool} (ha : a = false) : (!a) = true := by rw [ha]; rfl

/-! The majors (03 R50). -/

theorem core01 {w : Nat} (h : fieldNat w 24 6 = 0x01) : decodeCore w = decodeMajor01 w := by rw [decodeCore, h]; rfl
theorem core02 {w : Nat} (h : fieldNat w 24 6 = 0x02) : decodeCore w = decodeMajor02 w := by rw [decodeCore, h]; rfl
theorem core03 {w : Nat} (h : fieldNat w 24 6 = 0x03) : decodeCore w = decodeMajor03 w := by rw [decodeCore, h]; rfl
theorem core04 {w : Nat} (h : fieldNat w 24 6 = 0x04) : decodeCore w = decodeMajor04 w := by rw [decodeCore, h]; rfl
theorem core05 {w : Nat} (h : fieldNat w 24 6 = 0x05) : decodeCore w = decodeMajor05 w := by rw [decodeCore, h]; rfl
theorem core06 {w : Nat} (h : fieldNat w 24 6 = 0x06) : decodeCore w = decodeMajor06 w := by rw [decodeCore, h]; rfl
theorem core08 {w : Nat} (h : fieldNat w 24 6 = 0x08) : decodeCore w = decodeMajor08 w := by rw [decodeCore, h]; rfl
theorem core09 {w : Nat} (h : fieldNat w 24 6 = 0x09) : decodeCore w = decodeMajor09 w := by rw [decodeCore, h]; rfl
theorem core0A {w : Nat} (h : fieldNat w 24 6 = 0x0A) : decodeCore w = decodeMajor0A w := by rw [decodeCore, h]; rfl
theorem core0B {w : Nat} (h : fieldNat w 24 6 = 0x0B) : decodeCore w = decodeMajor0B w := by rw [decodeCore, h]; rfl
theorem core0C {w : Nat} (h : fieldNat w 24 6 = 0x0C) : decodeCore w = decodeMajor0C w := by rw [decodeCore, h]; rfl
theorem core0D {w : Nat} (h : fieldNat w 24 6 = 0x0D) : decodeCore w = decodeMajor0D w := by rw [decodeCore, h]; rfl
theorem core0E {w : Nat} (h : fieldNat w 24 6 = 0x0E) : decodeCore w = decodeMajor0E w := by rw [decodeCore, h]; rfl
theorem core10 {w : Nat} (h : fieldNat w 24 6 = 0x10) : decodeCore w = decodeMajor10 w := by rw [decodeCore, h]; rfl
theorem core11 {w : Nat} (h : fieldNat w 24 6 = 0x11) : decodeCore w = decodeMajor11 w := by rw [decodeCore, h]; rfl
theorem core12 {w : Nat} (h : fieldNat w 24 6 = 0x12) : decodeCore w = decodeMajor12 w := by rw [decodeCore, h]; rfl
theorem core13 {w : Nat} (h : fieldNat w 24 6 = 0x13) : decodeCore w = decodeMajor13 w := by rw [decodeCore, h]; rfl
theorem core14 {w : Nat} (h : fieldNat w 24 6 = 0x14) : decodeCore w = decodeMajor14 w := by rw [decodeCore, h]; rfl
theorem core15 {w : Nat} (h : fieldNat w 24 6 = 0x15) : decodeCore w = decodeMajor15 w := by rw [decodeCore, h]; rfl
theorem core16 {w : Nat} (h : fieldNat w 24 6 = 0x16) : decodeCore w = decodeMajor16 w := by rw [decodeCore, h]; rfl
theorem core17 {w : Nat} (h : fieldNat w 24 6 = 0x17) : decodeCore w = decodeMajor17 w := by rw [decodeCore, h]; rfl
theorem core18 {w : Nat} (h : fieldNat w 24 6 = 0x18) : decodeCore w = decodeMajor18 w := by rw [decodeCore, h]; rfl
theorem core19 {w : Nat} (h : fieldNat w 24 6 = 0x19) : decodeCore w = decodeMajor19 w := by rw [decodeCore, h]; rfl
theorem core1A {w : Nat} (h : fieldNat w 24 6 = 0x1A) : decodeCore w = decodeMajor1A w := by rw [decodeCore, h]; rfl
theorem core1B {w : Nat} (h : fieldNat w 24 6 = 0x1B) : decodeCore w = decodeMajor1B w := by rw [decodeCore, h]; rfl
theorem core1C {w : Nat} (h : fieldNat w 24 6 = 0x1C) : decodeCore w = decodeMajor1C w := by rw [decodeCore, h]; rfl
theorem core1D {w : Nat} (h : fieldNat w 24 6 = 0x1D) : decodeCore w = decodeMajor1D w := by rw [decodeCore, h]; rfl
theorem core1E {w : Nat} (h : fieldNat w 24 6 = 0x1E) : decodeCore w = decodeMajor1E w := by rw [decodeCore, h]; rfl
theorem core20 {w : Nat} (h : fieldNat w 24 6 = 0x20) : decodeCore w = decodeMajor20 w := by rw [decodeCore, h]; rfl
theorem core21 {w : Nat} (h : fieldNat w 24 6 = 0x21) : decodeCore w = decodeMajor21 w := by rw [decodeCore, h]; rfl
theorem core22 {w : Nat} (h : fieldNat w 24 6 = 0x22) : decodeCore w = decodeMajor22 w := by rw [decodeCore, h]; rfl
theorem core23 {w : Nat} (h : fieldNat w 24 6 = 0x23) : decodeCore w = decodeMajor23 w := by rw [decodeCore, h]; rfl
theorem core24 {w : Nat} (h : fieldNat w 24 6 = 0x24) : decodeCore w = decodeMajor24 w := by rw [decodeCore, h]; rfl
theorem core25 {w : Nat} (h : fieldNat w 24 6 = 0x25) : decodeCore w = decodeMajor25 w := by rw [decodeCore, h]; rfl
theorem core26 {w : Nat} (h : fieldNat w 24 6 = 0x26) : decodeCore w = decodeMajor26 w := by rw [decodeCore, h]; rfl
theorem core27 {w : Nat} (h : fieldNat w 24 6 = 0x27) : decodeCore w = decodeMajor27 w := by rw [decodeCore, h]; rfl
theorem core29 {w : Nat} (h : fieldNat w 24 6 = 0x29) : decodeCore w = decodeMajor29 w := by rw [decodeCore, h]; rfl
theorem core2A {w : Nat} (h : fieldNat w 24 6 = 0x2A) : decodeCore w = decodeMajor2A w := by rw [decodeCore, h]; rfl
theorem core2C {w : Nat} (h : fieldNat w 24 6 = 0x2C) : decodeCore w = decodeMajor2C w := by rw [decodeCore, h]; rfl
theorem core2D {w : Nat} (h : fieldNat w 24 6 = 0x2D) : decodeCore w = decodeMajor2D w := by rw [decodeCore, h]; rfl
theorem core2E {w : Nat} (h : fieldNat w 24 6 = 0x2E) : decodeCore w = decodeMajor2E w := by rw [decodeCore, h]; rfl
theorem core2F {w : Nat} (h : fieldNat w 24 6 = 0x2F) : decodeCore w = decodeMajor2F w := by rw [decodeCore, h]; rfl
theorem core30 {w : Nat} (h : fieldNat w 24 6 = 0x30) : decodeCore w = decodeMajor30 w := by rw [decodeCore, h]; rfl
theorem core31 {w : Nat} (h : fieldNat w 24 6 = 0x31) : decodeCore w = decodeMajor31 w := by rw [decodeCore, h]; rfl
theorem core32 {w : Nat} (h : fieldNat w 24 6 = 0x32) : decodeCore w = decodeMajor32 w := by rw [decodeCore, h]; rfl
theorem core33 {w : Nat} (h : fieldNat w 24 6 = 0x33) : decodeCore w = decodeMajor33 w := by rw [decodeCore, h]; rfl
theorem core34 {w : Nat} (h : fieldNat w 24 6 = 0x34) : decodeCore w = decodeMajor34 w := by rw [decodeCore, h]; rfl
theorem core36 {w : Nat} (h : fieldNat w 24 6 = 0x36) : decodeCore w = decodeMajor36 w := by rw [decodeCore, h]; rfl
theorem core37 {w : Nat} (h : fieldNat w 24 6 = 0x37) : decodeCore w = decodeMajor37 w := by rw [decodeCore, h]; rfl
theorem core38 {w : Nat} (h : fieldNat w 24 6 = 0x38) : decodeCore w = decodeMajor38 w := by rw [decodeCore, h]; rfl
theorem core39 {w : Nat} (h : fieldNat w 24 6 = 0x39) : decodeCore w = decodeMajor39 w := by rw [decodeCore, h]; rfl
theorem core3A {w : Nat} (h : fieldNat w 24 6 = 0x3A) : decodeCore w = decodeMajor3A w := by rw [decodeCore, h]; rfl
theorem core3B {w : Nat} (h : fieldNat w 24 6 = 0x3B) : decodeCore w = decodeMajor3B w := by rw [decodeCore, h]; rfl
theorem core3C {w : Nat} (h : fieldNat w 24 6 = 0x3C) : decodeCore w = decodeMajor3C w := by rw [decodeCore, h]; rfl
theorem core3D {w : Nat} (h : fieldNat w 24 6 = 0x3D) : decodeCore w = decodeMajor3D w := by rw [decodeCore, h]; rfl
theorem core3E {w : Nat} (h : fieldNat w 24 6 = 0x3E) : decodeCore w = decodeMajor3E w := by rw [decodeCore, h]; rfl

/-! The layouts. -/

theorem form1 (n m : Nat) (hm : m < 64) (f : Nat) (hf : f < 8) (hn : n = m * 0x1000000 + f * 0x200000) (x0 : Bool) (x1 : Bool) (x2 : BitVec 7) (x3 : BitVec 7) (x4 : BitVec 7) {w : Nat} (hw : w = n + bitNat x0 * 0x80000000 + bitNat x1 * 0x40000000 + x2.toNat * 0x4000 + x3.toNat * 0x80 + x4.toNat) {i : Instr} (he : endsChain i = false)
    (k : ∀ x, fieldNat x 24 6 = m → fieldNat x 21 3 = f → bitAt x 31 = x0 → bitAt x 30 = x1 → fieldBits x 14 7 = x2 → fieldBits x 7 7 = x3 → fieldBits x 0 7 = x4 → decodeCore x = .ok i) : decodeWord (BitVec.ofNat 32 w) = .ok i := by
  have hs : w = packed [(0, 7, x4.toNat), (7, 7, x3.toNat), (14, 7, x2.toNat), (21, 3, f), (24, 6, m), (30, 1, bitNat x1), (31, 1, bitNat x0)] := by rw [hw, hn]; simp only [packed]; omega
  have hk : fits 0 [(0, 7, x4.toNat), (7, 7, x3.toNat), (14, 7, x2.toNat), (21, 3, f), (24, 6, m), (30, 1, bitNat x1), (31, 1, bitNat x0)] := ⟨by decide, x4.isLt, by decide, x3.isLt, by decide, x2.isLt, by decide, hf, by decide, hm, by decide, bitNat_lt x1, by decide, bitNat_lt x0, Nat.le_of_ble_eq_true rfl⟩
  subst hs
  exact decodeWord_of (packed_lt hk) (k _ (packed_get hk (k := 4) rfl) (packed_get hk (k := 3) rfl) (bitAt_of (packed_get hk (k := 6) rfl)) (bitAt_of (packed_get hk (k := 5) rfl)) (fieldBits_of (packed_get hk (k := 2) rfl)) (fieldBits_of (packed_get hk (k := 1) rfl)) (fieldBits_of (packed_get hk (k := 0) rfl))) (by rw [he]; rfl)

theorem form2 (n m : Nat) (hm : m < 64) (f : Nat) (hf : f < 8) (hn : n = m * 0x1000000 + f * 0x200000) (x0 : Bool) (x1 : Bool) (x2 : BitVec 7) (x3 : BitVec 7) {w : Nat} (hw : w = n + bitNat x0 * 0x80000000 + bitNat x1 * 0x40000000 + x2.toNat * 0x4000 + x3.toNat * 0x80) {i : Instr} (he : endsChain i = false)
    (k : ∀ x, fieldNat x 24 6 = m → fieldNat x 21 3 = f → bitAt x 31 = x0 → bitAt x 30 = x1 → fieldBits x 14 7 = x2 → fieldBits x 7 7 = x3 → fieldNat x 0 7 = 0 → decodeCore x = .ok i) : decodeWord (BitVec.ofNat 32 w) = .ok i := by
  have hs : w = packed [(0, 7, 0), (7, 7, x3.toNat), (14, 7, x2.toNat), (21, 3, f), (24, 6, m), (30, 1, bitNat x1), (31, 1, bitNat x0)] := by rw [hw, hn]; simp only [packed]; omega
  have hk : fits 0 [(0, 7, 0), (7, 7, x3.toNat), (14, 7, x2.toNat), (21, 3, f), (24, 6, m), (30, 1, bitNat x1), (31, 1, bitNat x0)] := ⟨by decide, by decide, by decide, x3.isLt, by decide, x2.isLt, by decide, hf, by decide, hm, by decide, bitNat_lt x1, by decide, bitNat_lt x0, Nat.le_of_ble_eq_true rfl⟩
  subst hs
  exact decodeWord_of (packed_lt hk) (k _ (packed_get hk (k := 4) rfl) (packed_get hk (k := 3) rfl) (bitAt_of (packed_get hk (k := 6) rfl)) (bitAt_of (packed_get hk (k := 5) rfl)) (fieldBits_of (packed_get hk (k := 2) rfl)) (fieldBits_of (packed_get hk (k := 1) rfl)) (packed_get hk (k := 0) rfl)) (by rw [he]; rfl)

theorem form3 (n m : Nat) (hm : m < 64) (f : Nat) (hf : f < 8) (hn : n = m * 0x1000000 + f * 0x200000) (x0 : Bool) (x1 : Bool) (x2 : BitVec 6) (x3 : BitVec 6) (x4 : BitVec 6) {w : Nat} (hw : w = n + bitNat x0 * 0x80000000 + bitNat x1 * 0x40000000 + x2.toNat * 0x8000 + x3.toNat * 0x100 + x4.toNat * 0x2) {i : Instr} (he : endsChain i = false)
    (k : ∀ x, fieldNat x 24 6 = m → fieldNat x 21 3 = f → bitAt x 31 = x0 → bitAt x 30 = x1 → fieldBits x 15 6 = x2 → fieldBits x 8 6 = x3 → fieldBits x 1 6 = x4 → fieldNat x 0 1 = 0 → fieldNat x 7 1 = 0 → fieldNat x 14 1 = 0 → decodeCore x = .ok i) : decodeWord (BitVec.ofNat 32 w) = .ok i := by
  have hs : w = packed [(0, 1, 0), (1, 6, x4.toNat), (7, 1, 0), (8, 6, x3.toNat), (14, 1, 0), (15, 6, x2.toNat), (21, 3, f), (24, 6, m), (30, 1, bitNat x1), (31, 1, bitNat x0)] := by rw [hw, hn]; simp only [packed]; omega
  have hk : fits 0 [(0, 1, 0), (1, 6, x4.toNat), (7, 1, 0), (8, 6, x3.toNat), (14, 1, 0), (15, 6, x2.toNat), (21, 3, f), (24, 6, m), (30, 1, bitNat x1), (31, 1, bitNat x0)] := ⟨by decide, by decide, by decide, x4.isLt, by decide, by decide, by decide, x3.isLt, by decide, by decide, by decide, x2.isLt, by decide, hf, by decide, hm, by decide, bitNat_lt x1, by decide, bitNat_lt x0, Nat.le_of_ble_eq_true rfl⟩
  subst hs
  exact decodeWord_of (packed_lt hk) (k _ (packed_get hk (k := 7) rfl) (packed_get hk (k := 6) rfl) (bitAt_of (packed_get hk (k := 9) rfl)) (bitAt_of (packed_get hk (k := 8) rfl)) (fieldBits_of (packed_get hk (k := 5) rfl)) (fieldBits_of (packed_get hk (k := 3) rfl)) (fieldBits_of (packed_get hk (k := 1) rfl)) (packed_get hk (k := 0) rfl) (packed_get hk (k := 2) rfl) (packed_get hk (k := 4) rfl)) (by rw [he]; rfl)

theorem form4 (n m : Nat) (hm : m < 64) (f : Nat) (hf : f < 8) (hn : n = m * 0x1000000 + f * 0x200000) (x0 : Bool) (x1 : Bool) (x2 : BitVec 6) (x3 : BitVec 7) (x4 : BitVec 7) {w : Nat} (hw : w = n + bitNat x0 * 0x80000000 + bitNat x1 * 0x40000000 + x2.toNat * 0x8000 + x3.toNat * 0x80 + x4.toNat) {i : Instr} (he : endsChain i = false)
    (k : ∀ x, fieldNat x 24 6 = m → fieldNat x 21 3 = f → bitAt x 31 = x0 → bitAt x 30 = x1 → fieldBits x 15 6 = x2 → fieldBits x 7 7 = x3 → fieldBits x 0 7 = x4 → fieldNat x 14 1 = 0 → decodeCore x = .ok i) : decodeWord (BitVec.ofNat 32 w) = .ok i := by
  have hs : w = packed [(0, 7, x4.toNat), (7, 7, x3.toNat), (14, 1, 0), (15, 6, x2.toNat), (21, 3, f), (24, 6, m), (30, 1, bitNat x1), (31, 1, bitNat x0)] := by rw [hw, hn]; simp only [packed]; omega
  have hk : fits 0 [(0, 7, x4.toNat), (7, 7, x3.toNat), (14, 1, 0), (15, 6, x2.toNat), (21, 3, f), (24, 6, m), (30, 1, bitNat x1), (31, 1, bitNat x0)] := ⟨by decide, x4.isLt, by decide, x3.isLt, by decide, by decide, by decide, x2.isLt, by decide, hf, by decide, hm, by decide, bitNat_lt x1, by decide, bitNat_lt x0, Nat.le_of_ble_eq_true rfl⟩
  subst hs
  exact decodeWord_of (packed_lt hk) (k _ (packed_get hk (k := 5) rfl) (packed_get hk (k := 4) rfl) (bitAt_of (packed_get hk (k := 7) rfl)) (bitAt_of (packed_get hk (k := 6) rfl)) (fieldBits_of (packed_get hk (k := 3) rfl)) (fieldBits_of (packed_get hk (k := 1) rfl)) (fieldBits_of (packed_get hk (k := 0) rfl)) (packed_get hk (k := 2) rfl)) (by rw [he]; rfl)

theorem form5 (n m : Nat) (hm : m < 64) (f : Nat) (hf : f < 8) (hn : n = m * 0x1000000 + f * 0x200000) (x0 : Bool) (x1 : Bool) (x2 : BitVec 6) (x3 : BitVec 6) (x4 : BitVec 7) {w : Nat} (hw : w = n + bitNat x0 * 0x80000000 + bitNat x1 * 0x40000000 + x2.toNat * 0x8000 + x3.toNat * 0x100 + x4.toNat) {i : Instr} (he : endsChain i = false)
    (k : ∀ x, fieldNat x 24 6 = m → fieldNat x 21 3 = f → bitAt x 31 = x0 → bitAt x 30 = x1 → fieldBits x 15 6 = x2 → fieldBits x 8 6 = x3 → fieldBits x 0 7 = x4 → fieldNat x 7 1 = 0 → fieldNat x 14 1 = 0 → decodeCore x = .ok i) : decodeWord (BitVec.ofNat 32 w) = .ok i := by
  have hs : w = packed [(0, 7, x4.toNat), (7, 1, 0), (8, 6, x3.toNat), (14, 1, 0), (15, 6, x2.toNat), (21, 3, f), (24, 6, m), (30, 1, bitNat x1), (31, 1, bitNat x0)] := by rw [hw, hn]; simp only [packed]; omega
  have hk : fits 0 [(0, 7, x4.toNat), (7, 1, 0), (8, 6, x3.toNat), (14, 1, 0), (15, 6, x2.toNat), (21, 3, f), (24, 6, m), (30, 1, bitNat x1), (31, 1, bitNat x0)] := ⟨by decide, x4.isLt, by decide, by decide, by decide, x3.isLt, by decide, by decide, by decide, x2.isLt, by decide, hf, by decide, hm, by decide, bitNat_lt x1, by decide, bitNat_lt x0, Nat.le_of_ble_eq_true rfl⟩
  subst hs
  exact decodeWord_of (packed_lt hk) (k _ (packed_get hk (k := 6) rfl) (packed_get hk (k := 5) rfl) (bitAt_of (packed_get hk (k := 8) rfl)) (bitAt_of (packed_get hk (k := 7) rfl)) (fieldBits_of (packed_get hk (k := 4) rfl)) (fieldBits_of (packed_get hk (k := 2) rfl)) (fieldBits_of (packed_get hk (k := 0) rfl)) (packed_get hk (k := 1) rfl) (packed_get hk (k := 3) rfl)) (by rw [he]; rfl)

theorem form6 (n m : Nat) (hm : m < 64) (hn : n = m * 0x1000000) (x0 : Bool) (x1 : Bool) (x2 : BitVec 7) (x3 : BitVec 7) (x4 : BitVec 10) {w : Nat} (hw : w = n + bitNat x0 * 0x80000000 + bitNat x1 * 0x40000000 + x2.toNat * 0x20000 + x3.toNat * 0x400 + x4.toNat) {i : Instr} (he : endsChain i = false)
    (k : ∀ x, fieldNat x 24 6 = m → bitAt x 31 = x0 → bitAt x 30 = x1 → fieldBits x 17 7 = x2 → fieldBits x 10 7 = x3 → fieldBits x 0 10 = x4 → decodeCore x = .ok i) : decodeWord (BitVec.ofNat 32 w) = .ok i := by
  have hs : w = packed [(0, 10, x4.toNat), (10, 7, x3.toNat), (17, 7, x2.toNat), (24, 6, m), (30, 1, bitNat x1), (31, 1, bitNat x0)] := by rw [hw, hn]; simp only [packed]; omega
  have hk : fits 0 [(0, 10, x4.toNat), (10, 7, x3.toNat), (17, 7, x2.toNat), (24, 6, m), (30, 1, bitNat x1), (31, 1, bitNat x0)] := ⟨by decide, x4.isLt, by decide, x3.isLt, by decide, x2.isLt, by decide, hm, by decide, bitNat_lt x1, by decide, bitNat_lt x0, Nat.le_of_ble_eq_true rfl⟩
  subst hs
  exact decodeWord_of (packed_lt hk) (k _ (packed_get hk (k := 3) rfl) (bitAt_of (packed_get hk (k := 5) rfl)) (bitAt_of (packed_get hk (k := 4) rfl)) (fieldBits_of (packed_get hk (k := 2) rfl)) (fieldBits_of (packed_get hk (k := 1) rfl)) (fieldBits_of (packed_get hk (k := 0) rfl))) (by rw [he]; rfl)

theorem form7 (n m : Nat) (hm : m < 64) (hn : n = m * 0x1000000) (x0 : Bool) (x1 : Bool) (x2 : BitVec 7) (x3 : BitVec 7) (x4 : BitVec 2) (x5 : BitVec 6) {w : Nat} (hw : w = n + bitNat x0 * 0x80000000 + bitNat x1 * 0x40000000 + x2.toNat * 0x20000 + x3.toNat * 0x400 + x4.toNat * 0x100 + x5.toNat) {i : Instr} (he : endsChain i = false)
    (k : ∀ x, fieldNat x 24 6 = m → bitAt x 31 = x0 → bitAt x 30 = x1 → fieldBits x 17 7 = x2 → fieldBits x 10 7 = x3 → fieldBits x 8 2 = x4 → fieldBits x 0 6 = x5 → fieldNat x 6 2 = 0 → decodeCore x = .ok i) : decodeWord (BitVec.ofNat 32 w) = .ok i := by
  have hs : w = packed [(0, 6, x5.toNat), (6, 2, 0), (8, 2, x4.toNat), (10, 7, x3.toNat), (17, 7, x2.toNat), (24, 6, m), (30, 1, bitNat x1), (31, 1, bitNat x0)] := by rw [hw, hn]; simp only [packed]; omega
  have hk : fits 0 [(0, 6, x5.toNat), (6, 2, 0), (8, 2, x4.toNat), (10, 7, x3.toNat), (17, 7, x2.toNat), (24, 6, m), (30, 1, bitNat x1), (31, 1, bitNat x0)] := ⟨by decide, x5.isLt, by decide, by decide, by decide, x4.isLt, by decide, x3.isLt, by decide, x2.isLt, by decide, hm, by decide, bitNat_lt x1, by decide, bitNat_lt x0, Nat.le_of_ble_eq_true rfl⟩
  subst hs
  exact decodeWord_of (packed_lt hk) (k _ (packed_get hk (k := 5) rfl) (bitAt_of (packed_get hk (k := 7) rfl)) (bitAt_of (packed_get hk (k := 6) rfl)) (fieldBits_of (packed_get hk (k := 4) rfl)) (fieldBits_of (packed_get hk (k := 3) rfl)) (fieldBits_of (packed_get hk (k := 2) rfl)) (fieldBits_of (packed_get hk (k := 0) rfl)) (packed_get hk (k := 1) rfl)) (by rw [he]; rfl)

theorem form8 (n m : Nat) (hm : m < 64) (hn : n = m * 0x1000000) (x0 : Bool) (x1 : Bool) (x2 : BitVec 6) (x3 : BitVec 6) (x4 : BitVec 10) {w : Nat} (hw : w = n + bitNat x0 * 0x80000000 + bitNat x1 * 0x40000000 + x2.toNat * 0x40000 + x3.toNat * 0x800 + x4.toNat) {i : Instr} (he : endsChain i = false)
    (k : ∀ x, fieldNat x 24 6 = m → bitAt x 31 = x0 → bitAt x 30 = x1 → fieldBits x 18 6 = x2 → fieldBits x 11 6 = x3 → fieldBits x 0 10 = x4 → fieldNat x 10 1 = 0 → fieldNat x 17 1 = 0 → decodeCore x = .ok i) : decodeWord (BitVec.ofNat 32 w) = .ok i := by
  have hs : w = packed [(0, 10, x4.toNat), (10, 1, 0), (11, 6, x3.toNat), (17, 1, 0), (18, 6, x2.toNat), (24, 6, m), (30, 1, bitNat x1), (31, 1, bitNat x0)] := by rw [hw, hn]; simp only [packed]; omega
  have hk : fits 0 [(0, 10, x4.toNat), (10, 1, 0), (11, 6, x3.toNat), (17, 1, 0), (18, 6, x2.toNat), (24, 6, m), (30, 1, bitNat x1), (31, 1, bitNat x0)] := ⟨by decide, x4.isLt, by decide, by decide, by decide, x3.isLt, by decide, by decide, by decide, x2.isLt, by decide, hm, by decide, bitNat_lt x1, by decide, bitNat_lt x0, Nat.le_of_ble_eq_true rfl⟩
  subst hs
  exact decodeWord_of (packed_lt hk) (k _ (packed_get hk (k := 5) rfl) (bitAt_of (packed_get hk (k := 7) rfl)) (bitAt_of (packed_get hk (k := 6) rfl)) (fieldBits_of (packed_get hk (k := 4) rfl)) (fieldBits_of (packed_get hk (k := 2) rfl)) (fieldBits_of (packed_get hk (k := 0) rfl)) (packed_get hk (k := 1) rfl) (packed_get hk (k := 3) rfl)) (by rw [he]; rfl)

theorem form9 (n m : Nat) (hm : m < 64) (hn : n = m * 0x1000000) (x0 : Bool) (x1 : Bool) (x2 : BitVec 7) (x3 : BitVec 17) {w : Nat} (hw : w = n + bitNat x0 * 0x80000000 + bitNat x1 * 0x40000000 + x2.toNat * 0x20000 + x3.toNat) {i : Instr} (he : endsChain i = false)
    (k : ∀ x, fieldNat x 24 6 = m → bitAt x 31 = x0 → bitAt x 30 = x1 → fieldBits x 17 7 = x2 → fieldBits x 0 17 = x3 → decodeCore x = .ok i) : decodeWord (BitVec.ofNat 32 w) = .ok i := by
  have hs : w = packed [(0, 17, x3.toNat), (17, 7, x2.toNat), (24, 6, m), (30, 1, bitNat x1), (31, 1, bitNat x0)] := by rw [hw, hn]; simp only [packed]; omega
  have hk : fits 0 [(0, 17, x3.toNat), (17, 7, x2.toNat), (24, 6, m), (30, 1, bitNat x1), (31, 1, bitNat x0)] := ⟨by decide, x3.isLt, by decide, x2.isLt, by decide, hm, by decide, bitNat_lt x1, by decide, bitNat_lt x0, Nat.le_of_ble_eq_true rfl⟩
  subst hs
  exact decodeWord_of (packed_lt hk) (k _ (packed_get hk (k := 2) rfl) (bitAt_of (packed_get hk (k := 4) rfl)) (bitAt_of (packed_get hk (k := 3) rfl)) (fieldBits_of (packed_get hk (k := 1) rfl)) (fieldBits_of (packed_get hk (k := 0) rfl))) (by rw [he]; rfl)

theorem form10 (n m : Nat) (hm : m < 64) (hn : n = m * 0x1000000) (x0 : Bool) (x1 : Bool) (x2 : BitVec 7) (x3 : BitVec 10) {w : Nat} (hw : w = n + bitNat x0 * 0x80000000 + bitNat x1 * 0x40000000 + x2.toNat * 0x20000 + x3.toNat) {i : Instr} (he : endsChain i = false)
    (k : ∀ x, fieldNat x 24 6 = m → bitAt x 31 = x0 → bitAt x 30 = x1 → fieldBits x 17 7 = x2 → fieldBits x 0 10 = x3 → fieldNat x 10 7 = 0 → decodeCore x = .ok i) : decodeWord (BitVec.ofNat 32 w) = .ok i := by
  have hs : w = packed [(0, 10, x3.toNat), (10, 7, 0), (17, 7, x2.toNat), (24, 6, m), (30, 1, bitNat x1), (31, 1, bitNat x0)] := by rw [hw, hn]; simp only [packed]; omega
  have hk : fits 0 [(0, 10, x3.toNat), (10, 7, 0), (17, 7, x2.toNat), (24, 6, m), (30, 1, bitNat x1), (31, 1, bitNat x0)] := ⟨by decide, x3.isLt, by decide, by decide, by decide, x2.isLt, by decide, hm, by decide, bitNat_lt x1, by decide, bitNat_lt x0, Nat.le_of_ble_eq_true rfl⟩
  subst hs
  exact decodeWord_of (packed_lt hk) (k _ (packed_get hk (k := 3) rfl) (bitAt_of (packed_get hk (k := 5) rfl)) (bitAt_of (packed_get hk (k := 4) rfl)) (fieldBits_of (packed_get hk (k := 2) rfl)) (fieldBits_of (packed_get hk (k := 0) rfl)) (packed_get hk (k := 1) rfl)) (by rw [he]; rfl)

theorem form11 (n m : Nat) (hm : m < 64) (hn : n = m * 0x1000000) (x0 : Bool) (x1 : Bool) (x2 : BitVec 3) (x3 : BitVec 2) (x4 : BitVec 3) (x5 : BitVec 7) (x6 : BitVec 7) {w : Nat} (hw : w = n + bitNat x0 * 0x80000000 + bitNat x1 * 0x40000000 + x2.toNat * 0x200000 + x3.toNat * 0x40000 + x4.toNat * 0x4000 + x5.toNat * 0x80 + x6.toNat) {i : Instr} (he : endsChain i = false)
    (k : ∀ x, fieldNat x 24 6 = m → bitAt x 31 = x0 → bitAt x 30 = x1 → fieldBits x 21 3 = x2 → fieldBits x 18 2 = x3 → fieldBits x 14 3 = x4 → fieldBits x 7 7 = x5 → fieldBits x 0 7 = x6 → fieldNat x 17 1 = 0 → fieldNat x 20 1 = 0 → decodeCore x = .ok i) : decodeWord (BitVec.ofNat 32 w) = .ok i := by
  have hs : w = packed [(0, 7, x6.toNat), (7, 7, x5.toNat), (14, 3, x4.toNat), (17, 1, 0), (18, 2, x3.toNat), (20, 1, 0), (21, 3, x2.toNat), (24, 6, m), (30, 1, bitNat x1), (31, 1, bitNat x0)] := by rw [hw, hn]; simp only [packed]; omega
  have hk : fits 0 [(0, 7, x6.toNat), (7, 7, x5.toNat), (14, 3, x4.toNat), (17, 1, 0), (18, 2, x3.toNat), (20, 1, 0), (21, 3, x2.toNat), (24, 6, m), (30, 1, bitNat x1), (31, 1, bitNat x0)] := ⟨by decide, x6.isLt, by decide, x5.isLt, by decide, x4.isLt, by decide, by decide, by decide, x3.isLt, by decide, by decide, by decide, x2.isLt, by decide, hm, by decide, bitNat_lt x1, by decide, bitNat_lt x0, Nat.le_of_ble_eq_true rfl⟩
  subst hs
  exact decodeWord_of (packed_lt hk) (k _ (packed_get hk (k := 7) rfl) (bitAt_of (packed_get hk (k := 9) rfl)) (bitAt_of (packed_get hk (k := 8) rfl)) (fieldBits_of (packed_get hk (k := 6) rfl)) (fieldBits_of (packed_get hk (k := 4) rfl)) (fieldBits_of (packed_get hk (k := 2) rfl)) (fieldBits_of (packed_get hk (k := 1) rfl)) (fieldBits_of (packed_get hk (k := 0) rfl)) (packed_get hk (k := 3) rfl) (packed_get hk (k := 5) rfl)) (by rw [he]; rfl)

theorem form12 (n m : Nat) (hm : m < 64) (f : Nat) (hf : f < 8) (hn : n = m * 0x1000000 + f * 0x200000) (x0 : Bool) (x1 : Bool) (x2 : BitVec 3) (x3 : BitVec 3) (x4 : BitVec 3) {w : Nat} (hw : w = n + bitNat x0 * 0x80000000 + bitNat x1 * 0x40000000 + x2.toNat * 0x4000 + x3.toNat * 0x80 + x4.toNat) {i : Instr} (he : endsChain i = false)
    (k : ∀ x, fieldNat x 24 6 = m → fieldNat x 21 3 = f → bitAt x 31 = x0 → bitAt x 30 = x1 → fieldBits x 14 3 = x2 → fieldBits x 7 3 = x3 → fieldBits x 0 3 = x4 → fieldNat x 3 4 = 0 → fieldNat x 10 4 = 0 → fieldNat x 17 4 = 0 → decodeCore x = .ok i) : decodeWord (BitVec.ofNat 32 w) = .ok i := by
  have hs : w = packed [(0, 3, x4.toNat), (3, 4, 0), (7, 3, x3.toNat), (10, 4, 0), (14, 3, x2.toNat), (17, 4, 0), (21, 3, f), (24, 6, m), (30, 1, bitNat x1), (31, 1, bitNat x0)] := by rw [hw, hn]; simp only [packed]; omega
  have hk : fits 0 [(0, 3, x4.toNat), (3, 4, 0), (7, 3, x3.toNat), (10, 4, 0), (14, 3, x2.toNat), (17, 4, 0), (21, 3, f), (24, 6, m), (30, 1, bitNat x1), (31, 1, bitNat x0)] := ⟨by decide, x4.isLt, by decide, by decide, by decide, x3.isLt, by decide, by decide, by decide, x2.isLt, by decide, by decide, by decide, hf, by decide, hm, by decide, bitNat_lt x1, by decide, bitNat_lt x0, Nat.le_of_ble_eq_true rfl⟩
  subst hs
  exact decodeWord_of (packed_lt hk) (k _ (packed_get hk (k := 7) rfl) (packed_get hk (k := 6) rfl) (bitAt_of (packed_get hk (k := 9) rfl)) (bitAt_of (packed_get hk (k := 8) rfl)) (fieldBits_of (packed_get hk (k := 4) rfl)) (fieldBits_of (packed_get hk (k := 2) rfl)) (fieldBits_of (packed_get hk (k := 0) rfl)) (packed_get hk (k := 1) rfl) (packed_get hk (k := 3) rfl) (packed_get hk (k := 5) rfl)) (by rw [he]; rfl)

theorem form13 (n m : Nat) (hm : m < 64) (f : Nat) (hf : f < 8) (hn : n = m * 0x1000000 + f * 0x200000) (x0 : Bool) (x1 : Bool) (x2 : BitVec 3) (x3 : BitVec 3) {w : Nat} (hw : w = n + bitNat x0 * 0x80000000 + bitNat x1 * 0x40000000 + x2.toNat * 0x4000 + x3.toNat * 0x80) {i : Instr} (he : endsChain i = false)
    (k : ∀ x, fieldNat x 24 6 = m → fieldNat x 21 3 = f → bitAt x 31 = x0 → bitAt x 30 = x1 → fieldBits x 14 3 = x2 → fieldBits x 7 3 = x3 → fieldNat x 0 7 = 0 → fieldNat x 10 4 = 0 → fieldNat x 17 4 = 0 → decodeCore x = .ok i) : decodeWord (BitVec.ofNat 32 w) = .ok i := by
  have hs : w = packed [(0, 7, 0), (7, 3, x3.toNat), (10, 4, 0), (14, 3, x2.toNat), (17, 4, 0), (21, 3, f), (24, 6, m), (30, 1, bitNat x1), (31, 1, bitNat x0)] := by rw [hw, hn]; simp only [packed]; omega
  have hk : fits 0 [(0, 7, 0), (7, 3, x3.toNat), (10, 4, 0), (14, 3, x2.toNat), (17, 4, 0), (21, 3, f), (24, 6, m), (30, 1, bitNat x1), (31, 1, bitNat x0)] := ⟨by decide, by decide, by decide, x3.isLt, by decide, by decide, by decide, x2.isLt, by decide, by decide, by decide, hf, by decide, hm, by decide, bitNat_lt x1, by decide, bitNat_lt x0, Nat.le_of_ble_eq_true rfl⟩
  subst hs
  exact decodeWord_of (packed_lt hk) (k _ (packed_get hk (k := 6) rfl) (packed_get hk (k := 5) rfl) (bitAt_of (packed_get hk (k := 8) rfl)) (bitAt_of (packed_get hk (k := 7) rfl)) (fieldBits_of (packed_get hk (k := 3) rfl)) (fieldBits_of (packed_get hk (k := 1) rfl)) (packed_get hk (k := 0) rfl) (packed_get hk (k := 2) rfl) (packed_get hk (k := 4) rfl)) (by rw [he]; rfl)

theorem form14 (n m : Nat) (hm : m < 64) (f : Nat) (hf : f < 8) (hn : n = m * 0x1000000 + f * 0x200000) (x0 : Bool) (x1 : Bool) (x2 : BitVec 7) {w : Nat} (hw : w = n + bitNat x0 * 0x80000000 + bitNat x1 * 0x40000000 + x2.toNat * 0x4000) {i : Instr} (he : endsChain i = false)
    (k : ∀ x, fieldNat x 24 6 = m → fieldNat x 21 3 = f → bitAt x 31 = x0 → bitAt x 30 = x1 → fieldBits x 14 7 = x2 → fieldNat x 0 14 = 0 → decodeCore x = .ok i) : decodeWord (BitVec.ofNat 32 w) = .ok i := by
  have hs : w = packed [(0, 14, 0), (14, 7, x2.toNat), (21, 3, f), (24, 6, m), (30, 1, bitNat x1), (31, 1, bitNat x0)] := by rw [hw, hn]; simp only [packed]; omega
  have hk : fits 0 [(0, 14, 0), (14, 7, x2.toNat), (21, 3, f), (24, 6, m), (30, 1, bitNat x1), (31, 1, bitNat x0)] := ⟨by decide, by decide, by decide, x2.isLt, by decide, hf, by decide, hm, by decide, bitNat_lt x1, by decide, bitNat_lt x0, Nat.le_of_ble_eq_true rfl⟩
  subst hs
  exact decodeWord_of (packed_lt hk) (k _ (packed_get hk (k := 3) rfl) (packed_get hk (k := 2) rfl) (bitAt_of (packed_get hk (k := 5) rfl)) (bitAt_of (packed_get hk (k := 4) rfl)) (fieldBits_of (packed_get hk (k := 1) rfl)) (packed_get hk (k := 0) rfl)) (by rw [he]; rfl)

theorem form15 (n m : Nat) (hm : m < 64) (f : Nat) (hf : f < 8) (hn : n = m * 0x1000000 + f * 0x200000) (x0 : Bool) (x1 : Bool) (x2 : BitVec 7) {w : Nat} (hw : w = n + bitNat x0 * 0x80000000 + bitNat x1 * 0x40000000 + x2.toNat * 0x80) {i : Instr} (he : endsChain i = false)
    (k : ∀ x, fieldNat x 24 6 = m → fieldNat x 21 3 = f → bitAt x 31 = x0 → bitAt x 30 = x1 → fieldBits x 7 7 = x2 → fieldNat x 0 7 = 0 → fieldNat x 14 7 = 0 → decodeCore x = .ok i) : decodeWord (BitVec.ofNat 32 w) = .ok i := by
  have hs : w = packed [(0, 7, 0), (7, 7, x2.toNat), (14, 7, 0), (21, 3, f), (24, 6, m), (30, 1, bitNat x1), (31, 1, bitNat x0)] := by rw [hw, hn]; simp only [packed]; omega
  have hk : fits 0 [(0, 7, 0), (7, 7, x2.toNat), (14, 7, 0), (21, 3, f), (24, 6, m), (30, 1, bitNat x1), (31, 1, bitNat x0)] := ⟨by decide, by decide, by decide, x2.isLt, by decide, by decide, by decide, hf, by decide, hm, by decide, bitNat_lt x1, by decide, bitNat_lt x0, Nat.le_of_ble_eq_true rfl⟩
  subst hs
  exact decodeWord_of (packed_lt hk) (k _ (packed_get hk (k := 4) rfl) (packed_get hk (k := 3) rfl) (bitAt_of (packed_get hk (k := 6) rfl)) (bitAt_of (packed_get hk (k := 5) rfl)) (fieldBits_of (packed_get hk (k := 1) rfl)) (packed_get hk (k := 0) rfl) (packed_get hk (k := 2) rfl)) (by rw [he]; rfl)

theorem form16 (n m : Nat) (hm : m < 64) (f : Nat) (hf : f < 8) (hn : n = m * 0x1000000 + f * 0x200000) (x0 : Bool) (x1 : Bool) (x2 : BitVec 3) (x3 : BitVec 1) {w : Nat} (hw : w = n + bitNat x0 * 0x80000000 + bitNat x1 * 0x40000000 + x2.toNat * 0x4000 + x3.toNat) {i : Instr} (he : endsChain i = false)
    (k : ∀ x, fieldNat x 24 6 = m → fieldNat x 21 3 = f → bitAt x 31 = x0 → bitAt x 30 = x1 → fieldBits x 14 3 = x2 → fieldBits x 0 1 = x3 → fieldNat x 1 13 = 0 → fieldNat x 17 4 = 0 → decodeCore x = .ok i) : decodeWord (BitVec.ofNat 32 w) = .ok i := by
  have hs : w = packed [(0, 1, x3.toNat), (1, 13, 0), (14, 3, x2.toNat), (17, 4, 0), (21, 3, f), (24, 6, m), (30, 1, bitNat x1), (31, 1, bitNat x0)] := by rw [hw, hn]; simp only [packed]; omega
  have hk : fits 0 [(0, 1, x3.toNat), (1, 13, 0), (14, 3, x2.toNat), (17, 4, 0), (21, 3, f), (24, 6, m), (30, 1, bitNat x1), (31, 1, bitNat x0)] := ⟨by decide, x3.isLt, by decide, by decide, by decide, x2.isLt, by decide, by decide, by decide, hf, by decide, hm, by decide, bitNat_lt x1, by decide, bitNat_lt x0, Nat.le_of_ble_eq_true rfl⟩
  subst hs
  exact decodeWord_of (packed_lt hk) (k _ (packed_get hk (k := 5) rfl) (packed_get hk (k := 4) rfl) (bitAt_of (packed_get hk (k := 7) rfl)) (bitAt_of (packed_get hk (k := 6) rfl)) (fieldBits_of (packed_get hk (k := 2) rfl)) (fieldBits_of (packed_get hk (k := 0) rfl)) (packed_get hk (k := 1) rfl) (packed_get hk (k := 3) rfl)) (by rw [he]; rfl)

theorem form17 (n m : Nat) (hm : m < 64) (hn : n = m * 0x1000000) (x0 : Bool) (x1 : Bool) (x2 : BitVec 7) (x3 : BitVec 7) (x4 : BitVec 7) (x5 : BitVec 3) {w : Nat} (hw : w = n + bitNat x0 * 0x80000000 + bitNat x1 * 0x40000000 + x2.toNat * 0x20000 + x3.toNat * 0x400 + x4.toNat * 0x8 + x5.toNat) {i : Instr} (he : endsChain i = false)
    (k : ∀ x, fieldNat x 24 6 = m → bitAt x 31 = x0 → bitAt x 30 = x1 → fieldBits x 17 7 = x2 → fieldBits x 10 7 = x3 → fieldBits x 3 7 = x4 → fieldBits x 0 3 = x5 → decodeCore x = .ok i) : decodeWord (BitVec.ofNat 32 w) = .ok i := by
  have hs : w = packed [(0, 3, x5.toNat), (3, 7, x4.toNat), (10, 7, x3.toNat), (17, 7, x2.toNat), (24, 6, m), (30, 1, bitNat x1), (31, 1, bitNat x0)] := by rw [hw, hn]; simp only [packed]; omega
  have hk : fits 0 [(0, 3, x5.toNat), (3, 7, x4.toNat), (10, 7, x3.toNat), (17, 7, x2.toNat), (24, 6, m), (30, 1, bitNat x1), (31, 1, bitNat x0)] := ⟨by decide, x5.isLt, by decide, x4.isLt, by decide, x3.isLt, by decide, x2.isLt, by decide, hm, by decide, bitNat_lt x1, by decide, bitNat_lt x0, Nat.le_of_ble_eq_true rfl⟩
  subst hs
  exact decodeWord_of (packed_lt hk) (k _ (packed_get hk (k := 4) rfl) (bitAt_of (packed_get hk (k := 6) rfl)) (bitAt_of (packed_get hk (k := 5) rfl)) (fieldBits_of (packed_get hk (k := 3) rfl)) (fieldBits_of (packed_get hk (k := 2) rfl)) (fieldBits_of (packed_get hk (k := 1) rfl)) (fieldBits_of (packed_get hk (k := 0) rfl))) (by rw [he]; rfl)

theorem form18 (n m : Nat) (hm : m < 64) (f : Nat) (hf : f < 8) (hn : n = m * 0x1000000 + f * 0x200000) (x0 : Bool) (x1 : Bool) (x2 : BitVec 4) (x3 : BitVec 4) (x4 : BitVec 4) {w : Nat} (hw : w = n + bitNat x0 * 0x80000000 + bitNat x1 * 0x40000000 + x2.toNat * 0x4000 + x3.toNat * 0x80 + x4.toNat) {i : Instr} (he : endsChain i = false)
    (k : ∀ x, fieldNat x 24 6 = m → fieldNat x 21 3 = f → bitAt x 31 = x0 → bitAt x 30 = x1 → fieldBits x 14 4 = x2 → fieldBits x 7 4 = x3 → fieldBits x 0 4 = x4 → fieldNat x 4 3 = 0 → fieldNat x 11 3 = 0 → fieldNat x 18 3 = 0 → decodeCore x = .ok i) : decodeWord (BitVec.ofNat 32 w) = .ok i := by
  have hs : w = packed [(0, 4, x4.toNat), (4, 3, 0), (7, 4, x3.toNat), (11, 3, 0), (14, 4, x2.toNat), (18, 3, 0), (21, 3, f), (24, 6, m), (30, 1, bitNat x1), (31, 1, bitNat x0)] := by rw [hw, hn]; simp only [packed]; omega
  have hk : fits 0 [(0, 4, x4.toNat), (4, 3, 0), (7, 4, x3.toNat), (11, 3, 0), (14, 4, x2.toNat), (18, 3, 0), (21, 3, f), (24, 6, m), (30, 1, bitNat x1), (31, 1, bitNat x0)] := ⟨by decide, x4.isLt, by decide, by decide, by decide, x3.isLt, by decide, by decide, by decide, x2.isLt, by decide, by decide, by decide, hf, by decide, hm, by decide, bitNat_lt x1, by decide, bitNat_lt x0, Nat.le_of_ble_eq_true rfl⟩
  subst hs
  exact decodeWord_of (packed_lt hk) (k _ (packed_get hk (k := 7) rfl) (packed_get hk (k := 6) rfl) (bitAt_of (packed_get hk (k := 9) rfl)) (bitAt_of (packed_get hk (k := 8) rfl)) (fieldBits_of (packed_get hk (k := 4) rfl)) (fieldBits_of (packed_get hk (k := 2) rfl)) (fieldBits_of (packed_get hk (k := 0) rfl)) (packed_get hk (k := 1) rfl) (packed_get hk (k := 3) rfl) (packed_get hk (k := 5) rfl)) (by rw [he]; rfl)

theorem form19 (n m : Nat) (hm : m < 64) (f : Nat) (hf : f < 8) (hn : n = m * 0x1000000 + f * 0x200000) (x0 : Bool) (x1 : Bool) (x2 : BitVec 4) (x3 : BitVec 4) {w : Nat} (hw : w = n + bitNat x0 * 0x80000000 + bitNat x1 * 0x40000000 + x2.toNat * 0x4000 + x3.toNat * 0x80) {i : Instr} (he : endsChain i = false)
    (k : ∀ x, fieldNat x 24 6 = m → fieldNat x 21 3 = f → bitAt x 31 = x0 → bitAt x 30 = x1 → fieldBits x 14 4 = x2 → fieldBits x 7 4 = x3 → fieldNat x 0 7 = 0 → fieldNat x 11 3 = 0 → fieldNat x 18 3 = 0 → decodeCore x = .ok i) : decodeWord (BitVec.ofNat 32 w) = .ok i := by
  have hs : w = packed [(0, 7, 0), (7, 4, x3.toNat), (11, 3, 0), (14, 4, x2.toNat), (18, 3, 0), (21, 3, f), (24, 6, m), (30, 1, bitNat x1), (31, 1, bitNat x0)] := by rw [hw, hn]; simp only [packed]; omega
  have hk : fits 0 [(0, 7, 0), (7, 4, x3.toNat), (11, 3, 0), (14, 4, x2.toNat), (18, 3, 0), (21, 3, f), (24, 6, m), (30, 1, bitNat x1), (31, 1, bitNat x0)] := ⟨by decide, by decide, by decide, x3.isLt, by decide, by decide, by decide, x2.isLt, by decide, by decide, by decide, hf, by decide, hm, by decide, bitNat_lt x1, by decide, bitNat_lt x0, Nat.le_of_ble_eq_true rfl⟩
  subst hs
  exact decodeWord_of (packed_lt hk) (k _ (packed_get hk (k := 6) rfl) (packed_get hk (k := 5) rfl) (bitAt_of (packed_get hk (k := 8) rfl)) (bitAt_of (packed_get hk (k := 7) rfl)) (fieldBits_of (packed_get hk (k := 3) rfl)) (fieldBits_of (packed_get hk (k := 1) rfl)) (packed_get hk (k := 0) rfl) (packed_get hk (k := 2) rfl) (packed_get hk (k := 4) rfl)) (by rw [he]; rfl)

theorem form20 (n m : Nat) (hm : m < 64) (f : Nat) (hf : f < 8) (hn : n = m * 0x1000000 + f * 0x200000) (x0 : Bool) (x1 : Bool) (x2 : BitVec 4) (x3 : BitVec 7) {w : Nat} (hw : w = n + bitNat x0 * 0x80000000 + bitNat x1 * 0x40000000 + x2.toNat * 0x4000 + x3.toNat * 0x80) {i : Instr} (he : endsChain i = false)
    (k : ∀ x, fieldNat x 24 6 = m → fieldNat x 21 3 = f → bitAt x 31 = x0 → bitAt x 30 = x1 → fieldBits x 14 4 = x2 → fieldBits x 7 7 = x3 → fieldNat x 0 7 = 0 → fieldNat x 18 3 = 0 → decodeCore x = .ok i) : decodeWord (BitVec.ofNat 32 w) = .ok i := by
  have hs : w = packed [(0, 7, 0), (7, 7, x3.toNat), (14, 4, x2.toNat), (18, 3, 0), (21, 3, f), (24, 6, m), (30, 1, bitNat x1), (31, 1, bitNat x0)] := by rw [hw, hn]; simp only [packed]; omega
  have hk : fits 0 [(0, 7, 0), (7, 7, x3.toNat), (14, 4, x2.toNat), (18, 3, 0), (21, 3, f), (24, 6, m), (30, 1, bitNat x1), (31, 1, bitNat x0)] := ⟨by decide, by decide, by decide, x3.isLt, by decide, x2.isLt, by decide, by decide, by decide, hf, by decide, hm, by decide, bitNat_lt x1, by decide, bitNat_lt x0, Nat.le_of_ble_eq_true rfl⟩
  subst hs
  exact decodeWord_of (packed_lt hk) (k _ (packed_get hk (k := 5) rfl) (packed_get hk (k := 4) rfl) (bitAt_of (packed_get hk (k := 7) rfl)) (bitAt_of (packed_get hk (k := 6) rfl)) (fieldBits_of (packed_get hk (k := 2) rfl)) (fieldBits_of (packed_get hk (k := 1) rfl)) (packed_get hk (k := 0) rfl) (packed_get hk (k := 3) rfl)) (by rw [he]; rfl)

theorem form21 (n m : Nat) (hm : m < 64) (f : Nat) (hf : f < 8) (hn : n = m * 0x1000000 + f * 0x200000) (x0 : Bool) (x1 : Bool) (x2 : BitVec 7) (x3 : BitVec 4) {w : Nat} (hw : w = n + bitNat x0 * 0x80000000 + bitNat x1 * 0x40000000 + x2.toNat * 0x4000 + x3.toNat * 0x80) {i : Instr} (he : endsChain i = false)
    (k : ∀ x, fieldNat x 24 6 = m → fieldNat x 21 3 = f → bitAt x 31 = x0 → bitAt x 30 = x1 → fieldBits x 14 7 = x2 → fieldBits x 7 4 = x3 → fieldNat x 0 7 = 0 → fieldNat x 11 3 = 0 → decodeCore x = .ok i) : decodeWord (BitVec.ofNat 32 w) = .ok i := by
  have hs : w = packed [(0, 7, 0), (7, 4, x3.toNat), (11, 3, 0), (14, 7, x2.toNat), (21, 3, f), (24, 6, m), (30, 1, bitNat x1), (31, 1, bitNat x0)] := by rw [hw, hn]; simp only [packed]; omega
  have hk : fits 0 [(0, 7, 0), (7, 4, x3.toNat), (11, 3, 0), (14, 7, x2.toNat), (21, 3, f), (24, 6, m), (30, 1, bitNat x1), (31, 1, bitNat x0)] := ⟨by decide, by decide, by decide, x3.isLt, by decide, by decide, by decide, x2.isLt, by decide, hf, by decide, hm, by decide, bitNat_lt x1, by decide, bitNat_lt x0, Nat.le_of_ble_eq_true rfl⟩
  subst hs
  exact decodeWord_of (packed_lt hk) (k _ (packed_get hk (k := 5) rfl) (packed_get hk (k := 4) rfl) (bitAt_of (packed_get hk (k := 7) rfl)) (bitAt_of (packed_get hk (k := 6) rfl)) (fieldBits_of (packed_get hk (k := 3) rfl)) (fieldBits_of (packed_get hk (k := 1) rfl)) (packed_get hk (k := 0) rfl) (packed_get hk (k := 2) rfl)) (by rw [he]; rfl)

theorem form22 (n m : Nat) (hm : m < 64) (f : Nat) (hf : f < 8) (hn : n = m * 0x1000000 + f * 0x200000) (x0 : Bool) (x1 : Bool) (x2 : BitVec 4) {w : Nat} (hw : w = n + bitNat x0 * 0x80000000 + bitNat x1 * 0x40000000 + x2.toNat * 0x4000) {i : Instr} (he : endsChain i = false)
    (k : ∀ x, fieldNat x 24 6 = m → fieldNat x 21 3 = f → bitAt x 31 = x0 → bitAt x 30 = x1 → fieldBits x 14 4 = x2 → fieldNat x 0 14 = 0 → fieldNat x 18 3 = 0 → decodeCore x = .ok i) : decodeWord (BitVec.ofNat 32 w) = .ok i := by
  have hs : w = packed [(0, 14, 0), (14, 4, x2.toNat), (18, 3, 0), (21, 3, f), (24, 6, m), (30, 1, bitNat x1), (31, 1, bitNat x0)] := by rw [hw, hn]; simp only [packed]; omega
  have hk : fits 0 [(0, 14, 0), (14, 4, x2.toNat), (18, 3, 0), (21, 3, f), (24, 6, m), (30, 1, bitNat x1), (31, 1, bitNat x0)] := ⟨by decide, by decide, by decide, x2.isLt, by decide, by decide, by decide, hf, by decide, hm, by decide, bitNat_lt x1, by decide, bitNat_lt x0, Nat.le_of_ble_eq_true rfl⟩
  subst hs
  exact decodeWord_of (packed_lt hk) (k _ (packed_get hk (k := 4) rfl) (packed_get hk (k := 3) rfl) (bitAt_of (packed_get hk (k := 6) rfl)) (bitAt_of (packed_get hk (k := 5) rfl)) (fieldBits_of (packed_get hk (k := 1) rfl)) (packed_get hk (k := 0) rfl) (packed_get hk (k := 2) rfl)) (by rw [he]; rfl)

theorem form23 (n m : Nat) (hm : m < 64) (hn : n = m * 0x1000000) (x0 : Bool) (x1 : Bool) (x2 : BitVec 1) (x3 : BitVec 2) (x4 : BitVec 7) (x5 : BitVec 7) (x6 : BitVec 7) {w : Nat} (hw : w = n + bitNat x0 * 0x80000000 + bitNat x1 * 0x40000000 + x2.toNat * 0x800000 + x3.toNat * 0x200000 + x4.toNat * 0x4000 + x5.toNat * 0x80 + x6.toNat) {i : Instr} (he : endsChain i = false)
    (k : ∀ x, fieldNat x 24 6 = m → bitAt x 31 = x0 → bitAt x 30 = x1 → fieldBits x 23 1 = x2 → fieldBits x 21 2 = x3 → fieldBits x 14 7 = x4 → fieldBits x 7 7 = x5 → fieldBits x 0 7 = x6 → decodeCore x = .ok i) : decodeWord (BitVec.ofNat 32 w) = .ok i := by
  have hs : w = packed [(0, 7, x6.toNat), (7, 7, x5.toNat), (14, 7, x4.toNat), (21, 2, x3.toNat), (23, 1, x2.toNat), (24, 6, m), (30, 1, bitNat x1), (31, 1, bitNat x0)] := by rw [hw, hn]; simp only [packed]; omega
  have hk : fits 0 [(0, 7, x6.toNat), (7, 7, x5.toNat), (14, 7, x4.toNat), (21, 2, x3.toNat), (23, 1, x2.toNat), (24, 6, m), (30, 1, bitNat x1), (31, 1, bitNat x0)] := ⟨by decide, x6.isLt, by decide, x5.isLt, by decide, x4.isLt, by decide, x3.isLt, by decide, x2.isLt, by decide, hm, by decide, bitNat_lt x1, by decide, bitNat_lt x0, Nat.le_of_ble_eq_true rfl⟩
  subst hs
  exact decodeWord_of (packed_lt hk) (k _ (packed_get hk (k := 5) rfl) (bitAt_of (packed_get hk (k := 7) rfl)) (bitAt_of (packed_get hk (k := 6) rfl)) (fieldBits_of (packed_get hk (k := 4) rfl)) (fieldBits_of (packed_get hk (k := 3) rfl)) (fieldBits_of (packed_get hk (k := 2) rfl)) (fieldBits_of (packed_get hk (k := 1) rfl)) (fieldBits_of (packed_get hk (k := 0) rfl))) (by rw [he]; rfl)

theorem form24 (n m : Nat) (hm : m < 64) (f : Nat) (hf : f < 8) (hn : n = m * 0x1000000 + f * 0x200000) (x0 : Bool) (x1 : Bool) (x2 : BitVec 7) (x3 : BitVec 7) (x4 : BitVec 2) {w : Nat} (hw : w = n + bitNat x0 * 0x80000000 + bitNat x1 * 0x40000000 + x2.toNat * 0x4000 + x3.toNat * 0x80 + x4.toNat) {i : Instr} (he : endsChain i = false)
    (k : ∀ x, fieldNat x 24 6 = m → fieldNat x 21 3 = f → bitAt x 31 = x0 → bitAt x 30 = x1 → fieldBits x 14 7 = x2 → fieldBits x 7 7 = x3 → fieldBits x 0 2 = x4 → fieldNat x 2 5 = 0 → decodeCore x = .ok i) : decodeWord (BitVec.ofNat 32 w) = .ok i := by
  have hs : w = packed [(0, 2, x4.toNat), (2, 5, 0), (7, 7, x3.toNat), (14, 7, x2.toNat), (21, 3, f), (24, 6, m), (30, 1, bitNat x1), (31, 1, bitNat x0)] := by rw [hw, hn]; simp only [packed]; omega
  have hk : fits 0 [(0, 2, x4.toNat), (2, 5, 0), (7, 7, x3.toNat), (14, 7, x2.toNat), (21, 3, f), (24, 6, m), (30, 1, bitNat x1), (31, 1, bitNat x0)] := ⟨by decide, x4.isLt, by decide, by decide, by decide, x3.isLt, by decide, x2.isLt, by decide, hf, by decide, hm, by decide, bitNat_lt x1, by decide, bitNat_lt x0, Nat.le_of_ble_eq_true rfl⟩
  subst hs
  exact decodeWord_of (packed_lt hk) (k _ (packed_get hk (k := 5) rfl) (packed_get hk (k := 4) rfl) (bitAt_of (packed_get hk (k := 7) rfl)) (bitAt_of (packed_get hk (k := 6) rfl)) (fieldBits_of (packed_get hk (k := 3) rfl)) (fieldBits_of (packed_get hk (k := 2) rfl)) (fieldBits_of (packed_get hk (k := 0) rfl)) (packed_get hk (k := 1) rfl)) (by rw [he]; rfl)

theorem form25 (n m : Nat) (hm : m < 64) (hn : n = m * 0x1000000) (x0 : Bool) (x1 : BitVec 2) (x2 : BitVec 2) (x3 : BitVec 4) (x4 : BitVec 4) (x5 : BitVec 4) (x6 : BitVec 4) {w : Nat} (hw : w = n + bitNat x0 * 0x40000000 + x1.toNat * 0x400000 + x2.toNat * 0x100000 + x3.toNat * 0x10000 + x4.toNat * 0x1000 + x5.toNat * 0x100 + x6.toNat * 0x10) {i : Instr}
    (k : ∀ x, fieldNat x 24 6 = m → bitAt x 30 = x0 → fieldBits x 22 2 = x1 → fieldBits x 20 2 = x2 → fieldBits x 16 4 = x3 → fieldBits x 12 4 = x4 → fieldBits x 8 4 = x5 → fieldBits x 4 4 = x6 → fieldNat x 0 4 = 0 → decodeCore x = .ok i) : decodeWord (BitVec.ofNat 32 w) = .ok i := by
  have hs : w = packed [(0, 4, 0), (4, 4, x6.toNat), (8, 4, x5.toNat), (12, 4, x4.toNat), (16, 4, x3.toNat), (20, 2, x2.toNat), (22, 2, x1.toNat), (24, 6, m), (30, 1, bitNat x0), (31, 1, 0)] := by rw [hw, hn]; simp only [packed]; omega
  have hk : fits 0 [(0, 4, 0), (4, 4, x6.toNat), (8, 4, x5.toNat), (12, 4, x4.toNat), (16, 4, x3.toNat), (20, 2, x2.toNat), (22, 2, x1.toNat), (24, 6, m), (30, 1, bitNat x0), (31, 1, 0)] := ⟨by decide, by decide, by decide, x6.isLt, by decide, x5.isLt, by decide, x4.isLt, by decide, x3.isLt, by decide, x2.isLt, by decide, x1.isLt, by decide, hm, by decide, bitNat_lt x0, by decide, by decide, Nat.le_of_ble_eq_true rfl⟩
  subst hs
  exact decodeWord_of (packed_lt hk) (k _ (packed_get hk (k := 7) rfl) (bitAt_of (packed_get hk (k := 8) rfl)) (fieldBits_of (packed_get hk (k := 6) rfl)) (fieldBits_of (packed_get hk (k := 5) rfl)) (fieldBits_of (packed_get hk (k := 4) rfl)) (fieldBits_of (packed_get hk (k := 3) rfl)) (fieldBits_of (packed_get hk (k := 2) rfl)) (fieldBits_of (packed_get hk (k := 1) rfl)) (packed_get hk (k := 0) rfl)) (by rw [bitAt_false_of (n := 31) (packed_get hk (k := 9) rfl), Bool.and_false])

theorem form26 (n m : Nat) (hm : m < 64) (hn : n = m * 0x1000000) (x0 : BitVec 12) (x1 : BitVec 12) {w : Nat} (hw : w = n + x0.toNat * 0x1000 + x1.toNat) {i : Instr}
    (k : ∀ x, fieldNat x 24 6 = m → fieldBits x 12 12 = x0 → fieldBits x 0 12 = x1 → bitAt x 30 = false → decodeCore x = .ok i) : decodeWord (BitVec.ofNat 32 w) = .ok i := by
  have hs : w = packed [(0, 12, x1.toNat), (12, 12, x0.toNat), (24, 6, m), (30, 1, 0), (31, 1, 0)] := by rw [hw, hn]; simp only [packed]; omega
  have hk : fits 0 [(0, 12, x1.toNat), (12, 12, x0.toNat), (24, 6, m), (30, 1, 0), (31, 1, 0)] := ⟨by decide, x1.isLt, by decide, x0.isLt, by decide, hm, by decide, by decide, by decide, by decide, Nat.le_of_ble_eq_true rfl⟩
  subst hs
  exact decodeWord_of (packed_lt hk) (k _ (packed_get hk (k := 2) rfl) (fieldBits_of (packed_get hk (k := 1) rfl)) (fieldBits_of (packed_get hk (k := 0) rfl)) (bitAt_false_of (packed_get hk (k := 3) rfl))) (by rw [bitAt_false_of (n := 31) (packed_get hk (k := 4) rfl), Bool.and_false])

theorem form27 (n m : Nat) (hm : m < 64) (hn : n = m * 0x1000000) (x0 : Bool) (x1 : BitVec 17) {w : Nat} (hw : w = n + bitNat x0 * 0x40000000 + x1.toNat) {i : Instr}
    (k : ∀ x, fieldNat x 24 6 = m → bitAt x 30 = x0 → fieldBits x 0 17 = x1 → fieldNat x 17 7 = 0 → decodeCore x = .ok i) : decodeWord (BitVec.ofNat 32 w) = .ok i := by
  have hs : w = packed [(0, 17, x1.toNat), (17, 7, 0), (24, 6, m), (30, 1, bitNat x0), (31, 1, 0)] := by rw [hw, hn]; simp only [packed]; omega
  have hk : fits 0 [(0, 17, x1.toNat), (17, 7, 0), (24, 6, m), (30, 1, bitNat x0), (31, 1, 0)] := ⟨by decide, x1.isLt, by decide, by decide, by decide, hm, by decide, bitNat_lt x0, by decide, by decide, Nat.le_of_ble_eq_true rfl⟩
  subst hs
  exact decodeWord_of (packed_lt hk) (k _ (packed_get hk (k := 2) rfl) (bitAt_of (packed_get hk (k := 3) rfl)) (fieldBits_of (packed_get hk (k := 0) rfl)) (packed_get hk (k := 1) rfl)) (by rw [bitAt_false_of (n := 31) (packed_get hk (k := 4) rfl), Bool.and_false])

theorem form28 (n m : Nat) (hm : m < 64) (hn : n = m * 0x1000000) (x0 : Bool) (x1 : BitVec 6) (x2 : BitVec 17) {w : Nat} (hw : w = n + bitNat x0 * 0x40000000 + x1.toNat * 0x40000 + x2.toNat) {i : Instr}
    (k : ∀ x, fieldNat x 24 6 = m → bitAt x 30 = x0 → fieldBits x 18 6 = x1 → fieldBits x 0 17 = x2 → fieldNat x 17 1 = 0 → decodeCore x = .ok i) : decodeWord (BitVec.ofNat 32 w) = .ok i := by
  have hs : w = packed [(0, 17, x2.toNat), (17, 1, 0), (18, 6, x1.toNat), (24, 6, m), (30, 1, bitNat x0), (31, 1, 0)] := by rw [hw, hn]; simp only [packed]; omega
  have hk : fits 0 [(0, 17, x2.toNat), (17, 1, 0), (18, 6, x1.toNat), (24, 6, m), (30, 1, bitNat x0), (31, 1, 0)] := ⟨by decide, x2.isLt, by decide, by decide, by decide, x1.isLt, by decide, hm, by decide, bitNat_lt x0, by decide, by decide, Nat.le_of_ble_eq_true rfl⟩
  subst hs
  exact decodeWord_of (packed_lt hk) (k _ (packed_get hk (k := 3) rfl) (bitAt_of (packed_get hk (k := 4) rfl)) (fieldBits_of (packed_get hk (k := 2) rfl)) (fieldBits_of (packed_get hk (k := 0) rfl)) (packed_get hk (k := 1) rfl)) (by rw [bitAt_false_of (n := 31) (packed_get hk (k := 5) rfl), Bool.and_false])

theorem form29 (n m : Nat) (hm : m < 64) (f : Nat) (hf : f < 8) (hn : n = m * 0x1000000 + f * 0x200000) (x0 : BitVec 6) {w : Nat} (hw : w = n + x0.toNat * 0x100) {i : Instr}
    (k : ∀ x, fieldNat x 24 6 = m → fieldNat x 21 3 = f → fieldBits x 8 6 = x0 → fieldNat x 7 1 = 0 → fieldNat x 0 7 = 0 → fieldNat x 14 7 = 0 → bitAt x 30 = false → decodeCore x = .ok i) : decodeWord (BitVec.ofNat 32 w) = .ok i := by
  have hs : w = packed [(0, 7, 0), (7, 1, 0), (8, 6, x0.toNat), (14, 7, 0), (21, 3, f), (24, 6, m), (30, 1, 0), (31, 1, 0)] := by rw [hw, hn]; simp only [packed]; omega
  have hk : fits 0 [(0, 7, 0), (7, 1, 0), (8, 6, x0.toNat), (14, 7, 0), (21, 3, f), (24, 6, m), (30, 1, 0), (31, 1, 0)] := ⟨by decide, by decide, by decide, by decide, by decide, x0.isLt, by decide, by decide, by decide, hf, by decide, hm, by decide, by decide, by decide, by decide, Nat.le_of_ble_eq_true rfl⟩
  subst hs
  exact decodeWord_of (packed_lt hk) (k _ (packed_get hk (k := 5) rfl) (packed_get hk (k := 4) rfl) (fieldBits_of (packed_get hk (k := 2) rfl)) (packed_get hk (k := 1) rfl) (packed_get hk (k := 0) rfl) (packed_get hk (k := 3) rfl) (bitAt_false_of (packed_get hk (k := 6) rfl))) (by rw [bitAt_false_of (n := 31) (packed_get hk (k := 7) rfl), Bool.and_false])

theorem form30 (n m : Nat) (hm : m < 64) (f : Nat) (hf : f < 8) (hn : n = m * 0x1000000 + f * 0x200000) (x0 : BitVec 6) (x1 : BitVec 6) {w : Nat} (hw : w = n + x0.toNat * 0x8000 + x1.toNat * 0x100) {i : Instr}
    (k : ∀ x, fieldNat x 24 6 = m → fieldNat x 21 3 = f → fieldBits x 15 6 = x0 → fieldBits x 8 6 = x1 → fieldNat x 7 1 = 0 → fieldNat x 14 1 = 0 → fieldNat x 0 7 = 0 → bitAt x 30 = false → decodeCore x = .ok i) : decodeWord (BitVec.ofNat 32 w) = .ok i := by
  have hs : w = packed [(0, 7, 0), (7, 1, 0), (8, 6, x1.toNat), (14, 1, 0), (15, 6, x0.toNat), (21, 3, f), (24, 6, m), (30, 1, 0), (31, 1, 0)] := by rw [hw, hn]; simp only [packed]; omega
  have hk : fits 0 [(0, 7, 0), (7, 1, 0), (8, 6, x1.toNat), (14, 1, 0), (15, 6, x0.toNat), (21, 3, f), (24, 6, m), (30, 1, 0), (31, 1, 0)] := ⟨by decide, by decide, by decide, by decide, by decide, x1.isLt, by decide, by decide, by decide, x0.isLt, by decide, hf, by decide, hm, by decide, by decide, by decide, by decide, Nat.le_of_ble_eq_true rfl⟩
  subst hs
  exact decodeWord_of (packed_lt hk) (k _ (packed_get hk (k := 6) rfl) (packed_get hk (k := 5) rfl) (fieldBits_of (packed_get hk (k := 4) rfl)) (fieldBits_of (packed_get hk (k := 2) rfl)) (packed_get hk (k := 1) rfl) (packed_get hk (k := 3) rfl) (packed_get hk (k := 0) rfl) (bitAt_false_of (packed_get hk (k := 7) rfl))) (by rw [bitAt_false_of (n := 31) (packed_get hk (k := 8) rfl), Bool.and_false])

theorem form31 (n m : Nat) (hm : m < 64) (f : Nat) (hf : f < 8) (hn : n = m * 0x1000000 + f * 0x200000)  {w : Nat} (hw : w = n) {i : Instr}
    (k : ∀ x, fieldNat x 24 6 = m → fieldNat x 21 3 = f → fieldNat x 0 21 = 0 → bitAt x 30 = false → decodeCore x = .ok i) : decodeWord (BitVec.ofNat 32 w) = .ok i := by
  have hs : w = packed [(0, 21, 0), (21, 3, f), (24, 6, m), (30, 1, 0), (31, 1, 0)] := by rw [hw, hn]; simp only [packed]; omega
  have hk : fits 0 [(0, 21, 0), (21, 3, f), (24, 6, m), (30, 1, 0), (31, 1, 0)] := ⟨by decide, by decide, by decide, hf, by decide, hm, by decide, by decide, by decide, by decide, Nat.le_of_ble_eq_true rfl⟩
  subst hs
  exact decodeWord_of (packed_lt hk) (k _ (packed_get hk (k := 2) rfl) (packed_get hk (k := 1) rfl) (packed_get hk (k := 0) rfl) (bitAt_false_of (packed_get hk (k := 3) rfl))) (by rw [bitAt_false_of (n := 31) (packed_get hk (k := 4) rfl), Bool.and_false])

theorem form32 (n m : Nat) (hm : m < 64) (f : Nat) (hf : f < 8) (hn : n = m * 0x1000000 + f * 0x200000) (x0 : Bool) (x1 : BitVec 7) (x2 : BitVec 6) (x3 : BitVec 7) {w : Nat} (hw : w = n + bitNat x0 * 0x80000000 + x1.toNat * 0x4000 + x2.toNat * 0x100 + x3.toNat) {i : Instr} (he : endsChain i = false)
    (k : ∀ x, fieldNat x 24 6 = m → fieldNat x 21 3 = f → bitAt x 31 = x0 → fieldBits x 14 7 = x1 → fieldBits x 8 6 = x2 → fieldBits x 0 7 = x3 → fieldNat x 7 1 = 0 → bitAt x 30 = false → decodeCore x = .ok i) : decodeWord (BitVec.ofNat 32 w) = .ok i := by
  have hs : w = packed [(0, 7, x3.toNat), (7, 1, 0), (8, 6, x2.toNat), (14, 7, x1.toNat), (21, 3, f), (24, 6, m), (30, 1, 0), (31, 1, bitNat x0)] := by rw [hw, hn]; simp only [packed]; omega
  have hk : fits 0 [(0, 7, x3.toNat), (7, 1, 0), (8, 6, x2.toNat), (14, 7, x1.toNat), (21, 3, f), (24, 6, m), (30, 1, 0), (31, 1, bitNat x0)] := ⟨by decide, x3.isLt, by decide, by decide, by decide, x2.isLt, by decide, x1.isLt, by decide, hf, by decide, hm, by decide, by decide, by decide, bitNat_lt x0, Nat.le_of_ble_eq_true rfl⟩
  subst hs
  exact decodeWord_of (packed_lt hk) (k _ (packed_get hk (k := 5) rfl) (packed_get hk (k := 4) rfl) (bitAt_of (packed_get hk (k := 7) rfl)) (fieldBits_of (packed_get hk (k := 3) rfl)) (fieldBits_of (packed_get hk (k := 2) rfl)) (fieldBits_of (packed_get hk (k := 0) rfl)) (packed_get hk (k := 1) rfl) (bitAt_false_of (packed_get hk (k := 6) rfl))) (by rw [he]; rfl)

theorem form33 (n m : Nat) (hm : m < 64) (f : Nat) (hf : f < 8) (hn : n = m * 0x1000000 + f * 0x200000) (x0 : Bool) (x1 : BitVec 7) {w : Nat} (hw : w = n + bitNat x0 * 0x80000000 + x1.toNat) {i : Instr} (he : endsChain i = false)
    (k : ∀ x, fieldNat x 24 6 = m → fieldNat x 21 3 = f → bitAt x 31 = x0 → fieldBits x 0 7 = x1 → fieldNat x 7 14 = 0 → bitAt x 30 = false → decodeCore x = .ok i) : decodeWord (BitVec.ofNat 32 w) = .ok i := by
  have hs : w = packed [(0, 7, x1.toNat), (7, 14, 0), (21, 3, f), (24, 6, m), (30, 1, 0), (31, 1, bitNat x0)] := by rw [hw, hn]; simp only [packed]; omega
  have hk : fits 0 [(0, 7, x1.toNat), (7, 14, 0), (21, 3, f), (24, 6, m), (30, 1, 0), (31, 1, bitNat x0)] := ⟨by decide, x1.isLt, by decide, by decide, by decide, hf, by decide, hm, by decide, by decide, by decide, bitNat_lt x0, Nat.le_of_ble_eq_true rfl⟩
  subst hs
  exact decodeWord_of (packed_lt hk) (k _ (packed_get hk (k := 3) rfl) (packed_get hk (k := 2) rfl) (bitAt_of (packed_get hk (k := 5) rfl)) (fieldBits_of (packed_get hk (k := 0) rfl)) (packed_get hk (k := 1) rfl) (bitAt_false_of (packed_get hk (k := 4) rfl))) (by rw [he]; rfl)

theorem form34 (n m : Nat) (hm : m < 64) (f : Nat) (hf : f < 8) (hn : n = m * 0x1000000 + f * 0x200000) (x0 : Bool) {w : Nat} (hw : w = n + bitNat x0 * 0x80000000) {i : Instr} (he : endsChain i = false)
    (k : ∀ x, fieldNat x 24 6 = m → fieldNat x 21 3 = f → bitAt x 31 = x0 → fieldNat x 0 21 = 0 → bitAt x 30 = false → decodeCore x = .ok i) : decodeWord (BitVec.ofNat 32 w) = .ok i := by
  have hs : w = packed [(0, 21, 0), (21, 3, f), (24, 6, m), (30, 1, 0), (31, 1, bitNat x0)] := by rw [hw, hn]; simp only [packed]; omega
  have hk : fits 0 [(0, 21, 0), (21, 3, f), (24, 6, m), (30, 1, 0), (31, 1, bitNat x0)] := ⟨by decide, by decide, by decide, hf, by decide, hm, by decide, by decide, by decide, bitNat_lt x0, Nat.le_of_ble_eq_true rfl⟩
  subst hs
  exact decodeWord_of (packed_lt hk) (k _ (packed_get hk (k := 2) rfl) (packed_get hk (k := 1) rfl) (bitAt_of (packed_get hk (k := 4) rfl)) (packed_get hk (k := 0) rfl) (bitAt_false_of (packed_get hk (k := 3) rfl))) (by rw [he]; rfl)

theorem form35 (n m : Nat) (hm : m < 64) (f : Nat) (hf : f < 8) (hn : n = m * 0x1000000 + f * 0x200000) (x0 : Bool) (x1 : BitVec 7) {w : Nat} (hw : w = n + bitNat x0 * 0x80000000 + x1.toNat * 0x80) {i : Instr} (he : endsChain i = false)
    (k : ∀ x, fieldNat x 24 6 = m → fieldNat x 21 3 = f → bitAt x 31 = x0 → fieldBits x 7 7 = x1 → fieldNat x 0 7 = 0 → fieldNat x 14 7 = 0 → bitAt x 30 = false → decodeCore x = .ok i) : decodeWord (BitVec.ofNat 32 w) = .ok i := by
  have hs : w = packed [(0, 7, 0), (7, 7, x1.toNat), (14, 7, 0), (21, 3, f), (24, 6, m), (30, 1, 0), (31, 1, bitNat x0)] := by rw [hw, hn]; simp only [packed]; omega
  have hk : fits 0 [(0, 7, 0), (7, 7, x1.toNat), (14, 7, 0), (21, 3, f), (24, 6, m), (30, 1, 0), (31, 1, bitNat x0)] := ⟨by decide, by decide, by decide, x1.isLt, by decide, by decide, by decide, hf, by decide, hm, by decide, by decide, by decide, bitNat_lt x0, Nat.le_of_ble_eq_true rfl⟩
  subst hs
  exact decodeWord_of (packed_lt hk) (k _ (packed_get hk (k := 4) rfl) (packed_get hk (k := 3) rfl) (bitAt_of (packed_get hk (k := 6) rfl)) (fieldBits_of (packed_get hk (k := 1) rfl)) (packed_get hk (k := 0) rfl) (packed_get hk (k := 2) rfl) (bitAt_false_of (packed_get hk (k := 5) rfl))) (by rw [he]; rfl)

theorem form36 (n m : Nat) (hm : m < 64) (f : Nat) (hf : f < 8) (hn : n = m * 0x1000000 + f * 0x200000) (x0 : Bool) (x1 : BitVec 6) {w : Nat} (hw : w = n + bitNat x0 * 0x80000000 + x1.toNat * 0x8000) {i : Instr} (he : endsChain i = false)
    (k : ∀ x, fieldNat x 24 6 = m → fieldNat x 21 3 = f → bitAt x 31 = x0 → fieldBits x 15 6 = x1 → fieldNat x 14 1 = 0 → fieldNat x 0 14 = 0 → bitAt x 30 = false → decodeCore x = .ok i) : decodeWord (BitVec.ofNat 32 w) = .ok i := by
  have hs : w = packed [(0, 14, 0), (14, 1, 0), (15, 6, x1.toNat), (21, 3, f), (24, 6, m), (30, 1, 0), (31, 1, bitNat x0)] := by rw [hw, hn]; simp only [packed]; omega
  have hk : fits 0 [(0, 14, 0), (14, 1, 0), (15, 6, x1.toNat), (21, 3, f), (24, 6, m), (30, 1, 0), (31, 1, bitNat x0)] := ⟨by decide, by decide, by decide, by decide, by decide, x1.isLt, by decide, hf, by decide, hm, by decide, by decide, by decide, bitNat_lt x0, Nat.le_of_ble_eq_true rfl⟩
  subst hs
  exact decodeWord_of (packed_lt hk) (k _ (packed_get hk (k := 4) rfl) (packed_get hk (k := 3) rfl) (bitAt_of (packed_get hk (k := 6) rfl)) (fieldBits_of (packed_get hk (k := 2) rfl)) (packed_get hk (k := 1) rfl) (packed_get hk (k := 0) rfl) (bitAt_false_of (packed_get hk (k := 5) rfl))) (by rw [he]; rfl)

theorem form37 (n m : Nat) (hm : m < 64) (f : Nat) (hf : f < 8) (hn : n = m * 0x1000000 + f * 0x200000) (x0 : Bool) (x1 : BitVec 6) {w : Nat} (hw : w = n + bitNat x0 * 0x80000000 + x1.toNat * 0x100) {i : Instr} (he : endsChain i = false)
    (k : ∀ x, fieldNat x 24 6 = m → fieldNat x 21 3 = f → bitAt x 31 = x0 → fieldBits x 8 6 = x1 → fieldNat x 7 1 = 0 → fieldNat x 0 7 = 0 → fieldNat x 14 7 = 0 → bitAt x 30 = false → decodeCore x = .ok i) : decodeWord (BitVec.ofNat 32 w) = .ok i := by
  have hs : w = packed [(0, 7, 0), (7, 1, 0), (8, 6, x1.toNat), (14, 7, 0), (21, 3, f), (24, 6, m), (30, 1, 0), (31, 1, bitNat x0)] := by rw [hw, hn]; simp only [packed]; omega
  have hk : fits 0 [(0, 7, 0), (7, 1, 0), (8, 6, x1.toNat), (14, 7, 0), (21, 3, f), (24, 6, m), (30, 1, 0), (31, 1, bitNat x0)] := ⟨by decide, by decide, by decide, by decide, by decide, x1.isLt, by decide, by decide, by decide, hf, by decide, hm, by decide, by decide, by decide, bitNat_lt x0, Nat.le_of_ble_eq_true rfl⟩
  subst hs
  exact decodeWord_of (packed_lt hk) (k _ (packed_get hk (k := 5) rfl) (packed_get hk (k := 4) rfl) (bitAt_of (packed_get hk (k := 7) rfl)) (fieldBits_of (packed_get hk (k := 2) rfl)) (packed_get hk (k := 1) rfl) (packed_get hk (k := 0) rfl) (packed_get hk (k := 3) rfl) (bitAt_false_of (packed_get hk (k := 6) rfl))) (by rw [he]; rfl)

theorem form38 (n m : Nat) (hm : m < 64) (f : Nat) (hf : f < 8) (hn : n = m * 0x1000000 + f * 0x200000) (x0 : Bool) (x1 : BitVec 7) (x2 : BitVec 7) (x3 : BitVec 4) {w : Nat} (hw : w = n + bitNat x0 * 0x80000000 + x1.toNat * 0x4000 + x2.toNat * 0x80 + x3.toNat) {i : Instr} (he : endsChain i = false)
    (k : ∀ x, fieldNat x 24 6 = m → fieldNat x 21 3 = f → bitAt x 31 = x0 → fieldBits x 14 7 = x1 → fieldBits x 7 7 = x2 → fieldBits x 0 4 = x3 → fieldNat x 4 3 = 0 → bitAt x 30 = false → decodeCore x = .ok i) : decodeWord (BitVec.ofNat 32 w) = .ok i := by
  have hs : w = packed [(0, 4, x3.toNat), (4, 3, 0), (7, 7, x2.toNat), (14, 7, x1.toNat), (21, 3, f), (24, 6, m), (30, 1, 0), (31, 1, bitNat x0)] := by rw [hw, hn]; simp only [packed]; omega
  have hk : fits 0 [(0, 4, x3.toNat), (4, 3, 0), (7, 7, x2.toNat), (14, 7, x1.toNat), (21, 3, f), (24, 6, m), (30, 1, 0), (31, 1, bitNat x0)] := ⟨by decide, x3.isLt, by decide, by decide, by decide, x2.isLt, by decide, x1.isLt, by decide, hf, by decide, hm, by decide, by decide, by decide, bitNat_lt x0, Nat.le_of_ble_eq_true rfl⟩
  subst hs
  exact decodeWord_of (packed_lt hk) (k _ (packed_get hk (k := 5) rfl) (packed_get hk (k := 4) rfl) (bitAt_of (packed_get hk (k := 7) rfl)) (fieldBits_of (packed_get hk (k := 3) rfl)) (fieldBits_of (packed_get hk (k := 2) rfl)) (fieldBits_of (packed_get hk (k := 0) rfl)) (packed_get hk (k := 1) rfl) (bitAt_false_of (packed_get hk (k := 6) rfl))) (by rw [he]; rfl)

theorem form39 (n m : Nat) (hm : m < 64) (f : Nat) (hf : f < 8) (hn : n = m * 0x1000000 + f * 0x200000) (x0 : Bool) (x1 : BitVec 3) (x2 : BitVec 1) (x3 : BitVec 3) (x4 : BitVec 4) {w : Nat} (hw : w = n + bitNat x0 * 0x80000000 + x1.toNat * 0x4000 + x2.toNat * 0x400 + x3.toNat * 0x80 + x4.toNat) {i : Instr} (he : endsChain i = false)
    (k : ∀ x, fieldNat x 24 6 = m → fieldNat x 21 3 = f → bitAt x 31 = x0 → fieldBits x 14 3 = x1 → fieldBits x 10 1 = x2 → fieldBits x 7 3 = x3 → fieldBits x 0 4 = x4 → fieldNat x 4 3 = 0 → fieldNat x 11 3 = 0 → fieldNat x 17 4 = 0 → bitAt x 30 = false → decodeCore x = .ok i) : decodeWord (BitVec.ofNat 32 w) = .ok i := by
  have hs : w = packed [(0, 4, x4.toNat), (4, 3, 0), (7, 3, x3.toNat), (10, 1, x2.toNat), (11, 3, 0), (14, 3, x1.toNat), (17, 4, 0), (21, 3, f), (24, 6, m), (30, 1, 0), (31, 1, bitNat x0)] := by rw [hw, hn]; simp only [packed]; omega
  have hk : fits 0 [(0, 4, x4.toNat), (4, 3, 0), (7, 3, x3.toNat), (10, 1, x2.toNat), (11, 3, 0), (14, 3, x1.toNat), (17, 4, 0), (21, 3, f), (24, 6, m), (30, 1, 0), (31, 1, bitNat x0)] := ⟨by decide, x4.isLt, by decide, by decide, by decide, x3.isLt, by decide, x2.isLt, by decide, by decide, by decide, x1.isLt, by decide, by decide, by decide, hf, by decide, hm, by decide, by decide, by decide, bitNat_lt x0, Nat.le_of_ble_eq_true rfl⟩
  subst hs
  exact decodeWord_of (packed_lt hk) (k _ (packed_get hk (k := 8) rfl) (packed_get hk (k := 7) rfl) (bitAt_of (packed_get hk (k := 10) rfl)) (fieldBits_of (packed_get hk (k := 5) rfl)) (fieldBits_of (packed_get hk (k := 3) rfl)) (fieldBits_of (packed_get hk (k := 2) rfl)) (fieldBits_of (packed_get hk (k := 0) rfl)) (packed_get hk (k := 1) rfl) (packed_get hk (k := 4) rfl) (packed_get hk (k := 6) rfl) (bitAt_false_of (packed_get hk (k := 9) rfl))) (by rw [he]; rfl)

theorem form40 (n m : Nat) (hm : m < 64) (f : Nat) (hf : f < 8) (hn : n = m * 0x1000000 + f * 0x200000) (x0 : Bool) (x1 : BitVec 7) (x2 : BitVec 1) (x3 : BitVec 3) (x4 : BitVec 4) {w : Nat} (hw : w = n + bitNat x0 * 0x80000000 + x1.toNat * 0x4000 + x2.toNat * 0x400 + x3.toNat * 0x80 + x4.toNat) {i : Instr} (he : endsChain i = false)
    (k : ∀ x, fieldNat x 24 6 = m → fieldNat x 21 3 = f → bitAt x 31 = x0 → fieldBits x 14 7 = x1 → fieldBits x 10 1 = x2 → fieldBits x 7 3 = x3 → fieldBits x 0 4 = x4 → fieldNat x 4 3 = 0 → fieldNat x 11 3 = 0 → bitAt x 30 = false → decodeCore x = .ok i) : decodeWord (BitVec.ofNat 32 w) = .ok i := by
  have hs : w = packed [(0, 4, x4.toNat), (4, 3, 0), (7, 3, x3.toNat), (10, 1, x2.toNat), (11, 3, 0), (14, 7, x1.toNat), (21, 3, f), (24, 6, m), (30, 1, 0), (31, 1, bitNat x0)] := by rw [hw, hn]; simp only [packed]; omega
  have hk : fits 0 [(0, 4, x4.toNat), (4, 3, 0), (7, 3, x3.toNat), (10, 1, x2.toNat), (11, 3, 0), (14, 7, x1.toNat), (21, 3, f), (24, 6, m), (30, 1, 0), (31, 1, bitNat x0)] := ⟨by decide, x4.isLt, by decide, by decide, by decide, x3.isLt, by decide, x2.isLt, by decide, by decide, by decide, x1.isLt, by decide, hf, by decide, hm, by decide, by decide, by decide, bitNat_lt x0, Nat.le_of_ble_eq_true rfl⟩
  subst hs
  exact decodeWord_of (packed_lt hk) (k _ (packed_get hk (k := 7) rfl) (packed_get hk (k := 6) rfl) (bitAt_of (packed_get hk (k := 9) rfl)) (fieldBits_of (packed_get hk (k := 5) rfl)) (fieldBits_of (packed_get hk (k := 3) rfl)) (fieldBits_of (packed_get hk (k := 2) rfl)) (fieldBits_of (packed_get hk (k := 0) rfl)) (packed_get hk (k := 1) rfl) (packed_get hk (k := 4) rfl) (bitAt_false_of (packed_get hk (k := 8) rfl))) (by rw [he]; rfl)

theorem form41 (n m : Nat) (hm : m < 64) (f : Nat) (hf : f < 256) (hn : n = m * 0x1000000 + f * 0x10000) (x0 : Bool) (x1 : BitVec 4) {w : Nat} (hw : w = n + bitNat x0 * 0x80000000 + x1.toNat) {i : Instr} (he : endsChain i = false)
    (k : ∀ x, fieldNat x 24 6 = m → fieldNat x 16 8 = f → bitAt x 31 = x0 → fieldBits x 0 4 = x1 → fieldNat x 4 12 = 0 → bitAt x 30 = false → decodeCore x = .ok i) : decodeWord (BitVec.ofNat 32 w) = .ok i := by
  have hs : w = packed [(0, 4, x1.toNat), (4, 12, 0), (16, 8, f), (24, 6, m), (30, 1, 0), (31, 1, bitNat x0)] := by rw [hw, hn]; simp only [packed]; omega
  have hk : fits 0 [(0, 4, x1.toNat), (4, 12, 0), (16, 8, f), (24, 6, m), (30, 1, 0), (31, 1, bitNat x0)] := ⟨by decide, x1.isLt, by decide, by decide, by decide, hf, by decide, hm, by decide, by decide, by decide, bitNat_lt x0, Nat.le_of_ble_eq_true rfl⟩
  subst hs
  exact decodeWord_of (packed_lt hk) (k _ (packed_get hk (k := 3) rfl) (packed_get hk (k := 2) rfl) (bitAt_of (packed_get hk (k := 5) rfl)) (fieldBits_of (packed_get hk (k := 0) rfl)) (packed_get hk (k := 1) rfl) (bitAt_false_of (packed_get hk (k := 4) rfl))) (by rw [he]; rfl)

theorem form42 (n m : Nat) (hm : m < 64) (f : Nat) (hf : f < 256) (hn : n = m * 0x1000000 + f * 0x10000) (x0 : Bool) (x1 : BitVec 7) (x2 : BitVec 4) {w : Nat} (hw : w = n + bitNat x0 * 0x80000000 + x1.toNat * 0x200 + x2.toNat) {i : Instr} (he : endsChain i = false)
    (k : ∀ x, fieldNat x 24 6 = m → fieldNat x 16 8 = f → bitAt x 31 = x0 → fieldBits x 9 7 = x1 → fieldBits x 0 4 = x2 → fieldNat x 4 5 = 0 → bitAt x 30 = false → decodeCore x = .ok i) : decodeWord (BitVec.ofNat 32 w) = .ok i := by
  have hs : w = packed [(0, 4, x2.toNat), (4, 5, 0), (9, 7, x1.toNat), (16, 8, f), (24, 6, m), (30, 1, 0), (31, 1, bitNat x0)] := by rw [hw, hn]; simp only [packed]; omega
  have hk : fits 0 [(0, 4, x2.toNat), (4, 5, 0), (9, 7, x1.toNat), (16, 8, f), (24, 6, m), (30, 1, 0), (31, 1, bitNat x0)] := ⟨by decide, x2.isLt, by decide, by decide, by decide, x1.isLt, by decide, hf, by decide, hm, by decide, by decide, by decide, bitNat_lt x0, Nat.le_of_ble_eq_true rfl⟩
  subst hs
  exact decodeWord_of (packed_lt hk) (k _ (packed_get hk (k := 4) rfl) (packed_get hk (k := 3) rfl) (bitAt_of (packed_get hk (k := 6) rfl)) (fieldBits_of (packed_get hk (k := 2) rfl)) (fieldBits_of (packed_get hk (k := 0) rfl)) (packed_get hk (k := 1) rfl) (bitAt_false_of (packed_get hk (k := 5) rfl))) (by rw [he]; rfl)

theorem form43 (n m : Nat) (hm : m < 64) (f : Nat) (hf : f < 256) (hn : n = m * 0x1000000 + f * 0x10000) (x0 : Bool) {w : Nat} (hw : w = n + bitNat x0 * 0x80000000) {i : Instr} (he : endsChain i = false)
    (k : ∀ x, fieldNat x 24 6 = m → fieldNat x 16 8 = f → bitAt x 31 = x0 → fieldNat x 0 16 = 0 → bitAt x 30 = false → decodeCore x = .ok i) : decodeWord (BitVec.ofNat 32 w) = .ok i := by
  have hs : w = packed [(0, 16, 0), (16, 8, f), (24, 6, m), (30, 1, 0), (31, 1, bitNat x0)] := by rw [hw, hn]; simp only [packed]; omega
  have hk : fits 0 [(0, 16, 0), (16, 8, f), (24, 6, m), (30, 1, 0), (31, 1, bitNat x0)] := ⟨by decide, by decide, by decide, hf, by decide, hm, by decide, by decide, by decide, bitNat_lt x0, Nat.le_of_ble_eq_true rfl⟩
  subst hs
  exact decodeWord_of (packed_lt hk) (k _ (packed_get hk (k := 2) rfl) (packed_get hk (k := 1) rfl) (bitAt_of (packed_get hk (k := 4) rfl)) (packed_get hk (k := 0) rfl) (bitAt_false_of (packed_get hk (k := 3) rfl))) (by rw [he]; rfl)

theorem form44 (n m : Nat) (hm : m < 64) (f : Nat) (hf : f < 8) (hn : n = m * 0x1000000 + f * 0x200000) (x0 : Bool) (x1 : BitVec 7) (x2 : BitVec 6) {w : Nat} (hw : w = n + bitNat x0 * 0x80000000 + x1.toNat * 0x4000 + x2.toNat * 0x100) {i : Instr} (he : endsChain i = false)
    (k : ∀ x, fieldNat x 24 6 = m → fieldNat x 21 3 = f → bitAt x 31 = x0 → fieldBits x 14 7 = x1 → fieldBits x 8 6 = x2 → fieldNat x 7 1 = 0 → fieldNat x 0 7 = 0 → bitAt x 30 = false → decodeCore x = .ok i) : decodeWord (BitVec.ofNat 32 w) = .ok i := by
  have hs : w = packed [(0, 7, 0), (7, 1, 0), (8, 6, x2.toNat), (14, 7, x1.toNat), (21, 3, f), (24, 6, m), (30, 1, 0), (31, 1, bitNat x0)] := by rw [hw, hn]; simp only [packed]; omega
  have hk : fits 0 [(0, 7, 0), (7, 1, 0), (8, 6, x2.toNat), (14, 7, x1.toNat), (21, 3, f), (24, 6, m), (30, 1, 0), (31, 1, bitNat x0)] := ⟨by decide, by decide, by decide, by decide, by decide, x2.isLt, by decide, x1.isLt, by decide, hf, by decide, hm, by decide, by decide, by decide, bitNat_lt x0, Nat.le_of_ble_eq_true rfl⟩
  subst hs
  exact decodeWord_of (packed_lt hk) (k _ (packed_get hk (k := 5) rfl) (packed_get hk (k := 4) rfl) (bitAt_of (packed_get hk (k := 7) rfl)) (fieldBits_of (packed_get hk (k := 3) rfl)) (fieldBits_of (packed_get hk (k := 2) rfl)) (packed_get hk (k := 1) rfl) (packed_get hk (k := 0) rfl) (bitAt_false_of (packed_get hk (k := 6) rfl))) (by rw [he]; rfl)

theorem form45 (n m : Nat) (hm : m < 64) (f : Nat) (hf : f < 8) (hn : n = m * 0x1000000 + f * 0x200000) (x0 : Bool) (x1 : BitVec 7) {w : Nat} (hw : w = n + bitNat x0 * 0x80000000 + x1.toNat * 0x4000) {i : Instr} (he : endsChain i = false)
    (k : ∀ x, fieldNat x 24 6 = m → fieldNat x 21 3 = f → bitAt x 31 = x0 → fieldBits x 14 7 = x1 → fieldNat x 0 14 = 0 → bitAt x 30 = false → decodeCore x = .ok i) : decodeWord (BitVec.ofNat 32 w) = .ok i := by
  have hs : w = packed [(0, 14, 0), (14, 7, x1.toNat), (21, 3, f), (24, 6, m), (30, 1, 0), (31, 1, bitNat x0)] := by rw [hw, hn]; simp only [packed]; omega
  have hk : fits 0 [(0, 14, 0), (14, 7, x1.toNat), (21, 3, f), (24, 6, m), (30, 1, 0), (31, 1, bitNat x0)] := ⟨by decide, by decide, by decide, x1.isLt, by decide, hf, by decide, hm, by decide, by decide, by decide, bitNat_lt x0, Nat.le_of_ble_eq_true rfl⟩
  subst hs
  exact decodeWord_of (packed_lt hk) (k _ (packed_get hk (k := 3) rfl) (packed_get hk (k := 2) rfl) (bitAt_of (packed_get hk (k := 5) rfl)) (fieldBits_of (packed_get hk (k := 1) rfl)) (packed_get hk (k := 0) rfl) (bitAt_false_of (packed_get hk (k := 4) rfl))) (by rw [he]; rfl)

theorem form46 (n m : Nat) (hm : m < 64) (hn : n = m * 0x1000000) (x0 : Bool) (x1 : Bool) (x2 : BitVec 2) (x3 : BitVec 3) (x4 : BitVec 7) (x5 : BitVec 6) (x6 : BitVec 5) {w : Nat} (hw : w = n + bitNat x0 * 0x80000000 + bitNat x1 * 0x40000000 + x2.toNat * 0x400000 + x3.toNat * 0x80000 + x4.toNat * 0x1000 + x5.toNat * 0x40 + x6.toNat) {i : Instr} (he : endsChain i = false)
    (k : ∀ x, fieldNat x 24 6 = m → bitAt x 31 = x0 → bitAt x 30 = x1 → fieldBits x 22 2 = x2 → fieldBits x 19 3 = x3 → fieldBits x 12 7 = x4 → fieldBits x 6 6 = x5 → fieldBits x 0 5 = x6 → fieldNat x 5 1 = 0 → decodeCore x = .ok i) : decodeWord (BitVec.ofNat 32 w) = .ok i := by
  have hs : w = packed [(0, 5, x6.toNat), (5, 1, 0), (6, 6, x5.toNat), (12, 7, x4.toNat), (19, 3, x3.toNat), (22, 2, x2.toNat), (24, 6, m), (30, 1, bitNat x1), (31, 1, bitNat x0)] := by rw [hw, hn]; simp only [packed]; omega
  have hk : fits 0 [(0, 5, x6.toNat), (5, 1, 0), (6, 6, x5.toNat), (12, 7, x4.toNat), (19, 3, x3.toNat), (22, 2, x2.toNat), (24, 6, m), (30, 1, bitNat x1), (31, 1, bitNat x0)] := ⟨by decide, x6.isLt, by decide, by decide, by decide, x5.isLt, by decide, x4.isLt, by decide, x3.isLt, by decide, x2.isLt, by decide, hm, by decide, bitNat_lt x1, by decide, bitNat_lt x0, Nat.le_of_ble_eq_true rfl⟩
  subst hs
  exact decodeWord_of (packed_lt hk) (k _ (packed_get hk (k := 6) rfl) (bitAt_of (packed_get hk (k := 8) rfl)) (bitAt_of (packed_get hk (k := 7) rfl)) (fieldBits_of (packed_get hk (k := 5) rfl)) (fieldBits_of (packed_get hk (k := 4) rfl)) (fieldBits_of (packed_get hk (k := 3) rfl)) (fieldBits_of (packed_get hk (k := 2) rfl)) (fieldBits_of (packed_get hk (k := 0) rfl)) (packed_get hk (k := 1) rfl)) (by rw [he]; rfl)

theorem form47 (n m : Nat) (hm : m < 64) (hn : n = m * 0x1000000) (x0 : Bool) (x1 : Bool) (x2 : BitVec 2) (x3 : BitVec 3) (x4 : BitVec 7) (x5 : BitVec 7) (x6 : BitVec 5) {w : Nat} (hw : w = n + bitNat x0 * 0x80000000 + bitNat x1 * 0x40000000 + x2.toNat * 0x400000 + x3.toNat * 0x80000 + x4.toNat * 0x1000 + x5.toNat * 0x20 + x6.toNat) {i : Instr} (he : endsChain i = false)
    (k : ∀ x, fieldNat x 24 6 = m → bitAt x 31 = x0 → bitAt x 30 = x1 → fieldBits x 22 2 = x2 → fieldBits x 19 3 = x3 → fieldBits x 12 7 = x4 → fieldBits x 5 7 = x5 → fieldBits x 0 5 = x6 → decodeCore x = .ok i) : decodeWord (BitVec.ofNat 32 w) = .ok i := by
  have hs : w = packed [(0, 5, x6.toNat), (5, 7, x5.toNat), (12, 7, x4.toNat), (19, 3, x3.toNat), (22, 2, x2.toNat), (24, 6, m), (30, 1, bitNat x1), (31, 1, bitNat x0)] := by rw [hw, hn]; simp only [packed]; omega
  have hk : fits 0 [(0, 5, x6.toNat), (5, 7, x5.toNat), (12, 7, x4.toNat), (19, 3, x3.toNat), (22, 2, x2.toNat), (24, 6, m), (30, 1, bitNat x1), (31, 1, bitNat x0)] := ⟨by decide, x6.isLt, by decide, x5.isLt, by decide, x4.isLt, by decide, x3.isLt, by decide, x2.isLt, by decide, hm, by decide, bitNat_lt x1, by decide, bitNat_lt x0, Nat.le_of_ble_eq_true rfl⟩
  subst hs
  exact decodeWord_of (packed_lt hk) (k _ (packed_get hk (k := 5) rfl) (bitAt_of (packed_get hk (k := 7) rfl)) (bitAt_of (packed_get hk (k := 6) rfl)) (fieldBits_of (packed_get hk (k := 4) rfl)) (fieldBits_of (packed_get hk (k := 3) rfl)) (fieldBits_of (packed_get hk (k := 2) rfl)) (fieldBits_of (packed_get hk (k := 1) rfl)) (fieldBits_of (packed_get hk (k := 0) rfl))) (by rw [he]; rfl)

theorem form48 (n m : Nat) (hm : m < 64) (f : Nat) (hf : f < 8) (hn : n = m * 0x1000000 + f * 0x200000) (x0 : Bool) (x1 : Bool) (x2 : BitVec 1) (x3 : BitVec 2) (x4 : BitVec 3) (x5 : BitVec 5) (x6 : BitVec 4) (x7 : BitVec 5) {w : Nat} (hw : w = n + bitNat x0 * 0x80000000 + bitNat x1 * 0x40000000 + x2.toNat * 0x100000 + x3.toNat * 0x40000 + x4.toNat * 0x8000 + x5.toNat * 0x400 + x6.toNat * 0x40 + x7.toNat) {i : Instr} (he : endsChain i = false)
    (k : ∀ x, fieldNat x 24 6 = m → fieldNat x 21 3 = f → bitAt x 31 = x0 → bitAt x 30 = x1 → fieldBits x 20 1 = x2 → fieldBits x 18 2 = x3 → fieldBits x 15 3 = x4 → fieldBits x 10 5 = x5 → fieldBits x 6 4 = x6 → fieldBits x 0 5 = x7 → fieldNat x 5 1 = 0 → decodeCore x = .ok i) : decodeWord (BitVec.ofNat 32 w) = .ok i := by
  have hs : w = packed [(0, 5, x7.toNat), (5, 1, 0), (6, 4, x6.toNat), (10, 5, x5.toNat), (15, 3, x4.toNat), (18, 2, x3.toNat), (20, 1, x2.toNat), (21, 3, f), (24, 6, m), (30, 1, bitNat x1), (31, 1, bitNat x0)] := by rw [hw, hn]; simp only [packed]; omega
  have hk : fits 0 [(0, 5, x7.toNat), (5, 1, 0), (6, 4, x6.toNat), (10, 5, x5.toNat), (15, 3, x4.toNat), (18, 2, x3.toNat), (20, 1, x2.toNat), (21, 3, f), (24, 6, m), (30, 1, bitNat x1), (31, 1, bitNat x0)] := ⟨by decide, x7.isLt, by decide, by decide, by decide, x6.isLt, by decide, x5.isLt, by decide, x4.isLt, by decide, x3.isLt, by decide, x2.isLt, by decide, hf, by decide, hm, by decide, bitNat_lt x1, by decide, bitNat_lt x0, Nat.le_of_ble_eq_true rfl⟩
  subst hs
  exact decodeWord_of (packed_lt hk) (k _ (packed_get hk (k := 8) rfl) (packed_get hk (k := 7) rfl) (bitAt_of (packed_get hk (k := 10) rfl)) (bitAt_of (packed_get hk (k := 9) rfl)) (fieldBits_of (packed_get hk (k := 6) rfl)) (fieldBits_of (packed_get hk (k := 5) rfl)) (fieldBits_of (packed_get hk (k := 4) rfl)) (fieldBits_of (packed_get hk (k := 3) rfl)) (fieldBits_of (packed_get hk (k := 2) rfl)) (fieldBits_of (packed_get hk (k := 0) rfl)) (packed_get hk (k := 1) rfl)) (by rw [he]; rfl)

theorem form49 (n m : Nat) (hm : m < 64) (f : Nat) (hf : f < 8) (hn : n = m * 0x1000000 + f * 0x200000) (x0 : Bool) (x1 : Bool) (x2 : BitVec 2) (x3 : BitVec 3) (x4 : BitVec 5) (x5 : BitVec 4) (x6 : BitVec 5) {w : Nat} (hw : w = n + bitNat x0 * 0x80000000 + bitNat x1 * 0x40000000 + x2.toNat * 0x40000 + x3.toNat * 0x8000 + x4.toNat * 0x400 + x5.toNat * 0x40 + x6.toNat) {i : Instr} (he : endsChain i = false)
    (k : ∀ x, fieldNat x 24 6 = m → fieldNat x 21 3 = f → bitAt x 31 = x0 → bitAt x 30 = x1 → fieldBits x 18 2 = x2 → fieldBits x 15 3 = x3 → fieldBits x 10 5 = x4 → fieldBits x 6 4 = x5 → fieldBits x 0 5 = x6 → fieldNat x 20 1 = 0 → fieldNat x 5 1 = 0 → decodeCore x = .ok i) : decodeWord (BitVec.ofNat 32 w) = .ok i := by
  have hs : w = packed [(0, 5, x6.toNat), (5, 1, 0), (6, 4, x5.toNat), (10, 5, x4.toNat), (15, 3, x3.toNat), (18, 2, x2.toNat), (20, 1, 0), (21, 3, f), (24, 6, m), (30, 1, bitNat x1), (31, 1, bitNat x0)] := by rw [hw, hn]; simp only [packed]; omega
  have hk : fits 0 [(0, 5, x6.toNat), (5, 1, 0), (6, 4, x5.toNat), (10, 5, x4.toNat), (15, 3, x3.toNat), (18, 2, x2.toNat), (20, 1, 0), (21, 3, f), (24, 6, m), (30, 1, bitNat x1), (31, 1, bitNat x0)] := ⟨by decide, x6.isLt, by decide, by decide, by decide, x5.isLt, by decide, x4.isLt, by decide, x3.isLt, by decide, x2.isLt, by decide, by decide, by decide, hf, by decide, hm, by decide, bitNat_lt x1, by decide, bitNat_lt x0, Nat.le_of_ble_eq_true rfl⟩
  subst hs
  exact decodeWord_of (packed_lt hk) (k _ (packed_get hk (k := 8) rfl) (packed_get hk (k := 7) rfl) (bitAt_of (packed_get hk (k := 10) rfl)) (bitAt_of (packed_get hk (k := 9) rfl)) (fieldBits_of (packed_get hk (k := 5) rfl)) (fieldBits_of (packed_get hk (k := 4) rfl)) (fieldBits_of (packed_get hk (k := 3) rfl)) (fieldBits_of (packed_get hk (k := 2) rfl)) (fieldBits_of (packed_get hk (k := 0) rfl)) (packed_get hk (k := 6) rfl) (packed_get hk (k := 1) rfl)) (by rw [he]; rfl)

theorem form50 (n m : Nat) (hm : m < 64) (f : Nat) (hf : f < 8) (hn : n = m * 0x1000000 + f * 0x200000 + 0x40000) (x0 : Bool) (x1 : Bool) (x2 : BitVec 1) (x3 : BitVec 3) (x4 : BitVec 5) (x5 : BitVec 4) {w : Nat} (hw : w = n + bitNat x0 * 0x80000000 + bitNat x1 * 0x40000000 + x2.toNat * 0x100000 + x3.toNat * 0x8000 + x4.toNat * 0x400 + x5.toNat * 0x40) {i : Instr} (he : endsChain i = false)
    (k : ∀ x, fieldNat x 24 6 = m → fieldNat x 21 3 = f → bitAt x 31 = x0 → bitAt x 30 = x1 → fieldBits x 20 1 = x2 → fieldBits x 15 3 = x3 → fieldBits x 10 5 = x4 → fieldBits x 6 4 = x5 → fieldNat x 18 2 = 1 → fieldNat x 5 1 = 0 → fieldNat x 0 5 = 0 → decodeCore x = .ok i) : decodeWord (BitVec.ofNat 32 w) = .ok i := by
  have hs : w = packed [(0, 5, 0), (5, 1, 0), (6, 4, x5.toNat), (10, 5, x4.toNat), (15, 3, x3.toNat), (18, 2, 1), (20, 1, x2.toNat), (21, 3, f), (24, 6, m), (30, 1, bitNat x1), (31, 1, bitNat x0)] := by rw [hw, hn]; simp only [packed]; omega
  have hk : fits 0 [(0, 5, 0), (5, 1, 0), (6, 4, x5.toNat), (10, 5, x4.toNat), (15, 3, x3.toNat), (18, 2, 1), (20, 1, x2.toNat), (21, 3, f), (24, 6, m), (30, 1, bitNat x1), (31, 1, bitNat x0)] := ⟨by decide, by decide, by decide, by decide, by decide, x5.isLt, by decide, x4.isLt, by decide, x3.isLt, by decide, by decide, by decide, x2.isLt, by decide, hf, by decide, hm, by decide, bitNat_lt x1, by decide, bitNat_lt x0, Nat.le_of_ble_eq_true rfl⟩
  subst hs
  exact decodeWord_of (packed_lt hk) (k _ (packed_get hk (k := 8) rfl) (packed_get hk (k := 7) rfl) (bitAt_of (packed_get hk (k := 10) rfl)) (bitAt_of (packed_get hk (k := 9) rfl)) (fieldBits_of (packed_get hk (k := 6) rfl)) (fieldBits_of (packed_get hk (k := 4) rfl)) (fieldBits_of (packed_get hk (k := 3) rfl)) (fieldBits_of (packed_get hk (k := 2) rfl)) (packed_get hk (k := 5) rfl) (packed_get hk (k := 1) rfl) (packed_get hk (k := 0) rfl)) (by rw [he]; rfl)

theorem form51 (n m : Nat) (hm : m < 64) (f : Nat) (hf : f < 8) (hn : n = m * 0x1000000 + f * 0x200000 + 0x80000) (x0 : Bool) (x1 : Bool) (x2 : BitVec 1) (x3 : BitVec 3) (x4 : BitVec 4) (x5 : BitVec 5) {w : Nat} (hw : w = n + bitNat x0 * 0x80000000 + bitNat x1 * 0x40000000 + x2.toNat * 0x100000 + x3.toNat * 0x8000 + x4.toNat * 0x40 + x5.toNat) {i : Instr} (he : endsChain i = false)
    (k : ∀ x, fieldNat x 24 6 = m → fieldNat x 21 3 = f → bitAt x 31 = x0 → bitAt x 30 = x1 → fieldBits x 20 1 = x2 → fieldBits x 15 3 = x3 → fieldBits x 6 4 = x4 → fieldBits x 0 5 = x5 → fieldNat x 18 2 = 2 → fieldNat x 5 1 = 0 → fieldNat x 10 5 = 0 → decodeCore x = .ok i) : decodeWord (BitVec.ofNat 32 w) = .ok i := by
  have hs : w = packed [(0, 5, x5.toNat), (5, 1, 0), (6, 4, x4.toNat), (10, 5, 0), (15, 3, x3.toNat), (18, 2, 2), (20, 1, x2.toNat), (21, 3, f), (24, 6, m), (30, 1, bitNat x1), (31, 1, bitNat x0)] := by rw [hw, hn]; simp only [packed]; omega
  have hk : fits 0 [(0, 5, x5.toNat), (5, 1, 0), (6, 4, x4.toNat), (10, 5, 0), (15, 3, x3.toNat), (18, 2, 2), (20, 1, x2.toNat), (21, 3, f), (24, 6, m), (30, 1, bitNat x1), (31, 1, bitNat x0)] := ⟨by decide, x5.isLt, by decide, by decide, by decide, x4.isLt, by decide, by decide, by decide, x3.isLt, by decide, by decide, by decide, x2.isLt, by decide, hf, by decide, hm, by decide, bitNat_lt x1, by decide, bitNat_lt x0, Nat.le_of_ble_eq_true rfl⟩
  subst hs
  exact decodeWord_of (packed_lt hk) (k _ (packed_get hk (k := 8) rfl) (packed_get hk (k := 7) rfl) (bitAt_of (packed_get hk (k := 10) rfl)) (bitAt_of (packed_get hk (k := 9) rfl)) (fieldBits_of (packed_get hk (k := 6) rfl)) (fieldBits_of (packed_get hk (k := 4) rfl)) (fieldBits_of (packed_get hk (k := 2) rfl)) (fieldBits_of (packed_get hk (k := 0) rfl)) (packed_get hk (k := 5) rfl) (packed_get hk (k := 1) rfl) (packed_get hk (k := 3) rfl)) (by rw [he]; rfl)

theorem form52 (n m : Nat) (hm : m < 64) (f : Nat) (hf : f < 8) (hn : n = m * 0x1000000 + f * 0x200000) (x0 : Bool) (x1 : Bool) (x2 : BitVec 2) (x3 : BitVec 3) {w : Nat} (hw : w = n + bitNat x0 * 0x80000000 + bitNat x1 * 0x40000000 + x2.toNat * 0x40000 + x3.toNat * 0x8000) {i : Instr} (he : endsChain i = false)
    (k : ∀ x, fieldNat x 24 6 = m → fieldNat x 21 3 = f → bitAt x 31 = x0 → bitAt x 30 = x1 → fieldBits x 18 2 = x2 → fieldBits x 15 3 = x3 → fieldNat x 0 15 = 0 → fieldNat x 20 1 = 0 → decodeCore x = .ok i) : decodeWord (BitVec.ofNat 32 w) = .ok i := by
  have hs : w = packed [(0, 15, 0), (15, 3, x3.toNat), (18, 2, x2.toNat), (20, 1, 0), (21, 3, f), (24, 6, m), (30, 1, bitNat x1), (31, 1, bitNat x0)] := by rw [hw, hn]; simp only [packed]; omega
  have hk : fits 0 [(0, 15, 0), (15, 3, x3.toNat), (18, 2, x2.toNat), (20, 1, 0), (21, 3, f), (24, 6, m), (30, 1, bitNat x1), (31, 1, bitNat x0)] := ⟨by decide, by decide, by decide, x3.isLt, by decide, x2.isLt, by decide, by decide, by decide, hf, by decide, hm, by decide, bitNat_lt x1, by decide, bitNat_lt x0, Nat.le_of_ble_eq_true rfl⟩
  subst hs
  exact decodeWord_of (packed_lt hk) (k _ (packed_get hk (k := 5) rfl) (packed_get hk (k := 4) rfl) (bitAt_of (packed_get hk (k := 7) rfl)) (bitAt_of (packed_get hk (k := 6) rfl)) (fieldBits_of (packed_get hk (k := 2) rfl)) (fieldBits_of (packed_get hk (k := 1) rfl)) (packed_get hk (k := 0) rfl) (packed_get hk (k := 3) rfl)) (by rw [he]; rfl)

theorem form53 (n m : Nat) (hm : m < 64) (f : Nat) (hf : f < 8) (hn : n = m * 0x1000000 + f * 0x200000 + 0xC0000) (x0 : Bool) (x1 : Bool) (x2 : BitVec 3) {w : Nat} (hw : w = n + bitNat x0 * 0x80000000 + bitNat x1 * 0x40000000 + x2.toNat * 0x8000) {i : Instr} (he : endsChain i = false)
    (k : ∀ x, fieldNat x 24 6 = m → fieldNat x 21 3 = f → bitAt x 31 = x0 → bitAt x 30 = x1 → fieldBits x 15 3 = x2 → fieldNat x 18 2 = 3 → fieldNat x 0 15 = 0 → fieldNat x 20 1 = 0 → decodeCore x = .ok i) : decodeWord (BitVec.ofNat 32 w) = .ok i := by
  have hs : w = packed [(0, 15, 0), (15, 3, x2.toNat), (18, 2, 3), (20, 1, 0), (21, 3, f), (24, 6, m), (30, 1, bitNat x1), (31, 1, bitNat x0)] := by rw [hw, hn]; simp only [packed]; omega
  have hk : fits 0 [(0, 15, 0), (15, 3, x2.toNat), (18, 2, 3), (20, 1, 0), (21, 3, f), (24, 6, m), (30, 1, bitNat x1), (31, 1, bitNat x0)] := ⟨by decide, by decide, by decide, x2.isLt, by decide, by decide, by decide, by decide, by decide, hf, by decide, hm, by decide, bitNat_lt x1, by decide, bitNat_lt x0, Nat.le_of_ble_eq_true rfl⟩
  subst hs
  exact decodeWord_of (packed_lt hk) (k _ (packed_get hk (k := 5) rfl) (packed_get hk (k := 4) rfl) (bitAt_of (packed_get hk (k := 7) rfl)) (bitAt_of (packed_get hk (k := 6) rfl)) (fieldBits_of (packed_get hk (k := 1) rfl)) (packed_get hk (k := 2) rfl) (packed_get hk (k := 0) rfl) (packed_get hk (k := 3) rfl)) (by rw [he]; rfl)

theorem form54 (n m : Nat) (hm : m < 64) (f : Nat) (hf : f < 8) (hn : n = m * 0x1000000 + f * 0x200000) (x0 : Bool) (x1 : Bool) (x2 : BitVec 6) (x3 : BitVec 2) {w : Nat} (hw : w = n + bitNat x0 * 0x80000000 + bitNat x1 * 0x40000000 + x2.toNat * 0x100 + x3.toNat) {i : Instr} (he : endsChain i = false)
    (k : ∀ x, fieldNat x 24 6 = m → fieldNat x 21 3 = f → bitAt x 31 = x0 → bitAt x 30 = x1 → fieldBits x 8 6 = x2 → fieldBits x 0 2 = x3 → fieldNat x 7 1 = 0 → fieldNat x 2 5 = 0 → fieldNat x 14 7 = 0 → decodeCore x = .ok i) : decodeWord (BitVec.ofNat 32 w) = .ok i := by
  have hs : w = packed [(0, 2, x3.toNat), (2, 5, 0), (7, 1, 0), (8, 6, x2.toNat), (14, 7, 0), (21, 3, f), (24, 6, m), (30, 1, bitNat x1), (31, 1, bitNat x0)] := by rw [hw, hn]; simp only [packed]; omega
  have hk : fits 0 [(0, 2, x3.toNat), (2, 5, 0), (7, 1, 0), (8, 6, x2.toNat), (14, 7, 0), (21, 3, f), (24, 6, m), (30, 1, bitNat x1), (31, 1, bitNat x0)] := ⟨by decide, x3.isLt, by decide, by decide, by decide, by decide, by decide, x2.isLt, by decide, by decide, by decide, hf, by decide, hm, by decide, bitNat_lt x1, by decide, bitNat_lt x0, Nat.le_of_ble_eq_true rfl⟩
  subst hs
  exact decodeWord_of (packed_lt hk) (k _ (packed_get hk (k := 6) rfl) (packed_get hk (k := 5) rfl) (bitAt_of (packed_get hk (k := 8) rfl)) (bitAt_of (packed_get hk (k := 7) rfl)) (fieldBits_of (packed_get hk (k := 3) rfl)) (fieldBits_of (packed_get hk (k := 0) rfl)) (packed_get hk (k := 2) rfl) (packed_get hk (k := 1) rfl) (packed_get hk (k := 4) rfl)) (by rw [he]; rfl)

theorem form55 (n m : Nat) (hm : m < 64) (f : Nat) (hf : f < 8) (hn : n = m * 0x1000000 + f * 0x200000) (x0 : Bool) (x1 : Bool) (x2 : BitVec 6) {w : Nat} (hw : w = n + bitNat x0 * 0x80000000 + bitNat x1 * 0x40000000 + x2.toNat * 0x100) {i : Instr} (he : endsChain i = false)
    (k : ∀ x, fieldNat x 24 6 = m → fieldNat x 21 3 = f → bitAt x 31 = x0 → bitAt x 30 = x1 → fieldBits x 8 6 = x2 → fieldNat x 7 1 = 0 → fieldNat x 0 7 = 0 → fieldNat x 14 7 = 0 → decodeCore x = .ok i) : decodeWord (BitVec.ofNat 32 w) = .ok i := by
  have hs : w = packed [(0, 7, 0), (7, 1, 0), (8, 6, x2.toNat), (14, 7, 0), (21, 3, f), (24, 6, m), (30, 1, bitNat x1), (31, 1, bitNat x0)] := by rw [hw, hn]; simp only [packed]; omega
  have hk : fits 0 [(0, 7, 0), (7, 1, 0), (8, 6, x2.toNat), (14, 7, 0), (21, 3, f), (24, 6, m), (30, 1, bitNat x1), (31, 1, bitNat x0)] := ⟨by decide, by decide, by decide, by decide, by decide, x2.isLt, by decide, by decide, by decide, hf, by decide, hm, by decide, bitNat_lt x1, by decide, bitNat_lt x0, Nat.le_of_ble_eq_true rfl⟩
  subst hs
  exact decodeWord_of (packed_lt hk) (k _ (packed_get hk (k := 5) rfl) (packed_get hk (k := 4) rfl) (bitAt_of (packed_get hk (k := 7) rfl)) (bitAt_of (packed_get hk (k := 6) rfl)) (fieldBits_of (packed_get hk (k := 2) rfl)) (packed_get hk (k := 1) rfl) (packed_get hk (k := 0) rfl) (packed_get hk (k := 3) rfl)) (by rw [he]; rfl)

theorem form56 (n m : Nat) (hm : m < 64) (f : Nat) (hf : f < 8) (hn : n = m * 0x1000000 + f * 0x200000) (x0 : Bool) (x1 : Bool) (x2 : BitVec 6) (x3 : BitVec 7) {w : Nat} (hw : w = n + bitNat x0 * 0x80000000 + bitNat x1 * 0x40000000 + x2.toNat * 0x100 + x3.toNat) {i : Instr} (he : endsChain i = false)
    (k : ∀ x, fieldNat x 24 6 = m → fieldNat x 21 3 = f → bitAt x 31 = x0 → bitAt x 30 = x1 → fieldBits x 8 6 = x2 → fieldBits x 0 7 = x3 → fieldNat x 7 1 = 0 → fieldNat x 14 7 = 0 → decodeCore x = .ok i) : decodeWord (BitVec.ofNat 32 w) = .ok i := by
  have hs : w = packed [(0, 7, x3.toNat), (7, 1, 0), (8, 6, x2.toNat), (14, 7, 0), (21, 3, f), (24, 6, m), (30, 1, bitNat x1), (31, 1, bitNat x0)] := by rw [hw, hn]; simp only [packed]; omega
  have hk : fits 0 [(0, 7, x3.toNat), (7, 1, 0), (8, 6, x2.toNat), (14, 7, 0), (21, 3, f), (24, 6, m), (30, 1, bitNat x1), (31, 1, bitNat x0)] := ⟨by decide, x3.isLt, by decide, by decide, by decide, x2.isLt, by decide, by decide, by decide, hf, by decide, hm, by decide, bitNat_lt x1, by decide, bitNat_lt x0, Nat.le_of_ble_eq_true rfl⟩
  subst hs
  exact decodeWord_of (packed_lt hk) (k _ (packed_get hk (k := 5) rfl) (packed_get hk (k := 4) rfl) (bitAt_of (packed_get hk (k := 7) rfl)) (bitAt_of (packed_get hk (k := 6) rfl)) (fieldBits_of (packed_get hk (k := 2) rfl)) (fieldBits_of (packed_get hk (k := 0) rfl)) (packed_get hk (k := 1) rfl) (packed_get hk (k := 3) rfl)) (by rw [he]; rfl)

theorem form57 (n m : Nat) (hm : m < 64) (f : Nat) (hf : f < 8) (hn : n = m * 0x1000000 + f * 0x200000) (x0 : Bool) (x1 : Bool) {w : Nat} (hw : w = n + bitNat x0 * 0x80000000 + bitNat x1 * 0x40000000) {i : Instr} (he : endsChain i = false)
    (k : ∀ x, fieldNat x 24 6 = m → fieldNat x 21 3 = f → bitAt x 31 = x0 → bitAt x 30 = x1 → fieldNat x 0 21 = 0 → decodeCore x = .ok i) : decodeWord (BitVec.ofNat 32 w) = .ok i := by
  have hs : w = packed [(0, 21, 0), (21, 3, f), (24, 6, m), (30, 1, bitNat x1), (31, 1, bitNat x0)] := by rw [hw, hn]; simp only [packed]; omega
  have hk : fits 0 [(0, 21, 0), (21, 3, f), (24, 6, m), (30, 1, bitNat x1), (31, 1, bitNat x0)] := ⟨by decide, by decide, by decide, hf, by decide, hm, by decide, bitNat_lt x1, by decide, bitNat_lt x0, Nat.le_of_ble_eq_true rfl⟩
  subst hs
  exact decodeWord_of (packed_lt hk) (k _ (packed_get hk (k := 2) rfl) (packed_get hk (k := 1) rfl) (bitAt_of (packed_get hk (k := 4) rfl)) (bitAt_of (packed_get hk (k := 3) rfl)) (packed_get hk (k := 0) rfl)) (by rw [he]; rfl)

theorem form58 (n m : Nat) (hm : m < 64) (f : Nat) (hf : f < 4) (hn : n = m * 0x1000000 + f * 0x400000) (x0 : Bool) (x1 : BitVec 2) (x2 : BitVec 7) (x3 : BitVec 6) {w : Nat} (hw : w = n + bitNat x0 * 0x80000000 + x1.toNat * 0x100000 + x2.toNat * 0x2000 + x3.toNat * 0x80) {i : Instr} (he : endsChain i = false)
    (k : ∀ x, fieldNat x 24 6 = m → fieldNat x 22 2 = f → bitAt x 31 = x0 → fieldBits x 20 2 = x1 → fieldBits x 13 7 = x2 → fieldBits x 7 6 = x3 → fieldNat x 6 1 = 0 → fieldNat x 0 6 = 0 → bitAt x 30 = false → decodeCore x = .ok i) : decodeWord (BitVec.ofNat 32 w) = .ok i := by
  have hs : w = packed [(0, 6, 0), (6, 1, 0), (7, 6, x3.toNat), (13, 7, x2.toNat), (20, 2, x1.toNat), (22, 2, f), (24, 6, m), (30, 1, 0), (31, 1, bitNat x0)] := by rw [hw, hn]; simp only [packed]; omega
  have hk : fits 0 [(0, 6, 0), (6, 1, 0), (7, 6, x3.toNat), (13, 7, x2.toNat), (20, 2, x1.toNat), (22, 2, f), (24, 6, m), (30, 1, 0), (31, 1, bitNat x0)] := ⟨by decide, by decide, by decide, by decide, by decide, x3.isLt, by decide, x2.isLt, by decide, x1.isLt, by decide, hf, by decide, hm, by decide, by decide, by decide, bitNat_lt x0, Nat.le_of_ble_eq_true rfl⟩
  subst hs
  exact decodeWord_of (packed_lt hk) (k _ (packed_get hk (k := 6) rfl) (packed_get hk (k := 5) rfl) (bitAt_of (packed_get hk (k := 8) rfl)) (fieldBits_of (packed_get hk (k := 4) rfl)) (fieldBits_of (packed_get hk (k := 3) rfl)) (fieldBits_of (packed_get hk (k := 2) rfl)) (packed_get hk (k := 1) rfl) (packed_get hk (k := 0) rfl) (bitAt_false_of (packed_get hk (k := 7) rfl))) (by rw [he]; rfl)

theorem form59 (n m : Nat) (hm : m < 64) (f : Nat) (hf : f < 4) (hn : n = m * 0x1000000 + f * 0x400000) (x0 : Bool) (x1 : BitVec 2) (x2 : BitVec 6) (x3 : BitVec 7) {w : Nat} (hw : w = n + bitNat x0 * 0x80000000 + x1.toNat * 0x100000 + x2.toNat * 0x4000 + x3.toNat * 0x40) {i : Instr} (he : endsChain i = false)
    (k : ∀ x, fieldNat x 24 6 = m → fieldNat x 22 2 = f → bitAt x 31 = x0 → fieldBits x 20 2 = x1 → fieldBits x 14 6 = x2 → fieldBits x 6 7 = x3 → fieldNat x 13 1 = 0 → fieldNat x 0 6 = 0 → bitAt x 30 = false → decodeCore x = .ok i) : decodeWord (BitVec.ofNat 32 w) = .ok i := by
  have hs : w = packed [(0, 6, 0), (6, 7, x3.toNat), (13, 1, 0), (14, 6, x2.toNat), (20, 2, x1.toNat), (22, 2, f), (24, 6, m), (30, 1, 0), (31, 1, bitNat x0)] := by rw [hw, hn]; simp only [packed]; omega
  have hk : fits 0 [(0, 6, 0), (6, 7, x3.toNat), (13, 1, 0), (14, 6, x2.toNat), (20, 2, x1.toNat), (22, 2, f), (24, 6, m), (30, 1, 0), (31, 1, bitNat x0)] := ⟨by decide, by decide, by decide, x3.isLt, by decide, by decide, by decide, x2.isLt, by decide, x1.isLt, by decide, hf, by decide, hm, by decide, by decide, by decide, bitNat_lt x0, Nat.le_of_ble_eq_true rfl⟩
  subst hs
  exact decodeWord_of (packed_lt hk) (k _ (packed_get hk (k := 6) rfl) (packed_get hk (k := 5) rfl) (bitAt_of (packed_get hk (k := 8) rfl)) (fieldBits_of (packed_get hk (k := 4) rfl)) (fieldBits_of (packed_get hk (k := 3) rfl)) (fieldBits_of (packed_get hk (k := 1) rfl)) (packed_get hk (k := 2) rfl) (packed_get hk (k := 0) rfl) (bitAt_false_of (packed_get hk (k := 7) rfl))) (by rw [he]; rfl)

theorem form60 (n m : Nat) (hm : m < 64) (f : Nat) (hf : f < 4) (hn : n = m * 0x1000000 + f * 0x400000) (x0 : Bool) (x1 : BitVec 2) (x2 : BitVec 6) (x3 : BitVec 6) {w : Nat} (hw : w = n + bitNat x0 * 0x80000000 + x1.toNat * 0x100000 + x2.toNat * 0x4000 + x3.toNat * 0x80) {i : Instr} (he : endsChain i = false)
    (k : ∀ x, fieldNat x 24 6 = m → fieldNat x 22 2 = f → bitAt x 31 = x0 → fieldBits x 20 2 = x1 → fieldBits x 14 6 = x2 → fieldBits x 7 6 = x3 → fieldNat x 6 1 = 0 → fieldNat x 13 1 = 0 → fieldNat x 0 6 = 0 → bitAt x 30 = false → decodeCore x = .ok i) : decodeWord (BitVec.ofNat 32 w) = .ok i := by
  have hs : w = packed [(0, 6, 0), (6, 1, 0), (7, 6, x3.toNat), (13, 1, 0), (14, 6, x2.toNat), (20, 2, x1.toNat), (22, 2, f), (24, 6, m), (30, 1, 0), (31, 1, bitNat x0)] := by rw [hw, hn]; simp only [packed]; omega
  have hk : fits 0 [(0, 6, 0), (6, 1, 0), (7, 6, x3.toNat), (13, 1, 0), (14, 6, x2.toNat), (20, 2, x1.toNat), (22, 2, f), (24, 6, m), (30, 1, 0), (31, 1, bitNat x0)] := ⟨by decide, by decide, by decide, by decide, by decide, x3.isLt, by decide, by decide, by decide, x2.isLt, by decide, x1.isLt, by decide, hf, by decide, hm, by decide, by decide, by decide, bitNat_lt x0, Nat.le_of_ble_eq_true rfl⟩
  subst hs
  exact decodeWord_of (packed_lt hk) (k _ (packed_get hk (k := 7) rfl) (packed_get hk (k := 6) rfl) (bitAt_of (packed_get hk (k := 9) rfl)) (fieldBits_of (packed_get hk (k := 5) rfl)) (fieldBits_of (packed_get hk (k := 4) rfl)) (fieldBits_of (packed_get hk (k := 2) rfl)) (packed_get hk (k := 1) rfl) (packed_get hk (k := 3) rfl) (packed_get hk (k := 0) rfl) (bitAt_false_of (packed_get hk (k := 8) rfl))) (by rw [he]; rfl)

theorem form61 (n m : Nat) (hm : m < 64) (f : Nat) (hf : f < 4) (hn : n = m * 0x1000000 + f * 0x400000) (x0 : Bool) (x1 : BitVec 2) (x2 : BitVec 7) (x3 : BitVec 7) {w : Nat} (hw : w = n + bitNat x0 * 0x80000000 + x1.toNat * 0x100000 + x2.toNat * 0x2000 + x3.toNat * 0x40) {i : Instr} (he : endsChain i = false)
    (k : ∀ x, fieldNat x 24 6 = m → fieldNat x 22 2 = f → bitAt x 31 = x0 → fieldBits x 20 2 = x1 → fieldBits x 13 7 = x2 → fieldBits x 6 7 = x3 → fieldNat x 0 6 = 0 → bitAt x 30 = false → decodeCore x = .ok i) : decodeWord (BitVec.ofNat 32 w) = .ok i := by
  have hs : w = packed [(0, 6, 0), (6, 7, x3.toNat), (13, 7, x2.toNat), (20, 2, x1.toNat), (22, 2, f), (24, 6, m), (30, 1, 0), (31, 1, bitNat x0)] := by rw [hw, hn]; simp only [packed]; omega
  have hk : fits 0 [(0, 6, 0), (6, 7, x3.toNat), (13, 7, x2.toNat), (20, 2, x1.toNat), (22, 2, f), (24, 6, m), (30, 1, 0), (31, 1, bitNat x0)] := ⟨by decide, by decide, by decide, x3.isLt, by decide, x2.isLt, by decide, x1.isLt, by decide, hf, by decide, hm, by decide, by decide, by decide, bitNat_lt x0, Nat.le_of_ble_eq_true rfl⟩
  subst hs
  exact decodeWord_of (packed_lt hk) (k _ (packed_get hk (k := 5) rfl) (packed_get hk (k := 4) rfl) (bitAt_of (packed_get hk (k := 7) rfl)) (fieldBits_of (packed_get hk (k := 3) rfl)) (fieldBits_of (packed_get hk (k := 2) rfl)) (fieldBits_of (packed_get hk (k := 1) rfl)) (packed_get hk (k := 0) rfl) (bitAt_false_of (packed_get hk (k := 6) rfl))) (by rw [he]; rfl)

theorem form62 (n m : Nat) (hm : m < 64) (f : Nat) (hf : f < 8) (hn : n = m * 0x1000000 + f * 0x200000) (x0 : Bool) (x1 : BitVec 7) (x2 : BitVec 7) {w : Nat} (hw : w = n + bitNat x0 * 0x80000000 + x1.toNat * 0x80 + x2.toNat) {i : Instr} (he : endsChain i = false)
    (k : ∀ x, fieldNat x 24 6 = m → fieldNat x 21 3 = f → bitAt x 31 = x0 → fieldBits x 7 7 = x1 → fieldBits x 0 7 = x2 → fieldNat x 14 7 = 0 → bitAt x 30 = false → decodeCore x = .ok i) : decodeWord (BitVec.ofNat 32 w) = .ok i := by
  have hs : w = packed [(0, 7, x2.toNat), (7, 7, x1.toNat), (14, 7, 0), (21, 3, f), (24, 6, m), (30, 1, 0), (31, 1, bitNat x0)] := by rw [hw, hn]; simp only [packed]; omega
  have hk : fits 0 [(0, 7, x2.toNat), (7, 7, x1.toNat), (14, 7, 0), (21, 3, f), (24, 6, m), (30, 1, 0), (31, 1, bitNat x0)] := ⟨by decide, x2.isLt, by decide, x1.isLt, by decide, by decide, by decide, hf, by decide, hm, by decide, by decide, by decide, bitNat_lt x0, Nat.le_of_ble_eq_true rfl⟩
  subst hs
  exact decodeWord_of (packed_lt hk) (k _ (packed_get hk (k := 4) rfl) (packed_get hk (k := 3) rfl) (bitAt_of (packed_get hk (k := 6) rfl)) (fieldBits_of (packed_get hk (k := 1) rfl)) (fieldBits_of (packed_get hk (k := 0) rfl)) (packed_get hk (k := 2) rfl) (bitAt_false_of (packed_get hk (k := 5) rfl))) (by rw [he]; rfl)

theorem form63 (n m : Nat) (hm : m < 64) (f : Nat) (hf : f < 8) (hn : n = m * 0x1000000 + f * 0x200000) (x0 : Bool) (x1 : BitVec 7) (x2 : BitVec 3) {w : Nat} (hw : w = n + bitNat x0 * 0x80000000 + x1.toNat * 0x4000 + x2.toNat) {i : Instr} (he : endsChain i = false)
    (k : ∀ x, fieldNat x 24 6 = m → fieldNat x 21 3 = f → bitAt x 31 = x0 → fieldBits x 14 7 = x1 → fieldBits x 0 3 = x2 → fieldNat x 3 11 = 0 → bitAt x 30 = false → decodeCore x = .ok i) : decodeWord (BitVec.ofNat 32 w) = .ok i := by
  have hs : w = packed [(0, 3, x2.toNat), (3, 11, 0), (14, 7, x1.toNat), (21, 3, f), (24, 6, m), (30, 1, 0), (31, 1, bitNat x0)] := by rw [hw, hn]; simp only [packed]; omega
  have hk : fits 0 [(0, 3, x2.toNat), (3, 11, 0), (14, 7, x1.toNat), (21, 3, f), (24, 6, m), (30, 1, 0), (31, 1, bitNat x0)] := ⟨by decide, x2.isLt, by decide, by decide, by decide, x1.isLt, by decide, hf, by decide, hm, by decide, by decide, by decide, bitNat_lt x0, Nat.le_of_ble_eq_true rfl⟩
  subst hs
  exact decodeWord_of (packed_lt hk) (k _ (packed_get hk (k := 4) rfl) (packed_get hk (k := 3) rfl) (bitAt_of (packed_get hk (k := 6) rfl)) (fieldBits_of (packed_get hk (k := 2) rfl)) (fieldBits_of (packed_get hk (k := 0) rfl)) (packed_get hk (k := 1) rfl) (bitAt_false_of (packed_get hk (k := 5) rfl))) (by rw [he]; rfl)

theorem form64 (n m : Nat) (hm : m < 64) (f : Nat) (hf : f < 8) (hn : n = m * 0x1000000 + f * 0x200000) (x0 : Bool) (x1 : BitVec 3) (x2 : BitVec 7) {w : Nat} (hw : w = n + bitNat x0 * 0x80000000 + x1.toNat * 0x4000 + x2.toNat * 0x80) {i : Instr} (he : endsChain i = false)
    (k : ∀ x, fieldNat x 24 6 = m → fieldNat x 21 3 = f → bitAt x 31 = x0 → fieldBits x 14 3 = x1 → fieldBits x 7 7 = x2 → fieldNat x 0 7 = 0 → fieldNat x 17 4 = 0 → bitAt x 30 = false → decodeCore x = .ok i) : decodeWord (BitVec.ofNat 32 w) = .ok i := by
  have hs : w = packed [(0, 7, 0), (7, 7, x2.toNat), (14, 3, x1.toNat), (17, 4, 0), (21, 3, f), (24, 6, m), (30, 1, 0), (31, 1, bitNat x0)] := by rw [hw, hn]; simp only [packed]; omega
  have hk : fits 0 [(0, 7, 0), (7, 7, x2.toNat), (14, 3, x1.toNat), (17, 4, 0), (21, 3, f), (24, 6, m), (30, 1, 0), (31, 1, bitNat x0)] := ⟨by decide, by decide, by decide, x2.isLt, by decide, x1.isLt, by decide, by decide, by decide, hf, by decide, hm, by decide, by decide, by decide, bitNat_lt x0, Nat.le_of_ble_eq_true rfl⟩
  subst hs
  exact decodeWord_of (packed_lt hk) (k _ (packed_get hk (k := 5) rfl) (packed_get hk (k := 4) rfl) (bitAt_of (packed_get hk (k := 7) rfl)) (fieldBits_of (packed_get hk (k := 2) rfl)) (fieldBits_of (packed_get hk (k := 1) rfl)) (packed_get hk (k := 0) rfl) (packed_get hk (k := 3) rfl) (bitAt_false_of (packed_get hk (k := 6) rfl))) (by rw [he]; rfl)

theorem form65 (n m : Nat) (hm : m < 64) (hn : n = m * 0x1000000) (x0 : Bool) (x1 : BitVec 6) (x2 : BitVec 6) (x3 : BitVec 6) (x4 : BitVec 6) {w : Nat} (hw : w = n + bitNat x0 * 0x80000000 + x1.toNat * 0x40000 + x2.toNat * 0x1000 + x3.toNat * 0x40 + x4.toNat) {i : Instr} (he : endsChain i = false)
    (k : ∀ x, fieldNat x 24 6 = m → bitAt x 31 = x0 → fieldBits x 18 6 = x1 → fieldBits x 12 6 = x2 → fieldBits x 6 6 = x3 → fieldBits x 0 6 = x4 → bitAt x 30 = false → decodeCore x = .ok i) : decodeWord (BitVec.ofNat 32 w) = .ok i := by
  have hs : w = packed [(0, 6, x4.toNat), (6, 6, x3.toNat), (12, 6, x2.toNat), (18, 6, x1.toNat), (24, 6, m), (30, 1, 0), (31, 1, bitNat x0)] := by rw [hw, hn]; simp only [packed]; omega
  have hk : fits 0 [(0, 6, x4.toNat), (6, 6, x3.toNat), (12, 6, x2.toNat), (18, 6, x1.toNat), (24, 6, m), (30, 1, 0), (31, 1, bitNat x0)] := ⟨by decide, x4.isLt, by decide, x3.isLt, by decide, x2.isLt, by decide, x1.isLt, by decide, hm, by decide, by decide, by decide, bitNat_lt x0, Nat.le_of_ble_eq_true rfl⟩
  subst hs
  exact decodeWord_of (packed_lt hk) (k _ (packed_get hk (k := 4) rfl) (bitAt_of (packed_get hk (k := 6) rfl)) (fieldBits_of (packed_get hk (k := 3) rfl)) (fieldBits_of (packed_get hk (k := 2) rfl)) (fieldBits_of (packed_get hk (k := 1) rfl)) (fieldBits_of (packed_get hk (k := 0) rfl)) (bitAt_false_of (packed_get hk (k := 5) rfl))) (by rw [he]; rfl)

theorem form66 (n m : Nat) (hm : m < 64) (f : Nat) (hf : f < 8) (hn : n = m * 0x1000000 + f * 0x200000) (x0 : Bool) (x1 : BitVec 7) (x2 : BitVec 7) {w : Nat} (hw : w = n + bitNat x0 * 0x80000000 + x1.toNat * 0x4000 + x2.toNat * 0x80) {i : Instr} (he : endsChain i = false)
    (k : ∀ x, fieldNat x 24 6 = m → fieldNat x 21 3 = f → bitAt x 31 = x0 → fieldBits x 14 7 = x1 → fieldBits x 7 7 = x2 → fieldNat x 0 7 = 0 → bitAt x 30 = false → decodeCore x = .ok i) : decodeWord (BitVec.ofNat 32 w) = .ok i := by
  have hs : w = packed [(0, 7, 0), (7, 7, x2.toNat), (14, 7, x1.toNat), (21, 3, f), (24, 6, m), (30, 1, 0), (31, 1, bitNat x0)] := by rw [hw, hn]; simp only [packed]; omega
  have hk : fits 0 [(0, 7, 0), (7, 7, x2.toNat), (14, 7, x1.toNat), (21, 3, f), (24, 6, m), (30, 1, 0), (31, 1, bitNat x0)] := ⟨by decide, by decide, by decide, x2.isLt, by decide, x1.isLt, by decide, hf, by decide, hm, by decide, by decide, by decide, bitNat_lt x0, Nat.le_of_ble_eq_true rfl⟩
  subst hs
  exact decodeWord_of (packed_lt hk) (k _ (packed_get hk (k := 4) rfl) (packed_get hk (k := 3) rfl) (bitAt_of (packed_get hk (k := 6) rfl)) (fieldBits_of (packed_get hk (k := 2) rfl)) (fieldBits_of (packed_get hk (k := 1) rfl)) (packed_get hk (k := 0) rfl) (bitAt_false_of (packed_get hk (k := 5) rfl))) (by rw [he]; rfl)

theorem form67 (n m : Nat) (hm : m < 64) (f : Nat) (hf : f < 8) (hn : n = m * 0x1000000 + f * 0x200000) (x0 : Bool) (x1 : BitVec 7) (x2 : BitVec 4) (x3 : BitVec 1) {w : Nat} (hw : w = n + bitNat x0 * 0x80000000 + x1.toNat * 0x4000 + x2.toNat * 0x400 + x3.toNat) {i : Instr} (he : endsChain i = false)
    (k : ∀ x, fieldNat x 24 6 = m → fieldNat x 21 3 = f → bitAt x 31 = x0 → fieldBits x 14 7 = x1 → fieldBits x 10 4 = x2 → fieldBits x 0 1 = x3 → fieldNat x 7 3 = 0 → fieldNat x 1 6 = 0 → bitAt x 30 = false → decodeCore x = .ok i) : decodeWord (BitVec.ofNat 32 w) = .ok i := by
  have hs : w = packed [(0, 1, x3.toNat), (1, 6, 0), (7, 3, 0), (10, 4, x2.toNat), (14, 7, x1.toNat), (21, 3, f), (24, 6, m), (30, 1, 0), (31, 1, bitNat x0)] := by rw [hw, hn]; simp only [packed]; omega
  have hk : fits 0 [(0, 1, x3.toNat), (1, 6, 0), (7, 3, 0), (10, 4, x2.toNat), (14, 7, x1.toNat), (21, 3, f), (24, 6, m), (30, 1, 0), (31, 1, bitNat x0)] := ⟨by decide, x3.isLt, by decide, by decide, by decide, by decide, by decide, x2.isLt, by decide, x1.isLt, by decide, hf, by decide, hm, by decide, by decide, by decide, bitNat_lt x0, Nat.le_of_ble_eq_true rfl⟩
  subst hs
  exact decodeWord_of (packed_lt hk) (k _ (packed_get hk (k := 6) rfl) (packed_get hk (k := 5) rfl) (bitAt_of (packed_get hk (k := 8) rfl)) (fieldBits_of (packed_get hk (k := 4) rfl)) (fieldBits_of (packed_get hk (k := 3) rfl)) (fieldBits_of (packed_get hk (k := 0) rfl)) (packed_get hk (k := 2) rfl) (packed_get hk (k := 1) rfl) (bitAt_false_of (packed_get hk (k := 7) rfl))) (by rw [he]; rfl)

theorem form68 (n m : Nat) (hm : m < 64) (f : Nat) (hf : f < 8) (hn : n = m * 0x1000000 + f * 0x200000) (x0 : Bool) (x1 : BitVec 7) (x2 : BitVec 1) {w : Nat} (hw : w = n + bitNat x0 * 0x80000000 + x1.toNat * 0x80 + x2.toNat) {i : Instr} (he : endsChain i = false)
    (k : ∀ x, fieldNat x 24 6 = m → fieldNat x 21 3 = f → bitAt x 31 = x0 → fieldBits x 7 7 = x1 → fieldBits x 0 1 = x2 → fieldNat x 1 6 = 0 → fieldNat x 14 7 = 0 → bitAt x 30 = false → decodeCore x = .ok i) : decodeWord (BitVec.ofNat 32 w) = .ok i := by
  have hs : w = packed [(0, 1, x2.toNat), (1, 6, 0), (7, 7, x1.toNat), (14, 7, 0), (21, 3, f), (24, 6, m), (30, 1, 0), (31, 1, bitNat x0)] := by rw [hw, hn]; simp only [packed]; omega
  have hk : fits 0 [(0, 1, x2.toNat), (1, 6, 0), (7, 7, x1.toNat), (14, 7, 0), (21, 3, f), (24, 6, m), (30, 1, 0), (31, 1, bitNat x0)] := ⟨by decide, x2.isLt, by decide, by decide, by decide, x1.isLt, by decide, by decide, by decide, hf, by decide, hm, by decide, by decide, by decide, bitNat_lt x0, Nat.le_of_ble_eq_true rfl⟩
  subst hs
  exact decodeWord_of (packed_lt hk) (k _ (packed_get hk (k := 5) rfl) (packed_get hk (k := 4) rfl) (bitAt_of (packed_get hk (k := 7) rfl)) (fieldBits_of (packed_get hk (k := 2) rfl)) (fieldBits_of (packed_get hk (k := 0) rfl)) (packed_get hk (k := 1) rfl) (packed_get hk (k := 3) rfl) (bitAt_false_of (packed_get hk (k := 6) rfl))) (by rw [he]; rfl)

theorem form69 (n m : Nat) (hm : m < 64) (f : Nat) (hf : f < 8) (hn : n = m * 0x1000000 + f * 0x200000) (x0 : Bool) (x1 : BitVec 1) (x2 : BitVec 7) (x3 : BitVec 6) {w : Nat} (hw : w = n + bitNat x0 * 0x80000000 + x1.toNat * 0x4000 + x2.toNat * 0x80 + x3.toNat * 0x2) {i : Instr} (he : endsChain i = false)
    (k : ∀ x, fieldNat x 24 6 = m → fieldNat x 21 3 = f → bitAt x 31 = x0 → fieldBits x 14 1 = x1 → fieldBits x 7 7 = x2 → fieldBits x 1 6 = x3 → fieldNat x 0 1 = 0 → fieldNat x 15 6 = 0 → bitAt x 30 = false → decodeCore x = .ok i) : decodeWord (BitVec.ofNat 32 w) = .ok i := by
  have hs : w = packed [(0, 1, 0), (1, 6, x3.toNat), (7, 7, x2.toNat), (14, 1, x1.toNat), (15, 6, 0), (21, 3, f), (24, 6, m), (30, 1, 0), (31, 1, bitNat x0)] := by rw [hw, hn]; simp only [packed]; omega
  have hk : fits 0 [(0, 1, 0), (1, 6, x3.toNat), (7, 7, x2.toNat), (14, 1, x1.toNat), (15, 6, 0), (21, 3, f), (24, 6, m), (30, 1, 0), (31, 1, bitNat x0)] := ⟨by decide, by decide, by decide, x3.isLt, by decide, x2.isLt, by decide, x1.isLt, by decide, by decide, by decide, hf, by decide, hm, by decide, by decide, by decide, bitNat_lt x0, Nat.le_of_ble_eq_true rfl⟩
  subst hs
  exact decodeWord_of (packed_lt hk) (k _ (packed_get hk (k := 6) rfl) (packed_get hk (k := 5) rfl) (bitAt_of (packed_get hk (k := 8) rfl)) (fieldBits_of (packed_get hk (k := 3) rfl)) (fieldBits_of (packed_get hk (k := 2) rfl)) (fieldBits_of (packed_get hk (k := 1) rfl)) (packed_get hk (k := 0) rfl) (packed_get hk (k := 4) rfl) (bitAt_false_of (packed_get hk (k := 7) rfl))) (by rw [he]; rfl)

theorem form70 (n m : Nat) (hm : m < 64) (f : Nat) (hf : f < 8) (hn : n = m * 0x1000000 + f * 0x200000) (x0 : Bool) (x1 : BitVec 7) (x2 : BitVec 6) {w : Nat} (hw : w = n + bitNat x0 * 0x80000000 + x1.toNat * 0x80 + x2.toNat * 0x2) {i : Instr} (he : endsChain i = false)
    (k : ∀ x, fieldNat x 24 6 = m → fieldNat x 21 3 = f → bitAt x 31 = x0 → fieldBits x 7 7 = x1 → fieldBits x 1 6 = x2 → fieldNat x 0 1 = 0 → fieldNat x 14 7 = 0 → bitAt x 30 = false → decodeCore x = .ok i) : decodeWord (BitVec.ofNat 32 w) = .ok i := by
  have hs : w = packed [(0, 1, 0), (1, 6, x2.toNat), (7, 7, x1.toNat), (14, 7, 0), (21, 3, f), (24, 6, m), (30, 1, 0), (31, 1, bitNat x0)] := by rw [hw, hn]; simp only [packed]; omega
  have hk : fits 0 [(0, 1, 0), (1, 6, x2.toNat), (7, 7, x1.toNat), (14, 7, 0), (21, 3, f), (24, 6, m), (30, 1, 0), (31, 1, bitNat x0)] := ⟨by decide, by decide, by decide, x2.isLt, by decide, x1.isLt, by decide, by decide, by decide, hf, by decide, hm, by decide, by decide, by decide, bitNat_lt x0, Nat.le_of_ble_eq_true rfl⟩
  subst hs
  exact decodeWord_of (packed_lt hk) (k _ (packed_get hk (k := 5) rfl) (packed_get hk (k := 4) rfl) (bitAt_of (packed_get hk (k := 7) rfl)) (fieldBits_of (packed_get hk (k := 2) rfl)) (fieldBits_of (packed_get hk (k := 1) rfl)) (packed_get hk (k := 0) rfl) (packed_get hk (k := 3) rfl) (bitAt_false_of (packed_get hk (k := 6) rfl))) (by rw [he]; rfl)

theorem form71 (n m : Nat) (hm : m < 64) (f : Nat) (hf : f < 8) (hn : n = m * 0x1000000 + f * 0x200000) (x0 : Bool) (x1 : BitVec 7) (x2 : BitVec 7) (x3 : BitVec 5) {w : Nat} (hw : w = n + bitNat x0 * 0x80000000 + x1.toNat * 0x4000 + x2.toNat * 0x80 + x3.toNat) {i : Instr} (he : endsChain i = false)
    (k : ∀ x, fieldNat x 24 6 = m → fieldNat x 21 3 = f → bitAt x 31 = x0 → fieldBits x 14 7 = x1 → fieldBits x 7 7 = x2 → fieldBits x 0 5 = x3 → fieldNat x 5 2 = 0 → bitAt x 30 = false → decodeCore x = .ok i) : decodeWord (BitVec.ofNat 32 w) = .ok i := by
  have hs : w = packed [(0, 5, x3.toNat), (5, 2, 0), (7, 7, x2.toNat), (14, 7, x1.toNat), (21, 3, f), (24, 6, m), (30, 1, 0), (31, 1, bitNat x0)] := by rw [hw, hn]; simp only [packed]; omega
  have hk : fits 0 [(0, 5, x3.toNat), (5, 2, 0), (7, 7, x2.toNat), (14, 7, x1.toNat), (21, 3, f), (24, 6, m), (30, 1, 0), (31, 1, bitNat x0)] := ⟨by decide, x3.isLt, by decide, by decide, by decide, x2.isLt, by decide, x1.isLt, by decide, hf, by decide, hm, by decide, by decide, by decide, bitNat_lt x0, Nat.le_of_ble_eq_true rfl⟩
  subst hs
  exact decodeWord_of (packed_lt hk) (k _ (packed_get hk (k := 5) rfl) (packed_get hk (k := 4) rfl) (bitAt_of (packed_get hk (k := 7) rfl)) (fieldBits_of (packed_get hk (k := 3) rfl)) (fieldBits_of (packed_get hk (k := 2) rfl)) (fieldBits_of (packed_get hk (k := 0) rfl)) (packed_get hk (k := 1) rfl) (bitAt_false_of (packed_get hk (k := 6) rfl))) (by rw [he]; rfl)

theorem form72 (n m : Nat) (hm : m < 64) (f : Nat) (hf : f < 8) (hn : n = m * 0x1000000 + f * 0x200000) (x0 : Bool) (x1 : BitVec 4) (x2 : BitVec 7) (x3 : BitVec 3) {w : Nat} (hw : w = n + bitNat x0 * 0x80000000 + x1.toNat * 0x20000 + x2.toNat * 0x80 + x3.toNat) {i : Instr} (he : endsChain i = false)
    (k : ∀ x, fieldNat x 24 6 = m → fieldNat x 21 3 = f → bitAt x 31 = x0 → fieldBits x 17 4 = x1 → fieldBits x 7 7 = x2 → fieldBits x 0 3 = x3 → fieldNat x 14 3 = 0 → fieldNat x 3 4 = 0 → bitAt x 30 = false → decodeCore x = .ok i) : decodeWord (BitVec.ofNat 32 w) = .ok i := by
  have hs : w = packed [(0, 3, x3.toNat), (3, 4, 0), (7, 7, x2.toNat), (14, 3, 0), (17, 4, x1.toNat), (21, 3, f), (24, 6, m), (30, 1, 0), (31, 1, bitNat x0)] := by rw [hw, hn]; simp only [packed]; omega
  have hk : fits 0 [(0, 3, x3.toNat), (3, 4, 0), (7, 7, x2.toNat), (14, 3, 0), (17, 4, x1.toNat), (21, 3, f), (24, 6, m), (30, 1, 0), (31, 1, bitNat x0)] := ⟨by decide, x3.isLt, by decide, by decide, by decide, x2.isLt, by decide, by decide, by decide, x1.isLt, by decide, hf, by decide, hm, by decide, by decide, by decide, bitNat_lt x0, Nat.le_of_ble_eq_true rfl⟩
  subst hs
  exact decodeWord_of (packed_lt hk) (k _ (packed_get hk (k := 6) rfl) (packed_get hk (k := 5) rfl) (bitAt_of (packed_get hk (k := 8) rfl)) (fieldBits_of (packed_get hk (k := 4) rfl)) (fieldBits_of (packed_get hk (k := 2) rfl)) (fieldBits_of (packed_get hk (k := 0) rfl)) (packed_get hk (k := 3) rfl) (packed_get hk (k := 1) rfl) (bitAt_false_of (packed_get hk (k := 7) rfl))) (by rw [he]; rfl)

theorem form73 (n m : Nat) (hm : m < 64) (f : Nat) (hf : f < 8) (hn : n = m * 0x1000000 + f * 0x200000) (x0 : Bool) (x1 : BitVec 4) (x2 : BitVec 7) {w : Nat} (hw : w = n + bitNat x0 * 0x80000000 + x1.toNat * 0x20000 + x2.toNat * 0x80) {i : Instr} (he : endsChain i = false)
    (k : ∀ x, fieldNat x 24 6 = m → fieldNat x 21 3 = f → bitAt x 31 = x0 → fieldBits x 17 4 = x1 → fieldBits x 7 7 = x2 → fieldNat x 14 3 = 0 → fieldNat x 0 7 = 0 → bitAt x 30 = false → decodeCore x = .ok i) : decodeWord (BitVec.ofNat 32 w) = .ok i := by
  have hs : w = packed [(0, 7, 0), (7, 7, x2.toNat), (14, 3, 0), (17, 4, x1.toNat), (21, 3, f), (24, 6, m), (30, 1, 0), (31, 1, bitNat x0)] := by rw [hw, hn]; simp only [packed]; omega
  have hk : fits 0 [(0, 7, 0), (7, 7, x2.toNat), (14, 3, 0), (17, 4, x1.toNat), (21, 3, f), (24, 6, m), (30, 1, 0), (31, 1, bitNat x0)] := ⟨by decide, by decide, by decide, x2.isLt, by decide, by decide, by decide, x1.isLt, by decide, hf, by decide, hm, by decide, by decide, by decide, bitNat_lt x0, Nat.le_of_ble_eq_true rfl⟩
  subst hs
  exact decodeWord_of (packed_lt hk) (k _ (packed_get hk (k := 5) rfl) (packed_get hk (k := 4) rfl) (bitAt_of (packed_get hk (k := 7) rfl)) (fieldBits_of (packed_get hk (k := 3) rfl)) (fieldBits_of (packed_get hk (k := 1) rfl)) (packed_get hk (k := 2) rfl) (packed_get hk (k := 0) rfl) (bitAt_false_of (packed_get hk (k := 6) rfl))) (by rw [he]; rfl)

theorem form74 (n m : Nat) (hm : m < 64) (f : Nat) (hf : f < 8) (hn : n = m * 0x1000000 + f * 0x200000) (x0 : Bool) (x1 : BitVec 4) (x2 : BitVec 7) (x3 : BitVec 1) (x4 : BitVec 1) (x5 : BitVec 2) (x6 : BitVec 3) {w : Nat} (hw : w = n + bitNat x0 * 0x80000000 + x1.toNat * 0x20000 + x2.toNat * 0x80 + x3.toNat * 0x40 + x4.toNat * 0x20 + x5.toNat * 0x8 + x6.toNat) {i : Instr} (he : endsChain i = false)
    (k : ∀ x, fieldNat x 24 6 = m → fieldNat x 21 3 = f → bitAt x 31 = x0 → fieldBits x 17 4 = x1 → fieldBits x 7 7 = x2 → fieldBits x 6 1 = x3 → fieldBits x 5 1 = x4 → fieldBits x 3 2 = x5 → fieldBits x 0 3 = x6 → fieldNat x 14 3 = 0 → bitAt x 30 = false → decodeCore x = .ok i) : decodeWord (BitVec.ofNat 32 w) = .ok i := by
  have hs : w = packed [(0, 3, x6.toNat), (3, 2, x5.toNat), (5, 1, x4.toNat), (6, 1, x3.toNat), (7, 7, x2.toNat), (14, 3, 0), (17, 4, x1.toNat), (21, 3, f), (24, 6, m), (30, 1, 0), (31, 1, bitNat x0)] := by rw [hw, hn]; simp only [packed]; omega
  have hk : fits 0 [(0, 3, x6.toNat), (3, 2, x5.toNat), (5, 1, x4.toNat), (6, 1, x3.toNat), (7, 7, x2.toNat), (14, 3, 0), (17, 4, x1.toNat), (21, 3, f), (24, 6, m), (30, 1, 0), (31, 1, bitNat x0)] := ⟨by decide, x6.isLt, by decide, x5.isLt, by decide, x4.isLt, by decide, x3.isLt, by decide, x2.isLt, by decide, by decide, by decide, x1.isLt, by decide, hf, by decide, hm, by decide, by decide, by decide, bitNat_lt x0, Nat.le_of_ble_eq_true rfl⟩
  subst hs
  exact decodeWord_of (packed_lt hk) (k _ (packed_get hk (k := 8) rfl) (packed_get hk (k := 7) rfl) (bitAt_of (packed_get hk (k := 10) rfl)) (fieldBits_of (packed_get hk (k := 6) rfl)) (fieldBits_of (packed_get hk (k := 4) rfl)) (fieldBits_of (packed_get hk (k := 3) rfl)) (fieldBits_of (packed_get hk (k := 2) rfl)) (fieldBits_of (packed_get hk (k := 1) rfl)) (fieldBits_of (packed_get hk (k := 0) rfl)) (packed_get hk (k := 5) rfl) (bitAt_false_of (packed_get hk (k := 9) rfl))) (by rw [he]; rfl)

theorem form75 (n m : Nat) (hm : m < 64) (f : Nat) (hf : f < 8) (hn : n = m * 0x1000000 + f * 0x200000) (x0 : Bool) (x1 : BitVec 4) (x2 : BitVec 3) {w : Nat} (hw : w = n + bitNat x0 * 0x80000000 + x1.toNat * 0x20000 + x2.toNat) {i : Instr} (he : endsChain i = false)
    (k : ∀ x, fieldNat x 24 6 = m → fieldNat x 21 3 = f → bitAt x 31 = x0 → fieldBits x 17 4 = x1 → fieldBits x 0 3 = x2 → fieldNat x 14 3 = 0 → fieldNat x 3 11 = 0 → bitAt x 30 = false → decodeCore x = .ok i) : decodeWord (BitVec.ofNat 32 w) = .ok i := by
  have hs : w = packed [(0, 3, x2.toNat), (3, 11, 0), (14, 3, 0), (17, 4, x1.toNat), (21, 3, f), (24, 6, m), (30, 1, 0), (31, 1, bitNat x0)] := by rw [hw, hn]; simp only [packed]; omega
  have hk : fits 0 [(0, 3, x2.toNat), (3, 11, 0), (14, 3, 0), (17, 4, x1.toNat), (21, 3, f), (24, 6, m), (30, 1, 0), (31, 1, bitNat x0)] := ⟨by decide, x2.isLt, by decide, by decide, by decide, by decide, by decide, x1.isLt, by decide, hf, by decide, hm, by decide, by decide, by decide, bitNat_lt x0, Nat.le_of_ble_eq_true rfl⟩
  subst hs
  exact decodeWord_of (packed_lt hk) (k _ (packed_get hk (k := 5) rfl) (packed_get hk (k := 4) rfl) (bitAt_of (packed_get hk (k := 7) rfl)) (fieldBits_of (packed_get hk (k := 3) rfl)) (fieldBits_of (packed_get hk (k := 0) rfl)) (packed_get hk (k := 2) rfl) (packed_get hk (k := 1) rfl) (bitAt_false_of (packed_get hk (k := 6) rfl))) (by rw [he]; rfl)

theorem form76 (n m : Nat) (hm : m < 64) (f : Nat) (hf : f < 8) (hn : n = m * 0x1000000 + f * 0x200000) (x0 : Bool) (x1 : BitVec 4) (x2 : BitVec 4) (x3 : BitVec 4) {w : Nat} (hw : w = n + bitNat x0 * 0x80000000 + x1.toNat * 0x20000 + x2.toNat * 0x400 + x3.toNat) {i : Instr} (he : endsChain i = false)
    (k : ∀ x, fieldNat x 24 6 = m → fieldNat x 21 3 = f → bitAt x 31 = x0 → fieldBits x 17 4 = x1 → fieldBits x 10 4 = x2 → fieldBits x 0 4 = x3 → fieldNat x 7 3 = 0 → fieldNat x 14 3 = 0 → fieldNat x 4 3 = 0 → bitAt x 30 = false → decodeCore x = .ok i) : decodeWord (BitVec.ofNat 32 w) = .ok i := by
  have hs : w = packed [(0, 4, x3.toNat), (4, 3, 0), (7, 3, 0), (10, 4, x2.toNat), (14, 3, 0), (17, 4, x1.toNat), (21, 3, f), (24, 6, m), (30, 1, 0), (31, 1, bitNat x0)] := by rw [hw, hn]; simp only [packed]; omega
  have hk : fits 0 [(0, 4, x3.toNat), (4, 3, 0), (7, 3, 0), (10, 4, x2.toNat), (14, 3, 0), (17, 4, x1.toNat), (21, 3, f), (24, 6, m), (30, 1, 0), (31, 1, bitNat x0)] := ⟨by decide, x3.isLt, by decide, by decide, by decide, by decide, by decide, x2.isLt, by decide, by decide, by decide, x1.isLt, by decide, hf, by decide, hm, by decide, by decide, by decide, bitNat_lt x0, Nat.le_of_ble_eq_true rfl⟩
  subst hs
  exact decodeWord_of (packed_lt hk) (k _ (packed_get hk (k := 7) rfl) (packed_get hk (k := 6) rfl) (bitAt_of (packed_get hk (k := 9) rfl)) (fieldBits_of (packed_get hk (k := 5) rfl)) (fieldBits_of (packed_get hk (k := 3) rfl)) (fieldBits_of (packed_get hk (k := 0) rfl)) (packed_get hk (k := 2) rfl) (packed_get hk (k := 4) rfl) (packed_get hk (k := 1) rfl) (bitAt_false_of (packed_get hk (k := 8) rfl))) (by rw [he]; rfl)

theorem form77 (n m : Nat) (hm : m < 64) (f : Nat) (hf : f < 8) (hn : n = m * 0x1000000 + f * 0x200000) (x0 : Bool) (x1 : BitVec 2) (x2 : BitVec 7) {w : Nat} (hw : w = n + bitNat x0 * 0x80000000 + x1.toNat * 0x4000 + x2.toNat * 0x80) {i : Instr} (he : endsChain i = false)
    (k : ∀ x, fieldNat x 24 6 = m → fieldNat x 21 3 = f → bitAt x 31 = x0 → fieldBits x 14 2 = x1 → fieldBits x 7 7 = x2 → fieldNat x 0 7 = 0 → fieldNat x 16 5 = 0 → bitAt x 30 = false → decodeCore x = .ok i) : decodeWord (BitVec.ofNat 32 w) = .ok i := by
  have hs : w = packed [(0, 7, 0), (7, 7, x2.toNat), (14, 2, x1.toNat), (16, 5, 0), (21, 3, f), (24, 6, m), (30, 1, 0), (31, 1, bitNat x0)] := by rw [hw, hn]; simp only [packed]; omega
  have hk : fits 0 [(0, 7, 0), (7, 7, x2.toNat), (14, 2, x1.toNat), (16, 5, 0), (21, 3, f), (24, 6, m), (30, 1, 0), (31, 1, bitNat x0)] := ⟨by decide, by decide, by decide, x2.isLt, by decide, x1.isLt, by decide, by decide, by decide, hf, by decide, hm, by decide, by decide, by decide, bitNat_lt x0, Nat.le_of_ble_eq_true rfl⟩
  subst hs
  exact decodeWord_of (packed_lt hk) (k _ (packed_get hk (k := 5) rfl) (packed_get hk (k := 4) rfl) (bitAt_of (packed_get hk (k := 7) rfl)) (fieldBits_of (packed_get hk (k := 2) rfl)) (fieldBits_of (packed_get hk (k := 1) rfl)) (packed_get hk (k := 0) rfl) (packed_get hk (k := 3) rfl) (bitAt_false_of (packed_get hk (k := 6) rfl))) (by rw [he]; rfl)

theorem form78 (n m : Nat) (hm : m < 64) (f : Nat) (hf : f < 8) (hn : n = m * 0x1000000 + f * 0x200000) (x0 : Bool) (x1 : BitVec 2) (x2 : BitVec 2) (x3 : BitVec 2) (x4 : BitVec 6) (x5 : BitVec 5) {w : Nat} (hw : w = n + bitNat x0 * 0x80000000 + x1.toNat * 0x40000 + x2.toNat * 0x10000 + x3.toNat * 0x4000 + x4.toNat * 0x100 + x5.toNat * 0x4) {i : Instr} (he : endsChain i = false)
    (k : ∀ x, fieldNat x 24 6 = m → fieldNat x 21 3 = f → bitAt x 31 = x0 → fieldBits x 18 2 = x1 → fieldBits x 16 2 = x2 → fieldBits x 14 2 = x3 → fieldBits x 8 6 = x4 → fieldBits x 2 5 = x5 → fieldNat x 0 2 = 0 → fieldNat x 7 1 = 0 → fieldNat x 20 1 = 0 → bitAt x 30 = false → decodeCore x = .ok i) : decodeWord (BitVec.ofNat 32 w) = .ok i := by
  have hs : w = packed [(0, 2, 0), (2, 5, x5.toNat), (7, 1, 0), (8, 6, x4.toNat), (14, 2, x3.toNat), (16, 2, x2.toNat), (18, 2, x1.toNat), (20, 1, 0), (21, 3, f), (24, 6, m), (30, 1, 0), (31, 1, bitNat x0)] := by rw [hw, hn]; simp only [packed]; omega
  have hk : fits 0 [(0, 2, 0), (2, 5, x5.toNat), (7, 1, 0), (8, 6, x4.toNat), (14, 2, x3.toNat), (16, 2, x2.toNat), (18, 2, x1.toNat), (20, 1, 0), (21, 3, f), (24, 6, m), (30, 1, 0), (31, 1, bitNat x0)] := ⟨by decide, by decide, by decide, x5.isLt, by decide, by decide, by decide, x4.isLt, by decide, x3.isLt, by decide, x2.isLt, by decide, x1.isLt, by decide, by decide, by decide, hf, by decide, hm, by decide, by decide, by decide, bitNat_lt x0, Nat.le_of_ble_eq_true rfl⟩
  subst hs
  exact decodeWord_of (packed_lt hk) (k _ (packed_get hk (k := 9) rfl) (packed_get hk (k := 8) rfl) (bitAt_of (packed_get hk (k := 11) rfl)) (fieldBits_of (packed_get hk (k := 6) rfl)) (fieldBits_of (packed_get hk (k := 5) rfl)) (fieldBits_of (packed_get hk (k := 4) rfl)) (fieldBits_of (packed_get hk (k := 3) rfl)) (fieldBits_of (packed_get hk (k := 1) rfl)) (packed_get hk (k := 0) rfl) (packed_get hk (k := 2) rfl) (packed_get hk (k := 7) rfl) (bitAt_false_of (packed_get hk (k := 10) rfl))) (by rw [he]; rfl)

theorem form79 (n m : Nat) (hm : m < 64) (f : Nat) (hf : f < 8) (hn : n = m * 0x1000000 + f * 0x200000) (x0 : Bool) (x1 : BitVec 4) {w : Nat} (hw : w = n + bitNat x0 * 0x80000000 + x1.toNat) {i : Instr} (he : endsChain i = false)
    (k : ∀ x, fieldNat x 24 6 = m → fieldNat x 21 3 = f → bitAt x 31 = x0 → fieldBits x 0 4 = x1 → fieldNat x 4 17 = 0 → bitAt x 30 = false → decodeCore x = .ok i) : decodeWord (BitVec.ofNat 32 w) = .ok i := by
  have hs : w = packed [(0, 4, x1.toNat), (4, 17, 0), (21, 3, f), (24, 6, m), (30, 1, 0), (31, 1, bitNat x0)] := by rw [hw, hn]; simp only [packed]; omega
  have hk : fits 0 [(0, 4, x1.toNat), (4, 17, 0), (21, 3, f), (24, 6, m), (30, 1, 0), (31, 1, bitNat x0)] := ⟨by decide, x1.isLt, by decide, by decide, by decide, hf, by decide, hm, by decide, by decide, by decide, bitNat_lt x0, Nat.le_of_ble_eq_true rfl⟩
  subst hs
  exact decodeWord_of (packed_lt hk) (k _ (packed_get hk (k := 3) rfl) (packed_get hk (k := 2) rfl) (bitAt_of (packed_get hk (k := 5) rfl)) (fieldBits_of (packed_get hk (k := 0) rfl)) (packed_get hk (k := 1) rfl) (bitAt_false_of (packed_get hk (k := 4) rfl))) (by rw [he]; rfl)

theorem form80 (n m : Nat) (hm : m < 64) (f : Nat) (hf : f < 8) (hn : n = m * 0x1000000 + f * 0x200000) (x0 : Bool) (x1 : BitVec 7) (x2 : BitVec 2) {w : Nat} (hw : w = n + bitNat x0 * 0x80000000 + x1.toNat * 0x4000 + x2.toNat) {i : Instr} (he : endsChain i = false)
    (k : ∀ x, fieldNat x 24 6 = m → fieldNat x 21 3 = f → bitAt x 31 = x0 → fieldBits x 14 7 = x1 → fieldBits x 0 2 = x2 → fieldNat x 2 12 = 0 → bitAt x 30 = false → decodeCore x = .ok i) : decodeWord (BitVec.ofNat 32 w) = .ok i := by
  have hs : w = packed [(0, 2, x2.toNat), (2, 12, 0), (14, 7, x1.toNat), (21, 3, f), (24, 6, m), (30, 1, 0), (31, 1, bitNat x0)] := by rw [hw, hn]; simp only [packed]; omega
  have hk : fits 0 [(0, 2, x2.toNat), (2, 12, 0), (14, 7, x1.toNat), (21, 3, f), (24, 6, m), (30, 1, 0), (31, 1, bitNat x0)] := ⟨by decide, x2.isLt, by decide, by decide, by decide, x1.isLt, by decide, hf, by decide, hm, by decide, by decide, by decide, bitNat_lt x0, Nat.le_of_ble_eq_true rfl⟩
  subst hs
  exact decodeWord_of (packed_lt hk) (k _ (packed_get hk (k := 4) rfl) (packed_get hk (k := 3) rfl) (bitAt_of (packed_get hk (k := 6) rfl)) (fieldBits_of (packed_get hk (k := 2) rfl)) (fieldBits_of (packed_get hk (k := 0) rfl)) (packed_get hk (k := 1) rfl) (bitAt_false_of (packed_get hk (k := 5) rfl))) (by rw [he]; rfl)

theorem form81 (n m : Nat) (hm : m < 64) (f : Nat) (hf : f < 8) (hn : n = m * 0x1000000 + f * 0x200000) (x0 : Bool) (x1 : BitVec 7) (x2 : BitVec 6) (x3 : BitVec 6) {w : Nat} (hw : w = n + bitNat x0 * 0x80000000 + x1.toNat * 0x4000 + x2.toNat * 0x100 + x3.toNat * 0x2) {i : Instr} (he : endsChain i = false)
    (k : ∀ x, fieldNat x 24 6 = m → fieldNat x 21 3 = f → bitAt x 31 = x0 → fieldBits x 14 7 = x1 → fieldBits x 8 6 = x2 → fieldBits x 1 6 = x3 → fieldNat x 0 1 = 0 → fieldNat x 7 1 = 0 → bitAt x 30 = false → decodeCore x = .ok i) : decodeWord (BitVec.ofNat 32 w) = .ok i := by
  have hs : w = packed [(0, 1, 0), (1, 6, x3.toNat), (7, 1, 0), (8, 6, x2.toNat), (14, 7, x1.toNat), (21, 3, f), (24, 6, m), (30, 1, 0), (31, 1, bitNat x0)] := by rw [hw, hn]; simp only [packed]; omega
  have hk : fits 0 [(0, 1, 0), (1, 6, x3.toNat), (7, 1, 0), (8, 6, x2.toNat), (14, 7, x1.toNat), (21, 3, f), (24, 6, m), (30, 1, 0), (31, 1, bitNat x0)] := ⟨by decide, by decide, by decide, x3.isLt, by decide, by decide, by decide, x2.isLt, by decide, x1.isLt, by decide, hf, by decide, hm, by decide, by decide, by decide, bitNat_lt x0, Nat.le_of_ble_eq_true rfl⟩
  subst hs
  exact decodeWord_of (packed_lt hk) (k _ (packed_get hk (k := 6) rfl) (packed_get hk (k := 5) rfl) (bitAt_of (packed_get hk (k := 8) rfl)) (fieldBits_of (packed_get hk (k := 4) rfl)) (fieldBits_of (packed_get hk (k := 3) rfl)) (fieldBits_of (packed_get hk (k := 1) rfl)) (packed_get hk (k := 0) rfl) (packed_get hk (k := 2) rfl) (bitAt_false_of (packed_get hk (k := 7) rfl))) (by rw [he]; rfl)

theorem form82 (n m : Nat) (hm : m < 64) (f : Nat) (hf : f < 8) (hn : n = m * 0x1000000 + f * 0x200000) (x0 : Bool) (x1 : BitVec 6) (x2 : BitVec 6) {w : Nat} (hw : w = n + bitNat x0 * 0x80000000 + x1.toNat * 0x8000 + x2.toNat * 0x100) {i : Instr} (he : endsChain i = false)
    (k : ∀ x, fieldNat x 24 6 = m → fieldNat x 21 3 = f → bitAt x 31 = x0 → fieldBits x 15 6 = x1 → fieldBits x 8 6 = x2 → fieldNat x 7 1 = 0 → fieldNat x 14 1 = 0 → fieldNat x 0 7 = 0 → bitAt x 30 = false → decodeCore x = .ok i) : decodeWord (BitVec.ofNat 32 w) = .ok i := by
  have hs : w = packed [(0, 7, 0), (7, 1, 0), (8, 6, x2.toNat), (14, 1, 0), (15, 6, x1.toNat), (21, 3, f), (24, 6, m), (30, 1, 0), (31, 1, bitNat x0)] := by rw [hw, hn]; simp only [packed]; omega
  have hk : fits 0 [(0, 7, 0), (7, 1, 0), (8, 6, x2.toNat), (14, 1, 0), (15, 6, x1.toNat), (21, 3, f), (24, 6, m), (30, 1, 0), (31, 1, bitNat x0)] := ⟨by decide, by decide, by decide, by decide, by decide, x2.isLt, by decide, by decide, by decide, x1.isLt, by decide, hf, by decide, hm, by decide, by decide, by decide, bitNat_lt x0, Nat.le_of_ble_eq_true rfl⟩
  subst hs
  exact decodeWord_of (packed_lt hk) (k _ (packed_get hk (k := 6) rfl) (packed_get hk (k := 5) rfl) (bitAt_of (packed_get hk (k := 8) rfl)) (fieldBits_of (packed_get hk (k := 4) rfl)) (fieldBits_of (packed_get hk (k := 2) rfl)) (packed_get hk (k := 1) rfl) (packed_get hk (k := 3) rfl) (packed_get hk (k := 0) rfl) (bitAt_false_of (packed_get hk (k := 7) rfl))) (by rw [he]; rfl)

theorem form83 (n m : Nat) (hm : m < 64) (f : Nat) (hf : f < 256) (hn : n = m * 0x1000000 + f * 0x10000) (x0 : Bool) (x1 : BitVec 7) (x2 : BitVec 9) {w : Nat} (hw : w = n + bitNat x0 * 0x80000000 + x1.toNat * 0x200 + x2.toNat) {i : Instr} (he : endsChain i = false)
    (k : ∀ x, fieldNat x 24 6 = m → fieldNat x 16 8 = f → bitAt x 31 = x0 → fieldBits x 9 7 = x1 → fieldBits x 0 9 = x2 → bitAt x 30 = false → decodeCore x = .ok i) : decodeWord (BitVec.ofNat 32 w) = .ok i := by
  have hs : w = packed [(0, 9, x2.toNat), (9, 7, x1.toNat), (16, 8, f), (24, 6, m), (30, 1, 0), (31, 1, bitNat x0)] := by rw [hw, hn]; simp only [packed]; omega
  have hk : fits 0 [(0, 9, x2.toNat), (9, 7, x1.toNat), (16, 8, f), (24, 6, m), (30, 1, 0), (31, 1, bitNat x0)] := ⟨by decide, x2.isLt, by decide, x1.isLt, by decide, hf, by decide, hm, by decide, by decide, by decide, bitNat_lt x0, Nat.le_of_ble_eq_true rfl⟩
  subst hs
  exact decodeWord_of (packed_lt hk) (k _ (packed_get hk (k := 3) rfl) (packed_get hk (k := 2) rfl) (bitAt_of (packed_get hk (k := 5) rfl)) (fieldBits_of (packed_get hk (k := 1) rfl)) (fieldBits_of (packed_get hk (k := 0) rfl)) (bitAt_false_of (packed_get hk (k := 4) rfl))) (by rw [he]; rfl)

theorem form84 (n m : Nat) (hm : m < 64) (f : Nat) (hf : f < 256) (hn : n = m * 0x1000000 + f * 0x10000) (x0 : Bool) (x1 : BitVec 7) {w : Nat} (hw : w = n + bitNat x0 * 0x80000000 + x1.toNat * 0x200) {i : Instr} (he : endsChain i = false)
    (k : ∀ x, fieldNat x 24 6 = m → fieldNat x 16 8 = f → bitAt x 31 = x0 → fieldBits x 9 7 = x1 → fieldNat x 0 9 = 0 → bitAt x 30 = false → decodeCore x = .ok i) : decodeWord (BitVec.ofNat 32 w) = .ok i := by
  have hs : w = packed [(0, 9, 0), (9, 7, x1.toNat), (16, 8, f), (24, 6, m), (30, 1, 0), (31, 1, bitNat x0)] := by rw [hw, hn]; simp only [packed]; omega
  have hk : fits 0 [(0, 9, 0), (9, 7, x1.toNat), (16, 8, f), (24, 6, m), (30, 1, 0), (31, 1, bitNat x0)] := ⟨by decide, by decide, by decide, x1.isLt, by decide, hf, by decide, hm, by decide, by decide, by decide, bitNat_lt x0, Nat.le_of_ble_eq_true rfl⟩
  subst hs
  exact decodeWord_of (packed_lt hk) (k _ (packed_get hk (k := 3) rfl) (packed_get hk (k := 2) rfl) (bitAt_of (packed_get hk (k := 5) rfl)) (fieldBits_of (packed_get hk (k := 1) rfl)) (packed_get hk (k := 0) rfl) (bitAt_false_of (packed_get hk (k := 4) rfl))) (by rw [he]; rfl)

theorem form85 (n m : Nat) (hm : m < 64) (f : Nat) (hf : f < 256) (hn : n = m * 0x1000000 + f * 0x10000) (x0 : Bool) (x1 : BitVec 6) (x2 : BitVec 1) {w : Nat} (hw : w = n + bitNat x0 * 0x80000000 + x1.toNat * 0x400 + x2.toNat) {i : Instr} (he : endsChain i = false)
    (k : ∀ x, fieldNat x 24 6 = m → fieldNat x 16 8 = f → bitAt x 31 = x0 → fieldBits x 10 6 = x1 → fieldBits x 0 1 = x2 → fieldNat x 9 1 = 0 → fieldNat x 1 8 = 0 → bitAt x 30 = false → decodeCore x = .ok i) : decodeWord (BitVec.ofNat 32 w) = .ok i := by
  have hs : w = packed [(0, 1, x2.toNat), (1, 8, 0), (9, 1, 0), (10, 6, x1.toNat), (16, 8, f), (24, 6, m), (30, 1, 0), (31, 1, bitNat x0)] := by rw [hw, hn]; simp only [packed]; omega
  have hk : fits 0 [(0, 1, x2.toNat), (1, 8, 0), (9, 1, 0), (10, 6, x1.toNat), (16, 8, f), (24, 6, m), (30, 1, 0), (31, 1, bitNat x0)] := ⟨by decide, x2.isLt, by decide, by decide, by decide, by decide, by decide, x1.isLt, by decide, hf, by decide, hm, by decide, by decide, by decide, bitNat_lt x0, Nat.le_of_ble_eq_true rfl⟩
  subst hs
  exact decodeWord_of (packed_lt hk) (k _ (packed_get hk (k := 5) rfl) (packed_get hk (k := 4) rfl) (bitAt_of (packed_get hk (k := 7) rfl)) (fieldBits_of (packed_get hk (k := 3) rfl)) (fieldBits_of (packed_get hk (k := 0) rfl)) (packed_get hk (k := 2) rfl) (packed_get hk (k := 1) rfl) (bitAt_false_of (packed_get hk (k := 6) rfl))) (by rw [he]; rfl)

theorem form86 (n m : Nat) (hm : m < 64) (f : Nat) (hf : f < 256) (hn : n = m * 0x1000000 + f * 0x10000) (x0 : Bool) (x1 : BitVec 5) (x2 : BitVec 9) {w : Nat} (hw : w = n + bitNat x0 * 0x80000000 + x1.toNat * 0x800 + x2.toNat) {i : Instr} (he : endsChain i = false)
    (k : ∀ x, fieldNat x 24 6 = m → fieldNat x 16 8 = f → bitAt x 31 = x0 → fieldBits x 11 5 = x1 → fieldBits x 0 9 = x2 → fieldNat x 9 2 = 0 → bitAt x 30 = false → decodeCore x = .ok i) : decodeWord (BitVec.ofNat 32 w) = .ok i := by
  have hs : w = packed [(0, 9, x2.toNat), (9, 2, 0), (11, 5, x1.toNat), (16, 8, f), (24, 6, m), (30, 1, 0), (31, 1, bitNat x0)] := by rw [hw, hn]; simp only [packed]; omega
  have hk : fits 0 [(0, 9, x2.toNat), (9, 2, 0), (11, 5, x1.toNat), (16, 8, f), (24, 6, m), (30, 1, 0), (31, 1, bitNat x0)] := ⟨by decide, x2.isLt, by decide, by decide, by decide, x1.isLt, by decide, hf, by decide, hm, by decide, by decide, by decide, bitNat_lt x0, Nat.le_of_ble_eq_true rfl⟩
  subst hs
  exact decodeWord_of (packed_lt hk) (k _ (packed_get hk (k := 4) rfl) (packed_get hk (k := 3) rfl) (bitAt_of (packed_get hk (k := 6) rfl)) (fieldBits_of (packed_get hk (k := 2) rfl)) (fieldBits_of (packed_get hk (k := 0) rfl)) (packed_get hk (k := 1) rfl) (bitAt_false_of (packed_get hk (k := 5) rfl))) (by rw [he]; rfl)

theorem form87 (n m : Nat) (hm : m < 64) (f : Nat) (hf : f < 256) (hn : n = m * 0x1000000 + f * 0x10000) (x0 : Bool) (x1 : BitVec 7) (x2 : BitVec 1) {w : Nat} (hw : w = n + bitNat x0 * 0x80000000 + x1.toNat * 0x200 + x2.toNat) {i : Instr} (he : endsChain i = false)
    (k : ∀ x, fieldNat x 24 6 = m → fieldNat x 16 8 = f → bitAt x 31 = x0 → fieldBits x 9 7 = x1 → fieldBits x 0 1 = x2 → fieldNat x 1 8 = 0 → bitAt x 30 = false → decodeCore x = .ok i) : decodeWord (BitVec.ofNat 32 w) = .ok i := by
  have hs : w = packed [(0, 1, x2.toNat), (1, 8, 0), (9, 7, x1.toNat), (16, 8, f), (24, 6, m), (30, 1, 0), (31, 1, bitNat x0)] := by rw [hw, hn]; simp only [packed]; omega
  have hk : fits 0 [(0, 1, x2.toNat), (1, 8, 0), (9, 7, x1.toNat), (16, 8, f), (24, 6, m), (30, 1, 0), (31, 1, bitNat x0)] := ⟨by decide, x2.isLt, by decide, by decide, by decide, x1.isLt, by decide, hf, by decide, hm, by decide, by decide, by decide, bitNat_lt x0, Nat.le_of_ble_eq_true rfl⟩
  subst hs
  exact decodeWord_of (packed_lt hk) (k _ (packed_get hk (k := 4) rfl) (packed_get hk (k := 3) rfl) (bitAt_of (packed_get hk (k := 6) rfl)) (fieldBits_of (packed_get hk (k := 2) rfl)) (fieldBits_of (packed_get hk (k := 0) rfl)) (packed_get hk (k := 1) rfl) (bitAt_false_of (packed_get hk (k := 5) rfl))) (by rw [he]; rfl)

theorem form88 (n m : Nat) (hm : m < 64) (f : Nat) (hf : f < 256) (hn : n = m * 0x1000000 + f * 0x10000) (x0 : Bool) (x1 : BitVec 6) {w : Nat} (hw : w = n + bitNat x0 * 0x80000000 + x1.toNat * 0x400) {i : Instr} (he : endsChain i = false)
    (k : ∀ x, fieldNat x 24 6 = m → fieldNat x 16 8 = f → bitAt x 31 = x0 → fieldBits x 10 6 = x1 → fieldNat x 9 1 = 0 → fieldNat x 0 9 = 0 → bitAt x 30 = false → decodeCore x = .ok i) : decodeWord (BitVec.ofNat 32 w) = .ok i := by
  have hs : w = packed [(0, 9, 0), (9, 1, 0), (10, 6, x1.toNat), (16, 8, f), (24, 6, m), (30, 1, 0), (31, 1, bitNat x0)] := by rw [hw, hn]; simp only [packed]; omega
  have hk : fits 0 [(0, 9, 0), (9, 1, 0), (10, 6, x1.toNat), (16, 8, f), (24, 6, m), (30, 1, 0), (31, 1, bitNat x0)] := ⟨by decide, by decide, by decide, by decide, by decide, x1.isLt, by decide, hf, by decide, hm, by decide, by decide, by decide, bitNat_lt x0, Nat.le_of_ble_eq_true rfl⟩
  subst hs
  exact decodeWord_of (packed_lt hk) (k _ (packed_get hk (k := 4) rfl) (packed_get hk (k := 3) rfl) (bitAt_of (packed_get hk (k := 6) rfl)) (fieldBits_of (packed_get hk (k := 2) rfl)) (packed_get hk (k := 1) rfl) (packed_get hk (k := 0) rfl) (bitAt_false_of (packed_get hk (k := 5) rfl))) (by rw [he]; rfl)

theorem form89 (n m : Nat) (hm : m < 64) (f : Nat) (hf : f < 256) (hn : n = m * 0x1000000 + f * 0x10000) (x0 : Bool) (x1 : BitVec 6) (x2 : BitVec 4) {w : Nat} (hw : w = n + bitNat x0 * 0x80000000 + x1.toNat * 0x400 + x2.toNat) {i : Instr} (he : endsChain i = false)
    (k : ∀ x, fieldNat x 24 6 = m → fieldNat x 16 8 = f → bitAt x 31 = x0 → fieldBits x 10 6 = x1 → fieldBits x 0 4 = x2 → fieldNat x 4 5 = 0 → fieldNat x 9 1 = 0 → bitAt x 30 = false → decodeCore x = .ok i) : decodeWord (BitVec.ofNat 32 w) = .ok i := by
  have hs : w = packed [(0, 4, x2.toNat), (4, 5, 0), (9, 1, 0), (10, 6, x1.toNat), (16, 8, f), (24, 6, m), (30, 1, 0), (31, 1, bitNat x0)] := by rw [hw, hn]; simp only [packed]; omega
  have hk : fits 0 [(0, 4, x2.toNat), (4, 5, 0), (9, 1, 0), (10, 6, x1.toNat), (16, 8, f), (24, 6, m), (30, 1, 0), (31, 1, bitNat x0)] := ⟨by decide, x2.isLt, by decide, by decide, by decide, by decide, by decide, x1.isLt, by decide, hf, by decide, hm, by decide, by decide, by decide, bitNat_lt x0, Nat.le_of_ble_eq_true rfl⟩
  subst hs
  exact decodeWord_of (packed_lt hk) (k _ (packed_get hk (k := 5) rfl) (packed_get hk (k := 4) rfl) (bitAt_of (packed_get hk (k := 7) rfl)) (fieldBits_of (packed_get hk (k := 3) rfl)) (fieldBits_of (packed_get hk (k := 0) rfl)) (packed_get hk (k := 1) rfl) (packed_get hk (k := 2) rfl) (bitAt_false_of (packed_get hk (k := 6) rfl))) (by rw [he]; rfl)

theorem form90 (n m : Nat) (hm : m < 64) (f : Nat) (hf : f < 256) (hn : n = m * 0x1000000 + f * 0x10000) (x0 : Bool) (x1 : BitVec 4) {w : Nat} (hw : w = n + bitNat x0 * 0x80000000 + x1.toNat) {i : Instr} (he : endsChain i = false)
    (k : ∀ x, fieldNat x 24 6 = m → fieldNat x 16 8 = f → bitAt x 31 = x0 → fieldBits x 0 4 = x1 → fieldNat x 4 5 = 0 → fieldNat x 9 7 = 0 → bitAt x 30 = false → decodeCore x = .ok i) : decodeWord (BitVec.ofNat 32 w) = .ok i := by
  have hs : w = packed [(0, 4, x1.toNat), (4, 5, 0), (9, 7, 0), (16, 8, f), (24, 6, m), (30, 1, 0), (31, 1, bitNat x0)] := by rw [hw, hn]; simp only [packed]; omega
  have hk : fits 0 [(0, 4, x1.toNat), (4, 5, 0), (9, 7, 0), (16, 8, f), (24, 6, m), (30, 1, 0), (31, 1, bitNat x0)] := ⟨by decide, x1.isLt, by decide, by decide, by decide, by decide, by decide, hf, by decide, hm, by decide, by decide, by decide, bitNat_lt x0, Nat.le_of_ble_eq_true rfl⟩
  subst hs
  exact decodeWord_of (packed_lt hk) (k _ (packed_get hk (k := 4) rfl) (packed_get hk (k := 3) rfl) (bitAt_of (packed_get hk (k := 6) rfl)) (fieldBits_of (packed_get hk (k := 0) rfl)) (packed_get hk (k := 1) rfl) (packed_get hk (k := 2) rfl) (bitAt_false_of (packed_get hk (k := 5) rfl))) (by rw [he]; rfl)

theorem form91 (n m : Nat) (hm : m < 64) (f : Nat) (hf : f < 256) (hn : n = m * 0x1000000 + f * 0x10000) (x0 : Bool) (x1 : BitVec 7) (x2 : BitVec 3) {w : Nat} (hw : w = n + bitNat x0 * 0x80000000 + x1.toNat * 0x200 + x2.toNat) {i : Instr} (he : endsChain i = false)
    (k : ∀ x, fieldNat x 24 6 = m → fieldNat x 16 8 = f → bitAt x 31 = x0 → fieldBits x 9 7 = x1 → fieldBits x 0 3 = x2 → fieldNat x 3 6 = 0 → bitAt x 30 = false → decodeCore x = .ok i) : decodeWord (BitVec.ofNat 32 w) = .ok i := by
  have hs : w = packed [(0, 3, x2.toNat), (3, 6, 0), (9, 7, x1.toNat), (16, 8, f), (24, 6, m), (30, 1, 0), (31, 1, bitNat x0)] := by rw [hw, hn]; simp only [packed]; omega
  have hk : fits 0 [(0, 3, x2.toNat), (3, 6, 0), (9, 7, x1.toNat), (16, 8, f), (24, 6, m), (30, 1, 0), (31, 1, bitNat x0)] := ⟨by decide, x2.isLt, by decide, by decide, by decide, x1.isLt, by decide, hf, by decide, hm, by decide, by decide, by decide, bitNat_lt x0, Nat.le_of_ble_eq_true rfl⟩
  subst hs
  exact decodeWord_of (packed_lt hk) (k _ (packed_get hk (k := 4) rfl) (packed_get hk (k := 3) rfl) (bitAt_of (packed_get hk (k := 6) rfl)) (fieldBits_of (packed_get hk (k := 2) rfl)) (fieldBits_of (packed_get hk (k := 0) rfl)) (packed_get hk (k := 1) rfl) (bitAt_false_of (packed_get hk (k := 5) rfl))) (by rw [he]; rfl)

theorem form92 (n m : Nat) (hm : m < 64) (f : Nat) (hf : f < 256) (hn : n = m * 0x1000000 + f * 0x10000) (x0 : Bool) (x1 : BitVec 6) (x2 : BitVec 5) {w : Nat} (hw : w = n + bitNat x0 * 0x80000000 + x1.toNat * 0x400 + x2.toNat) {i : Instr} (he : endsChain i = false)
    (k : ∀ x, fieldNat x 24 6 = m → fieldNat x 16 8 = f → bitAt x 31 = x0 → fieldBits x 10 6 = x1 → fieldBits x 0 5 = x2 → fieldNat x 5 4 = 0 → fieldNat x 9 1 = 0 → bitAt x 30 = false → decodeCore x = .ok i) : decodeWord (BitVec.ofNat 32 w) = .ok i := by
  have hs : w = packed [(0, 5, x2.toNat), (5, 4, 0), (9, 1, 0), (10, 6, x1.toNat), (16, 8, f), (24, 6, m), (30, 1, 0), (31, 1, bitNat x0)] := by rw [hw, hn]; simp only [packed]; omega
  have hk : fits 0 [(0, 5, x2.toNat), (5, 4, 0), (9, 1, 0), (10, 6, x1.toNat), (16, 8, f), (24, 6, m), (30, 1, 0), (31, 1, bitNat x0)] := ⟨by decide, x2.isLt, by decide, by decide, by decide, by decide, by decide, x1.isLt, by decide, hf, by decide, hm, by decide, by decide, by decide, bitNat_lt x0, Nat.le_of_ble_eq_true rfl⟩
  subst hs
  exact decodeWord_of (packed_lt hk) (k _ (packed_get hk (k := 5) rfl) (packed_get hk (k := 4) rfl) (bitAt_of (packed_get hk (k := 7) rfl)) (fieldBits_of (packed_get hk (k := 3) rfl)) (fieldBits_of (packed_get hk (k := 0) rfl)) (packed_get hk (k := 1) rfl) (packed_get hk (k := 2) rfl) (bitAt_false_of (packed_get hk (k := 6) rfl))) (by rw [he]; rfl)

end Sys2Proof

namespace Sys2Proof.Laws

/-- The word of the instruction, where it is well formed, decodes to the instruction (03 R43 to R53). -/
def RoundTrip.Statement (i : Instr) : Prop := wellFormed i = true → decodeWord (BitVec.ofNat 32 (encodeNat i)) = .ok i

/-- An event has no word. -/
theorem RoundTrip.no_word {i : Instr} (h : encodeNat i = 0) : RoundTrip.Statement i := by
  intro hwf
  simp [wellFormed, hasWord, h] at hwf

theorem RoundTrip.iadd (c : Bool) (u : Bool) (d : BitVec 7) (a : BitVec 7) (b : BitVec 7) : RoundTrip.Statement (.iadd c u d a b) := by
  intro hwf
  refine form1 0x01000000 0x01 (by decide) 0x0 (by decide) (by decide) c u d a b (rfl : encodeNat (.iadd c u d a b) = _) rfl ?_
  intro x hm hf a0 a1 a2 a3 a4
  rw [core01 hm, decodeMajor01, hf]
  exact checked_of (by rw [a0, a1, a2, a3, a4]) hwf (rfl) (rfl) (rfl) (rfl)
theorem RoundTrip.isub (c : Bool) (u : Bool) (d : BitVec 7) (a : BitVec 7) (b : BitVec 7) : RoundTrip.Statement (.isub c u d a b) := by
  intro hwf
  refine form1 0x01200000 0x01 (by decide) 0x1 (by decide) (by decide) c u d a b (rfl : encodeNat (.isub c u d a b) = _) rfl ?_
  intro x hm hf a0 a1 a2 a3 a4
  rw [core01 hm, decodeMajor01, hf]
  exact checked_of (by rw [a0, a1, a2, a3, a4]) hwf (rfl) (rfl) (rfl) (rfl)
theorem RoundTrip.iminS32 (c : Bool) (u : Bool) (d : BitVec 7) (a : BitVec 7) (b : BitVec 7) : RoundTrip.Statement (.iminS32 c u d a b) := by
  intro hwf
  refine form1 0x01400000 0x01 (by decide) 0x2 (by decide) (by decide) c u d a b (rfl : encodeNat (.iminS32 c u d a b) = _) rfl ?_
  intro x hm hf a0 a1 a2 a3 a4
  rw [core01 hm, decodeMajor01, hf]
  exact checked_of (by rw [a0, a1, a2, a3, a4]) hwf (rfl) (rfl) (rfl) (rfl)
theorem RoundTrip.imaxS32 (c : Bool) (u : Bool) (d : BitVec 7) (a : BitVec 7) (b : BitVec 7) : RoundTrip.Statement (.imaxS32 c u d a b) := by
  intro hwf
  refine form1 0x01600000 0x01 (by decide) 0x3 (by decide) (by decide) c u d a b (rfl : encodeNat (.imaxS32 c u d a b) = _) rfl ?_
  intro x hm hf a0 a1 a2 a3 a4
  rw [core01 hm, decodeMajor01, hf]
  exact checked_of (by rw [a0, a1, a2, a3, a4]) hwf (rfl) (rfl) (rfl) (rfl)
theorem RoundTrip.iminN32 (c : Bool) (u : Bool) (d : BitVec 7) (a : BitVec 7) (b : BitVec 7) : RoundTrip.Statement (.iminN32 c u d a b) := by
  intro hwf
  refine form1 0x01800000 0x01 (by decide) 0x4 (by decide) (by decide) c u d a b (rfl : encodeNat (.iminN32 c u d a b) = _) rfl ?_
  intro x hm hf a0 a1 a2 a3 a4
  rw [core01 hm, decodeMajor01, hf]
  exact checked_of (by rw [a0, a1, a2, a3, a4]) hwf (rfl) (rfl) (rfl) (rfl)
theorem RoundTrip.imaxN32 (c : Bool) (u : Bool) (d : BitVec 7) (a : BitVec 7) (b : BitVec 7) : RoundTrip.Statement (.imaxN32 c u d a b) := by
  intro hwf
  refine form1 0x01A00000 0x01 (by decide) 0x5 (by decide) (by decide) c u d a b (rfl : encodeNat (.imaxN32 c u d a b) = _) rfl ?_
  intro x hm hf a0 a1 a2 a3 a4
  rw [core01 hm, decodeMajor01, hf]
  exact checked_of (by rw [a0, a1, a2, a3, a4]) hwf (rfl) (rfl) (rfl) (rfl)
theorem RoundTrip.iabsd (c : Bool) (u : Bool) (d : BitVec 7) (a : BitVec 7) (b : BitVec 7) : RoundTrip.Statement (.iabsd c u d a b) := by
  intro hwf
  refine form1 0x01C00000 0x01 (by decide) 0x6 (by decide) (by decide) c u d a b (rfl : encodeNat (.iabsd c u d a b) = _) rfl ?_
  intro x hm hf a0 a1 a2 a3 a4
  rw [core01 hm, decodeMajor01, hf]
  exact checked_of (by rw [a0, a1, a2, a3, a4]) hwf (rfl) (rfl) (rfl) (rfl)
theorem RoundTrip.ineg (c : Bool) (u : Bool) (d : BitVec 7) (a : BitVec 7) : RoundTrip.Statement (.ineg c u d a) := by
  intro hwf
  refine form2 0x01E00000 0x01 (by decide) 0x7 (by decide) (by decide) c u d a (rfl : encodeNat (.ineg c u d a) = _) rfl ?_
  intro x hm hf a0 a1 a2 a3 z0
  rw [core01 hm, decodeMajor01, hf]
  exact checked_of (by rw [a0, a1, a2, a3]) hwf (rfl) (rfl) (rfl) (beq_of z0)
theorem RoundTrip.imul (c : Bool) (u : Bool) (d : BitVec 7) (a : BitVec 7) (b : BitVec 7) : RoundTrip.Statement (.imul c u d a b) := by
  intro hwf
  refine form1 0x02000000 0x02 (by decide) 0x0 (by decide) (by decide) c u d a b (rfl : encodeNat (.imul c u d a b) = _) rfl ?_
  intro x hm hf a0 a1 a2 a3 a4
  rw [core02 hm, decodeMajor02, hf]
  exact checked_of (by rw [a0, a1, a2, a3, a4]) hwf (rfl) (rfl) (rfl) (rfl)
theorem RoundTrip.imulhS32 (c : Bool) (u : Bool) (d : BitVec 7) (a : BitVec 7) (b : BitVec 7) : RoundTrip.Statement (.imulhS32 c u d a b) := by
  intro hwf
  refine form1 0x02200000 0x02 (by decide) 0x1 (by decide) (by decide) c u d a b (rfl : encodeNat (.imulhS32 c u d a b) = _) rfl ?_
  intro x hm hf a0 a1 a2 a3 a4
  rw [core02 hm, decodeMajor02, hf]
  exact checked_of (by rw [a0, a1, a2, a3, a4]) hwf (rfl) (rfl) (rfl) (rfl)
theorem RoundTrip.imulhN32 (c : Bool) (u : Bool) (d : BitVec 7) (a : BitVec 7) (b : BitVec 7) : RoundTrip.Statement (.imulhN32 c u d a b) := by
  intro hwf
  refine form1 0x02400000 0x02 (by decide) 0x2 (by decide) (by decide) c u d a b (rfl : encodeNat (.imulhN32 c u d a b) = _) rfl ?_
  intro x hm hf a0 a1 a2 a3 a4
  rw [core02 hm, decodeMajor02, hf]
  exact checked_of (by rw [a0, a1, a2, a3, a4]) hwf (rfl) (rfl) (rfl) (rfl)
theorem RoundTrip.imad (c : Bool) (u : Bool) (d : BitVec 7) (a : BitVec 7) (b : BitVec 7) : RoundTrip.Statement (.imad c u d a b) := by
  intro hwf
  refine form1 0x02600000 0x02 (by decide) 0x3 (by decide) (by decide) c u d a b (rfl : encodeNat (.imad c u d a b) = _) rfl ?_
  intro x hm hf a0 a1 a2 a3 a4
  rw [core02 hm, decodeMajor02, hf]
  exact checked_of (by rw [a0, a1, a2, a3, a4]) hwf (rfl) (rfl) (rfl) (rfl)
theorem RoundTrip.idivS32 (c : Bool) (u : Bool) (d : BitVec 7) (a : BitVec 7) (b : BitVec 7) : RoundTrip.Statement (.idivS32 c u d a b) := by
  intro hwf
  refine form1 0x02800000 0x02 (by decide) 0x4 (by decide) (by decide) c u d a b (rfl : encodeNat (.idivS32 c u d a b) = _) rfl ?_
  intro x hm hf a0 a1 a2 a3 a4
  rw [core02 hm, decodeMajor02, hf]
  exact checked_of (by rw [a0, a1, a2, a3, a4]) hwf (rfl) (rfl) (rfl) (rfl)
theorem RoundTrip.idivN32 (c : Bool) (u : Bool) (d : BitVec 7) (a : BitVec 7) (b : BitVec 7) : RoundTrip.Statement (.idivN32 c u d a b) := by
  intro hwf
  refine form1 0x02A00000 0x02 (by decide) 0x5 (by decide) (by decide) c u d a b (rfl : encodeNat (.idivN32 c u d a b) = _) rfl ?_
  intro x hm hf a0 a1 a2 a3 a4
  rw [core02 hm, decodeMajor02, hf]
  exact checked_of (by rw [a0, a1, a2, a3, a4]) hwf (rfl) (rfl) (rfl) (rfl)
theorem RoundTrip.iremS32 (c : Bool) (u : Bool) (d : BitVec 7) (a : BitVec 7) (b : BitVec 7) : RoundTrip.Statement (.iremS32 c u d a b) := by
  intro hwf
  refine form1 0x02C00000 0x02 (by decide) 0x6 (by decide) (by decide) c u d a b (rfl : encodeNat (.iremS32 c u d a b) = _) rfl ?_
  intro x hm hf a0 a1 a2 a3 a4
  rw [core02 hm, decodeMajor02, hf]
  exact checked_of (by rw [a0, a1, a2, a3, a4]) hwf (rfl) (rfl) (rfl) (rfl)
theorem RoundTrip.iremN32 (c : Bool) (u : Bool) (d : BitVec 7) (a : BitVec 7) (b : BitVec 7) : RoundTrip.Statement (.iremN32 c u d a b) := by
  intro hwf
  refine form1 0x02E00000 0x02 (by decide) 0x7 (by decide) (by decide) c u d a b (rfl : encodeNat (.iremN32 c u d a b) = _) rfl ?_
  intro x hm hf a0 a1 a2 a3 a4
  rw [core02 hm, decodeMajor02, hf]
  exact checked_of (by rw [a0, a1, a2, a3, a4]) hwf (rfl) (rfl) (rfl) (rfl)
theorem RoundTrip.iaddD (c : Bool) (u : Bool) (d : BitVec 6) (a : BitVec 6) (b : BitVec 6) : RoundTrip.Statement (.iaddD c u d a b) := by
  intro hwf
  refine form3 0x03000000 0x03 (by decide) 0x0 (by decide) (by decide) c u d a b (rfl : encodeNat (.iaddD c u d a b) = _) rfl ?_
  intro x hm hf a0 a1 a2 a3 a4 z0 z1 z2
  rw [core03 hm, decodeMajor03, hf]
  exact checked_of (by rw [a0, a1, a2, a3, a4]) hwf (rfl) (rfl) (band_true_of (band_true_of (beq_of z0) (beq_of z1)) (beq_of z2)) (rfl)
theorem RoundTrip.isubD (c : Bool) (u : Bool) (d : BitVec 6) (a : BitVec 6) (b : BitVec 6) : RoundTrip.Statement (.isubD c u d a b) := by
  intro hwf
  refine form3 0x03200000 0x03 (by decide) 0x1 (by decide) (by decide) c u d a b (rfl : encodeNat (.isubD c u d a b) = _) rfl ?_
  intro x hm hf a0 a1 a2 a3 a4 z0 z1 z2
  rw [core03 hm, decodeMajor03, hf]
  exact checked_of (by rw [a0, a1, a2, a3, a4]) hwf (rfl) (rfl) (band_true_of (band_true_of (beq_of z0) (beq_of z1)) (beq_of z2)) (rfl)
theorem RoundTrip.imulD (c : Bool) (u : Bool) (d : BitVec 6) (a : BitVec 6) (b : BitVec 6) : RoundTrip.Statement (.imulD c u d a b) := by
  intro hwf
  refine form3 0x03400000 0x03 (by decide) 0x2 (by decide) (by decide) c u d a b (rfl : encodeNat (.imulD c u d a b) = _) rfl ?_
  intro x hm hf a0 a1 a2 a3 a4 z0 z1 z2
  rw [core03 hm, decodeMajor03, hf]
  exact checked_of (by rw [a0, a1, a2, a3, a4]) hwf (rfl) (rfl) (band_true_of (band_true_of (beq_of z0) (beq_of z1)) (beq_of z2)) (rfl)
theorem RoundTrip.imadwS32 (c : Bool) (u : Bool) (d : BitVec 6) (a : BitVec 7) (b : BitVec 7) : RoundTrip.Statement (.imadwS32 c u d a b) := by
  intro hwf
  refine form4 0x03600000 0x03 (by decide) 0x3 (by decide) (by decide) c u d a b (rfl : encodeNat (.imadwS32 c u d a b) = _) rfl ?_
  intro x hm hf a0 a1 a2 a3 a4 z0
  rw [core03 hm, decodeMajor03, hf]
  exact checked_of (by rw [a0, a1, a2, a3, a4]) hwf (rfl) (rfl) (beq_of z0) (rfl)
theorem RoundTrip.imadwN32 (c : Bool) (u : Bool) (d : BitVec 6) (a : BitVec 7) (b : BitVec 7) : RoundTrip.Statement (.imadwN32 c u d a b) := by
  intro hwf
  refine form4 0x03800000 0x03 (by decide) 0x4 (by decide) (by decide) c u d a b (rfl : encodeNat (.imadwN32 c u d a b) = _) rfl ?_
  intro x hm hf a0 a1 a2 a3 a4 z0
  rw [core03 hm, decodeMajor03, hf]
  exact checked_of (by rw [a0, a1, a2, a3, a4]) hwf (rfl) (rfl) (beq_of z0) (rfl)
theorem RoundTrip.shlD (c : Bool) (u : Bool) (d : BitVec 6) (a : BitVec 6) (b : BitVec 7) : RoundTrip.Statement (.shlD c u d a b) := by
  intro hwf
  refine form5 0x03A00000 0x03 (by decide) 0x5 (by decide) (by decide) c u d a b (rfl : encodeNat (.shlD c u d a b) = _) rfl ?_
  intro x hm hf a0 a1 a2 a3 a4 z0 z1
  rw [core03 hm, decodeMajor03, hf]
  exact checked_of (by rw [a0, a1, a2, a3, a4]) hwf (rfl) (rfl) (band_true_of (beq_of z0) (beq_of z1)) (rfl)
theorem RoundTrip.shrD (c : Bool) (u : Bool) (d : BitVec 6) (a : BitVec 6) (b : BitVec 7) : RoundTrip.Statement (.shrD c u d a b) := by
  intro hwf
  refine form5 0x03C00000 0x03 (by decide) 0x6 (by decide) (by decide) c u d a b (rfl : encodeNat (.shrD c u d a b) = _) rfl ?_
  intro x hm hf a0 a1 a2 a3 a4 z0 z1
  rw [core03 hm, decodeMajor03, hf]
  exact checked_of (by rw [a0, a1, a2, a3, a4]) hwf (rfl) (rfl) (band_true_of (beq_of z0) (beq_of z1)) (rfl)
theorem RoundTrip.sarD (c : Bool) (u : Bool) (d : BitVec 6) (a : BitVec 6) (b : BitVec 7) : RoundTrip.Statement (.sarD c u d a b) := by
  intro hwf
  refine form5 0x03E00000 0x03 (by decide) 0x7 (by decide) (by decide) c u d a b (rfl : encodeNat (.sarD c u d a b) = _) rfl ?_
  intro x hm hf a0 a1 a2 a3 a4 z0 z1
  rw [core03 hm, decodeMajor03, hf]
  exact checked_of (by rw [a0, a1, a2, a3, a4]) hwf (rfl) (rfl) (band_true_of (beq_of z0) (beq_of z1)) (rfl)
theorem RoundTrip.and (c : Bool) (u : Bool) (d : BitVec 7) (a : BitVec 7) (b : BitVec 7) : RoundTrip.Statement (.and c u d a b) := by
  intro hwf
  refine form1 0x04000000 0x04 (by decide) 0x0 (by decide) (by decide) c u d a b (rfl : encodeNat (.and c u d a b) = _) rfl ?_
  intro x hm hf a0 a1 a2 a3 a4
  rw [core04 hm, decodeMajor04, hf]
  exact checked_of (by rw [a0, a1, a2, a3, a4]) hwf (rfl) (rfl) (rfl) (rfl)
theorem RoundTrip.or (c : Bool) (u : Bool) (d : BitVec 7) (a : BitVec 7) (b : BitVec 7) : RoundTrip.Statement (.or c u d a b) := by
  intro hwf
  refine form1 0x04200000 0x04 (by decide) 0x1 (by decide) (by decide) c u d a b (rfl : encodeNat (.or c u d a b) = _) rfl ?_
  intro x hm hf a0 a1 a2 a3 a4
  rw [core04 hm, decodeMajor04, hf]
  exact checked_of (by rw [a0, a1, a2, a3, a4]) hwf (rfl) (rfl) (rfl) (rfl)
theorem RoundTrip.xor (c : Bool) (u : Bool) (d : BitVec 7) (a : BitVec 7) (b : BitVec 7) : RoundTrip.Statement (.xor c u d a b) := by
  intro hwf
  refine form1 0x04400000 0x04 (by decide) 0x2 (by decide) (by decide) c u d a b (rfl : encodeNat (.xor c u d a b) = _) rfl ?_
  intro x hm hf a0 a1 a2 a3 a4
  rw [core04 hm, decodeMajor04, hf]
  exact checked_of (by rw [a0, a1, a2, a3, a4]) hwf (rfl) (rfl) (rfl) (rfl)
theorem RoundTrip.andn (c : Bool) (u : Bool) (d : BitVec 7) (a : BitVec 7) (b : BitVec 7) : RoundTrip.Statement (.andn c u d a b) := by
  intro hwf
  refine form1 0x04600000 0x04 (by decide) 0x3 (by decide) (by decide) c u d a b (rfl : encodeNat (.andn c u d a b) = _) rfl ?_
  intro x hm hf a0 a1 a2 a3 a4
  rw [core04 hm, decodeMajor04, hf]
  exact checked_of (by rw [a0, a1, a2, a3, a4]) hwf (rfl) (rfl) (rfl) (rfl)
theorem RoundTrip.orn (c : Bool) (u : Bool) (d : BitVec 7) (a : BitVec 7) (b : BitVec 7) : RoundTrip.Statement (.orn c u d a b) := by
  intro hwf
  refine form1 0x04800000 0x04 (by decide) 0x4 (by decide) (by decide) c u d a b (rfl : encodeNat (.orn c u d a b) = _) rfl ?_
  intro x hm hf a0 a1 a2 a3 a4
  rw [core04 hm, decodeMajor04, hf]
  exact checked_of (by rw [a0, a1, a2, a3, a4]) hwf (rfl) (rfl) (rfl) (rfl)
theorem RoundTrip.xnor (c : Bool) (u : Bool) (d : BitVec 7) (a : BitVec 7) (b : BitVec 7) : RoundTrip.Statement (.xnor c u d a b) := by
  intro hwf
  refine form1 0x04A00000 0x04 (by decide) 0x5 (by decide) (by decide) c u d a b (rfl : encodeNat (.xnor c u d a b) = _) rfl ?_
  intro x hm hf a0 a1 a2 a3 a4
  rw [core04 hm, decodeMajor04, hf]
  exact checked_of (by rw [a0, a1, a2, a3, a4]) hwf (rfl) (rfl) (rfl) (rfl)
theorem RoundTrip.not (c : Bool) (u : Bool) (d : BitVec 7) (a : BitVec 7) : RoundTrip.Statement (.not c u d a) := by
  intro hwf
  refine form2 0x04C00000 0x04 (by decide) 0x6 (by decide) (by decide) c u d a (rfl : encodeNat (.not c u d a) = _) rfl ?_
  intro x hm hf a0 a1 a2 a3 z0
  rw [core04 hm, decodeMajor04, hf]
  exact checked_of (by rw [a0, a1, a2, a3]) hwf (rfl) (rfl) (rfl) (beq_of z0)
theorem RoundTrip.mov (c : Bool) (u : Bool) (d : BitVec 7) (a : BitVec 7) : RoundTrip.Statement (.mov c u d a) := by
  intro hwf
  refine form2 0x04E00000 0x04 (by decide) 0x7 (by decide) (by decide) c u d a (rfl : encodeNat (.mov c u d a) = _) rfl ?_
  intro x hm hf a0 a1 a2 a3 z0
  rw [core04 hm, decodeMajor04, hf]
  exact checked_of (by rw [a0, a1, a2, a3]) hwf (rfl) (rfl) (rfl) (beq_of z0)
theorem RoundTrip.shl (c : Bool) (u : Bool) (d : BitVec 7) (a : BitVec 7) (b : BitVec 7) : RoundTrip.Statement (.shl c u d a b) := by
  intro hwf
  refine form1 0x05000000 0x05 (by decide) 0x0 (by decide) (by decide) c u d a b (rfl : encodeNat (.shl c u d a b) = _) rfl ?_
  intro x hm hf a0 a1 a2 a3 a4
  rw [core05 hm, decodeMajor05, hf]
  exact checked_of (by rw [a0, a1, a2, a3, a4]) hwf (rfl) (rfl) (rfl) (rfl)
theorem RoundTrip.shr (c : Bool) (u : Bool) (d : BitVec 7) (a : BitVec 7) (b : BitVec 7) : RoundTrip.Statement (.shr c u d a b) := by
  intro hwf
  refine form1 0x05200000 0x05 (by decide) 0x1 (by decide) (by decide) c u d a b (rfl : encodeNat (.shr c u d a b) = _) rfl ?_
  intro x hm hf a0 a1 a2 a3 a4
  rw [core05 hm, decodeMajor05, hf]
  exact checked_of (by rw [a0, a1, a2, a3, a4]) hwf (rfl) (rfl) (rfl) (rfl)
theorem RoundTrip.sar (c : Bool) (u : Bool) (d : BitVec 7) (a : BitVec 7) (b : BitVec 7) : RoundTrip.Statement (.sar c u d a b) := by
  intro hwf
  refine form1 0x05400000 0x05 (by decide) 0x2 (by decide) (by decide) c u d a b (rfl : encodeNat (.sar c u d a b) = _) rfl ?_
  intro x hm hf a0 a1 a2 a3 a4
  rw [core05 hm, decodeMajor05, hf]
  exact checked_of (by rw [a0, a1, a2, a3, a4]) hwf (rfl) (rfl) (rfl) (rfl)
theorem RoundTrip.rotl (c : Bool) (u : Bool) (d : BitVec 7) (a : BitVec 7) (b : BitVec 7) : RoundTrip.Statement (.rotl c u d a b) := by
  intro hwf
  refine form1 0x05600000 0x05 (by decide) 0x3 (by decide) (by decide) c u d a b (rfl : encodeNat (.rotl c u d a b) = _) rfl ?_
  intro x hm hf a0 a1 a2 a3 a4
  rw [core05 hm, decodeMajor05, hf]
  exact checked_of (by rw [a0, a1, a2, a3, a4]) hwf (rfl) (rfl) (rfl) (rfl)
theorem RoundTrip.popc (c : Bool) (u : Bool) (d : BitVec 7) (a : BitVec 7) : RoundTrip.Statement (.popc c u d a) := by
  intro hwf
  refine form2 0x05800000 0x05 (by decide) 0x4 (by decide) (by decide) c u d a (rfl : encodeNat (.popc c u d a) = _) rfl ?_
  intro x hm hf a0 a1 a2 a3 z0
  rw [core05 hm, decodeMajor05, hf]
  exact checked_of (by rw [a0, a1, a2, a3]) hwf (rfl) (rfl) (rfl) (beq_of z0)
theorem RoundTrip.clz (c : Bool) (u : Bool) (d : BitVec 7) (a : BitVec 7) : RoundTrip.Statement (.clz c u d a) := by
  intro hwf
  refine form2 0x05A00000 0x05 (by decide) 0x5 (by decide) (by decide) c u d a (rfl : encodeNat (.clz c u d a) = _) rfl ?_
  intro x hm hf a0 a1 a2 a3 z0
  rw [core05 hm, decodeMajor05, hf]
  exact checked_of (by rw [a0, a1, a2, a3]) hwf (rfl) (rfl) (rfl) (beq_of z0)
theorem RoundTrip.brev (c : Bool) (u : Bool) (d : BitVec 7) (a : BitVec 7) : RoundTrip.Statement (.brev c u d a) := by
  intro hwf
  refine form2 0x05C00000 0x05 (by decide) 0x6 (by decide) (by decide) c u d a (rfl : encodeNat (.brev c u d a) = _) rfl ?_
  intro x hm hf a0 a1 a2 a3 z0
  rw [core05 hm, decodeMajor05, hf]
  exact checked_of (by rw [a0, a1, a2, a3]) hwf (rfl) (rfl) (rfl) (beq_of z0)
theorem RoundTrip.ffs (c : Bool) (u : Bool) (d : BitVec 7) (a : BitVec 7) : RoundTrip.Statement (.ffs c u d a) := by
  intro hwf
  refine form2 0x05E00000 0x05 (by decide) 0x7 (by decide) (by decide) c u d a (rfl : encodeNat (.ffs c u d a) = _) rfl ?_
  intro x hm hf a0 a1 a2 a3 z0
  rw [core05 hm, decodeMajor05, hf]
  exact checked_of (by rw [a0, a1, a2, a3]) hwf (rfl) (rfl) (rfl) (beq_of z0)
theorem RoundTrip.bfxS32 (c : Bool) (u : Bool) (d : BitVec 7) (a : BitVec 7) (b : BitVec 7) : RoundTrip.Statement (.bfxS32 c u d a b) := by
  intro hwf
  refine form1 0x06000000 0x06 (by decide) 0x0 (by decide) (by decide) c u d a b (rfl : encodeNat (.bfxS32 c u d a b) = _) rfl ?_
  intro x hm hf a0 a1 a2 a3 a4
  rw [core06 hm, decodeMajor06, hf]
  exact checked_of (by rw [a0, a1, a2, a3, a4]) hwf (rfl) (rfl) (rfl) (rfl)
theorem RoundTrip.bfxN32 (c : Bool) (u : Bool) (d : BitVec 7) (a : BitVec 7) (b : BitVec 7) : RoundTrip.Statement (.bfxN32 c u d a b) := by
  intro hwf
  refine form1 0x06200000 0x06 (by decide) 0x1 (by decide) (by decide) c u d a b (rfl : encodeNat (.bfxN32 c u d a b) = _) rfl ?_
  intro x hm hf a0 a1 a2 a3 a4
  rw [core06 hm, decodeMajor06, hf]
  exact checked_of (by rw [a0, a1, a2, a3, a4]) hwf (rfl) (rfl) (rfl) (rfl)
theorem RoundTrip.bfi (c : Bool) (u : Bool) (d : BitVec 7) (a : BitVec 7) (b : BitVec 7) : RoundTrip.Statement (.bfi c u d a b) := by
  intro hwf
  refine form1 0x06400000 0x06 (by decide) 0x2 (by decide) (by decide) c u d a b (rfl : encodeNat (.bfi c u d a b) = _) rfl ?_
  intro x hm hf a0 a1 a2 a3 a4
  rw [core06 hm, decodeMajor06, hf]
  exact checked_of (by rw [a0, a1, a2, a3, a4]) hwf (rfl) (rfl) (rfl) (rfl)
theorem RoundTrip.perm (c : Bool) (u : Bool) (d : BitVec 7) (a : BitVec 7) (b : BitVec 7) : RoundTrip.Statement (.perm c u d a b) := by
  intro hwf
  refine form1 0x06600000 0x06 (by decide) 0x3 (by decide) (by decide) c u d a b (rfl : encodeNat (.perm c u d a b) = _) rfl ?_
  intro x hm hf a0 a1 a2 a3 a4
  rw [core06 hm, decodeMajor06, hf]
  exact checked_of (by rw [a0, a1, a2, a3, a4]) hwf (rfl) (rfl) (rfl) (rfl)
theorem RoundTrip.shf (c : Bool) (u : Bool) (d : BitVec 7) (a : BitVec 7) (b : BitVec 7) : RoundTrip.Statement (.shf c u d a b) := by
  intro hwf
  refine form1 0x06800000 0x06 (by decide) 0x4 (by decide) (by decide) c u d a b (rfl : encodeNat (.shf c u d a b) = _) rfl ?_
  intro x hm hf a0 a1 a2 a3 a4
  rw [core06 hm, decodeMajor06, hf]
  exact checked_of (by rw [a0, a1, a2, a3, a4]) hwf (rfl) (rfl) (rfl) (rfl)
theorem RoundTrip.iaddsS32 (c : Bool) (u : Bool) (d : BitVec 7) (a : BitVec 7) (b : BitVec 7) : RoundTrip.Statement (.iaddsS32 c u d a b) := by
  intro hwf
  refine form1 0x06A00000 0x06 (by decide) 0x5 (by decide) (by decide) c u d a b (rfl : encodeNat (.iaddsS32 c u d a b) = _) rfl ?_
  intro x hm hf a0 a1 a2 a3 a4
  rw [core06 hm, decodeMajor06, hf]
  exact checked_of (by rw [a0, a1, a2, a3, a4]) hwf (rfl) (rfl) (rfl) (rfl)
theorem RoundTrip.isubsS32 (c : Bool) (u : Bool) (d : BitVec 7) (a : BitVec 7) (b : BitVec 7) : RoundTrip.Statement (.isubsS32 c u d a b) := by
  intro hwf
  refine form1 0x06C00000 0x06 (by decide) 0x6 (by decide) (by decide) c u d a b (rfl : encodeNat (.isubsS32 c u d a b) = _) rfl ?_
  intro x hm hf a0 a1 a2 a3 a4
  rw [core06 hm, decodeMajor06, hf]
  exact checked_of (by rw [a0, a1, a2, a3, a4]) hwf (rfl) (rfl) (rfl) (rfl)
theorem RoundTrip.iaddsN32 (c : Bool) (u : Bool) (d : BitVec 7) (a : BitVec 7) (b : BitVec 7) : RoundTrip.Statement (.iaddsN32 c u d a b) := by
  intro hwf
  refine form1 0x06E00000 0x06 (by decide) 0x7 (by decide) (by decide) c u d a b (rfl : encodeNat (.iaddsN32 c u d a b) = _) rfl ?_
  intro x hm hf a0 a1 a2 a3 a4
  rw [core06 hm, decodeMajor06, hf]
  exact checked_of (by rw [a0, a1, a2, a3, a4]) hwf (rfl) (rfl) (rfl) (rfl)
theorem RoundTrip.iaddi (c : Bool) (u : Bool) (d : BitVec 7) (a : BitVec 7) (imm : BitVec 10) : RoundTrip.Statement (.iaddi c u d a imm) := by
  intro hwf
  refine form6 0x08000000 0x08 (by decide) (by decide) c u d a imm (rfl : encodeNat (.iaddi c u d a imm) = _) rfl ?_
  intro x hm a0 a1 a2 a3 a4
  rw [core08 hm, decodeMajor08]
  exact checked_of (by rw [a0, a1, a2, a3, a4]) hwf (rfl) (rfl) (rfl) (rfl)
theorem RoundTrip.andi (c : Bool) (u : Bool) (d : BitVec 7) (a : BitVec 7) (imm : BitVec 10) : RoundTrip.Statement (.andi c u d a imm) := by
  intro hwf
  refine form6 0x09000000 0x09 (by decide) (by decide) c u d a imm (rfl : encodeNat (.andi c u d a imm) = _) rfl ?_
  intro x hm a0 a1 a2 a3 a4
  rw [core09 hm, decodeMajor09]
  exact checked_of (by rw [a0, a1, a2, a3, a4]) hwf (rfl) (rfl) (rfl) (rfl)
theorem RoundTrip.ori (c : Bool) (u : Bool) (d : BitVec 7) (a : BitVec 7) (imm : BitVec 10) : RoundTrip.Statement (.ori c u d a imm) := by
  intro hwf
  refine form6 0x0A000000 0x0A (by decide) (by decide) c u d a imm (rfl : encodeNat (.ori c u d a imm) = _) rfl ?_
  intro x hm a0 a1 a2 a3 a4
  rw [core0A hm, decodeMajor0A]
  exact checked_of (by rw [a0, a1, a2, a3, a4]) hwf (rfl) (rfl) (rfl) (rfl)
theorem RoundTrip.xori (c : Bool) (u : Bool) (d : BitVec 7) (a : BitVec 7) (imm : BitVec 10) : RoundTrip.Statement (.xori c u d a imm) := by
  intro hwf
  refine form6 0x0B000000 0x0B (by decide) (by decide) c u d a imm (rfl : encodeNat (.xori c u d a imm) = _) rfl ?_
  intro x hm a0 a1 a2 a3 a4
  rw [core0B hm, decodeMajor0B]
  exact checked_of (by rw [a0, a1, a2, a3, a4]) hwf (rfl) (rfl) (rfl) (rfl)
theorem RoundTrip.shfi (c : Bool) (u : Bool) (d : BitVec 7) (a : BitVec 7) (sc : BitVec 2) (n : BitVec 6) : RoundTrip.Statement (.shfi c u d a sc n) := by
  intro hwf
  refine form7 0x0C000000 0x0C (by decide) (by decide) c u d a sc n (rfl : encodeNat (.shfi c u d a sc n) = _) rfl ?_
  intro x hm a0 a1 a2 a3 a4 a5 z0
  rw [core0C hm, decodeMajor0C]
  exact checked_of (by rw [a0, a1, a2, a3, a4, a5]) hwf (rfl) (rfl) (rfl) (beq_of z0)
theorem RoundTrip.imuli (c : Bool) (u : Bool) (d : BitVec 7) (a : BitVec 7) (imm : BitVec 10) : RoundTrip.Statement (.imuli c u d a imm) := by
  intro hwf
  refine form6 0x0D000000 0x0D (by decide) (by decide) c u d a imm (rfl : encodeNat (.imuli c u d a imm) = _) rfl ?_
  intro x hm a0 a1 a2 a3 a4
  rw [core0D hm, decodeMajor0D]
  exact checked_of (by rw [a0, a1, a2, a3, a4]) hwf (rfl) (rfl) (rfl) (rfl)
theorem RoundTrip.leai (c : Bool) (u : Bool) (d : BitVec 6) (a : BitVec 6) (imm : BitVec 10) : RoundTrip.Statement (.leai c u d a imm) := by
  intro hwf
  refine form8 0x0E000000 0x0E (by decide) (by decide) c u d a imm (rfl : encodeNat (.leai c u d a imm) = _) rfl ?_
  intro x hm a0 a1 a2 a3 a4 z0 z1
  rw [core0E hm, decodeMajor0E]
  exact checked_of (by rw [a0, a1, a2, a3, a4]) hwf (rfl) (rfl) (band_true_of (beq_of z0) (beq_of z1)) (rfl)
theorem RoundTrip.movi (c : Bool) (u : Bool) (d : BitVec 7) (imm : BitVec 17) : RoundTrip.Statement (.movi c u d imm) := by
  intro hwf
  refine form9 0x10000000 0x10 (by decide) (by decide) c u d imm (rfl : encodeNat (.movi c u d imm) = _) rfl ?_
  intro x hm a0 a1 a2 a3
  rw [core10 hm, decodeMajor10]
  exact checked_of (by rw [a0, a1, a2, a3]) hwf (rfl) (rfl) (rfl) (rfl)
theorem RoundTrip.movhi (c : Bool) (u : Bool) (d : BitVec 7) (imm : BitVec 17) : RoundTrip.Statement (.movhi c u d imm) := by
  intro hwf
  refine form9 0x11000000 0x11 (by decide) (by decide) c u d imm (rfl : encodeNat (.movhi c u d imm) = _) rfl ?_
  intro x hm a0 a1 a2 a3
  rw [core11 hm, decodeMajor11]
  exact checked_of (by rw [a0, a1, a2, a3]) hwf (rfl) (rfl) (rfl) (rfl)
theorem RoundTrip.kld (c : Bool) (u : Bool) (d : BitVec 7) (k : BitVec 10) : RoundTrip.Statement (.kld c u d k) := by
  intro hwf
  refine form10 0x12000000 0x12 (by decide) (by decide) c u d k (rfl : encodeNat (.kld c u d k) = _) rfl ?_
  intro x hm a0 a1 a2 a3 z0
  rw [core12 hm, decodeMajor12]
  exact checked_of (by rw [a0, a1, a2, a3]) hwf (rfl) (rfl) (rfl) (beq_of z0)
theorem RoundTrip.isetp (c : Bool) (u : Bool) (f : BitVec 3) (e : BitVec 2) (p : BitVec 3) (a : BitVec 7) (b : BitVec 7) : RoundTrip.Statement (.isetp c u f e p a b) := by
  intro hwf
  refine form11 0x13000000 0x13 (by decide) (by decide) c u f e p a b (rfl : encodeNat (.isetp c u f e p a b) = _) rfl ?_
  intro x hm a0 a1 a2 a3 a4 a5 a6 z0 z1
  rw [core13 hm, decodeMajor13]
  exact checked_of (by rw [a0, a1, a2, a3, a4, a5, a6]) hwf (rfl) (rfl) (rfl) (band_true_of (beq_of z0) (beq_of z1))
theorem RoundTrip.fsetp (c : Bool) (u : Bool) (f : BitVec 3) (e : BitVec 2) (p : BitVec 3) (a : BitVec 7) (b : BitVec 7) : RoundTrip.Statement (.fsetp c u f e p a b) := by
  intro hwf
  refine form11 0x14000000 0x14 (by decide) (by decide) c u f e p a b (rfl : encodeNat (.fsetp c u f e p a b) = _) rfl ?_
  intro x hm a0 a1 a2 a3 a4 a5 a6 z0 z1
  rw [core14 hm, decodeMajor14]
  exact checked_of (by rw [a0, a1, a2, a3, a4, a5, a6]) hwf (rfl) (rfl) (rfl) (band_true_of (beq_of z0) (beq_of z1))
theorem RoundTrip.pand (c : Bool) (u : Bool) (d : BitVec 3) (a : BitVec 3) (b : BitVec 3) : RoundTrip.Statement (.pand c u d a b) := by
  intro hwf
  refine form12 0x15000000 0x15 (by decide) 0x0 (by decide) (by decide) c u d a b (rfl : encodeNat (.pand c u d a b) = _) rfl ?_
  intro x hm hf a0 a1 a2 a3 a4 z0 z1 z2
  rw [core15 hm, decodeMajor15, hf]
  exact checked_of (by rw [a0, a1, a2, a3, a4]) hwf (rfl) (rfl) (rfl) (band_true_of (band_true_of (beq_of z0) (beq_of z1)) (beq_of z2))
theorem RoundTrip.por (c : Bool) (u : Bool) (d : BitVec 3) (a : BitVec 3) (b : BitVec 3) : RoundTrip.Statement (.por c u d a b) := by
  intro hwf
  refine form12 0x15200000 0x15 (by decide) 0x1 (by decide) (by decide) c u d a b (rfl : encodeNat (.por c u d a b) = _) rfl ?_
  intro x hm hf a0 a1 a2 a3 a4 z0 z1 z2
  rw [core15 hm, decodeMajor15, hf]
  exact checked_of (by rw [a0, a1, a2, a3, a4]) hwf (rfl) (rfl) (rfl) (band_true_of (band_true_of (beq_of z0) (beq_of z1)) (beq_of z2))
theorem RoundTrip.pxor (c : Bool) (u : Bool) (d : BitVec 3) (a : BitVec 3) (b : BitVec 3) : RoundTrip.Statement (.pxor c u d a b) := by
  intro hwf
  refine form12 0x15400000 0x15 (by decide) 0x2 (by decide) (by decide) c u d a b (rfl : encodeNat (.pxor c u d a b) = _) rfl ?_
  intro x hm hf a0 a1 a2 a3 a4 z0 z1 z2
  rw [core15 hm, decodeMajor15, hf]
  exact checked_of (by rw [a0, a1, a2, a3, a4]) hwf (rfl) (rfl) (rfl) (band_true_of (band_true_of (beq_of z0) (beq_of z1)) (beq_of z2))
theorem RoundTrip.pnot (c : Bool) (u : Bool) (d : BitVec 3) (a : BitVec 3) : RoundTrip.Statement (.pnot c u d a) := by
  intro hwf
  refine form13 0x15600000 0x15 (by decide) 0x3 (by decide) (by decide) c u d a (rfl : encodeNat (.pnot c u d a) = _) rfl ?_
  intro x hm hf a0 a1 a2 a3 z0 z1 z2
  rw [core15 hm, decodeMajor15, hf]
  exact checked_of (by rw [a0, a1, a2, a3]) hwf (rfl) (rfl) (rfl) (band_true_of (band_true_of (beq_of z0) (beq_of z1)) (beq_of z2))
theorem RoundTrip.p2v (c : Bool) (u : Bool) (d : BitVec 7) : RoundTrip.Statement (.p2v c u d) := by
  intro hwf
  refine form14 0x15800000 0x15 (by decide) 0x4 (by decide) (by decide) c u d (rfl : encodeNat (.p2v c u d) = _) rfl ?_
  intro x hm hf a0 a1 a2 z0
  rw [core15 hm, decodeMajor15, hf]
  exact checked_of (by rw [a0, a1, a2]) hwf (rfl) (rfl) (rfl) (beq_of z0)
theorem RoundTrip.v2p (c : Bool) (u : Bool) (a : BitVec 7) : RoundTrip.Statement (.v2p c u a) := by
  intro hwf
  refine form15 0x15A00000 0x15 (by decide) 0x5 (by decide) (by decide) c u a (rfl : encodeNat (.v2p c u a) = _) rfl ?_
  intro x hm hf a0 a1 a2 z0 z1
  rw [core15 hm, decodeMajor15, hf]
  exact checked_of (by rw [a0, a1, a2]) hwf (rfl) (rfl) (rfl) (band_true_of (beq_of z0) (beq_of z1))
theorem RoundTrip.pset (c : Bool) (u : Bool) (d : BitVec 3) (b : BitVec 1) : RoundTrip.Statement (.pset c u d b) := by
  intro hwf
  refine form16 0x15C00000 0x15 (by decide) 0x6 (by decide) (by decide) c u d b (rfl : encodeNat (.pset c u d b) = _) rfl ?_
  intro x hm hf a0 a1 a2 a3 z0 z1
  rw [core15 hm, decodeMajor15, hf]
  exact checked_of (by rw [a0, a1, a2, a3]) hwf (rfl) (rfl) (rfl) (band_true_of (beq_of z0) (beq_of z1))
theorem RoundTrip.selp (c : Bool) (u : Bool) (d : BitVec 7) (a : BitVec 7) (b : BitVec 7) (p : BitVec 3) : RoundTrip.Statement (.selp c u d a b p) := by
  intro hwf
  refine form17 0x16000000 0x16 (by decide) (by decide) c u d a b p (rfl : encodeNat (.selp c u d a b p) = _) rfl ?_
  intro x hm a0 a1 a2 a3 a4 a5
  rw [core16 hm, decodeMajor16]
  exact checked_of (by rw [a0, a1, a2, a3, a4, a5]) hwf (rfl) (rfl) (rfl) (rfl)
theorem RoundTrip.mand (c : Bool) (u : Bool) (d : BitVec 4) (a : BitVec 4) (b : BitVec 4) : RoundTrip.Statement (.mand c u d a b) := by
  intro hwf
  refine form18 0x17000000 0x17 (by decide) 0x0 (by decide) (by decide) c u d a b (rfl : encodeNat (.mand c u d a b) = _) rfl ?_
  intro x hm hf a0 a1 a2 a3 a4 z0 z1 z2
  rw [core17 hm, decodeMajor17, hf]
  exact checked_of (by rw [a0, a1, a2, a3, a4]) hwf (rfl) (rfl) (rfl) (band_true_of (band_true_of (beq_of z0) (beq_of z1)) (beq_of z2))
theorem RoundTrip.mor (c : Bool) (u : Bool) (d : BitVec 4) (a : BitVec 4) (b : BitVec 4) : RoundTrip.Statement (.mor c u d a b) := by
  intro hwf
  refine form18 0x17200000 0x17 (by decide) 0x1 (by decide) (by decide) c u d a b (rfl : encodeNat (.mor c u d a b) = _) rfl ?_
  intro x hm hf a0 a1 a2 a3 a4 z0 z1 z2
  rw [core17 hm, decodeMajor17, hf]
  exact checked_of (by rw [a0, a1, a2, a3, a4]) hwf (rfl) (rfl) (rfl) (band_true_of (band_true_of (beq_of z0) (beq_of z1)) (beq_of z2))
theorem RoundTrip.mxor (c : Bool) (u : Bool) (d : BitVec 4) (a : BitVec 4) (b : BitVec 4) : RoundTrip.Statement (.mxor c u d a b) := by
  intro hwf
  refine form18 0x17400000 0x17 (by decide) 0x2 (by decide) (by decide) c u d a b (rfl : encodeNat (.mxor c u d a b) = _) rfl ?_
  intro x hm hf a0 a1 a2 a3 a4 z0 z1 z2
  rw [core17 hm, decodeMajor17, hf]
  exact checked_of (by rw [a0, a1, a2, a3, a4]) hwf (rfl) (rfl) (rfl) (band_true_of (band_true_of (beq_of z0) (beq_of z1)) (beq_of z2))
theorem RoundTrip.mnot (c : Bool) (u : Bool) (d : BitVec 4) (a : BitVec 4) : RoundTrip.Statement (.mnot c u d a) := by
  intro hwf
  refine form19 0x17600000 0x17 (by decide) 0x3 (by decide) (by decide) c u d a (rfl : encodeNat (.mnot c u d a) = _) rfl ?_
  intro x hm hf a0 a1 a2 a3 z0 z1 z2
  rw [core17 hm, decodeMajor17, hf]
  exact checked_of (by rw [a0, a1, a2, a3]) hwf (rfl) (rfl) (rfl) (band_true_of (band_true_of (beq_of z0) (beq_of z1)) (beq_of z2))
theorem RoundTrip.mfromv (c : Bool) (u : Bool) (d : BitVec 4) (a : BitVec 7) : RoundTrip.Statement (.mfromv c u d a) := by
  intro hwf
  refine form20 0x17800000 0x17 (by decide) 0x4 (by decide) (by decide) c u d a (rfl : encodeNat (.mfromv c u d a) = _) rfl ?_
  intro x hm hf a0 a1 a2 a3 z0 z1
  rw [core17 hm, decodeMajor17, hf]
  exact checked_of (by rw [a0, a1, a2, a3]) hwf (rfl) (rfl) (rfl) (band_true_of (beq_of z0) (beq_of z1))
theorem RoundTrip.mtov (c : Bool) (u : Bool) (d : BitVec 7) (a : BitVec 4) : RoundTrip.Statement (.mtov c u d a) := by
  intro hwf
  refine form21 0x17A00000 0x17 (by decide) 0x5 (by decide) (by decide) c u d a (rfl : encodeNat (.mtov c u d a) = _) rfl ?_
  intro x hm hf a0 a1 a2 a3 z0 z1
  rw [core17 hm, decodeMajor17, hf]
  exact checked_of (by rw [a0, a1, a2, a3]) hwf (rfl) (rfl) (rfl) (band_true_of (beq_of z0) (beq_of z1))
theorem RoundTrip.mpopc (c : Bool) (u : Bool) (d : BitVec 7) (a : BitVec 4) : RoundTrip.Statement (.mpopc c u d a) := by
  intro hwf
  refine form21 0x17C00000 0x17 (by decide) 0x6 (by decide) (by decide) c u d a (rfl : encodeNat (.mpopc c u d a) = _) rfl ?_
  intro x hm hf a0 a1 a2 a3 z0 z1
  rw [core17 hm, decodeMajor17, hf]
  exact checked_of (by rw [a0, a1, a2, a3]) hwf (rfl) (rfl) (rfl) (band_true_of (beq_of z0) (beq_of z1))
theorem RoundTrip.mself (c : Bool) (u : Bool) (d : BitVec 4) : RoundTrip.Statement (.mself c u d) := by
  intro hwf
  refine form22 0x17E00000 0x17 (by decide) 0x7 (by decide) (by decide) c u d (rfl : encodeNat (.mself c u d) = _) rfl ?_
  intro x hm hf a0 a1 a2 z0 z1
  rw [core17 hm, decodeMajor17, hf]
  exact checked_of (by rw [a0, a1, a2]) hwf (rfl) (rfl) (rfl) (band_true_of (beq_of z0) (beq_of z1))
theorem RoundTrip.fadd (c : Bool) (u : Bool) (d : BitVec 7) (a : BitVec 7) (b : BitVec 7) : RoundTrip.Statement (.fadd c u d a b) := by
  intro hwf
  refine form1 0x18000000 0x18 (by decide) 0x0 (by decide) (by decide) c u d a b (rfl : encodeNat (.fadd c u d a b) = _) rfl ?_
  intro x hm hf a0 a1 a2 a3 a4
  rw [core18 hm, decodeMajor18, hf]
  exact checked_of (by rw [a0, a1, a2, a3, a4]) hwf (rfl) (rfl) (rfl) (rfl)
theorem RoundTrip.fsub (c : Bool) (u : Bool) (d : BitVec 7) (a : BitVec 7) (b : BitVec 7) : RoundTrip.Statement (.fsub c u d a b) := by
  intro hwf
  refine form1 0x18200000 0x18 (by decide) 0x1 (by decide) (by decide) c u d a b (rfl : encodeNat (.fsub c u d a b) = _) rfl ?_
  intro x hm hf a0 a1 a2 a3 a4
  rw [core18 hm, decodeMajor18, hf]
  exact checked_of (by rw [a0, a1, a2, a3, a4]) hwf (rfl) (rfl) (rfl) (rfl)
theorem RoundTrip.fmul (c : Bool) (u : Bool) (d : BitVec 7) (a : BitVec 7) (b : BitVec 7) : RoundTrip.Statement (.fmul c u d a b) := by
  intro hwf
  refine form1 0x18400000 0x18 (by decide) 0x2 (by decide) (by decide) c u d a b (rfl : encodeNat (.fmul c u d a b) = _) rfl ?_
  intro x hm hf a0 a1 a2 a3 a4
  rw [core18 hm, decodeMajor18, hf]
  exact checked_of (by rw [a0, a1, a2, a3, a4]) hwf (rfl) (rfl) (rfl) (rfl)
theorem RoundTrip.fmin (c : Bool) (u : Bool) (d : BitVec 7) (a : BitVec 7) (b : BitVec 7) : RoundTrip.Statement (.fmin c u d a b) := by
  intro hwf
  refine form1 0x18600000 0x18 (by decide) 0x3 (by decide) (by decide) c u d a b (rfl : encodeNat (.fmin c u d a b) = _) rfl ?_
  intro x hm hf a0 a1 a2 a3 a4
  rw [core18 hm, decodeMajor18, hf]
  exact checked_of (by rw [a0, a1, a2, a3, a4]) hwf (rfl) (rfl) (rfl) (rfl)
theorem RoundTrip.fmax (c : Bool) (u : Bool) (d : BitVec 7) (a : BitVec 7) (b : BitVec 7) : RoundTrip.Statement (.fmax c u d a b) := by
  intro hwf
  refine form1 0x18800000 0x18 (by decide) 0x4 (by decide) (by decide) c u d a b (rfl : encodeNat (.fmax c u d a b) = _) rfl ?_
  intro x hm hf a0 a1 a2 a3 a4
  rw [core18 hm, decodeMajor18, hf]
  exact checked_of (by rw [a0, a1, a2, a3, a4]) hwf (rfl) (rfl) (rfl) (rfl)
theorem RoundTrip.fabs (c : Bool) (u : Bool) (d : BitVec 7) (a : BitVec 7) : RoundTrip.Statement (.fabs c u d a) := by
  intro hwf
  refine form2 0x18A00000 0x18 (by decide) 0x5 (by decide) (by decide) c u d a (rfl : encodeNat (.fabs c u d a) = _) rfl ?_
  intro x hm hf a0 a1 a2 a3 z0
  rw [core18 hm, decodeMajor18, hf]
  exact checked_of (by rw [a0, a1, a2, a3]) hwf (rfl) (rfl) (rfl) (beq_of z0)
theorem RoundTrip.fneg (c : Bool) (u : Bool) (d : BitVec 7) (a : BitVec 7) : RoundTrip.Statement (.fneg c u d a) := by
  intro hwf
  refine form2 0x18C00000 0x18 (by decide) 0x6 (by decide) (by decide) c u d a (rfl : encodeNat (.fneg c u d a) = _) rfl ?_
  intro x hm hf a0 a1 a2 a3 z0
  rw [core18 hm, decodeMajor18, hf]
  exact checked_of (by rw [a0, a1, a2, a3]) hwf (rfl) (rfl) (rfl) (beq_of z0)
theorem RoundTrip.fcpsgn (c : Bool) (u : Bool) (d : BitVec 7) (a : BitVec 7) (b : BitVec 7) : RoundTrip.Statement (.fcpsgn c u d a b) := by
  intro hwf
  refine form1 0x18E00000 0x18 (by decide) 0x7 (by decide) (by decide) c u d a b (rfl : encodeNat (.fcpsgn c u d a b) = _) rfl ?_
  intro x hm hf a0 a1 a2 a3 a4
  rw [core18 hm, decodeMajor18, hf]
  exact checked_of (by rw [a0, a1, a2, a3, a4]) hwf (rfl) (rfl) (rfl) (rfl)
theorem RoundTrip.fma (c : Bool) (u : Bool) (d : BitVec 7) (a : BitVec 7) (b : BitVec 7) : RoundTrip.Statement (.fma c u d a b) := by
  intro hwf
  refine form1 0x19000000 0x19 (by decide) 0x0 (by decide) (by decide) c u d a b (rfl : encodeNat (.fma c u d a b) = _) rfl ?_
  intro x hm hf a0 a1 a2 a3 a4
  rw [core19 hm, decodeMajor19, hf]
  exact checked_of (by rw [a0, a1, a2, a3, a4]) hwf (rfl) (rfl) (rfl) (rfl)
theorem RoundTrip.fms (c : Bool) (u : Bool) (d : BitVec 7) (a : BitVec 7) (b : BitVec 7) : RoundTrip.Statement (.fms c u d a b) := by
  intro hwf
  refine form1 0x19200000 0x19 (by decide) 0x1 (by decide) (by decide) c u d a b (rfl : encodeNat (.fms c u d a b) = _) rfl ?_
  intro x hm hf a0 a1 a2 a3 a4
  rw [core19 hm, decodeMajor19, hf]
  exact checked_of (by rw [a0, a1, a2, a3, a4]) hwf (rfl) (rfl) (rfl) (rfl)
theorem RoundTrip.fnma (c : Bool) (u : Bool) (d : BitVec 7) (a : BitVec 7) (b : BitVec 7) : RoundTrip.Statement (.fnma c u d a b) := by
  intro hwf
  refine form1 0x19400000 0x19 (by decide) 0x2 (by decide) (by decide) c u d a b (rfl : encodeNat (.fnma c u d a b) = _) rfl ?_
  intro x hm hf a0 a1 a2 a3 a4
  rw [core19 hm, decodeMajor19, hf]
  exact checked_of (by rw [a0, a1, a2, a3, a4]) hwf (rfl) (rfl) (rfl) (rfl)
theorem RoundTrip.fnms (c : Bool) (u : Bool) (d : BitVec 7) (a : BitVec 7) (b : BitVec 7) : RoundTrip.Statement (.fnms c u d a b) := by
  intro hwf
  refine form1 0x19600000 0x19 (by decide) 0x3 (by decide) (by decide) c u d a b (rfl : encodeNat (.fnms c u d a b) = _) rfl ?_
  intro x hm hf a0 a1 a2 a3 a4
  rw [core19 hm, decodeMajor19, hf]
  exact checked_of (by rw [a0, a1, a2, a3, a4]) hwf (rfl) (rfl) (rfl) (rfl)
theorem RoundTrip.frcp (c : Bool) (u : Bool) (d : BitVec 7) (a : BitVec 7) : RoundTrip.Statement (.frcp c u d a) := by
  intro hwf
  refine form2 0x1A000000 0x1A (by decide) 0x0 (by decide) (by decide) c u d a (rfl : encodeNat (.frcp c u d a) = _) rfl ?_
  intro x hm hf a0 a1 a2 a3 z0
  rw [core1A hm, decodeMajor1A, hf]
  exact checked_of (by rw [a0, a1, a2, a3]) hwf (rfl) (rfl) (rfl) (beq_of z0)
theorem RoundTrip.frsq (c : Bool) (u : Bool) (d : BitVec 7) (a : BitVec 7) : RoundTrip.Statement (.frsq c u d a) := by
  intro hwf
  refine form2 0x1A200000 0x1A (by decide) 0x1 (by decide) (by decide) c u d a (rfl : encodeNat (.frsq c u d a) = _) rfl ?_
  intro x hm hf a0 a1 a2 a3 z0
  rw [core1A hm, decodeMajor1A, hf]
  exact checked_of (by rw [a0, a1, a2, a3]) hwf (rfl) (rfl) (rfl) (beq_of z0)
theorem RoundTrip.fsqrta (c : Bool) (u : Bool) (d : BitVec 7) (a : BitVec 7) : RoundTrip.Statement (.fsqrta c u d a) := by
  intro hwf
  refine form2 0x1A400000 0x1A (by decide) 0x2 (by decide) (by decide) c u d a (rfl : encodeNat (.fsqrta c u d a) = _) rfl ?_
  intro x hm hf a0 a1 a2 a3 z0
  rw [core1A hm, decodeMajor1A, hf]
  exact checked_of (by rw [a0, a1, a2, a3]) hwf (rfl) (rfl) (rfl) (beq_of z0)
theorem RoundTrip.fex2 (c : Bool) (u : Bool) (d : BitVec 7) (a : BitVec 7) : RoundTrip.Statement (.fex2 c u d a) := by
  intro hwf
  refine form2 0x1A600000 0x1A (by decide) 0x3 (by decide) (by decide) c u d a (rfl : encodeNat (.fex2 c u d a) = _) rfl ?_
  intro x hm hf a0 a1 a2 a3 z0
  rw [core1A hm, decodeMajor1A, hf]
  exact checked_of (by rw [a0, a1, a2, a3]) hwf (rfl) (rfl) (rfl) (beq_of z0)
theorem RoundTrip.flg2 (c : Bool) (u : Bool) (d : BitVec 7) (a : BitVec 7) : RoundTrip.Statement (.flg2 c u d a) := by
  intro hwf
  refine form2 0x1A800000 0x1A (by decide) 0x4 (by decide) (by decide) c u d a (rfl : encodeNat (.flg2 c u d a) = _) rfl ?_
  intro x hm hf a0 a1 a2 a3 z0
  rw [core1A hm, decodeMajor1A, hf]
  exact checked_of (by rw [a0, a1, a2, a3]) hwf (rfl) (rfl) (rfl) (beq_of z0)
theorem RoundTrip.fsinp (c : Bool) (u : Bool) (d : BitVec 7) (a : BitVec 7) : RoundTrip.Statement (.fsinp c u d a) := by
  intro hwf
  refine form2 0x1AA00000 0x1A (by decide) 0x5 (by decide) (by decide) c u d a (rfl : encodeNat (.fsinp c u d a) = _) rfl ?_
  intro x hm hf a0 a1 a2 a3 z0
  rw [core1A hm, decodeMajor1A, hf]
  exact checked_of (by rw [a0, a1, a2, a3]) hwf (rfl) (rfl) (rfl) (beq_of z0)
theorem RoundTrip.fcosp (c : Bool) (u : Bool) (d : BitVec 7) (a : BitVec 7) : RoundTrip.Statement (.fcosp c u d a) := by
  intro hwf
  refine form2 0x1AC00000 0x1A (by decide) 0x6 (by decide) (by decide) c u d a (rfl : encodeNat (.fcosp c u d a) = _) rfl ?_
  intro x hm hf a0 a1 a2 a3 z0
  rw [core1A hm, decodeMajor1A, hf]
  exact checked_of (by rw [a0, a1, a2, a3]) hwf (rfl) (rfl) (rfl) (beq_of z0)
theorem RoundTrip.ftanh (c : Bool) (u : Bool) (d : BitVec 7) (a : BitVec 7) : RoundTrip.Statement (.ftanh c u d a) := by
  intro hwf
  refine form2 0x1AE00000 0x1A (by decide) 0x7 (by decide) (by decide) c u d a (rfl : encodeNat (.ftanh c u d a) = _) rfl ?_
  intro x hm hf a0 a1 a2 a3 z0
  rw [core1A hm, decodeMajor1A, hf]
  exact checked_of (by rw [a0, a1, a2, a3]) hwf (rfl) (rfl) (rfl) (beq_of z0)
theorem RoundTrip.fdiv (c : Bool) (u : Bool) (d : BitVec 7) (a : BitVec 7) (b : BitVec 7) : RoundTrip.Statement (.fdiv c u d a b) := by
  intro hwf
  refine form1 0x1B000000 0x1B (by decide) 0x0 (by decide) (by decide) c u d a b (rfl : encodeNat (.fdiv c u d a b) = _) rfl ?_
  intro x hm hf a0 a1 a2 a3 a4
  rw [core1B hm, decodeMajor1B, hf]
  exact checked_of (by rw [a0, a1, a2, a3, a4]) hwf (rfl) (rfl) (rfl) (rfl)
theorem RoundTrip.fsqrt (c : Bool) (u : Bool) (d : BitVec 7) (a : BitVec 7) : RoundTrip.Statement (.fsqrt c u d a) := by
  intro hwf
  refine form2 0x1B200000 0x1B (by decide) 0x1 (by decide) (by decide) c u d a (rfl : encodeNat (.fsqrt c u d a) = _) rfl ?_
  intro x hm hf a0 a1 a2 a3 z0
  rw [core1B hm, decodeMajor1B, hf]
  exact checked_of (by rw [a0, a1, a2, a3]) hwf (rfl) (rfl) (rfl) (beq_of z0)
theorem RoundTrip.frintRn (c : Bool) (u : Bool) (d : BitVec 7) (a : BitVec 7) : RoundTrip.Statement (.frintRn c u d a) := by
  intro hwf
  refine form2 0x1B400000 0x1B (by decide) 0x2 (by decide) (by decide) c u d a (rfl : encodeNat (.frintRn c u d a) = _) rfl ?_
  intro x hm hf a0 a1 a2 a3 z0
  rw [core1B hm, decodeMajor1B, hf]
  exact checked_of (by rw [a0, a1, a2, a3]) hwf (rfl) (rfl) (rfl) (beq_of z0)
theorem RoundTrip.frintRz (c : Bool) (u : Bool) (d : BitVec 7) (a : BitVec 7) : RoundTrip.Statement (.frintRz c u d a) := by
  intro hwf
  refine form2 0x1B600000 0x1B (by decide) 0x3 (by decide) (by decide) c u d a (rfl : encodeNat (.frintRz c u d a) = _) rfl ?_
  intro x hm hf a0 a1 a2 a3 z0
  rw [core1B hm, decodeMajor1B, hf]
  exact checked_of (by rw [a0, a1, a2, a3]) hwf (rfl) (rfl) (rfl) (beq_of z0)
theorem RoundTrip.frintRd (c : Bool) (u : Bool) (d : BitVec 7) (a : BitVec 7) : RoundTrip.Statement (.frintRd c u d a) := by
  intro hwf
  refine form2 0x1B800000 0x1B (by decide) 0x4 (by decide) (by decide) c u d a (rfl : encodeNat (.frintRd c u d a) = _) rfl ?_
  intro x hm hf a0 a1 a2 a3 z0
  rw [core1B hm, decodeMajor1B, hf]
  exact checked_of (by rw [a0, a1, a2, a3]) hwf (rfl) (rfl) (rfl) (beq_of z0)
theorem RoundTrip.frintRu (c : Bool) (u : Bool) (d : BitVec 7) (a : BitVec 7) : RoundTrip.Statement (.frintRu c u d a) := by
  intro hwf
  refine form2 0x1BA00000 0x1B (by decide) 0x5 (by decide) (by decide) c u d a (rfl : encodeNat (.frintRu c u d a) = _) rfl ?_
  intro x hm hf a0 a1 a2 a3 z0
  rw [core1B hm, decodeMajor1B, hf]
  exact checked_of (by rw [a0, a1, a2, a3]) hwf (rfl) (rfl) (rfl) (beq_of z0)
theorem RoundTrip.fclass (c : Bool) (u : Bool) (d : BitVec 7) (a : BitVec 7) : RoundTrip.Statement (.fclass c u d a) := by
  intro hwf
  refine form2 0x1BC00000 0x1B (by decide) 0x6 (by decide) (by decide) c u d a (rfl : encodeNat (.fclass c u d a) = _) rfl ?_
  intro x hm hf a0 a1 a2 a3 z0
  rw [core1B hm, decodeMajor1B, hf]
  exact checked_of (by rw [a0, a1, a2, a3]) hwf (rfl) (rfl) (rfl) (beq_of z0)
theorem RoundTrip.fscalb (c : Bool) (u : Bool) (d : BitVec 7) (a : BitVec 7) (b : BitVec 7) : RoundTrip.Statement (.fscalb c u d a b) := by
  intro hwf
  refine form1 0x1BE00000 0x1B (by decide) 0x7 (by decide) (by decide) c u d a b (rfl : encodeNat (.fscalb c u d a b) = _) rfl ?_
  intro x hm hf a0 a1 a2 a3 a4
  rw [core1B hm, decodeMajor1B, hf]
  exact checked_of (by rw [a0, a1, a2, a3, a4]) hwf (rfl) (rfl) (rfl) (rfl)
theorem RoundTrip.cvt (c : Bool) (u : Bool) (sc : BitVec 1) (r : BitVec 2) (d : BitVec 7) (a : BitVec 7) (b : BitVec 7) : RoundTrip.Statement (.cvt c u sc r d a b) := by
  intro hwf
  refine form23 0x1C000000 0x1C (by decide) (by decide) c u sc r d a b (rfl : encodeNat (.cvt c u sc r d a b) = _) rfl ?_
  intro x hm a0 a1 a2 a3 a4 a5 a6
  have hsel : (cvtSelector b.toNat).isSome = true := by
    simp only [wellFormed, selectorListed, Bool.and_eq_true] at hwf
    exact hwf.1.1.1.2
  have hb : fieldNat x 0 7 = b.toNat := by
    have h := congrArg BitVec.toNat a6
    simpa [fieldBits, BitVec.toNat_ofNat, fieldNat] using h
  rw [core1C hm, decodeMajor1C, hb]
  obtain ⟨f, hs⟩ := Option.isSome_iff_exists.mp hsel
  rw [hs]
  exact checked_of (by rw [a0, a1, a2, a3, a4, a5, a6]) hwf rfl rfl rfl rfl
theorem RoundTrip.pkbf (c : Bool) (u : Bool) (d : BitVec 7) (a : BitVec 7) (b : BitVec 7) : RoundTrip.Statement (.pkbf c u d a b) := by
  intro hwf
  refine form1 0x1D000000 0x1D (by decide) 0x0 (by decide) (by decide) c u d a b (rfl : encodeNat (.pkbf c u d a b) = _) rfl ?_
  intro x hm hf a0 a1 a2 a3 a4
  rw [core1D hm, decodeMajor1D, hf]
  exact checked_of (by rw [a0, a1, a2, a3, a4]) hwf (rfl) (rfl) (rfl) (rfl)
theorem RoundTrip.pke4Lo (c : Bool) (u : Bool) (d : BitVec 7) (a : BitVec 7) (b : BitVec 7) : RoundTrip.Statement (.pke4Lo c u d a b) := by
  intro hwf
  refine form1 0x1D200000 0x1D (by decide) 0x1 (by decide) (by decide) c u d a b (rfl : encodeNat (.pke4Lo c u d a b) = _) rfl ?_
  intro x hm hf a0 a1 a2 a3 a4
  rw [core1D hm, decodeMajor1D, hf]
  exact checked_of (by rw [a0, a1, a2, a3, a4]) hwf (rfl) (rfl) (rfl) (rfl)
theorem RoundTrip.pke4Hi (c : Bool) (u : Bool) (d : BitVec 7) (a : BitVec 7) (b : BitVec 7) : RoundTrip.Statement (.pke4Hi c u d a b) := by
  intro hwf
  refine form1 0x1D400000 0x1D (by decide) 0x2 (by decide) (by decide) c u d a b (rfl : encodeNat (.pke4Hi c u d a b) = _) rfl ?_
  intro x hm hf a0 a1 a2 a3 a4
  rw [core1D hm, decodeMajor1D, hf]
  exact checked_of (by rw [a0, a1, a2, a3, a4]) hwf (rfl) (rfl) (rfl) (rfl)
theorem RoundTrip.pke5Lo (c : Bool) (u : Bool) (d : BitVec 7) (a : BitVec 7) (b : BitVec 7) : RoundTrip.Statement (.pke5Lo c u d a b) := by
  intro hwf
  refine form1 0x1D600000 0x1D (by decide) 0x3 (by decide) (by decide) c u d a b (rfl : encodeNat (.pke5Lo c u d a b) = _) rfl ?_
  intro x hm hf a0 a1 a2 a3 a4
  rw [core1D hm, decodeMajor1D, hf]
  exact checked_of (by rw [a0, a1, a2, a3, a4]) hwf (rfl) (rfl) (rfl) (rfl)
theorem RoundTrip.pke5Hi (c : Bool) (u : Bool) (d : BitVec 7) (a : BitVec 7) (b : BitVec 7) : RoundTrip.Statement (.pke5Hi c u d a b) := by
  intro hwf
  refine form1 0x1D800000 0x1D (by decide) 0x4 (by decide) (by decide) c u d a b (rfl : encodeNat (.pke5Hi c u d a b) = _) rfl ?_
  intro x hm hf a0 a1 a2 a3 a4
  rw [core1D hm, decodeMajor1D, hf]
  exact checked_of (by rw [a0, a1, a2, a3, a4]) hwf (rfl) (rfl) (rfl) (rfl)
theorem RoundTrip.pkpsLo (c : Bool) (u : Bool) (d : BitVec 7) (a : BitVec 7) (b : BitVec 7) : RoundTrip.Statement (.pkpsLo c u d a b) := by
  intro hwf
  refine form1 0x1DA00000 0x1D (by decide) 0x5 (by decide) (by decide) c u d a b (rfl : encodeNat (.pkpsLo c u d a b) = _) rfl ?_
  intro x hm hf a0 a1 a2 a3 a4
  rw [core1D hm, decodeMajor1D, hf]
  exact checked_of (by rw [a0, a1, a2, a3, a4]) hwf (rfl) (rfl) (rfl) (rfl)
theorem RoundTrip.pkpsHi (c : Bool) (u : Bool) (d : BitVec 7) (a : BitVec 7) (b : BitVec 7) : RoundTrip.Statement (.pkpsHi c u d a b) := by
  intro hwf
  refine form1 0x1DC00000 0x1D (by decide) 0x6 (by decide) (by decide) c u d a b (rfl : encodeNat (.pkpsHi c u d a b) = _) rfl ?_
  intro x hm hf a0 a1 a2 a3 a4
  rw [core1D hm, decodeMajor1D, hf]
  exact checked_of (by rw [a0, a1, a2, a3, a4]) hwf (rfl) (rfl) (rfl) (rfl)
theorem RoundTrip.unpk (c : Bool) (u : Bool) (d : BitVec 7) (a : BitVec 7) (j : BitVec 2) : RoundTrip.Statement (.unpk c u d a j) := by
  intro hwf
  refine form24 0x1DE00000 0x1D (by decide) 0x7 (by decide) (by decide) c u d a j (rfl : encodeNat (.unpk c u d a j) = _) rfl ?_
  intro x hm hf a0 a1 a2 a3 a4 z0
  rw [core1D hm, decodeMajor1D, hf]
  exact checked_of (by rw [a0, a1, a2, a3, a4]) hwf (rfl) (rfl) (rfl) (beq_of z0)
theorem RoundTrip.dot2Bf16 (c : Bool) (u : Bool) (d : BitVec 7) (a : BitVec 7) (b : BitVec 7) : RoundTrip.Statement (.dot2Bf16 c u d a b) := by
  intro hwf
  refine form1 0x1E000000 0x1E (by decide) 0x0 (by decide) (by decide) c u d a b (rfl : encodeNat (.dot2Bf16 c u d a b) = _) rfl ?_
  intro x hm hf a0 a1 a2 a3 a4
  rw [core1E hm, decodeMajor1E, hf]
  exact checked_of (by rw [a0, a1, a2, a3, a4]) hwf (rfl) (rfl) (rfl) (rfl)
theorem RoundTrip.dot4E4m3 (c : Bool) (u : Bool) (d : BitVec 7) (a : BitVec 7) (b : BitVec 7) : RoundTrip.Statement (.dot4E4m3 c u d a b) := by
  intro hwf
  refine form1 0x1E200000 0x1E (by decide) 0x1 (by decide) (by decide) c u d a b (rfl : encodeNat (.dot4E4m3 c u d a b) = _) rfl ?_
  intro x hm hf a0 a1 a2 a3 a4
  rw [core1E hm, decodeMajor1E, hf]
  exact checked_of (by rw [a0, a1, a2, a3, a4]) hwf (rfl) (rfl) (rfl) (rfl)
theorem RoundTrip.dot4E5m2 (c : Bool) (u : Bool) (d : BitVec 7) (a : BitVec 7) (b : BitVec 7) : RoundTrip.Statement (.dot4E5m2 c u d a b) := by
  intro hwf
  refine form1 0x1E400000 0x1E (by decide) 0x2 (by decide) (by decide) c u d a b (rfl : encodeNat (.dot4E5m2 c u d a b) = _) rfl ?_
  intro x hm hf a0 a1 a2 a3 a4
  rw [core1E hm, decodeMajor1E, hf]
  exact checked_of (by rw [a0, a1, a2, a3, a4]) hwf (rfl) (rfl) (rfl) (rfl)
theorem RoundTrip.dot4Ps8 (c : Bool) (u : Bool) (d : BitVec 7) (a : BitVec 7) (b : BitVec 7) : RoundTrip.Statement (.dot4Ps8 c u d a b) := by
  intro hwf
  refine form1 0x1E600000 0x1E (by decide) 0x3 (by decide) (by decide) c u d a b (rfl : encodeNat (.dot4Ps8 c u d a b) = _) rfl ?_
  intro x hm hf a0 a1 a2 a3 a4
  rw [core1E hm, decodeMajor1E, hf]
  exact checked_of (by rw [a0, a1, a2, a3, a4]) hwf (rfl) (rfl) (rfl) (rfl)
theorem RoundTrip.dot4S8 (c : Bool) (u : Bool) (d : BitVec 7) (a : BitVec 7) (b : BitVec 7) : RoundTrip.Statement (.dot4S8 c u d a b) := by
  intro hwf
  refine form1 0x1E800000 0x1E (by decide) 0x4 (by decide) (by decide) c u d a b (rfl : encodeNat (.dot4S8 c u d a b) = _) rfl ?_
  intro x hm hf a0 a1 a2 a3 a4
  rw [core1E hm, decodeMajor1E, hf]
  exact checked_of (by rw [a0, a1, a2, a3, a4]) hwf (rfl) (rfl) (rfl) (rfl)
theorem RoundTrip.dot4N8 (c : Bool) (u : Bool) (d : BitVec 7) (a : BitVec 7) (b : BitVec 7) : RoundTrip.Statement (.dot4N8 c u d a b) := by
  intro hwf
  refine form1 0x1EA00000 0x1E (by decide) 0x5 (by decide) (by decide) c u d a b (rfl : encodeNat (.dot4N8 c u d a b) = _) rfl ?_
  intro x hm hf a0 a1 a2 a3 a4
  rw [core1E hm, decodeMajor1E, hf]
  exact checked_of (by rw [a0, a1, a2, a3, a4]) hwf (rfl) (rfl) (rfl) (rfl)
theorem RoundTrip.hadd2Bf16 (c : Bool) (u : Bool) (d : BitVec 7) (a : BitVec 7) (b : BitVec 7) : RoundTrip.Statement (.hadd2Bf16 c u d a b) := by
  intro hwf
  refine form1 0x1EC00000 0x1E (by decide) 0x6 (by decide) (by decide) c u d a b (rfl : encodeNat (.hadd2Bf16 c u d a b) = _) rfl ?_
  intro x hm hf a0 a1 a2 a3 a4
  rw [core1E hm, decodeMajor1E, hf]
  exact checked_of (by rw [a0, a1, a2, a3, a4]) hwf (rfl) (rfl) (rfl) (rfl)
theorem RoundTrip.hmul2Bf16 (c : Bool) (u : Bool) (d : BitVec 7) (a : BitVec 7) (b : BitVec 7) : RoundTrip.Statement (.hmul2Bf16 c u d a b) := by
  intro hwf
  refine form1 0x1EE00000 0x1E (by decide) 0x7 (by decide) (by decide) c u d a b (rfl : encodeNat (.hmul2Bf16 c u d a b) = _) rfl ?_
  intro x hm hf a0 a1 a2 a3 a4
  rw [core1E hm, decodeMajor1E, hf]
  exact checked_of (by rw [a0, a1, a2, a3, a4]) hwf (rfl) (rfl) (rfl) (rfl)
theorem RoundTrip.brm (u : Bool) (n : BitVec 2) (f : BitVec 2) (w : BitVec 4) (x : BitVec 4) (y : BitVec 4) (z : BitVec 4) : RoundTrip.Statement (.brm u n f w x y z) := by
  intro hwf
  refine form25 0x20000000 0x20 (by decide) (by decide) u n f w x y z (rfl : encodeNat (.brm u n f w x y z) = _) ?_
  intro x hm a0 a1 a2 a3 a4 a5 a6 z0
  rw [core20 hm, decodeMajor20]
  exact checked_of (by rw [a0, a1, a2, a3, a4, a5, a6]) hwf (rfl) (rfl) (rfl) (beq_of z0)
theorem RoundTrip.tgt (g : BitVec 12) (h : BitVec 12) : RoundTrip.Statement (.tgt g h) := by
  intro hwf
  refine form26 0x21000000 0x21 (by decide) (by decide) g h (rfl : encodeNat (.tgt g h) = _) ?_
  intro x hm a0 a1 u30
  rw [core21 hm, decodeMajor21]
  exact checked_of (by rw [a0, a1]) hwf (rfl) (bnot_true_of u30) (rfl) (rfl)
theorem RoundTrip.jmp (u : Bool) (imm : BitVec 17) : RoundTrip.Statement (.jmp u imm) := by
  intro hwf
  refine form27 0x22000000 0x22 (by decide) (by decide) u imm (rfl : encodeNat (.jmp u imm) = _) ?_
  intro x hm a0 a1 z0
  rw [core22 hm, decodeMajor22]
  exact checked_of (by rw [a0, a1]) hwf (rfl) (rfl) (rfl) (beq_of z0)
theorem RoundTrip.call (u : Bool) (d : BitVec 6) (imm : BitVec 17) : RoundTrip.Statement (.call u d imm) := by
  intro hwf
  refine form28 0x23000000 0x23 (by decide) (by decide) u d imm (rfl : encodeNat (.call u d imm) = _) ?_
  intro x hm a0 a1 a2 z0
  rw [core23 hm, decodeMajor23]
  exact checked_of (by rw [a0, a1, a2]) hwf (rfl) (rfl) (beq_of z0) (rfl)
theorem RoundTrip.jmpr (a : BitVec 6) : RoundTrip.Statement (.jmpr a) := by
  intro hwf
  refine form29 0x24000000 0x24 (by decide) 0x0 (by decide) (by decide) a (rfl : encodeNat (.jmpr a) = _) ?_
  intro x hm hf a0 z0 z1 z2 u30
  rw [core24 hm, decodeMajor24, hf]
  exact checked_of (by rw [a0]) hwf (rfl) (bnot_true_of u30) (beq_of z0) (band_true_of (beq_of z1) (beq_of z2))
theorem RoundTrip.callr (d : BitVec 6) (a : BitVec 6) : RoundTrip.Statement (.callr d a) := by
  intro hwf
  refine form30 0x24200000 0x24 (by decide) 0x1 (by decide) (by decide) d a (rfl : encodeNat (.callr d a) = _) ?_
  intro x hm hf a0 a1 z0 z1 z2 u30
  rw [core24 hm, decodeMajor24, hf]
  exact checked_of (by rw [a0, a1]) hwf (rfl) (bnot_true_of u30) (band_true_of (beq_of z0) (beq_of z1)) (beq_of z2)
theorem RoundTrip.ret (a : BitVec 6) : RoundTrip.Statement (.ret a) := by
  intro hwf
  refine form29 0x24400000 0x24 (by decide) 0x2 (by decide) (by decide) a (rfl : encodeNat (.ret a) = _) ?_
  intro x hm hf a0 z0 z1 z2 u30
  rw [core24 hm, decodeMajor24, hf]
  exact checked_of (by rw [a0]) hwf (rfl) (bnot_true_of u30) (beq_of z0) (band_true_of (beq_of z1) (beq_of z2))
theorem RoundTrip.exit : RoundTrip.Statement (.exit) := by
  intro hwf
  refine form31 0x24600000 0x24 (by decide) 0x3 (by decide) (by decide) (rfl : encodeNat (.exit) = _) ?_
  intro x hm hf z0 u30
  rw [core24 hm, decodeMajor24, hf]
  exact checked_of (rfl) hwf (rfl) (bnot_true_of u30) (rfl) (beq_of z0)
theorem RoundTrip.spawn (c : Bool) (d : BitVec 7) (a : BitVec 6) (b : BitVec 7) : RoundTrip.Statement (.spawn c d a b) := by
  intro hwf
  refine form32 0x24800000 0x24 (by decide) 0x4 (by decide) (by decide) c d a b (rfl : encodeNat (.spawn c d a b) = _) rfl ?_
  intro x hm hf a0 a1 a2 a3 z0 u30
  rw [core24 hm, decodeMajor24, hf]
  exact checked_of (by rw [a0, a1, a2, a3]) hwf (rfl) (bnot_true_of u30) (beq_of z0) (rfl)
theorem RoundTrip.spawnf (c : Bool) (d : BitVec 7) (a : BitVec 6) (b : BitVec 7) : RoundTrip.Statement (.spawnf c d a b) := by
  intro hwf
  refine form32 0x24A00000 0x24 (by decide) 0x5 (by decide) (by decide) c d a b (rfl : encodeNat (.spawnf c d a b) = _) rfl ?_
  intro x hm hf a0 a1 a2 a3 z0 u30
  rw [core24 hm, decodeMajor24, hf]
  exact checked_of (by rw [a0, a1, a2, a3]) hwf (rfl) (bnot_true_of u30) (beq_of z0) (rfl)
theorem RoundTrip.trap (c : Bool) (b : BitVec 7) : RoundTrip.Statement (.trap c b) := by
  intro hwf
  refine form33 0x24C00000 0x24 (by decide) 0x6 (by decide) (by decide) c b (rfl : encodeNat (.trap c b) = _) rfl ?_
  intro x hm hf a0 a1 z0 u30
  rw [core24 hm, decodeMajor24, hf]
  exact checked_of (by rw [a0, a1]) hwf (rfl) (bnot_true_of u30) (rfl) (beq_of z0)
theorem RoundTrip.bkpt (c : Bool) : RoundTrip.Statement (.bkpt c) := by
  intro hwf
  refine form34 0x24E00000 0x24 (by decide) 0x7 (by decide) (by decide) c (rfl : encodeNat (.bkpt c) = _) rfl ?_
  intro x hm hf a0 z0 u30
  rw [core24 hm, decodeMajor24, hf]
  exact checked_of (by rw [a0]) hwf (rfl) (bnot_true_of u30) (rfl) (beq_of z0)
theorem RoundTrip.nop (c : Bool) : RoundTrip.Statement (.nop c) := by
  intro hwf
  refine form34 0x25000000 0x25 (by decide) 0x0 (by decide) (by decide) c (rfl : encodeNat (.nop c) = _) rfl ?_
  intro x hm hf a0 z0 u30
  rw [core25 hm, decodeMajor25, hf]
  exact checked_of (by rw [a0]) hwf (rfl) (bnot_true_of u30) (rfl) (beq_of z0)
theorem RoundTrip.pause (c : Bool) (a : BitVec 7) : RoundTrip.Statement (.pause c a) := by
  intro hwf
  refine form35 0x25200000 0x25 (by decide) 0x1 (by decide) (by decide) c a (rfl : encodeNat (.pause c a) = _) rfl ?_
  intro x hm hf a0 a1 z0 z1 u30
  rw [core25 hm, decodeMajor25, hf]
  exact checked_of (by rw [a0, a1]) hwf (rfl) (bnot_true_of u30) (rfl) (band_true_of (beq_of z0) (beq_of z1))
theorem RoundTrip.yield (c : Bool) : RoundTrip.Statement (.yield c) := by
  intro hwf
  refine form34 0x25400000 0x25 (by decide) 0x2 (by decide) (by decide) c (rfl : encodeNat (.yield c) = _) rfl ?_
  intro x hm hf a0 z0 u30
  rw [core25 hm, decodeMajor25, hf]
  exact checked_of (by rw [a0]) hwf (rfl) (bnot_true_of u30) (rfl) (beq_of z0)
theorem RoundTrip.ffence (c : Bool) : RoundTrip.Statement (.ffence c) := by
  intro hwf
  refine form34 0x25600000 0x25 (by decide) 0x3 (by decide) (by decide) c (rfl : encodeNat (.ffence c) = _) rfl ?_
  intro x hm hf a0 z0 u30
  rw [core25 hm, decodeMajor25, hf]
  exact checked_of (by rw [a0]) hwf (rfl) (bnot_true_of u30) (rfl) (beq_of z0)
theorem RoundTrip.clkrd (c : Bool) (d : BitVec 6) : RoundTrip.Statement (.clkrd c d) := by
  intro hwf
  refine form36 0x25800000 0x25 (by decide) 0x4 (by decide) (by decide) c d (rfl : encodeNat (.clkrd c d) = _) rfl ?_
  intro x hm hf a0 a1 z0 z1 u30
  rw [core25 hm, decodeMajor25, hf]
  exact checked_of (by rw [a0, a1]) hwf (rfl) (bnot_true_of u30) (beq_of z0) (beq_of z1)
theorem RoundTrip.renew (c : Bool) (a : BitVec 6) : RoundTrip.Statement (.renew c a) := by
  intro hwf
  refine form37 0x25A00000 0x25 (by decide) 0x5 (by decide) (by decide) c a (rfl : encodeNat (.renew c a) = _) rfl ?_
  intro x hm hf a0 a1 z0 z1 z2 u30
  rw [core25 hm, decodeMajor25, hf]
  exact checked_of (by rw [a0, a1]) hwf (rfl) (bnot_true_of u30) (beq_of z0) (band_true_of (beq_of z1) (beq_of z2))
theorem RoundTrip.resume (c : Bool) : RoundTrip.Statement (.resume c) := by
  intro hwf
  refine form34 0x25C00000 0x25 (by decide) 0x6 (by decide) (by decide) c (rfl : encodeNat (.resume c) = _) rfl ?_
  intro x hm hf a0 z0 u30
  rw [core25 hm, decodeMajor25, hf]
  exact checked_of (by rw [a0]) hwf (rfl) (bnot_true_of u30) (rfl) (beq_of z0)
theorem RoundTrip.shflIdx (c : Bool) (d : BitVec 7) (a : BitVec 7) (m : BitVec 4) : RoundTrip.Statement (.shflIdx c d a m) := by
  intro hwf
  refine form38 0x26000000 0x26 (by decide) 0x0 (by decide) (by decide) c d a m (rfl : encodeNat (.shflIdx c d a m) = _) rfl ?_
  intro x hm hf a0 a1 a2 a3 z0 u30
  rw [core26 hm, decodeMajor26, hf]
  exact checked_of (by rw [a0, a1, a2, a3]) hwf (rfl) (bnot_true_of u30) (rfl) (beq_of z0)
theorem RoundTrip.shflXor (c : Bool) (d : BitVec 7) (a : BitVec 7) (m : BitVec 4) : RoundTrip.Statement (.shflXor c d a m) := by
  intro hwf
  refine form38 0x26200000 0x26 (by decide) 0x1 (by decide) (by decide) c d a m (rfl : encodeNat (.shflXor c d a m) = _) rfl ?_
  intro x hm hf a0 a1 a2 a3 z0 u30
  rw [core26 hm, decodeMajor26, hf]
  exact checked_of (by rw [a0, a1, a2, a3]) hwf (rfl) (bnot_true_of u30) (rfl) (beq_of z0)
theorem RoundTrip.shflUp (c : Bool) (d : BitVec 7) (a : BitVec 7) (m : BitVec 4) : RoundTrip.Statement (.shflUp c d a m) := by
  intro hwf
  refine form38 0x26400000 0x26 (by decide) 0x2 (by decide) (by decide) c d a m (rfl : encodeNat (.shflUp c d a m) = _) rfl ?_
  intro x hm hf a0 a1 a2 a3 z0 u30
  rw [core26 hm, decodeMajor26, hf]
  exact checked_of (by rw [a0, a1, a2, a3]) hwf (rfl) (bnot_true_of u30) (rfl) (beq_of z0)
theorem RoundTrip.shflDn (c : Bool) (d : BitVec 7) (a : BitVec 7) (m : BitVec 4) : RoundTrip.Statement (.shflDn c d a m) := by
  intro hwf
  refine form38 0x26600000 0x26 (by decide) 0x3 (by decide) (by decide) c d a m (rfl : encodeNat (.shflDn c d a m) = _) rfl ?_
  intro x hm hf a0 a1 a2 a3 z0 u30
  rw [core26 hm, decodeMajor26, hf]
  exact checked_of (by rw [a0, a1, a2, a3]) hwf (rfl) (bnot_true_of u30) (rfl) (beq_of z0)
theorem RoundTrip.voteAll (c : Bool) (d : BitVec 3) (n : BitVec 1) (a : BitVec 3) (m : BitVec 4) : RoundTrip.Statement (.voteAll c d n a m) := by
  intro hwf
  refine form39 0x26800000 0x26 (by decide) 0x4 (by decide) (by decide) c d n a m (rfl : encodeNat (.voteAll c d n a m) = _) rfl ?_
  intro x hm hf a0 a1 a2 a3 a4 z0 z1 z2 u30
  rw [core26 hm, decodeMajor26, hf]
  exact checked_of (by rw [a0, a1, a2, a3, a4]) hwf (rfl) (bnot_true_of u30) (rfl) (band_true_of (band_true_of (beq_of z0) (beq_of z1)) (beq_of z2))
theorem RoundTrip.voteAny (c : Bool) (d : BitVec 3) (n : BitVec 1) (a : BitVec 3) (m : BitVec 4) : RoundTrip.Statement (.voteAny c d n a m) := by
  intro hwf
  refine form39 0x26A00000 0x26 (by decide) 0x5 (by decide) (by decide) c d n a m (rfl : encodeNat (.voteAny c d n a m) = _) rfl ?_
  intro x hm hf a0 a1 a2 a3 a4 z0 z1 z2 u30
  rw [core26 hm, decodeMajor26, hf]
  exact checked_of (by rw [a0, a1, a2, a3, a4]) hwf (rfl) (bnot_true_of u30) (rfl) (band_true_of (band_true_of (beq_of z0) (beq_of z1)) (beq_of z2))
theorem RoundTrip.ballot (c : Bool) (d : BitVec 7) (n : BitVec 1) (a : BitVec 3) (m : BitVec 4) : RoundTrip.Statement (.ballot c d n a m) := by
  intro hwf
  refine form40 0x26C00000 0x26 (by decide) 0x6 (by decide) (by decide) c d n a m (rfl : encodeNat (.ballot c d n a m) = _) rfl ?_
  intro x hm hf a0 a1 a2 a3 a4 z0 z1 u30
  rw [core26 hm, decodeMajor26, hf]
  exact checked_of (by rw [a0, a1, a2, a3, a4]) hwf (rfl) (bnot_true_of u30) (rfl) (band_true_of (beq_of z0) (beq_of z1))
theorem RoundTrip.matchLanes (c : Bool) (d : BitVec 7) (a : BitVec 7) (m : BitVec 4) : RoundTrip.Statement (.matchLanes c d a m) := by
  intro hwf
  refine form38 0x26E00000 0x26 (by decide) 0x7 (by decide) (by decide) c d a m (rfl : encodeNat (.matchLanes c d a m) = _) rfl ?_
  intro x hm hf a0 a1 a2 a3 z0 u30
  rw [core26 hm, decodeMajor26, hf]
  exact checked_of (by rw [a0, a1, a2, a3]) hwf (rfl) (bnot_true_of u30) (rfl) (beq_of z0)
theorem RoundTrip.radd (c : Bool) (d : BitVec 7) (a : BitVec 7) (m : BitVec 4) : RoundTrip.Statement (.radd c d a m) := by
  intro hwf
  refine form38 0x27000000 0x27 (by decide) 0x0 (by decide) (by decide) c d a m (rfl : encodeNat (.radd c d a m) = _) rfl ?_
  intro x hm hf a0 a1 a2 a3 z0 u30
  rw [core27 hm, decodeMajor27, hf]
  exact checked_of (by rw [a0, a1, a2, a3]) hwf (rfl) (bnot_true_of u30) (rfl) (beq_of z0)
theorem RoundTrip.rminS32 (c : Bool) (d : BitVec 7) (a : BitVec 7) (m : BitVec 4) : RoundTrip.Statement (.rminS32 c d a m) := by
  intro hwf
  refine form38 0x27200000 0x27 (by decide) 0x1 (by decide) (by decide) c d a m (rfl : encodeNat (.rminS32 c d a m) = _) rfl ?_
  intro x hm hf a0 a1 a2 a3 z0 u30
  rw [core27 hm, decodeMajor27, hf]
  exact checked_of (by rw [a0, a1, a2, a3]) hwf (rfl) (bnot_true_of u30) (rfl) (beq_of z0)
theorem RoundTrip.rmaxS32 (c : Bool) (d : BitVec 7) (a : BitVec 7) (m : BitVec 4) : RoundTrip.Statement (.rmaxS32 c d a m) := by
  intro hwf
  refine form38 0x27400000 0x27 (by decide) 0x2 (by decide) (by decide) c d a m (rfl : encodeNat (.rmaxS32 c d a m) = _) rfl ?_
  intro x hm hf a0 a1 a2 a3 z0 u30
  rw [core27 hm, decodeMajor27, hf]
  exact checked_of (by rw [a0, a1, a2, a3]) hwf (rfl) (bnot_true_of u30) (rfl) (beq_of z0)
theorem RoundTrip.rand (c : Bool) (d : BitVec 7) (a : BitVec 7) (m : BitVec 4) : RoundTrip.Statement (.rand c d a m) := by
  intro hwf
  refine form38 0x27600000 0x27 (by decide) 0x3 (by decide) (by decide) c d a m (rfl : encodeNat (.rand c d a m) = _) rfl ?_
  intro x hm hf a0 a1 a2 a3 z0 u30
  rw [core27 hm, decodeMajor27, hf]
  exact checked_of (by rw [a0, a1, a2, a3]) hwf (rfl) (bnot_true_of u30) (rfl) (beq_of z0)
theorem RoundTrip.ror (c : Bool) (d : BitVec 7) (a : BitVec 7) (m : BitVec 4) : RoundTrip.Statement (.ror c d a m) := by
  intro hwf
  refine form38 0x27800000 0x27 (by decide) 0x4 (by decide) (by decide) c d a m (rfl : encodeNat (.ror c d a m) = _) rfl ?_
  intro x hm hf a0 a1 a2 a3 z0 u30
  rw [core27 hm, decodeMajor27, hf]
  exact checked_of (by rw [a0, a1, a2, a3]) hwf (rfl) (bnot_true_of u30) (rfl) (beq_of z0)
theorem RoundTrip.rxor (c : Bool) (d : BitVec 7) (a : BitVec 7) (m : BitVec 4) : RoundTrip.Statement (.rxor c d a m) := by
  intro hwf
  refine form38 0x27A00000 0x27 (by decide) 0x5 (by decide) (by decide) c d a m (rfl : encodeNat (.rxor c d a m) = _) rfl ?_
  intro x hm hf a0 a1 a2 a3 z0 u30
  rw [core27 hm, decodeMajor27, hf]
  exact checked_of (by rw [a0, a1, a2, a3]) hwf (rfl) (bnot_true_of u30) (rfl) (beq_of z0)
theorem RoundTrip.rfadd (c : Bool) (d : BitVec 7) (a : BitVec 7) (m : BitVec 4) : RoundTrip.Statement (.rfadd c d a m) := by
  intro hwf
  refine form38 0x27C00000 0x27 (by decide) 0x6 (by decide) (by decide) c d a m (rfl : encodeNat (.rfadd c d a m) = _) rfl ?_
  intro x hm hf a0 a1 a2 a3 z0 u30
  rw [core27 hm, decodeMajor27, hf]
  exact checked_of (by rw [a0, a1, a2, a3]) hwf (rfl) (bnot_true_of u30) (rfl) (beq_of z0)
theorem RoundTrip.rminN32 (c : Bool) (d : BitVec 7) (a : BitVec 7) (m : BitVec 4) : RoundTrip.Statement (.rminN32 c d a m) := by
  intro hwf
  refine form38 0x27E00000 0x27 (by decide) 0x7 (by decide) (by decide) c d a m (rfl : encodeNat (.rminN32 c d a m) = _) rfl ?_
  intro x hm hf a0 a1 a2 a3 z0 u30
  rw [core27 hm, decodeMajor27, hf]
  exact checked_of (by rw [a0, a1, a2, a3]) hwf (rfl) (bnot_true_of u30) (rfl) (beq_of z0)
theorem RoundTrip.barSync (c : Bool) (n : BitVec 4) : RoundTrip.Statement (.barSync c n) := by
  intro hwf
  refine form41 0x29000000 0x29 (by decide) 0x0 (by decide) (by decide) c n (rfl : encodeNat (.barSync c n) = _) rfl ?_
  intro x hm hf a0 a1 z0 u30
  rw [core29 hm, decodeMajor29, hf]
  exact checked_of (by rw [a0, a1]) hwf (rfl) (bnot_true_of u30) (rfl) (beq_of z0)
theorem RoundTrip.barArv (c : Bool) (d : BitVec 7) (n : BitVec 4) : RoundTrip.Statement (.barArv c d n) := by
  intro hwf
  refine form42 0x29010000 0x29 (by decide) 0x1 (by decide) (by decide) c d n (rfl : encodeNat (.barArv c d n) = _) rfl ?_
  intro x hm hf a0 a1 a2 z0 u30
  rw [core29 hm, decodeMajor29, hf]
  exact checked_of (by rw [a0, a1, a2]) hwf (rfl) (bnot_true_of u30) (rfl) (beq_of z0)
theorem RoundTrip.barWait (c : Bool) (d : BitVec 7) (n : BitVec 4) : RoundTrip.Statement (.barWait c d n) := by
  intro hwf
  refine form42 0x29020000 0x29 (by decide) 0x2 (by decide) (by decide) c d n (rfl : encodeNat (.barWait c d n) = _) rfl ?_
  intro x hm hf a0 a1 a2 z0 u30
  rw [core29 hm, decodeMajor29, hf]
  exact checked_of (by rw [a0, a1, a2]) hwf (rfl) (bnot_true_of u30) (rfl) (beq_of z0)
theorem RoundTrip.barClu (c : Bool) : RoundTrip.Statement (.barClu c) := by
  intro hwf
  refine form43 0x29030000 0x29 (by decide) 0x3 (by decide) (by decide) c (rfl : encodeNat (.barClu c) = _) rfl ?_
  intro x hm hf a0 z0 u30
  rw [core29 hm, decodeMajor29, hf]
  exact checked_of (by rw [a0]) hwf (rfl) (bnot_true_of u30) (rfl) (beq_of z0)
theorem RoundTrip.barGrid (c : Bool) : RoundTrip.Statement (.barGrid c) := by
  intro hwf
  refine form43 0x29040000 0x29 (by decide) 0x4 (by decide) (by decide) c (rfl : encodeNat (.barGrid c) = _) rfl ?_
  intro x hm hf a0 z0 u30
  rw [core29 hm, decodeMajor29, hf]
  exact checked_of (by rw [a0]) hwf (rfl) (bnot_true_of u30) (rfl) (beq_of z0)
theorem RoundTrip.gsync (c : Bool) (m : BitVec 4) : RoundTrip.Statement (.gsync c m) := by
  intro hwf
  refine form41 0x29050000 0x29 (by decide) 0x5 (by decide) (by decide) c m (rfl : encodeNat (.gsync c m) = _) rfl ?_
  intro x hm hf a0 a1 z0 u30
  rw [core29 hm, decodeMajor29, hf]
  exact checked_of (by rw [a0, a1]) hwf (rfl) (bnot_true_of u30) (rfl) (beq_of z0)
theorem RoundTrip.barTest (c : Bool) (d : BitVec 7) (n : BitVec 4) : RoundTrip.Statement (.barTest c d n) := by
  intro hwf
  refine form42 0x29060000 0x29 (by decide) 0x6 (by decide) (by decide) c d n (rfl : encodeNat (.barTest c d n) = _) rfl ?_
  intro x hm hf a0 a1 a2 z0 u30
  rw [core29 hm, decodeMajor29, hf]
  exact checked_of (by rw [a0, a1, a2]) hwf (rfl) (bnot_true_of u30) (rfl) (beq_of z0)
theorem RoundTrip.barSet (c : Bool) (d : BitVec 7) (n : BitVec 4) : RoundTrip.Statement (.barSet c d n) := by
  intro hwf
  refine form42 0x29070000 0x29 (by decide) 0x7 (by decide) (by decide) c d n (rfl : encodeNat (.barSet c d n) = _) rfl ?_
  intro x hm hf a0 a1 a2 z0 u30
  rw [core29 hm, decodeMajor29, hf]
  exact checked_of (by rw [a0, a1, a2]) hwf (rfl) (bnot_true_of u30) (rfl) (beq_of z0)
theorem RoundTrip.waitNe (c : Bool) (d : BitVec 7) (a : BitVec 6) (b : BitVec 7) : RoundTrip.Statement (.waitNe c d a b) := by
  intro hwf
  refine form32 0x2A000000 0x2A (by decide) 0x0 (by decide) (by decide) c d a b (rfl : encodeNat (.waitNe c d a b) = _) rfl ?_
  intro x hm hf a0 a1 a2 a3 z0 u30
  rw [core2A hm, decodeMajor2A, hf]
  exact checked_of (by rw [a0, a1, a2, a3]) hwf (rfl) (bnot_true_of u30) (beq_of z0) (rfl)
theorem RoundTrip.waitEq (c : Bool) (d : BitVec 7) (a : BitVec 6) (b : BitVec 7) : RoundTrip.Statement (.waitEq c d a b) := by
  intro hwf
  refine form32 0x2A200000 0x2A (by decide) 0x1 (by decide) (by decide) c d a b (rfl : encodeNat (.waitEq c d a b) = _) rfl ?_
  intro x hm hf a0 a1 a2 a3 z0 u30
  rw [core2A hm, decodeMajor2A, hf]
  exact checked_of (by rw [a0, a1, a2, a3]) hwf (rfl) (bnot_true_of u30) (beq_of z0) (rfl)
theorem RoundTrip.waitGe (c : Bool) (d : BitVec 7) (a : BitVec 6) (b : BitVec 7) : RoundTrip.Statement (.waitGe c d a b) := by
  intro hwf
  refine form32 0x2A400000 0x2A (by decide) 0x2 (by decide) (by decide) c d a b (rfl : encodeNat (.waitGe c d a b) = _) rfl ?_
  intro x hm hf a0 a1 a2 a3 z0 u30
  rw [core2A hm, decodeMajor2A, hf]
  exact checked_of (by rw [a0, a1, a2, a3]) hwf (rfl) (bnot_true_of u30) (beq_of z0) (rfl)
theorem RoundTrip.watch (c : Bool) (d : BitVec 7) (a : BitVec 6) : RoundTrip.Statement (.watch c d a) := by
  intro hwf
  refine form44 0x2A600000 0x2A (by decide) 0x3 (by decide) (by decide) c d a (rfl : encodeNat (.watch c d a) = _) rfl ?_
  intro x hm hf a0 a1 a2 z0 z1 u30
  rw [core2A hm, decodeMajor2A, hf]
  exact checked_of (by rw [a0, a1, a2]) hwf (rfl) (bnot_true_of u30) (beq_of z0) (beq_of z1)
theorem RoundTrip.unwatch (c : Bool) (d : BitVec 7) : RoundTrip.Statement (.unwatch c d) := by
  intro hwf
  refine form45 0x2A800000 0x2A (by decide) 0x4 (by decide) (by decide) c d (rfl : encodeNat (.unwatch c d) = _) rfl ?_
  intro x hm hf a0 a1 z0 u30
  rw [core2A hm, decodeMajor2A, hf]
  exact checked_of (by rw [a0, a1]) hwf (rfl) (bnot_true_of u30) (rfl) (beq_of z0)
theorem RoundTrip.wake (c : Bool) (a : BitVec 6) : RoundTrip.Statement (.wake c a) := by
  intro hwf
  refine form37 0x2AA00000 0x2A (by decide) 0x5 (by decide) (by decide) c a (rfl : encodeNat (.wake c a) = _) rfl ?_
  intro x hm hf a0 a1 z0 z1 z2 u30
  rw [core2A hm, decodeMajor2A, hf]
  exact checked_of (by rw [a0, a1]) hwf (rfl) (bnot_true_of u30) (beq_of z0) (band_true_of (beq_of z1) (beq_of z2))
theorem RoundTrip.ld (c : Bool) (u : Bool) (t : BitVec 2) (z : BitVec 3) (d : BitVec 7) (b : BitVec 6) (o : BitVec 5) : RoundTrip.Statement (.ld c u t z d b o) := by
  intro hwf
  refine form46 0x2C000000 0x2C (by decide) (by decide) c u t z d b o (rfl : encodeNat (.ld c u t z d b o) = _) rfl ?_
  intro x hm a0 a1 a2 a3 a4 a5 a6 z0
  rw [core2C hm, decodeMajor2C]
  exact checked_of (by rw [a0, a1, a2, a3, a4, a5, a6]) hwf (rfl) (rfl) (beq_of z0) (rfl)
theorem RoundTrip.st (c : Bool) (u : Bool) (t : BitVec 2) (z : BitVec 3) (d : BitVec 7) (b : BitVec 6) (o : BitVec 5) : RoundTrip.Statement (.st c u t z d b o) := by
  intro hwf
  refine form46 0x2D000000 0x2D (by decide) (by decide) c u t z d b o (rfl : encodeNat (.st c u t z d b o) = _) rfl ?_
  intro x hm a0 a1 a2 a3 a4 a5 a6 z0
  rw [core2D hm, decodeMajor2D]
  exact checked_of (by rw [a0, a1, a2, a3, a4, a5, a6]) hwf (rfl) (rfl) (beq_of z0) (rfl)
theorem RoundTrip.lds (c : Bool) (u : Bool) (t : BitVec 2) (z : BitVec 3) (d : BitVec 7) (b : BitVec 7) (o : BitVec 5) : RoundTrip.Statement (.lds c u t z d b o) := by
  intro hwf
  refine form47 0x2E000000 0x2E (by decide) (by decide) c u t z d b o (rfl : encodeNat (.lds c u t z d b o) = _) rfl ?_
  intro x hm a0 a1 a2 a3 a4 a5 a6
  rw [core2E hm, decodeMajor2E]
  exact checked_of (by rw [a0, a1, a2, a3, a4, a5, a6]) hwf (rfl) (rfl) (rfl) (rfl)
theorem RoundTrip.sts (c : Bool) (u : Bool) (t : BitVec 2) (z : BitVec 3) (d : BitVec 7) (b : BitVec 7) (o : BitVec 5) : RoundTrip.Statement (.sts c u t z d b o) := by
  intro hwf
  refine form47 0x2F000000 0x2F (by decide) (by decide) c u t z d b o (rfl : encodeNat (.sts c u t z d b o) = _) rfl ?_
  intro x hm a0 a1 a2 a3 a4 a5 a6
  rw [core2F hm, decodeMajor2F]
  exact checked_of (by rw [a0, a1, a2, a3, a4, a5, a6]) hwf (rfl) (rfl) (rfl) (rfl)
theorem RoundTrip.ldf (c : Bool) (u : Bool) (t : BitVec 2) (f : BitVec 3) (d : BitVec 7) (b : BitVec 6) (o : BitVec 5) : RoundTrip.Statement (.ldf c u t f d b o) := by
  intro hwf
  refine form46 0x30000000 0x30 (by decide) (by decide) c u t f d b o (rfl : encodeNat (.ldf c u t f d b o) = _) rfl ?_
  intro x hm a0 a1 a2 a3 a4 a5 a6 z0
  rw [core30 hm, decodeMajor30]
  exact checked_of (by rw [a0, a1, a2, a3, a4, a5, a6]) hwf (rfl) (rfl) (beq_of z0) (rfl)
theorem RoundTrip.atomAdd (c : Bool) (u : Bool) (w : BitVec 1) (r : BitVec 2) (sc : BitVec 3) (d : BitVec 5) (a : BitVec 4) (b : BitVec 5) : RoundTrip.Statement (.atomAdd c u w r sc d a b) := by
  intro hwf
  refine form48 0x31000000 0x31 (by decide) 0x0 (by decide) (by decide) c u w r sc d a b (rfl : encodeNat (.atomAdd c u w r sc d a b) = _) rfl ?_
  intro x hm hf a0 a1 a2 a3 a4 a5 a6 a7 z0
  rw [core31 hm, decodeMajor31, hf]
  exact checked_of (by rw [a0, a1, a2, a3, a4, a5, a6, a7]) hwf (rfl) (rfl) (beq_of z0) (rfl)
theorem RoundTrip.atomMinS32 (c : Bool) (u : Bool) (w : BitVec 1) (r : BitVec 2) (sc : BitVec 3) (d : BitVec 5) (a : BitVec 4) (b : BitVec 5) : RoundTrip.Statement (.atomMinS32 c u w r sc d a b) := by
  intro hwf
  refine form48 0x31200000 0x31 (by decide) 0x1 (by decide) (by decide) c u w r sc d a b (rfl : encodeNat (.atomMinS32 c u w r sc d a b) = _) rfl ?_
  intro x hm hf a0 a1 a2 a3 a4 a5 a6 a7 z0
  rw [core31 hm, decodeMajor31, hf]
  exact checked_of (by rw [a0, a1, a2, a3, a4, a5, a6, a7]) hwf (rfl) (rfl) (beq_of z0) (rfl)
theorem RoundTrip.atomMaxS32 (c : Bool) (u : Bool) (w : BitVec 1) (r : BitVec 2) (sc : BitVec 3) (d : BitVec 5) (a : BitVec 4) (b : BitVec 5) : RoundTrip.Statement (.atomMaxS32 c u w r sc d a b) := by
  intro hwf
  refine form48 0x31400000 0x31 (by decide) 0x2 (by decide) (by decide) c u w r sc d a b (rfl : encodeNat (.atomMaxS32 c u w r sc d a b) = _) rfl ?_
  intro x hm hf a0 a1 a2 a3 a4 a5 a6 a7 z0
  rw [core31 hm, decodeMajor31, hf]
  exact checked_of (by rw [a0, a1, a2, a3, a4, a5, a6, a7]) hwf (rfl) (rfl) (beq_of z0) (rfl)
theorem RoundTrip.atomMinN32 (c : Bool) (u : Bool) (w : BitVec 1) (r : BitVec 2) (sc : BitVec 3) (d : BitVec 5) (a : BitVec 4) (b : BitVec 5) : RoundTrip.Statement (.atomMinN32 c u w r sc d a b) := by
  intro hwf
  refine form48 0x31600000 0x31 (by decide) 0x3 (by decide) (by decide) c u w r sc d a b (rfl : encodeNat (.atomMinN32 c u w r sc d a b) = _) rfl ?_
  intro x hm hf a0 a1 a2 a3 a4 a5 a6 a7 z0
  rw [core31 hm, decodeMajor31, hf]
  exact checked_of (by rw [a0, a1, a2, a3, a4, a5, a6, a7]) hwf (rfl) (rfl) (beq_of z0) (rfl)
theorem RoundTrip.atomMaxN32 (c : Bool) (u : Bool) (w : BitVec 1) (r : BitVec 2) (sc : BitVec 3) (d : BitVec 5) (a : BitVec 4) (b : BitVec 5) : RoundTrip.Statement (.atomMaxN32 c u w r sc d a b) := by
  intro hwf
  refine form48 0x31800000 0x31 (by decide) 0x4 (by decide) (by decide) c u w r sc d a b (rfl : encodeNat (.atomMaxN32 c u w r sc d a b) = _) rfl ?_
  intro x hm hf a0 a1 a2 a3 a4 a5 a6 a7 z0
  rw [core31 hm, decodeMajor31, hf]
  exact checked_of (by rw [a0, a1, a2, a3, a4, a5, a6, a7]) hwf (rfl) (rfl) (beq_of z0) (rfl)
theorem RoundTrip.atomAnd (c : Bool) (u : Bool) (w : BitVec 1) (r : BitVec 2) (sc : BitVec 3) (d : BitVec 5) (a : BitVec 4) (b : BitVec 5) : RoundTrip.Statement (.atomAnd c u w r sc d a b) := by
  intro hwf
  refine form48 0x31A00000 0x31 (by decide) 0x5 (by decide) (by decide) c u w r sc d a b (rfl : encodeNat (.atomAnd c u w r sc d a b) = _) rfl ?_
  intro x hm hf a0 a1 a2 a3 a4 a5 a6 a7 z0
  rw [core31 hm, decodeMajor31, hf]
  exact checked_of (by rw [a0, a1, a2, a3, a4, a5, a6, a7]) hwf (rfl) (rfl) (beq_of z0) (rfl)
theorem RoundTrip.atomOr (c : Bool) (u : Bool) (w : BitVec 1) (r : BitVec 2) (sc : BitVec 3) (d : BitVec 5) (a : BitVec 4) (b : BitVec 5) : RoundTrip.Statement (.atomOr c u w r sc d a b) := by
  intro hwf
  refine form48 0x31C00000 0x31 (by decide) 0x6 (by decide) (by decide) c u w r sc d a b (rfl : encodeNat (.atomOr c u w r sc d a b) = _) rfl ?_
  intro x hm hf a0 a1 a2 a3 a4 a5 a6 a7 z0
  rw [core31 hm, decodeMajor31, hf]
  exact checked_of (by rw [a0, a1, a2, a3, a4, a5, a6, a7]) hwf (rfl) (rfl) (beq_of z0) (rfl)
theorem RoundTrip.atomXor (c : Bool) (u : Bool) (w : BitVec 1) (r : BitVec 2) (sc : BitVec 3) (d : BitVec 5) (a : BitVec 4) (b : BitVec 5) : RoundTrip.Statement (.atomXor c u w r sc d a b) := by
  intro hwf
  refine form48 0x31E00000 0x31 (by decide) 0x7 (by decide) (by decide) c u w r sc d a b (rfl : encodeNat (.atomXor c u w r sc d a b) = _) rfl ?_
  intro x hm hf a0 a1 a2 a3 a4 a5 a6 a7 z0
  rw [core31 hm, decodeMajor31, hf]
  exact checked_of (by rw [a0, a1, a2, a3, a4, a5, a6, a7]) hwf (rfl) (rfl) (beq_of z0) (rfl)
theorem RoundTrip.atomxXchg (c : Bool) (u : Bool) (w : BitVec 1) (r : BitVec 2) (sc : BitVec 3) (d : BitVec 5) (a : BitVec 4) (b : BitVec 5) : RoundTrip.Statement (.atomxXchg c u w r sc d a b) := by
  intro hwf
  refine form48 0x32000000 0x32 (by decide) 0x0 (by decide) (by decide) c u w r sc d a b (rfl : encodeNat (.atomxXchg c u w r sc d a b) = _) rfl ?_
  intro x hm hf a0 a1 a2 a3 a4 a5 a6 a7 z0
  rw [core32 hm, decodeMajor32, hf]
  exact checked_of (by rw [a0, a1, a2, a3, a4, a5, a6, a7]) hwf (rfl) (rfl) (beq_of z0) (rfl)
theorem RoundTrip.atomxCas (c : Bool) (u : Bool) (w : BitVec 1) (r : BitVec 2) (sc : BitVec 3) (d : BitVec 5) (a : BitVec 4) (b : BitVec 5) : RoundTrip.Statement (.atomxCas c u w r sc d a b) := by
  intro hwf
  refine form48 0x32200000 0x32 (by decide) 0x1 (by decide) (by decide) c u w r sc d a b (rfl : encodeNat (.atomxCas c u w r sc d a b) = _) rfl ?_
  intro x hm hf a0 a1 a2 a3 a4 a5 a6 a7 z0
  rw [core32 hm, decodeMajor32, hf]
  exact checked_of (by rw [a0, a1, a2, a3, a4, a5, a6, a7]) hwf (rfl) (rfl) (beq_of z0) (rfl)
theorem RoundTrip.atomxIncw (c : Bool) (u : Bool) (w : BitVec 1) (r : BitVec 2) (sc : BitVec 3) (d : BitVec 5) (a : BitVec 4) (b : BitVec 5) : RoundTrip.Statement (.atomxIncw c u w r sc d a b) := by
  intro hwf
  refine form48 0x32400000 0x32 (by decide) 0x2 (by decide) (by decide) c u w r sc d a b (rfl : encodeNat (.atomxIncw c u w r sc d a b) = _) rfl ?_
  intro x hm hf a0 a1 a2 a3 a4 a5 a6 a7 z0
  rw [core32 hm, decodeMajor32, hf]
  exact checked_of (by rw [a0, a1, a2, a3, a4, a5, a6, a7]) hwf (rfl) (rfl) (beq_of z0) (rfl)
theorem RoundTrip.atomxDecw (c : Bool) (u : Bool) (w : BitVec 1) (r : BitVec 2) (sc : BitVec 3) (d : BitVec 5) (a : BitVec 4) (b : BitVec 5) : RoundTrip.Statement (.atomxDecw c u w r sc d a b) := by
  intro hwf
  refine form48 0x32600000 0x32 (by decide) 0x3 (by decide) (by decide) c u w r sc d a b (rfl : encodeNat (.atomxDecw c u w r sc d a b) = _) rfl ?_
  intro x hm hf a0 a1 a2 a3 a4 a5 a6 a7 z0
  rw [core32 hm, decodeMajor32, hf]
  exact checked_of (by rw [a0, a1, a2, a3, a4, a5, a6, a7]) hwf (rfl) (rfl) (beq_of z0) (rfl)
theorem RoundTrip.atomxFaddF32 (c : Bool) (u : Bool) (r : BitVec 2) (sc : BitVec 3) (d : BitVec 5) (a : BitVec 4) (b : BitVec 5) : RoundTrip.Statement (.atomxFaddF32 c u r sc d a b) := by
  intro hwf
  refine form49 0x32800000 0x32 (by decide) 0x4 (by decide) (by decide) c u r sc d a b (rfl : encodeNat (.atomxFaddF32 c u r sc d a b) = _) rfl ?_
  intro x hm hf a0 a1 a2 a3 a4 a5 a6 z0 z1
  rw [core32 hm, decodeMajor32, hf]
  exact checked_of (by rw [a0, a1, a2, a3, a4, a5, a6]) hwf (beq_of z0) (rfl) (beq_of z1) (rfl)
theorem RoundTrip.atomxFminF32 (c : Bool) (u : Bool) (r : BitVec 2) (sc : BitVec 3) (d : BitVec 5) (a : BitVec 4) (b : BitVec 5) : RoundTrip.Statement (.atomxFminF32 c u r sc d a b) := by
  intro hwf
  refine form49 0x32A00000 0x32 (by decide) 0x5 (by decide) (by decide) c u r sc d a b (rfl : encodeNat (.atomxFminF32 c u r sc d a b) = _) rfl ?_
  intro x hm hf a0 a1 a2 a3 a4 a5 a6 z0 z1
  rw [core32 hm, decodeMajor32, hf]
  exact checked_of (by rw [a0, a1, a2, a3, a4, a5, a6]) hwf (beq_of z0) (rfl) (beq_of z1) (rfl)
theorem RoundTrip.atomxFmaxF32 (c : Bool) (u : Bool) (r : BitVec 2) (sc : BitVec 3) (d : BitVec 5) (a : BitVec 4) (b : BitVec 5) : RoundTrip.Statement (.atomxFmaxF32 c u r sc d a b) := by
  intro hwf
  refine form49 0x32C00000 0x32 (by decide) 0x6 (by decide) (by decide) c u r sc d a b (rfl : encodeNat (.atomxFmaxF32 c u r sc d a b) = _) rfl ?_
  intro x hm hf a0 a1 a2 a3 a4 a5 a6 z0 z1
  rw [core32 hm, decodeMajor32, hf]
  exact checked_of (by rw [a0, a1, a2, a3, a4, a5, a6]) hwf (beq_of z0) (rfl) (beq_of z1) (rfl)
theorem RoundTrip.lda (c : Bool) (u : Bool) (w : BitVec 1) (sc : BitVec 3) (d : BitVec 5) (a : BitVec 4) : RoundTrip.Statement (.lda c u w sc d a) := by
  intro hwf
  refine form50 0x33040000 0x33 (by decide) 0x0 (by decide) (by decide) c u w sc d a (rfl : encodeNat (.lda c u w sc d a) = _) rfl ?_
  intro x hm hf a0 a1 a2 a3 a4 a5 z0 z1 z2
  rw [core33 hm, decodeMajor33, hf]
  exact checked_of (by rw [a0, a1, a2, a3, a4, a5]) hwf (beq_of z0) (rfl) (beq_of z1) (beq_of z2)
theorem RoundTrip.stl (c : Bool) (u : Bool) (w : BitVec 1) (sc : BitVec 3) (a : BitVec 4) (b : BitVec 5) : RoundTrip.Statement (.stl c u w sc a b) := by
  intro hwf
  refine form51 0x33280000 0x33 (by decide) 0x1 (by decide) (by decide) c u w sc a b (rfl : encodeNat (.stl c u w sc a b) = _) rfl ?_
  intro x hm hf a0 a1 a2 a3 a4 a5 z0 z1 z2
  rw [core33 hm, decodeMajor33, hf]
  exact checked_of (by rw [a0, a1, a2, a3, a4, a5]) hwf (beq_of z0) (rfl) (beq_of z1) (beq_of z2)
theorem RoundTrip.fence (c : Bool) (u : Bool) (r : BitVec 2) (sc : BitVec 3) : RoundTrip.Statement (.fence c u r sc) := by
  intro hwf
  refine form52 0x33400000 0x33 (by decide) 0x2 (by decide) (by decide) c u r sc (rfl : encodeNat (.fence c u r sc) = _) rfl ?_
  intro x hm hf a0 a1 a2 a3 z0 z1
  rw [core33 hm, decodeMajor33, hf]
  exact checked_of (by rw [a0, a1, a2, a3]) hwf (rfl) (rfl) (rfl) (band_true_of (beq_of z0) (beq_of z1))
theorem RoundTrip.fenceSc (c : Bool) (u : Bool) (sc : BitVec 3) : RoundTrip.Statement (.fenceSc c u sc) := by
  intro hwf
  refine form53 0x336C0000 0x33 (by decide) 0x3 (by decide) (by decide) c u sc (rfl : encodeNat (.fenceSc c u sc) = _) rfl ?_
  intro x hm hf a0 a1 a2 z0 z1 z2
  rw [core33 hm, decodeMajor33, hf]
  exact checked_of (by rw [a0, a1, a2]) hwf (beq_of z0) (rfl) (rfl) (band_true_of (beq_of z1) (beq_of z2))
theorem RoundTrip.ldap (c : Bool) (u : Bool) (w : BitVec 1) (sc : BitVec 3) (d : BitVec 5) (a : BitVec 4) : RoundTrip.Statement (.ldap c u w sc d a) := by
  intro hwf
  refine form50 0x33840000 0x33 (by decide) 0x4 (by decide) (by decide) c u w sc d a (rfl : encodeNat (.ldap c u w sc d a) = _) rfl ?_
  intro x hm hf a0 a1 a2 a3 a4 a5 z0 z1 z2
  rw [core33 hm, decodeMajor33, hf]
  exact checked_of (by rw [a0, a1, a2, a3, a4, a5]) hwf (beq_of z0) (rfl) (beq_of z1) (beq_of z2)
theorem RoundTrip.atomp (c : Bool) (u : Bool) (w : BitVec 1) (r : BitVec 2) (sc : BitVec 3) (d : BitVec 5) (a : BitVec 4) (b : BitVec 5) : RoundTrip.Statement (.atomp c u w r sc d a b) := by
  intro hwf
  refine form48 0x33A00000 0x33 (by decide) 0x5 (by decide) (by decide) c u w r sc d a b (rfl : encodeNat (.atomp c u w r sc d a b) = _) rfl ?_
  intro x hm hf a0 a1 a2 a3 a4 a5 a6 a7 z0
  rw [core33 hm, decodeMajor33, hf]
  exact checked_of (by rw [a0, a1, a2, a3, a4, a5, a6, a7]) hwf (rfl) (rfl) (beq_of z0) (rfl)
theorem RoundTrip.pref (c : Bool) (u : Bool) (a : BitVec 6) (h : BitVec 2) : RoundTrip.Statement (.pref c u a h) := by
  intro hwf
  refine form54 0x34000000 0x34 (by decide) 0x0 (by decide) (by decide) c u a h (rfl : encodeNat (.pref c u a h) = _) rfl ?_
  intro x hm hf a0 a1 a2 a3 z0 z1 z2
  rw [core34 hm, decodeMajor34, hf]
  exact checked_of (by rw [a0, a1, a2, a3]) hwf (rfl) (rfl) (beq_of z0) (band_true_of (beq_of z1) (beq_of z2))
theorem RoundTrip.flush (c : Bool) (u : Bool) (a : BitVec 6) : RoundTrip.Statement (.flush c u a) := by
  intro hwf
  refine form55 0x34200000 0x34 (by decide) 0x1 (by decide) (by decide) c u a (rfl : encodeNat (.flush c u a) = _) rfl ?_
  intro x hm hf a0 a1 a2 z0 z1 z2
  rw [core34 hm, decodeMajor34, hf]
  exact checked_of (by rw [a0, a1, a2]) hwf (rfl) (rfl) (beq_of z0) (band_true_of (beq_of z1) (beq_of z2))
theorem RoundTrip.inval (c : Bool) (u : Bool) (a : BitVec 6) : RoundTrip.Statement (.inval c u a) := by
  intro hwf
  refine form55 0x34400000 0x34 (by decide) 0x2 (by decide) (by decide) c u a (rfl : encodeNat (.inval c u a) = _) rfl ?_
  intro x hm hf a0 a1 a2 z0 z1 z2
  rw [core34 hm, decodeMajor34, hf]
  exact checked_of (by rw [a0, a1, a2]) hwf (rfl) (rfl) (beq_of z0) (band_true_of (beq_of z1) (beq_of z2))
theorem RoundTrip.stashMap (c : Bool) (u : Bool) (a : BitVec 6) (b : BitVec 7) : RoundTrip.Statement (.stashMap c u a b) := by
  intro hwf
  refine form56 0x34600000 0x34 (by decide) 0x3 (by decide) (by decide) c u a b (rfl : encodeNat (.stashMap c u a b) = _) rfl ?_
  intro x hm hf a0 a1 a2 a3 z0 z1
  rw [core34 hm, decodeMajor34, hf]
  exact checked_of (by rw [a0, a1, a2, a3]) hwf (rfl) (rfl) (beq_of z0) (beq_of z1)
theorem RoundTrip.stashWb (c : Bool) (u : Bool) : RoundTrip.Statement (.stashWb c u) := by
  intro hwf
  refine form57 0x34800000 0x34 (by decide) 0x4 (by decide) (by decide) c u (rfl : encodeNat (.stashWb c u) = _) rfl ?_
  intro x hm hf a0 a1 z0
  rw [core34 hm, decodeMajor34, hf]
  exact checked_of (by rw [a0, a1]) hwf (rfl) (rfl) (rfl) (beq_of z0)
theorem RoundTrip.stashDrop (c : Bool) (u : Bool) : RoundTrip.Statement (.stashDrop c u) := by
  intro hwf
  refine form57 0x34A00000 0x34 (by decide) 0x5 (by decide) (by decide) c u (rfl : encodeNat (.stashDrop c u) = _) rfl ?_
  intro x hm hf a0 a1 z0
  rw [core34 hm, decodeMajor34, hf]
  exact checked_of (by rw [a0, a1]) hwf (rfl) (rfl) (rfl) (beq_of z0)
theorem RoundTrip.cpyG2s (c : Bool) (z : BitVec 2) (d : BitVec 7) (a : BitVec 6) : RoundTrip.Statement (.cpyG2s c z d a) := by
  intro hwf
  refine form58 0x36000000 0x36 (by decide) 0x0 (by decide) (by decide) c z d a (rfl : encodeNat (.cpyG2s c z d a) = _) rfl ?_
  intro x hm hf a0 a1 a2 a3 z0 z1 u30
  rw [core36 hm, decodeMajor36, hf]
  exact checked_of (by rw [a0, a1, a2, a3]) hwf (rfl) (bnot_true_of u30) (beq_of z0) (beq_of z1)
theorem RoundTrip.cpyS2g (c : Bool) (z : BitVec 2) (d : BitVec 6) (a : BitVec 7) : RoundTrip.Statement (.cpyS2g c z d a) := by
  intro hwf
  refine form59 0x36400000 0x36 (by decide) 0x1 (by decide) (by decide) c z d a (rfl : encodeNat (.cpyS2g c z d a) = _) rfl ?_
  intro x hm hf a0 a1 a2 a3 z0 z1 u30
  rw [core36 hm, decodeMajor36, hf]
  exact checked_of (by rw [a0, a1, a2, a3]) hwf (rfl) (bnot_true_of u30) (beq_of z0) (beq_of z1)
theorem RoundTrip.cpyG2g (c : Bool) (z : BitVec 2) (d : BitVec 6) (a : BitVec 6) : RoundTrip.Statement (.cpyG2g c z d a) := by
  intro hwf
  refine form60 0x36800000 0x36 (by decide) 0x2 (by decide) (by decide) c z d a (rfl : encodeNat (.cpyG2g c z d a) = _) rfl ?_
  intro x hm hf a0 a1 a2 a3 z0 z1 z2 u30
  rw [core36 hm, decodeMajor36, hf]
  exact checked_of (by rw [a0, a1, a2, a3]) hwf (rfl) (bnot_true_of u30) (band_true_of (beq_of z0) (beq_of z1)) (beq_of z2)
theorem RoundTrip.cpyS2s (c : Bool) (z : BitVec 2) (d : BitVec 7) (a : BitVec 7) : RoundTrip.Statement (.cpyS2s c z d a) := by
  intro hwf
  refine form61 0x36C00000 0x36 (by decide) 0x3 (by decide) (by decide) c z d a (rfl : encodeNat (.cpyS2s c z d a) = _) rfl ?_
  intro x hm hf a0 a1 a2 a3 z0 u30
  rw [core36 hm, decodeMajor36, hf]
  exact checked_of (by rw [a0, a1, a2, a3]) hwf (rfl) (bnot_true_of u30) (rfl) (beq_of z0)
theorem RoundTrip.cpyFlag (c : Bool) (a : BitVec 7) (b : BitVec 7) : RoundTrip.Statement (.cpyFlag c a b) := by
  intro hwf
  refine form62 0x37000000 0x37 (by decide) 0x0 (by decide) (by decide) c a b (rfl : encodeNat (.cpyFlag c a b) = _) rfl ?_
  intro x hm hf a0 a1 a2 z0 u30
  rw [core37 hm, decodeMajor37, hf]
  exact checked_of (by rw [a0, a1, a2]) hwf (rfl) (bnot_true_of u30) (rfl) (beq_of z0)
theorem RoundTrip.cpyCommit (c : Bool) (d : BitVec 7) (sc : BitVec 3) : RoundTrip.Statement (.cpyCommit c d sc) := by
  intro hwf
  refine form63 0x37200000 0x37 (by decide) 0x1 (by decide) (by decide) c d sc (rfl : encodeNat (.cpyCommit c d sc) = _) rfl ?_
  intro x hm hf a0 a1 a2 z0 u30
  rw [core37 hm, decodeMajor37, hf]
  exact checked_of (by rw [a0, a1, a2]) hwf (rfl) (bnot_true_of u30) (rfl) (beq_of z0)
theorem RoundTrip.htest (c : Bool) (d : BitVec 3) (a : BitVec 7) : RoundTrip.Statement (.htest c d a) := by
  intro hwf
  refine form64 0x37400000 0x37 (by decide) 0x2 (by decide) (by decide) c d a (rfl : encodeNat (.htest c d a) = _) rfl ?_
  intro x hm hf a0 a1 a2 z0 z1 u30
  rw [core37 hm, decodeMajor37, hf]
  exact checked_of (by rw [a0, a1, a2]) hwf (rfl) (bnot_true_of u30) (rfl) (band_true_of (beq_of z0) (beq_of z1))
theorem RoundTrip.hcancel (c : Bool) (a : BitVec 7) : RoundTrip.Statement (.hcancel c a) := by
  intro hwf
  refine form35 0x37600000 0x37 (by decide) 0x3 (by decide) (by decide) c a (rfl : encodeNat (.hcancel c a) = _) rfl ?_
  intro x hm hf a0 a1 z0 z1 u30
  rw [core37 hm, decodeMajor37, hf]
  exact checked_of (by rw [a0, a1]) hwf (rfl) (bnot_true_of u30) (rfl) (band_true_of (beq_of z0) (beq_of z1))
theorem RoundTrip.hwait (c : Bool) (a : BitVec 7) : RoundTrip.Statement (.hwait c a) := by
  intro hwf
  refine form35 0x37800000 0x37 (by decide) 0x4 (by decide) (by decide) c a (rfl : encodeNat (.hwait c a) = _) rfl ?_
  intro x hm hf a0 a1 z0 z1 u30
  rw [core37 hm, decodeMajor37, hf]
  exact checked_of (by rw [a0, a1]) hwf (rfl) (bnot_true_of u30) (rfl) (band_true_of (beq_of z0) (beq_of z1))
theorem RoundTrip.cntrd (c : Bool) (d : BitVec 7) : RoundTrip.Statement (.cntrd c d) := by
  intro hwf
  refine form45 0x37A00000 0x37 (by decide) 0x5 (by decide) (by decide) c d (rfl : encodeNat (.cntrd c d) = _) rfl ?_
  intro x hm hf a0 a1 z0 u30
  rw [core37 hm, decodeMajor37, hf]
  exact checked_of (by rw [a0, a1]) hwf (rfl) (bnot_true_of u30) (rfl) (beq_of z0)
theorem RoundTrip.waitc (c : Bool) (l : BitVec 6) (sc : BitVec 6) (k : BitVec 6) (t : BitVec 6) : RoundTrip.Statement (.waitc c l sc k t) := by
  intro hwf
  refine form65 0x38000000 0x38 (by decide) (by decide) c l sc k t (rfl : encodeNat (.waitc c l sc k t) = _) rfl ?_
  intro x hm a0 a1 a2 a3 a4 u30
  rw [core38 hm, decodeMajor38]
  exact checked_of (by rw [a0, a1, a2, a3, a4]) hwf (rfl) (bnot_true_of u30) (rfl) (rfl)
theorem RoundTrip.mxIssue (c : Bool) (d : BitVec 7) (a : BitVec 7) : RoundTrip.Statement (.mxIssue c d a) := by
  intro hwf
  refine form66 0x39000000 0x39 (by decide) 0x0 (by decide) (by decide) c d a (rfl : encodeNat (.mxIssue c d a) = _) rfl ?_
  intro x hm hf a0 a1 a2 z0 u30
  rw [core39 hm, decodeMajor39, hf]
  exact checked_of (by rw [a0, a1, a2]) hwf (rfl) (bnot_true_of u30) (rfl) (beq_of z0)
theorem RoundTrip.mxReady (c : Bool) (d : BitVec 7) (a : BitVec 4) (q : BitVec 1) : RoundTrip.Statement (.mxReady c d a q) := by
  intro hwf
  refine form67 0x39200000 0x39 (by decide) 0x1 (by decide) (by decide) c d a q (rfl : encodeNat (.mxReady c d a q) = _) rfl ?_
  intro x hm hf a0 a1 a2 a3 z0 z1 u30
  rw [core39 hm, decodeMajor39, hf]
  exact checked_of (by rw [a0, a1, a2, a3]) hwf (rfl) (bnot_true_of u30) (beq_of z0) (beq_of z1)
theorem RoundTrip.mxCancel (c : Bool) : RoundTrip.Statement (.mxCancel c) := by
  intro hwf
  refine form34 0x39400000 0x39 (by decide) 0x2 (by decide) (by decide) c (rfl : encodeNat (.mxCancel c) = _) rfl ?_
  intro x hm hf a0 z0 u30
  rw [core39 hm, decodeMajor39, hf]
  exact checked_of (by rw [a0]) hwf (rfl) (bnot_true_of u30) (rfl) (beq_of z0)
theorem RoundTrip.mxQuiesce (c : Bool) : RoundTrip.Statement (.mxQuiesce c) := by
  intro hwf
  refine form34 0x39600000 0x39 (by decide) 0x3 (by decide) (by decide) c (rfl : encodeNat (.mxQuiesce c) = _) rfl ?_
  intro x hm hf a0 z0 u30
  rw [core39 hm, decodeMajor39, hf]
  exact checked_of (by rw [a0]) hwf (rfl) (bnot_true_of u30) (rfl) (beq_of z0)
theorem RoundTrip.plZero (c : Bool) (a : BitVec 7) (f : BitVec 1) : RoundTrip.Statement (.plZero c a f) := by
  intro hwf
  refine form68 0x39800000 0x39 (by decide) 0x4 (by decide) (by decide) c a f (rfl : encodeNat (.plZero c a f) = _) rfl ?_
  intro x hm hf a0 a1 a2 z0 z1 u30
  rw [core39 hm, decodeMajor39, hf]
  exact checked_of (by rw [a0, a1, a2]) hwf (rfl) (bnot_true_of u30) (rfl) (band_true_of (beq_of z0) (beq_of z1))
theorem RoundTrip.plClaim (c : Bool) (a : BitVec 7) (l : BitVec 1) : RoundTrip.Statement (.plClaim c a l) := by
  intro hwf
  refine form68 0x39A00000 0x39 (by decide) 0x5 (by decide) (by decide) c a l (rfl : encodeNat (.plClaim c a l) = _) rfl ?_
  intro x hm hf a0 a1 a2 z0 z1 u30
  rw [core39 hm, decodeMajor39, hf]
  exact checked_of (by rw [a0, a1, a2]) hwf (rfl) (bnot_true_of u30) (rfl) (band_true_of (beq_of z0) (beq_of z1))
theorem RoundTrip.plFree (c : Bool) (a : BitVec 7) : RoundTrip.Statement (.plFree c a) := by
  intro hwf
  refine form35 0x39C00000 0x39 (by decide) 0x6 (by decide) (by decide) c a (rfl : encodeNat (.plFree c a) = _) rfl ?_
  intro x hm hf a0 a1 z0 z1 u30
  rw [core39 hm, decodeMajor39, hf]
  exact checked_of (by rw [a0, a1]) hwf (rfl) (bnot_true_of u30) (rfl) (band_true_of (beq_of z0) (beq_of z1))
theorem RoundTrip.plLd (c : Bool) (f : BitVec 1) (a : BitVec 7) (b : BitVec 6) : RoundTrip.Statement (.plLd c f a b) := by
  intro hwf
  refine form69 0x3A000000 0x3A (by decide) 0x0 (by decide) (by decide) c f a b (rfl : encodeNat (.plLd c f a b) = _) rfl ?_
  intro x hm hf a0 a1 a2 a3 z0 z1 u30
  rw [core3A hm, decodeMajor3A, hf]
  exact checked_of (by rw [a0, a1, a2, a3]) hwf (rfl) (bnot_true_of u30) (beq_of z0) (beq_of z1)
theorem RoundTrip.plSt (c : Bool) (a : BitVec 7) (b : BitVec 6) : RoundTrip.Statement (.plSt c a b) := by
  intro hwf
  refine form70 0x3A200000 0x3A (by decide) 0x1 (by decide) (by decide) c a b (rfl : encodeNat (.plSt c a b) = _) rfl ?_
  intro x hm hf a0 a1 a2 z0 z1 u30
  rw [core3A hm, decodeMajor3A, hf]
  exact checked_of (by rw [a0, a1, a2]) hwf (rfl) (bnot_true_of u30) (beq_of z0) (beq_of z1)
theorem RoundTrip.plRd (c : Bool) (d : BitVec 7) (a : BitVec 7) (k : BitVec 5) : RoundTrip.Statement (.plRd c d a k) := by
  intro hwf
  refine form71 0x3A400000 0x3A (by decide) 0x2 (by decide) (by decide) c d a k (rfl : encodeNat (.plRd c d a k) = _) rfl ?_
  intro x hm hf a0 a1 a2 a3 z0 u30
  rw [core3A hm, decodeMajor3A, hf]
  exact checked_of (by rw [a0, a1, a2, a3]) hwf (rfl) (bnot_true_of u30) (rfl) (beq_of z0)
theorem RoundTrip.plWr (c : Bool) (d : BitVec 7) (a : BitVec 7) (k : BitVec 5) : RoundTrip.Statement (.plWr c d a k) := by
  intro hwf
  refine form71 0x3A600000 0x3A (by decide) 0x3 (by decide) (by decide) c d a k (rfl : encodeNat (.plWr c d a k) = _) rfl ?_
  intro x hm hf a0 a1 a2 a3 z0 u30
  rw [core3A hm, decodeMajor3A, hf]
  exact checked_of (by rw [a0, a1, a2, a3]) hwf (rfl) (bnot_true_of u30) (rfl) (beq_of z0)
theorem RoundTrip.plScale (c : Bool) (a : BitVec 7) (b : BitVec 7) : RoundTrip.Statement (.plScale c a b) := by
  intro hwf
  refine form62 0x3A800000 0x3A (by decide) 0x4 (by decide) (by decide) c a b (rfl : encodeNat (.plScale c a b) = _) rfl ?_
  intro x hm hf a0 a1 a2 z0 u30
  rw [core3A hm, decodeMajor3A, hf]
  exact checked_of (by rw [a0, a1, a2]) hwf (rfl) (bnot_true_of u30) (rfl) (beq_of z0)
theorem RoundTrip.plSave (c : Bool) (a : BitVec 7) : RoundTrip.Statement (.plSave c a) := by
  intro hwf
  refine form35 0x3AA00000 0x3A (by decide) 0x5 (by decide) (by decide) c a (rfl : encodeNat (.plSave c a) = _) rfl ?_
  intro x hm hf a0 a1 z0 z1 u30
  rw [core3A hm, decodeMajor3A, hf]
  exact checked_of (by rw [a0, a1]) hwf (rfl) (bnot_true_of u30) (rfl) (band_true_of (beq_of z0) (beq_of z1))
theorem RoundTrip.plRst (c : Bool) (a : BitVec 7) : RoundTrip.Statement (.plRst c a) := by
  intro hwf
  refine form35 0x3AC00000 0x3A (by decide) 0x6 (by decide) (by decide) c a (rfl : encodeNat (.plRst c a) = _) rfl ?_
  intro x hm hf a0 a1 z0 z1 u30
  rw [core3A hm, decodeMajor3A, hf]
  exact checked_of (by rw [a0, a1]) hwf (rfl) (bnot_true_of u30) (rfl) (band_true_of (beq_of z0) (beq_of z1))
theorem RoundTrip.tld (c : Bool) (d : BitVec 4) (a : BitVec 7) (f : BitVec 3) : RoundTrip.Statement (.tld c d a f) := by
  intro hwf
  refine form72 0x3B000000 0x3B (by decide) 0x0 (by decide) (by decide) c d a f (rfl : encodeNat (.tld c d a f) = _) rfl ?_
  intro x hm hf a0 a1 a2 a3 z0 z1 u30
  rw [core3B hm, decodeMajor3B, hf]
  exact checked_of (by rw [a0, a1, a2, a3]) hwf (rfl) (bnot_true_of u30) (beq_of z0) (beq_of z1)
theorem RoundTrip.tst (c : Bool) (d : BitVec 4) (a : BitVec 7) : RoundTrip.Statement (.tst c d a) := by
  intro hwf
  refine form73 0x3B200000 0x3B (by decide) 0x1 (by decide) (by decide) c d a (rfl : encodeNat (.tst c d a) = _) rfl ?_
  intro x hm hf a0 a1 a2 z0 z1 u30
  rw [core3B hm, decodeMajor3B, hf]
  exact checked_of (by rw [a0, a1, a2]) hwf (rfl) (bnot_true_of u30) (beq_of z0) (beq_of z1)
theorem RoundTrip.tcvt (c : Bool) (d : BitVec 4) (a : BitVec 7) (h : BitVec 1) (sc : BitVec 1) (r : BitVec 2) (f : BitVec 3) : RoundTrip.Statement (.tcvt c d a h sc r f) := by
  intro hwf
  refine form74 0x3B400000 0x3B (by decide) 0x2 (by decide) (by decide) c d a h sc r f (rfl : encodeNat (.tcvt c d a h sc r f) = _) rfl ?_
  intro x hm hf a0 a1 a2 a3 a4 a5 a6 z0 u30
  rw [core3B hm, decodeMajor3B, hf]
  exact checked_of (by rw [a0, a1, a2, a3, a4, a5, a6]) hwf (rfl) (bnot_true_of u30) (beq_of z0) (rfl)
theorem RoundTrip.tzero (c : Bool) (d : BitVec 4) (f : BitVec 3) : RoundTrip.Statement (.tzero c d f) := by
  intro hwf
  refine form75 0x3B600000 0x3B (by decide) 0x3 (by decide) (by decide) c d f (rfl : encodeNat (.tzero c d f) = _) rfl ?_
  intro x hm hf a0 a1 a2 z0 z1 u30
  rw [core3B hm, decodeMajor3B, hf]
  exact checked_of (by rw [a0, a1, a2]) hwf (rfl) (bnot_true_of u30) (beq_of z0) (beq_of z1)
theorem RoundTrip.ttrn (c : Bool) (d : BitVec 4) (a : BitVec 4) (m : BitVec 4) : RoundTrip.Statement (.ttrn c d a m) := by
  intro hwf
  refine form76 0x3B800000 0x3B (by decide) 0x4 (by decide) (by decide) c d a m (rfl : encodeNat (.ttrn c d a m) = _) rfl ?_
  intro x hm hf a0 a1 a2 a3 z0 z1 z2 u30
  rw [core3B hm, decodeMajor3B, hf]
  exact checked_of (by rw [a0, a1, a2, a3]) hwf (rfl) (bnot_true_of u30) (band_true_of (beq_of z0) (beq_of z1)) (beq_of z2)
theorem RoundTrip.plwLoop (c : Bool) (l : BitVec 2) (a : BitVec 7) : RoundTrip.Statement (.plwLoop c l a) := by
  intro hwf
  refine form77 0x3C000000 0x3C (by decide) 0x0 (by decide) (by decide) c l a (rfl : encodeNat (.plwLoop c l a) = _) rfl ?_
  intro x hm hf a0 a1 a2 z0 z1 u30
  rw [core3C hm, decodeMajor3C, hf]
  exact checked_of (by rw [a0, a1, a2]) hwf (rfl) (bnot_true_of u30) (rfl) (band_true_of (beq_of z0) (beq_of z1))
theorem RoundTrip.plwStrm (c : Bool) (t : BitVec 2) (z : BitVec 2) (q : BitVec 2) (a : BitVec 6) (b : BitVec 5) : RoundTrip.Statement (.plwStrm c t z q a b) := by
  intro hwf
  refine form78 0x3C200000 0x3C (by decide) 0x1 (by decide) (by decide) c t z q a b (rfl : encodeNat (.plwStrm c t z q a b) = _) rfl ?_
  intro x hm hf a0 a1 a2 a3 a4 a5 z0 z1 z2 u30
  rw [core3C hm, decodeMajor3C, hf]
  exact checked_of (by rw [a0, a1, a2, a3, a4, a5]) hwf (rfl) (bnot_true_of u30) (band_true_of (beq_of z0) (beq_of z1)) (beq_of z2)
theorem RoundTrip.plwGo (c : Bool) (m : BitVec 4) : RoundTrip.Statement (.plwGo c m) := by
  intro hwf
  refine form79 0x3C400000 0x3C (by decide) 0x2 (by decide) (by decide) c m (rfl : encodeNat (.plwGo c m) = _) rfl ?_
  intro x hm hf a0 a1 z0 u30
  rw [core3C hm, decodeMajor3C, hf]
  exact checked_of (by rw [a0, a1]) hwf (rfl) (bnot_true_of u30) (rfl) (beq_of z0)
theorem RoundTrip.plwStop (c : Bool) : RoundTrip.Statement (.plwStop c) := by
  intro hwf
  refine form34 0x3C600000 0x3C (by decide) 0x3 (by decide) (by decide) c (rfl : encodeNat (.plwStop c) = _) rfl ?_
  intro x hm hf a0 z0 u30
  rw [core3C hm, decodeMajor3C, hf]
  exact checked_of (by rw [a0]) hwf (rfl) (bnot_true_of u30) (rfl) (beq_of z0)
theorem RoundTrip.qpop (c : Bool) (d : BitVec 7) (n : BitVec 2) : RoundTrip.Statement (.qpop c d n) := by
  intro hwf
  refine form80 0x3C800000 0x3C (by decide) 0x4 (by decide) (by decide) c d n (rfl : encodeNat (.qpop c d n) = _) rfl ?_
  intro x hm hf a0 a1 a2 z0 u30
  rw [core3C hm, decodeMajor3C, hf]
  exact checked_of (by rw [a0, a1, a2]) hwf (rfl) (bnot_true_of u30) (rfl) (beq_of z0)
theorem RoundTrip.qpeek (c : Bool) (d : BitVec 7) (n : BitVec 2) : RoundTrip.Statement (.qpeek c d n) := by
  intro hwf
  refine form80 0x3CA00000 0x3C (by decide) 0x5 (by decide) (by decide) c d n (rfl : encodeNat (.qpeek c d n) = _) rfl ?_
  intro x hm hf a0 a1 a2 z0 u30
  rw [core3C hm, decodeMajor3C, hf]
  exact checked_of (by rw [a0, a1, a2]) hwf (rfl) (bnot_true_of u30) (rfl) (beq_of z0)
theorem RoundTrip.qlen (c : Bool) (d : BitVec 7) (n : BitVec 2) : RoundTrip.Statement (.qlen c d n) := by
  intro hwf
  refine form80 0x3CC00000 0x3C (by decide) 0x6 (by decide) (by decide) c d n (rfl : encodeNat (.qlen c d n) = _) rfl ?_
  intro x hm hf a0 a1 a2 z0 u30
  rw [core3C hm, decodeMajor3C, hf]
  exact checked_of (by rw [a0, a1, a2]) hwf (rfl) (bnot_true_of u30) (rfl) (beq_of z0)
theorem RoundTrip.plwStat (c : Bool) (d : BitVec 7) : RoundTrip.Statement (.plwStat c d) := by
  intro hwf
  refine form45 0x3CE00000 0x3C (by decide) 0x7 (by decide) (by decide) c d (rfl : encodeNat (.plwStat c d) = _) rfl ?_
  intro x hm hf a0 a1 z0 u30
  rw [core3C hm, decodeMajor3C, hf]
  exact checked_of (by rw [a0, a1]) hwf (rfl) (bnot_true_of u30) (rfl) (beq_of z0)
theorem RoundTrip.launch (c : Bool) (d : BitVec 7) (a : BitVec 6) (b : BitVec 6) : RoundTrip.Statement (.launch c d a b) := by
  intro hwf
  refine form81 0x3D000000 0x3D (by decide) 0x0 (by decide) (by decide) c d a b (rfl : encodeNat (.launch c d a b) = _) rfl ?_
  intro x hm hf a0 a1 a2 a3 z0 z1 u30
  rw [core3D hm, decodeMajor3D, hf]
  exact checked_of (by rw [a0, a1, a2, a3]) hwf (rfl) (bnot_true_of u30) (band_true_of (beq_of z0) (beq_of z1)) (rfl)
theorem RoundTrip.qpush (c : Bool) (d : BitVec 7) (a : BitVec 6) (b : BitVec 6) : RoundTrip.Statement (.qpush c d a b) := by
  intro hwf
  refine form81 0x3D200000 0x3D (by decide) 0x1 (by decide) (by decide) c d a b (rfl : encodeNat (.qpush c d a b) = _) rfl ?_
  intro x hm hf a0 a1 a2 a3 z0 z1 u30
  rw [core3D hm, decodeMajor3D, hf]
  exact checked_of (by rw [a0, a1, a2, a3]) hwf (rfl) (bnot_true_of u30) (band_true_of (beq_of z0) (beq_of z1)) (rfl)
theorem RoundTrip.kstat (c : Bool) (d : BitVec 6) (a : BitVec 6) : RoundTrip.Statement (.kstat c d a) := by
  intro hwf
  refine form82 0x3D400000 0x3D (by decide) 0x2 (by decide) (by decide) c d a (rfl : encodeNat (.kstat c d a) = _) rfl ?_
  intro x hm hf a0 a1 a2 z0 z1 z2 u30
  rw [core3D hm, decodeMajor3D, hf]
  exact checked_of (by rw [a0, a1, a2]) hwf (rfl) (bnot_true_of u30) (band_true_of (beq_of z0) (beq_of z1)) (beq_of z2)
theorem RoundTrip.qstat (c : Bool) (d : BitVec 7) (a : BitVec 6) : RoundTrip.Statement (.qstat c d a) := by
  intro hwf
  refine form44 0x3D600000 0x3D (by decide) 0x3 (by decide) (by decide) c d a (rfl : encodeNat (.qstat c d a) = _) rfl ?_
  intro x hm hf a0 a1 a2 z0 z1 u30
  rw [core3D hm, decodeMajor3D, hf]
  exact checked_of (by rw [a0, a1, a2]) hwf (rfl) (bnot_true_of u30) (beq_of z0) (beq_of z1)
theorem RoundTrip.srd (c : Bool) (d : BitVec 7) (imm : BitVec 9) : RoundTrip.Statement (.srd c d imm) := by
  intro hwf
  refine form83 0x3E000000 0x3E (by decide) 0x0 (by decide) (by decide) c d imm (rfl : encodeNat (.srd c d imm) = _) rfl ?_
  intro x hm hf a0 a1 a2 u30
  rw [core3E hm, decodeMajor3E, hf]
  exact checked_of (by rw [a0, a1, a2]) hwf (rfl) (bnot_true_of u30) (rfl) (rfl)
theorem RoundTrip.swr (c : Bool) (d : BitVec 7) (imm : BitVec 9) : RoundTrip.Statement (.swr c d imm) := by
  intro hwf
  refine form83 0x3E010000 0x3E (by decide) 0x1 (by decide) (by decide) c d imm (rfl : encodeNat (.swr c d imm) = _) rfl ?_
  intro x hm hf a0 a1 a2 u30
  rw [core3E hm, decodeMajor3E, hf]
  exact checked_of (by rw [a0, a1, a2]) hwf (rfl) (bnot_true_of u30) (rfl) (rfl)
theorem RoundTrip.tret (c : Bool) : RoundTrip.Statement (.tret c) := by
  intro hwf
  refine form43 0x3E020000 0x3E (by decide) 0x2 (by decide) (by decide) c (rfl : encodeNat (.tret c) = _) rfl ?_
  intro x hm hf a0 z0 u30
  rw [core3E hm, decodeMajor3E, hf]
  exact checked_of (by rw [a0]) hwf (rfl) (bnot_true_of u30) (rfl) (beq_of z0)
theorem RoundTrip.ecall (c : Bool) (d : BitVec 7) (imm : BitVec 9) : RoundTrip.Statement (.ecall c d imm) := by
  intro hwf
  refine form83 0x3E030000 0x3E (by decide) 0x3 (by decide) (by decide) c d imm (rfl : encodeNat (.ecall c d imm) = _) rfl ?_
  intro x hm hf a0 a1 a2 u30
  rw [core3E hm, decodeMajor3E, hf]
  exact checked_of (by rw [a0, a1, a2]) hwf (rfl) (bnot_true_of u30) (rfl) (rfl)
theorem RoundTrip.ctxStop (c : Bool) (d : BitVec 7) : RoundTrip.Statement (.ctxStop c d) := by
  intro hwf
  refine form84 0x3E100000 0x3E (by decide) 0x10 (by decide) (by decide) c d (rfl : encodeNat (.ctxStop c d) = _) rfl ?_
  intro x hm hf a0 a1 z0 u30
  rw [core3E hm, decodeMajor3E, hf]
  exact checked_of (by rw [a0, a1]) hwf (rfl) (bnot_true_of u30) (rfl) (beq_of z0)
theorem RoundTrip.ctxSave (c : Bool) (d : BitVec 7) : RoundTrip.Statement (.ctxSave c d) := by
  intro hwf
  refine form84 0x3E110000 0x3E (by decide) 0x11 (by decide) (by decide) c d (rfl : encodeNat (.ctxSave c d) = _) rfl ?_
  intro x hm hf a0 a1 z0 u30
  rw [core3E hm, decodeMajor3E, hf]
  exact checked_of (by rw [a0, a1]) hwf (rfl) (bnot_true_of u30) (rfl) (beq_of z0)
theorem RoundTrip.ctxRst (c : Bool) (d : BitVec 6) (f : BitVec 1) : RoundTrip.Statement (.ctxRst c d f) := by
  intro hwf
  refine form85 0x3E120000 0x3E (by decide) 0x12 (by decide) (by decide) c d f (rfl : encodeNat (.ctxRst c d f) = _) rfl ?_
  intro x hm hf a0 a1 a2 z0 z1 u30
  rw [core3E hm, decodeMajor3E, hf]
  exact checked_of (by rw [a0, a1, a2]) hwf (rfl) (bnot_true_of u30) (beq_of z0) (beq_of z1)
theorem RoundTrip.preempt (c : Bool) (d : BitVec 5) (imm : BitVec 9) : RoundTrip.Statement (.preempt c d imm) := by
  intro hwf
  refine form86 0x3E130000 0x3E (by decide) 0x13 (by decide) (by decide) c d imm (rfl : encodeNat (.preempt c d imm) = _) rfl ?_
  intro x hm hf a0 a1 a2 z0 u30
  rw [core3E hm, decodeMajor3E, hf]
  exact checked_of (by rw [a0, a1, a2]) hwf (rfl) (bnot_true_of u30) (beq_of z0) (rfl)
theorem RoundTrip.ckptMark (c : Bool) (d : BitVec 7) (f : BitVec 1) : RoundTrip.Statement (.ckptMark c d f) := by
  intro hwf
  refine form87 0x3E140000 0x3E (by decide) 0x14 (by decide) (by decide) c d f (rfl : encodeNat (.ckptMark c d f) = _) rfl ?_
  intro x hm hf a0 a1 a2 z0 u30
  rw [core3E hm, decodeMajor3E, hf]
  exact checked_of (by rw [a0, a1, a2]) hwf (rfl) (bnot_true_of u30) (rfl) (beq_of z0)
theorem RoundTrip.ckptStat (c : Bool) (d : BitVec 6) : RoundTrip.Statement (.ckptStat c d) := by
  intro hwf
  refine form88 0x3E150000 0x3E (by decide) 0x15 (by decide) (by decide) c d (rfl : encodeNat (.ckptStat c d) = _) rfl ?_
  intro x hm hf a0 a1 z0 z1 u30
  rw [core3E hm, decodeMajor3E, hf]
  exact checked_of (by rw [a0, a1]) hwf (rfl) (bnot_true_of u30) (beq_of z0) (beq_of z1)
theorem RoundTrip.patchLoad (c : Bool) (d : BitVec 6) (sc : BitVec 4) : RoundTrip.Statement (.patchLoad c d sc) := by
  intro hwf
  refine form89 0x3E200000 0x3E (by decide) 0x20 (by decide) (by decide) c d sc (rfl : encodeNat (.patchLoad c d sc) = _) rfl ?_
  intro x hm hf a0 a1 a2 z0 z1 u30
  rw [core3E hm, decodeMajor3E, hf]
  exact checked_of (by rw [a0, a1, a2]) hwf (beq_of z0) (bnot_true_of u30) (beq_of z1) (rfl)
theorem RoundTrip.patchArm (c : Bool) (sc : BitVec 4) : RoundTrip.Statement (.patchArm c sc) := by
  intro hwf
  refine form90 0x3E210000 0x3E (by decide) 0x21 (by decide) (by decide) c sc (rfl : encodeNat (.patchArm c sc) = _) rfl ?_
  intro x hm hf a0 a1 z0 z1 u30
  rw [core3E hm, decodeMajor3E, hf]
  exact checked_of (by rw [a0, a1]) hwf (beq_of z0) (bnot_true_of u30) (rfl) (beq_of z1)
theorem RoundTrip.patchDisarm (c : Bool) (sc : BitVec 4) : RoundTrip.Statement (.patchDisarm c sc) := by
  intro hwf
  refine form90 0x3E220000 0x3E (by decide) 0x22 (by decide) (by decide) c sc (rfl : encodeNat (.patchDisarm c sc) = _) rfl ?_
  intro x hm hf a0 a1 z0 z1 u30
  rw [core3E hm, decodeMajor3E, hf]
  exact checked_of (by rw [a0, a1]) hwf (beq_of z0) (bnot_true_of u30) (rfl) (beq_of z1)
theorem RoundTrip.patchQry (c : Bool) (d : BitVec 7) (sc : BitVec 4) : RoundTrip.Statement (.patchQry c d sc) := by
  intro hwf
  refine form42 0x3E230000 0x3E (by decide) 0x23 (by decide) (by decide) c d sc (rfl : encodeNat (.patchQry c d sc) = _) rfl ?_
  intro x hm hf a0 a1 a2 z0 u30
  rw [core3E hm, decodeMajor3E, hf]
  exact checked_of (by rw [a0, a1, a2]) hwf (beq_of z0) (bnot_true_of u30) (rfl) (rfl)
theorem RoundTrip.pstateSet (c : Bool) (d : BitVec 7) (p : BitVec 3) : RoundTrip.Statement (.pstateSet c d p) := by
  intro hwf
  refine form91 0x3E300000 0x3E (by decide) 0x30 (by decide) (by decide) c d p (rfl : encodeNat (.pstateSet c d p) = _) rfl ?_
  intro x hm hf a0 a1 a2 z0 u30
  rw [core3E hm, decodeMajor3E, hf]
  exact checked_of (by rw [a0, a1, a2]) hwf (beq_of z0) (bnot_true_of u30) (rfl) (rfl)
theorem RoundTrip.park (c : Bool) (d : BitVec 7) : RoundTrip.Statement (.park c d) := by
  intro hwf
  refine form84 0x3E310000 0x3E (by decide) 0x31 (by decide) (by decide) c d (rfl : encodeNat (.park c d) = _) rfl ?_
  intro x hm hf a0 a1 z0 u30
  rw [core3E hm, decodeMajor3E, hf]
  exact checked_of (by rw [a0, a1]) hwf (rfl) (bnot_true_of u30) (rfl) (beq_of z0)
theorem RoundTrip.unpark (c : Bool) (d : BitVec 7) : RoundTrip.Statement (.unpark c d) := by
  intro hwf
  refine form84 0x3E320000 0x3E (by decide) 0x32 (by decide) (by decide) c d (rfl : encodeNat (.unpark c d) = _) rfl ?_
  intro x hm hf a0 a1 z0 u30
  rw [core3E hm, decodeMajor3E, hf]
  exact checked_of (by rw [a0, a1]) hwf (rfl) (bnot_true_of u30) (rfl) (beq_of z0)
theorem RoundTrip.errqSet (c : Bool) (d : BitVec 6) (l : BitVec 5) : RoundTrip.Statement (.errqSet c d l) := by
  intro hwf
  refine form92 0x3E400000 0x3E (by decide) 0x40 (by decide) (by decide) c d l (rfl : encodeNat (.errqSet c d l) = _) rfl ?_
  intro x hm hf a0 a1 a2 z0 z1 u30
  rw [core3E hm, decodeMajor3E, hf]
  exact checked_of (by rw [a0, a1, a2]) hwf (beq_of z0) (bnot_true_of u30) (beq_of z1) (rfl)
theorem RoundTrip.tlbInv (c : Bool) (d : BitVec 6) (w : BitVec 1) : RoundTrip.Statement (.tlbInv c d w) := by
  intro hwf
  refine form85 0x3E410000 0x3E (by decide) 0x41 (by decide) (by decide) c d w (rfl : encodeNat (.tlbInv c d w) = _) rfl ?_
  intro x hm hf a0 a1 a2 z0 z1 u30
  rw [core3E hm, decodeMajor3E, hf]
  exact checked_of (by rw [a0, a1, a2]) hwf (rfl) (bnot_true_of u30) (beq_of z0) (beq_of z1)
theorem RoundTrip.fenceTlb (c : Bool) : RoundTrip.Statement (.fenceTlb c) := by
  intro hwf
  refine form43 0x3E420000 0x3E (by decide) 0x42 (by decide) (by decide) c (rfl : encodeNat (.fenceTlb c) = _) rfl ?_
  intro x hm hf a0 z0 u30
  rw [core3E hm, decodeMajor3E, hf]
  exact checked_of (by rw [a0]) hwf (rfl) (bnot_true_of u30) (rfl) (beq_of z0)
theorem RoundTrip.issueGroup (croft : Nat) : RoundTrip.Statement (.issueGroup croft) := RoundTrip.no_word rfl
theorem RoundTrip.penStarved (croft : Nat) (pen : Nat) : RoundTrip.Statement (.penStarved croft pen) := RoundTrip.no_word rfl
theorem RoundTrip.pauseExpiry (th : Nat) : RoundTrip.Statement (.pauseExpiry th) := RoundTrip.no_word rfl
theorem RoundTrip.yieldEnd (th : Nat) : RoundTrip.Statement (.yieldEnd th) := RoundTrip.no_word rfl
theorem RoundTrip.tick : RoundTrip.Statement (.tick) := RoundTrip.no_word rfl
theorem RoundTrip.rebaseSweep : RoundTrip.Statement (.rebaseSweep) := RoundTrip.no_word rfl
theorem RoundTrip.rebaseSweepComplete : RoundTrip.Statement (.rebaseSweepComplete) := RoundTrip.no_word rfl
theorem RoundTrip.loadDataReturn (acc : Nat) : RoundTrip.Statement (.loadDataReturn acc) := RoundTrip.no_word rfl
theorem RoundTrip.renewRequest (acc : Nat) : RoundTrip.Statement (.renewRequest acc) := RoundTrip.no_word rfl
theorem RoundTrip.renewReply (acc : Nat) : RoundTrip.Statement (.renewReply acc) := RoundTrip.no_word rfl
theorem RoundTrip.homeStore (acc : Nat) : RoundTrip.Statement (.homeStore acc) := RoundTrip.no_word rfl
theorem RoundTrip.ownedRequest (acc : Nat) : RoundTrip.Statement (.ownedRequest acc) := RoundTrip.no_word rfl
theorem RoundTrip.homeAtomic (acc : Nat) : RoundTrip.Statement (.homeAtomic acc) := RoundTrip.no_word rfl
theorem RoundTrip.recallLine (line : Nat) : RoundTrip.Statement (.recallLine line) := RoundTrip.no_word rfl
theorem RoundTrip.persistentRequest (slice : Nat) : RoundTrip.Statement (.persistentRequest slice) := RoundTrip.no_word rfl
theorem RoundTrip.sliceEviction (line : Nat) : RoundTrip.Statement (.sliceEviction line) := RoundTrip.no_word rfl
theorem RoundTrip.hostMemAccess (op : BitVec 2) (addr : Nat) (size : Nat) (data : BitVec 64) (cache : Bool) : RoundTrip.Statement (.hostMemAccess op addr size data cache) := RoundTrip.no_word rfl
theorem RoundTrip.backInvalidationResponse (line : Nat) : RoundTrip.Statement (.backInvalidationResponse line) := RoundTrip.no_word rfl
theorem RoundTrip.hostSnoop (line : Nat) (inval : Bool) : RoundTrip.Statement (.hostSnoop line inval) := RoundTrip.no_word rfl
theorem RoundTrip.surveyorWalk (core : Nat) (ctx : Nat) (va : Nat) : RoundTrip.Statement (.surveyorWalk core ctx va) := RoundTrip.no_word rfl
theorem RoundTrip.holdLimitExpiry (th : Nat) : RoundTrip.Statement (.holdLimitExpiry th) := RoundTrip.no_word rfl
theorem RoundTrip.pageFaultService (ctx : Nat) (va : Nat) : RoundTrip.Statement (.pageFaultService ctx va) := RoundTrip.no_word rfl
theorem RoundTrip.droverCommand (ctx : Nat) : RoundTrip.Statement (.droverCommand ctx) := RoundTrip.no_word rfl
theorem RoundTrip.migration (ctx : Nat) (va : Nat) : RoundTrip.Statement (.migration ctx va) := RoundTrip.no_word rfl
theorem RoundTrip.migrationComplete (ctx : Nat) (va : Nat) : RoundTrip.Statement (.migrationComplete ctx va) := RoundTrip.no_word rfl
theorem RoundTrip.farPagePromotion (ctx : Nat) (va : Nat) : RoundTrip.Statement (.farPagePromotion ctx va) := RoundTrip.no_word rfl
theorem RoundTrip.pageLeaseEnd (page : Nat) : RoundTrip.Statement (.pageLeaseEnd page) := RoundTrip.no_word rfl
theorem RoundTrip.timeSyncSend : RoundTrip.Statement (.timeSyncSend) := RoundTrip.no_word rfl
theorem RoundTrip.timeSyncReceive (dtick : BitVec 48) (delay : Nat) : RoundTrip.Statement (.timeSyncReceive dtick delay) := RoundTrip.no_word rfl
theorem RoundTrip.syncLossTimeout : RoundTrip.Statement (.syncLossTimeout) := RoundTrip.no_word rfl
theorem RoundTrip.flitReceive (port : Nat) (header : BitVec 64) (payload : BitVec 384) (good : Bool) : RoundTrip.Statement (.flitReceive port header payload good) := RoundTrip.no_word rfl
theorem RoundTrip.flitReplay (port : Nat) : RoundTrip.Statement (.flitReplay port) := RoundTrip.no_word rfl
theorem RoundTrip.trainingSuccess (port : Nat) (lanes : Nat) : RoundTrip.Statement (.trainingSuccess port lanes) := RoundTrip.no_word rfl
theorem RoundTrip.trainingTimeout (port : Nat) : RoundTrip.Statement (.trainingTimeout port) := RoundTrip.no_word rfl
theorem RoundTrip.trainingRetry (port : Nat) : RoundTrip.Statement (.trainingRetry port) := RoundTrip.no_word rfl
theorem RoundTrip.linkRetrain (port : Nat) : RoundTrip.Statement (.linkRetrain port) := RoundTrip.no_word rfl
theorem RoundTrip.routeFailure (req : Nat) : RoundTrip.Statement (.routeFailure req) := RoundTrip.no_word rfl
theorem RoundTrip.stewardTake (ctx : Nat) (qix : Nat) : RoundTrip.Statement (.stewardTake ctx qix) := RoundTrip.no_word rfl
theorem RoundTrip.queueEnableChange (ctx : Nat) (qix : Nat) : RoundTrip.Statement (.queueEnableChange ctx qix) := RoundTrip.no_word rfl
theorem RoundTrip.dependencesMet (launch : Nat) : RoundTrip.Statement (.dependencesMet launch) := RoundTrip.no_word rfl
theorem RoundTrip.clusterPlacement : RoundTrip.Statement (.clusterPlacement) := RoundTrip.no_word rfl
theorem RoundTrip.teamRetirement (team : Nat) : RoundTrip.Statement (.teamRetirement team) := RoundTrip.no_word rfl
theorem RoundTrip.binTimerExpiry (core : Nat) (bin : Nat) : RoundTrip.Statement (.binTimerExpiry core bin) := RoundTrip.no_word rfl
theorem RoundTrip.binLaunch (core : Nat) (bin : Nat) (croft : Nat) : RoundTrip.Statement (.binLaunch core bin croft) := RoundTrip.no_word rfl
theorem RoundTrip.barrierTimeout (th : Nat) : RoundTrip.Statement (.barrierTimeout th) := RoundTrip.no_word rfl
theorem RoundTrip.waitLimitExpiry (th : Nat) : RoundTrip.Statement (.waitLimitExpiry th) := RoundTrip.no_word rfl
theorem RoundTrip.watchFire (th : Nat) : RoundTrip.Statement (.watchFire th) := RoundTrip.no_word rfl
theorem RoundTrip.carterTransferUnit (unit : Nat) : RoundTrip.Statement (.carterTransferUnit unit) := RoundTrip.no_word rfl
theorem RoundTrip.copyElement (batch : Nat) (elem : Nat) : RoundTrip.Statement (.copyElement batch elem) := RoundTrip.no_word rfl
theorem RoundTrip.batchResolve (batch : Nat) : RoundTrip.Statement (.batchResolve batch) := RoundTrip.no_word rfl
theorem RoundTrip.remapWrite (batch : Nat) (elem : Nat) : RoundTrip.Statement (.remapWrite batch elem) := RoundTrip.no_word rfl
theorem RoundTrip.remapTimeout (team : Nat) : RoundTrip.Statement (.remapTimeout team) := RoundTrip.no_word rfl
theorem RoundTrip.remoteAtomicReply (acc : Nat) (data : BitVec 64) : RoundTrip.Statement (.remoteAtomicReply acc data) := RoundTrip.no_word rfl
theorem RoundTrip.ecallAnswer (acc : Nat) (answer : BitVec 32) : RoundTrip.Statement (.ecallAnswer acc answer) := RoundTrip.no_word rfl
theorem RoundTrip.pressTileStep (core : Nat) (blocks : Nat) : RoundTrip.Statement (.pressTileStep core blocks) := RoundTrip.no_word rfl
theorem RoundTrip.pressEntryResolve (entry : Nat) : RoundTrip.Statement (.pressEntryResolve entry) := RoundTrip.no_word rfl
theorem RoundTrip.quadJoin (th : Nat) : RoundTrip.Statement (.quadJoin th) := RoundTrip.no_word rfl
theorem RoundTrip.ploughElementRead (group : Nat) (stream : Nat) : RoundTrip.Statement (.ploughElementRead group stream) := RoundTrip.no_word rfl
theorem RoundTrip.contextQuiescent (ctx : Nat) : RoundTrip.Statement (.contextQuiescent ctx) := RoundTrip.no_word rfl
theorem RoundTrip.saveComplete (ctx : Nat) : RoundTrip.Statement (.saveComplete ctx) := RoundTrip.no_word rfl
theorem RoundTrip.preemptReport (ctx : Nat) : RoundTrip.Statement (.preemptReport ctx) := RoundTrip.no_word rfl
theorem RoundTrip.moveTransferDone (ctx : Nat) (ok : Bool) : RoundTrip.Statement (.moveTransferDone ctx ok) := RoundTrip.no_word rfl
theorem RoundTrip.automaticMark (ctx : Nat) : RoundTrip.Statement (.automaticMark ctx) := RoundTrip.no_word rfl
theorem RoundTrip.markStagingComplete (ctx : Nat) : RoundTrip.Statement (.markStagingComplete ctx) := RoundTrip.no_word rfl
theorem RoundTrip.checkpointStream (ctx : Nat) : RoundTrip.Statement (.checkpointStream ctx) := RoundTrip.no_word rfl
theorem RoundTrip.checkpointComplete (ctx : Nat) : RoundTrip.Statement (.checkpointComplete ctx) := RoundTrip.no_word rfl
theorem RoundTrip.copyOnWriteRelease (ctx : Nat) (va : Nat) : RoundTrip.Statement (.copyOnWriteRelease ctx va) := RoundTrip.no_word rfl
theorem RoundTrip.scrub (array : Nat) (index : Nat) (bad : Bool) : RoundTrip.Statement (.scrub array index bad) := RoundTrip.no_word rfl
theorem RoundTrip.uncorrectable (th : Nat) : RoundTrip.Statement (.uncorrectable th) := RoundTrip.no_word rfl
theorem RoundTrip.committedEarly (team : Nat) : RoundTrip.Statement (.committedEarly team) := RoundTrip.no_word rfl
theorem RoundTrip.rollback (team : Nat) : RoundTrip.Statement (.rollback team) := RoundTrip.no_word rfl
theorem RoundTrip.heartbeatLoss (die : Nat) : RoundTrip.Statement (.heartbeatLoss die) := RoundTrip.no_word rfl
theorem RoundTrip.dieFence (die : Nat) : RoundTrip.Statement (.dieFence die) := RoundTrip.no_word rfl
theorem RoundTrip.barnDieFence (barn : Nat) : RoundTrip.Statement (.barnDieFence barn) := RoundTrip.no_word rfl
theorem RoundTrip.reeveShare (avg : BitVec 11) (share0 : Nat) (share1 : Nat) (share2 : Nat) (share3 : Nat) : RoundTrip.Statement (.reeveShare avg share0 share1 share2 share3) := RoundTrip.no_word rfl
theorem RoundTrip.pstateTransition (die : Nat) : RoundTrip.Statement (.pstateTransition die) := RoundTrip.no_word rfl
theorem RoundTrip.parkComplete (die : Nat) : RoundTrip.Statement (.parkComplete die) := RoundTrip.no_word rfl
theorem RoundTrip.wakeComplete (die : Nat) : RoundTrip.Statement (.wakeComplete die) := RoundTrip.no_word rfl
theorem RoundTrip.bankReady (die : Nat) (bank : Nat) : RoundTrip.Statement (.bankReady die bank) := RoundTrip.no_word rfl
theorem RoundTrip.powerOnSelfTest (failed : BitVec 32) (hostLanes : Nat) : RoundTrip.Statement (.powerOnSelfTest failed hostLanes) := RoundTrip.no_word rfl
theorem RoundTrip.patchLoadComplete (slot : Nat) : RoundTrip.Statement (.patchLoadComplete slot) := RoundTrip.no_word rfl
theorem RoundTrip.patchArmComplete (slot : Nat) : RoundTrip.Statement (.patchArmComplete slot) := RoundTrip.no_word rfl
theorem RoundTrip.drainComplete (slot : Nat) : RoundTrip.Statement (.drainComplete slot) := RoundTrip.no_word rfl
theorem RoundTrip.registerWrite (offset : Nat) (value : BitVec 32) : RoundTrip.Statement (.registerWrite offset value) := RoundTrip.no_word rfl
theorem RoundTrip.pwrceilWrite (value : BitVec 32) : RoundTrip.Statement (.pwrceilWrite value) := RoundTrip.no_word rfl
theorem RoundTrip.splitWrite (value : BitVec 32) : RoundTrip.Statement (.splitWrite value) := RoundTrip.no_word rfl
theorem RoundTrip.discovery : RoundTrip.Statement (.discovery) := RoundTrip.no_word rfl
theorem RoundTrip.selfTestReport : RoundTrip.Statement (.selfTestReport) := RoundTrip.no_word rfl
theorem RoundTrip.memoryReport : RoundTrip.Statement (.memoryReport) := RoundTrip.no_word rfl
theorem RoundTrip.stopCommand : RoundTrip.Statement (.stopCommand) := RoundTrip.no_word rfl
theorem RoundTrip.saveCommand : RoundTrip.Statement (.saveCommand) := RoundTrip.no_word rfl
theorem RoundTrip.resumeCommand : RoundTrip.Statement (.resumeCommand) := RoundTrip.no_word rfl
theorem RoundTrip.preEmptCommand : RoundTrip.Statement (.preEmptCommand) := RoundTrip.no_word rfl
theorem RoundTrip.move : RoundTrip.Statement (.move) := RoundTrip.no_word rfl
theorem RoundTrip.kill : RoundTrip.Statement (.kill) := RoundTrip.no_word rfl
theorem RoundTrip.release : RoundTrip.Statement (.release) := RoundTrip.no_word rfl
theorem RoundTrip.contextStatus : RoundTrip.Statement (.contextStatus) := RoundTrip.no_word rfl
theorem RoundTrip.createContext : RoundTrip.Statement (.createContext) := RoundTrip.no_word rfl
theorem RoundTrip.loadCodeObject : RoundTrip.Statement (.loadCodeObject) := RoundTrip.no_word rfl
theorem RoundTrip.setAllowedCoreSet : RoundTrip.Statement (.setAllowedCoreSet) := RoundTrip.no_word rfl
theorem RoundTrip.writeAContextControlWord : RoundTrip.Statement (.writeAContextControlWord) := RoundTrip.no_word rfl
theorem RoundTrip.verifyStencilImage : RoundTrip.Statement (.verifyStencilImage) := RoundTrip.no_word rfl
theorem RoundTrip.enrolOperatorKey : RoundTrip.Statement (.enrolOperatorKey) := RoundTrip.no_word rfl
theorem RoundTrip.keyStatus : RoundTrip.Statement (.keyStatus) := RoundTrip.no_word rfl
theorem RoundTrip.portStatus : RoundTrip.Statement (.portStatus) := RoundTrip.no_word rfl
theorem RoundTrip.fenceScaleUpPort : RoundTrip.Statement (.fenceScaleUpPort) := RoundTrip.no_word rfl
theorem RoundTrip.unfenceScaleUpPort : RoundTrip.Statement (.unfenceScaleUpPort) := RoundTrip.no_word rfl
theorem RoundTrip.domainConfiguration : RoundTrip.Statement (.domainConfiguration) := RoundTrip.no_word rfl
theorem RoundTrip.verifyTimeout (slot : Nat) : RoundTrip.Statement (.verifyTimeout slot) := RoundTrip.no_word rfl
theorem RoundTrip.triageTimeout (die : Nat) : RoundTrip.Statement (.triageTimeout die) := RoundTrip.no_word rfl
theorem RoundTrip.unknownMailboxCommand : RoundTrip.Statement (.unknownMailboxCommand) := RoundTrip.no_word rfl
theorem RoundTrip.standbyFailure : RoundTrip.Statement (.standbyFailure) := RoundTrip.no_word rfl

end Sys2Proof.Laws
end

