-- ==== Sys2Proof/Laws/Words.lean ====
section
/-! SUPPORT. The computing words by form: a meaning written over `unary`, `binary` or `ternary` writes its function of the operands
where it runs; and the other forms over `runWord`. -/

namespace Sys2Proof.Machine

theorem unary_of {i : Instr} {c u : Bool} {d a : Nat} {tag : Tag} {f g : Word → Word} (he : ∀ s, exec i s = unary i u d a tag g s)
    (hc : (opInfo i).c = c) (hfg : ∀ x, g x = f x) : Unary i c u d a tag f := by
  obtain rfl : g = f := funext hfg
  exact does_of_runWord (check := noCheck) he hc (fun _ _ _ _ => rfl)

theorem binary_of {i : Instr} {c u : Bool} {d a b : Nat} {tag : Tag} {f g : Word → Word → Word}
    (he : ∀ s, exec i s = binary i u d a b tag g s) (hc : (opInfo i).c = c) (hfg : ∀ x y, g x y = f x y) : Binary i c u d a b tag f := by
  obtain rfl : g = f := funext fun x => funext (hfg x)
  exact does_of_runWord (check := noCheck) he hc (fun _ _ _ _ => rfl)

theorem ternary_of {i : Instr} {c u : Bool} {d a b : Nat} {tag : Tag} {f g : Word → Word → Word → Word}
    (he : ∀ s, exec i s = ternary i u d a b tag g s) (hc : (opInfo i).c = c) (hfg : ∀ z x y, g z x y = f z x y) :
    Ternary i c u d a b tag f := by
  obtain rfl : g = f := funext fun z => funext fun x => funext (hfg z x)
  exact does_of_runWord (check := noCheck) he hc (fun _ _ _ _ => rfl)

theorem predicate_of {i : Instr} {c u : Bool} {d : Nat} {f g : Chip → Nat → Bool} (he : ∀ s, exec i s = predicate i u d g s)
    (hc : (opInfo i).c = c) (hfg : ∀ pre l, g pre l = f pre l) : Predicate i c u d f := by
  obtain rfl : g = f := funext fun pre => funext (hfg pre)
  exact does_of_runWord (check := noCheck) he hc (fun _ _ _ _ => rfl)

/-- A word without a check of its own whose effect is written in another way. -/
theorem does_of_noCheck {i : Instr} {c : Bool} {act act' : Act} (he : ∀ s, exec i s = runWord i noCheck act' s)
    (hc : (opInfo i).c = c) (ha : act' = act) : Does i c always act := by
  subst ha
  exact does_of_runWord he hc (fun _ _ _ _ => rfl)

/-- Two effects of a form with one result in each thread are one where their functions are. -/
theorem perThread_congr {u : Bool} {f g : Chip → Nat → Nat → Chip → Chip} (h : ∀ pre l t m, f pre l t m = g pre l t m) :
    perThread u f = perThread u g := by
  obtain rfl : f = g := funext fun pre => funext fun l => funext fun t => funext (h pre l t)
  rfl

end Sys2Proof.Machine
end

