-- ==== Sys2Proof/Tests/Slice0.lean ====
section
/-! SUPPORT. Tests: words written out from the encodings of the spec decode to the instructions they stand for, `wellFormed` refuses a
term for each of its checks, every statement with hypotheses has states and operands that meet them, and single steps give the
manual's worked values. -/

set_option Elab.async false

namespace Sys2Proof.Tests

open Sys2Proof Sys2Proof.Machine

/-! Words of the manual. -/

/-- 03, the worked packet. -/
theorem test_decode_iadd : decodeWord 0x8100C082#32 = .ok (.iadd true false 3 1 2) := by decide +kernel
/-- 03, the worked packet. -/
theorem test_decode_fmul : decodeWord 0x98414307#32 = .ok (.fmul true false 5 6 7) := by decide +kernel
/-- 03, the worked packet. -/
theorem test_decode_ld : decodeWord 0x2C208141#32 = .ok (.ld false false 0 4 8 5 1) := by decide +kernel
/-- 03 R49, the worked branch. -/
theorem test_decode_brm : decodeWord 0x2051A000#32 = .ok (.brm false 1 1 1 10 0 0) := by decide +kernel
/-- 05, the worked addresses. -/
theorem test_decode_imadw : decodeWord 0x03808205#32 = .ok (.imadwN32 false false 1 4 5) := by decide +kernel
/-- 05 R103. -/
theorem test_decode_shfi : decodeWord 0x0C081102#32 = .ok (.shfi false false 4 4 1 2) := by decide +kernel
/-- 05 R107. -/
theorem test_decode_isetp : decodeWord 0x1348C082#32 = .ok (.isetp false false 2 2 3 1 2) := by decide +kernel
/-- 06 R116. -/
theorem test_decode_fma : decodeWord 0x19028103#32 = .ok (.fma false false 10 2 3) := by decide +kernel
/-- 22, the worked patch. -/
theorem test_decode_fsqrta : decodeWord 0x1A40C380#32 = .ok (.fsqrta false false 3 7) := by decide +kernel
/-- 22, the worked patch. -/
theorem test_decode_fsqrt : decodeWord 0x1B20C380#32 = .ok (.fsqrt false false 3 7) := by decide +kernel
/-- 06 R124. -/
theorem test_decode_cvt : decodeWord 0x1C804091#32 = .ok (.cvt false false 1 0 1 1 0x11) := by decide +kernel
/-- 06 R128. -/
theorem test_decode_dot4ps8 : decodeWord 0x1E620205#32 = .ok (.dot4Ps8 false false 8 4 5) := by decide +kernel
/-- 07 R155. -/
theorem test_decode_nop : decodeWord 0x25000000#32 = .ok (.nop false) := by decide +kernel
/-- 07, the worked scan. -/
theorem test_decode_shfl : decodeWord 0x26414301#32 = .ok (.shflUp false 5 6 1) := by decide +kernel
/-- 13 R283. -/
theorem test_decode_barSync : decodeWord 0x29000003#32 = .ok (.barSync false 3) := by decide +kernel
/-- 13 R283. -/
theorem test_decode_barSet : decodeWord 0x29071205#32 = .ok (.barSet false 9 5) := by decide +kernel
/-- 13 R283. -/
theorem test_decode_gsync : decodeWord 0x29050001#32 = .ok (.gsync false 1) := by decide +kernel
/-- 13 R295. -/
theorem test_decode_waitGe : decodeWord 0x2A414106#32 = .ok (.waitGe false 5 1 6) := by decide +kernel
/-- 13 R295. -/
theorem test_decode_watch : decodeWord 0x2A614100#32 = .ok (.watch false 5 1) := by decide +kernel
/-- 11 R243. -/
theorem test_decode_st : decodeWord 0x2D206042#32 = .ok (.st false false 0 4 6 1 2) := by decide +kernel
/-- 11 R243. -/
theorem test_decode_lds : decodeWord 0x2E605082#32 = .ok (.lds false false 1 4 5 4 2) := by decide +kernel
/-- 11 R244. -/
theorem test_decode_atomAdd : decodeWord 0x31018445#32 = .ok (.atomAdd false false 0 0 3 1 1 5) := by decide +kernel
/-- 11 R248. -/
theorem test_decode_cas : decodeWord 0x32259046#32 = .ok (.atomxCas false false 0 1 3 4 1 6) := by decide +kernel
/-- 11 R248. -/
theorem test_decode_stl : decodeWord 0x33298046#32 = .ok (.stl false false 0 3 1 6) := by decide +kernel
/-- 11 R248. -/
theorem test_decode_fence : decodeWord 0x33498000#32 = .ok (.fence false false 2 3) := by decide +kernel
/-- 14 R306. -/
theorem test_decode_cpyG2s : decodeWord 0x36210080#32 = .ok (.cpyG2s false 2 8 1) := by decide +kernel
/-- 14 R310. -/
theorem test_decode_cpyFlag : decodeWord 0x3700060D#32 = .ok (.cpyFlag false 12 13) := by decide +kernel
/-- 14 R310. -/
theorem test_decode_cpyCommit : decodeWord 0x37250002#32 = .ok (.cpyCommit false 20 2) := by decide +kernel
/-- 14 R312. -/
theorem test_decode_cntrd : decodeWord 0x37A24000#32 = .ok (.cntrd false 9) := by decide +kernel
/-- 14 R312. -/
theorem test_decode_waitc : decodeWord 0x38FFF03F#32 = .ok (.waitc false 63 63 0 63) := by decide +kernel
/-- 15 R343. -/
theorem test_decode_mxIssue : decodeWord 0x39050080#32 = .ok (.mxIssue false 20 1) := by decide +kernel
/-- 15 R343. -/
theorem test_decode_mxReady : decodeWord 0x39255001#32 = .ok (.mxReady false 21 4 1) := by decide +kernel
/-- 15 R347. -/
theorem test_decode_plRd : decodeWord 0x3A424280#32 = .ok (.plRd false 9 5 0) := by decide +kernel
/-- 15 R350. -/
theorem test_decode_tcvt : decodeWord 0x3B4402A2#32 = .ok (.tcvt false 2 5 0 1 0 2) := by decide +kernel
/-- 16 R358. -/
theorem test_decode_qpop : decodeWord 0x3C824000#32 = .ok (.qpop false 9 0) := by decide +kernel
/-- 16 R358. -/
theorem test_decode_plwLoop : decodeWord 0x3C004300#32 = .ok (.plwLoop false 1 6) := by decide +kernel
/-- 09, the worked launch. -/
theorem test_decode_launch : decodeWord 0x3D028206#32 = .ok (.launch false 10 2 3) := by decide +kernel
/-- 19, the worked handler. -/
theorem test_decode_ecall : decodeWord 0x3E030405#32 = .ok (.ecall false 2 5) := by decide +kernel
/-- 19, the worked handler. -/
theorem test_decode_srd : decodeWord 0x3E002901#32 = .ok (.srd false 20 0x101) := by decide +kernel
/-- 22, the worked patch. -/
theorem test_decode_patchArm : decodeWord 0x3E210009#32 = .ok (.patchArm false 9) := by decide +kernel
/-- 23 R479. -/
theorem test_decode_pstateSet : decodeWord 0x3E300802#32 = .ok (.pstateSet false 4 2) := by decide +kernel
/-- By hand from 03 R43 and R50: major 0x04 fn 0, d 1, a 2, b 3. -/
theorem test_decode_and : decodeWord 0x04004103#32 = .ok (.and false false 1 2 3) := by decide +kernel
/-- By hand from 03 R43 and R50: major 0x05 fn 6, d 1, a 2. -/
theorem test_decode_brev : decodeWord 0x05C04100#32 = .ok (.brev false false 1 2) := by decide +kernel
/-- By hand from 03 R43 and R50: major 0x06 fn 2, d 1, a 2, b 3. -/
theorem test_decode_bfi : decodeWord 0x06404103#32 = .ok (.bfi false false 1 2 3) := by decide +kernel
/-- By hand from 03 R43 and R50: major 0x0E, d 2, a 2, imm10 0x3F8. -/
theorem test_decode_leai : decodeWord 0x0E040BF8#32 = .ok (.leai false false 1 1 0x3F8) := by decide +kernel

/-! What `wellFormed` refuses, a term for each check. -/

/-- An event has no word. -/
theorem test_illformed_event : wellFormed .tick = false := by decide +kernel
/-- 03 R51: selector 0x7F of CVT is not listed. -/
theorem test_illformed_selector : wellFormed (.cvt false false 0 0 1 2 0x7F) = false := by decide +kernel
/-- 03 R47: scope 6. -/
theorem test_illformed_reserved : wellFormed (.fence false false 2 6) = false := by decide +kernel
/-- 03 R45: with w = 1 the data register of an atomic is a pair. -/
theorem test_illformed_misaligned : wellFormed (.atomAdd false false 1 0 3 1 1 2) = false := by decide +kernel
/-- 03 R46: a branch of one pair has no second pair. -/
theorem test_illformed_unused : wellFormed (.brm false 0 1 1 10 0 0) = false := by decide +kernel
theorem test_wellformed : wellFormed (.brm false 1 1 1 10 0 0) = true := by decide +kernel

/-! Witnesses of O1 to O3. -/

theorem witness_WordRoundTrip : wellFormed (.iadd true true 127 0 127) = true := by decide +kernel
theorem witness_DecodedWordsEncode : decodeWord 0xFFFFFFFF#32 ≠ .ok .tick ∧ decodeWord 0x01007F83#32 = .ok (.iadd false false 1 127 3) := by decide +kernel
theorem witness_SampleWordsDecode : fieldNat (0x3F000000#32 : Word).toNat 24 6 ∈ [0x00, 0x07, 0x0F, 0x1F, 0x28, 0x2B, 0x35, 0x3F] := by decide +kernel

/-! Witnesses: for every statement, states and operands that meet the hypotheses of its clauses together. The state is the one in
which a thread of user level stands before an open chain, with the changes that a clause asks for. -/

/-- A thread before its chain, with a change of the machine. -/
def started (f : Chip → Chip) : State :=
  let s := State.reset.withFetchWord 32 0
  { s with now := f s.now }

/-- Register `r` of the thread holds `v`. -/
def put (r v : Nat) (c : Chip) : Chip := c.setReg 32 r { bits := BitVec.ofNat 32 v }
def thread (f : Thread → Thread) (c : Chip) : Chip := c.setThread 32 (f (c.thread 32))
def team (f : Team → Team) (c : Chip) : Chip := c.setTeam 1 (f (c.team 1))
def ctx (f : Ctx → Ctx) (c : Chip) : Chip := c.setCtx 1 (f (c.ctx 1))
/-- The thread's level. -/
def lvl (l : Level) : Chip → Chip := thread (fun t => { t with level := l })
/-- A grant of the first word of the chain. -/
def given (g : Grant) : Chip → Chip := thread (fun t => { t with grants := [(0, g)] })
/-- A cached page at 0x20000, with the state and the permissions of its entry. -/
def paged (state perm : Nat) (c : Chip) : Chip :=
  c.setCore 0 { c.core 0 with tlb := { ctx := 1, page := 2, span := 1, entry := BitVec.ofNat 64 (0x20000 + 256 * state + perm) } :: (c.core 0).tlb }
/-- Team-local memory, plates and barriers. -/
def roomy : Chip → Chip := team (fun k => { k with spad := 4096, plates := 2, barriers := 4, map := [(0, 0), (1, 1)] })
/-- The team's plate 0 owned at user level. -/
def plated (c : Chip) : Chip := (roomy c).onPlate 1 0 (fun p => { p with owner := some { ctx := 1, level := .user, team := 1, entry := 0 } })
def st0 : State := started id

def theIssue (s : State) : Issue := s.issue.getD { members := [], pc := 0 }

/-- What `Runs` and `Fails` ask of the one thread, but for the word's own condition. -/
def meets (i : Instr) (s : State) : Bool :=
  let e := s.before
  let o := opInfo i
  let regs := (e.now.team (e.now.teamOf 32)).regs
  s.issue.isSome && decide ((theIssue s).members = [32]) && decide ((theIssue s).live = [32]) && decide (wordLead e 32 i = 32) &&
    decide (o.least ≤ (e.now.thread 32).level.code) && o.srcs.all (fun x => decide (x.reg < regs)) && o.dests.all (fun d => decide (d < regs)) &&
    o.srcs.all (fun x => !x.read e.now 32 || (x.tagOk e.now 32 && x.ready e.now 32 && (e.now.reg 32 x.reg).poison.isNone)) &&
    o.dests.all (fun d => destReady e.now 32 d) && memReady e.now 32 o && !stalled e 32 && !blocked e 32 i && (pairCheck i e.now 32 (theIssue s).slot).isNone

theorem meets_spec {i : Instr} {s : State} (h : meets i s = true) :
    s.issue = some (theIssue s) ∧ (theIssue s).members = [32] ∧ (theIssue s).live ≠ [] ∧ wordLead s.before 32 i = 32 ∧ CanRun s.before 32 32 (opInfo i) ∧
      blocked s.before 32 i = false ∧ pairCheck i s.before.now 32 (theIssue s).slot = none := by
  simp only [meets, Bool.and_eq_true, decide_eq_true_eq, List.all_eq_true, Bool.or_eq_true, Bool.not_eq_true', Option.isNone_iff_eq_none] at h
  obtain ⟨⟨⟨⟨⟨⟨⟨⟨⟨⟨⟨⟨h1, h2⟩, h3⟩, h4⟩, h5⟩, h6⟩, h7⟩, h8⟩, h9⟩, h10⟩, h11⟩, h12⟩, h13⟩ := h
  refine ⟨?_, h2, by rw [h3]; simp, h4, ⟨h5, h6, h7, fun x hx hr => ?_, h9, h10, h11⟩, h12, h13⟩
  · obtain ⟨x, hx⟩ := Option.isSome_iff_exists.mp h1
    simp [theIssue, hx]
  · rcases h8 x hx with h | h
    · rw [hr] at h; exact absurd h (by decide)
    · exact ⟨h.1.1, h.1.2, h.2⟩

/-- The hypothesis of `Does` and `Jumps`. -/
theorem runs_of {i : Instr} {s : State} {own : State → Nat → Prop} (h : meets i s = true) (ho : own s.before 32) : Runs i own s (theIssue s) := by
  obtain ⟨h1, h2, h3, h4, h5, h6, h7⟩ := meets_spec h
  refine ⟨h1, h3, fun t ht _ => ?_⟩
  rw [h2, List.mem_singleton] at ht
  subst ht
  rw [h4]
  exact ⟨h5, h6, h7, ho⟩

/-- The hypotheses of `Fails`. -/
def FailsAt (i : Instr) (own : State → Nat → Prop) (s : State) : Prop :=
  s.issue = some (theIssue s) ∧ ∀ t ∈ (theIssue s).members, (theIssue s).Undecided t →
    CanRun s.before t (wordLead s.before t i) (opInfo i) ∧ blocked s.before t i = false ∧ own s.before (wordLead s.before t i)

theorem fails_of {i : Instr} {s : State} {own : State → Nat → Prop} (h : meets i s = true) (ho : own s.before 32) : FailsAt i own s := by
  obtain ⟨h1, h2, -, h4, h5, h6, -⟩ := meets_spec h
  refine ⟨h1, fun t ht _ => ?_⟩
  rw [h2, List.mem_singleton] at ht
  subst ht
  rw [h4]
  exact ⟨h5, h6, ho⟩

/-- Every word of the list runs in the state. -/
def allMeet (l : List Instr) (s : State) : Bool := l.all (fun i => meets i s)

theorem witness_IntegerWords : allMeet [.iadd true false 1 2 3, .isub false true 1 1 3, .iminS32 false false 127 2 3, .imaxS32 false false 0 2 3,
  .iminN32 false false 1 2 3, .imaxN32 false false 1 2 3, .iabsd false false 1 2 3, .ineg false false 1 2, .imul false false 1 2 3,
  .imulhS32 false false 1 2 3, .imulhN32 false false 1 2 3, .imad false false 1 2 3, .idivS32 false false 1 2 3, .idivN32 false false 1 2 3,
  .iremS32 false false 1 2 3, .iremN32 false false 1 2 3] st0 = true := by decide +kernel
theorem witness_PairWords : allMeet [.iaddD false false 1 2 3, .isubD false false 63 2 3, .imulD false true 1 2 3, .imadwS32 true false 1 2 3,
  .imadwN32 false false 1 2 3, .shlD false false 1 2 3, .shrD false false 1 2 3, .sarD false false 1 2 3] st0 = true := by decide +kernel
theorem witness_LogicWords : allMeet [.and false false 1 2 3, .or false false 1 2 3, .xor false false 1 2 3, .andn false false 1 2 3,
  .orn false false 1 2 3, .xnor false false 1 2 3, .not false false 1 2, .mov true true 1 2, .shl false false 1 2 3, .shr false false 1 2 3,
  .sar false false 1 2 3, .rotl false false 1 2 3, .popc false false 1 2, .clz false false 1 2, .brev false false 1 2,
  .ffs false false 1 2] st0 = true := by decide +kernel
theorem witness_BitCounts : (∀ k < 31, (0x80000000 : Word).getLsbD k = false) ∧ (0x80000000 : Word).getLsbD 31 = true := by decide +kernel
theorem witness_FieldWords : allMeet [.bfxS32 false false 1 2 3, .bfxN32 false false 1 2 3, .bfi false false 1 2 3, .perm false false 1 2 3,
  .shf false false 1 2 3, .iaddsS32 false false 1 2 3, .isubsS32 false false 1 2 3, .iaddsN32 true true 1 2 3] st0 = true := by decide +kernel
theorem witness_FieldBits : fieldLen 0 = 0 ∧ fieldLen 0x201F = 32 ∧ fieldPos 0x201F = 31 ∧ fieldLen 0x0100 = 1 := by decide +kernel
theorem witness_ImmediateWords : allMeet [.iaddi true false 1 2 0x3FF, .andi false false 1 2 0, .ori false true 1 2 1, .xori false false 1 2 1,
  .imuli false false 1 2 1, .shfi false false 1 2 3 63, .leai false false 1 2 0x200, .movi false false 1 0, .movhi false false 1 0x1FFFF,
  .kld false false 1 1023] st0 = true := by decide +kernel
theorem witness_PredicateWords : allMeet [.isetp false false 7 3 7 1 2, .fsetp false false 0 0 0 1 2, .pand false false 1 2 3, .por false false 1 2 3,
  .pxor false false 1 2 3, .pnot false false 1 2, .pset true true 1 1, .p2v false false 1, .v2p false false 1, .selp false false 1 2 3 0] st0 = true ∧
  ((f32 0x7F800001).isNan || (f32 0).isNan) = true ∧ ((f32 0x7F800000).isNan || (f32 0x80000000).isNan) = false := by decide +kernel
theorem witness_MaskWords : allMeet [.mand false false 1 2 3, .mor false false 1 2 3, .mxor false false 15 0 3, .mnot false false 1 2,
  .mfromv false false 1 127, .mself false false 1, .mtov false false 1 2, .mpopc true true 1 2] st0 = true := by decide +kernel
theorem witness_FloatWords : allMeet [.fadd false false 1 2 3, .fsub false false 1 2 3, .fmul false false 1 2 3, .fdiv false false 1 2 3,
  .fsqrt false false 1 2, .fmin false false 1 2 3, .fmax false false 1 2 3, .fabs false false 1 2, .fneg false false 1 2, .fcpsgn false false 1 2 3,
  .fma false false 1 2 3, .fms false false 1 2 3, .fnma false false 1 2 3, .fnms false false 1 2 3, .frcp false false 1 2, .frsq false false 1 2,
  .fsqrta false false 1 2, .fex2 false false 1 2, .flg2 false false 1 2, .fsinp false false 1 2, .fcosp false false 1 2, .ftanh false false 1 2,
  .frintRn false false 1 2, .frintRz false false 1 2, .frintRd false false 1 2, .frintRu false false 1 2, .fclass false false 1 2,
  .fscalb true true 1 2 3] st0 = true := by decide +kernel
/-- The registers of the packed words hold the tag each asks for. -/
def tagged (t : Tag) : State := started (fun c => (c.setReg 32 2 { bits := 0, tag := t }).setReg 32 3 { bits := 0, tag := t })
theorem witness_PackedWords : allMeet [.cvt false false 1 0 1 2 0x11, .pkbf false false 1 2 3, .pke4Lo false false 1 2 3, .pke5Lo false false 1 2 3,
    .pkpsLo false false 1 2 3] st0 = true ∧
  meets (.pke4Hi false false 2 4 5) (tagged tagE4m3) = true ∧ meets (.pke5Hi false false 2 4 5) (tagged tagE5m2) = true ∧
  meets (.pkpsHi false false 2 4 5) (tagged tagPs8) = true ∧ meets (.unpk false false 1 2 3) (tagged tagBf16) = true ∧
  allMeet [.dot2Bf16 false false 1 2 3, .hadd2Bf16 false false 1 2 3, .hmul2Bf16 true true 1 2 3] (tagged tagBf16) = true ∧
  meets (.dot4E4m3 false false 1 2 3) (tagged tagE4m3) = true ∧ meets (.dot4E5m2 false false 1 2 3) (tagged tagE5m2) = true ∧
  meets (.dot4Ps8 false false 1 2 3) (tagged tagPs8) = true ∧ meets (.dot4S8 false false 1 2 3) (tagged tagS8) = true ∧
  meets (.dot4N8 false false 1 2 3) (tagged tagN8) = true := by decide +kernel
theorem witness_FloatRoundTrip : (f32 0x7F800000).isNan = false ∧ (f32 0xFF800001).isNan = true := by decide +kernel

/-- The pair at register 2 holds an address, in a state. -/
def addressed (v : Nat) : Chip → Chip := fun c => put 3 (v / 2 ^ 32) (put 2 v c)

theorem witness_TransferWords :
    (meets (.brm false 1 2 8 0 0 0) (started (thread (fun t => { t with preds := 1 }))) = true ∧
      branchTaken (started (thread (fun t => { t with preds := 1 }))).before.now 32 1 [8, 0, 0, 0] ≠ none) ∧
    allMeet [.jmp true 0x10000, .call false 63 0, .exit] st0 = true ∧
    (∀ i ∈ [Instr.jmpr 1, .callr 0 1, .ret 1], meets i (started (addressed 0x10000)) = true) ∧
    goodTarget (fun m l => m.vv l 2) (started (addressed 0x10000)) 32 ∧
    ∃ (iss : Issue) (code : Fetched) (w : ChainWord), ({ st0 with issue := some iss } : State).issue = some iss ∧ iss.code = some code ∧
      code.words[0]? = some w ∧ code.targets = [0x21003FFE, 0x21000000] := by
  refine ⟨by decide +kernel, by decide +kernel, by decide +kernel, by unfold goodTarget openTarget; decide +kernel, ?_⟩
  exact ⟨{ members := [32], pc := 0x10000, code := some { words := [{ instr := .nop false, raw := 0x25000000, slot := 2 }], targets := [0x21003FFE, 0x21000000] } },
    { words := [{ instr := .nop false, raw := 0x25000000, slot := 2 }], targets := [0x21003FFE, 0x21000000] }, _, rfl, rfl, rfl, rfl⟩
theorem witness_TrappingWords : allMeet [.trap true 127, .bkpt false, .tgt 3 0xFFE, .brm false 1 2 0 0 0 0] st0 = true ∧
    branchTaken st0.before.now 32 1 [0, 0, 0, 0] = none ∧
    (∀ i ∈ [Instr.jmpr 1, .callr 0 1, .ret 1], meets i (started (addressed 0x10002)) = true) ∧
    (badTarget st0.before st0.now 0 1 .user 0x10002).isSome = true := by decide +kernel
/-- A code region at 0x20000 whose page migrates; the pair at register 2 names its second word. -/
def away : Chip → Chip := fun c => paged 2 0x7F (ctx (fun x => { x with regions := [{ base := 0x20000, len := 12 }] ++ x.regions }) (addressed 0x20004 c))
theorem witness_TrappingWords_held :
    (∀ i ∈ [Instr.jmpr 1, .callr 0 1, .ret 1], meets i (started away) = true) ∧ ((started away).now.vv 32 2) = 0x20004 ∧
    badTarget (started away).before (started away).now 0 1 .user 0x20004 = none ∧
    targetHeld (started away).before (started away).now 0 1 .user 0x20004 = some 0x20000 := by decide +kernel
/-- The context's trap vector. -/
def vector (v : Nat) : Chip → Chip := ctx (fun x => { x with trapvec := BitVec.ofNat 64 v })
theorem witness_TrappingWords_enter :
    let s := started (vector 0x10004)
    allMeet [.bkpt false, .tgt 0 0] s = true ∧ s.issue = some (theIssue s) ∧ (theIssue s).members = [32] ∧ (theIssue s).dead = [] ∧
    (s.before.now.thread 32).present = true ∧ (s.before.now.thread 32).place = .pen 0 ∧ (s.before.now.thread 32).patched = none ∧
    (s.before.now.thread 32).level ≠ .firmware ∧ trapRefused s.before s.before.now 32 (theIssue s).pc = false ∧ s.before.now.slots = [] := by decide +kernel
/-- BKPT's own effect: the thread stands at the trap vector, at supervisor level, the cause in TRAPCAUSE (07 R154, 19 R425). -/
theorem test_bkpt_enters :
    (match exec (.bkpt false) (started (vector 0x10004)) with
      | .next t => let y := t.now.thread 32
        decide (y.level = .supervisor) && decide (y.pc = 0x10004) && decide (y.trap.cause = 0x10) && decide (y.trap.pc = 0x10000)
      | _ => false) = true := by decide +kernel
theorem witness_PacingWords : allMeet [.nop true, .pause false 1, .yield false, .ffence false, .clkrd true 63] st0 = true ∧
    meets (.resume false) (started (thread (fun t => { t with cont := true, fpc := 0x10000 }))) = true ∧
    badTarget st0.before st0.now 0 1 .user 0x10000 = none ∧ meets (.resume true) st0 = true ∧ (st0.now.thread 32).cont = false := by decide +kernel
/-- A core whose bins are all taken by another entry. -/
def binsTaken : State := started (fun c => c.setCore 0 { c.core 0 with bins := (List.range Config.bins).map (fun i => (i, ({ team := 1, entry := 0x10004 } : Bin))) })
theorem witness_SpawnWords : allMeet [.spawn true 1 1 3, .spawnf false 127 63 0] st0 = true ∧
    (∀ p ∈ (binsTaken.now.core 0).bins, p.2.opens 1 0x10000 = false) ∧
    (∀ i < Config.bins, (Sparse.find? (binsTaken.now.core 0).bins i).isSome = true) ∧ (0x10001 : Addr).toNat % 4 ≠ 0 ∧
    2 ^ 55 ≤ (0x80000000000000 : Addr).toNat ∧ (0x7FFFFFFFFFFFFC : Addr).toNat % 4 = 0 := by decide +kernel
theorem witness_SpawnWords_place :
    (∀ s ∈ [started (addressed 0x10000), started (fun c => c.setCore 0 { c.core 0 with bins := [(3, { team := 1, entry := 0x10000, timer := 5 })] } |> addressed 0x10000)],
      allMeet [.spawn true 1 1 9, .spawnf false 127 1 9] s = true ∧ (theIssue s).members = [32] ∧ (theIssue s).dead = [] ∧ s.before.now.visible 32 = true ∧
      (s.before.now.vv 32 2).toNat = 0x10000) ∧
    ((started (addressed 0x10000)).now.core 0).bins = [] ∧ 0 < Config.bins ∧
    List.find? (fun p : Nat × Bin => p.2.opens 1 0x10000) [(3, { team := 1, entry := 0x10000, timer := 5 })] = some (3, { team := 1, entry := 0x10000, timer := 5 }) := by decide +kernel
/-- SPAWN into a free bin: status 0, and the argument with the spawner's level in the bin (07 R151). -/
theorem test_spawn_places :
    (match exec (.spawn true 1 1 9) (started (fun c => put 9 7 (addressed 0x10000 c))) with
      | .next t => (t.now.v 32 1, ((t.now.core 0).bins).map (fun p => (p.1, p.2.entry, p.2.args)))
      | _ => (9, [])) = (0, [(0, 0x10000, [(7, .user)])]) := by decide +kernel
/-- The thread's mask 1 names its own lane. -/
def masked : Chip → Chip := fun c => c.setGroup 1 { c.group 1 with masks := [(1, 1)] }
theorem witness_CollectiveWords : ∀ s ∈ [st0, started masked, started (fun c => given (.value 7 tagInt) (masked c))],
    allMeet [.shflIdx true 1 2 1, .shflXor false 1 2 1, .shflUp false 1 2 1, .shflDn false 1 2 1, .voteAll false 1 0 2 1, .voteAny false 1 1 2 1,
      .ballot false 1 0 2 1, .matchLanes false 1 2 1, .radd false 1 2 1, .rminS32 false 1 2 1, .rmaxS32 false 1 2 1, .rminN32 false 1 2 1,
      .rand false 1 2 1, .ror false 1 2 1, .rxor false 1 2 1, .rfadd false 1 2 1, .ttrn false 1 1 1] s = true := by decide +kernel
theorem witness_CollectiveWords_lanes : (st0.before.now.readM 1 1).getLsbD (st0.before.now.laneBit 32) = false ∧
    ((started masked).before.now.readM 1 1).getLsbD 0 = true ∧ (started masked).before.grantOf 32 = none ∧
    ((started (given .go)).before.grantOf 32).isSome = true := by decide +kernel
theorem witness_CollectiveResults : [32].filter st0.now.visible = [32] ∧ st0.now.laneBit 32 < 32 ∧ partOn st0.now [32] (-1) = none := by decide +kernel
/-- The thread has arrived at barrier 3. -/
def arrived : Chip → Chip := fun c => team (fun k => { k with bars := [(3, { arrived := [32] })] }) (roomy c)
theorem witness_NamedBarrierWords :
    (∀ s ∈ [st0, started roomy, started arrived, started (fun c => given .go (roomy c))],
      allMeet [.barSync true 3, .barArv false 1 3, .barWait false 1 3, .barTest false 1 3, .barSet false 1 3] s = true) ∧
    (st0.before.now.team 1).barriers ≤ 3 ∧ 3 < ((started roomy).before.now.team 1).barriers ∧ (started roomy).before.grantOf 32 = none ∧
    32 ∉ ((started roomy).before.now.bar 32 3).arrived ∧ 32 ∈ ((started arrived).before.now.bar 32 3).arrived ∧
    ((started roomy).before.now.bar 32 3).phase = (started roomy).before.now.v 32 1 ∧
    ((started (put 1 5)).before.now.bar 32 3).phase ≠ (started (put 1 5)).before.now.v 32 1 := by decide +kernel
/-- The team's grid is co-resident. -/
def grid : Chip → Chip := fun c => c.setLaunch 1 { c.launch 1 with coresident := true }
theorem witness_WideBarrierWords : (∀ s ∈ [st0, started grid, started (fun c => given .go (grid c)), started masked],
      allMeet [.barClu true, .barGrid false, .gsync false 1] s = true) ∧
    ((started grid).before.now.launch 1).coresident = true ∧ (st0.before.now.launch 1).coresident = false ∧
    ((started (given .go)).before.grantOf 32).isSome = true ∧ ((started masked).before.now.readM 1 1).getLsbD 0 = true := by decide +kernel
theorem witness_BarrierCompletion :
    let m := (started arrived).now
    m.waiters (fun i r => decide (m.teamOf i = 1) && (match r.kind with | .barrier k _ => decide (k = 3) | _ => false)) = [] ∧
    (m.team 1).rollback = false ∧ (∀ t ∈ m.counted [1], t ∈ [32]) ∧ m.visible 32 = true ∧ ¬ (2 ≤ ([32].filter m.visible).length) := by decide +kernel

/-- The pair at register 2 holds an address, of a page that may be read and written. -/
def near (v : Nat) : Chip → Chip := fun c => paged 0 0x7F (addressed v c)
theorem witness_WordWaits_ready :
    let s := started (fun c => put 8 1 (near 0x20000 c))
    allMeet [.waitNe true 1 8 1, .waitEq false 1 9 1, .waitGe false 127 9 1, .watch false 1 1, .wake false 1, .unwatch false 1] s = true ∧
    (∀ slot, watchVerdict s.before 32 slot (s.before.now.vv 32 2) = none) ∧ watchRead s.before s.before.now 32 (s.before.now.vv 32 2) = (0, none) ∧
    watchAway s.before s.before.now 32 0x20000 = false ∧ watchStalls s.before s.before.now 32 0x20000 = false ∧
    s.before.grantOf 32 = none ∧ WaitCond.ne.holds 0 (s.before.now.v 32 8) = true ∧ WaitCond.eq.holds 0 (s.before.now.v 32 9) = true ∧
    WaitCond.eq.holds 0 (s.before.now.v 32 8) = false ∧ WaitCond.ge.holds 0 (s.before.now.v 32 8) = false ∧
    ((started (given (.value 7 tagInt))).before.grantOf 32).isSome = true ∧ meets (.waitNe true 1 8 1) (started (given (.value 7 tagInt))) = true := by
  refine ⟨by decide +kernel, fun _ => rfl, ?_⟩
  decide +kernel
/-- Memory holds the page tables of the context, with one leaf, of the page at 0x20000. -/
def mapped (leaf : Nat) (f : Chip → Chip) : State :=
  { started (fun c => f (ctx (fun x => { x with ptbase := 0x100000 }) c)) with
    mem := Memory.writeN (Memory.writeN (Memory.writeN [] 0x100000 8 0x110001) 0x110000 8 0x120001) 0x120010 8 leaf }
theorem witness_WordWaits_away :
    let s := mapped (0x2007F + 2 * 8192 + 2 ^ 48 * 5) (near 0x20000)
    allMeet [.waitNe true 1 8 1, .waitEq false 1 9 1, .waitGe false 127 9 1, .watch false 1 1] s = true ∧ s.before.grantOf 32 = none ∧
    (∀ slot, watchVerdict s.before 32 slot (s.before.now.vv 32 2) = none) ∧ watchAway s.before s.before.now 32 0x20000 = true := by
  refine ⟨by decide +kernel, by decide +kernel, fun _ => rfl, by decide +kernel⟩
/-- The line's own bank wakes. -/
def waking : Chip → Chip := fun c => c.setDie 0 { state := .waking, banks := List.range Config.slicesPerDie }
theorem witness_WordWaits_stalls :
    let s := started (fun c => waking (near 0x20000 c))
    [0, 1, 2].all (fun slot => (watchVerdict s.before 32 slot 0x20000).isNone) = true ∧ watchAway s.before s.before.now 32 0x20000 = false ∧
    watchStalls s.before s.before.now 32 0x20000 = true := by
  intro s
  have h : watchPlace s.before s.before.now 32 0x20000 = some 0x20000 := by decide +kernel
  have hb : (s.before.now.die 0).banks = List.range Config.slicesPerDie := by decide +kernel
  have hd : dieOfPhys 0x20000 = some 0 := by decide
  refine ⟨by decide +kernel, by decide +kernel, ?_⟩
  simp only [watchStalls, h, Chip.bankWaking, hd, hb]
  simp [watchLocal, Config.slicesPerDie, Nat.mod_lt]
theorem witness_WordWaits_poison :
    let s := started (fun c => near 0x8000000000000000 (team (fun k => { k with spad := 4096, lpoison := [0] }) c))
    allMeet [.waitEq false 9 9 1, .waitNe false 9 9 1, .waitGe false 9 9 1] s = true ∧ (∀ slot, watchVerdict s.before 32 slot (s.before.now.vv 32 2) = none) ∧
    watchRead s.before s.before.now 32 (s.before.now.vv 32 2) = (0, some 3) := by
  refine ⟨by decide +kernel, fun _ => rfl, ?_⟩
  decide +kernel
theorem witness_LoadStoreWords :
    let s := started (fun c => roomy (near 0x2FFF0 c))
    allMeet [.ld true false 0 4 8 1 3, .st false true 2 5 8 1 0, .ldf false false 3 0 8 1 0x1F, .lds false false 0 4 8 9 0, .sts false true 1 4 8 9 0] s = true ∧
    Reachable s.before 32 0x2FFF0 16 true ∧ Reachable s.before 32 0x2FFFC 4 false ∧
    LocalReachable s.before 32 .loc 0 4092 4 false ∧ LocalReachable s.before 32 .rmt 0 0 4 true := by
  refine ⟨by decide +kernel, ⟨by decide, by decide, 0x2FFF0, false, none, by decide +kernel⟩, ⟨by decide, by decide, 0x2FFFC, false, none, by decide +kernel⟩, ?_⟩
  unfold LocalReachable
  decide +kernel
theorem witness_LoadStoreWords_stash :
    let s := started (fun c => team (fun k => { k with spad := 4096, stash := some { first := 3968, lines := 1, base := 0x20000 } }) (near 0x20000 c))
    allMeet [.lds false false 2 4 8 9 0, .sts false false 2 4 8 9 0] s = true ∧ LocalReachable s.before 32 .stash 0 124 4 true := by
  refine ⟨by decide +kernel, by decide, by decide, _, rfl, by decide, fun slot => ?_, by decide, by decide, 0x2007C, false, none, by decide +kernel⟩
  unfold stashTouch
  rfl
theorem witness_AtomicWords :
    let s := started (near 0x2FFF8)
    allMeet [.atomAdd true false 1 3 4 2 1 3, .atomMinS32 false true 0 0 0 31 1 31, .atomMaxS32 false false 0 1 0 4 1 5, .atomMinN32 false false 0 2 0 4 1 5,
      .atomMaxN32 false false 0 0 1 4 1 5, .atomAnd false false 0 0 2 4 1 5, .atomOr false false 0 0 3 4 1 5, .atomXor false false 0 0 4 4 1 5,
      .atomxXchg false false 0 0 0 4 1 5, .atomxCas false false 1 0 0 4 1 8, .atomxIncw false false 0 0 0 4 1 5, .atomxDecw false false 0 0 0 4 1 5,
      .atomxFaddF32 false false 0 0 4 1 5, .atomxFminF32 false false 0 0 4 1 5, .atomxFmaxF32 false false 0 0 4 1 5, .atomp false false 1 0 0 4 1 6,
      .lda false false 1 0 4 1, .ldap false true 0 4 4 1, .stl true false 1 0 1 6, .fence false true 3 4, .fenceSc false false 0] s = true ∧
    Reachable s.before 32 0x2FFF8 8 true := by
  refine ⟨by decide +kernel, by decide, by decide, 0x2FFF8, false, none, by decide +kernel⟩
/-- The words of O29 with their registers at 2 and 3. -/
def accessWords : List Instr := [.ld false false 0 4 8 1 0, .st false false 0 4 8 1 0, .ldf false false 0 0 8 1 0, .lda false false 0 0 4 1,
  .ldap false false 0 0 4 1, .stl false false 0 0 1 5, .atomAdd false false 0 0 0 4 1 5, .atomMinS32 false false 0 0 0 4 1 5,
  .atomMaxS32 false false 0 0 0 4 1 5, .atomMinN32 false false 0 0 0 4 1 5, .atomMaxN32 false false 0 0 0 4 1 5, .atomAnd false false 0 0 0 4 1 5,
  .atomOr false false 0 0 0 4 1 5, .atomXor false false 0 0 0 4 1 5, .atomxXchg false false 0 0 0 4 1 5, .atomxCas false false 0 0 0 4 1 5,
  .atomxIncw false false 0 0 0 4 1 5, .atomxDecw false false 0 0 0 4 1 5, .atomxFaddF32 false false 0 0 4 1 5, .atomxFminF32 false false 0 0 4 1 5,
  .atomxFmaxF32 false false 0 0 4 1 5, .atomp false false 0 0 0 4 1 5]
/-- Each clause in turn: misaligned, above the address space, not mapped, far without FD, and migrating. -/
theorem witness_AccessFaults :
    (∀ s ∈ [started (near 0x20002), started (near 0x80000000000000), started (near 0x7FFFFFFFFFFFFC),
      started (fun c => paged 1 0x7F (addressed 0x20000 c)), started (fun c => paged 2 0x7F (addressed 0x20000 c))], allMeet accessWords s = true) ∧
    (0x20002 : Nat) % 4 ≠ 0 ∧ (2 : Nat) ^ 55 ≤ 0x80000000000000 ∧
    (∃ cause sub i0, threadTrans (started (near 0x7FFFFFFFFFFFFC)).before (started (near 0x7FFFFFFFFFFFFC)).now 32 0x7FFFFFFFFFFFFC true = .fault cause sub i0) ∧
    threadTrans (started (fun c => paged 1 0x7F (addressed 0x20000 c))).before (started (fun c => paged 1 0x7F (addressed 0x20000 c))).now 32 0x20000 true = .serve ∧
    threadTrans (started (fun c => paged 2 0x7F (addressed 0x20000 c))).before (started (fun c => paged 2 0x7F (addressed 0x20000 c))).now 32 0x20000 true
      = .migrating := by
  refine ⟨by decide +kernel, by decide, by decide, ⟨causePage, 0, ?_, ?_⟩, ?_⟩
  · exact 0x11
  · decide +kernel
  · decide +kernel

/-- The thread's team in a cluster of width 2 with no second team, with a stash window of one line over the last of its 4096 bytes. -/
def local_ (r : Nat) : Chip → Chip := fun c => put 9 r (team (fun k => { k with spad := 4096, clw := 2, stash := some { first := 31, lines := 1, base := 0x20000 } }) c)
theorem witness_LocalFaults :
    (∀ s ∈ [started (local_ 2), started (local_ 4096), started (local_ 4092), started (local_ 0x08000000), started (local_ 0x02000000), started (local_ 0x01000000),
      started (local_ 0), started (local_ 128), started (put 9 0), started (put 9 0xFFFFFFFC)],
      allMeet [.lds false false 0 4 8 9 0, .sts false false 1 4 8 9 0, .lds false false 2 4 8 9 0x1F, .sts false false 2 4 8 9 0] s = true) ∧
    localOffset (started (local_ 2)).now 32 9 false 0 4 % 4 ≠ 0 ∧ (4096 : Int) < localOffset (started (local_ 4096)).now 32 9 false 0 4 + 4 ∧
    localOffset (started (local_ 0)).now 32 9 false 0x1F 4 < 0 ∧ localOffset (started (local_ 0x01000000)).now 32 9 true 0 4 = 0 ∧
    ((started (local_ 4092)).now.team 1).inWindow 4092 4 = true ∧ rmtZero 0x08000000 = false ∧ ¬ (rmtX 0x02000000 < 2) ∧
    (started (local_ 0x01000000)).now.sibling 32 1 0 = none ∧ (128 * 1 : Int) < 128 + 4 ∧ (st0.now.team 1).stash = none := by decide +kernel
theorem witness_CacheWords :
    let s := started (fun c => put 8 0x0001001F (team (fun k => { k with spad := 4096 }) (near 0x20000 c)))
    allMeet [.pref true true 1 3, .renew true 1, .flush false true 1, .inval false false 1, .stashMap false false 1 8, .stashWb false true, .stashDrop true false] s = true ∧
    (s.now.vv 32 2).toNat % 128 = 0 ∧ stashWindow (s.now.v 32 8) 4096 = some (31, 1) ∧
    allMeet [.stashMap false false 1 8] (started (near 0x20004)) = true ∧ stashWindow 0x00010020 4096 = none ∧ stashWindow 0 4096 = none ∧
    allMeet [.stashMap false false 1 8] (started (near 0x20000)) = true := by decide +kernel
theorem witness_RequestEntersTable :
    let s := started (near 0x20000)
    threadTrans s s.now 32 0x20000 true = .ok 0x20000 false none ∧ (s.now.team 1).rollback = false := by decide +kernel
theorem witness_ReadModifyWriteResults : (32 = 32 ∨ (32 : Nat) = 64) ∧ ((64 : Nat) = 32 ∨ (64 : Nat) = 64) := by decide

/-- Room for a global and a team-local operand of a copy. -/
def copying : Chip → Chip := fun c => put 9 4080 (roomy (near 0x20000 c))
theorem witness_CopyWords :
    let s := started copying
    allMeet [.cpyG2s true 0 9 1, .cpyS2g false 2 1 9, .cpyG2g false 1 1 1, .cpyS2s false 2 9 9, .cpyFlag false 9 10] s = true ∧
    (∀ slot, cpyVerdict s.before.now 32 slot 16 (.glob (s.before.now.vv 32 2)) (.loc 4080) = none) ∧
    (∀ slot, cpyVerdict s.before.now 32 slot 16 (.rmt 4080) (.rmt 4080) = none) ∧
    s.before.now.visible 32 = true ∧ (s.now.team 1).rollback = false ∧ Sparse.find? (s.now.thread 32).openBatch 0 = none ∧
    meets (.cpyFlag false 9 10) (started (put 9 2)) = true ∧ meets (.cpyFlag false 9 10) (started (put 9 4096)) = true ∧ (st0.now.team 1).spad < 4096 + 4 := by
  refine ⟨by decide +kernel, fun _ => rfl, fun _ => rfl, by decide +kernel⟩
theorem witness_HandleWords : allMeet [.cpyCommit true 4 2, .htest false 7 2, .hcancel false 3, .hwait false 3, .cntrd false 127, .waitc false 0 63 0 0] (tagged tagHandle) = true ∧
    blocked st0.before 32 (.waitc false 0 0 0 0) = false := by decide +kernel

/-- A block of a 32 by 32 operation on plate 0, with A at 0 and B at 16384. -/
def blockBytes : List (BitVec 8) := wordBytes [0, 0x2020, 0, 512, 16384, 512]
/-- The thread's block lies at 32768; plate 0 belongs to it. -/
def pressing (c : Chip) : Chip :=
  let c := put 9 32768 (team (fun k => { k with spad := 36864, plates := 2, map := [(0, 0), (1, 1)], lmem := Memory.writeBytes [] 32768 blockBytes }) c)
  c.onPlate 1 0 (fun p => { p with owner := some { ctx := 1, level := .user, team := 1, entry := 0 } })
theorem witness_PressWords : allMeet [.mxIssue false 4 9, .mxReady false 4 0 0, .mxCancel true, .mxQuiesce false] (started pressing) = true ∧
    [0, 1, 2].all (fun slot => (issueVerdict (.mxIssue false 4 9) 9 (started pressing).before 32 slot).isNone) = true ∧
    (started pressing).now.openPub 1 = none ∧ meets (.mxIssue false 4 9) (started (put 9 32)) = true := by decide +kernel
/-- Plate 0 belongs to the thread's level, plate 1 to nobody; the pair at register 2 names a page. -/
def platesOf (n : Nat) : Chip → Chip := fun c => put 9 n (plated (near 0x20000 c))
theorem witness_PlateWords :
    (∀ n ∈ [0, 1, 2, 0xFFFFFFFF], allMeet [.plZero true 9 1, .plFree false 9, .plScale false 9 8] (started (platesOf n)) = true ∧
      allMeet [.plClaim false 9 1, .plSave false 9, .plRst false 9] (started (fun c => lvl .supervisor (platesOf n c))) = true) ∧
    allMeet [.plLd true 0 9 1, .plSt false 9 1] (started (platesOf 0)) = true ∧
    (started (platesOf 0)).now.plateValid 1 0 .user = true ∧ (started (platesOf 1)).now.plateValid 1 1 .user = false ∧
    ((started (platesOf 1)).now.plateOfTeam 1 1).owner = none ∧
    ((started (platesOf 0)).now.plateOfTeam 1 0).owner = some { ctx := 1, level := .user, team := 1, entry := 0 } ∧ ((started (platesOf 2)).now.team 1).plates ≤ 2 ∧
    threadTrans (started (platesOf 0)).before (started (platesOf 0)).now 32 0x20000 true = .ok 0x20000 false none := by decide +kernel
theorem witness_TileWords :
    let s := started (platesOf 0)
    allMeet [.plRd true 4 9 31, .plWr false 4 9 0, .tld false 1 9 3, .tzero false 15 4, .tcvt false 2 9 1 0 0 1] s = true ∧
    meets (.tst false 2 9) (started (fun c => (List.range 8).foldl (fun c j => c.setReg 32 (16 + j) { bits := 0, tag := tagE4m3 }) (platesOf 4064 c))) = true ∧
    (∀ p ∈ s.now.press, p.2.team = 1 → 0 ∉ p.2.plates) ∧ (s.now.plateOfTeam 1 0).left = none ∧ 31 ∉ (s.now.plateOfTeam 1 0).poison ∧
    LocalReachable (started (platesOf 4064)).before 32 .loc 0 4064 32 true := by
  refine ⟨by decide +kernel, by decide +kernel, by decide +kernel, by decide +kernel, by unfold LocalReachable; decide +kernel⟩
/-- Lane 0 of furrow 1 holds an entry. -/
def ploughed : Chip → Chip := fun c => c.onPlough 1 (fun k => k.setLane 1 0 { (c.furrow 32 1) with entries := [7] })
theorem witness_PloughWords : allMeet [.plwLoop true 3 9, .plwStrm false 0 2 3 1 31, .plwGo false 15, .plwStop false, .qlen false 4 3, .plwStat false 4,
      .qpop false 4 1, .qpeek true 4 1] (started ploughed) = true ∧ allMeet [.qpop false 4 1, .qpeek true 4 1] st0 = true ∧
    ((started ploughed).now.furrow 32 1).entries ≠ [] ∧ (started ploughed).now.furrowNamed 1 1 = false ∧ (st0.now.furrow 32 1).entries = [] ∧
    (st0.now.furrow 32 1).fault = none := by decide +kernel
/-- A record at 0x20000 and a header at 0x20080. -/
def queued (r h : Nat) : Chip → Chip := fun c => put 4 h (near r c)
theorem witness_QueueWords :
    (∀ s ∈ [started (queued 0x20000 0x20080), started (queued 0x20040 0x20080), started (queued 0x20000 0x20040), started (queued 0x20000 0xFFFFFFFF)],
      allMeet [.launch true 4 1 2, .qpush false 4 1 2, .kstat false 4 1, .qstat false 4 1] s = true) ∧
    (∀ slot, transVerdict (started (queued 0x20000 0x20080)).before 32 slot 0x20000 true = none ∧
      transVerdict (started (queued 0x20000 0x20080)).before 32 slot 0x20080 true = none) ∧
    meets (.kstat false 4 1) (started (fun c => put 3 0x800000 c)) = true ∧ 0x20000 % 128 = 0 ∧ 0x20040 % 128 ≠ 0 ∧
    2 ^ 55 ≤ ((started (fun c => put 3 0x800000 c)).now.vv 32 2).toNat := by
  refine ⟨by decide +kernel, fun _ => ⟨rfl, rfl⟩, by decide +kernel⟩
theorem witness_StatusWords : allMeet [.srd true 4 0x010, .srd false 4 0x021, .swr false 4 0x012] st0 = true ∧
    allMeet [.srd false 4 0x100, .swr false 4 0x100] (started (lvl .supervisor)) = true := by decide +kernel
/-- A supervisor whose trap words return to user level at the chain's own page, and a firmware thread. -/
def returning (n : Nat) : Chip → Chip :=
  thread (fun t => { t with level := .supervisor, trap := { t.trap with pc := 0x10000, cause := BitVec.ofNat 32 (256 * n) } })
def routine (ctl : Nat) : Chip → Chip := thread (fun t => { t with level := .firmware, emu := { t.emu with npc := 0x10000, ctl := BitVec.ofNat 32 ctl } })
theorem witness_TrapReturnWords :
    (∀ s ∈ [started (returning 0), started (returning 1), started (returning 2), started (routine 0), started (routine 0x070000)], meets (.tret false) s = true) ∧
    badTarget (started (returning 0)).before (started (returning 0)).now 0 1 .user 0x10000 = none ∧
    targetHeld (started (returning 0)).before (started (returning 0)).now 0 1 .user 0x10000 = none ∧
    ({ members := [32], pc := 0, jumps := [(32, .ret .user 0x10000)] } : Issue).jump 32 = some (.ret .user 0x10000) ∧ raiseOf ((started (returning 0)).now.thread 32) = none ∧
    badTarget (started (returning 1)).before (started (returning 1)).now 0 1 .supervisor 0x10000 = none ∧
    (raiseOf ((started (routine 0x070000)).now.thread 32)).isSome = true ∧ Level.supervisor.code < 2 ∧
    (∀ s ∈ [st0, started (lvl .supervisor), started (lvl .firmware)], meets (.ecall true 4 511) s = true) := by decide +kernel
theorem witness_RequestWords :
    (∀ s ∈ [started (lvl .supervisor), started (fun c => put 4 1 (put 5 1 (put 2 1 (lvl .supervisor c)))), started (fun c => put 4 9 (put 5 9 (put 2 4096 (lvl .supervisor c))))],
      allMeet [.ckptMark true 4 1, .ckptStat false 2, .errqSet false 1 16, .tlbInv false 1 1, .fenceTlb true] s = true) ∧
    allMeet [.ctxStop true 4, .ctxSave false 4, .ctxRst false 2 1, .preempt false 1 160, .patchLoad false 2 15, .patchArm false 15, .patchDisarm false 0,
      .patchQry false 4 0, .pstateSet true 4 5, .park false 4, .unpark false 4] (started (lvl .firmware)) = true ∧
    ((started (put 4 9)).now.v 32 4).toNat ≠ (started (put 4 9)).now.ctxOf 32 := by decide +kernel

/-- A predicate of every listed value and of the default holds of every value of a table. -/
theorem get_all {ν : Type} (P : ν → Prop) (d : ν) (hd : P d) : ∀ m : Sparse ν, (∀ p ∈ m, P p.2) → ∀ k, P (Sparse.get d m k)
  | [], _, _ => hd
  | p :: m, h, k => by
    unfold Sparse.get Sparse.find?
    split
    · exact h p List.mem_cons_self
    · exact get_all P d hd m (fun q hq => h q (List.mem_cons_of_mem _ hq)) k

/-- The thread before a word. -/
def loaded (w : Nat) : State := State.reset.withFetchWord 32 w
/-- The same with its chain fetched. -/
def opened (i : Instr) (f : Issue → Issue) (s : State) : State :=
  { s with issue := some (f { members := [32], pc := 0x10000, code := some { words := [{ instr := i, raw := 0, slot := 0 }] } }) }
/-- With no chain open. -/
def calm (f : Chip → Chip) : State := { started f with issue := none }

theorem witness_StatusWordsReadBack :
    let rd := fun (a : Nat) => statusRead (statusWrite (started (returning 0)).now 32 a (BitVec.allOnes 64)) 32 a
    rd 0x101 = 0x3FF ∧ rd 0x012 = 0xFFFFFFFF ∧ rd 0x100 = 0xFFFFFFFFFFFFFFFF ∧ rd 0x130 = 255 ∧ rd 0x189 = 400 ∧
    (statusWrite st0.now 32 0x102 5).thread 33 = st0.now.thread 33 := by decide +kernel
/-- More lines of one slice than it has room for. -/
theorem witness_StepRunsTheWord_full :
    let s := calm (fun c => { c with home := List.replicate 32769 (0, {}) })
    s.issue = none ∧ s.now.granted = [] ∧ crowdedOut s.now = some 0 := by
  have h : ∀ (c : Chip) (n : Nat), Config.sliceLines < n → crowdedOut { c with home := List.replicate n (0, {}) } = some 0 := fun c n hn => by
    have : n ≠ 0 := by omega
    simp [crowdedOut, Sparse.keysWhere, List.filter_replicate, HomeLine.busy, hn, this]
  exact ⟨rfl, rfl, h (calm id).now 32769 (by decide)⟩
theorem witness_StepRunsTheWord :
    let s := loaded 0x25000000
    let th := s.now.thread 32
    s.issue = some (theIssue s) ∧ (theIssue s).code = none ∧ (theIssue s).at_ = 0 ∧ (theIssue s).members = 32 :: [] ∧ th.patched = none ∧ th.entering = false ∧ crowdedOut s.now = none ∧
    (match fetchWord s s.now (s.now.coreOf 32) (s.now.ctxOf 32) th.level th.pc.toNat 0 with | .ok w => w == 0x25000000#32 | .error _ => false) = true ∧
    bitAt (0x25000000#32 : Word).toNat 31 = false ∧ stencilPick s.now 32 0x25000000 0 = none ∧ decodeWord 0x25000000#32 = .ok (.nop false) := by
  refine ⟨rfl, rfl, rfl, rfl, rfl, rfl, rfl, ?_⟩
  decide +kernel
theorem witness_StepRunsTheWord_open : ∀ f : Fetched, f = { words := [{ instr := .nop false, raw := 0, slot := 0 }] } →
    f.fault = none ∧ f.words[0]? = some { instr := .nop false, raw := 0, slot := 0 } ∧ f.words[1]? = none ∧
    ({ f with fault := some .notReady } : Fetched).fault = some .notReady := by
  rintro f rfl
  exact ⟨rfl, rfl, rfl, rfl⟩
theorem witness_StepRunsTheWord_calm :
    let s := calm (fun c => { c with granted := [32] })
    s.issue = none ∧ (grantedIssue s).isSome = true ∧ (calm id).now.granted = [] ∧ (calm id).agenda = [] ∧
    ({ calm id with agenda := [.tick] } : State).agenda = .tick :: [] ∧ (calm id).now.sweepUrgent = false ∧ (calm id).board.sweeps = true ∧
    (calm (fun c => c.setCore 0 { c.core 0 with clk := 2 ^ 24 })).now.sweepUrgent = true := by
  refine ⟨rfl, rfl, rfl, rfl, rfl, by decide +kernel⟩
/-- Each check in turn: not ready, below the level, beyond the registers, a wrong tag. -/
theorem witness_IssueChecks :
    let ok := fun (i : Instr) (s : State) => readyWith s.before 32 32 (opInfo i) (blocked s.before 32 i)
    let i : Instr := .iadd true false 1 2 3
    let wide : Instr := .iadd true false 127 2 3
    wellFormed i = true ∧ ok i (started (fun c => c.setReg 32 2 { bits := 0, wait := some (.access 5) })) = false ∧
    wellFormed (.tret true) = true ∧ ok (.tret true) st0 = true ∧ ¬ ((opInfo (.tret true)).least ≤ (st0.now.thread 32).level.code) ∧
    wellFormed wide = true ∧ ok wide (started (team (fun k => { k with regs := 8 }))) = true ∧
    ((started (team (fun k => { k with regs := 8 }))).now.team 1).regs = 8 ∧ (opInfo wide).dests = [127] ∧
    ok (.dot2Bf16 true false 1 2 3) st0 = true ∧
    ((opInfo (.dot2Bf16 true false 1 2 3)).srcs.filter (fun x => x.read st0.now 32 && !x.tagOk st0.now 32)).map (·.code) = [1, 2] ∧
    (theIssue st0).dead = [] := by decide +kernel
theorem witness_TrapEntry :
    let bad := fun (s : State) => badTarget s s.now 0 1 .supervisor ((s.now.ctx 1).trapvec)
    bad (started (vector 0x10004)) = none ∧ ((started (vector 0x10004)).now.ctx 1).trapvec = 0x10004 ∧ ((started (vector 0x10004)).now.thread 32).level = .user ∧
    (st0.now.ctx 1).trapvec = 0 ∧ 2 ^ 55 ≤ ((started (vector (2 ^ 55))).now.ctx 1).trapvec.toNat ∧ bad (started (vector 0x10002)) ≠ none ∧
    ((started (fun c => lvl .supervisor (vector 0x10000 c))).now.thread 32).level = .supervisor ∧
    ((started (lvl .firmware)).now.thread 32).level = .firmware ∧ (6 : Nat) ≠ causeUncorrectable ∧ (6 : Nat) ≠ causeMismatch := by decide +kernel
/-- Whether executing the instruction answers a next state. -/
def goesOn (i : Instr) (s : State) : Bool := match exec i s with | .next _ => true | _ => false
theorem next_of {i : Instr} {s : State} (h : goesOn i s = true) : ∃ t, exec i s = .next t := by
  unfold goesOn at h
  split at h
  · exact ⟨_, ‹_›⟩
  · exact absurd h (by decide)
theorem witness_StepKeepsSound : (loaded 0x25000000).Sound ∧ (match step (loaded 0x25000000) with | .next _ => true | _ => false) = true := by
  refine ⟨by unfold State.Sound; decide +kernel, by decide +kernel⟩
theorem witness_ComputingWordFrame :
    let s := opened (.iadd true false 1 2 3) id st0
    wellFormed (.iadd true false 1 2 3) = true ∧ encode (.iadd true false 1 2 3) = some 0x81004103 ∧ fieldNat 0x81004103 24 6 ≤ 0x1E ∧
    (opInfo (.iadd true false 1 2 3)).c = true ∧ ∃ t, exec (.iadd true false 1 2 3) s = .next t :=
  ⟨by decide +kernel, by decide +kernel, by decide, by decide +kernel, next_of (by decide +kernel)⟩
theorem witness_ChainCommits :
    let s := opened (.nop false) (fun iss => { iss with at_ := 1 }) st0
    (theIssue s).dead = [] ∧ (theIssue s).jumps = [] ∧ (theIssue s).members = [32] ∧ s.now.exists? 32 = true ∧ s.now.guarded 32 = false ∧
    (∀ t, (s.now.thread t).waitsOn = none) ∧ ∀ k, (s.now.team k).rollback = false ∧ (s.now.team k).interval.opened = false := by
  refine ⟨rfl, rfl, rfl, by decide +kernel, by decide +kernel, ?_, ?_⟩
  · exact get_all (fun (x : Thread) => x.waitsOn = none) {} rfl st0.now.threads (by decide +kernel)
  · exact get_all (fun (x : Team) => x.rollback = false ∧ x.interval.opened = false) {} ⟨rfl, rfl⟩ st0.now.teams (by decide +kernel)
theorem witness_StoredBytes :
    let s := started roomy
    meets (.sts true true 0 4 8 9 0) s = true ∧ LocalReachable s.before 32 .loc (s.before.now.v 32 9) 0 4 true ∧ spaceOf 0 = .loc ∧ Space.loc ≠ .stash ∧
    (∀ k, ((s.now.team k).lmem).wf = true) ∧ (∃ t, exec (.sts true true 0 4 8 9 0) s = .next t) ∧ (4 : Nat) ≠ 3 ∧
    Memory.wf [(0, 1), (0xFFFFFFFFFFFF, 255)] = true := by
  refine ⟨by decide +kernel, by unfold LocalReachable; decide +kernel, by decide, by decide, ?_, next_of (by decide +kernel), by decide, by decide⟩
  exact get_all (fun (x : Team) => x.lmem.wf = true) {} rfl (started roomy).now.teams (by decide +kernel)

/-- The same with no chain open. -/
def tables (leaf : Nat) (f : Chip → Chip) : State := { mapped leaf f with issue := none }

/-! O53. -/
theorem witness_CoreEvents_open : hasWord .tick = false ∧ st0.issue ≠ none := by decide +kernel
/-- The chain at the pen of the thread's croft, decoded. -/
def ready : Chip → Chip := fun c => c.setCroft 0 { c.croft 0 with pens := Sparse.mapVals (fun _ p => { p with fair := 256, code := some { words := [{ instr := .nop false, raw := 0x25000000, slot := 0 }] } }) (c.croft 0).pens }
theorem witness_CoreEvents_issue : choosePen (calm id) 5 = none ∧ choosePen (calm ready) 0 = some (0, [32]) ∧ (calm ready).now.pickLanes [32] = [32] ∧
    (calm ready).now.heldFor 32 = [] ∧ ((Sparse.find? ((calm ready).now.croft 0).pens 0).bind Pen.code).map (·.fault) = some none ∧
    (Sparse.find? ((calm ready).now.croft 0).pens 0).map (fun p => (p.ctx, p.starved, p.fair)) = some (1, none, 256) ∧
    ((calm ready).now.ctx 1).fairlim ≤ 256 := by decide +kernel
theorem witness_CoreEvents_pace : ((calm (thread (fun t => { t with paused := 1 }))).now.thread 32).paused = 1 ∧
    ((calm (thread (fun t => { t with yielding := some ([], 5) }))).now.thread 32).yielding = some ([], 5) ∧
    ((calm (thread (fun t => { t with yielding := some ([1], 0) }))).now.thread 32).yielding = some ([1], 0) := by decide +kernel
/-- A bin of core 0, with an argument. -/
def binned (b : Bin) : Chip → Chip := fun c => c.setCore 0 { c.core 0 with bins := [(0, b)] }
def oneBin : Bin := { team := 1, entry := 0x10000, args := [(7, .user)] }
theorem witness_CoreEvents_bins :
    Sparse.find? ((calm (binned oneBin)).now.core 0).bins 0 = some oneBin ∧ oneBin.timer = 0 ∧ (calm (binned oneBin)).now.mayRun 1 = true ∧
    (let s := calm (fun c => binned { oneBin with closed := true } (team (fun k => { k with regs := 64 }) c))
     (Sparse.find? (s.now.freeGroups.core 0).bins 0).map (·.closed) = some true ∧ s.now.freeGroups.mayRun 1 = true ∧ 3 / 4 = 0 ∧
      s.now.freeGroups.croftRoom 3 (s.now.freeGroups.team 1).regs = true) ∧ oneBin.args.length ≤ 32 := by decide +kernel
theorem witness_CoreEvents_time : (calm id).board.accum < 3 ∧ (calm id).now.deferred = [] ∧ (calm id).board.inbox = [] ∧
    (∀ p ∈ (calm id).now.ctxs, p.2.state ≠ .resuming) ∧
    (let far := fun (b : Bool) => calm (fun c => { c.setCore 0 { c.core 0 with clk := 2 ^ 23 + 1 } with sweeping := b })
     (far false).now.pastBase = true ∧ (far false).now.sweeping = false ∧ (far true).now.pastBase = true ∧ (far true).now.sweeping = true ∧ (far true).board.barnFenced.contains 0 = false) := by decide +kernel

/-! O54. -/
/-- An access of the thread at 0x20000. -/
def asked (a : Access) (f : Chip → Chip) : State := calm (fun c => f (c.setAccess 7 { a with th := 32, core := 0, ctx := 1, phys := 0x20000 }))
def aLoad : Access := { op := .load, size := 4, dest := 4, count := 1 }
/-- What the clauses of a home ask of the line. -/
def still (s : State) : Bool :=
  !(s.now.line s 1024).busy && !(s.now.line s 1024).hshare && (s.now.line s 1024).owner.isNone && s.now.accesses.all (fun p => decide (p.2.op ≠ .fence) &&
    p.2.dev.isNone && s.now.timeFits (requestTime s s.now { p.2 with clk := (s.now.core 0).clk })) && !s.now.bankWaking 0x20000 && (s.now.victim 0 1024).isNone
theorem witness_AccessEvents_home :
    (∀ s ∈ [asked aLoad id, asked { aLoad with kind := 2 } id], still s = true ∧ ∃ a, Sparse.find? s.now.accesses 7 = some a ∧ s.now.mayGo a = true ∧
      a.op = .load ∧ isHost a.phys = false ∧ a.stage = .issued ∧ s.now.mayPerform 7 a = true) ∧
    (let s := asked { op := .store, size := 4, data := 5 } id
     still s = true ∧ writeHeld s s.now 0x20000 = false ∧ (s.now.core 0).release.length ≤ Config.releaseLines ∧ ∃ a, Sparse.find? s.now.accesses 7 = some a ∧ s.now.wantsOwned a = false ∧ a.order = 0 ∧ a.size ∈ [1, 2, 4, 8, 16] ∧
      a.phys % a.size = 0 ∧ s.now.mayPerform 7 a = true) ∧
    (let s := asked { op := .store, size := 4, data := 5, stage := .remote, dev := some 5 } id
     s.board.routeLost = false ∧ ∃ a, Sparse.find? s.now.accesses 7 = some a ∧ a.op = .store ∧ a.stage = .remote ∧ a.poison = none ∧ s.now.mayPerform 7 a = true) ∧
    (let s := asked { op := .rmw .add, size := 8, data := 5 } id
     still s = true ∧ writeHeld s s.now 0x20000 = false ∧ ∃ a, Sparse.find? s.now.accesses 7 = some a ∧ a.op = .rmw .add ∧ s.now.wantsOwned a = false ∧ a.promote = false ∧ a.phys % a.size = 0 ∧
      s.now.mayPerform 7 a = true ∧ s.now.mates 7 a = []) ∧
    (let s := asked { aLoad with kind := 1 } (fun c => { c.setLine 1024 { valid := allWords } with slices := [(sliceOf 1024, { persistent := [7] })] })
     still s = true ∧ s.now.aheadFor 7 1024 = false ∧ (s.now.slice (sliceOf 1024)).persistent.head? = some 7 ∧
      ∃ a, Sparse.find? s.now.accesses 7 = some a ∧ s.now.wantsOwned a = true ∧ a.isRel = false ∧ s.now.mayGo a = true ∧ s.now.mayPerform 7 a = true) := by
  refine ⟨?_, ?_, ?_, ?_, ?_⟩
  · intro s hs
    simp only [List.mem_cons, List.not_mem_nil, or_false] at hs
    rcases hs with rfl | rfl
    · exact ⟨by decide +kernel, _, rfl, by decide +kernel⟩
    · exact ⟨by decide +kernel, _, rfl, by decide +kernel⟩
  · exact ⟨by decide +kernel, by decide +kernel, by decide +kernel, _, rfl, by decide +kernel⟩
  · exact ⟨by decide +kernel, _, rfl, by decide +kernel⟩
  · exact ⟨by decide +kernel, by decide +kernel, _, rfl, by decide +kernel⟩
  · refine ⟨by decide +kernel, ?_, ?_, _, rfl, by decide +kernel⟩
    · unfold Chip.aheadFor Chip.slice asked
      simp [Sparse.get, Sparse.find?, calm, started]
    · unfold Chip.slice asked
      simp [Sparse.get, Sparse.find?, calm, started]
theorem witness_AccessEvents_reply :
    (let s := asked { aLoad with stage := .reply 3 35 (some 9) allWords } id
     (∃ a, Sparse.find? s.now.accesses 7 = some a ∧ a.op = .load ∧ a.kind = 0 ∧ a.stage = .reply 3 35 (some 9) allWords) ∧ s.now.l1? 0 1024 = none ∧ s.now.victim 0 1024 = none) ∧
    (let s := asked { aLoad with stage := .remote, dev := some 5 } id
     s.board.routeLost = false ∧ (s.now.team 1).core.isSome = true ∧ ∃ a, Sparse.find? s.now.accesses 7 = some a ∧ a.op = .load ∧ a.stage = .remote ∧ s.now.mayPerform 7 a = true) ∧
    (let s := asked { aLoad with stage := .returned, result := 9, takers := [32] } (fun c => c.setReg 32 4 { wait := some (.access 7) })
     (∃ a, Sparse.find? s.now.accesses 7 = some a ∧ a.stage = .returned ∧ a.poison = none ∧ (32, 4, 0) ∈ s.now.waitingFor 7 a) ∧ (s.now.team 1).core.isSome = true) ∧
    (∃ a, Sparse.find? (asked { op := .rmw .add, stage := .remote } id).now.accesses 7 = some a ∧ a.op = .rmw .add ∧ a.stage = .remote ∧
      (asked { op := .rmw .add, stage := .remote } id).now.mayPerform 7 a = true) ∧
    (∃ a, Sparse.find? (asked { op := .ecall, size := 0 } id).now.accesses 7 = some a ∧ a.op = .ecall) ∧
    (let s := asked { aLoad with stage := .remote } id
     ({ s.board with ports := [(0, { state := .fenced })] } : Board).routeLost = true ∧ ∃ a, Sparse.find? s.now.accesses 7 = some a ∧ a.stage = .remote ∧ a.op ≠ .store ∧ a.op ≠ .ecall) := by
  refine ⟨⟨⟨_, rfl, by decide +kernel⟩, by decide +kernel, by decide +kernel⟩, ⟨by decide +kernel, by decide +kernel, _, rfl, by decide +kernel⟩, ⟨⟨_, rfl, by decide +kernel⟩, by decide +kernel⟩, ⟨_, rfl, by decide +kernel⟩,
    ⟨_, rfl, by decide +kernel⟩, by decide +kernel, _, rfl, by decide +kernel⟩

/-! O55. -/
/-- A line at its home. -/
def homed (h : HomeLine) : State := calm (fun c => c.setLine 1024 h)
theorem witness_HomeEvents_lines :
    (∀ p ∈ (homed {}).now.accesses, p.2.op ≠ .store) ∧ (∀ p ∈ (homed {}).now.teams, p.2.rollback = false) ∧
    ({ held := [7], state := .recalling } : HomeLine).owner.any (drainWaits (homed {}) (homed {}).now) = false ∧
    (((homed {}).now.line (homed {}) 1024).owner = none → ((homed {}).now.line (homed {}) 1024).owned = 0) ∧
    (homed { held := [7], state := .recalling }).now.line (homed { held := [7], state := .recalling }) 1024 = { held := [7], state := .recalling } ∧
    (HomeState.recalling ≠ .invalidating ∧ ([7] : List Nat) ≠ []) ∧
    Sparse.find? (homed { dirty := 1, rts := 9 }).now.home 1024 = some { dirty := 1, rts := 9 } ∧
    (HomeLine.busy { dirty := 1, rts := 9 }) = false ∧ ({ dirty := 1, rts := 9 } : HomeLine).releasers = [] ∧ (homed {}).mem.wf = true ∧
    (8 : Nat) ∈ [1, 2, 4, 8] ∧ 0x20008 % 8 = 0 ∧ deviceMemory (homed {}) 0x20008 = true ∧ writeHeld (homed {}) (homed {}).now 0x20008 = false ∧
    (mappers (homed {}) { (homed {}).now with ctxs := [] } 0x20008 Pte.away) = [] ∧ ((homed { conflict := [(0, 0x20000, 8, 0, true)] }).now.line (homed {}) 1024).conflict = [(0, 0x20000, 8, 0, true)] ∧
    @Proto.hostWaits (homed {}) (homed {}).now 0 0x20000 = false ∧
    ((homed {}).now.line (homed {}) (lineOf 0x20008)).busy = false ∧ (homed {}).now.bankWaking 0x20008 = false ∧
    (homed {}).now.timeFits (max (homed {}).now.hostClk (((homed {}).now.line (homed {}) (lineOf 0x20008)).rts + 1)) = true ∧
    ((homed {}).now.line (homed {}) (lineOf 0x20008)).owner = none ∧ ((homed {}).now.line (homed {}) (lineOf 0x20008)).conflict = [] ∧
    (homed { state := .invalidating }).now.line (homed { state := .invalidating }) 1024 = { state := .invalidating } ∧
    (let s := calm (fun c => c.setLine (2 ^ 40) { exclusive := true })
     Sparse.find? s.now.home (2 ^ 40) = some { exclusive := true } ∧ isHost (128 * 2 ^ 40) = true) := by decide +kernel
theorem witness_HomeEvents_walk :
    let s := tables 0x20043 id
    0 < Config.cores ∧ 0x20000 < 2 ^ 55 ∧ (Sparse.find? s.now.ctxs 1).isSome = true ∧ walk s s.now 1 0x20000 = .leaf 0x20043 0x120010 3 ∧
    Pte.state 0x20043 ≠ 2 ∧ Pte.state 0x20043 ≠ 5 ∧ Pte.state 0x20043 ≠ 6 := by decide +kernel
/-- The thread waits at a word of team-local memory, whose value is 0. -/
def waitRec (k : WaitKind) : WaitRec := { kind := k, word := .waitNe false 4 1 5, waited := 9 }
def waiting (k : WaitKind) (b : Nat) : State :=
  calm (fun c => thread (fun t => { t with place := .waiting (waitRec k), watch := { fired := true } }) (put 5 b (addressed 0x8000000000000000 (roomy c))))
theorem witness_HomeEvents_waits :
    (∀ b ∈ [0, 1], ((waiting (.word 9) b).now.thread 32).waitsOn = some (waitRec (.word 9)) ∧ ((waiting (.word 9) b).now.thread 32).watch.fired = true ∧
      (waiting (.word 9) b).now.mayRun 1 = true ∧ waitParts (waitRec (.word 9)).word = some (.ne, 2, 5) ∧
      watchVerdict (waiting (.word 9) b) 32 0 0x8000000000000000 = none ∧ watchAway (waiting (.word 9) b) (waiting (.word 9) b).now 32 0x8000000000000000 = false ∧ watchStalls (waiting (.word 9) b) (waiting (.word 9) b).now 32 0x8000000000000000 = false ∧
      watchRead (waiting (.word 9) b) (armWatch (waiting (.word 9) b) (waiting (.word 9) b).now 32 0x8000000000000000) 32 0x8000000000000000 = (0, none)) ∧
    (waiting (.word 9) 0).now.vv 32 2 = 0x8000000000000000 ∧ WaitCond.ne.holds 0 1 = true ∧ WaitCond.ne.holds 0 0 = false ∧ (9 : Nat) ≠ 0 ∧
    (waitRec (.word 9)).waited = 9 := by decide +kernel
theorem witness_HomeEvents_early :
    let s := calm (team (fun k => { k with rollback := true, interval := { held := [64] } }))
    (s.now.team 1).rollback = true ∧ (s.now.team 1).interval.early = false ∧ (s.now.team 1).interval.held ≠ [] ∧ (s.now.team 1).core = some 0 ∧
    (s.now.core 0).release.length + (s.now.team 1).interval.held.length ≤ Config.releaseLines := by decide +kernel

/-! O56. -/
/-- A committed batch with one element between places of team-local memory. -/
def anElem : Elem := { kind := 3, size := 4, src := 0, dst := 8, unit := 6 }
def aBatch (x : Elem) : Batch := { th := 32, level := .user, elems := [x], committed := some 1, handle := some 5 }
def copyState (x : Elem) : State :=
  calm (fun c => (c.setReg 32 4 { wait := some (.handle 5) }).setBatch 7 (aBatch x) |>.setHandle 5 { core := 0, of := .batch 7 })
theorem witness_CopyAndPageEvents_copy :
    (copyState anElem).now.batches = [(7, aBatch anElem)] ∧ (copyState anElem).now.maySend (aBatch anElem) anElem = true ∧
    (∀ p ∈ (copyState anElem).now.batches, ∀ y ∈ p.2.elems, y.unit ≠ 9) ∧
    targetSpot (copyState anElem) (copyState anElem).now (aBatch anElem) anElem = .local_ 1 8 ∧
    sourceSpot (copyState anElem) (copyState anElem).now (aBatch anElem) anElem = .local_ 1 0 ∧ ((copyState anElem).now.team 1).poisonedAt 0 4 = false ∧
    (let x := { anElem with sent := true, data := some 5 }
     Sparse.find? (copyState x).now.batches 7 = some (aBatch x) ∧ ((copyState x).now.team 1).core.isSome = true) ∧
    (let x := { anElem with sent := true, done := true }
     (aBatch x).settled = true ∧ (copyState x).now.batchFirst (aBatch x) = true ∧ ((copyState x).now.reg 32 4).wait = some (.handle 5)) ∧
    (let s := calm (fun c => (team (fun k => { k with core := none }) c).setCore 0 { c.core 0 with remap := [1] })
     (s.now.team 1).core = none ∧ s.now.cores.any (fun k => k.2.remap.contains 1) = true) := by decide +kernel
/-- The thread is held on a page of state 1 without FD. -/
def heldOn (n : Nat) : State :=
  calm (fun c => paged 1 0x7F (thread (fun t => { t with held := some (0x20000, n), heldWord := some (0x2C208141, 1) }) (team (fun k => { k with contvec := 0x10000 }) c)))
theorem witness_CopyAndPageEvents_pages :
    ((heldOn 94).now.thread 32).held = some (0x20000, 94) ∧ ((heldOn 94).now.thread 32).heldWord = some (0x2C208141, 1) ∧
    targetHeld (heldOn 94) (heldOn 94).now 0 1 .user 0x10000 = none ∧ (targetHeld (heldOn 94) (away (heldOn 94).now) 0 1 .user 0x20004).isSome = true ∧
    (st0.now.thread 32).heldWord = none ∧ ((heldOn 94).now.ctx ((heldOn 94).now.ctxOf 32)).holdlim ≤ 94 ∧
    heldPage (heldOn 94) (heldOn 94).now 32 = true ∧ (heldOn 94).now.maySoft 32 = true ∧ (heldOn 94).now.mayRun 1 = true ∧
    badContinuation (heldOn 94) (heldOn 94).now 32 = none ∧ (badContinuation (heldOn 94) (team (fun k => { k with contvec := 0x10002 }) (heldOn 94).now) 32).isSome = true ∧
    demanded (heldOn 94) (heldOn 94).now 1 0x20000 = true ∧ (heldOn 94).board.split.getLsbD 0 = false ∧
    pageAway (heldOn 94) (heldOn 94).now 1 0x20000 = false ∧
    (let s := tables 0x2407F (fun c => thread (fun t => { t with held := some (0x20000, 0) }) c)
     demanded s s.now 1 0x20000 = true ∧ pageAway s s.now 1 0x20000 = true) := by decide +kernel
def commanded (word : Nat) : State :=
  let s := tables 0x2007F (ctx (fun x => { x with drvqbase := 0x20000, drvqtail := 1 }))
  { s with mem := Memory.writeN (Memory.writeN s.mem 0x20000 8 0x20000) 0x20008 8 word }
theorem witness_CopyAndPageEvents_commands :
    (∀ w ∈ [0, 2], ((commanded w).now.ctx 1).drvTaken ≠ ((commanded w).now.ctx 1).drvqtail ∧ ((commanded w).now.ctx 1).drvqbase ≠ 0 ∧
      deviceRead (commanded w) (commanded w).now 1 0x20000 = some 0x20000) ∧
    let read := fun w => readCommand (commanded w) (commanded w).now 1 (peek (commanded w) (commanded w).now 0x20000 8) (peek (commanded w) (commanded w).now 0x20008 8)
    read 0 = .done ∧ read 2 = .refuse 0 := by
  refine ⟨by decide +kernel, rfl, rfl⟩
/-- The record names the page at 0x30000. -/
def ringed (leaf word : Nat) : State :=
  let s := commanded word
  { s with mem := Memory.writeN (Memory.writeN s.mem 0x20000 8 0x30000) 0x120018 8 leaf }
theorem witness_CopyAndPageEvents_pages_moved :
    let read := fun (l w : Nat) => readCommand (ringed l w) (ringed l w).now 1 (peek (ringed l w) (ringed l w).now 0x20000 8) (peek (ringed l w) (ringed l w).now 0x20008 8)
    read 0x3027F 0 = .wait ∧ read 0x3007F 0x020000000001 = .migrate 0x020000000000 ∧ read 0x3037F 2 = .checkOut 0x3037F 0x120018 ∧
    read 0x3047F 3 = .giveBack 0x3047F 0x120018 := ⟨rfl, rfl, rfl, rfl⟩
theorem witness_CopyAndPageEvents_start :
    let s := ringed 0x3007F 0x020000000001
    pageLeaf s s.now 1 0x30000 = some (0x3007F, 0x120018) ∧ s.now.migrations.length < Config.migrations ∧ s.now.cowHeld (Pte.frame 0x3007F) = false ∧
    (startMigration s s.now 1 0x30000 0x020000000000 (some 0) none).migrations.length ≠ s.now.migrations.length ∧ s.now.frameBusy 0x30000 = false := by decide +kernel
/-- A page with its context's pool, which holds one frame. -/
def pooled (leaf : Nat) : State :=
  let s := tables leaf (ctx (fun x => { x with poolbase := 0x30000, pooltail := 1 }))
  { s with mem := Memory.writeN (Memory.writeN s.mem 0x120018 8 0x3007F) 0x30000 8 0x40000 }
theorem witness_CopyAndPageEvents_serve :
    (∀ y ∈ [0x2007F, 0x2067F, 0x20D7F, 0x02000000017F], walk (pooled y) (pooled y).now 1 0x20000 = .leaf y 0x120010 3 ∧ (pooled y).now.poolBusy 1 = false ∧
      (takeFrame (pooled y) 1024 (pooled y).now 1).1 = some 0x40000) ∧
    Pte.state 0x2007F = 0 ∧ Pte.state 0x2067F = 6 ∧ Pte.state 0x20D7F = 5 ∧ bitAt 0x20D7F 11 = true ∧ Pte.state 0x02000000017F = 1 ∧
    bitAt 0x02000000017F 12 = false := by decide +kernel
def aMove (b : Bool) : Migration := { ctx := 1, va := 0x20000, entryAt := 0x120010, source := 0x20000, target := 0x020000000000, toNear := false, copied := b }
theorem witness_CopyAndPageEvents_moves :
    (∀ b ∈ [false, true], (calm (fun c => { c with migrations := [aMove b] })).now.migrationOf 1 0x20000 = some (aMove b)) ∧
    (calm id).now.frameBusy 0x20000 = false ∧
    (let s := { tables (0x020000000000 + 0x1143) (ctx (fun x => { x with drvcount := true, farCount := [(2, 128)], poolbase := 0x30000, pooltail := 1 })) with agenda := [] }
     let s := { s with mem := Memory.writeN (Memory.writeN s.mem 0x120018 8 0x3007F) 0x30000 8 0x40000 }
     pageLeaf s s.now 1 0x20000 = some (0x020000001143, 0x120010) ∧ 16 * (s.now.ctx 1).drvthresh ≤ Sparse.get 0 (s.now.ctx 1).farCount (0x20000 / 65536) ∧
      Pte.state 0x020000001143 = 1 ∧ s.now.poolBusy 1 = false ∧ (takeFrame s 1024 s.now 1).1 = some 0x40000) ∧
    Sparse.find? ({ (calm id).board with leasesGranted := [(2, 5)], dtick := 5 } : Board).leasesGranted 2 = some 5 := by decide +kernel

/-! O57. -/
/-- A queue table at 0x20000 names one queue, whose header is at 0x20080; its last record taken is at 0x20100, the next at 0x20180. -/
def steward : State :=
  let s := tables 0x2007F (ctx (fun x => { x with qtbase := 0x20000, qtlen := 1 }))
  { s with mem := Memory.writeN (Memory.writeN (Memory.writeN (Memory.writeN s.mem 0x20000 8 0x20080) 0x20090 8 0x20100) 0x20098 8 1) 0x20100 8 0x20180 }
theorem witness_StewardAndContextEvents_take :
    let s := steward
    let c := enableQueue s (syncQueue s (stewardTouch s s.now 1 [0x20000]) 1 0) 1 0
    (s.now.ctx 1).table + 8 * 0 = 0x20000 ∧
    (Sparse.find? s.now.ctxs 1).isSome = true ∧ (s.now.ctx 1).served = true ∧
    Sparse.find? (c.ctx 1).queues 0 = some { header := 0x20080, state := .idle, ctl := some 0x20098 } ∧ (deviceRead s c 1 0x20090).isSome = true ∧
    nextRecord s c 1 { header := 0x20080, state := .idle, ctl := some 0x20098 } = some 0x20180 ∧ takeWaits s c 1 { header := 0x20080, state := .idle, ctl := some 0x20098 } = false ∧ deviceRead s c 1 0x20180 = some 0x20180 ∧ badRecordAddr s c 1 0x20180 = false := by
  decide +kernel
/-- A launch of the context, beside the one that runs. -/
def launched (l : Launch) (n : Nat) : State :=
  let s := tables 0x2007F (fun c => (ctx (fun x => { x with allowed := BitVec.allOnes 160 }) c).setLaunch 5 l)
  { s with mem := Memory.writeN s.mem 0x20000 4 n }
theorem witness_StewardAndContextEvents_depend :
    (∀ n ∈ [0, 0x20000000], Sparse.find? (launched { ctx := 1, afters := [0x20000] } n).now.launches 5 = some { ctx := 1, afters := [0x20000] }) ∧
    wordState (launched { ctx := 1, afters := [0x20000] } 0) (launched { ctx := 1, afters := [0x20000] } 0).now 1 0x20000 = 0 ∧
    wordState (launched { ctx := 1, afters := [0x20000] } 0x20000000) (launched { ctx := 1, afters := [0x20000] } 0x20000000).now 1 0x20000 = 2 ∧
    ({ ctx := 1, afters := [0x20000] } : Launch).state = .pending ∧
    doneWaits (launched { ctx := 1, afters := [0x20000] } 0) (launched { ctx := 1, afters := [0x20000] } 0).now 1 0 = false := by decide +kernel
theorem witness_StewardAndContextEvents_place :
    let s := launched { ctx := 1, qix := 1, entry := 0x10000, state := .ready } 0
    (s.now.readyHeads.map (fun h => (h.1, h.2.1))) = [(257, 5)] ∧ (placeNext s s.now 5).isSome = true := by decide +kernel
theorem witness_StewardAndContextEvents_retire :
    let s := calm (thread (fun t => { t with place := .exited }))
    (s.now.team 1).core = some 0 ∧ s.now.teamDone 1 = true ∧ doneWaits s s.now (s.now.team 1).ctx (s.now.launch (s.now.team 1).launch).doneAddr = false := by decide +kernel
/-- The context in a state with a request in effect. -/
def inState (st : CtxState) (cur : Option Request) (f : Ctx → Ctx) : State := calm (ctx (fun x => f { x with state := st, current := cur }))
theorem witness_StewardAndContextEvents_quiescent :
    (∀ r ∈ [Request.save, .mark true, .stop], ((inState .stopping (some r) id).now.ctx 1).state = .stopping ∧ ((inState .stopping (some r) id).now.ctx 1).current = some r ∧
      (inState .stopping (some r) id).now.quiescent ((inState .stopping (some r) id).now.placedTeams 1) = true ∧ ((inState .stopping (some r) id).now.ctx 1).requests = []) ∧
    (∀ n ∈ [0x10000, 0], let s := calm (fun c => ctx (fun x => { x with state := .saving, current := some .save, savelen := BitVec.ofNat 64 n }) { c with teams := [] })
      (s.now.ctx 1).state = .saving ∧ s.now.quiescent (s.now.placedTeams 1) = true ∧ s.now.imageFits 1 (s.now.teamsOf 1) = decide (n ≠ 0) ∧ (s.now.ctx 1).requests = []) := by
  decide +kernel
theorem witness_StewardAndContextEvents_preempt :
    let at_ := fun (r : Nat) => inState .running none (fun x => { x with preempt := some { n := 1, report := r, vacate := 1 } })
    (∀ r ∈ [0, 0x800000000000 - 64], ((at_ r).now.ctx 1).preempt = some { n := 1, report := r, vacate := 1 } ∧
      (at_ r).now.quiescent (((at_ r).now.placedTeams 1).filter (fun t => ((at_ r).now.team t).core.any (fun k => (1 : BitVec 160).getLsbD k))) = true) ∧
    populated (at_ 0) 0 = true ∧ populated (at_ 0) 63 = true ∧ populated (at_ 0) (0x800000000000 - 64) = false := by decide +kernel
theorem witness_StewardAndContextEvents_move :
    let s := inState .migrating (some (.move 6143)) id
    (s.now.ctx 1).state = .migrating ∧ (s.now.ctx 1).current = some (.move 6143) ∧
    s.now.cores.any (fun k => k.2.remap.any (fun t => decide ((s.now.team t).ctx = 1))) = false ∧ (s.now.ctx 1).requests = [] := by decide +kernel
/-- A checkpoint of one page, with as much of it written. -/
def aCkpt (st : CkptState) (n : Nat) : Ckpt := { full := true, state := st, pages := [0x20000], written := n }
theorem witness_StewardAndContextEvents_marks :
    let s := fun (ks : Sparse Ckpt) => inState .running none (fun x => { x with ckptint := 1, sinceMark := 1, ckpts := ks })
    (∀ ks ∈ [[], [(0, aCkpt .staged 0)]], (s ks).board.split.getLsbD 1 = false ∧ ((s ks).now.ctx 1).ckptint ≠ 0 ∧
      ((s ks).now.ctx 1).ckptint.toNat ≤ ((s ks).now.ctx 1).sinceMark ∧ ((s ks).now.ctx 1).requests ++ ((s ks).now.ctx 1).current.toList = [] ∧
      ((s ks).now.ctx 1).staged = decide (ks ≠ [])) ∧
    ((inState .stopped (some (.mark false)) id).now.ctx 1).current = some (.mark false) ∧ ((inState .stopped (some (.mark false)) id).now.ctx 1).state = .stopped := by
  decide +kernel
theorem witness_StewardAndContextEvents_streams :
    let x := fun (st : CkptState) (n : Nat) => (inState .running none (fun x => { x with ckpts := [(3, aCkpt st n)] })).now.ctx 1
    (x .streaming 64).ckptrate ≠ 0 ∧ (x .streaming 64).ckptIn .streaming = some (3, aCkpt .streaming 64) ∧ (aCkpt .streaming 64).pages[(aCkpt .streaming 64).streamed]? = some 0x20000 ∧
    0x20000 ∈ (aCkpt .streaming 64).pages.drop (aCkpt .streaming 64).streamed ∧
    (x .staged 0).ckptIn .streaming = none ∧ (x .staged 0).ckptIn .staged = some (3, aCkpt .staged 0) ∧
    (x .streaming 65616).ckptIn .streaming = some (3, aCkpt .streaming 65616) ∧ (aCkpt .streaming 65616).pages.length ≤ (aCkpt .streaming 65616).streamed ∧
    (x .streaming 65616).requests = [] := by decide +kernel

/-! O58. -/
def boarded (f : Board → Board) : State := { calm id with board := f {} }
theorem witness_LinkAndPowerEvents_time :
    (let s := boarded (fun b => { b with master := some 0, sinceSync := 1024, ports := [(0, { state := .up })] })
     s.board.master = some s.board.device ∧ 1024 ≤ s.board.sinceSync ∧ (s.board.port 0).carries = true ∧ (s.board.port 1).carries = false) ∧
    (let s := boarded (fun b => { b with master := some 5, sinceSync := 65536 })
     s.board.master ≠ none ∧ s.board.master ≠ some s.board.device ∧ 65536 ≤ s.board.sinceSync) := by decide +kernel
theorem witness_LinkAndPowerEvents_flits :
    (∀ n ∈ [0, 7], (boarded (fun b => { b with ports := [(15, { state := .degraded, replay := [(0, 0)], inRow := n })] })).board.port 15 = { state := .degraded, replay := [(0, 0)], inRow := n }) ∧
    flitKind (flitHeader 0 5 1 0 7 false true) = 7 ∧ flitDst (flitHeader 0 5 1 0 7 false true) = 0 ∧ flitOrdered (flitHeader 0 5 1 0 7 false true) = false ∧
    7 < flitKind (flitHeader 0 5 1 0 8 false true) ∧ flitDst (flitHeader 9 5 1 0 7 false true) ≠ 0 ∧
    fieldNat (flitHeader 0 5 1 0 7 false true).toNat 60 4 = 0 ∧ fieldNat (0x1000000000000000 : BitVec 64).toNat 60 4 ≠ 0 ∧
    flitLast (flitHeader 0 5 1 0 4 true true) = true ∧ (Sparse.get {} (boarded id).board.flows 5 : Flow).parts = [] ∧
    (Sparse.get {} (boarded (fun b => { b with flows := [(flowKey (flitHeader 0 5 1 0 7 false true), { seen := [0] })] })).board.flows (flowKey (flitHeader 0 5 1 0 7 false true))).seen.contains 0 = true := by decide +kernel
theorem witness_LinkAndPowerEvents_ports :
    ((boarded id).board.port 17).state = .training ∧ (16 : Nat) = fullLanes 17 ∧ (5 : Nat) ∉ [16, 8, 4] ∧ 2 * 8 ≤ fullLanes 17 ∧ (32 : Nat) = fullLanes 15 ∧
    ((boarded (fun b => { b with ports := [(16, { state := .down })] })).board.port 16).state = .down ∧ 0 ∉ (boarded id).board.barnFenced ∧
    ((boarded (fun b => { b with ports := [(0, { state := .up })] })).board.port 0).carries = true := by decide +kernel
/-- Die 0 in a state. -/
def dieIn (d : Die) : State := calm (fun c => c.setDie 0 d)
theorem witness_LinkAndPowerEvents_power :
    (∀ i, ((calm id).now.die i).state ≠ .parked ∧ ((calm id).now.die i).state ≠ .fenced) ∧ 256 + 256 + 256 + 256 ≤ 1024 ∧ (0 : BitVec 11).toNat ≤ (calm id).board.ceiling ∧
    ((dieIn { target := some 2 }).now.die 0).target = some 2 ∧ ((dieIn { state := .parking }).now.die 0).state = .parking ∧
    ((dieIn { state := .waking }).now.die 0).state = .waking ∧ ((dieIn { state := .waking }).now.die 0).banks = [] ∧ (1 : BitVec 32) ≠ 0 := by
  refine ⟨fun i => ⟨?_, ?_⟩, by decide +kernel⟩
  · exact get_all (fun (x : Die) => x.state ≠ .parked) {} (by decide) (calm id).now.dies (by decide +kernel) i
  · exact get_all (fun (x : Die) => x.state ≠ .fenced) {} (by decide) (calm id).now.dies (by decide +kernel) i
/-- A slot that loads an image with no code, of action 1 at both levels, checked by the host. -/
def slotIn (x : Slot) (good : Bool) : State :=
  let s := calm (fun c => c.setSlot 0 x)
  { s with mem := if good then Memory.writeN (Memory.writeN (Memory.writeN (Memory.writeN [] 0x1000 4 0x4C494E53) 0x1004 2 1) 0x1038 8 192) 0x1009 3 0x030001 else [] }
def loadingSlot (v : Option Bool) : Slot := { state := .loading, image := 0x1000, assisted := true, verdict := v, legal := true }
/-- The reason a load fails with, 0 where it passes. -/
def loadReason : LoadCheck → Option Nat
  | .passes => some 0
  | .fails r => some r
  | .waits => none
theorem witness_LinkAndPowerEvents_slots :
    loadReason (checkLoad (slotIn (loadingSlot (some true)) true) 0 (loadingSlot (some true)) (some true)) = some 0 ∧
    loadReason (checkLoad (slotIn (loadingSlot (some true)) false) 0 (loadingSlot (some true)) (some true)) = some 2 ∧
    loadReason (checkLoad (slotIn (loadingSlot (some false)) true) 0 (loadingSlot (some false)) (some false)) = some 3 ∧
    (slotIn (loadingSlot none) true).now.slot 0 = loadingSlot none ∧ (loadingSlot none).assisted = true ∧ (loadingSlot none).verdict = none ∧
    (slotIn { state := .loaded, arming := true } false).now.slot 0 = { state := .loaded, arming := true } ∧
    (slotIn { state := .draining } false).now.slotBusy 0 = false := by
  decide +kernel

/-! O59. -/
theorem witness_ErrorAndPressEvents_errors :
    (calm id).now.active (4223 / 128) = true ∧ 9 < 10 ∧ (9 : Nat) ≠ 4 ∧ (9 : Nat) ≠ 7 ∧
    (let s := calm (thread (fun t => { t with due := some { since := 256, subcode := 2 } }))
     (s.now.thread 32).due = some { since := 256, subcode := 2 } ∧ s.now.mayRun (s.now.teamOf 32) = true ∧ s.now.guarded 32 = false) ∧
    (let s := calm (team (fun k => { k with rollback := true, interval := { rolled := 2 } }))
     (s.now.team 1).live = true ∧ (s.now.team 1).rollback = true ∧ (s.now.team 1).core.isSome = true ∧ (s.now.team 1).interval.early = false ∧
      (s.now.team 1).interval.rolled < 3) := by decide +kernel
theorem witness_ErrorAndPressEvents_fences :
    ((calm id).now.die 3).state ≠ .fenced ∧ (boarded id).board.split.getLsbD 4 = false ∧ (boarded (fun b => { b with split := 16 })).board.split.getLsbD 4 = true ∧
    ((dieIn { fencing := true }).now.die 0).fencing = true ∧ 1 ∉ (boarded id).board.barnFenced ∧
    0 ∈ (boarded (fun b => { b with barnFenced := [0] })).board.barnFenced ∧ (boarded (fun b => { b with barnFenced := [0] })).board.safe = false := by decide +kernel
/-- The record of a wait at a barrier that has lasted as long as TIMEOUT. -/
def lateRec : WaitRec := { kind := .barrier 0 false, word := .barSync false 0, waited := 5, timeout := 5 }
theorem witness_ErrorAndPressEvents_timeouts :
    let s := calm (fun c => thread (fun t => { t with place := .waiting lateRec }) (roomy c))
    (s.now.thread 32).waitsOn = some lateRec ∧ s.now.earliest (s.now.coWaiters 32 lateRec) = some (32, lateRec) ∧ lateRec.timeout ≠ 0 ∧
    lateRec.timeout ≤ lateRec.waited ∧ s.now.mayRun (s.now.teamOf 32) = true ∧ s.now.waitInfo 32 lateRec (s.now.coWaiters 32 lateRec) = (1, 0, 0, 1) := by decide +kernel
/-- Groups 1 to 4 of the team, with GROUPIX 0 to 3, each with one thread whose publication is complete. -/
def quad (c : Chip) : Chip :=
  let c := [1, 2, 3, 4].foldl (fun c g => ((c.setThread (32 * g) { c.thread 32 with level := .user }).setGroup g { c.group 1 with ix := BitVec.ofNat 32 (g - 1) }).setPub g
    { group := g, first := 0, count := 4, lanes := [0] }) c
  team (fun k => { k with threads := 97, spad := 4096, lmem := Memory.writeBytes [] 0 (wordBytes [0x20, 0x2020, 0, 0, 0x03020100, 0]) }) c
def quadRec : WaitRec := { kind := .quad, word := .mxIssue false 4 9, waited := 5, timeout := 5 }
theorem witness_ErrorAndPressEvents_quad :
    let s := calm (fun c => (quad c).setThread 32 { (quad c).thread 32 with place := .waiting quadRec })
    (s.now.thread 32).waitsOn = some quadRec ∧ 4 ≤ s.now.joined 32 quadRec ∧ s.now.mayRun (s.now.teamOf 32) = true ∧
    s.now.earliest (s.now.coWaiters 32 quadRec) = some (32, quadRec) ∧ quadRec.timeout ≠ 0 ∧ quadRec.timeout ≤ quadRec.waited := by decide +kernel
/-- An entry of the group's queue that has ended. -/
def anEntry : PressEntry := { kind := .zero, group := 1, team := 1, level := .user, lane := 0, ended := true }
theorem witness_ErrorAndPressEvents_press :
    let s := calm (fun c => c.setPress 7 anEntry)
    Sparse.find? s.now.press 7 = some anEntry ∧ (s.now.team anEntry.team).core.isSome = true ∧ anEntry.ended = true ∧ (s.now.group 1).resident = true ∧
    s.now.mayRun (s.now.group 1).team = true ∧ (1 : Nat) ≠ 0 := by decide +kernel

/-! O60. -/
/-- The mailbox with its buffer, outside the safe state, started with a command. -/
def mailed (code : Nat) (buf : List (Nat × Nat × Nat)) (f : Chip → Chip) : State :=
  { calm f with board := { mbstate := .busy, mbrun := BitVec.ofNat 16 code, mbbuf := buf.foldl (fun m p => Memory.writeN m p.1 p.2.1 p.2.2) [] } }
theorem witness_HostCommands_words : (1 : BitVec 32).getLsbD 0 = true ∧ (boarded id).board.mbstate ≠ .busy ∧ (mailed 1 [] id).board.mbstate = .busy ∧
    (4 : BitVec 32).getLsbD 2 = true ∧ 0x1000 ≤ 0x1FFC ∧ 0x1FFC + 4 ≤ 0x2000 := by decide +kernel
theorem witness_HostCommands_context :
    (∀ code ∈ [0x10, 0x11, 0x12, 0x13, 0x14, 0x15, 0x16, 0x19, 0x1A, 0x1B],
      let s := mailed code [(0, 4, 1)] id
      let t := mailed code [(0, 4, 9)] id
      s.board.mbstate = .busy ∧ s.board.mbrun.toNat = code ∧ s.board.safe = false ∧ s.now.named (s.buf 0 4) = true ∧ t.now.named (t.buf 0 4) = false) ∧
    (mailed 0x12 [(0, 4, 1)] id).buf 4 4 = 0 ∧ (mailed 0x12 [(0, 4, 1), (4, 4, 1)] id).buf 4 4 = 1 ∧ 1 < (mailed 0x12 [(0, 4, 1), (4, 4, 2)] id).buf 4 4 ∧
    (let s := mailed 0x13 [(0, 4, 1), (4, 4, 160)] id
     s.buf 4 4 ≠ 0 ∧ s.buf 4 4 ≤ 160 ∧ populated s (s.buf 8 8) = true ∧ populated s (s.buf 8 8 + 63) = true) ∧
    160 < (mailed 0x13 [(0, 4, 1), (4, 4, 161)] id).buf 4 4 ∧
    (mailed 0x14 [(0, 4, 1), (4, 2, 6143)] id).buf 4 2 ≤ 6143 ∧ (mailed 0x14 [(0, 4, 1)] id).buf 6 2 = 0 ∧ 6143 < (mailed 0x14 [(0, 4, 1), (4, 2, 6144)] id).buf 4 2 ∧
    (Sparse.find? (mailed 0x17 [(0, 4, 1)] id).now.ctxs ((mailed 0x17 [(0, 4, 1)] id).buf 0 4)).isSome = true ∧
    Sparse.find? (mailed 0x17 [] id).now.ctxs ((mailed 0x17 [] id).buf 0 4) = none ∧
    (mailed 0x1B [(0, 4, 1), (4, 4, 0x183)] id).buf 4 4 ∈ contextWords ∧ (mailed 0x1B [] (fun c => { c with teams := [] })).now.teamsOf 1 = [] ∧
    (mailed 0x1B [(0, 4, 1), (4, 4, 0x183)] id).now.teamsOf 1 ≠ [] ∧ (mailed 0x1B [(0, 4, 1), (4, 4, 0x101)] id).buf 4 4 ∉ contextWords := by decide +kernel
/-- An object file at 0x10000 with one kernel, of one thread and eight registers, and twelve bytes of code. -/
def objectFile : Memory :=
  [(0, 4, 0x4F584D4E), (4, 4, 0x10001), (8, 4, 0x80), (12, 4, 12), (0x18, 4, 8), (0x30, 4, 0x40), (0x48, 4, 0xFFFFFFFF), (0x4C, 4, 0x10001), (0x50, 1, 8),
    (0x58, 2, 0x101)].foldl (fun m p => Memory.writeN m (0x10000 + p.1) p.2.1 p.2.2) []
theorem loads_of {e : State} {c : Chip} {ctx file : Nat} {eager : Bool}
    (h : (match readObject e c file with | some o => !o.refused (c.ctx ctx) && !o.over (c.ctx ctx) | none => false) = true) :
    ∃ r, loadObject e c ctx file eager = .inl r := by
  unfold loadObject
  cases ho : readObject e c file with
  | none => rw [ho] at h; exact absurd h Bool.false_ne_true
  | some o =>
    rw [ho] at h
    simp only [Bool.and_eq_true, Bool.not_eq_true'] at h
    simp only [h.1, h.2, Bool.false_eq_true, if_false]
    exact ⟨_, rfl⟩
theorem witness_HostCommands_object :
    let s := { mailed 0x19 [(0, 4, 1), (8, 8, 0x10000), (0x10, 4, 1)] id with mem := objectFile }
    (∃ r, loadObject s s.now 1 0x10000 true = .inl r) ∧ s.buf 8 8 = 0x10000 ∧ bitAt (s.buf 0x10 4) 0 = true := by
  refine ⟨loads_of (by decide +kernel), by decide +kernel⟩
theorem witness_HostCommands_noObject : loadObject (calm id) (calm id).now 1 0 false = .inr 3 := by
  have h : readObject (calm id) (calm id).now 0 = none := Option.isNone_iff_eq_none.mp (by decide +kernel)
  unfold loadObject
  rw [h]
theorem witness_HostCommands_create :
    (let s := mailed 0x18 [(0, 8, 0x10000), (0x30, 4, 1)] id
     s.buf 0 8 % 65536 = 0 ∧ s.buf 8 8 % 65536 = 0 ∧ s.buf 0x10 8 % 65536 = 0 ∧ s.buf 0x30 4 ≤ 1 ∧ s.buf 0x28 8 = 0) ∧
    (mailed 0x18 [(0, 8, 0x10000), (0x28, 8, 0x10000)] id).buf 0x28 8 ≠ 0 ∧ (mailed 0x18 [(0, 8, 1)] id).buf 0 8 % 65536 ≠ 0 := by decide +kernel
theorem witness_HostCommands_create_number : (calm id).now.freeNumber = some 2 := by
  unfold Chip.freeNumber
  rw [List.find?_range_eq_some]
  refine ⟨by decide +kernel, by simp, by decide +kernel⟩
/-- The one clause with no witness is ENROL_OPERATOR_KEY's success: the vendor's key is an opaque constant (log entry 4). -/
theorem witness_HostCommands_rest :
    (let s := mailed 0x20 [(192, 4, 1)] (fun c => c.setSlot 15 (loadingSlot none))
     Sparse.keysWhere (fun _ (x : Slot) => decide (x.state = .loading) && x.assisted && x.verdict.isNone && decide (physBytes s s.now x.image 128 = s.bufBytes 0 128)) s.now.slots = [15]) ∧
    (let s := mailed 0x21 [(0, 4, 4)] id
     s.buf 0 4 ≠ 0 ∧ s.buf 0 4 ≤ 4 ∧ s.buf 4 4 = 0) ∧
    4 < (mailed 0x21 [(0, 4, 5)] id).buf 0 4 ∧ (mailed 0x30 [(0, 4, 17)] id).buf 0 4 ≤ 17 ∧ 17 < (mailed 0x30 [(0, 4, 18)] id).buf 0 4 ∧
    (mailed 0x31 [(0, 4, 15)] id).buf 0 4 ≤ 15 ∧ 15 < (mailed 0x31 [(0, 4, 16)] id).buf 0 4 ∧
    ({ (mailed 0x32 [] id).board with ports := [(0, { state := .fenced })] } : Board).port 0 = { state := .fenced } ∧
    (mailed 0x40 [(0, 2, 6143), (2, 2, 6143)] id).buf 0 2 ≤ 6143 ∧ (mailed 0x40 [(0, 2, 6143), (2, 2, 6143)] id).buf 4 4 = 0 ∧
    6143 < (mailed 0x40 [(2, 2, 6144)] id).buf 2 2 ∧ mailCodes.contains (mailed 0x99 [] id).board.mbrun.toNat = false := by decide +kernel

/-! One step of a loaded word, against the manual's worked values. -/

/-- What a register of the thread holds after one step of the loaded word, with its tag. -/
noncomputable def after (w : Nat) (f : Chip → Chip) (r : Nat) : Option (Word × Tag) :=
  match step { loaded w with now := f (loaded w).now } with
  | .next t => some (t.now.v 32 r, (t.now.reg 32 r).tag)
  | _ => none
/-- A thread field after that step. -/
noncomputable def afterThread {α : Type} (w : Nat) (f : Chip → Chip) (g : Thread → α) : Option α :=
  match step { loaded w with now := f (loaded w).now } with
  | .next t => some (g (t.now.thread 32))
  | _ => none
/-- 05 R102, the worked BFX.s32. -/
theorem test_bfx : fieldExtract true 0x80000000 0x081C = 0xFFFFFFF8 ∧ fieldExtract false 0x80000000 0x081C = 8 := by decide +kernel
/-- 05 R102, the worked PERM. -/
theorem test_perm : permute 0x88776655 0x44332211 0xB470 = 0x00558811 := by decide +kernel
/-- 05 R101: ROTL by 40. -/
theorem test_rotl : (0x80000000 : Word).rotateLeft (40 % 32) = 0x80 := by decide +kernel
/-- 06 R116, the worked FMA, by a step of its word. -/
theorem test_fma : after 0x19028103 (fun c => put 2 0x3F800800 (put 3 0x3F800800 (put 10 0xBF801000 c))) 10 = some (0x33800000, tagF32) := by decide +kernel
/-- 06 R125, the worked CVT. -/
theorem test_cvt : after 0x1C804091 (put 1 0x43EB0000) 1 = some (0x43E00000, tagF32) := by decide +kernel
/-- 06 R125: CVT.s32.f32.rz of −2.75. -/
theorem test_cvt_rz : after 0x1C204100 (put 2 0xC0300000) 1 = some (0xFFFFFFFE, tagInt) := by decide +kernel
/-- 06 R126, the worked PKE4.lo. -/
theorem test_pke4 : packLow tagE4m3 0 0x43EB0000 0x3F800000 = 0x387F := by decide +kernel
/-- 06 R128, the worked DOT4.ps8. -/
theorem test_dot4ps8 : after 0x1E620205 (fun c => (put 8 0x40000000 (c.setReg 32 4 { bits := 0x87241707, tag := tagPs8 })).setReg 32 5 { bits := 0x27071717, tag := tagPs8 }) 8
    = some (0x40340000, tagF32) := by decide +kernel
/-- 19, the worked service call: ECALL at user level enters the handler with cause 0x11 and TRAPINFO0 = 0x1005. -/
theorem test_ecall : afterThread 0x3E030405 (fun c => put 2 7 (vector 0x10008 c)) (fun t => (t.trap.cause, t.trap.info0, t.trap.info2, t.pc, t.trap.pc, t.level))
    = some (0x11, 0x1005, 7, 0x10008, 0x10004, .supervisor) := by decide +kernel
/-- 05 R107, the worked ISETP: −1 < 0. -/
theorem test_isetp : afterThread 0x1348C082 (put 1 0xFFFFFFFF) (fun t => t.preds) = some 8 := by decide +kernel
/-- 04 R72: 464.0 ties to the even mantissa, 0x7E; 470.0 overflows to NaN; R76: PS8 of 0.3 is 0x24. -/
theorem test_round : roundTag tagE4m3 .rn false (f32 0x43E80000) = 0x7E ∧ roundTag tagE4m3 .rn false (f32 0x43EB0000) = 0x7F ∧
    roundTag tagPs8 .rn false (f32 0x3E99999A) = 0x24 := by decide +kernel
/-- 06 R117: the exact values behind FEX2, FLG2 and FSINP, rounded to F32: 2^0.5, log2 3 and sin (π/4), by hand calculation. -/
theorem test_special : toF32 (exactExp2 false (2 ^ 255)) = 0x3FB504F3 ∧ toF32 (exactLog2 3 0) = 0x3FCAE00D ∧
    toF32 (exactSinPi false (2 ^ 254)) = 0x3F3504F3 := by decide +kernel
/-- A step of the NOP that is loaded goes on behind it. -/
theorem test_step_nop : afterThread 0x25000000 id (fun t => t.pc) = some 0x10004 := by decide +kernel

end Sys2Proof.Tests
end

section
/-! Bytes of memory (O52): what a number written little-endian reads as, when two memories are the same, and what a store to team-local
memory changes. -/

namespace Sys2Proof.Machine

/-! Memory by byte (01 R5). -/

/-- The bytes of a number written little-endian read as its digits to base 256, and every other byte as before. -/
theorem Memory.read_writeN {m : Memory} (a n v p : Nat) (h : m.wf = true) :
    Memory.read (Memory.writeN m a n v) p =
      if a ≤ p ∧ p < a + n then BitVec.ofNat 8 (v / 256 ^ (p - a)) else Memory.read m p := by
  by_cases hp : a ≤ p ∧ p < a + n
  · rw [if_pos hp]
    obtain ⟨k, rfl⟩ := Nat.exists_eq_add_of_le hp.1
    rw [Nat.add_sub_cancel_left]
    replace hp : k < n := by omega
    induction k generalizing m a n v with
    | zero =>
      obtain ⟨n, rfl⟩ := Nat.exists_eq_succ_of_ne_zero (Nat.ne_of_gt hp)
      rw [Memory.writeN, Memory.read_writeN_other (Memory.wf_write _ _ h) (by omega), Memory.read_write _ h]
      simp
    | succ k ih =>
      obtain ⟨n, rfl⟩ := Nat.exists_eq_succ_of_ne_zero (Nat.ne_zero_of_lt hp)
      rw [Memory.writeN, show a + (k + 1) = a + 1 + k by omega, ih _ _ _ (Memory.wf_write _ _ h) (by omega), Nat.div_div_eq_div_mul,
        Nat.pow_succ']
  · rw [if_neg hp, Memory.read_writeN_other h (by omega)]

/-- The first byte listed reads as listed. -/
theorem Memory.read_cons_same (x : Nat) (y : BitVec 8) (t : Memory) : Memory.read ((x, y) :: t) x = y := by
  simp [Memory.read]

/-- A byte above the first one listed reads from the rest. -/
theorem Memory.read_cons_above {x p : Nat} (y : BitVec 8) (t : Memory) (h : x < p) : Memory.read ((x, y) :: t) p = Memory.read t p := by
  simp [Memory.read, Nat.not_lt.mpr (Nat.le_of_lt h), Nat.ne_of_gt h]

/-- A canonical form with a first entry: its parts. -/
theorem Memory.wfFrom_cons {n x : Nat} {y : BitVec 8} {t : Memory} (h : Memory.wfFrom n ((x, y) :: t) = true) :
    n ≤ x ∧ y ≠ background ∧ Memory.wfFrom (x + 1) t = true := by
  simpa [Memory.wfFrom, and_assoc] using h

/-- Of two memories that read alike, a canonical one lists no byte below the first of the other. -/
theorem Memory.head_le_of_read_eq {n x z : Nat} {y w : BitVec 8} {t u : Memory} (h : Memory.wfFrom n ((x, y) :: t) = true)
    (hr : ∀ p, Memory.read ((x, y) :: t) p = Memory.read ((z, w) :: u) p) : z ≤ x := by
  by_contra hz
  have h1 := hr x
  rw [Memory.read_cons_same, Memory.read, if_pos (Nat.lt_of_not_le hz)] at h1
  exact (Memory.wfFrom_cons h).2.1 h1

/-- Two memories in canonical form that read alike are equal. -/
theorem Memory.eq_of_read_eq {m n : Memory} {k : Nat} (hm : Memory.wfFrom k m = true) (hn : Memory.wfFrom k n = true)
    (h : ∀ p, Memory.read m p = Memory.read n p) : m = n := by
  induction m generalizing n k with
  | nil =>
    cases n with
    | nil => rfl
    | cons q u =>
      have h1 := h q.1
      rw [Memory.read_cons_same] at h1
      exact absurd h1.symm (Memory.wfFrom_cons hn).2.1
  | cons p t ih =>
    obtain ⟨x, y⟩ := p
    cases n with
    | nil =>
      have h1 := h x
      rw [Memory.read_cons_same] at h1
      exact absurd h1 (Memory.wfFrom_cons hm).2.1
    | cons q u =>
      obtain ⟨z, w⟩ := q
      obtain rfl : x = z := Nat.le_antisymm (Memory.head_le_of_read_eq hn (fun p => (h p).symm)) (Memory.head_le_of_read_eq hm h)
      obtain ⟨-, -, ht⟩ := Memory.wfFrom_cons hm
      obtain ⟨-, -, hu⟩ := Memory.wfFrom_cons hn
      have hy : y = w := by simpa [Memory.read_cons_same] using h x
      have htu : t = u := ih ht hu (fun p => by
        by_cases hp : x < p
        · simpa [Memory.read_cons_above, hp] using h p
        · rw [Memory.read_below ht (by omega), Memory.read_below hu (by omega)])
      rw [hy, htu]

/-! Team-local memory (11 R236, R243). -/

/-- Machine `d` has the teams of `c` where they were placed: what decides which team a team-local access reaches. -/
def SamePlaces (c d : Chip) : Prop :=
  d.groups = c.groups ∧ d.clusters = c.clusters ∧
    ∀ k, (d.team k).cluster = (c.team k).cluster ∧ (d.team k).clx = (c.team k).clx ∧ (d.team k).cly = (c.team k).cly ∧ (d.team k).live = (c.team k).live

theorem SamePlaces.refl (c : Chip) : SamePlaces c c := ⟨rfl, rfl, fun _ => ⟨rfl, rfl, rfl, rfl⟩⟩

theorem SamePlaces.trans {a b c : Chip} (h : SamePlaces a b) (k : SamePlaces b c) : SamePlaces a c := by
  obtain ⟨h1, h2, h3⟩ := h
  obtain ⟨k1, k2, k3⟩ := k
  refine ⟨k1.trans h1, k2.trans h2, fun j => ?_⟩
  simp only [k3 j, h3 j, and_self]

/-- Such machines send a team-local access to the same team. -/
theorem SamePlaces.localTeam {c d : Chip} (h : SamePlaces c d) : d.localTeam = c.localTeam := by
  obtain ⟨h1, h2, h3⟩ := h
  have ht : d.teamOf = c.teamOf := by funext t; simp only [Chip.teamOf, Chip.group, h1]
  have hs : d.sibling = c.sibling := by funext t x y; simp only [Chip.sibling, ht, h3, Chip.cluster, h2]
  funext t space base
  simp only [Chip.localTeam, ht, hs]

theorem Chip.team_setTeam (c : Chip) (k j : Nat) (x : Team) : (c.setTeam k x).team j = if j = k then x else c.team j := by
  simp [Chip.team, Chip.setTeam, Sparse.get_set]

/-- A team replaced by one placed alike. -/
theorem samePlaces_setTeam {c : Chip} {k : Nat} {x : Team}
    (h : x.cluster = (c.team k).cluster ∧ x.clx = (c.team k).clx ∧ x.cly = (c.team k).cly ∧ x.live = (c.team k).live) : SamePlaces c (c.setTeam k x) := by
  refine ⟨rfl, rfl, fun j => ?_⟩
  rw [Chip.team_setTeam]
  split
  · rename_i hj; rw [hj]; exact h
  · exact ⟨rfl, rfl, rfl, rfl⟩

theorem samePlaces_writeLocal (c : Chip) (team off size data : Nat) : SamePlaces c (c.writeLocal team off size data) :=
  ⟨rfl, rfl, (samePlaces_setTeam (by exact ⟨rfl, rfl, rfl, rfl⟩)).2.2⟩

theorem samePlaces_stampLocal (c : Chip) (team core : Nat) : SamePlaces c (c.stampLocal team core) := samePlaces_setTeam ⟨rfl, rfl, rfl, rfl⟩

/-- A write to a team's memory changes the bytes it writes, of that team. -/
theorem Chip.lmem_writeLocal (c : Chip) (team off size data j : Nat) : ((c.writeLocal team off size data).team j).lmem =
    if j = team then Memory.writeN (c.team team).lmem off size data else (c.team j).lmem := by
  have h : (c.writeLocal team off size data).team j = (c.setTeam team _).team j := rfl
  rw [h, Chip.team_setTeam]
  split <;> rfl

@[simp] theorem Chip.lmem_stampLocal (c : Chip) (team core j : Nat) : ((c.stampLocal team core).team j).lmem = (c.team j).lmem := by
  rw [Chip.stampLocal, Chip.team_setTeam]
  split
  · rename_i hj; rw [hj]
  · rfl

/-- Machine `d` has the teams of `c` where they were placed, their memories in canonical form, and the byte `a` of a team as in `c`. -/
def KeepsByte (team a : Nat) (c d : Chip) : Prop :=
  SamePlaces c d ∧ (∀ k, (d.team k).lmem.wf = true) ∧ Memory.read (d.team team).lmem a = Memory.read (c.team team).lmem a

/-- A store that names another byte keeps this one. -/
theorem KeepsByte.store {team a k off size data core : Nat} {c d : Chip} (h : KeepsByte team a c d) (hk : ¬ (team = k ∧ off ≤ a ∧ a < off + size)) :
    KeepsByte team a c ((d.writeLocal k off size data).stampLocal k core) := by
  obtain ⟨hp, hw, hr⟩ := h
  refine ⟨hp.trans ((samePlaces_writeLocal _ _ _ _ _).trans (samePlaces_stampLocal _ _ _)), fun j => ?_, ?_⟩
  · rw [Chip.lmem_stampLocal, Chip.lmem_writeLocal]
    split
    · exact Memory.wf_writeN _ _ _ (hw k)
    · exact hw j
  · rw [Chip.lmem_stampLocal, Chip.lmem_writeLocal, ← hr]
    split
    · rename_i hj
      subst hj
      exact Memory.read_writeN_other (hw team) (by omega)
    · rfl

/-- What every execution of a word made once for each visible thread, or once for the group, keeps, the word keeps. -/
theorem once_keeps {u : Bool} {f : State → Nat → List Nat → Chip → Chip} {pre : State} {all live : List Nat} {c : Chip} {P : Chip → Prop}
    (hc : P c) (hf : ∀ x ∈ (if u = true then [all.headD 0] else live), ∀ takers d, P d → P (f pre x takers d)) : P (once u f pre all live c) := by
  cases u with
  | true => exact hf _ (List.mem_singleton.mpr rfl) _ _ hc
  | false =>
    exact List.foldlRecOn _ _ hc (fun d hd x hx => hf x (List.mem_of_mem_filter hx) _ d hd)

/-- A team-local access that may be made meets no check outside the stash. -/
theorem localVerdict_none {e : State} {l slot size : Nat} {space : Space} {base : Word} {off : Int} {write : Bool}
    (h : LocalReachable e l space base off size write) (hs : space ≠ .stash) : localVerdict e l slot space base off size write = none := by
  obtain ⟨ha, h0, h⟩ := h
  cases space with
  | loc =>
    obtain ⟨hi, hw⟩ := h
    simp [localVerdict, locVerdict, ha, hw, Int.not_lt.mpr h0, Int.not_lt.mpr hi]
  | rmt =>
    obtain ⟨hi, hz, hx, hy, hsome⟩ := h
    simp [localVerdict, ha, hz, Int.not_lt.mpr h0, Int.not_lt.mpr hi, Nat.not_le.mpr hx, Nat.not_le.mpr hy, Option.isNone_eq_false_iff.mpr hsome]
  | stash => exact absurd rfl hs

/-- The offset of an STS (11 R236). -/
def stsOffset (t : BitVec 2) (z : BitVec 3) (w : BitVec 7) (o : BitVec 5) (c : Chip) (l : Nat) : Int :=
  localOffset c l w.toNat (decide (spaceOf t = .rmt)) o (sizeBytes z)

/-- It is the base plus the scaled offset, the base cut to its low bits under .rmt. -/
theorem stsOffset_eq (t : BitVec 2) (z : BitVec 3) (w : BitVec 7) (o : BitVec 5) (c : Chip) (l : Nat) : stsOffset t z w o c l =
    ((if t = 1 then (c.v l w.toNat).toNat % 2 ^ 19 else (c.v l w.toNat).toNat : Nat) : Int) + o.toInt * (sizeBytes z : Nat) := by
  have ht : spaceOf t = .rmt ↔ t = 1 := by revert t; decide
  by_cases h : t = 1
  · simp only [stsOffset, localOffset, if_pos h, decide_eq_true (ht.mpr h), if_true, fieldNat, pow_zero, Nat.div_one]
  · simp only [stsOffset, localOffset, if_neg h, decide_eq_false (mt ht.mp h), Bool.false_eq_true, if_false]

/-- What an STS outside the stash does for the thread that acts: its registers stored at the offset, in the team its space and base name. -/
def stsEffect (t : BitVec 2) (z : BitVec 3) (d w : BitVec 7) (o : BitVec 5) (e : State) (x : Nat) (_ : List Nat) (m : Chip) : Chip :=
  let k := m.localTeam x (spaceOf t) (e.now.v x w.toNat)
  (m.writeLocal k (stsOffset t z w o e.now x).toNat (sizeBytes z) (regsValue e.now x d.toNat (regsOf (sizeBytes z)))).stampLocal k (m.coreOf x)

/-- STS outside the stash does this where it runs (11 R243). -/
theorem does_sts (c u : Bool) (t : BitVec 2) (z : BitVec 3) (d w : BitVec 7) (o : BitVec 5) (hs : spaceOf t ≠ .stash) :
    Does (.sts c u t z d w o) c (fun e l => LocalReachable e l (spaceOf t) (e.now.v l w.toNat) (stsOffset t z w o e.now l) (sizeBytes z) true)
      (once u (stsEffect t z d w o)) := by
  refine does_of_runWord
    (check := fun e x slot => localVerdict e x slot (spaceOf t) (e.now.v x w.toNat) (stsOffset t z w o e.now x) (sizeBytes z) true)
    (fun s => ?_) rfl (fun e l slot h => localVerdict_none h hs)
  rw [exec_sts, execSts]
  unfold stsEffect stsOffset
  cases h : spaceOf t with
  | stash => exact absurd h hs
  | loc => rfl
  | rmt => rfl

/-- Settles O52. -/
theorem storedBytes : Obligations.StoredBytes := by
  refine ⟨fun m a n v p => Memory.read_writeN a n v p, fun m n hm hn => Memory.eq_of_read_eq hm hn, ?_⟩
  intro u t z d w o s s' iss team a n off e hr hs hw he hother
  have hoff : off = stsOffset t z w o := by funext m l; exact (stsOffset_eq t z w o m l).symm
  clear_value off
  subst hoff
  have hs' := (does_sts true u t z d w o hs s iss hr).symm.trans he
  simp only [ended, if_true, Host.Outcome.next.injEq] at hs'
  subst hs'
  have hk : KeepsByte team a s.now (once u (stsEffect t z d w o) e iss.members iss.live s.now) :=
    once_keeps ⟨.refl _, hw, rfl⟩ (fun x hx _ m hm => by
      have hx' := hother x hx
      rw [← hm.1.localTeam] at hx'
      exact hm.store hx')
  exact ⟨hk.2.2, rfl⟩

end Sys2Proof.Machine
end

section
/-! The word of every instruction decodes to it (03 R43 to R53): the table of the statements made instruction by instruction. -/

namespace Sys2Proof.Laws

/-- The word of a well-formed instruction decodes to it, whatever the instruction. -/
theorem roundTrip : ∀ i : Instr, RoundTrip.Statement i
  | .iadd .. => RoundTrip.iadd _ _ _ _ _
  | .isub .. => RoundTrip.isub _ _ _ _ _
  | .iminS32 .. => RoundTrip.iminS32 _ _ _ _ _
  | .imaxS32 .. => RoundTrip.imaxS32 _ _ _ _ _
  | .iminN32 .. => RoundTrip.iminN32 _ _ _ _ _
  | .imaxN32 .. => RoundTrip.imaxN32 _ _ _ _ _
  | .iabsd .. => RoundTrip.iabsd _ _ _ _ _
  | .ineg .. => RoundTrip.ineg _ _ _ _
  | .imul .. => RoundTrip.imul _ _ _ _ _
  | .imulhS32 .. => RoundTrip.imulhS32 _ _ _ _ _
  | .imulhN32 .. => RoundTrip.imulhN32 _ _ _ _ _
  | .imad .. => RoundTrip.imad _ _ _ _ _
  | .idivS32 .. => RoundTrip.idivS32 _ _ _ _ _
  | .idivN32 .. => RoundTrip.idivN32 _ _ _ _ _
  | .iremS32 .. => RoundTrip.iremS32 _ _ _ _ _
  | .iremN32 .. => RoundTrip.iremN32 _ _ _ _ _
  | .iaddD .. => RoundTrip.iaddD _ _ _ _ _
  | .isubD .. => RoundTrip.isubD _ _ _ _ _
  | .imulD .. => RoundTrip.imulD _ _ _ _ _
  | .imadwS32 .. => RoundTrip.imadwS32 _ _ _ _ _
  | .imadwN32 .. => RoundTrip.imadwN32 _ _ _ _ _
  | .shlD .. => RoundTrip.shlD _ _ _ _ _
  | .shrD .. => RoundTrip.shrD _ _ _ _ _
  | .sarD .. => RoundTrip.sarD _ _ _ _ _
  | .and .. => RoundTrip.and _ _ _ _ _
  | .or .. => RoundTrip.or _ _ _ _ _
  | .xor .. => RoundTrip.xor _ _ _ _ _
  | .andn .. => RoundTrip.andn _ _ _ _ _
  | .orn .. => RoundTrip.orn _ _ _ _ _
  | .xnor .. => RoundTrip.xnor _ _ _ _ _
  | .not .. => RoundTrip.not _ _ _ _
  | .mov .. => RoundTrip.mov _ _ _ _
  | .shl .. => RoundTrip.shl _ _ _ _ _
  | .shr .. => RoundTrip.shr _ _ _ _ _
  | .sar .. => RoundTrip.sar _ _ _ _ _
  | .rotl .. => RoundTrip.rotl _ _ _ _ _
  | .popc .. => RoundTrip.popc _ _ _ _
  | .clz .. => RoundTrip.clz _ _ _ _
  | .brev .. => RoundTrip.brev _ _ _ _
  | .ffs .. => RoundTrip.ffs _ _ _ _
  | .bfxS32 .. => RoundTrip.bfxS32 _ _ _ _ _
  | .bfxN32 .. => RoundTrip.bfxN32 _ _ _ _ _
  | .bfi .. => RoundTrip.bfi _ _ _ _ _
  | .perm .. => RoundTrip.perm _ _ _ _ _
  | .shf .. => RoundTrip.shf _ _ _ _ _
  | .iaddsS32 .. => RoundTrip.iaddsS32 _ _ _ _ _
  | .isubsS32 .. => RoundTrip.isubsS32 _ _ _ _ _
  | .iaddsN32 .. => RoundTrip.iaddsN32 _ _ _ _ _
  | .iaddi .. => RoundTrip.iaddi _ _ _ _ _
  | .andi .. => RoundTrip.andi _ _ _ _ _
  | .ori .. => RoundTrip.ori _ _ _ _ _
  | .xori .. => RoundTrip.xori _ _ _ _ _
  | .shfi .. => RoundTrip.shfi _ _ _ _ _ _
  | .imuli .. => RoundTrip.imuli _ _ _ _ _
  | .leai .. => RoundTrip.leai _ _ _ _ _
  | .movi .. => RoundTrip.movi _ _ _ _
  | .movhi .. => RoundTrip.movhi _ _ _ _
  | .kld .. => RoundTrip.kld _ _ _ _
  | .isetp .. => RoundTrip.isetp _ _ _ _ _ _ _
  | .fsetp .. => RoundTrip.fsetp _ _ _ _ _ _ _
  | .pand .. => RoundTrip.pand _ _ _ _ _
  | .por .. => RoundTrip.por _ _ _ _ _
  | .pxor .. => RoundTrip.pxor _ _ _ _ _
  | .pnot .. => RoundTrip.pnot _ _ _ _
  | .p2v .. => RoundTrip.p2v _ _ _
  | .v2p .. => RoundTrip.v2p _ _ _
  | .pset .. => RoundTrip.pset _ _ _ _
  | .selp .. => RoundTrip.selp _ _ _ _ _ _
  | .mand .. => RoundTrip.mand _ _ _ _ _
  | .mor .. => RoundTrip.mor _ _ _ _ _
  | .mxor .. => RoundTrip.mxor _ _ _ _ _
  | .mnot .. => RoundTrip.mnot _ _ _ _
  | .mfromv .. => RoundTrip.mfromv _ _ _ _
  | .mtov .. => RoundTrip.mtov _ _ _ _
  | .mpopc .. => RoundTrip.mpopc _ _ _ _
  | .mself .. => RoundTrip.mself _ _ _
  | .fadd .. => RoundTrip.fadd _ _ _ _ _
  | .fsub .. => RoundTrip.fsub _ _ _ _ _
  | .fmul .. => RoundTrip.fmul _ _ _ _ _
  | .fmin .. => RoundTrip.fmin _ _ _ _ _
  | .fmax .. => RoundTrip.fmax _ _ _ _ _
  | .fabs .. => RoundTrip.fabs _ _ _ _
  | .fneg .. => RoundTrip.fneg _ _ _ _
  | .fcpsgn .. => RoundTrip.fcpsgn _ _ _ _ _
  | .fma .. => RoundTrip.fma _ _ _ _ _
  | .fms .. => RoundTrip.fms _ _ _ _ _
  | .fnma .. => RoundTrip.fnma _ _ _ _ _
  | .fnms .. => RoundTrip.fnms _ _ _ _ _
  | .frcp .. => RoundTrip.frcp _ _ _ _
  | .frsq .. => RoundTrip.frsq _ _ _ _
  | .fsqrta .. => RoundTrip.fsqrta _ _ _ _
  | .fex2 .. => RoundTrip.fex2 _ _ _ _
  | .flg2 .. => RoundTrip.flg2 _ _ _ _
  | .fsinp .. => RoundTrip.fsinp _ _ _ _
  | .fcosp .. => RoundTrip.fcosp _ _ _ _
  | .ftanh .. => RoundTrip.ftanh _ _ _ _
  | .fdiv .. => RoundTrip.fdiv _ _ _ _ _
  | .fsqrt .. => RoundTrip.fsqrt _ _ _ _
  | .frintRn .. => RoundTrip.frintRn _ _ _ _
  | .frintRz .. => RoundTrip.frintRz _ _ _ _
  | .frintRd .. => RoundTrip.frintRd _ _ _ _
  | .frintRu .. => RoundTrip.frintRu _ _ _ _
  | .fclass .. => RoundTrip.fclass _ _ _ _
  | .fscalb .. => RoundTrip.fscalb _ _ _ _ _
  | .cvt .. => RoundTrip.cvt _ _ _ _ _ _ _
  | .pkbf .. => RoundTrip.pkbf _ _ _ _ _
  | .pke4Lo .. => RoundTrip.pke4Lo _ _ _ _ _
  | .pke4Hi .. => RoundTrip.pke4Hi _ _ _ _ _
  | .pke5Lo .. => RoundTrip.pke5Lo _ _ _ _ _
  | .pke5Hi .. => RoundTrip.pke5Hi _ _ _ _ _
  | .pkpsLo .. => RoundTrip.pkpsLo _ _ _ _ _
  | .pkpsHi .. => RoundTrip.pkpsHi _ _ _ _ _
  | .unpk .. => RoundTrip.unpk _ _ _ _ _
  | .dot2Bf16 .. => RoundTrip.dot2Bf16 _ _ _ _ _
  | .dot4E4m3 .. => RoundTrip.dot4E4m3 _ _ _ _ _
  | .dot4E5m2 .. => RoundTrip.dot4E5m2 _ _ _ _ _
  | .dot4Ps8 .. => RoundTrip.dot4Ps8 _ _ _ _ _
  | .dot4S8 .. => RoundTrip.dot4S8 _ _ _ _ _
  | .dot4N8 .. => RoundTrip.dot4N8 _ _ _ _ _
  | .hadd2Bf16 .. => RoundTrip.hadd2Bf16 _ _ _ _ _
  | .hmul2Bf16 .. => RoundTrip.hmul2Bf16 _ _ _ _ _
  | .brm .. => RoundTrip.brm _ _ _ _ _ _ _
  | .tgt .. => RoundTrip.tgt _ _
  | .jmp .. => RoundTrip.jmp _ _
  | .call .. => RoundTrip.call _ _ _
  | .jmpr .. => RoundTrip.jmpr _
  | .callr .. => RoundTrip.callr _ _
  | .ret .. => RoundTrip.ret _
  | .exit => RoundTrip.exit
  | .spawn .. => RoundTrip.spawn _ _ _ _
  | .spawnf .. => RoundTrip.spawnf _ _ _ _
  | .trap .. => RoundTrip.trap _ _
  | .bkpt .. => RoundTrip.bkpt _
  | .nop .. => RoundTrip.nop _
  | .pause .. => RoundTrip.pause _ _
  | .yield .. => RoundTrip.yield _
  | .ffence .. => RoundTrip.ffence _
  | .clkrd .. => RoundTrip.clkrd _ _
  | .renew .. => RoundTrip.renew _ _
  | .resume .. => RoundTrip.resume _
  | .shflIdx .. => RoundTrip.shflIdx _ _ _ _
  | .shflXor .. => RoundTrip.shflXor _ _ _ _
  | .shflUp .. => RoundTrip.shflUp _ _ _ _
  | .shflDn .. => RoundTrip.shflDn _ _ _ _
  | .voteAll .. => RoundTrip.voteAll _ _ _ _ _
  | .voteAny .. => RoundTrip.voteAny _ _ _ _ _
  | .ballot .. => RoundTrip.ballot _ _ _ _ _
  | .matchLanes .. => RoundTrip.matchLanes _ _ _ _
  | .radd .. => RoundTrip.radd _ _ _ _
  | .rminS32 .. => RoundTrip.rminS32 _ _ _ _
  | .rmaxS32 .. => RoundTrip.rmaxS32 _ _ _ _
  | .rand .. => RoundTrip.rand _ _ _ _
  | .ror .. => RoundTrip.ror _ _ _ _
  | .rxor .. => RoundTrip.rxor _ _ _ _
  | .rfadd .. => RoundTrip.rfadd _ _ _ _
  | .rminN32 .. => RoundTrip.rminN32 _ _ _ _
  | .barSync .. => RoundTrip.barSync _ _
  | .barArv .. => RoundTrip.barArv _ _ _
  | .barWait .. => RoundTrip.barWait _ _ _
  | .barClu .. => RoundTrip.barClu _
  | .barGrid .. => RoundTrip.barGrid _
  | .gsync .. => RoundTrip.gsync _ _
  | .barTest .. => RoundTrip.barTest _ _ _
  | .barSet .. => RoundTrip.barSet _ _ _
  | .waitNe .. => RoundTrip.waitNe _ _ _ _
  | .waitEq .. => RoundTrip.waitEq _ _ _ _
  | .waitGe .. => RoundTrip.waitGe _ _ _ _
  | .watch .. => RoundTrip.watch _ _ _
  | .unwatch .. => RoundTrip.unwatch _ _
  | .wake .. => RoundTrip.wake _ _
  | .ld .. => RoundTrip.ld _ _ _ _ _ _ _
  | .st .. => RoundTrip.st _ _ _ _ _ _ _
  | .lds .. => RoundTrip.lds _ _ _ _ _ _ _
  | .sts .. => RoundTrip.sts _ _ _ _ _ _ _
  | .ldf .. => RoundTrip.ldf _ _ _ _ _ _ _
  | .atomAdd .. => RoundTrip.atomAdd _ _ _ _ _ _ _ _
  | .atomMinS32 .. => RoundTrip.atomMinS32 _ _ _ _ _ _ _ _
  | .atomMaxS32 .. => RoundTrip.atomMaxS32 _ _ _ _ _ _ _ _
  | .atomMinN32 .. => RoundTrip.atomMinN32 _ _ _ _ _ _ _ _
  | .atomMaxN32 .. => RoundTrip.atomMaxN32 _ _ _ _ _ _ _ _
  | .atomAnd .. => RoundTrip.atomAnd _ _ _ _ _ _ _ _
  | .atomOr .. => RoundTrip.atomOr _ _ _ _ _ _ _ _
  | .atomXor .. => RoundTrip.atomXor _ _ _ _ _ _ _ _
  | .atomxXchg .. => RoundTrip.atomxXchg _ _ _ _ _ _ _ _
  | .atomxCas .. => RoundTrip.atomxCas _ _ _ _ _ _ _ _
  | .atomxIncw .. => RoundTrip.atomxIncw _ _ _ _ _ _ _ _
  | .atomxDecw .. => RoundTrip.atomxDecw _ _ _ _ _ _ _ _
  | .atomxFaddF32 .. => RoundTrip.atomxFaddF32 _ _ _ _ _ _ _
  | .atomxFminF32 .. => RoundTrip.atomxFminF32 _ _ _ _ _ _ _
  | .atomxFmaxF32 .. => RoundTrip.atomxFmaxF32 _ _ _ _ _ _ _
  | .lda .. => RoundTrip.lda _ _ _ _ _ _
  | .stl .. => RoundTrip.stl _ _ _ _ _ _
  | .fence .. => RoundTrip.fence _ _ _ _
  | .fenceSc .. => RoundTrip.fenceSc _ _ _
  | .ldap .. => RoundTrip.ldap _ _ _ _ _ _
  | .atomp .. => RoundTrip.atomp _ _ _ _ _ _ _ _
  | .pref .. => RoundTrip.pref _ _ _ _
  | .flush .. => RoundTrip.flush _ _ _
  | .inval .. => RoundTrip.inval _ _ _
  | .stashMap .. => RoundTrip.stashMap _ _ _ _
  | .stashWb .. => RoundTrip.stashWb _ _
  | .stashDrop .. => RoundTrip.stashDrop _ _
  | .cpyG2s .. => RoundTrip.cpyG2s _ _ _ _
  | .cpyS2g .. => RoundTrip.cpyS2g _ _ _ _
  | .cpyG2g .. => RoundTrip.cpyG2g _ _ _ _
  | .cpyS2s .. => RoundTrip.cpyS2s _ _ _ _
  | .cpyFlag .. => RoundTrip.cpyFlag _ _ _
  | .cpyCommit .. => RoundTrip.cpyCommit _ _ _
  | .htest .. => RoundTrip.htest _ _ _
  | .hcancel .. => RoundTrip.hcancel _ _
  | .hwait .. => RoundTrip.hwait _ _
  | .cntrd .. => RoundTrip.cntrd _ _
  | .waitc .. => RoundTrip.waitc _ _ _ _ _
  | .mxIssue .. => RoundTrip.mxIssue _ _ _
  | .mxReady .. => RoundTrip.mxReady _ _ _ _
  | .mxCancel .. => RoundTrip.mxCancel _
  | .mxQuiesce .. => RoundTrip.mxQuiesce _
  | .plZero .. => RoundTrip.plZero _ _ _
  | .plClaim .. => RoundTrip.plClaim _ _ _
  | .plFree .. => RoundTrip.plFree _ _
  | .plLd .. => RoundTrip.plLd _ _ _ _
  | .plSt .. => RoundTrip.plSt _ _ _
  | .plRd .. => RoundTrip.plRd _ _ _ _
  | .plWr .. => RoundTrip.plWr _ _ _ _
  | .plScale .. => RoundTrip.plScale _ _ _
  | .plSave .. => RoundTrip.plSave _ _
  | .plRst .. => RoundTrip.plRst _ _
  | .tld .. => RoundTrip.tld _ _ _ _
  | .tst .. => RoundTrip.tst _ _ _
  | .tcvt .. => RoundTrip.tcvt _ _ _ _ _ _ _
  | .tzero .. => RoundTrip.tzero _ _ _
  | .ttrn .. => RoundTrip.ttrn _ _ _ _
  | .plwLoop .. => RoundTrip.plwLoop _ _ _
  | .plwStrm .. => RoundTrip.plwStrm _ _ _ _ _ _
  | .plwGo .. => RoundTrip.plwGo _ _
  | .plwStop .. => RoundTrip.plwStop _
  | .qpop .. => RoundTrip.qpop _ _ _
  | .qpeek .. => RoundTrip.qpeek _ _ _
  | .qlen .. => RoundTrip.qlen _ _ _
  | .plwStat .. => RoundTrip.plwStat _ _
  | .launch .. => RoundTrip.launch _ _ _ _
  | .qpush .. => RoundTrip.qpush _ _ _ _
  | .kstat .. => RoundTrip.kstat _ _ _
  | .qstat .. => RoundTrip.qstat _ _ _
  | .srd .. => RoundTrip.srd _ _ _
  | .swr .. => RoundTrip.swr _ _ _
  | .tret .. => RoundTrip.tret _
  | .ecall .. => RoundTrip.ecall _ _ _
  | .ctxStop .. => RoundTrip.ctxStop _ _
  | .ctxSave .. => RoundTrip.ctxSave _ _
  | .ctxRst .. => RoundTrip.ctxRst _ _ _
  | .preempt .. => RoundTrip.preempt _ _ _
  | .ckptMark .. => RoundTrip.ckptMark _ _ _
  | .ckptStat .. => RoundTrip.ckptStat _ _
  | .patchLoad .. => RoundTrip.patchLoad _ _ _
  | .patchArm .. => RoundTrip.patchArm _ _
  | .patchDisarm .. => RoundTrip.patchDisarm _ _
  | .patchQry .. => RoundTrip.patchQry _ _ _
  | .pstateSet .. => RoundTrip.pstateSet _ _ _
  | .park .. => RoundTrip.park _ _
  | .unpark .. => RoundTrip.unpark _ _
  | .errqSet .. => RoundTrip.errqSet _ _ _
  | .tlbInv .. => RoundTrip.tlbInv _ _ _
  | .fenceTlb .. => RoundTrip.fenceTlb _
  | .issueGroup .. => RoundTrip.issueGroup _
  | .penStarved .. => RoundTrip.penStarved _ _
  | .pauseExpiry .. => RoundTrip.pauseExpiry _
  | .yieldEnd .. => RoundTrip.yieldEnd _
  | .tick => RoundTrip.tick
  | .rebaseSweep => RoundTrip.rebaseSweep
  | .rebaseSweepComplete => RoundTrip.rebaseSweepComplete
  | .loadDataReturn .. => RoundTrip.loadDataReturn _
  | .renewRequest .. => RoundTrip.renewRequest _
  | .renewReply .. => RoundTrip.renewReply _
  | .homeStore .. => RoundTrip.homeStore _
  | .ownedRequest .. => RoundTrip.ownedRequest _
  | .homeAtomic .. => RoundTrip.homeAtomic _
  | .recallLine .. => RoundTrip.recallLine _
  | .persistentRequest .. => RoundTrip.persistentRequest _
  | .sliceEviction .. => RoundTrip.sliceEviction _
  | .hostMemAccess .. => RoundTrip.hostMemAccess _ _ _ _ _
  | .backInvalidationResponse .. => RoundTrip.backInvalidationResponse _
  | .hostSnoop .. => RoundTrip.hostSnoop _ _
  | .surveyorWalk .. => RoundTrip.surveyorWalk _ _ _
  | .holdLimitExpiry .. => RoundTrip.holdLimitExpiry _
  | .pageFaultService .. => RoundTrip.pageFaultService _ _
  | .droverCommand .. => RoundTrip.droverCommand _
  | .migration .. => RoundTrip.migration _ _
  | .migrationComplete .. => RoundTrip.migrationComplete _ _
  | .farPagePromotion .. => RoundTrip.farPagePromotion _ _
  | .pageLeaseEnd .. => RoundTrip.pageLeaseEnd _
  | .timeSyncSend => RoundTrip.timeSyncSend
  | .timeSyncReceive .. => RoundTrip.timeSyncReceive _ _
  | .syncLossTimeout => RoundTrip.syncLossTimeout
  | .flitReceive .. => RoundTrip.flitReceive _ _ _ _
  | .flitReplay .. => RoundTrip.flitReplay _
  | .trainingSuccess .. => RoundTrip.trainingSuccess _ _
  | .trainingTimeout .. => RoundTrip.trainingTimeout _
  | .trainingRetry .. => RoundTrip.trainingRetry _
  | .linkRetrain .. => RoundTrip.linkRetrain _
  | .routeFailure .. => RoundTrip.routeFailure _
  | .stewardTake .. => RoundTrip.stewardTake _ _
  | .queueEnableChange .. => RoundTrip.queueEnableChange _ _
  | .dependencesMet .. => RoundTrip.dependencesMet _
  | .clusterPlacement => RoundTrip.clusterPlacement
  | .teamRetirement .. => RoundTrip.teamRetirement _
  | .binTimerExpiry .. => RoundTrip.binTimerExpiry _ _
  | .binLaunch .. => RoundTrip.binLaunch _ _ _
  | .barrierTimeout .. => RoundTrip.barrierTimeout _
  | .waitLimitExpiry .. => RoundTrip.waitLimitExpiry _
  | .watchFire .. => RoundTrip.watchFire _
  | .carterTransferUnit .. => RoundTrip.carterTransferUnit _
  | .copyElement .. => RoundTrip.copyElement _ _
  | .batchResolve .. => RoundTrip.batchResolve _
  | .remapWrite .. => RoundTrip.remapWrite _ _
  | .remapTimeout .. => RoundTrip.remapTimeout _
  | .remoteAtomicReply .. => RoundTrip.remoteAtomicReply _ _
  | .ecallAnswer .. => RoundTrip.ecallAnswer _ _
  | .pressTileStep .. => RoundTrip.pressTileStep _ _
  | .pressEntryResolve .. => RoundTrip.pressEntryResolve _
  | .quadJoin .. => RoundTrip.quadJoin _
  | .ploughElementRead .. => RoundTrip.ploughElementRead _ _
  | .contextQuiescent .. => RoundTrip.contextQuiescent _
  | .saveComplete .. => RoundTrip.saveComplete _
  | .preemptReport .. => RoundTrip.preemptReport _
  | .moveTransferDone .. => RoundTrip.moveTransferDone _ _
  | .automaticMark .. => RoundTrip.automaticMark _
  | .markStagingComplete .. => RoundTrip.markStagingComplete _
  | .checkpointStream .. => RoundTrip.checkpointStream _
  | .checkpointComplete .. => RoundTrip.checkpointComplete _
  | .copyOnWriteRelease .. => RoundTrip.copyOnWriteRelease _ _
  | .scrub .. => RoundTrip.scrub _ _ _
  | .uncorrectable .. => RoundTrip.uncorrectable _
  | .committedEarly .. => RoundTrip.committedEarly _
  | .rollback .. => RoundTrip.rollback _
  | .heartbeatLoss .. => RoundTrip.heartbeatLoss _
  | .dieFence .. => RoundTrip.dieFence _
  | .barnDieFence .. => RoundTrip.barnDieFence _
  | .reeveShare .. => RoundTrip.reeveShare _ _ _ _ _
  | .pstateTransition .. => RoundTrip.pstateTransition _
  | .parkComplete .. => RoundTrip.parkComplete _
  | .wakeComplete .. => RoundTrip.wakeComplete _
  | .bankReady .. => RoundTrip.bankReady _ _
  | .powerOnSelfTest .. => RoundTrip.powerOnSelfTest _ _
  | .patchLoadComplete .. => RoundTrip.patchLoadComplete _
  | .patchArmComplete .. => RoundTrip.patchArmComplete _
  | .drainComplete .. => RoundTrip.drainComplete _
  | .registerWrite .. => RoundTrip.registerWrite _ _
  | .pwrceilWrite .. => RoundTrip.pwrceilWrite _
  | .splitWrite .. => RoundTrip.splitWrite _
  | .discovery => RoundTrip.discovery
  | .selfTestReport => RoundTrip.selfTestReport
  | .memoryReport => RoundTrip.memoryReport
  | .stopCommand => RoundTrip.stopCommand
  | .saveCommand => RoundTrip.saveCommand
  | .resumeCommand => RoundTrip.resumeCommand
  | .preEmptCommand => RoundTrip.preEmptCommand
  | .move => RoundTrip.move
  | .kill => RoundTrip.kill
  | .release => RoundTrip.release
  | .contextStatus => RoundTrip.contextStatus
  | .createContext => RoundTrip.createContext
  | .loadCodeObject => RoundTrip.loadCodeObject
  | .setAllowedCoreSet => RoundTrip.setAllowedCoreSet
  | .writeAContextControlWord => RoundTrip.writeAContextControlWord
  | .verifyStencilImage => RoundTrip.verifyStencilImage
  | .enrolOperatorKey => RoundTrip.enrolOperatorKey
  | .keyStatus => RoundTrip.keyStatus
  | .portStatus => RoundTrip.portStatus
  | .fenceScaleUpPort => RoundTrip.fenceScaleUpPort
  | .unfenceScaleUpPort => RoundTrip.unfenceScaleUpPort
  | .domainConfiguration => RoundTrip.domainConfiguration
  | .verifyTimeout .. => RoundTrip.verifyTimeout _
  | .triageTimeout .. => RoundTrip.triageTimeout _
  | .unknownMailboxCommand => RoundTrip.unknownMailboxCommand
  | .standbyFailure => RoundTrip.standbyFailure

end Sys2Proof.Laws

namespace Sys2Proof

/-- A word that decodes as a whole decodes at its core. -/
theorem decodeCore_of_decodeWord {w : Word} {i : Instr} (h : decodeWord w = .ok i) : decodeCore w.toNat = .ok i := by
  unfold decodeWord at h
  split at h
  · exact nomatch h
  · rename_i j hj
    split at h
    · split at h <;> exact nomatch h
    · injection h with h
      exact h ▸ hj

/-- The core of the word of a well-formed instruction. -/
theorem decodeCore_of_encode {w : Word} {i : Instr} (hwf : wellFormed i = true) (h : encode i = some w) : decodeCore w.toNat = .ok i := by
  unfold encode at h
  split at h
  · injection h with h
    exact decodeCore_of_decodeWord (h ▸ Laws.roundTrip i hwf)
  · exact nomatch h

end Sys2Proof
end

section
/-! The frame of the computing words (O50): what a word writes, each word of the majors 0x01 to 0x1E, and what a word of the chain leaves
as it was. -/

namespace Sys2Proof.Machine

/-! Machines that differ in the results of a word alone. -/

theorem OnlyResults.refl (o : OpInfo) (ms : List Nat) (c : Chip) : OnlyResults o ms c c :=
  ⟨fun _ _ _ => rfl, fun _ _ _ => rfl, fun _ _ _ => rfl, fun _ => rfl, fun _ => rfl, rfl⟩

section
variable {o : OpInfo} {ms : List Nat} {b c d : Chip}

theorem OnlyResults.trans (h : OnlyResults o ms b c) (k : OnlyResults o ms c d) : OnlyResults o ms b d := by
  obtain ⟨h1, h2, h3, h4, h5, h6⟩ := h
  obtain ⟨k1, k2, k3, k4, k5, k6⟩ := k
  exact ⟨fun x r hr => (k1 x r hr).trans (h1 x r hr), fun x r hr => (k2 x r hr).trans (h2 x r hr), fun g r hr => (k3 g r hr).trans (h3 g r hr),
    fun x => (k4 x).trans (h4 x), fun g => (k5 g).trans (h5 g), k6.trans h6⟩

/-- More threads may be written. -/
theorem OnlyResults.mono {ns : List Nat} (h : OnlyResults o ms c d) (hs : ∀ t ∈ ms, t ∈ ns) : OnlyResults o ns c d := by
  obtain ⟨h1, h2, h3⟩ := h
  exact ⟨fun x r hr => h1 x r (hr.imp_left (mt (hs x))), fun x k hk => h2 x k (hk.imp_left (mt (hs x))), h3⟩

/-- A fold each step of which writes results. -/
theorem OnlyResults.foldl {α : Type} {f : Chip → α → Chip} {l : List α} (h : ∀ d, ∀ x ∈ l, OnlyResults o ms d (f d x)) (c : Chip) :
    OnlyResults o ms c (l.foldl f c) :=
  List.foldlRecOn l f (.refl o ms c) (fun d hd x hx => hd.trans (h d x hx))

/-- A thread of the group replaced by one that differs in what the word names. -/
theorem onlyResults_setThread {t : Nat} {x : Thread} (ht : t ∈ ms) (hr : ∀ r, r ∉ o.dests → Sparse.get {} x.regs r = c.reg t r)
    (hp : ∀ k, k ∉ o.preds → x.preds.getLsbD k = c.p t k)
    (hx : { x with regs := [], preds := 0, due := none } = { c.thread t with regs := [], preds := 0, due := none }) :
    OnlyResults o ms c (c.setThread t x) := by
  refine ⟨fun u r h => ?_, fun u k h => ?_, fun _ _ _ => rfl, fun u => ?_, fun _ => rfl, rfl⟩
  · by_cases hu : u = t
    · subst hu
      rw [Chip.reg, Chip.thread_setThread_same]
      exact hr r (h.resolve_left (not_not_intro ht))
    · rw [Chip.reg, Chip.thread_setThread, if_neg hu, ← Chip.reg]
  · by_cases hu : u = t
    · subst hu
      rw [Chip.p, Chip.thread_setThread_same]
      exact hp k (h.resolve_left (not_not_intro ht))
    · rw [Chip.p, Chip.thread_setThread, if_neg hu, ← Chip.p]
  · by_cases hu : u = t
    · rw [hu, Chip.thread_setThread_same, hx]
    · rw [Chip.thread_setThread, if_neg hu]

theorem onlyResults_setReg {t n : Nat} (r : Reg) (ht : t ∈ ms) (hn : n ∈ o.dests) : OnlyResults o ms c (c.setReg t n r) :=
  onlyResults_setThread ht (fun _ hk => Sparse.get_set_other _ _ _ (fun e => hk (e ▸ hn))) (fun _ _ => rfl) rfl

theorem onlyResults_writeV {t n : Nat} (x : Word) (tag : Tag) (ht : t ∈ ms) (hn : n ∈ o.dests) : OnlyResults o ms c (c.writeV t n x tag) :=
  onlyResults_setReg _ ht hn

theorem onlyResults_writeVV {t n : Nat} (x : BitVec 64) (tag : Tag) (ht : t ∈ ms) (hn : n ∈ o.dests) (hn' : n + 1 ∈ o.dests) :
    OnlyResults o ms c (c.writeVV t n x tag) :=
  (onlyResults_writeV _ _ ht hn).trans (onlyResults_writeV _ _ ht hn')

/-- A bit of the eight predicates alone is 1 in the mask of another. -/
theorem getLsbD_predicateMask {j k : Nat} (h : j ≠ k) : (BitVec.ofNat 8 (2 ^ k)).getLsbD j = false := by
  rw [BitVec.getLsbD_ofNat, Nat.testBit_two_pow_of_ne (Ne.symm h), Bool.and_false]

theorem onlyResults_writeP {t k : Nat} (v : Bool) (ht : t ∈ ms) (hk : k ∈ o.preds) : OnlyResults o ms c (c.writeP t k v) := by
  refine onlyResults_setThread ht (fun _ _ => rfl) (fun j hj => ?_) rfl
  have hm := getLsbD_predicateMask (fun e => hj (e ▸ hk) : j ≠ k)
  cases v with
  | true => simp only [if_true, BitVec.getLsbD_or, hm, Bool.or_false, Chip.p]
  | false =>
    by_cases h8 : j < 8
    · simp only [Bool.false_eq_true, if_false, BitVec.getLsbD_and, BitVec.getLsbD_not, hm, h8, decide_true, Bool.not_false, Bool.and_true, Chip.p]
    · simp only [Chip.p, BitVec.getLsbD_of_ge _ _ (Nat.not_lt.mp h8)]

theorem onlyResults_writeM {g k : Nat} (x : Word) (hk : k ∈ o.masks) : OnlyResults o ms c (c.writeM g k x) := by
  refine ⟨fun _ _ _ => rfl, fun _ _ _ => rfl, fun h j hj => ?_, fun _ => rfl, fun h => ?_, rfl⟩
  · rw [Chip.mask_writeM, if_neg (fun e : h = g ∧ j = k => hj (e.2 ▸ hk))]
  · rw [Chip.writeM, Chip.group_setGroup]
    split
    · rename_i hg; rw [hg]
    · rfl

/-- A free value taken (01 R14). -/
theorem onlyResults_freeValue (o : OpInfo) (ms : List Nat) (c : Chip) : OnlyResults o ms c c.freeValue.2 :=
  ⟨fun _ _ _ => rfl, fun _ _ _ => rfl, fun _ _ _ => rfl, fun _ => rfl, fun _ => rfl, rfl⟩

/-! Poison consumed (21 R453, R454). -/

theorem onlyResults_consume {t slot sub addr : Nat} (ht : t ∈ ms) : OnlyResults o ms c (c.consume t slot sub addr) := by
  unfold Chip.consume
  split
  · exact .refl _ _ _
  · exact onlyResults_setThread ht (fun _ _ => rfl) (fun _ _ => rfl) rfl

theorem onlyResults_freeReg {t n : Nat} (ht : t ∈ ms) (hn : n ∈ o.dests) : OnlyResults o ms c (c.freeReg t n) := by
  unfold Chip.freeReg
  extract_lets r
  split
  · exact .refl _ _ _
  · exact (onlyResults_freeValue o ms c).trans (onlyResults_setReg _ ht hn)

theorem onlyResults_freePred {t k : Nat} (ht : t ∈ ms) (hk : k ∈ o.preds) : OnlyResults o ms c (c.freePred t k) :=
  (onlyResults_freeValue o ms c).trans (onlyResults_writeP _ ht hk)

theorem onlyResults_freeMask {t k : Nat} (hk : k ∈ o.masks) : OnlyResults o ms c (c.freeMask t k) :=
  (onlyResults_freeValue o ms c).trans (onlyResults_writeM _ hk)

end

theorem onlyResults_consumePoison (pre : Chip) (lead : Nat → Nat) (live : List Nat) (slot : Nat) (o : OpInfo) (c : Chip) :
    OnlyResults o live c (consumePoison pre lead live slot o c) := by
  refine OnlyResults.foldl (fun d t ht => ?_) c
  split
  · exact .refl _ _ _
  · refine OnlyResults.trans ?_ (.foldl (fun e k hk => onlyResults_freeMask hk) _)
    refine OnlyResults.trans ?_ (.foldl (fun e k hk => onlyResults_freePred ht hk) _)
    refine OnlyResults.trans ?_ (.foldl (fun e n hn => onlyResults_freeReg ht hn) _)
    split
    · exact onlyResults_consume ht
    · exact .refl _ _ _

/-! Effects that write results alone. -/

/-- The effect of a word writes the registers, predicates and masks of `o`, in the threads for which it takes effect. -/
def WritesResults (o : OpInfo) (act : Act) : Prop := ∀ pre all live c, OnlyResults o live c (act pre all live c)

theorem writesResults_perThread {o : OpInfo} {u : Bool} {f : Chip → Nat → Nat → Chip → Chip}
    (h : ∀ pre l t c, OnlyResults o [t] c (f pre l t c)) : WritesResults o (perThread u f) :=
  fun _ _ _ c => OnlyResults.foldl (fun _ _ ht => (h _ _ _ _).mono (fun _ hx => List.mem_singleton.mp hx ▸ ht)) c

theorem writesResults_oncePerGroup {o : OpInfo} {f : Chip → Nat → List Nat → List Nat → Chip → Chip}
    (h : ∀ pre g all live c, OnlyResults o live c (f pre g all live c)) : WritesResults o (oncePerGroup f) :=
  fun _ _ _ c => OnlyResults.foldl (fun _ _ _ => (h _ _ _ _ _).mono (fun _ hx => List.mem_of_mem_filter hx)) c

/-- The instruction is a word with no check of its own whose effect writes its results alone. -/
def Computes (i : Instr) : Prop := ∃ act, (∀ s, exec i s = runWord i noCheck act s) ∧ WritesResults (opInfo i) act

section
variable {i : Instr} {u : Bool}

theorem computes_perThread {f : Chip → Nat → Nat → Chip → Chip} (he : ∀ s, exec i s = runWord i noCheck (perThread u f) s)
    (h : ∀ pre l t c, OnlyResults (opInfo i) [t] c (f pre l t c)) : Computes i :=
  ⟨_, he, writesResults_perThread h⟩

/-- A word that writes one register, of each thread. -/
theorem computes_register {d : Nat} {f : Chip → Nat → Reg} (he : ∀ s, exec i s = runWord i noCheck (perThread u (fun pre l t c => c.setReg t d (f pre l))) s)
    (hd : d ∈ (opInfo i).dests) : Computes i :=
  computes_perThread he (fun _ _ _ _ => onlyResults_setReg _ List.mem_cons_self hd)

theorem computes_unary {d a : Nat} {tag : Tag} {f : Word → Word} (he : ∀ s, exec i s = unary i u d a tag f s)
    (hd : d ∈ (opInfo i).dests) : Computes i :=
  computes_register (f := fun pre l => { bits := f (pre.v l a), tag := tag }) he hd

theorem computes_binary {d a b : Nat} {tag : Tag} {f : Word → Word → Word} (he : ∀ s, exec i s = binary i u d a b tag f s)
    (hd : d ∈ (opInfo i).dests) : Computes i :=
  computes_register (f := fun pre l => { bits := f (pre.v l a) (pre.v l b), tag := tag }) he hd

theorem computes_ternary {d a b : Nat} {tag : Tag} {f : Word → Word → Word → Word} (he : ∀ s, exec i s = ternary i u d a b tag f s)
    (hd : d ∈ (opInfo i).dests) : Computes i :=
  computes_register (f := fun pre l => { bits := f (pre.v l d) (pre.v l a) (pre.v l b), tag := tag }) he hd

/-- A word that writes a register pair, of each thread. -/
theorem computes_pair {d : Nat} {tag : Tag} {f : Chip → Nat → BitVec 64}
    (he : ∀ s, exec i s = runWord i noCheck (perThread u (fun pre l t c => c.writeVV t d (f pre l) tag)) s)
    (hd : (opInfo i).dests = [d, d + 1]) : Computes i :=
  computes_perThread he (fun _ _ _ _ => onlyResults_writeVV _ _ List.mem_cons_self (by simp [hd]) (by simp [hd]))

theorem computes_predicate {d : Nat} {f : Chip → Nat → Bool} (he : ∀ s, exec i s = predicate i u d f s)
    (hd : d ∈ (opInfo i).preds) : Computes i :=
  computes_perThread he (fun _ _ _ _ => onlyResults_writeP _ List.mem_cons_self hd)

theorem computes_maskOp {d : BitVec 4} {f : Chip → Nat → List Nat → Word} (he : ∀ s, exec i s = maskOp i d f s)
    (hd : d.toNat ∈ (opInfo i).masks) : Computes i :=
  ⟨_, he, writesResults_oncePerGroup (fun _ _ _ _ _ => onlyResults_writeM _ hd)⟩

theorem computes_maskRead {d : BitVec 7} {f : Chip → Nat → Word} (he : ∀ s, exec i s = maskRead i d f s)
    (hd : d.toNat ∈ (opInfo i).dests) : Computes i :=
  ⟨_, he, writesResults_oncePerGroup (fun _ _ _ _ c => .foldl (fun _ _ ht => onlyResults_writeV _ _ ht hd) c)⟩

end

/-- V2P writes all eight predicates (05 R108). -/
theorem computes_v2p (c u : Bool) (a : BitVec 7) : Computes (.v2p c u a) :=
  computes_perThread (exec_v2p c u a) (fun _ _ _ _ => onlyResults_setThread List.mem_cons_self (fun _ _ => rfl) (fun k hk => by
    have h8 : 8 ≤ k := Nat.le_of_not_lt (fun h => hk (List.mem_range.mpr h))
    rw [Chip.p, BitVec.getLsbD_of_ge _ _ h8, BitVec.getLsbD_of_ge _ _ h8]) rfl)

/-! Every word of the majors 0x01 to 0x1E. -/

/-- A word that decodes through its checks is the instruction checked. -/
theorem computes_of_checked {i j : Instr} {r u a z : Bool} (h : checked i r u a z = .ok j) (hi : Computes i) : Computes j := by
  unfold checked at h
  split_ifs at h
  injection h with h
  exact h ▸ hi

section
variable {w : Nat} {i : Instr}

/-- The values of the fn field of three bits (03 R51). -/
theorem fn_cases (w : Nat) : fieldNat w 21 3 = 0 ∨ fieldNat w 21 3 = 1 ∨ fieldNat w 21 3 = 2 ∨ fieldNat w 21 3 = 3 ∨ fieldNat w 21 3 = 4 ∨
    fieldNat w 21 3 = 5 ∨ fieldNat w 21 3 = 6 ∨ fieldNat w 21 3 = 7 := by
  have h : fieldNat w 21 3 < 2 ^ 3 := Nat.mod_lt _ (by decide)
  omega

theorem computes_of_decodeMajor01 (h : decodeMajor01 w = .ok i) : Computes i := by
  rw [decodeMajor01] at h
  obtain hf | hf | hf | hf | hf | hf | hf | hf := fn_cases w <;> rw [hf] at h
  · exact computes_of_checked h (computes_binary (exec_iadd _ _ _ _ _) List.mem_cons_self)
  · exact computes_of_checked h (computes_binary (exec_isub _ _ _ _ _) List.mem_cons_self)
  · exact computes_of_checked h (computes_binary (exec_iminS32 _ _ _ _ _) List.mem_cons_self)
  · exact computes_of_checked h (computes_binary (exec_imaxS32 _ _ _ _ _) List.mem_cons_self)
  · exact computes_of_checked h (computes_binary (exec_iminN32 _ _ _ _ _) List.mem_cons_self)
  · exact computes_of_checked h (computes_binary (exec_imaxN32 _ _ _ _ _) List.mem_cons_self)
  · exact computes_of_checked h (computes_binary (exec_iabsd _ _ _ _ _) List.mem_cons_self)
  · exact computes_of_checked h (computes_unary (exec_ineg _ _ _ _) List.mem_cons_self)

theorem computes_of_decodeMajor02 (h : decodeMajor02 w = .ok i) : Computes i := by
  rw [decodeMajor02] at h
  obtain hf | hf | hf | hf | hf | hf | hf | hf := fn_cases w <;> rw [hf] at h
  · exact computes_of_checked h (computes_binary (exec_imul _ _ _ _ _) List.mem_cons_self)
  · exact computes_of_checked h (computes_binary (exec_imulhS32 _ _ _ _ _) List.mem_cons_self)
  · exact computes_of_checked h (computes_binary (exec_imulhN32 _ _ _ _ _) List.mem_cons_self)
  · exact computes_of_checked h (computes_ternary (exec_imad _ _ _ _ _) List.mem_cons_self)
  · exact computes_of_checked h (computes_binary (exec_idivS32 _ _ _ _ _) List.mem_cons_self)
  · exact computes_of_checked h (computes_binary (exec_idivN32 _ _ _ _ _) List.mem_cons_self)
  · exact computes_of_checked h (computes_binary (exec_iremS32 _ _ _ _ _) List.mem_cons_self)
  · exact computes_of_checked h (computes_binary (exec_iremN32 _ _ _ _ _) List.mem_cons_self)

theorem computes_of_decodeMajor03 (h : decodeMajor03 w = .ok i) : Computes i := by
  rw [decodeMajor03] at h
  obtain hf | hf | hf | hf | hf | hf | hf | hf := fn_cases w <;> rw [hf] at h
  · exact computes_of_checked h (computes_pair (exec_iaddD _ _ _ _ _) rfl)
  · exact computes_of_checked h (computes_pair (exec_isubD _ _ _ _ _) rfl)
  · exact computes_of_checked h (computes_pair (exec_imulD _ _ _ _ _) rfl)
  · exact computes_of_checked h (computes_pair (exec_imadwS32 _ _ _ _ _) rfl)
  · exact computes_of_checked h (computes_pair (exec_imadwN32 _ _ _ _ _) rfl)
  · exact computes_of_checked h (computes_pair (exec_shlD _ _ _ _ _) rfl)
  · exact computes_of_checked h (computes_pair (exec_shrD _ _ _ _ _) rfl)
  · exact computes_of_checked h (computes_pair (exec_sarD _ _ _ _ _) rfl)

theorem computes_of_decodeMajor04 (h : decodeMajor04 w = .ok i) : Computes i := by
  rw [decodeMajor04] at h
  obtain hf | hf | hf | hf | hf | hf | hf | hf := fn_cases w <;> rw [hf] at h
  · exact computes_of_checked h (computes_binary (exec_and _ _ _ _ _) List.mem_cons_self)
  · exact computes_of_checked h (computes_binary (exec_or _ _ _ _ _) List.mem_cons_self)
  · exact computes_of_checked h (computes_binary (exec_xor _ _ _ _ _) List.mem_cons_self)
  · exact computes_of_checked h (computes_binary (exec_andn _ _ _ _ _) List.mem_cons_self)
  · exact computes_of_checked h (computes_binary (exec_orn _ _ _ _ _) List.mem_cons_self)
  · exact computes_of_checked h (computes_binary (exec_xnor _ _ _ _ _) List.mem_cons_self)
  · exact computes_of_checked h (computes_unary (exec_not _ _ _ _) List.mem_cons_self)
  · exact computes_of_checked h (computes_register (exec_mov _ _ _ _) List.mem_cons_self)

theorem computes_of_decodeMajor05 (h : decodeMajor05 w = .ok i) : Computes i := by
  rw [decodeMajor05] at h
  obtain hf | hf | hf | hf | hf | hf | hf | hf := fn_cases w <;> rw [hf] at h
  · exact computes_of_checked h (computes_binary (exec_shl _ _ _ _ _) List.mem_cons_self)
  · exact computes_of_checked h (computes_binary (exec_shr _ _ _ _ _) List.mem_cons_self)
  · exact computes_of_checked h (computes_binary (exec_sar _ _ _ _ _) List.mem_cons_self)
  · exact computes_of_checked h (computes_binary (exec_rotl _ _ _ _ _) List.mem_cons_self)
  · exact computes_of_checked h (computes_unary (exec_popc _ _ _ _) List.mem_cons_self)
  · exact computes_of_checked h (computes_unary (exec_clz _ _ _ _) List.mem_cons_self)
  · exact computes_of_checked h (computes_unary (exec_brev _ _ _ _) List.mem_cons_self)
  · exact computes_of_checked h (computes_unary (exec_ffs _ _ _ _) List.mem_cons_self)

theorem computes_of_decodeMajor06 (h : decodeMajor06 w = .ok i) : Computes i := by
  rw [decodeMajor06] at h
  obtain hf | hf | hf | hf | hf | hf | hf | hf := fn_cases w <;> rw [hf] at h
  · exact computes_of_checked h (computes_binary (exec_bfxS32 _ _ _ _ _) List.mem_cons_self)
  · exact computes_of_checked h (computes_binary (exec_bfxN32 _ _ _ _ _) List.mem_cons_self)
  · exact computes_of_checked h (computes_ternary (exec_bfi _ _ _ _ _) List.mem_cons_self)
  · exact computes_of_checked h (computes_ternary (exec_perm _ _ _ _ _) List.mem_cons_self)
  · exact computes_of_checked h (computes_ternary (exec_shf _ _ _ _ _) List.mem_cons_self)
  · exact computes_of_checked h (computes_binary (exec_iaddsS32 _ _ _ _ _) List.mem_cons_self)
  · exact computes_of_checked h (computes_binary (exec_isubsS32 _ _ _ _ _) List.mem_cons_self)
  · exact computes_of_checked h (computes_binary (exec_iaddsN32 _ _ _ _ _) List.mem_cons_self)

theorem computes_of_decodeMajor08 (h : decodeMajor08 w = .ok i) : Computes i :=
  computes_of_checked h (computes_unary (exec_iaddi _ _ _ _ _) List.mem_cons_self)

theorem computes_of_decodeMajor09 (h : decodeMajor09 w = .ok i) : Computes i :=
  computes_of_checked h (computes_unary (exec_andi _ _ _ _ _) List.mem_cons_self)

theorem computes_of_decodeMajor0A (h : decodeMajor0A w = .ok i) : Computes i :=
  computes_of_checked h (computes_unary (exec_ori _ _ _ _ _) List.mem_cons_self)

theorem computes_of_decodeMajor0B (h : decodeMajor0B w = .ok i) : Computes i :=
  computes_of_checked h (computes_unary (exec_xori _ _ _ _ _) List.mem_cons_self)

theorem computes_of_decodeMajor0C (h : decodeMajor0C w = .ok i) : Computes i :=
  computes_of_checked h (computes_unary (exec_shfi _ _ _ _ _ _) List.mem_cons_self)

theorem computes_of_decodeMajor0D (h : decodeMajor0D w = .ok i) : Computes i :=
  computes_of_checked h (computes_unary (exec_imuli _ _ _ _ _) List.mem_cons_self)

theorem computes_of_decodeMajor0E (h : decodeMajor0E w = .ok i) : Computes i :=
  computes_of_checked h (computes_pair (exec_leai _ _ _ _ _) rfl)

theorem computes_of_decodeMajor10 (h : decodeMajor10 w = .ok i) : Computes i :=
  computes_of_checked h (computes_register (exec_movi _ _ _ _) List.mem_cons_self)

theorem computes_of_decodeMajor11 (h : decodeMajor11 w = .ok i) : Computes i :=
  computes_of_checked h (computes_unary (exec_movhi _ _ _ _) List.mem_cons_self)

theorem computes_of_decodeMajor12 (h : decodeMajor12 w = .ok i) : Computes i :=
  computes_of_checked h (computes_register (exec_kld _ _ _ _) List.mem_cons_self)

theorem computes_of_decodeMajor13 (h : decodeMajor13 w = .ok i) : Computes i :=
  computes_of_checked h (computes_predicate (exec_isetp _ _ _ _ _ _ _) List.mem_cons_self)

theorem computes_of_decodeMajor14 (h : decodeMajor14 w = .ok i) : Computes i :=
  computes_of_checked h (computes_predicate (exec_fsetp _ _ _ _ _ _ _) List.mem_cons_self)

theorem computes_of_decodeMajor15 (h : decodeMajor15 w = .ok i) : Computes i := by
  rw [decodeMajor15] at h
  obtain hf | hf | hf | hf | hf | hf | hf | hf := fn_cases w <;> rw [hf] at h
  · exact computes_of_checked h (computes_predicate (exec_pand _ _ _ _ _) List.mem_cons_self)
  · exact computes_of_checked h (computes_predicate (exec_por _ _ _ _ _) List.mem_cons_self)
  · exact computes_of_checked h (computes_predicate (exec_pxor _ _ _ _ _) List.mem_cons_self)
  · exact computes_of_checked h (computes_predicate (exec_pnot _ _ _ _) List.mem_cons_self)
  · exact computes_of_checked h (computes_register (exec_p2v _ _ _) List.mem_cons_self)
  · exact computes_of_checked h (computes_v2p ..)
  · exact computes_of_checked h (computes_predicate (exec_pset _ _ _ _) List.mem_cons_self)
  · exact nomatch h

theorem computes_of_decodeMajor16 (h : decodeMajor16 w = .ok i) : Computes i :=
  computes_of_checked h (computes_register (exec_selp _ _ _ _ _ _) List.mem_cons_self)

theorem computes_of_decodeMajor17 (h : decodeMajor17 w = .ok i) : Computes i := by
  rw [decodeMajor17] at h
  obtain hf | hf | hf | hf | hf | hf | hf | hf := fn_cases w <;> rw [hf] at h
  · exact computes_of_checked h (computes_maskOp (exec_mand _ _ _ _ _) List.mem_cons_self)
  · exact computes_of_checked h (computes_maskOp (exec_mor _ _ _ _ _) List.mem_cons_self)
  · exact computes_of_checked h (computes_maskOp (exec_mxor _ _ _ _ _) List.mem_cons_self)
  · exact computes_of_checked h (computes_maskOp (exec_mnot _ _ _ _) List.mem_cons_self)
  · exact computes_of_checked h (computes_maskOp (exec_mfromv _ _ _ _) List.mem_cons_self)
  · exact computes_of_checked h (computes_maskRead (exec_mtov _ _ _ _) List.mem_cons_self)
  · exact computes_of_checked h (computes_maskRead (exec_mpopc _ _ _ _) List.mem_cons_self)
  · exact computes_of_checked h (computes_maskOp (exec_mself _ _ _) List.mem_cons_self)

theorem computes_of_decodeMajor18 (h : decodeMajor18 w = .ok i) : Computes i := by
  rw [decodeMajor18] at h
  obtain hf | hf | hf | hf | hf | hf | hf | hf := fn_cases w <;> rw [hf] at h
  · exact computes_of_checked h (computes_binary (exec_fadd _ _ _ _ _) List.mem_cons_self)
  · exact computes_of_checked h (computes_binary (exec_fsub _ _ _ _ _) List.mem_cons_self)
  · exact computes_of_checked h (computes_binary (exec_fmul _ _ _ _ _) List.mem_cons_self)
  · exact computes_of_checked h (computes_binary (exec_fmin _ _ _ _ _) List.mem_cons_self)
  · exact computes_of_checked h (computes_binary (exec_fmax _ _ _ _ _) List.mem_cons_self)
  · exact computes_of_checked h (computes_unary (exec_fabs _ _ _ _) List.mem_cons_self)
  · exact computes_of_checked h (computes_unary (exec_fneg _ _ _ _) List.mem_cons_self)
  · exact computes_of_checked h (computes_binary (exec_fcpsgn _ _ _ _ _) List.mem_cons_self)

theorem computes_of_decodeMajor19 (h : decodeMajor19 w = .ok i) : Computes i := by
  rw [decodeMajor19] at h
  obtain hf | hf | hf | hf | hf | hf | hf | hf := fn_cases w <;> rw [hf] at h
  · exact computes_of_checked h (computes_ternary (exec_fma _ _ _ _ _) List.mem_cons_self)
  · exact computes_of_checked h (computes_ternary (exec_fms _ _ _ _ _) List.mem_cons_self)
  · exact computes_of_checked h (computes_ternary (exec_fnma _ _ _ _ _) List.mem_cons_self)
  · exact computes_of_checked h (computes_ternary (exec_fnms _ _ _ _ _) List.mem_cons_self)
  · exact nomatch h
  · exact nomatch h
  · exact nomatch h
  · exact nomatch h

theorem computes_of_decodeMajor1A (h : decodeMajor1A w = .ok i) : Computes i := by
  rw [decodeMajor1A] at h
  obtain hf | hf | hf | hf | hf | hf | hf | hf := fn_cases w <;> rw [hf] at h
  · exact computes_of_checked h (computes_unary (exec_frcp _ _ _ _) List.mem_cons_self)
  · exact computes_of_checked h (computes_unary (exec_frsq _ _ _ _) List.mem_cons_self)
  · exact computes_of_checked h (computes_unary (exec_fsqrta _ _ _ _) List.mem_cons_self)
  · exact computes_of_checked h (computes_unary (exec_fex2 _ _ _ _) List.mem_cons_self)
  · exact computes_of_checked h (computes_unary (exec_flg2 _ _ _ _) List.mem_cons_self)
  · exact computes_of_checked h (computes_unary (exec_fsinp _ _ _ _) List.mem_cons_self)
  · exact computes_of_checked h (computes_unary (exec_fcosp _ _ _ _) List.mem_cons_self)
  · exact computes_of_checked h (computes_unary (exec_ftanh _ _ _ _) List.mem_cons_self)

theorem computes_of_decodeMajor1B (h : decodeMajor1B w = .ok i) : Computes i := by
  rw [decodeMajor1B] at h
  obtain hf | hf | hf | hf | hf | hf | hf | hf := fn_cases w <;> rw [hf] at h
  · exact computes_of_checked h (computes_binary (exec_fdiv _ _ _ _ _) List.mem_cons_self)
  · exact computes_of_checked h (computes_unary (exec_fsqrt _ _ _ _) List.mem_cons_self)
  · exact computes_of_checked h (computes_unary (exec_frintRn _ _ _ _) List.mem_cons_self)
  · exact computes_of_checked h (computes_unary (exec_frintRz _ _ _ _) List.mem_cons_self)
  · exact computes_of_checked h (computes_unary (exec_frintRd _ _ _ _) List.mem_cons_self)
  · exact computes_of_checked h (computes_unary (exec_frintRu _ _ _ _) List.mem_cons_self)
  · exact computes_of_checked h (computes_unary (exec_fclass _ _ _ _) List.mem_cons_self)
  · exact computes_of_checked h (computes_binary (exec_fscalb _ _ _ _ _) List.mem_cons_self)

theorem computes_of_decodeMajor1C (h : decodeMajor1C w = .ok i) : Computes i := by
  unfold decodeMajor1C at h
  split at h
  · exact nomatch h
  · exact computes_of_checked h (computes_register (exec_cvt _ _ _ _ _ _ _) List.mem_cons_self)

theorem computes_of_decodeMajor1D (h : decodeMajor1D w = .ok i) : Computes i := by
  rw [decodeMajor1D] at h
  obtain hf | hf | hf | hf | hf | hf | hf | hf := fn_cases w <;> rw [hf] at h
  · exact computes_of_checked h (computes_binary (exec_pkbf _ _ _ _ _) List.mem_cons_self)
  · exact computes_of_checked h (computes_binary (exec_pke4Lo _ _ _ _ _) List.mem_cons_self)
  · exact computes_of_checked h (computes_ternary (exec_pke4Hi _ _ _ _ _) List.mem_cons_self)
  · exact computes_of_checked h (computes_binary (exec_pke5Lo _ _ _ _ _) List.mem_cons_self)
  · exact computes_of_checked h (computes_ternary (exec_pke5Hi _ _ _ _ _) List.mem_cons_self)
  · exact computes_of_checked h (computes_binary (exec_pkpsLo _ _ _ _ _) List.mem_cons_self)
  · exact computes_of_checked h (computes_ternary (exec_pkpsHi _ _ _ _ _) List.mem_cons_self)
  · exact computes_of_checked h (computes_register (exec_unpk _ _ _ _ _) List.mem_cons_self)

theorem computes_of_decodeMajor1E (h : decodeMajor1E w = .ok i) : Computes i := by
  rw [decodeMajor1E] at h
  obtain hf | hf | hf | hf | hf | hf | hf | hf := fn_cases w <;> rw [hf] at h
  · exact computes_of_checked h (computes_ternary (exec_dot2Bf16 _ _ _ _ _) List.mem_cons_self)
  · exact computes_of_checked h (computes_ternary (exec_dot4E4m3 _ _ _ _ _) List.mem_cons_self)
  · exact computes_of_checked h (computes_ternary (exec_dot4E5m2 _ _ _ _ _) List.mem_cons_self)
  · exact computes_of_checked h (computes_ternary (exec_dot4Ps8 _ _ _ _ _) List.mem_cons_self)
  · exact computes_of_checked h (computes_ternary (exec_dot4S8 _ _ _ _ _) List.mem_cons_self)
  · exact computes_of_checked h (computes_ternary (exec_dot4N8 _ _ _ _ _) List.mem_cons_self)
  · exact computes_of_checked h (computes_binary (exec_hadd2Bf16 _ _ _ _ _) List.mem_cons_self)
  · exact computes_of_checked h (computes_binary (exec_hmul2Bf16 _ _ _ _ _) List.mem_cons_self)

/-- Every word of the majors 0x01 to 0x1E that decodes. -/
theorem computes_of_decodeCore (hm : fieldNat w 24 6 ≤ 0x1E) (h : decodeCore w = .ok i) : Computes i := by
  match hk : fieldNat w 24 6, hm with
  | 0x00, _ => rw [decodeCore, hk] at h; exact nomatch h
  | 0x01, _ => exact computes_of_decodeMajor01 (core01 hk ▸ h)
  | 0x02, _ => exact computes_of_decodeMajor02 (core02 hk ▸ h)
  | 0x03, _ => exact computes_of_decodeMajor03 (core03 hk ▸ h)
  | 0x04, _ => exact computes_of_decodeMajor04 (core04 hk ▸ h)
  | 0x05, _ => exact computes_of_decodeMajor05 (core05 hk ▸ h)
  | 0x06, _ => exact computes_of_decodeMajor06 (core06 hk ▸ h)
  | 0x07, _ => rw [decodeCore, hk] at h; exact nomatch h
  | 0x08, _ => exact computes_of_decodeMajor08 (core08 hk ▸ h)
  | 0x09, _ => exact computes_of_decodeMajor09 (core09 hk ▸ h)
  | 0x0A, _ => exact computes_of_decodeMajor0A (core0A hk ▸ h)
  | 0x0B, _ => exact computes_of_decodeMajor0B (core0B hk ▸ h)
  | 0x0C, _ => exact computes_of_decodeMajor0C (core0C hk ▸ h)
  | 0x0D, _ => exact computes_of_decodeMajor0D (core0D hk ▸ h)
  | 0x0E, _ => exact computes_of_decodeMajor0E (core0E hk ▸ h)
  | 0x0F, _ => rw [decodeCore, hk] at h; exact nomatch h
  | 0x10, _ => exact computes_of_decodeMajor10 (core10 hk ▸ h)
  | 0x11, _ => exact computes_of_decodeMajor11 (core11 hk ▸ h)
  | 0x12, _ => exact computes_of_decodeMajor12 (core12 hk ▸ h)
  | 0x13, _ => exact computes_of_decodeMajor13 (core13 hk ▸ h)
  | 0x14, _ => exact computes_of_decodeMajor14 (core14 hk ▸ h)
  | 0x15, _ => exact computes_of_decodeMajor15 (core15 hk ▸ h)
  | 0x16, _ => exact computes_of_decodeMajor16 (core16 hk ▸ h)
  | 0x17, _ => exact computes_of_decodeMajor17 (core17 hk ▸ h)
  | 0x18, _ => exact computes_of_decodeMajor18 (core18 hk ▸ h)
  | 0x19, _ => exact computes_of_decodeMajor19 (core19 hk ▸ h)
  | 0x1A, _ => exact computes_of_decodeMajor1A (core1A hk ▸ h)
  | 0x1B, _ => exact computes_of_decodeMajor1B (core1B hk ▸ h)
  | 0x1C, _ => exact computes_of_decodeMajor1C (core1C hk ▸ h)
  | 0x1D, _ => exact computes_of_decodeMajor1D (core1D hk ▸ h)
  | 0x1E, _ => exact computes_of_decodeMajor1E (core1E hk ▸ h)
  | n + 0x1F, hn => omega

end

/-! The frame of a word of the chain. -/

/-- A word whose effect writes its results alone changes nothing else of the machine, whatever its checks find. -/
theorem onlyResults_wordStep {k : WordKind} {act : Act} (h : WritesResults k.info act) (check : Check) (s : State) (iss : Issue) :
    OnlyResults k.info iss.members s.now (wordStep k check act s iss).now := by
  unfold wordStep
  extract_lets pre bad keep iss' live eff
  have hl : ∀ t ∈ live, t ∈ iss.members := fun t ht => List.mem_of_mem_filter ht
  show OnlyResults k.info iss.members s.now (if live.isEmpty then s.now else eff s.now)
  split
  · exact .refl _ _ _
  · exact ((h _ _ _ _).trans (onlyResults_consumePoison _ _ _ _ _ _)).mono hl

/-- Two machines with the same homes, L1s and stored times read every byte alike. -/
theorem peek_of_sameLines {e e' : State} {c d : Chip} (hh : d.home = c.home) (hc : d.cores = c.cores) (ht : SameTimes c d) (hm : e'.mem = e.mem)
    (hb : e'.board = e.board) (p n : Nat) : peek e' d p n = peek e c p n := by
  have hl : peekLine e' d = peekLine e c := by
    funext ln
    exact (sameLines_of hh hc ht : SameLines (ln + 1) c d).peekLine hm hb (by omega)
  simp only [peek, hh, hm, hl]

/-- Results are no bytes of memory. -/
theorem OnlyResults.peek {o : OpInfo} {ms : List Nat} {e e' : State} {c d : Chip} (h : OnlyResults o ms c d) (hm : e'.mem = e.mem)
    (hb : e'.board = e.board) (p n : Nat) : peek e' d p n = peek e c p n := by
  obtain ⟨-, -, -, -, -, hr⟩ := h
  exact peek_of_sameLines (congrArg Chip.home hr) (congrArg Chip.cores hr)
    ⟨congrArg Chip.slices hr, congrArg Chip.dies hr, congrArg Chip.timeBase hr, congrArg Chip.generation hr⟩ hm hb p n

/-- With C = 1 a word leaves the chain open (03 R38). -/
theorem runWord_open {i : Instr} {check : Check} {act : Act} {s : State} {iss : Issue} (hs : s.issue = some iss) (hc : (opInfo i).c = true) :
    runWord i check act s = .next (wordStep (kindOf i) check act s iss) := by
  simp only [runWord, runKind, hs, kindOf, hc, if_true]

/-- Settles O50: every word of these majors is a word without a check of its own whose effect writes its results. -/
theorem computingWordFrame : Obligations.ComputingWordFrame := by
  intro i w s t iss hs hwf hw hmajor hc he
  obtain ⟨act, hexec, hact⟩ := computes_of_decodeCore hmajor (decodeCore_of_encode hwf hw)
  rw [hexec, runWord_open hs hc, Host.Outcome.next.injEq] at he
  subst he
  have hr := onlyResults_wordStep (k := kindOf i) hact noCheck s iss
  exact ⟨rfl, rfl, rfl, rfl, rfl, hr, hr.peek rfl rfl⟩

end Sys2Proof.Machine
end

section
/-! The words of BAR0 and the mailbox (O60): what an event does, said once for the forms of a mailbox command, and the commands. -/

namespace Sys2Proof.Machine

/-! The forms of the events. -/

/-- An event whose change is `g` happens as `f` says where the two agree. -/
theorem happens_of_eventS {i : Instr} {own : State → Prop} {f g : State → State} (he : ∀ s, exec i s = eventS g s)
    (h : ∀ s, own s → g s = f s) : Happens i own f := by
  intro s hs ho
  simp only [he, eventS, hs, h s ho]

/-- The mailbox command `i`, started outside the safe state where `own` holds, fails with a reason and does nothing else (20 R441). -/
def Refuses (i : Instr) (code : Nat) (own : State → Prop) (reason : Nat) : Prop :=
  Happens i (fun s => s.board.mbstate = .busy ∧ s.board.mbrun.toNat = code ∧ s.board.safe = false ∧ own s)
    (fun s => { s with board := { s.board with mbstate := .failed, mbreason := reason } })

/-- A mailbox command that is started outside the safe state ends as its meaning `g` says. -/
theorem happens_of_mail {i : Instr} {code : Nat} {own : State → Prop} {f : State → State} {r : Option Nat} {g : State → State × Option Nat}
    (he : ∀ s, exec i s = mail code g s) (h : ∀ s, own s → s.board.safe = false → g s = (f s, r)) :
    Happens i (fun s => s.board.mbstate = .busy ∧ s.board.mbrun.toNat = code ∧ s.board.safe = false ∧ own s) (fun s => (f s).endMail r) := by
  refine happens_of_eventS he (fun s ho => ?_)
  obtain ⟨hb, hc, hs, ho⟩ := ho
  simp only [hb, hc, hs, h s ho hs, ne_eq, not_true_eq_false, or_self, if_false, Bool.false_and, Bool.false_eq_true]

section
variable {i : Instr} {code : Nat} {own : State → Prop} {f : State → State}

theorem answers_of_mail {g : State → State × Option Nat} (he : ∀ s, exec i s = mail code g s)
    (h : ∀ s, own s → s.board.safe = false → g s = (f s, none)) : Answers i code own f :=
  happens_of_mail he h

theorem refuses_of_mail {g : State → State × Option Nat} {r : Nat} (he : ∀ s, exec i s = mail code g s)
    (h : ∀ s, own s → g s = (s, some r)) : Refuses i code own r :=
  happens_of_mail (f := id) he (fun s ho _ => h s ho)

theorem answers_of_ctxMail {g : State → Nat → State × Option Nat} (he : ∀ s, exec i s = ctxMail code g s)
    (h : ∀ s, own s → s.now.named (s.buf 0 4) = true ∧ g s (s.buf 0 4) = (f s, none)) : Answers i code own f :=
  answers_of_mail he (fun s ho _ => by obtain ⟨hn, hg⟩ := h s ho; simp only [hn, if_true, hg])

theorem refuses_of_ctxMail {g : State → Nat → State × Option Nat} {r : Nat} (he : ∀ s, exec i s = ctxMail code g s)
    (h : ∀ s, own s → s.now.named (s.buf 0 4) = true ∧ g s (s.buf 0 4) = (s, some r)) : Refuses i code own r :=
  refuses_of_mail he (fun s ho => by obtain ⟨hn, hg⟩ := h s ho; simp only [hn, if_true, hg])

/-- A command whose first word names no context fails with reason 1 (20 R442). -/
theorem refuses_unnamed {g : State → Nat → State × Option Nat} (he : ∀ s, exec i s = ctxMail code g s) :
    Refuses i code (fun s => ¬ s.now.named (s.buf 0 4) = true) 1 :=
  refuses_of_mail he (fun _ ho => if_neg ho)

end

/-! The words (20 R441, 23 R475). -/

/-- The average and the ceiling in one word. -/
theorem State.bar0_power (s : State) : (s.bar0 0x200).toNat = s.board.watts % 2 ^ 11 + 2 ^ 16 * s.board.avg.toNat := by
  have h : s.bar0 0x200 = BitVec.ofNat 32 (s.board.watts % 2048 + 65536 * s.board.avg.toNat) := rfl
  have h1 := s.board.avg.isLt
  rw [h, BitVec.toNat_ofNat, Nat.mod_eq_of_lt (by omega)]
  rfl

/-- A word of the buffer. -/
theorem State.bar0_buffer (s : State) {o : Nat} (h : 0x1000 ≤ o) (h' : o + 4 ≤ 0x2000) :
    s.bar0 o = BitVec.ofNat 32 (Memory.readN s.board.mbbuf (o - 0x1000) 4) := by
  simp only [State.bar0, show o ≠ 0 by omega, show o ≠ 8 by omega, show o ≠ 0x200 by omega, show o ≠ 0x204 by omega, show o ≠ 0x208 by omega, h, h',
    if_false, and_self, if_true]

/-- Go starts the command that stands in MBCMD. -/
theorem happens_registerWrite_go (v : BitVec 32) : Happens (.registerWrite 4 v) (fun s => v.getLsbD 0 = true ∧ s.board.mbstate ≠ .busy)
    (fun s => { s with board := { s.board with mbstate := .busy, mbreason := 0, mbrun := s.board.mbcmd } }) :=
  happens_of_eventS (exec_registerWrite 4 v) (fun s ho => by simp [ho.1, ho.2])

/-- Go while a command is busy sets the overrun bit. -/
theorem happens_registerWrite_overrun (v : BitVec 32) : Happens (.registerWrite 4 v) (fun s => v.getLsbD 0 = true ∧ s.board.mbstate = .busy)
    (fun s => { s with board := { s.board with overrun := true } }) :=
  happens_of_eventS (exec_registerWrite 4 v) (fun s ho => by simp [ho.1, ho.2])

/-- Writing 1 to the overrun bit clears it. -/
theorem happens_registerWrite_clear (v : BitVec 32) : Happens (.registerWrite 8 v) (fun _ => v.getLsbD 2 = true)
    (fun s => { s with board := { s.board with overrun := false } }) :=
  happens_of_eventS (exec_registerWrite 8 v) (fun s ho => by simp [ho])

/-- PWRCEIL takes the value clamped to its range. -/
theorem happens_pwrceilWrite (v : BitVec 32) : Happens (.pwrceilWrite v) (fun _ => True)
    (fun s => { s with board := { s.board with watts := max 250 (min 1000 (v.toNat % 2 ^ 11)) } }) :=
  happens_of_eventS (exec_pwrceilWrite v) (fun s _ => by simp only [fieldNat, pow_zero, Nat.div_one])

/-- Writing a word of the buffer. -/
theorem happens_registerWrite_buffer {o : Nat} (v : BitVec 32) (h : 0x1000 ≤ o) (h' : o + 4 ≤ 0x2000) :
    Happens (.registerWrite o v) (fun _ => True)
      (fun s => { s with board := { s.board with mbbuf := Memory.writeN s.board.mbbuf (o - 0x1000) 4 v.toNat } }) :=
  happens_of_eventS (exec_registerWrite o v) (fun s _ => by
    simp only [show o ≠ 0 by omega, show o ≠ 4 by omega, show o ≠ 8 by omega, h, h', if_false, and_self, if_true])

/-! The commands (20 R442, R443). -/

/-- DISCOVERY lists every key with its value. -/
theorem answers_discovery : Answers .discovery 0x01 (fun _ => True) (fun s => (List.range Config.keys.length).foldl (fun s i =>
      (s.putBuf (8 + 16 * i) 8 (Config.keyCode (Config.keys.getD i ("", 0)).1)).putBuf (16 + 16 * i) 8 (Config.keys.getD i ("", 0)).2)
      (s.putBuf 0 8 Config.keys.length)) := by
  refine answers_of_mail exec_discovery (fun s _ _ => ?_)
  refine congrArg (fun t => (t, none)) (List.foldl_ext _ _ _ (fun t k hk => ?_))
  rw [List.getElem?_eq_getElem (List.mem_range.mp hk), List.getD_eq_getElem _ _ (List.mem_range.mp hk)]

theorem answers_selfTestReport : Answers .selfTestReport 0x02 (fun _ => True)
    (fun s => (List.range 11).foldl (fun t i => t.putBuf (16 + 8 * i) 8 (Sparse.get 0 s.board.corrected i))
      (((s.putBuf 0 4 (if s.board.failedUnits = 0 then 1 else 0)).putBuf 4 4 s.board.failedUnits.toNat).putBuf 8 8 s.board.hostLanes)) :=
  answers_of_mail exec_selfTestReport (fun s _ hs => by simp only [hs, Bool.false_eq_true, if_false, Nat.add_zero])

/-- The context that CREATE_CONTEXT makes of the words of the buffer. -/
def newCtx (s : State) : Ctx :=
  { savebase := BitVec.ofNat 64 (s.buf 0 8), savelen := BitVec.ofNat 64 (s.buf 8 8), ckptbase := BitVec.ofNat 64 (s.buf 0x10 8)
    ckptlen := BitVec.ofNat 64 (s.buf 0x18 8), ptbase := BitVec.ofNat 64 (s.buf 0x20 8), allowed := s.now.openCores }

/-- CREATE_CONTEXT with no code object. -/
theorem answers_createContext (n : Nat) : Answers .createContext 0x18 (fun s => s.buf 0 8 % 65536 = 0 ∧ s.buf 8 8 % 65536 = 0 ∧
      s.buf 0x10 8 % 65536 = 0 ∧ s.buf 0x30 4 ≤ 1 ∧ s.buf 0x28 8 = 0 ∧ s.now.freeNumber = some n)
    (fun s => State.putBuf { s with now := s.now.setCtx n (newCtx s) } 0 4 n) :=
  answers_of_mail exec_createContext (fun s ho _ => by
    obtain ⟨h1, h2, h3, h4, h5, h6⟩ := ho
    simp [h1, h2, h3, Nat.not_lt.mpr h4, h5, h6, newCtx])

/-- CREATE_CONTEXT with a code object, which the loader takes. -/
theorem answers_createContext_object (n code data : Nat) (c : Chip) : Answers .createContext 0x18 (fun s => s.buf 0 8 % 65536 = 0 ∧
      s.buf 8 8 % 65536 = 0 ∧ s.buf 0x10 8 % 65536 = 0 ∧ s.buf 0x30 4 ≤ 1 ∧ s.buf 0x28 8 ≠ 0 ∧ s.now.freeNumber = some n ∧ loadObject s (s.now.setCtx n (newCtx s)) n (s.buf 0x28 8) (decide (s.buf 0x30 4 = 1)) = .inl (code, data, c))
    (fun s => State.putBuf { s with now := c } 0 4 n) :=
  answers_of_mail exec_createContext (fun s ho _ => by
    obtain ⟨h1, h2, h3, h4, h5, h6, h7⟩ := ho
    simp only [h1, h2, h3, Nat.not_lt.mpr h4, h5, h6, ne_eq, not_true_eq_false, decide_false, Bool.or_self, Bool.false_eq_true, if_false]
    rw [← newCtx, h7])

theorem refuses_createContext :
    Refuses .createContext 0x18 (fun s => s.buf 0 8 % 65536 ≠ 0 ∨ s.buf 8 8 % 65536 ≠ 0 ∨ s.buf 0x10 8 % 65536 ≠ 0 ∨ 1 < s.buf 0x30 4) 2 :=
  refuses_of_mail exec_createContext (fun s ho => by
    refine if_pos ?_
    simpa only [Bool.or_eq_true, decide_eq_true_eq, or_assoc] using ho)

theorem answers_contextStatus (x : Ctx) : Answers .contextStatus 0x17 (fun s => Sparse.find? s.now.ctxs (s.buf 0 4) = some x)
    (fun s => (s.putBuf 0 4 x.state.code).putBuf 4 4 (x.word 0x182).toNat) := by
  have hc : (x.word 0x181).toNat = x.state.code := by
    have h : x.word 0x181 = BitVec.ofNat 64 x.state.code := rfl
    rw [h, BitVec.toNat_ofNat]
    cases x.state <;> rfl
  exact answers_of_mail exec_contextStatus (fun s ho _ => by simp only [ho, hc])

theorem refuses_contextStatus : Refuses .contextStatus 0x17 (fun s => Sparse.find? s.now.ctxs (s.buf 0 4) = none) 1 :=
  refuses_of_mail exec_contextStatus (fun s ho => by simp only [ho])

/-- VERIFY_STENCIL_IMAGE gives the host's verdict to the first slot that loads the image. -/
theorem answers_verifyStencilImage (i : Nat) (rest : List Nat) : Answers .verifyStencilImage 0x20
    (fun s => Sparse.keysWhere (fun _ (x : Slot) => decide (x.state = .loading) && x.assisted && x.verdict.isNone &&
        decide (physBytes s s.now x.image 128 = s.bufBytes 0 128)) s.now.slots = i :: rest)
    (fun s => { s with now := s.now.setSlot i { s.now.slot i with verdict := some (decide (s.buf 192 4 = 1)) } }) :=
  answers_of_mail exec_verifyStencilImage (fun s ho _ => by simp only [ho])

theorem answers_enrolOperatorKey : Answers .enrolOperatorKey 0x21 (fun s => s.buf 0 4 ≠ 0 ∧ s.buf 0 4 ≤ 4 ∧ s.buf 4 4 = 0 ∧
      signatureOk Config.vendorKey (s.bufBytes 0 40) (s.bufBytes 0x28 64) = true)
    (fun s => { s with board := { s.board with keys := Sparse.set s.board.keys (s.buf 0 4) (BitVec.ofNat 256 (s.buf 8 32)) } }) :=
  answers_of_mail exec_enrolOperatorKey (fun s ho _ => by
    obtain ⟨h1, h2, h3, h4⟩ := ho
    simp only [h1, Nat.not_lt.mpr h2, h3, h4, ne_eq, not_true_eq_false, or_self, if_false, Bool.not_true, Bool.false_eq_true])

theorem answers_portStatus : Answers .portStatus 0x30 (fun s => s.buf 0 4 ≤ 17) (fun s =>
    (s.putBuf 0 4 (s.board.port (s.buf 0 4)).word).setPort (s.buf 0 4) { s.board.port (s.buf 0 4) with replays := 0 }) :=
  answers_of_mail exec_portStatus (fun _ ho _ => if_neg (Nat.not_lt.mpr ho))

theorem answers_fenceScaleUpPort : Answers .fenceScaleUpPort 0x31 (fun s => s.buf 0 4 ≤ 15)
    (fun s => { s with board := s.board.fencePort (s.buf 0 4) }) :=
  answers_of_mail exec_fenceScaleUpPort (fun _ ho _ => if_neg (Nat.not_lt.mpr ho))

/-- UNFENCE_SCALE_UP_PORT takes a fenced port down, and a port that is down to training. -/
theorem answers_unfenceScaleUpPort {p q : PortState} (hpq : p = .fenced ∧ q = .down ∨ p = .down ∧ q = .training) :
    Answers .unfenceScaleUpPort 0x32 (fun s => s.buf 0 4 ≤ 15 ∧ (s.board.port (s.buf 0 4)).state = p)
      (fun s => s.setPort (s.buf 0 4) { s.board.port (s.buf 0 4) with state := q }) :=
  answers_of_mail exec_unfenceScaleUpPort (fun s ho _ => by
    obtain ⟨h1, h2⟩ := ho
    obtain ⟨rfl, rfl⟩ | ⟨rfl, rfl⟩ := hpq
    · simp only [Nat.not_lt.mpr h1, if_false, h2]
    · simp only [Nat.not_lt.mpr h1, if_false, h2])

theorem answers_domainConfiguration : Answers .domainConfiguration 0x40 (fun s => s.buf 0 2 ≤ 6143 ∧ s.buf 2 2 ≤ 6143 ∧ s.buf 4 4 = 0)
    (fun s => { s with board := { s.board with device := s.buf 0 2, master := some (s.buf 2 2) } }) :=
  answers_of_mail exec_domainConfiguration (fun _ ho _ => if_neg (by omega))

/-- A command that the mailbox does not know fails with reason 1, and in the safe state with reason 2. -/
theorem happens_unknownMailboxCommand :
    Happens .unknownMailboxCommand (fun s => s.board.mbstate = .busy ∧ mailCodes.contains s.board.mbrun.toNat = false)
      (fun s => { s with board := { s.board with mbstate := .failed, mbreason := if s.board.safe = true then 2 else 1 } }) :=
  happens_of_eventS exec_unknownMailboxCommand (fun s ho => by
    obtain ⟨h1, h2⟩ := ho
    simp only [h1, h2, ne_eq, not_true_eq_false, Bool.false_eq_true, or_self, if_false]
    rfl)

/-! The commands to a context (18 R390 to R392, R404, 20 R442). -/

theorem answers_resumeCommand {flags : Nat} (h : flags ≤ 1) :
    Answers .resumeCommand 0x12 (fun s => s.now.named (s.buf 0 4) = true ∧ s.buf 4 4 = flags)
      (fun s => { s with now := postRequest s s.now (s.buf 0 4) (.resume (if flags = 1 then some (s.buf 8 4) else none)) }) :=
  answers_of_ctxMail exec_resumeCommand (fun s ho => by
    obtain ⟨hn, hf⟩ := ho
    exact ⟨hn, by simp only [hf, Nat.not_lt.mpr h, if_false, posted]⟩)

theorem answers_preEmptCommand : Answers .preEmptCommand 0x13 (fun s => s.now.named (s.buf 0 4) = true ∧ s.buf 4 4 ≠ 0 ∧ s.buf 4 4 ≤ 160 ∧
      populated s (s.buf 8 8) = true ∧ populated s (s.buf 8 8 + 63) = true)
    (fun s => { s with now := postRequest s s.now (s.buf 0 4) (.preempt (s.buf 4 4) (s.buf 8 8)) }) :=
  answers_of_ctxMail exec_preEmptCommand (fun s ho => by
    obtain ⟨hn, h1, h2, h3, h4⟩ := ho
    exact ⟨hn, if_neg (by simp only [h1, Nat.not_lt.mpr h2, h3, h4, Bool.true_eq_false, or_self, not_false_eq_true])⟩)

theorem answers_loadCodeObject (code data : Nat) (c : Chip) : Answers .loadCodeObject 0x19 (fun s => s.now.named (s.buf 0 4) = true ∧
      loadObject s s.now (s.buf 0 4) (s.buf 8 8) (bitAt (s.buf 0x10 4) 0) = .inl (code, data, c))
    (fun s => (State.putBuf { s with now := c } 0 8 code).putBuf 8 8 data) :=
  answers_of_ctxMail exec_loadCodeObject (fun s ho => ⟨ho.1, by simp only [ho.2]⟩)

theorem refuses_loadCodeObject (r : Nat) : Refuses .loadCodeObject 0x19 (fun s => s.now.named (s.buf 0 4) = true ∧
    loadObject s s.now (s.buf 0 4) (s.buf 8 8) (bitAt (s.buf 0x10 4) 0) = .inr r) r :=
  refuses_of_ctxMail exec_loadCodeObject (fun s ho => ⟨ho.1, by simp only [ho.2]⟩)

theorem answers_writeAContextControlWord : Answers .writeAContextControlWord 0x1B (fun s => s.now.named (s.buf 0 4) = true ∧
      s.buf 4 4 ∈ contextWords ∧ (s.buf 4 4 = 0x183 ∨ s.buf 4 4 = 0x184 → s.now.teamsOf (s.buf 0 4) = []))
    (fun s => { s with now := s.now.setCtx (s.buf 0 4) ((s.now.ctx (s.buf 0 4)).write (s.buf 4 4) (BitVec.ofNat 64 (s.buf 8 8))) }) :=
  answers_of_ctxMail exec_writeAContextControlWord (fun s ho => by
    obtain ⟨hn, hw, ht⟩ := ho
    exact ⟨hn, by rw [if_neg (by simpa using hw), if_neg (fun h => h.2 (ht h.1))]⟩)

/-- A word that is none of a context's fails with reason 2 (19 R429). -/
theorem refuses_writeAContextControlWord : Refuses .writeAContextControlWord 0x1B (fun s => s.now.named (s.buf 0 4) = true ∧
    s.buf 4 4 ∉ contextWords) 2 :=
  refuses_of_ctxMail exec_writeAContextControlWord (fun s ho => ⟨ho.1, if_pos (by simpa using ho.2)⟩)

/-- The bases of a save area do not change while the context has teams: reason 6. -/
theorem refuses_writeAContextControlWord_saveArea : Refuses .writeAContextControlWord 0x1B (fun s => s.now.named (s.buf 0 4) = true ∧
    (s.buf 4 4 = 0x183 ∨ s.buf 4 4 = 0x184) ∧ s.now.teamsOf (s.buf 0 4) ≠ []) 6 :=
  refuses_of_ctxMail exec_writeAContextControlWord (fun s ho => by
    obtain ⟨hn, ha, ht⟩ := ho
    have hw : contextWords.contains (s.buf 4 4) = true := by obtain h | h := ha <;> rw [h] <;> decide
    exact ⟨hn, (if_neg (by rw [hw]; decide)).trans (if_pos ⟨ha, ht⟩)⟩)

/-- Every command to a context refuses a number that names none. -/
theorem refuses_unnamed_all : ∀ p ∈ [(Instr.stopCommand, 0x10), (.saveCommand, 0x11), (.resumeCommand, 0x12), (.preEmptCommand, 0x13), (.move, 0x14),
      (.kill, 0x15), (.release, 0x16), (.loadCodeObject, 0x19), (.setAllowedCoreSet, 0x1A), (.writeAContextControlWord, 0x1B)],
    Refuses p.1 p.2 (fun s => ¬ s.now.named (s.buf 0 4) = true) 1 := by
  simp only [List.forall_mem_cons]
  exact ⟨refuses_unnamed exec_stopCommand, refuses_unnamed exec_saveCommand, refuses_unnamed exec_resumeCommand, refuses_unnamed exec_preEmptCommand,
    refuses_unnamed exec_move, refuses_unnamed exec_kill, refuses_unnamed exec_release, refuses_unnamed exec_loadCodeObject,
    refuses_unnamed exec_setAllowedCoreSet, refuses_unnamed exec_writeAContextControlWord, fun _ h => nomatch h⟩

/-- Settles O60, a clause for each word and each command. -/
theorem hostCommands : Obligations.HostCommands := by
  refine ⟨fun o v => ?_, ?_⟩
  · intro put
    refine ⟨?_, ?_, ?_, ?_, happens_registerWrite_buffer v, happens_pwrceilWrite v, happens_of_eventS (exec_splitWrite v) (fun _ _ => rfl),
      fun s => ⟨?_, ?_, ?_, ?_, ?_, s.bar0_buffer⟩⟩
    · rintro rfl; exact happens_of_eventS (exec_registerWrite 0 v) (fun _ _ => rfl)
    · rintro rfl; exact happens_registerWrite_go v
    · rintro rfl; exact happens_registerWrite_overrun v
    · rintro rfl; exact happens_registerWrite_clear v
    · rintro rfl; rfl
    · rintro rfl; rfl
    · rintro rfl; rfl
    · rintro rfl; exact s.bar0_power
    · rintro rfl; rfl
  · intro ctx named posts
    refine ⟨answers_discovery, answers_selfTestReport, answers_of_mail exec_memoryReport (fun _ _ _ => rfl),
      answers_of_ctxMail exec_stopCommand (fun _ hn => ⟨hn, rfl⟩), answers_of_ctxMail exec_saveCommand (fun _ hn => ⟨hn, rfl⟩),
      answers_resumeCommand (flags := 0) (by decide), answers_resumeCommand (flags := 1) (by decide), answers_preEmptCommand,
      answers_of_ctxMail exec_move (fun _ ho => ⟨ho.1, if_neg (by omega)⟩),
      answers_of_ctxMail exec_kill (fun _ hn => ⟨hn, rfl⟩), answers_of_ctxMail exec_release (fun _ hn => ⟨hn, rfl⟩),
      answers_contextStatus, answers_createContext, answers_createContext_object, answers_loadCodeObject, answers_of_ctxMail exec_setAllowedCoreSet (fun _ hn => ⟨hn, rfl⟩),
      answers_writeAContextControlWord, answers_verifyStencilImage, answers_enrolOperatorKey,
      answers_of_mail exec_keyStatus (fun _ _ _ => rfl), answers_portStatus, answers_fenceScaleUpPort,
      answers_unfenceScaleUpPort (.inl ⟨rfl, rfl⟩), answers_unfenceScaleUpPort (.inr ⟨rfl, rfl⟩), answers_domainConfiguration,
      happens_unknownMailboxCommand, ?_⟩
    · intro fails
      exact ⟨refuses_unnamed_all,
        refuses_of_ctxMail exec_resumeCommand (fun _ ho => ⟨ho.1, if_pos ho.2⟩),
        refuses_of_ctxMail exec_preEmptCommand (fun _ ho => ⟨ho.1, if_pos ho.2⟩),
        refuses_of_ctxMail exec_move (fun _ ho => ⟨ho.1, if_pos ho.2⟩),
        refuses_contextStatus, refuses_createContext, refuses_loadCodeObject, refuses_writeAContextControlWord, refuses_writeAContextControlWord_saveArea,
        refuses_of_mail exec_enrolOperatorKey (fun _ ho => if_pos ho),
        refuses_of_mail exec_portStatus (fun _ ho => if_pos ho),
        refuses_of_mail exec_fenceScaleUpPort (fun _ ho => if_pos ho),
        refuses_of_mail exec_unfenceScaleUpPort (fun _ ho => if_pos ho),
        refuses_of_mail exec_domainConfiguration (fun _ ho => if_pos ho)⟩

end Sys2Proof.Machine
end

section
/-! Soundness (O48): what may touch memory and the words of the board that a sound machine has in range, function by function; then the
words, the events and the plan of a step. -/

/-! Most proofs here unfold one function of the model each; elaborated side by side they would take a thread each. -/

set_option Elab.async false

namespace Sys2Proof.Machine

/-- The board's part of soundness: the mailbox buffer canonical, the timer's residue and the power words in range. -/
def Board.Sound (b : Board) : Prop :=
  b.mbbuf.wf = true ∧ b.accum < 3 ∧ (250 ≤ b.watts ∧ b.watts ≤ 1000) ∧ (250 ≤ b.ceiling ∧ b.ceiling ≤ 1000) ∧ b.avg.toNat ≤ 1000

theorem State.sound_iff {s : State} : s.Sound ↔ s.mem.wf = true ∧ s.board.Sound := Iff.rfl

/-- Soundness of a board rests on five of its words. -/
theorem Board.Sound.same {b d : Board} (h : b.Sound) (buf : d.mbbuf = b.mbbuf := by rfl) (accum : d.accum = b.accum := by rfl)
    (watts : d.watts = b.watts := by rfl) (ceiling : d.ceiling = b.ceiling := by rfl) (avg : d.avg = b.avg := by rfl) : d.Sound := by
  simpa only [Board.Sound, buf, accum, watts, ceiling, avg] using h

/-- The mailbox buffer written. -/
theorem Board.Sound.buffer {b : Board} (h : b.Sound) {m : Memory} (hm : m.wf = true) : Board.Sound { b with mbbuf := m } := ⟨hm, h.2⟩

/-- PWRCEIL holds what is written, clamped to its range (23 R475). -/
theorem Board.Sound.capped {b : Board} (h : b.Sound) (w : Nat) : Board.Sound { b with watts := max 250 (min 1000 w) } := by
  obtain ⟨buf, accum, -, power⟩ := h
  exact ⟨buf, accum, ⟨le_max_left _ _, max_le (by decide) (min_le_left _ _)⟩, power⟩

/-- The average that the reeve reports is at most the ceiling in effect, and the ceiling shared under next is PWRCEIL (23 R476). -/
theorem Board.Sound.shared {b : Board} (h : b.Sound) {avg : BitVec 11} (ha : avg.toNat ≤ b.ceiling) :
    Board.Sound { b with avg := avg, ceiling := b.watts } := by
  obtain ⟨buf, accum, watts, ceiling, -⟩ := h
  exact ⟨buf, accum, watts, watts, ha.trans ceiling.2⟩

/-- The residue of the timer stays below a step of its count (02 R28). -/
theorem Board.Sound.ticked {b : Board} (h : b.Sound) {dtick sinceSync : Nat} : Board.Sound { b with
    accum := b.accum + 3 * ((128 - b.accum + 2) / 3) - 128, dtick := dtick, sinceSync := sinceSync } := by
  obtain ⟨buf, accum, power⟩ := h
  exact ⟨buf, show b.accum + 3 * ((128 - b.accum + 2) / 3) - 128 < 3 by omega, power⟩

/-- The words of a board that a reset leaves as reset are in range. -/
theorem Board.sound_reset : Board.Sound {} := ⟨rfl, by decide, by decide, by decide, by decide⟩

theorem State.Sound.board {s : State} (h : s.Sound) : s.board.Sound := h.2

/-- A machine is sound where its memory and its board are. -/
theorem State.sound_mk {m : Memory} {b : Board} (hm : m.wf = true) (hb : b.Sound) {now base issue agenda chosen shadows marks} :
    State.Sound { now, base, issue, agenda, chosen, mem := m, board := b, shadows, marks } := ⟨hm, hb⟩

/-- A machine whose memory stands is sound where its board is. -/
theorem State.Sound.put {s : State} (h : s.Sound) {b : Board} (hb : b.Sound) {now base issue agenda chosen shadows marks} :
    State.Sound { now, base, issue, agenda, chosen, mem := s.mem, board := b, shadows, marks } := ⟨h.1, hb⟩

/-- Soundness of a machine rests on its memory and its board. -/
theorem State.Sound.same {s : State} (h : s.Sound) {now base issue agenda chosen shadows marks} :
    State.Sound { now, base, issue, agenda, chosen, mem := s.mem, board := s.board, shadows, marks } := h

/-- A loop of writes keeps memory canonical. -/
theorem Memory.wf_writeLoop {α : Type} (at_ value : α → Nat) (n : Nat) (l : List α) {m : Memory} (h : m.wf = true) :
    (l.foldl (fun (m : Memory) i => Memory.writeN m (at_ i) n (value i)) m).wf = true :=
  List.foldlRecOn (motive := fun m => Memory.wf m = true) l _ h (fun _ hm _ _ => Memory.wf_writeN _ _ _ hm)

/-- A loop keeps the board sound where its body does. -/
theorem Board.sound_foldl {α : Type} {f : Board → α → Board} (hf : ∀ b x, b.Sound → (f b x).Sound) (l : List α) {b : Board}
    (h : b.Sound) : (l.foldl f b).Sound :=
  List.foldlRecOn l f h (fun _ hb x _ => hf _ x hb)

/-- A loop keeps the machine sound where its body does. -/
theorem State.sound_foldl {α : Type} {f : State → α → State} (hf : ∀ s x, s.Sound → (f s x).Sound) (l : List α) {s : State}
    (h : s.Sound) : (l.foldl f s).Sound :=
  List.foldlRecOn l f h (fun _ hs x _ => hf _ x hs)

section
variable {s : State} (h : s.Sound)
include h

/-! Chains. -/

theorem sound_rollbackTeam (team : Nat) (r : ErrRec) : (rollbackTeam s team r).Sound := by
  unfold rollbackTeam
  dsimp only
  split <;> exact h.same

theorem sound_noteIntervals : (noteIntervals s).Sound :=
  State.sound_foldl (fun _ _ h => h.same) _ h

theorem sound_commitIssue (iss : Issue) : (commitIssue s iss).Sound := by
  refine sound_noteIntervals (State.sound_foldl (fun s d h => ?_) _ h.same)
  split
  · dsimp only
    split
    · exact sound_rollbackTeam h _ _
    · exact h
  · exact h

theorem sound_closeChain : (closeChain s).Sound := by
  unfold closeChain
  split
  · exact h
  · dsimp only
    split
    · exact h.same
    · exact sound_commitIssue h _

theorem sound_wordStep (k : WordKind) (check : Check) (act : Act) (iss : Issue) : (wordStep k check act s iss).Sound := h.same

/-! Data that comes back. -/

theorem sound_poisonTrap (t slot sub addr count : Nat) : (poisonTrap s t slot sub addr count).Sound := by
  unfold poisonTrap
  dsimp only
  split
  · exact h
  · split
    · exact sound_rollbackTeam h _ _
    · exact h.same

theorem sound_chargePoison (ts : List Nat) (slot sub addr : Nat) : (chargePoison s ts slot sub addr).Sound :=
  State.sound_foldl (fun s t h => by
    split
    · exact sound_poisonTrap h _ _ _ _ _
    · exact h.same) ts h

theorem sound_giveData (id : Nat) (a : Access) : (giveData s id a).Sound := by
  unfold giveData
  dsimp only
  split
  · exact h.same
  · exact sound_chargePoison h.same _ _ _ _

theorem sound_remoteData (id : Nat) (a : Access) : (remoteData s id a).Sound := sound_giveData h.same _ _

theorem sound_giveReply (id : Nat) (a : Access) (data : BitVec 64) : (giveReply s id a data).Sound := by
  unfold giveReply
  dsimp only
  split
  · exact (sound_giveData h _ _).same
  · exact sound_giveData h _ _

theorem sound_rereadWait (t : Nat) (r : WaitRec) : (rereadWait s t r).Sound := by
  unfold rereadWait
  split
  · exact h
  · dsimp only
    split
    · exact h.same
    · split
      · exact h
      · split
        · exact sound_poisonTrap h.same _ _ _ _ _
        · split <;> exact h.same

/-! Lines that leave their slices and pages that move. -/

theorem sound_cleanLine (ln : Nat) : (cleanLine s ln).Sound := by
  unfold cleanLine
  exact State.sound_mk (Memory.wf_writeLoop _ _ 4 _ h.1) h.board.same

theorem sound_evictLine (ln : Nat) : (evictLine s ln).Sound := by
  unfold evictLine
  split
  · exact h
  · split
    · exact h
    · dsimp only
      exact (sound_cleanLine h.same ln).same

theorem sound_hostWrites (ln : Nat) : (hostWrites s ln).Sound := by
  unfold hostWrites
  exact State.sound_mk (Memory.wf_writeLoop _ _ 4 _ h.1) h.board

theorem sound_moveBytes (a b : Nat) : (moveBytes s a b).Sound := by
  unfold moveBytes
  exact State.sound_mk (Memory.wf_writeLoop _ _ 4 _ h.1) h.board.same

theorem sound_moveLine (src dst i : Nat) : (moveLine src dst s i).Sound := by
  unfold moveLine
  dsimp only
  split <;> exact (sound_moveBytes (sound_cleanLine h.same _) _ _).same

theorem sound_movePage (src dst : Nat) : (movePage s src dst).Sound :=
  State.sound_foldl (fun _ i h => sound_moveLine h src dst i) _ h

/-- The lines homed on a die, written back. -/
theorem sound_cleanDie (d : Nat) : (cleanDie s d).Sound := State.sound_foldl (fun _ ln h => sound_cleanLine h ln) _ h

/-! Links and messages. -/

theorem sound_setPort (i : Nat) (p : Port) : (s.setPort i p).Sound := h.put h.board.same

theorem sound_grantLease (m : Message) : (grantLease s m).Sound := by
  unfold grantLease
  split
  · exact h
  · dsimp only
    split
    · exact h
    · exact h.put h.board.same

theorem sound_answerPageRecall (m : Message) : (answerPageRecall s m).Sound := by
  unfold answerPageRecall
  dsimp only
  split
  · exact h
  · exact h.same

theorem sound_takeAnswer (m : Message) : (takeAnswer s m).Sound := by
  unfold takeAnswer
  split
  · exact h
  · dsimp only
    split
    · exact h
    · split
      · exact sound_giveData h.same _ _
      · exact sound_giveReply h.same _ _ _
      · split
        · exact h
        · exact h.same
      · exact h

theorem sound_adoptContext (m : Message) : (adoptContext s m).Sound := by
  unfold adoptContext
  dsimp only
  split <;> exact h.put h.board.same

theorem sound_serveFarRead (m : Message) : (serveFarRead s m).Sound := h.same

theorem sound_serveFarWrite (m : Message) : (serveFarWrite s m).Sound := h.same

theorem sound_serveFarAtomic (m : Message) : (serveFarAtomic s m).Sound := h.same

theorem sound_grantCheckout (m : Message) : (grantCheckout s m).Sound := h.same

theorem sound_takeLease (m : Message) : (takeLease s m).Sound := h.put h.board.same

theorem sound_takeReturn (m : Message) : (takeReturn s m).Sound := h.same

/-- A request of another device is refused, waits, or is served. -/
theorem sound_request {go : State → State} (hgo : ∀ s : State, s.Sound → (go s).Sound) {stay : State → State}
    (hstay : ∀ s : State, s.Sound → (stay s).Sound) {p q : Prop} [Decidable p] [Decidable q] {c d : Chip} :
    (if p then { s with now := d } else if q then stay { s with now := c } else go { s with now := c }).Sound := by
  split
  · exact h.same
  · split
    · exact hstay _ h.same
    · exact hgo _ h.same

theorem sound_actOn (m : Message) : (actOn s m).Sound := by
  have stay : ∀ s : State, s.Sound → State.Sound { s with board := { s.board with inbox := s.board.inbox ++ [m] } } := fun _ h => h.put h.board.same
  unfold actOn
  dsimp only
  split
  · exact sound_request h (fun _ h => sound_serveFarRead h m) stay
  · exact sound_request h (fun _ h => sound_serveFarWrite h m) stay
  · exact sound_request h (fun _ h => sound_serveFarAtomic h m) stay
  · exact sound_takeAnswer h m
  · exact h.same
  · split
    · exact sound_grantLease h m
    · exact sound_takeLease h m
  · split
    · exact sound_request h (fun _ h => sound_grantCheckout h m) stay
    · split
      · exact sound_takeReturn h m
      · split
        · exact h.put h.board.same
        · split
          · exact sound_adoptContext h m
          · split
            · split
              · exact stay _ h
              · exact sound_answerPageRecall h m
            · exact h
  · exact h

theorem sound_serveInbox : (serveInbox s).Sound := State.sound_foldl (fun _ m h => sound_actOn h m) _ (h.put h.board.same)

theorem sound_deliverOrdered (w : BitVec 64) (payload : BitVec 384) : (deliverOrdered s w payload).Sound := by
  unfold deliverOrdered
  dsimp only
  split
  · exact sound_actOn (h.put h.board.same) _
  · exact h.put h.board.same

theorem sound_deliverLoose (w : BitVec 64) (payload : BitVec 384) : (deliverLoose s w payload).Sound := by
  unfold deliverLoose
  refine State.sound_foldl (fun s q h => ?_) _ (h.put h.board.same)
  extract_lets +onlyGivenNames f
  split
  · exact h
  · exact sound_actOn (h.put h.board.same) _

omit h in
theorem sound_drainFlow (n key : Nat) : ∀ s : State, s.Sound → (drainFlow n s key).Sound := by
  induction n with
  | zero => exact fun _ h => h
  | succ n ih =>
    intro s h
    unfold drainFlow
    dsimp only
    split
    · exact h
    · exact ih _ (sound_deliverOrdered (h.put h.board.same) _ _)

theorem sound_takeFlit (w : BitVec 64) (payload : BitVec 384) : (takeFlit s w payload).Sound := by
  unfold takeFlit
  dsimp only
  split
  · split
    · exact h
    · exact sound_drainFlow _ _ _ (h.put h.board.same)
  · split
    · exact h
    · exact sound_deliverLoose (h.put h.board.same) _ _

omit h in
theorem Board.Sound.sendMessage {b : Board} (h : b.Sound) (m : Message) : (b.sendMessage m).Sound := by
  unfold Board.sendMessage
  split
  · exact h
  · exact h.same

omit h in
theorem Board.Sound.fencePort {b : Board} (h : b.Sound) (i : Nat) : (b.fencePort i).Sound := by
  unfold Board.fencePort
  dsimp only
  split <;> exact h.same

theorem sound_sendAll : s.sendAll.Sound := by
  unfold State.sendAll
  dsimp only
  split
  · exact h.put h.board.same
  · exact h.put (Board.sound_foldl (fun _ m h => h.sendMessage m) _ h.board.same)

/-! Dies and images. -/

theorem sound_scrubBad (array index : Nat) : (scrubBad s array index).Sound := by
  unfold scrubBad poisonChunk
  dsimp only
  repeat' split
  all_goals exact h

theorem sound_fenceDie (d : Nat) : (fenceDie s d).Sound := by
  unfold fenceDie
  split
  · exact h
  · exact h.same

theorem sound_fenceOrWait (d : Nat) : (fenceOrWait s d).Sound := by
  unfold fenceOrWait
  split
  · exact h
  · split
    · exact h.same
    · exact sound_fenceDie h d

theorem sound_enterSafe : (enterSafe s).Sound := by
  have safe : ∀ d : State, d.Sound → State.Sound { d with board := { d.board with safe := true } } := fun _ h => h.put h.board.same
  unfold enterSafe
  exact safe _ (State.sound_foldl (fun _ d h => sound_fenceDie h d) _ (State.sound_foldl (fun _ _ h => h.same) _ h))

theorem sound_finishLoad (slot : Nat) (verdict : Option Bool) : (finishLoad s slot verdict).Sound := by
  unfold finishLoad
  dsimp only
  split
  · exact h
  · split
    · exact h
    · exact h.same
    · exact h.same

/-! The mailbox. -/

theorem sound_putBuf (off n v : Nat) : (s.putBuf off n v).Sound := by
  unfold State.putBuf
  exact h.put (h.board.buffer (Memory.wf_writeN _ _ _ h.board.1))

theorem sound_endMail (reason : Option Nat) : (s.endMail reason).Sound := h.put h.board.same

end

/-! What executing an instruction keeps. -/

/-- Executing the instruction `i` keeps a sound machine sound. -/
def KeepsSound (i : Instr) : Prop := ∀ s t : State, s.Sound → exec i s = .next t → t.Sound

/-- The state that an outcome holds. -/
theorem sound_of_next {s t : State} (h : s.Sound) (he : (Host.Outcome.next s : Host.Outcome State Fault Refusal) = .next t) : t.Sound := by
  injection he with he
  exact he ▸ h

/-- A word leaves memory and the board as they are, whether or not it ends its chain. -/
theorem keepsSound_of_isWord {i : Instr} (hw : IsWord i) : KeepsSound i := by
  intro s t h he
  have ended : ∀ (c : Bool) (d : State), d.Sound → State.Sound (if c then d else closeChain d) := fun c d hd => by
    cases c
    · exact sound_closeChain hd
    · exact hd
  obtain ⟨k, -, -, -, ⟨check, act, hx⟩ | ⟨check, act, f, hx⟩⟩ := hw
  · rw [hx, runKind] at he
    split at he
    · exact sound_of_next h he
    · exact sound_of_next (ended _ _ (sound_wordStep h ..)) he
  · rw [hx, runKindJump] at he
    split at he
    · exact sound_of_next h he
    · refine sound_of_next (ended _ _ ?_) he
      split
      · exact sound_wordStep h ..
      · exact (sound_wordStep h ..).same

/-- An event that changes the machine's tables only. -/
theorem keepsSound_event {i : Instr} {f : State → Chip} (he : ∀ s, exec i s = event f s) : KeepsSound i := by
  intro s t h hx
  rw [he, event] at hx
  split at hx
  · exact sound_of_next h hx
  · exact sound_of_next h.same hx

theorem keepsSound_eventS {i : Instr} {f : State → State} (he : ∀ s, exec i s = eventS f s) (hf : ∀ s : State, s.Sound → (f s).Sound) :
    KeepsSound i := by
  intro s t h hx
  rw [he, eventS] at hx
  split at hx
  · exact sound_of_next h hx
  · exact sound_of_next (hf s h) hx

theorem keepsSound_mail {i : Instr} {code : Nat} {f : State → State × Option Nat} (he : ∀ s, exec i s = mail code f s)
    (hf : ∀ s : State, s.Sound → (f s).1.Sound) : KeepsSound i :=
  keepsSound_eventS he (fun s h => by
    split
    · exact h
    · split
      · exact sound_endMail h _
      · exact sound_endMail (hf s h) _)

theorem keepsSound_ctxMail {i : Instr} {code : Nat} {f : State → Nat → State × Option Nat} (he : ∀ s, exec i s = ctxMail code f s)
    (hf : ∀ (s : State) (ctx : Nat), s.Sound → (f s ctx).1.Sound) : KeepsSound i :=
  keepsSound_mail he (fun s h => by
    dsimp only
    split
    · exact hf s _ h
    · exact h)

/-! Events of cores and lines. -/

theorem keepsSound_issueGroup (f : Nat) : KeepsSound (.issueGroup f) := by
  intro s t h hx
  rw [exec_issueGroup, execIssueGroup] at hx
  split at hx
  · exact sound_of_next h hx
  · split at hx
    · exact sound_of_next h.same hx
    · dsimp only at hx
      split at hx
      · exact sound_of_next h.same hx
      · exact sound_of_next h.same hx

theorem keepsSound_preemptReport (ctx : Nat) : KeepsSound (.preemptReport ctx) := by
  intro s t h hx
  rw [exec_preemptReport, execPreemptReport] at hx
  split at hx
  · exact sound_of_next h hx
  · split at hx
    · exact sound_of_next h hx
    · dsimp only at hx
      split at hx
      · exact sound_of_next h hx
      · split at hx
        · exact nomatch hx
        · exact sound_of_next h.same hx

theorem keepsSound_loadDataReturn (acc : Nat) : KeepsSound (.loadDataReturn acc) :=
  keepsSound_eventS (exec_loadDataReturn acc) (fun s h => by
    split
    · exact h
    · split
      · exact h
      · split
        · exact sound_giveData h _ _
        · split
          · split
            · dsimp only
              split
              · exact sound_giveData h.same _ _
              · exact h
            · exact h
          · exact h
        · split
          · exact sound_remoteData h _ _
          · exact h
        · split
          · exact h.same
          · exact h
        · exact h)

theorem keepsSound_hostSnoop (line : Nat) (inval : Bool) : KeepsSound (.hostSnoop line inval) :=
  keepsSound_eventS (exec_hostSnoop line inval) (fun s h => by
    split
    · exact h
    · split
      · split
        · exact sound_hostWrites h line
        · exact h
      · split
        · exact h
        · dsimp only
          split
          · exact sound_hostWrites (sound_evictLine h line) line
          · exact (sound_evictLine h line).same)

theorem keepsSound_remoteAtomicReply (acc : Nat) (data : BitVec 64) : KeepsSound (.remoteAtomicReply acc data) :=
  keepsSound_eventS (exec_remoteAtomicReply acc data) (fun s h => by
    split
    · split
      · split
        · exact h
        · exact sound_giveReply h.same _ _ _
      · exact h
    · exact h)

theorem keepsSound_ecallAnswer (acc : Nat) (answer : BitVec 32) : KeepsSound (.ecallAnswer acc answer) :=
  keepsSound_eventS (exec_ecallAnswer acc answer) (fun s h => by
    split
    · split
      · exact sound_giveReply h _ _ _
      · exact h
    · exact h)

theorem keepsSound_watchFire (th : Nat) : KeepsSound (.watchFire th) :=
  keepsSound_eventS (exec_watchFire th) (fun s h => by
    split
    · split
      · exact sound_rereadWait h _ _
      · exact h
    · split
      · exact h.same
      · exact h)

theorem keepsSound_uncorrectable (th : Nat) : KeepsSound (.uncorrectable th) :=
  keepsSound_eventS (exec_uncorrectable th) (fun s h => by
    split
    · exact h
    · split
      · exact h
      · exact State.sound_foldl (fun _ _ h => sound_poisonTrap h _ _ _ _ _) _ h)

theorem keepsSound_rollback (team : Nat) : KeepsSound (.rollback team) :=
  keepsSound_eventS (exec_rollback team) (fun s h => by
    dsimp only
    split
    · exact sound_rollbackTeam h _ _
    · exact h)

theorem keepsSound_migration (ctx va : Nat) : KeepsSound (.migration ctx va) :=
  keepsSound_eventS (exec_migration ctx va) (fun s h => by
    split
    · exact h
    · split
      · exact h
      · exact (sound_movePage h _ _).same)

theorem keepsSound_teamRetirement (team : Nat) : KeepsSound (.teamRetirement team) :=
  keepsSound_eventS (exec_teamRetirement team) (fun s h => by
    split
    · split
      · exact h.same
      · exact h
    · exact h)

theorem keepsSound_markStagingComplete (ctx : Nat) : KeepsSound (.markStagingComplete ctx) :=
  keepsSound_eventS (exec_markStagingComplete ctx) (fun s h => by
    dsimp only
    split
    · exact h.same
    · exact h)

/-! Events of the links. -/

theorem keepsSound_flitReceive (port : Nat) (header : BitVec 64) (payload : BitVec 384) (good : Bool) :
    KeepsSound (.flitReceive port header payload good) :=
  keepsSound_eventS (exec_flitReceive port header payload good) (fun s h => by
    dsimp only
    split
    · exact h
    · split
      · exact sound_setPort h _ _
      · exact sound_takeFlit h _ _)

theorem keepsSound_flitReplay (port : Nat) : KeepsSound (.flitReplay port) :=
  keepsSound_eventS (exec_flitReplay port) (fun s h => by
    dsimp only
    split
    · exact h
    · exact sound_setPort h _ _)

theorem keepsSound_tick : KeepsSound .tick :=
  keepsSound_eventS exec_tick (fun _ h => sound_serveInbox ((sound_sendAll h).put (sound_sendAll h).board.ticked))

theorem keepsSound_pageLeaseEnd (page : Nat) : KeepsSound (.pageLeaseEnd page) :=
  keepsSound_eventS (exec_pageLeaseEnd page) (fun s h => by
    split
    · split
      · exact h
      · exact sound_serveInbox (h.put h.board.same)
    · exact h)

theorem keepsSound_timeSyncSend : KeepsSound .timeSyncSend := by
  have counted : ∀ s : State, s.Sound → State.Sound { s with board := { s.board with sinceSync := 0 } } := fun _ h => h.put h.board.same
  refine keepsSound_eventS exec_timeSyncSend (fun s h => ?_)
  split
  · exact h
  · refine counted _ (State.sound_foldl (fun s i h => ?_) _ h)
    dsimp only
    split
    · exact h.put h.board.same
    · exact h

theorem keepsSound_timeSyncReceive (dtick : BitVec 48) (delay : Nat) : KeepsSound (.timeSyncReceive dtick delay) :=
  keepsSound_eventS (exec_timeSyncReceive dtick delay) (fun s h => by
    split
    · exact h
    · exact h.put h.board.same)

theorem keepsSound_syncLossTimeout : KeepsSound .syncLossTimeout :=
  keepsSound_eventS exec_syncLossTimeout (fun s h => by
    split
    · exact h
    · exact h.put h.board.same)

theorem keepsSound_trainingSuccess (port lanes : Nat) : KeepsSound (.trainingSuccess port lanes) :=
  keepsSound_eventS (exec_trainingSuccess port lanes) (fun s h => by
    have expanders : ∀ (p : Prop) [Decidable p], State.Sound (if p then
        { s with board := { s.board with expander := Config.expanderBytes % 2 ^ 46 } } else s) := fun p _ => by
      split
      · exact h.put h.board.same
      · exact h
    dsimp only
    split
    · exact expanders _
    · split
      · exact sound_setPort (expanders _) _ _
      · split
        · exact sound_setPort (expanders _) _ _
        · exact expanders _)

theorem keepsSound_trainingTimeout (port : Nat) : KeepsSound (.trainingTimeout port) :=
  keepsSound_eventS (exec_trainingTimeout port) (fun s h => by
    dsimp only
    split
    · refine sound_setPort ?_ _ _
      split
      · exact h.put h.board.same
      · exact h
    · exact h)

theorem keepsSound_trainingRetry (port : Nat) : KeepsSound (.trainingRetry port) :=
  keepsSound_eventS (exec_trainingRetry port) (fun s h => by
    dsimp only
    split
    · exact sound_setPort h _ _
    · exact h)

theorem keepsSound_linkRetrain (port : Nat) : KeepsSound (.linkRetrain port) :=
  keepsSound_eventS (exec_linkRetrain port) (fun s h => by
    dsimp only
    split
    · exact sound_setPort h _ _
    · exact h)

theorem keepsSound_routeFailure (req : Nat) : KeepsSound (.routeFailure req) :=
  keepsSound_eventS (exec_routeFailure req) (fun s h => by
    split
    · exact h
    · split
      · exact h
      · split
        · split
          · exact h
          · exact h.same
        · exact h
        · exact sound_giveData h _ _)

/-! Events of dies, images and power. -/

theorem keepsSound_triageTimeout (die : Nat) : KeepsSound (.triageTimeout die) :=
  keepsSound_eventS (exec_triageTimeout die) (fun s h => by
    split
    · exact sound_fenceDie h die
    · exact h)

theorem keepsSound_scrub (array index : Nat) (bad : Bool) : KeepsSound (.scrub array index bad) :=
  keepsSound_eventS (exec_scrub array index bad) (fun s h => by
    split
    · split
      · exact sound_fenceOrWait h index
      · exact sound_scrubBad h array index
    · split
      · exact h
      · exact h.put h.board.same)

theorem sound_fenceBarn {s : State} (h : s.Sound) (b : Nat) : (fenceBarn s b).Sound := by
  unfold fenceBarn
  split
  · exact h
  · have ports : ∀ s : State, s.Sound → State.Sound ((barnPorts b).foldl (fun s i => { s with board := s.board.fencePort i }) s) := fun _ h =>
      State.sound_foldl (fun _ i h => h.put (h.board.fencePort i)) _ h
    have host : ∀ s : State, s.Sound → State.Sound (if b = 0 then s.setPort 16 { s.board.port 16 with state := .down, lanes := 0 } else s) := fun s h => by
      split
      · exact sound_setPort h _ _
      · exact h
    have fenced := host _ (ports { s with board := { s.board with barnFenced := b :: s.board.barnFenced } } (h.put h.board.same))
    dsimp only
    split
    · exact sound_enterSafe fenced
    · exact fenced.same

theorem keepsSound_standbyFailure : KeepsSound .standbyFailure :=
  keepsSound_eventS exec_standbyFailure (fun s h => by
    split
    · exact sound_enterSafe h
    · exact h)

theorem keepsSound_verifyTimeout (slot : Nat) : KeepsSound (.verifyTimeout slot) :=
  keepsSound_eventS (exec_verifyTimeout slot) (fun s h => by
    split
    · exact sound_finishLoad h _ _
    · exact h)

theorem keepsSound_reeveShare (avg : BitVec 11) (n0 n1 n2 n3 : Nat) : KeepsSound (.reeveShare avg n0 n1 n2 n3) :=
  keepsSound_eventS (exec_reeveShare avg n0 n1 n2 n3) (fun s h => by
    extract_lets share l
    split
    · exact h
    · rename_i hl
      exact h.put (h.board.shared (not_lt.mp (not_or.mp hl).2)))

theorem keepsSound_parkComplete (die : Nat) : KeepsSound (.parkComplete die) :=
  keepsSound_eventS (exec_parkComplete die) (fun s h => by
    split
    · exact h
    · exact (sound_cleanDie h.same die).same)

theorem keepsSound_powerOnSelfTest (failed : BitVec 32) (lanes : Nat) : KeepsSound (.powerOnSelfTest failed lanes) :=
  keepsSound_eventS (exec_powerOnSelfTest failed lanes) (fun s h => by
    dsimp only
    split
    · exact h.put Board.sound_reset.same
    · exact h.put Board.sound_reset.same)

/-! The words of BAR0 and the mailbox commands. -/

theorem keepsSound_registerWrite (offset : Nat) (value : BitVec 32) : KeepsSound (.registerWrite offset value) :=
  keepsSound_eventS (exec_registerWrite offset value) (fun s h => by
    dsimp only
    split
    · exact h.put h.board.same
    · split
      · split
        · exact h
        · split <;> exact h.put h.board.same
      · split
        · exact h.put h.board.same
        · split
          · exact h.put (h.board.buffer (Memory.wf_writeN _ _ _ h.board.1))
          · exact h)

theorem keepsSound_pwrceilWrite (value : BitVec 32) : KeepsSound (.pwrceilWrite value) :=
  keepsSound_eventS (exec_pwrceilWrite value) (fun _ h => h.put (h.board.capped _))

theorem keepsSound_unknownMailboxCommand : KeepsSound .unknownMailboxCommand :=
  keepsSound_eventS exec_unknownMailboxCommand (fun s h => by
    split
    · exact h
    · exact sound_endMail h _)

theorem keepsSound_discovery : KeepsSound .discovery :=
  keepsSound_mail exec_discovery (fun _ h => State.sound_foldl (fun _ _ h => by
    split
    · exact sound_putBuf (sound_putBuf h _ _ _) _ _ _
    · exact h) _ (sound_putBuf h _ _ _))

theorem keepsSound_selfTestReport : KeepsSound .selfTestReport :=
  keepsSound_mail exec_selfTestReport (fun _ h => State.sound_foldl (fun _ _ h => sound_putBuf h _ _ _) _
    (sound_putBuf (sound_putBuf (sound_putBuf h _ _ _) _ _ _) _ _ _))

theorem keepsSound_resumeCommand : KeepsSound .resumeCommand :=
  keepsSound_ctxMail exec_resumeCommand (fun s ctx h => by
    dsimp only
    split
    · exact h
    · exact h.same)

theorem keepsSound_preEmptCommand : KeepsSound .preEmptCommand :=
  keepsSound_ctxMail exec_preEmptCommand (fun s ctx h => by
    dsimp only
    split
    · exact h
    · exact h.same)

theorem keepsSound_move : KeepsSound .move :=
  keepsSound_ctxMail exec_move (fun s ctx h => by
    split
    · exact h
    · exact h.same)

theorem keepsSound_contextStatus : KeepsSound .contextStatus :=
  keepsSound_mail exec_contextStatus (fun s h => by
    dsimp only
    split
    · exact sound_putBuf (sound_putBuf h _ _ _) _ _ _
    · exact h)

theorem keepsSound_createContext : KeepsSound .createContext :=
  keepsSound_mail exec_createContext (fun s h => by
    dsimp only
    split
    · exact h
    · split
      · exact h
      · split
        · exact sound_putBuf h.same _ _ _
        · split
          · exact h
          · exact sound_putBuf h.same _ _ _)

theorem keepsSound_loadCodeObject : KeepsSound .loadCodeObject :=
  keepsSound_ctxMail exec_loadCodeObject (fun s ctx h => by
    split
    · exact h
    · exact sound_putBuf (sound_putBuf h.same _ _ _) _ _ _)

theorem keepsSound_writeAContextControlWord : KeepsSound .writeAContextControlWord :=
  keepsSound_ctxMail exec_writeAContextControlWord (fun s ctx h => by
    dsimp only
    split
    · exact h
    · split
      · exact h
      · exact h.same)

theorem keepsSound_verifyStencilImage : KeepsSound .verifyStencilImage :=
  keepsSound_mail exec_verifyStencilImage (fun s h => by
    dsimp only
    split
    · exact h
    · exact h.same)

theorem keepsSound_enrolOperatorKey : KeepsSound .enrolOperatorKey :=
  keepsSound_mail exec_enrolOperatorKey (fun s h => by
    dsimp only
    split
    · exact h
    · split
      · exact h
      · exact h.put h.board.same)

theorem keepsSound_portStatus : KeepsSound .portStatus :=
  keepsSound_mail exec_portStatus (fun s h => by
    dsimp only
    split
    · exact h
    · exact sound_setPort (sound_putBuf h _ _ _) _ _)

theorem keepsSound_fenceScaleUpPort : KeepsSound .fenceScaleUpPort :=
  keepsSound_mail exec_fenceScaleUpPort (fun s h => by
    dsimp only
    split
    · exact h
    · exact h.put (h.board.fencePort _))

theorem keepsSound_unfenceScaleUpPort : KeepsSound .unfenceScaleUpPort :=
  keepsSound_mail exec_unfenceScaleUpPort (fun s h => by
    dsimp only
    split
    · exact h
    · dsimp only
      split
      · exact sound_setPort h _ _
      · exact sound_setPort h _ _
      · exact h)

theorem keepsSound_domainConfiguration : KeepsSound .domainConfiguration :=
  keepsSound_mail exec_domainConfiguration (fun s h => by
    split
    · exact h
    · exact h.put h.board.same)

/-- Executing any event. -/
theorem keepsSound_of_event {i : Instr} (hw : hasWord i = false) : KeepsSound i := by
  cases i with
  | issueGroup f => exact keepsSound_issueGroup f
  | preemptReport ctx => exact keepsSound_preemptReport ctx
  | tick => exact keepsSound_tick
  | loadDataReturn acc => exact keepsSound_loadDataReturn acc
  | sliceEviction line => exact keepsSound_eventS (exec_sliceEviction line) (fun _ h => sound_evictLine h line)
  | hostSnoop line inval => exact keepsSound_hostSnoop line inval
  | remoteAtomicReply acc data => exact keepsSound_remoteAtomicReply acc data
  | ecallAnswer acc answer => exact keepsSound_ecallAnswer acc answer
  | watchFire th => exact keepsSound_watchFire th
  | uncorrectable th => exact keepsSound_uncorrectable th
  | rollback team => exact keepsSound_rollback team
  | migration ctx va => exact keepsSound_migration ctx va
  | clusterPlacement => exact keepsSound_eventS exec_clusterPlacement (fun _ h => sound_noteIntervals h.same)
  | teamRetirement team => exact keepsSound_teamRetirement team
  | markStagingComplete ctx => exact keepsSound_markStagingComplete ctx
  | flitReceive port header payload good => exact keepsSound_flitReceive port header payload good
  | flitReplay port => exact keepsSound_flitReplay port
  | pageLeaseEnd page => exact keepsSound_pageLeaseEnd page
  | timeSyncSend => exact keepsSound_timeSyncSend
  | timeSyncReceive dtick delay => exact keepsSound_timeSyncReceive dtick delay
  | syncLossTimeout => exact keepsSound_syncLossTimeout
  | trainingSuccess port lanes => exact keepsSound_trainingSuccess port lanes
  | trainingTimeout port => exact keepsSound_trainingTimeout port
  | trainingRetry port => exact keepsSound_trainingRetry port
  | linkRetrain port => exact keepsSound_linkRetrain port
  | routeFailure req => exact keepsSound_routeFailure req
  | heartbeatLoss die => exact keepsSound_eventS (exec_heartbeatLoss die) (fun _ h => sound_fenceOrWait h die)
  | dieFence die => exact keepsSound_eventS (exec_dieFence die) (fun _ h => sound_fenceOrWait h die)
  | triageTimeout die => exact keepsSound_triageTimeout die
  | scrub array index bad => exact keepsSound_scrub array index bad
  | barnDieFence barn => exact keepsSound_eventS (exec_barnDieFence barn) (fun _ h => sound_fenceBarn h barn)
  | standbyFailure => exact keepsSound_standbyFailure
  | patchLoadComplete slot => exact keepsSound_eventS (exec_patchLoadComplete slot) (fun _ h => sound_finishLoad h slot _)
  | verifyTimeout slot => exact keepsSound_verifyTimeout slot
  | reeveShare avg n0 n1 n2 n3 => exact keepsSound_reeveShare avg n0 n1 n2 n3
  | parkComplete die => exact keepsSound_parkComplete die
  | powerOnSelfTest failed lanes => exact keepsSound_powerOnSelfTest failed lanes
  | registerWrite offset value => exact keepsSound_registerWrite offset value
  | pwrceilWrite value => exact keepsSound_pwrceilWrite value
  | splitWrite value => exact keepsSound_eventS (exec_splitWrite value) (fun _ h => h.put h.board.same)
  | unknownMailboxCommand => exact keepsSound_unknownMailboxCommand
  | discovery => exact keepsSound_discovery
  | selfTestReport => exact keepsSound_selfTestReport
  | memoryReport => exact keepsSound_mail exec_memoryReport (fun _ h => sound_putBuf (sound_putBuf (sound_putBuf h _ _ _) _ _ _) _ _ _)
  | stopCommand => exact keepsSound_ctxMail exec_stopCommand (fun _ _ h => h.same)
  | saveCommand => exact keepsSound_ctxMail exec_saveCommand (fun _ _ h => h.same)
  | resumeCommand => exact keepsSound_resumeCommand
  | preEmptCommand => exact keepsSound_preEmptCommand
  | move => exact keepsSound_move
  | kill => exact keepsSound_ctxMail exec_kill (fun _ _ h => h.same)
  | release => exact keepsSound_ctxMail exec_release (fun _ _ h => h.same)
  | contextStatus => exact keepsSound_contextStatus
  | createContext => exact keepsSound_createContext
  | loadCodeObject => exact keepsSound_loadCodeObject
  | setAllowedCoreSet => exact keepsSound_ctxMail exec_setAllowedCoreSet (fun _ _ h => h.same)
  | writeAContextControlWord => exact keepsSound_writeAContextControlWord
  | verifyStencilImage => exact keepsSound_verifyStencilImage
  | enrolOperatorKey => exact keepsSound_enrolOperatorKey
  | keyStatus => exact keepsSound_mail exec_keyStatus (fun _ h => sound_putBuf h _ _ _)
  | portStatus => exact keepsSound_portStatus
  | fenceScaleUpPort => exact keepsSound_fenceScaleUpPort
  | unfenceScaleUpPort => exact keepsSound_unfenceScaleUpPort
  | domainConfiguration => exact keepsSound_domainConfiguration
  | penStarved f pen => exact keepsSound_event (exec_penStarved f pen)
  | pauseExpiry th => exact keepsSound_event (exec_pauseExpiry th)
  | yieldEnd th => exact keepsSound_event (exec_yieldEnd th)
  | rebaseSweep => exact keepsSound_event exec_rebaseSweep
  | rebaseSweepComplete => exact keepsSound_event exec_rebaseSweepComplete
  | renewRequest acc => exact keepsSound_event (exec_renewRequest acc)
  | renewReply acc => exact keepsSound_event (exec_renewReply acc)
  | homeStore acc => exact keepsSound_event (exec_homeStore acc)
  | ownedRequest acc => exact keepsSound_event (exec_ownedRequest acc)
  | homeAtomic acc => exact keepsSound_event (exec_homeAtomic acc)
  | recallLine line => exact keepsSound_event (exec_recallLine line)
  | persistentRequest slice => exact keepsSound_event (exec_persistentRequest slice)
  | hostMemAccess op addr size data cache => exact keepsSound_event (exec_hostMemAccess op addr size data cache)
  | backInvalidationResponse line => exact keepsSound_event (exec_backInvalidationResponse line)
  | surveyorWalk core ctx va => exact keepsSound_event (exec_surveyorWalk core ctx va)
  | holdLimitExpiry th => exact keepsSound_event (exec_holdLimitExpiry th)
  | pageFaultService ctx va => exact keepsSound_event (exec_pageFaultService ctx va)
  | droverCommand ctx => exact keepsSound_event (exec_droverCommand ctx)
  | migrationComplete ctx va => exact keepsSound_event (exec_migrationComplete ctx va)
  | farPagePromotion ctx va => exact keepsSound_event (exec_farPagePromotion ctx va)
  | stewardTake ctx qix => exact keepsSound_event (exec_stewardTake ctx qix)
  | queueEnableChange ctx qix => exact keepsSound_event (exec_queueEnableChange ctx qix)
  | dependencesMet launch => exact keepsSound_event (exec_dependencesMet launch)
  | binTimerExpiry core bin => exact keepsSound_event (exec_binTimerExpiry core bin)
  | binLaunch core bin croft => exact keepsSound_event (exec_binLaunch core bin croft)
  | barrierTimeout th => exact keepsSound_event (exec_barrierTimeout th)
  | waitLimitExpiry th => exact keepsSound_event (exec_waitLimitExpiry th)
  | carterTransferUnit unit => exact keepsSound_event (exec_carterTransferUnit unit)
  | copyElement batch elem => exact keepsSound_event (exec_copyElement batch elem)
  | batchResolve batch => exact keepsSound_event (exec_batchResolve batch)
  | remapWrite batch elem => exact keepsSound_event (exec_remapWrite batch elem)
  | remapTimeout team => exact keepsSound_event (exec_remapTimeout team)
  | pressTileStep core blocks => exact keepsSound_event (exec_pressTileStep core blocks)
  | pressEntryResolve entry => exact keepsSound_event (exec_pressEntryResolve entry)
  | quadJoin th => exact keepsSound_event (exec_quadJoin th)
  | ploughElementRead group stream => exact keepsSound_event (exec_ploughElementRead group stream)
  | contextQuiescent ctx => exact keepsSound_event (exec_contextQuiescent ctx)
  | saveComplete ctx => exact keepsSound_event (exec_saveComplete ctx)
  | moveTransferDone ctx ok => exact keepsSound_event (exec_moveTransferDone ctx ok)
  | automaticMark ctx => exact keepsSound_event (exec_automaticMark ctx)
  | checkpointStream ctx => exact keepsSound_event (exec_checkpointStream ctx)
  | checkpointComplete ctx => exact keepsSound_event (exec_checkpointComplete ctx)
  | copyOnWriteRelease ctx va => exact keepsSound_event (exec_copyOnWriteRelease ctx va)
  | committedEarly team => exact keepsSound_event (exec_committedEarly team)
  | pstateTransition die => exact keepsSound_event (exec_pstateTransition die)
  | wakeComplete die => exact keepsSound_event (exec_wakeComplete die)
  | bankReady die bank => exact keepsSound_event (exec_bankReady die bank)
  | patchArmComplete slot => exact keepsSound_event (exec_patchArmComplete slot)
  | drainComplete slot => exact keepsSound_event (exec_drainComplete slot)
  | exit => exact noWord_absurd hw (by decide)
  | _ =>
    refine noWord_absurd hw ?_
    show 0 < _ + _
    repeat refine Nat.add_pos_left ?_ _
    decide

/-- Executing any instruction keeps a sound machine sound. -/
theorem keepsSound (i : Instr) : KeepsSound i := by
  cases hw : hasWord i
  · exact keepsSound_of_event hw
  · exact keepsSound_of_isWord (isWord_of_hasWord hw)

/-! The plan of a step. -/

section
variable {s : State} (h : s.Sound)
include h

theorem sound_prepare (i : Instr) : (prepare i s).Sound := by
  unfold prepare
  split
  · exact h.same
  · exact h.same
  · exact h

theorem sound_fetchIssue (iss : Issue) : (fetchIssue s iss).Sound := by
  unfold fetchIssue
  split <;> exact h.same

end

/-- The state of a plan. -/
def StepPlan.state : StepPlan → State
  | .run _ s => s
  | .done s => s

theorem sound_run {s : State} (i : Instr) (h : s.Sound) : (StepPlan.run i s).state.Sound := h

theorem sound_planWord {s : State} (h : s.Sound) (iss : Issue) (f : Fetched) : (planWord s iss f).state.Sound := by
  unfold planWord
  split
  · exact sound_commitIssue h _
  · split
    · exact h
    · exact sound_closeChain h

theorem sound_planFetch {s : State} (h : s.Sound) (iss : Issue) : (planFetch s iss).state.Sound := by
  unfold planFetch
  dsimp only
  split
  · exact sound_fetchIssue h iss
  · exact sound_planWord (sound_fetchIssue h iss) _ _

/-- Whatever a step plans, it plans in a sound state. -/
theorem sound_plan {s : State} (h : s.Sound) : (plan s).state.Sound := by
  unfold plan
  split
  · split
    · exact sound_planWord h _ _
    · exact sound_planFetch h _
  · split
    · exact sound_planFetch h.same _
    · split
      · exact h
      · split
        · exact h
        · split
          · exact sound_run _ (sound_prepare h.same _)
          · exact sound_run _ (sound_prepare h.same _)

/-- Settles O48: what is planned is sound, and executing an instruction keeps that. -/
theorem stepKeepsSound : Obligations.StepKeepsSound := by
  intro s t h ht
  have hp := sound_plan h
  unfold step at ht
  split at ht <;> rename_i heq <;> rw [heq] at hp
  · exact keepsSound _ _ _ hp ht
  · exact sound_of_next hp ht

end Sys2Proof.Machine
end

section
/-! The events of a core (O53): tables changed at every key, threads that move to pens, the launch of a bin, a tick, and the rebase
sweep. -/

/-! Most proofs here unfold one function of the model each; elaborated side by side they would take a thread each. -/

set_option Elab.async false

namespace Sys2Proof.Machine

/-! Tables. -/

theorem Sparse.find?_mapVals {ν : Type} (f : Nat → ν → ν) (m : Sparse ν) (k : Nat) :
    Sparse.find? (Sparse.mapVals f m) k = (Sparse.find? m k).map (f k) := by
  induction m with
  | nil => rfl
  | cons p m ih =>
    obtain ⟨j, v⟩ := p
    by_cases h : j = k
    · subst h
      simp [Sparse.mapVals, Sparse.find?]
    · simpa [Sparse.mapVals, Sparse.find?, h] using ih

@[simp] theorem Sparse.find?_erase_same {ν : Type} (m : Sparse ν) (k : Nat) : Sparse.find? (Sparse.erase m k) k = none := by
  induction m with
  | nil => rfl
  | cons p m ih =>
    obtain ⟨j, v⟩ := p
    by_cases h : j = k
    · simpa [Sparse.erase, h] using ih
    · simpa [Sparse.erase, h, Sparse.find?] using ih

/-- A table of the keys below a bound. -/
theorem Sparse.find?_range {ν : Type} (f : Nat → ν) {n k : Nat} (h : k < n) :
    Sparse.find? ((List.range n).map (fun i => (i, f i))) k = some (f k) := by
  suffices hl : ∀ l : List Nat, k ∈ l → Sparse.find? (l.map (fun i => (i, f i))) k = some (f k) from hl _ (List.mem_range.mpr h)
  intro l hk
  induction l with
  | nil => exact nomatch hk
  | cons j l ih =>
    by_cases hj : j = k
    · simp [Sparse.find?, hj]
    · simpa [Sparse.find?, hj] using ih ((List.mem_cons.mp hk).resolve_left (Ne.symm hj))

/-- What one round of a loop sets and no other round undoes holds after the loop. -/
theorem foldl_range_keeps {α : Type} {f : α → Nat → α} {p : α → Prop} {l : Nat} (set : ∀ a, p (f a l)) (keep : ∀ a j, j ≠ l → p a → p (f a j))
    {n : Nat} (hl : l < n) (a : α) : p ((List.range n).foldl f a) := by
  induction n with
  | zero => exact absurd hl (Nat.not_lt_zero _)
  | succ n ih =>
    rw [List.range_succ, List.foldl_append]
    by_cases h : n = l
    · exact h ▸ set _
    · exact keep _ _ h (ih (by omega))

/-- A loop whose rounds each change nothing. -/
theorem foldl_idle {α β : Type} {f : α → β → α} {l : List β} {a : α} (h : ∀ b ∈ l, ∀ a, f a b = a) : l.foldl f a = a := by
  rw [List.foldl_ext f (fun a _ => a) a (fun a b hb => h b hb a)]
  exact List.foldl_fixed _

/-! Forms of events. -/

section
variable {i : Instr} {own : State → Prop}

/-- An event that changes the machine's tables as `g` says. -/
theorem happens_of_event {f : State → State} {g : State → Chip} (he : ∀ s, exec i s = event g s) (h : ∀ s, own s → { s with now := g s } = f s) :
    Happens i own f := by
  intro s hs ho
  have hx : exec i s = .next { s with now := g s } := by rw [he, event, hs]
  rw [hx, h s ho]

theorem leaves_of_event {post : State → State → Prop} {g : State → Chip} (he : ∀ s, exec i s = event g s)
    (h : ∀ s, own s → post s { s with now := g s }) : Leaves i own post := by
  intro s hs ho
  exact ⟨_, by rw [he, event, hs], h s ho⟩

theorem leaves_of_eventS {post : State → State → Prop} {g : State → State} (he : ∀ s, exec i s = eventS g s) (h : ∀ s, own s → post s (g s)) :
    Leaves i own post := by
  intro s hs ho
  exact ⟨_, by rw [he, eventS, hs], h s ho⟩

end

/-! Threads that move (07 R138). -/

/-- Machine `d` is `c` but for its crofts and the places of its threads. -/
def OnlyMoved (c d : Chip) : Prop :=
  d.groups = c.groups ∧ d.cores = c.cores ∧ ∀ t, { d.thread t with place := .exited } = { c.thread t with place := .exited }

theorem OnlyMoved.refl (c : Chip) : OnlyMoved c c := ⟨rfl, rfl, fun _ => rfl⟩

theorem OnlyMoved.trans {a b c : Chip} (h : OnlyMoved a b) (k : OnlyMoved b c) : OnlyMoved a c := by
  obtain ⟨h1, h2, h3⟩ := h
  obtain ⟨k1, k2, k3⟩ := k
  exact ⟨k1.trans h1, k2.trans h2, fun t => (k3 t).trans (h3 t)⟩

theorem OnlyMoved.foldl {α : Type} {f : Chip → α → Chip} (h : ∀ d x, OnlyMoved d (f d x)) (l : List α) (c : Chip) : OnlyMoved c (l.foldl f c) :=
  List.foldlRecOn (motive := OnlyMoved c) l f (.refl c) (fun d hd x _ => hd.trans (h d x))

theorem onlyMoved_setPlace (c : Chip) (t : Nat) (p : Place) : OnlyMoved c (c.setThread t { c.thread t with place := p }) := by
  refine ⟨rfl, rfl, fun u => ?_⟩
  rw [Chip.thread_setThread]
  split
  · rename_i h
    rw [h]
  · rfl

theorem onlyMoved_setCroft (c : Chip) (k : Nat) (f : Croft) : OnlyMoved c (c.setCroft k f) := ⟨rfl, rfl, fun _ => rfl⟩

theorem onlyMoved_putPen (c : Chip) (p : Nat) (l : List Nat) : OnlyMoved c (c.putPen p l) := .foldl (fun d t => onlyMoved_setPlace d t _) l c

theorem onlyMoved_putFold (c : Chip) (k ctx : Nat) (lvl : Level) (pc : Addr) (l : List Nat) : OnlyMoved c (c.putFold k ctx lvl pc l) :=
  (onlyMoved_setCroft c k _).trans (.foldl (fun d t => onlyMoved_setPlace d t _) l _)

theorem onlyMoved_passPen (c : Chip) (k p : Nat) : OnlyMoved c (c.passPen k p) := by
  unfold Chip.passPen
  dsimp only
  split
  · exact .refl c
  · split
    · exact onlyMoved_setCroft _ _ _
    · exact (onlyMoved_setCroft _ _ _).trans (onlyMoved_putPen _ _ _)

theorem onlyMoved_move (c : Chip) (k : Nat) (l : List Nat) (src : Option Nat) (ctx : Nat) (lvl : Level) (pc : Addr) :
    OnlyMoved c (c.move k l src ctx lvl pc) := by
  unfold Chip.move
  dsimp only
  split
  · split
    · split
      · exact onlyMoved_putPen _ _ _
      · exact (onlyMoved_putPen _ _ _).trans (onlyMoved_passPen _ _ _)
    · exact onlyMoved_putPen _ _ _
  · split
    · split
      · exact (onlyMoved_setCroft _ _ _).trans (onlyMoved_putPen _ _ _)
      · have passed := fun (f : Croft) p ts => (onlyMoved_setCroft c k f).trans (onlyMoved_putPen _ p ts)
        split
        · exact (passed _ _ _).trans (onlyMoved_putPen _ _ _)
        · exact (passed _ _ _).trans (onlyMoved_putFold _ _ _ _ _ _)
    · split
      · exact (onlyMoved_setCroft _ _ _).trans (onlyMoved_putPen _ _ _)
      · exact onlyMoved_putFold _ _ _ _ _ _

theorem onlyMoved_moveAll (c : Chip) (l : List Nat) : OnlyMoved c (c.moveAll l) :=
  .foldl (fun d k => by
    split
    · exact .refl d
    · exact onlyMoved_move _ _ _ _ _ _ _) _ c

/-! Launching a bin (07 R153). -/

/-- A lane of the group that a bin launches as starts. -/
def launchLane (b : Bin) (g : Nat) (c : Chip) (l : Nat) : Chip :=
  match b.args[l]? with
  | some (arg, lvl) => c.setThread (32 * g + l) (spawnedThread b.entry arg lvl)
  | none => c

theorem foldl_launch_stand (b : Bin) (g : Nat) (c : Chip) :
    ((List.range b.args.length).foldl (launchLane b g) c).groups = c.groups ∧ ((List.range b.args.length).foldl (launchLane b g) c).cores = c.cores :=
  List.foldlRecOn (motive := fun d : Chip => d.groups = c.groups ∧ d.cores = c.cores) _ _ ⟨rfl, rfl⟩ (fun d hd l _ => by
    unfold launchLane
    split
    · exact hd
    · exact hd)

theorem foldl_launch_thread (b : Bin) (g : Nat) (c : Chip) {l : Nat} {a : Word × Level} (ha : b.args[l]? = some a) :
    ((List.range b.args.length).foldl (launchLane b g) c).thread (32 * g + l) = spawnedThread b.entry a.1 a.2 := by
  refine foldl_range_keeps (p := fun d => d.thread (32 * g + l) = _) (fun d => ?_) (fun d j hj hd => ?_) (List.getElem?_eq_some_iff.mp ha).1 c
  · simp [launchLane, ha]
  · unfold launchLane
    split
    · rw [Chip.thread_setThread, if_neg (by omega), hd]
    · exact hd

/-- The fresh group of a bin, before its lanes start. -/
def launchGroup (c : Chip) (f : Nat) (b : Bin) : Chip :=
  let n := b.args.length
  { c with nextId := c.nextId + 1, stamp := c.stamp + 1 }.setGroup c.nextId
    { team := b.team, croft := f, spawned := true, resident := true, order := c.stamp
      masks := [(0, BitVec.ofNat 32 (2 ^ (if (c.team b.team).guarded then n / 2 else n) - 1))] }

theorem launchBin_eq (c : Chip) (f : Nat) (b : Bin) : launchBin c f b =
    ((List.range b.args.length).foldl (launchLane b c.nextId) (launchGroup c f b)).moveAll
      ((List.range b.args.length).map (fun l => 32 * c.nextId + l)) := rfl

/-- The group a bin launches as holds the bin's arguments in order; the cores stand. -/
theorem launchBin_spec (c : Chip) (f : Nat) (b : Bin) : (launchBin c f b).cores = c.cores ∧ ((launchBin c f b).group c.nextId).team = b.team ∧
    ((launchBin c f b).group c.nextId).croft = f ∧ ∀ l a, b.args[l]? = some a →
      { (launchBin c f b).thread (32 * c.nextId + l) with place := .exited } = { spawnedThread b.entry a.1 a.2 with place := .exited } := by
  rw [launchBin_eq]
  obtain ⟨hgroups, hcores⟩ := foldl_launch_stand b c.nextId (launchGroup c f b)
  obtain ⟨hg, hk, ht⟩ := onlyMoved_moveAll ((List.range b.args.length).foldl (launchLane b c.nextId) (launchGroup c f b))
    ((List.range b.args.length).map (fun l => 32 * c.nextId + l))
  have hfresh : ((launchGroup c f b).group c.nextId).team = b.team ∧ ((launchGroup c f b).group c.nextId).croft = f := by
    simp [launchGroup, Chip.group_setGroup]
  simp only [Chip.group, hg, hgroups] at hfresh ⊢
  refine ⟨hk.trans hcores, hfresh.1, hfresh.2, fun l a ha => ?_⟩
  rw [ht, foldl_launch_thread b c.nextId _ ha]

/-! Ticks (02 R28). -/

/-- A message becomes flits on a port. -/
theorem Board.sendMessage_eq (b : Board) (m : Message) : ∃ p q, b.sendMessage m = { b with ports := p, sendSeq := q } := by
  unfold Board.sendMessage
  split
  · exact ⟨_, _, rfl⟩
  · exact ⟨_, _, rfl⟩

theorem Board.sendMessages_eq (l : List Message) (b : Board) : ∃ p q, l.foldl Board.sendMessage b = { b with ports := p, sendSeq := q } := by
  induction l generalizing b with
  | nil => exact ⟨_, _, rfl⟩
  | cons m l ih =>
    obtain ⟨p, q, h⟩ := b.sendMessage_eq m
    rw [List.foldl_cons, h]
    exact ih _

/-- The messages that wait leave by the ports; nothing else changes. -/
theorem State.sendAll_eq (s : State) : ∃ o p q, s.sendAll =
    { s with now := { s.now with outbox := o }, board := { s.board with ports := p, sendSeq := q } } := by
  unfold State.sendAll
  dsimp only
  split
  · exact ⟨_, _, _, rfl⟩
  · obtain ⟨p, q, h⟩ := Board.sendMessages_eq s.now.outbox { s.board with ports := Sparse.mapVals (fun _ (p : Port) =>
      if p.carries && decide (p.inRow = 0) then { p with replay := p.wire, wire := [] } else { p with wire := [] }) s.board.ports }
    exact ⟨[], p, q, by rw [h]⟩

/-- Sending changes neither memory, the timer, the inbox nor what a tick works on. -/
theorem State.sendAll_keeps (s : State) : s.sendAll.mem = s.mem ∧ s.sendAll.board.accum = s.board.accum ∧ s.sendAll.board.dtick = s.board.dtick ∧
    s.sendAll.board.inbox = s.board.inbox ∧ s.sendAll.now.cores = s.now.cores ∧ s.sendAll.now.deferred = s.now.deferred ∧
    s.sendAll.now.ctxs = s.now.ctxs := by
  obtain ⟨o, p, q, h⟩ := s.sendAll_eq
  rw [h]
  exact ⟨rfl, rfl, rfl, rfl, rfl, rfl, rfl⟩

theorem flushDeferred_nil {e : State} {c : Chip} (h : c.deferred = []) : flushDeferred e c = { c with deferred := [] } := by
  rw [flushDeferred, h, List.foldl_nil]

theorem finishResumes_idle {e : State} {c : Chip} (h : ∀ p ∈ c.ctxs, p.2.state ≠ .resuming) : finishResumes e c = c := by
  have hk : Sparse.keysWhere (fun _ (x : Ctx) => decide (x.state = .resuming)) c.ctxs = [] := by
    simpa [Sparse.keysWhere] using fun k x hx => h (k, x) hx
  rw [finishResumes, hk, List.foldl_nil]

/-- Where nothing waits for a tick, all it does before the clocks rise is make the replies on their way ask again. -/
theorem tickWork_idle {e : State} (f : Access → Bool) (hd : e.now.deferred = []) (hx : ∀ p ∈ e.now.ctxs, p.2.state ≠ .resuming) :
    finishResumes e (flushDeferred e (e.now.requeue f)) = { e.now.requeue f with deferred := [] } := by
  rw [flushDeferred_nil (c := e.now.requeue f) hd]
  exact finishResumes_idle hx

theorem serveInbox_nil {s : State} (h : s.board.inbox = []) : serveInbox s = { s with board := { s.board with inbox := [] } } := by
  rw [serveInbox, h, List.foldl_nil]

theorem Chip.clk_tickClocks (c : Chip) {n : Nat} (h : n < Config.cores) :
    ((Sparse.find? c.tickClocks n).getD {}).clk = min (2 ^ 48 - 1) ((c.core n).clk + 1) := by
  rw [Chip.tickClocks, Sparse.find?_range _ h]
  rfl

/-! The rebase sweep (12 R270 to R272). -/

theorem Chip.timeOf_current (c : Chip) (t : Nat) : c.timeOf c.generation t = t := if_pos rfl

theorem Board.sweeps_iff (b : Board) : b.sweeps = true ↔ (b.barnFenced.contains 0 = true → b.barnFenced.contains 1 = false) := by
  simp only [Board.sweeps, Bool.not_eq_true', Bool.and_eq_false_iff]
  cases b.barnFenced.contains 0 <;> simp

/-- A base raised past every clock. -/
theorem Chip.clk_rebase (c : Chip) (b : Nat) {n : Nat} (h : n < Config.cores) :
    ((c.rebase b).core n).clk = min (2 ^ 48 - 1) (max (c.core n).clk (b + 1)) := by
  have hf : Sparse.find? c.allCores n = some (c.core n) := Sparse.find?_range c.core h
  simp only [Chip.rebase, Chip.core, Sparse.get, Sparse.find?_mapVals] at hf ⊢
  rw [hf]
  rfl

/-- A stored time of the old generation reads as at least the new base. -/
theorem Chip.timeOf_rebase (c : Chip) (b t : Nat) : (c.rebase b).timeOf c.generation t = max b t := by
  simp [Chip.timeOf, Chip.rebase]

/-- A rewritten time is of the generation. -/
theorem Chip.timed_timed (c : Chip) (l : L1Line) : c.timed (c.timed l) = c.timed l := by
  simp [Chip.timed, Chip.timeOf_current]

/-- Rewriting the stored times changes no time that is read. -/
theorem Chip.sliceAt_retime (c : Chip) (k : Nat) : c.retime.sliceAt k = c.sliceAt k := by
  simp only [Chip.sliceAt, Chip.retime, Sparse.find?_mapVals]
  cases Sparse.find? c.slices k with
  | none => rfl
  | some x => exact congrArg (fun t => { x with memts := t, gen := c.generation }) (c.timeOf_current _)

theorem memts_retime (c : Chip) (ln : Nat) : memts c.retime ln = memts c ln := by
  have hn : c.retime.slices = [] ↔ c.slices = [] := by
    simp [Chip.retime, Sparse.mapVals]
  simp only [memts, hn, Chip.sliceAt_retime]
  rfl

theorem Chip.l1?_retime (c : Chip) (k ln : Nat) : c.retime.l1? k ln = c.l1? k ln := by
  simp only [Chip.l1?, Chip.core, Sparse.get, Chip.retime, Sparse.find?_mapVals]
  cases Sparse.find? c.cores k with
  | none => rfl
  | some x =>
    simp only [Option.map_some, Option.getD_some, Sparse.find?_mapVals]
    cases Sparse.find? x.l1 ln with
    | none => rfl
    | some l => exact congrArg some (c.timed_timed l)

theorem Chip.find?_home_retime (c : Chip) (ln : Nat) : Sparse.find? c.retime.home ln = (Sparse.find? c.home ln).map (fun h =>
    { h with wts := c.timeOf h.gen h.wts, rts := c.timeOf h.gen h.rts, gen := c.generation }) := by
  unfold Chip.retime
  exact Sparse.find?_mapVals (fun _ (h : HomeLine) => { h with wts := c.timeOf h.gen h.wts, rts := c.timeOf h.gen h.rts, gen := c.generation })
    c.home ln

theorem Chip.line_retime (c : Chip) (e : State) (ln : Nat) : c.retime.line e ln = c.line e ln := by
  unfold Chip.line
  rw [Chip.find?_home_retime, memts_retime]
  cases Sparse.find? c.home ln with
  | none => rfl
  | some h =>
    have ht : ∀ t, c.retime.timeOf c.generation t = t := c.timeOf_current
    simp only [Option.map_some, ht]
    rfl

/-! Core cycles (07 R135, R141). -/

/-- A thread that no press entry holds is ready to issue. -/
theorem heldFault_eq_none {c : Chip} {t : Nat} (h : c.heldFor t = []) : heldFault c t = none := by
  rw [heldFault, h, List.findSome?_nil]

theorem execIssueGroup_none {s : State} {f : Nat} (hs : s.issue = none) (hp : choosePen s f = none) :
    execIssueGroup f s = .next { s with now := (countCycle s s.now f none).settleWaits (s.now.groupsOn f) } := by
  unfold execIssueGroup
  rw [hs, hp]

/-- The chosen pen opens its chain for the threads picked from it, where no press entry holds one. -/
theorem execIssueGroup_some {s : State} {f p t : Nat} {ts ms : List Nat} {code : Fetched} (hs : s.issue = none) (hp : choosePen s f = some (p, ts))
    (hm : s.now.pickLanes ts = t :: ms) (hheld : ∀ x ∈ t :: ms, s.now.heldFor x = [])
    (hc : (Sparse.find? (s.now.croft f).pens p).bind Pen.code = some code) :
    execIssueGroup f s = .next { s with
      now := touchFetch s (countCycle s s.now f (some p)) t (s.now.thread t).pc code
      base := none
      issue := some { members := t :: ms, pc := (s.now.thread t).pc, pen := some p, code := some code } } := by
  have hidle : ∀ c, (t :: ms).foldl (fun c x => if (s.now.heldFor x).isEmpty then c else checkHeld s c x) c = c := fun c =>
    foldl_idle (fun x hx d => if_pos (by rw [hheld x hx, List.isEmpty_nil]))
  have hall : (t :: ms).filter (fun x => (heldFault s.now x).isNone) = t :: ms :=
    List.filter_eq_self.mpr (fun x hx => by rw [heldFault_eq_none (hheld x hx), Option.isNone_none])
  unfold execIssueGroup
  rw [hs, hp]
  dsimp only
  rw [hm, hidle, hall, hc]
  rfl

section
variable {k bin f pen th : Nat}

/-- A closed bin launches on a croft of its core with room (07 R153). -/
theorem leaves_binLaunch (b : Bin) : Leaves (.binLaunch k bin f)
    (fun s => Sparse.find? (s.now.freeGroups.core k).bins bin = some b ∧ b.closed = true ∧ s.now.freeGroups.mayRun b.team = true ∧ f / 4 = k ∧
      s.now.freeGroups.croftRoom f (s.now.freeGroups.team b.team).regs = true ∧ b.args.length ≤ 32)
    (fun s t => Sparse.find? (t.now.core k).bins bin = none ∧ (t.now.group s.now.nextId).team = b.team ∧ (t.now.group s.now.nextId).croft = f ∧
      ∀ l a, b.args[l]? = some a → let x := t.now.thread (32 * s.now.nextId + l)
        x.present = true ∧ x.pc = b.entry ∧ x.level = a.2 ∧ x.regs = [(0, { bits := a.1 })]) := by
  refine leaves_of_event (exec_binLaunch k bin f) (fun s => ?_)
  rintro ⟨hb, hclosed, hrun, hcore, hroom, -⟩
  simp only [hb, hclosed, hrun, hcore, hroom, Bool.not_true, Bool.false_or, ne_eq, not_true_eq_false, decide_false, Bool.false_eq_true, if_false,
    if_true]
  obtain ⟨hcores, hteam, hcroft, hthread⟩ := launchBin_spec (s.now.freeGroups.setCore k { s.now.freeGroups.core k with
    bins := Sparse.erase (s.now.freeGroups.core k).bins bin }) f b
  refine ⟨?_, hteam, hcroft, fun l a ha => ?_⟩
  · rw [Chip.core, hcores, ← Chip.core, Chip.core_setCore, if_pos rfl, Sparse.find?_erase_same]
  · have hx := hthread l a ha
    exact ⟨(congrArg Thread.present hx :), (congrArg Thread.pc hx :), (congrArg Thread.level hx :), (congrArg Thread.regs hx :)⟩

/-- A tick where nothing waits for one moves every clock on. -/
theorem leaves_tick : Leaves .tick
    (fun s => s.board.accum < 3 ∧ s.now.deferred = [] ∧ s.board.inbox = [] ∧ ∀ p ∈ s.now.ctxs, p.2.state ≠ .resuming) (fun s t =>
      (∀ n < Config.cores, (t.now.core n).clk = min (2 ^ 48 - 1) ((s.now.core n).clk + 1)) ∧ t.board.dtick = s.board.dtick + 1 ∧
      t.board.accum < 3 ∧ (∃ n, s.board.accum + 3 * n = t.board.accum + 128) ∧ t.mem = s.mem) := by
  refine leaves_of_eventS exec_tick (fun s => ?_)
  rintro ⟨haccum, hdeferred, hinbox, hctxs⟩
  obtain ⟨hmem, ha, hdtick, hin, hcores, hdef, hctx⟩ := s.sendAll_keeps
  rw [← ha] at haccum ⊢
  rw [← hdef] at hdeferred
  rw [← hin] at hinbox
  rw [← hctx] at hctxs
  have hcore : ∀ n, s.now.core n = s.sendAll.now.core n := fun n => by rw [Chip.core, Chip.core, hcores]
  simp only [hcore, ← hmem, ← hdtick]
  generalize s.sendAll = e at *
  rw [tickWork_idle _ hdeferred hctxs, serveInbox_nil (by exact hinbox)]
  refine ⟨fun n hn => Chip.clk_tickClocks _ hn, rfl, ?_, ⟨(128 - e.board.accum + 2) / 3, ?_⟩, rfl⟩
  · dsimp only
    omega
  · dsimp only
    omega

theorem leaves_rebaseSweep : Leaves .rebaseSweep
    (fun s => (s.now.pastBase || s.now.sweepQueued) = true ∧ s.now.sweeping = false ∧
      (s.board.barnFenced.contains 0 = true → s.board.barnFenced.contains 1 = false)) (fun s t =>
        let b := s.now.timeBase + 2 ^ 22
        t.now.timeBase = b ∧ t.now.generation = (!s.now.generation) ∧ t.now.sweeping = true ∧ t.now.sweepQueued = false ∧
        (∀ n < Config.cores, (t.now.core n).clk = min (2 ^ 48 - 1) (max (s.now.core n).clk (b + 1))) ∧
        (∀ n h, Sparse.find? s.now.home n = some h → h.gen = s.now.generation →
          (t.now.line t n).wts = max b h.wts ∧ (t.now.line t n).rts = max b h.rts ∧ (t.now.line t n).data = h.data) ∧ t.mem = s.mem) := by
  refine leaves_of_event exec_rebaseSweep (fun s => ?_)
  rintro ⟨hdue, hrest, hbarn⟩
  have hb := s.board.sweeps_iff.mpr hbarn
  simp only [hdue, hb, hrest, Bool.not_true, Bool.or_false, Bool.false_eq_true, if_false]
  refine ⟨rfl, rfl, trivial, trivial, fun n hn => s.now.clk_rebase _ hn, fun n h hf hg => ?_, trivial⟩
  obtain ⟨hdata, -, -, hwts, hrts, -⟩ := Chip.line_of_find (c := { s.now.rebase (s.now.timeBase + 2 ^ 22) with sweeping := true, sweepQueued := false })
    (e := { s with now := { s.now.rebase (s.now.timeBase + 2 ^ 22) with sweeping := true, sweepQueued := false } }) hf
  refine ⟨hwts.trans ?_, hrts.trans ?_, hdata⟩
  · rw [hg]
    exact s.now.timeOf_rebase _ _
  · rw [hg]
    exact s.now.timeOf_rebase _ _

theorem happens_rebaseSweep_queued : Happens .rebaseSweep
    (fun s => (s.now.pastBase || s.now.sweepQueued) = true ∧ s.now.sweeping = true ∧
      (s.board.barnFenced.contains 0 = true → s.board.barnFenced.contains 1 = false))
    (fun s => { s with now := { s.now with sweepQueued := true } }) := by
  refine happens_of_event exec_rebaseSweep (fun s => ?_)
  rintro ⟨hdue, hruns, hbarn⟩
  have hb := s.board.sweeps_iff.mpr hbarn
  simp only [hdue, hb, hruns, Bool.not_true, Bool.or_false, Bool.false_eq_true, if_false, if_true]

theorem leaves_rebaseSweepComplete : Leaves .rebaseSweepComplete
    (fun s => s.board.barnFenced.contains 0 = true → s.board.barnFenced.contains 1 = false)
    (fun s t => t.now.sweeping = false ∧ t.now.timeBase = s.now.timeBase ∧
      (∀ n h, Sparse.find? t.now.home n = some h → h.gen = t.now.generation) ∧ (∀ n, t.now.line t n = s.now.line s n) ∧
      (∀ k n, t.now.l1? k n = s.now.l1? k n) ∧ t.mem = s.mem) := by
  refine leaves_of_event exec_rebaseSweepComplete (fun s hbarn => ?_)
  simp only [s.board.sweeps_iff.mpr hbarn, if_true]
  refine ⟨trivial, rfl, fun n h hf => ?_, fun n => s.now.line_retime s n, fun k n => s.now.l1?_retime k n, trivial⟩
  obtain ⟨g, -, rfl⟩ := Option.map_eq_some_iff.mp ((s.now.find?_home_retime n).symm.trans hf)
  rfl

theorem happens_penStarved (p : Pen) : Happens (.penStarved f pen)
    (fun s => Sparse.find? (s.now.croft f).pens pen = some p ∧ p.starved = none ∧ (s.now.ctx p.ctx).fairlim ≤ p.fair)
    (fun s => { s with now := s.now.tickStamp.2.setCroft f { s.now.croft f with
      pens := Sparse.set (s.now.croft f).pens pen { p with starved := some s.now.stamp } } }) := by
  refine happens_of_event (exec_penStarved f pen) (fun s => ?_)
  rintro ⟨hpen, hstarved, hfair⟩
  simp only [hpen, hstarved, Option.isSome_none, Bool.false_eq_true, false_or, Nat.not_lt.mpr hfair, if_false, Chip.tickStamp]

theorem happens_pauseExpiry : Happens (.pauseExpiry th) (fun s => (s.now.thread th).paused = 1)
    (fun s => { s with now := s.now.setThread th { s.now.thread th with paused := 0 } }) :=
  happens_of_event (exec_pauseExpiry th) (fun s hpaused => by simp only [hpaused, if_true])

theorem happens_yieldEnd (ps : List Nat) (n : Nat) :
    Happens (.yieldEnd th) (fun s => (s.now.thread th).yielding = some (ps, n) ∧ (ps = [] ∨ n = 0))
      (fun s => { s with now := s.now.setThread th { s.now.thread th with yielding := none } }) := by
  refine happens_of_event (exec_yieldEnd th) (fun s => ?_)
  rintro ⟨hyield, hend⟩
  simp only [hyield, List.isEmpty_iff, hend, if_true]

theorem happens_binTimerExpiry (b : Bin) : Happens (.binTimerExpiry k bin)
    (fun s => Sparse.find? (s.now.core k).bins bin = some b ∧ b.timer = 0 ∧ s.now.mayRun b.team = true)
    (fun s => { s with now := s.now.setCore k { s.now.core k with bins := Sparse.set (s.now.core k).bins bin { b with closed := true } } }) := by
  refine happens_of_event (exec_binTimerExpiry k bin) (fun s => ?_)
  rintro ⟨hbin, htimer, hrun⟩
  simp only [hbin, htimer, hrun, and_self, if_true]

end

/-- Settles O53 (the model has a `coreEvents` of its own): with a chain open an event leaves the state as it is, and with none open each event of a core does as stated. -/
theorem coreEventsHold : Obligations.CoreEvents := by
  refine ⟨fun i s hw hs => (isEvent_of_hasWord hw).waits hs, fun k bin f pen th => ⟨?_, ?_, happens_penStarved, happens_pauseExpiry,
    happens_yieldEnd, happens_binTimerExpiry, leaves_binLaunch, leaves_tick, leaves_rebaseSweep, happens_rebaseSweep_queued,
    leaves_rebaseSweepComplete⟩⟩
  · exact fun s hs hp => (exec_issueGroup f s).trans (execIssueGroup_none hs hp)
  · rintro p ts t ms code s hs ⟨hp, hm, hheld, hc⟩
    exact (exec_issueGroup f s).trans (execIssueGroup_some hs hp hm hheld hc)

end Sys2Proof.Machine
end

section
/-! Encoding and decoding (O1, O2): a word that decodes is the word of its instruction. Each row of the opcode tables lays a word out in
parts, operands and fixed bits, from bit 31 down to bit 0; where the checks of 03 R52 pass, the fixed parts hold their numbers, so the
operands and the fixed parts together are the word. -/

namespace Sys2Proof

/-! The parts of a word. -/

theorem fieldNat_bit (w n : Nat) : fieldNat w n 1 = bitNat (bitAt w n) := by
  unfold fieldNat bitNat bitAt
  rcases Nat.mod_two_eq_zero_or_one (w / 2 ^ n) with h | h <;> simp [h]

@[simp] theorem bitAt_eq_false {w n : Nat} : bitAt w n = false ↔ fieldNat w n 1 = 0 := by
  rw [fieldNat_bit]
  cases bitAt w n <;> simp [bitNat]

theorem toNat_fieldBits (w lo len : Nat) : (fieldBits w lo len).toNat = fieldNat w lo len := BitVec.toNat_ofNat _ _

/-- A part of a word (03 R43): an operand of one bit, an operand field, or bits that hold a number. -/
inductive Tile where
  | bit (n : Nat)
  | field (lo len : Nat)
  | fixed (lo len v : Nat)

namespace Tile

/-- The parts, from the highest on, are the lowest `p` bits of a word, each bit once. -/
def covers : Nat → List Tile → Bool
  | p, [] => p == 0
  | p, .bit n :: l => n + 1 == p && covers n l
  | p, .field lo len :: l => lo + len == p && covers lo l
  | p, .fixed lo len _ :: l => lo + len == p && covers lo l

/-- The number that the fixed parts make. -/
def constant : List Tile → Nat
  | [] => 0
  | .bit _ :: l => constant l
  | .field _ _ :: l => constant l
  | .fixed lo _ v :: l => v * 2 ^ lo + constant l

/-- A number at a place. -/
def placed (x : Nat) : Nat → Nat
  | 0 => x
  | lo + 1 => x * 2 ^ (lo + 1)

theorem placed_eq (x lo : Nat) : placed x lo = x * 2 ^ lo := by
  cases lo with
  | zero => exact (Nat.mul_one x).symm
  | succ lo => rfl

/-- A number with the operands of a word added at their places. -/
def operands (w : Nat) : Nat → List Tile → Nat
  | n, [] => n
  | n, .bit k :: l => operands w (n + placed (bitNat (bitAt w k)) k) l
  | n, .field lo len :: l => operands w (n + placed (fieldBits w lo len).toNat lo) l
  | n, .fixed .. :: l => operands w n l

/-- The fixed parts hold their numbers in a word. -/
def Meets (w : Nat) : List Tile → Prop
  | [] => True
  | .bit _ :: l => Meets w l
  | .field _ _ :: l => Meets w l
  | .fixed lo len v :: l => fieldNat w lo len = v ∧ Meets w l

/-- The bits below a place are a field under it and the bits below the field. -/
theorem mod_eq_field_add (w lo len : Nat) : w % 2 ^ (lo + len) = fieldNat w lo len * 2 ^ lo + w % 2 ^ lo := by
  rw [Nat.pow_add, Nat.mod_mul, fieldNat, Nat.add_comm, Nat.mul_comm]

/-- Parts that cover a word and hold their numbers make it up. -/
theorem operands_of_covers {w p : Nat} {l : List Tile} (hc : covers p l = true) (hm : Meets w l) (n : Nat) :
    operands w (n + constant l) l = n + w % 2 ^ p := by
  induction l generalizing p n with
  | nil =>
    have hp : p = 0 := by simpa [covers] using hc
    simp [operands, constant, hp, Nat.mod_one]
  | cons t l ih =>
    cases t with
    | bit k =>
      simp only [covers, Bool.and_eq_true, beq_iff_eq] at hc
      obtain ⟨rfl, hc⟩ := hc
      rw [mod_eq_field_add, fieldNat_bit, ← Nat.add_assoc, ← ih hc hm, operands, constant, placed_eq, Nat.add_right_comm]
    | field lo len =>
      simp only [covers, Bool.and_eq_true, beq_iff_eq] at hc
      obtain ⟨rfl, hc⟩ := hc
      rw [mod_eq_field_add, ← toNat_fieldBits, ← Nat.add_assoc, ← ih hc hm, operands, constant, placed_eq, Nat.add_right_comm]
    | fixed lo len v =>
      simp only [covers, Bool.and_eq_true, beq_iff_eq] at hc
      obtain ⟨rfl, hc⟩ := hc
      obtain ⟨rfl, hm⟩ := hm
      rw [mod_eq_field_add, ← Nat.add_assoc, ← ih hc hm, operands, constant, Nat.add_assoc]

/-- The fixed parts of the word 0 are 0. -/
theorem constant_eq_zero {p : Nat} {l : List Tile} (hc : covers p l = true) (hm : Meets 0 l) : constant l = 0 := by
  have hle (n : Nat) : n ≤ operands 0 n l := by
    clear hc hm
    induction l generalizing n with
    | nil => exact Nat.le_refl n
    | cons t l ih =>
      cases t with
      | bit k => exact Nat.le_trans (Nat.le_add_right _ _) (ih _)
      | field lo len => exact Nat.le_trans (Nat.le_add_right _ _) (ih _)
      | fixed lo len v => exact ih n
  have := operands_of_covers hc hm 0
  simp only [Nat.zero_add, Nat.zero_mod] at this
  exact Nat.le_zero.mp (this ▸ hle (constant l))

/-- A word of three bits of fn (03 R51) with the bits C and U, with the parts below the fn field. -/
def fnCU (major fn : Nat) (l : List Tile) : List Tile := .bit 31 :: .bit 30 :: .fixed 24 6 major :: .fixed 21 3 fn :: l

/-- A word of three bits of fn with the bit C alone. -/
def fnC (major fn : Nat) (l : List Tile) : List Tile := .bit 31 :: .fixed 30 1 0 :: .fixed 24 6 major :: .fixed 21 3 fn :: l

/-- A word of eight bits of fn with the bit C alone. -/
def sysC (major fn : Nat) (l : List Tile) : List Tile := .bit 31 :: .fixed 30 1 0 :: .fixed 24 6 major :: .fixed 16 8 fn :: l

section
variable {w k lo len v m f : Nat} {l : List Tile}

@[simp] theorem meets_nil : Meets w [] := trivial

@[simp] theorem meets_bit : Meets w (.bit k :: l) ↔ Meets w l := Iff.rfl

@[simp] theorem meets_field : Meets w (.field lo len :: l) ↔ Meets w l := Iff.rfl

@[simp] theorem meets_fixed : Meets w (.fixed lo len v :: l) ↔ fieldNat w lo len = v ∧ Meets w l := Iff.rfl

@[simp] theorem meets_fnCU : Meets w (fnCU m f l) ↔ fieldNat w 24 6 = m ∧ fieldNat w 21 3 = f ∧ Meets w l := Iff.rfl

@[simp] theorem meets_fnC : Meets w (fnC m f l) ↔ fieldNat w 30 1 = 0 ∧ fieldNat w 24 6 = m ∧ fieldNat w 21 3 = f ∧ Meets w l := Iff.rfl

@[simp] theorem meets_sysC : Meets w (sysC m f l) ↔ fieldNat w 30 1 = 0 ∧ fieldNat w 24 6 = m ∧ fieldNat w 16 8 = f ∧ Meets w l := Iff.rfl

end

end Tile

open Tile Machine

/-- A number is the word of an instruction, and the instruction is well formed. -/
def IsWordOf (w : Nat) (i : Instr) : Prop := wellFormed i = true ∧ encodeNat i = w

theorem hasWord_of_wellFormed {i : Instr} (h : wellFormed i = true) : hasWord i = true := by
  simp only [wellFormed, Bool.and_eq_true] at h
  exact h.1.1.1.1

/-- The checks of 03 R52 pass. -/
theorem of_checked_ok {i j : Instr} {r u a z : Bool} (h : checked j r u a z = .ok i) :
    i = j ∧ (r = true ∧ u = true ∧ a = true ∧ z = true) ∧ reservedValue j = false ∧ misaligned j = false ∧ unusedNonzero j = false := by
  unfold checked at h
  split_ifs at h with hr hu ha hz
  injection h with h
  simp only [Bool.or_eq_true, Bool.not_eq_true', not_or, Bool.not_eq_false, Bool.not_eq_true] at hr hu ha hz
  exact ⟨h.symm, ⟨hr.1, hu, ha.1, hz.1⟩, hr.2, ha.2, hz.2⟩

section
variable {w : Nat} {i : Instr} (hw : w < 2 ^ 32)
include hw

/-- A row of the tables whose layout covers the word: that the parts cover it, that the encoder adds up the same parts, and that the
selector is listed follow by evaluation. -/
theorem isWordOf_of_checked {j : Instr} {r u a z : Bool} (l : List Tile) (h : checked j r u a z = .ok i)
    (hm : r = true → u = true → a = true → z = true → Meets w l) (hs : selectorListed j = true)
    (hn : encodeNat j = operands w (constant l) l) (hc : (covers 32 l && constant l != 0) = true) :
    IsWordOf w i := by
  obtain ⟨rfl, ⟨hr, hu, ha, hz⟩, hres, hal, hun⟩ := of_checked_ok h
  obtain ⟨hcov, hpos⟩ := Bool.and_eq_true_iff.mp hc
  have hsum (n : Nat) : operands w (n + constant l) l = n + w := by
    rw [operands_of_covers hcov (hm hr hu ha hz), Nat.mod_eq_of_lt hw]
  have hword : encodeNat i = w := by rw [hn, ← Nat.zero_add (constant l), hsum, Nat.zero_add]
  have hne : w ≠ 0 := by
    rintro rfl
    have := constant_eq_zero hcov (hm hr hu ha hz)
    simp [this] at hpos
  refine ⟨?_, hword⟩
  simp [wellFormed, hasWord, hword, hne, hs, hres, hal, hun]

/-- A row that ends a chain has the bit C clear (03 R38). -/
theorem isWordOf_of_checked_end {j : Instr} {r u a z : Bool} (l : List Tile) (hend : endsChain i = true → fieldNat w 31 1 = 0)
    (h : checked j r u a z = .ok i)
    (hm : fieldNat w 31 1 = 0 → r = true → u = true → a = true → z = true → Meets w l) (hj : endsChain j = true)
    (hs : selectorListed j = true) (hn : encodeNat j = operands w (constant l) l)
    (hc : (covers 32 l && constant l != 0) = true) : IsWordOf w i :=
  isWordOf_of_checked hw l h (hm (hend ((of_checked_ok h).1 ▸ hj))) hs hn hc

/-! The words of each major. -/

theorem isWordOf_of_decodeMajor01 (hm : fieldNat w 24 6 = 0x01) (h : decodeMajor01 w = .ok i) : IsWordOf w i := by
  rw [decodeMajor01] at h
  obtain hf | hf | hf | hf | hf | hf | hf | hf := fn_cases w <;> rw [hf] at h
  · exact isWordOf_of_checked hw (fnCU 0x01 0x0 [.field 14 7, .field 7 7, .field 0 7]) h (by simp +contextual [hm, hf]) rfl rfl rfl
  · exact isWordOf_of_checked hw (fnCU 0x01 0x1 [.field 14 7, .field 7 7, .field 0 7]) h (by simp +contextual [hm, hf]) rfl rfl rfl
  · exact isWordOf_of_checked hw (fnCU 0x01 0x2 [.field 14 7, .field 7 7, .field 0 7]) h (by simp +contextual [hm, hf]) rfl rfl rfl
  · exact isWordOf_of_checked hw (fnCU 0x01 0x3 [.field 14 7, .field 7 7, .field 0 7]) h (by simp +contextual [hm, hf]) rfl rfl rfl
  · exact isWordOf_of_checked hw (fnCU 0x01 0x4 [.field 14 7, .field 7 7, .field 0 7]) h (by simp +contextual [hm, hf]) rfl rfl rfl
  · exact isWordOf_of_checked hw (fnCU 0x01 0x5 [.field 14 7, .field 7 7, .field 0 7]) h (by simp +contextual [hm, hf]) rfl rfl rfl
  · exact isWordOf_of_checked hw (fnCU 0x01 0x6 [.field 14 7, .field 7 7, .field 0 7]) h (by simp +contextual [hm, hf]) rfl rfl rfl
  · exact isWordOf_of_checked hw (fnCU 0x01 0x7 [.field 14 7, .field 7 7, .fixed 0 7 0]) h (by simp +contextual [hm, hf]) rfl rfl rfl

theorem isWordOf_of_decodeMajor02 (hm : fieldNat w 24 6 = 0x02) (h : decodeMajor02 w = .ok i) : IsWordOf w i := by
  rw [decodeMajor02] at h
  obtain hf | hf | hf | hf | hf | hf | hf | hf := fn_cases w <;> rw [hf] at h
  · exact isWordOf_of_checked hw (fnCU 0x02 0x0 [.field 14 7, .field 7 7, .field 0 7]) h (by simp +contextual [hm, hf]) rfl rfl rfl
  · exact isWordOf_of_checked hw (fnCU 0x02 0x1 [.field 14 7, .field 7 7, .field 0 7]) h (by simp +contextual [hm, hf]) rfl rfl rfl
  · exact isWordOf_of_checked hw (fnCU 0x02 0x2 [.field 14 7, .field 7 7, .field 0 7]) h (by simp +contextual [hm, hf]) rfl rfl rfl
  · exact isWordOf_of_checked hw (fnCU 0x02 0x3 [.field 14 7, .field 7 7, .field 0 7]) h (by simp +contextual [hm, hf]) rfl rfl rfl
  · exact isWordOf_of_checked hw (fnCU 0x02 0x4 [.field 14 7, .field 7 7, .field 0 7]) h (by simp +contextual [hm, hf]) rfl rfl rfl
  · exact isWordOf_of_checked hw (fnCU 0x02 0x5 [.field 14 7, .field 7 7, .field 0 7]) h (by simp +contextual [hm, hf]) rfl rfl rfl
  · exact isWordOf_of_checked hw (fnCU 0x02 0x6 [.field 14 7, .field 7 7, .field 0 7]) h (by simp +contextual [hm, hf]) rfl rfl rfl
  · exact isWordOf_of_checked hw (fnCU 0x02 0x7 [.field 14 7, .field 7 7, .field 0 7]) h (by simp +contextual [hm, hf]) rfl rfl rfl

theorem isWordOf_of_decodeMajor03 (hm : fieldNat w 24 6 = 0x03) (h : decodeMajor03 w = .ok i) : IsWordOf w i := by
  rw [decodeMajor03] at h
  obtain hf | hf | hf | hf | hf | hf | hf | hf := fn_cases w <;> rw [hf] at h
  · exact isWordOf_of_checked hw (fnCU 0x03 0x0 [.field 15 6, .fixed 14 1 0, .field 8 6, .fixed 7 1 0, .field 1 6, .fixed 0 1 0])
      h (by simp +contextual [hm, hf]) rfl rfl rfl
  · exact isWordOf_of_checked hw (fnCU 0x03 0x1 [.field 15 6, .fixed 14 1 0, .field 8 6, .fixed 7 1 0, .field 1 6, .fixed 0 1 0])
      h (by simp +contextual [hm, hf]) rfl rfl rfl
  · exact isWordOf_of_checked hw (fnCU 0x03 0x2 [.field 15 6, .fixed 14 1 0, .field 8 6, .fixed 7 1 0, .field 1 6, .fixed 0 1 0])
      h (by simp +contextual [hm, hf]) rfl rfl rfl
  · exact isWordOf_of_checked hw (fnCU 0x03 0x3 [.field 15 6, .fixed 14 1 0, .field 7 7, .field 0 7]) h (by simp +contextual [hm, hf]) rfl rfl rfl
  · exact isWordOf_of_checked hw (fnCU 0x03 0x4 [.field 15 6, .fixed 14 1 0, .field 7 7, .field 0 7]) h (by simp +contextual [hm, hf]) rfl rfl rfl
  · exact isWordOf_of_checked hw (fnCU 0x03 0x5 [.field 15 6, .fixed 14 1 0, .field 8 6, .fixed 7 1 0, .field 0 7])
      h (by simp +contextual [hm, hf]) rfl rfl rfl
  · exact isWordOf_of_checked hw (fnCU 0x03 0x6 [.field 15 6, .fixed 14 1 0, .field 8 6, .fixed 7 1 0, .field 0 7])
      h (by simp +contextual [hm, hf]) rfl rfl rfl
  · exact isWordOf_of_checked hw (fnCU 0x03 0x7 [.field 15 6, .fixed 14 1 0, .field 8 6, .fixed 7 1 0, .field 0 7])
      h (by simp +contextual [hm, hf]) rfl rfl rfl

theorem isWordOf_of_decodeMajor04 (hm : fieldNat w 24 6 = 0x04) (h : decodeMajor04 w = .ok i) : IsWordOf w i := by
  rw [decodeMajor04] at h
  obtain hf | hf | hf | hf | hf | hf | hf | hf := fn_cases w <;> rw [hf] at h
  · exact isWordOf_of_checked hw (fnCU 0x04 0x0 [.field 14 7, .field 7 7, .field 0 7]) h (by simp +contextual [hm, hf]) rfl rfl rfl
  · exact isWordOf_of_checked hw (fnCU 0x04 0x1 [.field 14 7, .field 7 7, .field 0 7]) h (by simp +contextual [hm, hf]) rfl rfl rfl
  · exact isWordOf_of_checked hw (fnCU 0x04 0x2 [.field 14 7, .field 7 7, .field 0 7]) h (by simp +contextual [hm, hf]) rfl rfl rfl
  · exact isWordOf_of_checked hw (fnCU 0x04 0x3 [.field 14 7, .field 7 7, .field 0 7]) h (by simp +contextual [hm, hf]) rfl rfl rfl
  · exact isWordOf_of_checked hw (fnCU 0x04 0x4 [.field 14 7, .field 7 7, .field 0 7]) h (by simp +contextual [hm, hf]) rfl rfl rfl
  · exact isWordOf_of_checked hw (fnCU 0x04 0x5 [.field 14 7, .field 7 7, .field 0 7]) h (by simp +contextual [hm, hf]) rfl rfl rfl
  · exact isWordOf_of_checked hw (fnCU 0x04 0x6 [.field 14 7, .field 7 7, .fixed 0 7 0]) h (by simp +contextual [hm, hf]) rfl rfl rfl
  · exact isWordOf_of_checked hw (fnCU 0x04 0x7 [.field 14 7, .field 7 7, .fixed 0 7 0]) h (by simp +contextual [hm, hf]) rfl rfl rfl

theorem isWordOf_of_decodeMajor05 (hm : fieldNat w 24 6 = 0x05) (h : decodeMajor05 w = .ok i) : IsWordOf w i := by
  rw [decodeMajor05] at h
  obtain hf | hf | hf | hf | hf | hf | hf | hf := fn_cases w <;> rw [hf] at h
  · exact isWordOf_of_checked hw (fnCU 0x05 0x0 [.field 14 7, .field 7 7, .field 0 7]) h (by simp +contextual [hm, hf]) rfl rfl rfl
  · exact isWordOf_of_checked hw (fnCU 0x05 0x1 [.field 14 7, .field 7 7, .field 0 7]) h (by simp +contextual [hm, hf]) rfl rfl rfl
  · exact isWordOf_of_checked hw (fnCU 0x05 0x2 [.field 14 7, .field 7 7, .field 0 7]) h (by simp +contextual [hm, hf]) rfl rfl rfl
  · exact isWordOf_of_checked hw (fnCU 0x05 0x3 [.field 14 7, .field 7 7, .field 0 7]) h (by simp +contextual [hm, hf]) rfl rfl rfl
  · exact isWordOf_of_checked hw (fnCU 0x05 0x4 [.field 14 7, .field 7 7, .fixed 0 7 0]) h (by simp +contextual [hm, hf]) rfl rfl rfl
  · exact isWordOf_of_checked hw (fnCU 0x05 0x5 [.field 14 7, .field 7 7, .fixed 0 7 0]) h (by simp +contextual [hm, hf]) rfl rfl rfl
  · exact isWordOf_of_checked hw (fnCU 0x05 0x6 [.field 14 7, .field 7 7, .fixed 0 7 0]) h (by simp +contextual [hm, hf]) rfl rfl rfl
  · exact isWordOf_of_checked hw (fnCU 0x05 0x7 [.field 14 7, .field 7 7, .fixed 0 7 0]) h (by simp +contextual [hm, hf]) rfl rfl rfl

theorem isWordOf_of_decodeMajor06 (hm : fieldNat w 24 6 = 0x06) (h : decodeMajor06 w = .ok i) : IsWordOf w i := by
  rw [decodeMajor06] at h
  obtain hf | hf | hf | hf | hf | hf | hf | hf := fn_cases w <;> rw [hf] at h
  · exact isWordOf_of_checked hw (fnCU 0x06 0x0 [.field 14 7, .field 7 7, .field 0 7]) h (by simp +contextual [hm, hf]) rfl rfl rfl
  · exact isWordOf_of_checked hw (fnCU 0x06 0x1 [.field 14 7, .field 7 7, .field 0 7]) h (by simp +contextual [hm, hf]) rfl rfl rfl
  · exact isWordOf_of_checked hw (fnCU 0x06 0x2 [.field 14 7, .field 7 7, .field 0 7]) h (by simp +contextual [hm, hf]) rfl rfl rfl
  · exact isWordOf_of_checked hw (fnCU 0x06 0x3 [.field 14 7, .field 7 7, .field 0 7]) h (by simp +contextual [hm, hf]) rfl rfl rfl
  · exact isWordOf_of_checked hw (fnCU 0x06 0x4 [.field 14 7, .field 7 7, .field 0 7]) h (by simp +contextual [hm, hf]) rfl rfl rfl
  · exact isWordOf_of_checked hw (fnCU 0x06 0x5 [.field 14 7, .field 7 7, .field 0 7]) h (by simp +contextual [hm, hf]) rfl rfl rfl
  · exact isWordOf_of_checked hw (fnCU 0x06 0x6 [.field 14 7, .field 7 7, .field 0 7]) h (by simp +contextual [hm, hf]) rfl rfl rfl
  · exact isWordOf_of_checked hw (fnCU 0x06 0x7 [.field 14 7, .field 7 7, .field 0 7]) h (by simp +contextual [hm, hf]) rfl rfl rfl

theorem isWordOf_of_decodeMajor08 (hm : fieldNat w 24 6 = 0x08) (h : decodeMajor08 w = .ok i) : IsWordOf w i :=
  isWordOf_of_checked hw [.bit 31, .bit 30, .fixed 24 6 0x08, .field 17 7, .field 10 7, .field 0 10] h (by simp +contextual [hm]) rfl rfl rfl

theorem isWordOf_of_decodeMajor09 (hm : fieldNat w 24 6 = 0x09) (h : decodeMajor09 w = .ok i) : IsWordOf w i :=
  isWordOf_of_checked hw [.bit 31, .bit 30, .fixed 24 6 0x09, .field 17 7, .field 10 7, .field 0 10] h (by simp +contextual [hm]) rfl rfl rfl

theorem isWordOf_of_decodeMajor0A (hm : fieldNat w 24 6 = 0x0A) (h : decodeMajor0A w = .ok i) : IsWordOf w i :=
  isWordOf_of_checked hw [.bit 31, .bit 30, .fixed 24 6 0x0A, .field 17 7, .field 10 7, .field 0 10] h (by simp +contextual [hm]) rfl rfl rfl

theorem isWordOf_of_decodeMajor0B (hm : fieldNat w 24 6 = 0x0B) (h : decodeMajor0B w = .ok i) : IsWordOf w i :=
  isWordOf_of_checked hw [.bit 31, .bit 30, .fixed 24 6 0x0B, .field 17 7, .field 10 7, .field 0 10] h (by simp +contextual [hm]) rfl rfl rfl

theorem isWordOf_of_decodeMajor0C (hm : fieldNat w 24 6 = 0x0C) (h : decodeMajor0C w = .ok i) : IsWordOf w i :=
  isWordOf_of_checked hw [.bit 31, .bit 30, .fixed 24 6 0x0C, .field 17 7, .field 10 7, .field 8 2, .fixed 6 2 0, .field 0 6]
      h (by simp +contextual [hm]) rfl rfl rfl

theorem isWordOf_of_decodeMajor0D (hm : fieldNat w 24 6 = 0x0D) (h : decodeMajor0D w = .ok i) : IsWordOf w i :=
  isWordOf_of_checked hw [.bit 31, .bit 30, .fixed 24 6 0x0D, .field 17 7, .field 10 7, .field 0 10] h (by simp +contextual [hm]) rfl rfl rfl

theorem isWordOf_of_decodeMajor0E (hm : fieldNat w 24 6 = 0x0E) (h : decodeMajor0E w = .ok i) : IsWordOf w i :=
  isWordOf_of_checked hw [.bit 31, .bit 30, .fixed 24 6 0x0E, .field 18 6, .fixed 17 1 0, .field 11 6, .fixed 10 1 0, .field 0 10]
      h (by simp +contextual [hm]) rfl rfl rfl

theorem isWordOf_of_decodeMajor10 (hm : fieldNat w 24 6 = 0x10) (h : decodeMajor10 w = .ok i) : IsWordOf w i :=
  isWordOf_of_checked hw [.bit 31, .bit 30, .fixed 24 6 0x10, .field 17 7, .field 0 17] h (by simp +contextual [hm]) rfl rfl rfl

theorem isWordOf_of_decodeMajor11 (hm : fieldNat w 24 6 = 0x11) (h : decodeMajor11 w = .ok i) : IsWordOf w i :=
  isWordOf_of_checked hw [.bit 31, .bit 30, .fixed 24 6 0x11, .field 17 7, .field 0 17] h (by simp +contextual [hm]) rfl rfl rfl

theorem isWordOf_of_decodeMajor12 (hm : fieldNat w 24 6 = 0x12) (h : decodeMajor12 w = .ok i) : IsWordOf w i :=
  isWordOf_of_checked hw [.bit 31, .bit 30, .fixed 24 6 0x12, .field 17 7, .fixed 10 7 0, .field 0 10] h (by simp +contextual [hm]) rfl rfl rfl

theorem isWordOf_of_decodeMajor13 (hm : fieldNat w 24 6 = 0x13) (h : decodeMajor13 w = .ok i) : IsWordOf w i :=
  isWordOf_of_checked hw [.bit 31, .bit 30, .fixed 24 6 0x13, .field 21 3, .fixed 20 1 0, .field 18 2, .fixed 17 1 0, .field 14 3, .field 7 7, .field 0 7]
      h (by simp +contextual [hm]) rfl rfl rfl

theorem isWordOf_of_decodeMajor14 (hm : fieldNat w 24 6 = 0x14) (h : decodeMajor14 w = .ok i) : IsWordOf w i :=
  isWordOf_of_checked hw [.bit 31, .bit 30, .fixed 24 6 0x14, .field 21 3, .fixed 20 1 0, .field 18 2, .fixed 17 1 0, .field 14 3, .field 7 7, .field 0 7]
      h (by simp +contextual [hm]) rfl rfl rfl

theorem isWordOf_of_decodeMajor15 (hm : fieldNat w 24 6 = 0x15) (h : decodeMajor15 w = .ok i) : IsWordOf w i := by
  rw [decodeMajor15] at h
  obtain hf | hf | hf | hf | hf | hf | hf | hf := fn_cases w <;> rw [hf] at h
  · exact isWordOf_of_checked hw (fnCU 0x15 0x0 [.fixed 17 4 0, .field 14 3, .fixed 10 4 0, .field 7 3, .fixed 3 4 0, .field 0 3])
      h (by simp +contextual [hm, hf]) rfl rfl rfl
  · exact isWordOf_of_checked hw (fnCU 0x15 0x1 [.fixed 17 4 0, .field 14 3, .fixed 10 4 0, .field 7 3, .fixed 3 4 0, .field 0 3])
      h (by simp +contextual [hm, hf]) rfl rfl rfl
  · exact isWordOf_of_checked hw (fnCU 0x15 0x2 [.fixed 17 4 0, .field 14 3, .fixed 10 4 0, .field 7 3, .fixed 3 4 0, .field 0 3])
      h (by simp +contextual [hm, hf]) rfl rfl rfl
  · exact isWordOf_of_checked hw (fnCU 0x15 0x3 [.fixed 17 4 0, .field 14 3, .fixed 10 4 0, .field 7 3, .fixed 0 7 0])
      h (by simp +contextual [hm, hf]) rfl rfl rfl
  · exact isWordOf_of_checked hw (fnCU 0x15 0x4 [.field 14 7, .fixed 0 14 0]) h (by simp +contextual [hm, hf]) rfl rfl rfl
  · exact isWordOf_of_checked hw (fnCU 0x15 0x5 [.fixed 14 7 0, .field 7 7, .fixed 0 7 0]) h (by simp +contextual [hm, hf]) rfl rfl rfl
  · exact isWordOf_of_checked hw (fnCU 0x15 0x6 [.fixed 17 4 0, .field 14 3, .fixed 1 13 0, .field 0 1]) h (by simp +contextual [hm, hf]) rfl rfl rfl
  · exact nomatch h

theorem isWordOf_of_decodeMajor16 (hm : fieldNat w 24 6 = 0x16) (h : decodeMajor16 w = .ok i) : IsWordOf w i :=
  isWordOf_of_checked hw [.bit 31, .bit 30, .fixed 24 6 0x16, .field 17 7, .field 10 7, .field 3 7, .field 0 3]
      h (by simp +contextual [hm]) rfl rfl rfl

theorem isWordOf_of_decodeMajor17 (hm : fieldNat w 24 6 = 0x17) (h : decodeMajor17 w = .ok i) : IsWordOf w i := by
  rw [decodeMajor17] at h
  obtain hf | hf | hf | hf | hf | hf | hf | hf := fn_cases w <;> rw [hf] at h
  · exact isWordOf_of_checked hw (fnCU 0x17 0x0 [.fixed 18 3 0, .field 14 4, .fixed 11 3 0, .field 7 4, .fixed 4 3 0, .field 0 4])
      h (by simp +contextual [hm, hf]) rfl rfl rfl
  · exact isWordOf_of_checked hw (fnCU 0x17 0x1 [.fixed 18 3 0, .field 14 4, .fixed 11 3 0, .field 7 4, .fixed 4 3 0, .field 0 4])
      h (by simp +contextual [hm, hf]) rfl rfl rfl
  · exact isWordOf_of_checked hw (fnCU 0x17 0x2 [.fixed 18 3 0, .field 14 4, .fixed 11 3 0, .field 7 4, .fixed 4 3 0, .field 0 4])
      h (by simp +contextual [hm, hf]) rfl rfl rfl
  · exact isWordOf_of_checked hw (fnCU 0x17 0x3 [.fixed 18 3 0, .field 14 4, .fixed 11 3 0, .field 7 4, .fixed 0 7 0])
      h (by simp +contextual [hm, hf]) rfl rfl rfl
  · exact isWordOf_of_checked hw (fnCU 0x17 0x4 [.fixed 18 3 0, .field 14 4, .field 7 7, .fixed 0 7 0]) h (by simp +contextual [hm, hf]) rfl rfl rfl
  · exact isWordOf_of_checked hw (fnCU 0x17 0x5 [.field 14 7, .fixed 11 3 0, .field 7 4, .fixed 0 7 0]) h (by simp +contextual [hm, hf]) rfl rfl rfl
  · exact isWordOf_of_checked hw (fnCU 0x17 0x6 [.field 14 7, .fixed 11 3 0, .field 7 4, .fixed 0 7 0]) h (by simp +contextual [hm, hf]) rfl rfl rfl
  · exact isWordOf_of_checked hw (fnCU 0x17 0x7 [.fixed 18 3 0, .field 14 4, .fixed 0 14 0]) h (by simp +contextual [hm, hf]) rfl rfl rfl

theorem isWordOf_of_decodeMajor18 (hm : fieldNat w 24 6 = 0x18) (h : decodeMajor18 w = .ok i) : IsWordOf w i := by
  rw [decodeMajor18] at h
  obtain hf | hf | hf | hf | hf | hf | hf | hf := fn_cases w <;> rw [hf] at h
  · exact isWordOf_of_checked hw (fnCU 0x18 0x0 [.field 14 7, .field 7 7, .field 0 7]) h (by simp +contextual [hm, hf]) rfl rfl rfl
  · exact isWordOf_of_checked hw (fnCU 0x18 0x1 [.field 14 7, .field 7 7, .field 0 7]) h (by simp +contextual [hm, hf]) rfl rfl rfl
  · exact isWordOf_of_checked hw (fnCU 0x18 0x2 [.field 14 7, .field 7 7, .field 0 7]) h (by simp +contextual [hm, hf]) rfl rfl rfl
  · exact isWordOf_of_checked hw (fnCU 0x18 0x3 [.field 14 7, .field 7 7, .field 0 7]) h (by simp +contextual [hm, hf]) rfl rfl rfl
  · exact isWordOf_of_checked hw (fnCU 0x18 0x4 [.field 14 7, .field 7 7, .field 0 7]) h (by simp +contextual [hm, hf]) rfl rfl rfl
  · exact isWordOf_of_checked hw (fnCU 0x18 0x5 [.field 14 7, .field 7 7, .fixed 0 7 0]) h (by simp +contextual [hm, hf]) rfl rfl rfl
  · exact isWordOf_of_checked hw (fnCU 0x18 0x6 [.field 14 7, .field 7 7, .fixed 0 7 0]) h (by simp +contextual [hm, hf]) rfl rfl rfl
  · exact isWordOf_of_checked hw (fnCU 0x18 0x7 [.field 14 7, .field 7 7, .field 0 7]) h (by simp +contextual [hm, hf]) rfl rfl rfl

theorem isWordOf_of_decodeMajor19 (hm : fieldNat w 24 6 = 0x19) (h : decodeMajor19 w = .ok i) : IsWordOf w i := by
  rw [decodeMajor19] at h
  obtain hf | hf | hf | hf | hf | hf | hf | hf := fn_cases w <;> rw [hf] at h
  · exact isWordOf_of_checked hw (fnCU 0x19 0x0 [.field 14 7, .field 7 7, .field 0 7]) h (by simp +contextual [hm, hf]) rfl rfl rfl
  · exact isWordOf_of_checked hw (fnCU 0x19 0x1 [.field 14 7, .field 7 7, .field 0 7]) h (by simp +contextual [hm, hf]) rfl rfl rfl
  · exact isWordOf_of_checked hw (fnCU 0x19 0x2 [.field 14 7, .field 7 7, .field 0 7]) h (by simp +contextual [hm, hf]) rfl rfl rfl
  · exact isWordOf_of_checked hw (fnCU 0x19 0x3 [.field 14 7, .field 7 7, .field 0 7]) h (by simp +contextual [hm, hf]) rfl rfl rfl
  · exact nomatch h
  · exact nomatch h
  · exact nomatch h
  · exact nomatch h

theorem isWordOf_of_decodeMajor1A (hm : fieldNat w 24 6 = 0x1A) (h : decodeMajor1A w = .ok i) : IsWordOf w i := by
  rw [decodeMajor1A] at h
  obtain hf | hf | hf | hf | hf | hf | hf | hf := fn_cases w <;> rw [hf] at h
  · exact isWordOf_of_checked hw (fnCU 0x1A 0x0 [.field 14 7, .field 7 7, .fixed 0 7 0]) h (by simp +contextual [hm, hf]) rfl rfl rfl
  · exact isWordOf_of_checked hw (fnCU 0x1A 0x1 [.field 14 7, .field 7 7, .fixed 0 7 0]) h (by simp +contextual [hm, hf]) rfl rfl rfl
  · exact isWordOf_of_checked hw (fnCU 0x1A 0x2 [.field 14 7, .field 7 7, .fixed 0 7 0]) h (by simp +contextual [hm, hf]) rfl rfl rfl
  · exact isWordOf_of_checked hw (fnCU 0x1A 0x3 [.field 14 7, .field 7 7, .fixed 0 7 0]) h (by simp +contextual [hm, hf]) rfl rfl rfl
  · exact isWordOf_of_checked hw (fnCU 0x1A 0x4 [.field 14 7, .field 7 7, .fixed 0 7 0]) h (by simp +contextual [hm, hf]) rfl rfl rfl
  · exact isWordOf_of_checked hw (fnCU 0x1A 0x5 [.field 14 7, .field 7 7, .fixed 0 7 0]) h (by simp +contextual [hm, hf]) rfl rfl rfl
  · exact isWordOf_of_checked hw (fnCU 0x1A 0x6 [.field 14 7, .field 7 7, .fixed 0 7 0]) h (by simp +contextual [hm, hf]) rfl rfl rfl
  · exact isWordOf_of_checked hw (fnCU 0x1A 0x7 [.field 14 7, .field 7 7, .fixed 0 7 0]) h (by simp +contextual [hm, hf]) rfl rfl rfl

theorem isWordOf_of_decodeMajor1B (hm : fieldNat w 24 6 = 0x1B) (h : decodeMajor1B w = .ok i) : IsWordOf w i := by
  rw [decodeMajor1B] at h
  obtain hf | hf | hf | hf | hf | hf | hf | hf := fn_cases w <;> rw [hf] at h
  · exact isWordOf_of_checked hw (fnCU 0x1B 0x0 [.field 14 7, .field 7 7, .field 0 7]) h (by simp +contextual [hm, hf]) rfl rfl rfl
  · exact isWordOf_of_checked hw (fnCU 0x1B 0x1 [.field 14 7, .field 7 7, .fixed 0 7 0]) h (by simp +contextual [hm, hf]) rfl rfl rfl
  · exact isWordOf_of_checked hw (fnCU 0x1B 0x2 [.field 14 7, .field 7 7, .fixed 0 7 0]) h (by simp +contextual [hm, hf]) rfl rfl rfl
  · exact isWordOf_of_checked hw (fnCU 0x1B 0x3 [.field 14 7, .field 7 7, .fixed 0 7 0]) h (by simp +contextual [hm, hf]) rfl rfl rfl
  · exact isWordOf_of_checked hw (fnCU 0x1B 0x4 [.field 14 7, .field 7 7, .fixed 0 7 0]) h (by simp +contextual [hm, hf]) rfl rfl rfl
  · exact isWordOf_of_checked hw (fnCU 0x1B 0x5 [.field 14 7, .field 7 7, .fixed 0 7 0]) h (by simp +contextual [hm, hf]) rfl rfl rfl
  · exact isWordOf_of_checked hw (fnCU 0x1B 0x6 [.field 14 7, .field 7 7, .fixed 0 7 0]) h (by simp +contextual [hm, hf]) rfl rfl rfl
  · exact isWordOf_of_checked hw (fnCU 0x1B 0x7 [.field 14 7, .field 7 7, .field 0 7]) h (by simp +contextual [hm, hf]) rfl rfl rfl

theorem isWordOf_of_decodeMajor1C (hm : fieldNat w 24 6 = 0x1C) (h : decodeMajor1C w = .ok i) : IsWordOf w i := by
  unfold decodeMajor1C at h
  split at h
  · exact nomatch h
  · rename_i hs
    exact isWordOf_of_checked hw [.bit 31, .bit 30, .fixed 24 6 0x1C, .field 23 1, .field 21 2, .field 14 7, .field 7 7, .field 0 7]
        h (by simp +contextual [hm]) (by simp [selectorListed, toNat_fieldBits, hs]) rfl rfl

theorem isWordOf_of_decodeMajor1D (hm : fieldNat w 24 6 = 0x1D) (h : decodeMajor1D w = .ok i) : IsWordOf w i := by
  rw [decodeMajor1D] at h
  obtain hf | hf | hf | hf | hf | hf | hf | hf := fn_cases w <;> rw [hf] at h
  · exact isWordOf_of_checked hw (fnCU 0x1D 0x0 [.field 14 7, .field 7 7, .field 0 7]) h (by simp +contextual [hm, hf]) rfl rfl rfl
  · exact isWordOf_of_checked hw (fnCU 0x1D 0x1 [.field 14 7, .field 7 7, .field 0 7]) h (by simp +contextual [hm, hf]) rfl rfl rfl
  · exact isWordOf_of_checked hw (fnCU 0x1D 0x2 [.field 14 7, .field 7 7, .field 0 7]) h (by simp +contextual [hm, hf]) rfl rfl rfl
  · exact isWordOf_of_checked hw (fnCU 0x1D 0x3 [.field 14 7, .field 7 7, .field 0 7]) h (by simp +contextual [hm, hf]) rfl rfl rfl
  · exact isWordOf_of_checked hw (fnCU 0x1D 0x4 [.field 14 7, .field 7 7, .field 0 7]) h (by simp +contextual [hm, hf]) rfl rfl rfl
  · exact isWordOf_of_checked hw (fnCU 0x1D 0x5 [.field 14 7, .field 7 7, .field 0 7]) h (by simp +contextual [hm, hf]) rfl rfl rfl
  · exact isWordOf_of_checked hw (fnCU 0x1D 0x6 [.field 14 7, .field 7 7, .field 0 7]) h (by simp +contextual [hm, hf]) rfl rfl rfl
  · exact isWordOf_of_checked hw (fnCU 0x1D 0x7 [.field 14 7, .field 7 7, .fixed 2 5 0, .field 0 2]) h (by simp +contextual [hm, hf]) rfl rfl rfl

theorem isWordOf_of_decodeMajor1E (hm : fieldNat w 24 6 = 0x1E) (h : decodeMajor1E w = .ok i) : IsWordOf w i := by
  rw [decodeMajor1E] at h
  obtain hf | hf | hf | hf | hf | hf | hf | hf := fn_cases w <;> rw [hf] at h
  · exact isWordOf_of_checked hw (fnCU 0x1E 0x0 [.field 14 7, .field 7 7, .field 0 7]) h (by simp +contextual [hm, hf]) rfl rfl rfl
  · exact isWordOf_of_checked hw (fnCU 0x1E 0x1 [.field 14 7, .field 7 7, .field 0 7]) h (by simp +contextual [hm, hf]) rfl rfl rfl
  · exact isWordOf_of_checked hw (fnCU 0x1E 0x2 [.field 14 7, .field 7 7, .field 0 7]) h (by simp +contextual [hm, hf]) rfl rfl rfl
  · exact isWordOf_of_checked hw (fnCU 0x1E 0x3 [.field 14 7, .field 7 7, .field 0 7]) h (by simp +contextual [hm, hf]) rfl rfl rfl
  · exact isWordOf_of_checked hw (fnCU 0x1E 0x4 [.field 14 7, .field 7 7, .field 0 7]) h (by simp +contextual [hm, hf]) rfl rfl rfl
  · exact isWordOf_of_checked hw (fnCU 0x1E 0x5 [.field 14 7, .field 7 7, .field 0 7]) h (by simp +contextual [hm, hf]) rfl rfl rfl
  · exact isWordOf_of_checked hw (fnCU 0x1E 0x6 [.field 14 7, .field 7 7, .field 0 7]) h (by simp +contextual [hm, hf]) rfl rfl rfl
  · exact isWordOf_of_checked hw (fnCU 0x1E 0x7 [.field 14 7, .field 7 7, .field 0 7]) h (by simp +contextual [hm, hf]) rfl rfl rfl

theorem isWordOf_of_decodeMajor20 (hm : fieldNat w 24 6 = 0x20) (hc : endsChain i = true → fieldNat w 31 1 = 0) (h : decodeMajor20 w = .ok i) : IsWordOf w i :=
  isWordOf_of_checked_end hw [.fixed 31 1 0, .bit 30, .fixed 24 6 0x20, .field 22 2, .field 20 2, .field 16 4, .field 12 4, .field 8 4, .field 4 4, .fixed 0 4 0]
      hc h (by simp +contextual [hm]) rfl rfl rfl rfl

theorem isWordOf_of_decodeMajor21 (hm : fieldNat w 24 6 = 0x21) (hc : endsChain i = true → fieldNat w 31 1 = 0) (h : decodeMajor21 w = .ok i) : IsWordOf w i :=
  isWordOf_of_checked_end hw [.fixed 31 1 0, .fixed 30 1 0, .fixed 24 6 0x21, .field 12 12, .field 0 12]
      hc h (by simp +contextual [hm]) rfl rfl rfl rfl

theorem isWordOf_of_decodeMajor22 (hm : fieldNat w 24 6 = 0x22) (hc : endsChain i = true → fieldNat w 31 1 = 0) (h : decodeMajor22 w = .ok i) : IsWordOf w i :=
  isWordOf_of_checked_end hw [.fixed 31 1 0, .bit 30, .fixed 24 6 0x22, .fixed 17 7 0, .field 0 17] hc h (by simp +contextual [hm]) rfl rfl rfl rfl

theorem isWordOf_of_decodeMajor23 (hm : fieldNat w 24 6 = 0x23) (hc : endsChain i = true → fieldNat w 31 1 = 0) (h : decodeMajor23 w = .ok i) : IsWordOf w i :=
  isWordOf_of_checked_end hw [.fixed 31 1 0, .bit 30, .fixed 24 6 0x23, .field 18 6, .fixed 17 1 0, .field 0 17]
      hc h (by simp +contextual [hm]) rfl rfl rfl rfl

theorem isWordOf_of_decodeMajor24 (hm : fieldNat w 24 6 = 0x24) (hc : endsChain i = true → fieldNat w 31 1 = 0) (h : decodeMajor24 w = .ok i) : IsWordOf w i := by
  rw [decodeMajor24] at h
  obtain hf | hf | hf | hf | hf | hf | hf | hf := fn_cases w <;> rw [hf] at h
  · exact isWordOf_of_checked_end hw [.fixed 31 1 0, .fixed 30 1 0, .fixed 24 6 0x24, .fixed 21 3 0x0, .fixed 14 7 0, .field 8 6, .fixed 7 1 0, .fixed 0 7 0]
      hc h (by simp +contextual [hm, hf]) rfl rfl rfl rfl
  · exact isWordOf_of_checked_end hw [.fixed 31 1 0, .fixed 30 1 0, .fixed 24 6 0x24, .fixed 21 3 0x1, .field 15 6, .fixed 14 1 0, .field 8 6, .fixed 7 1 0, .fixed 0 7 0]
      hc h (by simp +contextual [hm, hf]) rfl rfl rfl rfl
  · exact isWordOf_of_checked_end hw [.fixed 31 1 0, .fixed 30 1 0, .fixed 24 6 0x24, .fixed 21 3 0x2, .fixed 14 7 0, .field 8 6, .fixed 7 1 0, .fixed 0 7 0]
      hc h (by simp +contextual [hm, hf]) rfl rfl rfl rfl
  · exact isWordOf_of_checked_end hw [.fixed 31 1 0, .fixed 30 1 0, .fixed 24 6 0x24, .fixed 21 3 0x3, .fixed 0 21 0]
      hc h (by simp +contextual [hm, hf]) rfl rfl rfl rfl
  · exact isWordOf_of_checked hw (fnC 0x24 0x4 [.field 14 7, .field 8 6, .fixed 7 1 0, .field 0 7]) h (by simp +contextual [hm, hf]) rfl rfl rfl
  · exact isWordOf_of_checked hw (fnC 0x24 0x5 [.field 14 7, .field 8 6, .fixed 7 1 0, .field 0 7]) h (by simp +contextual [hm, hf]) rfl rfl rfl
  · exact isWordOf_of_checked hw (fnC 0x24 0x6 [.fixed 7 14 0, .field 0 7]) h (by simp +contextual [hm, hf]) rfl rfl rfl
  · exact isWordOf_of_checked hw (fnC 0x24 0x7 [.fixed 0 21 0]) h (by simp +contextual [hm, hf]) rfl rfl rfl

theorem isWordOf_of_decodeMajor25 (hm : fieldNat w 24 6 = 0x25) (h : decodeMajor25 w = .ok i) : IsWordOf w i := by
  rw [decodeMajor25] at h
  obtain hf | hf | hf | hf | hf | hf | hf | hf := fn_cases w <;> rw [hf] at h
  · exact isWordOf_of_checked hw (fnC 0x25 0x0 [.fixed 0 21 0]) h (by simp +contextual [hm, hf]) rfl rfl rfl
  · exact isWordOf_of_checked hw (fnC 0x25 0x1 [.fixed 14 7 0, .field 7 7, .fixed 0 7 0]) h (by simp +contextual [hm, hf]) rfl rfl rfl
  · exact isWordOf_of_checked hw (fnC 0x25 0x2 [.fixed 0 21 0]) h (by simp +contextual [hm, hf]) rfl rfl rfl
  · exact isWordOf_of_checked hw (fnC 0x25 0x3 [.fixed 0 21 0]) h (by simp +contextual [hm, hf]) rfl rfl rfl
  · exact isWordOf_of_checked hw (fnC 0x25 0x4 [.field 15 6, .fixed 14 1 0, .fixed 0 14 0]) h (by simp +contextual [hm, hf]) rfl rfl rfl
  · exact isWordOf_of_checked hw (fnC 0x25 0x5 [.fixed 14 7 0, .field 8 6, .fixed 7 1 0, .fixed 0 7 0]) h (by simp +contextual [hm, hf]) rfl rfl rfl
  · exact isWordOf_of_checked hw (fnC 0x25 0x6 [.fixed 0 21 0]) h (by simp +contextual [hm, hf]) rfl rfl rfl
  · exact nomatch h

theorem isWordOf_of_decodeMajor26 (hm : fieldNat w 24 6 = 0x26) (h : decodeMajor26 w = .ok i) : IsWordOf w i := by
  rw [decodeMajor26] at h
  obtain hf | hf | hf | hf | hf | hf | hf | hf := fn_cases w <;> rw [hf] at h
  · exact isWordOf_of_checked hw (fnC 0x26 0x0 [.field 14 7, .field 7 7, .fixed 4 3 0, .field 0 4]) h (by simp +contextual [hm, hf]) rfl rfl rfl
  · exact isWordOf_of_checked hw (fnC 0x26 0x1 [.field 14 7, .field 7 7, .fixed 4 3 0, .field 0 4]) h (by simp +contextual [hm, hf]) rfl rfl rfl
  · exact isWordOf_of_checked hw (fnC 0x26 0x2 [.field 14 7, .field 7 7, .fixed 4 3 0, .field 0 4]) h (by simp +contextual [hm, hf]) rfl rfl rfl
  · exact isWordOf_of_checked hw (fnC 0x26 0x3 [.field 14 7, .field 7 7, .fixed 4 3 0, .field 0 4]) h (by simp +contextual [hm, hf]) rfl rfl rfl
  · exact isWordOf_of_checked hw (fnC 0x26 0x4 [.fixed 17 4 0, .field 14 3, .fixed 11 3 0, .field 10 1, .field 7 3, .fixed 4 3 0, .field 0 4])
      h (by simp +contextual [hm, hf]) rfl rfl rfl
  · exact isWordOf_of_checked hw (fnC 0x26 0x5 [.fixed 17 4 0, .field 14 3, .fixed 11 3 0, .field 10 1, .field 7 3, .fixed 4 3 0, .field 0 4])
      h (by simp +contextual [hm, hf]) rfl rfl rfl
  · exact isWordOf_of_checked hw (fnC 0x26 0x6 [.field 14 7, .fixed 11 3 0, .field 10 1, .field 7 3, .fixed 4 3 0, .field 0 4])
      h (by simp +contextual [hm, hf]) rfl rfl rfl
  · exact isWordOf_of_checked hw (fnC 0x26 0x7 [.field 14 7, .field 7 7, .fixed 4 3 0, .field 0 4]) h (by simp +contextual [hm, hf]) rfl rfl rfl

theorem isWordOf_of_decodeMajor27 (hm : fieldNat w 24 6 = 0x27) (h : decodeMajor27 w = .ok i) : IsWordOf w i := by
  rw [decodeMajor27] at h
  obtain hf | hf | hf | hf | hf | hf | hf | hf := fn_cases w <;> rw [hf] at h
  · exact isWordOf_of_checked hw (fnC 0x27 0x0 [.field 14 7, .field 7 7, .fixed 4 3 0, .field 0 4]) h (by simp +contextual [hm, hf]) rfl rfl rfl
  · exact isWordOf_of_checked hw (fnC 0x27 0x1 [.field 14 7, .field 7 7, .fixed 4 3 0, .field 0 4]) h (by simp +contextual [hm, hf]) rfl rfl rfl
  · exact isWordOf_of_checked hw (fnC 0x27 0x2 [.field 14 7, .field 7 7, .fixed 4 3 0, .field 0 4]) h (by simp +contextual [hm, hf]) rfl rfl rfl
  · exact isWordOf_of_checked hw (fnC 0x27 0x3 [.field 14 7, .field 7 7, .fixed 4 3 0, .field 0 4]) h (by simp +contextual [hm, hf]) rfl rfl rfl
  · exact isWordOf_of_checked hw (fnC 0x27 0x4 [.field 14 7, .field 7 7, .fixed 4 3 0, .field 0 4]) h (by simp +contextual [hm, hf]) rfl rfl rfl
  · exact isWordOf_of_checked hw (fnC 0x27 0x5 [.field 14 7, .field 7 7, .fixed 4 3 0, .field 0 4]) h (by simp +contextual [hm, hf]) rfl rfl rfl
  · exact isWordOf_of_checked hw (fnC 0x27 0x6 [.field 14 7, .field 7 7, .fixed 4 3 0, .field 0 4]) h (by simp +contextual [hm, hf]) rfl rfl rfl
  · exact isWordOf_of_checked hw (fnC 0x27 0x7 [.field 14 7, .field 7 7, .fixed 4 3 0, .field 0 4]) h (by simp +contextual [hm, hf]) rfl rfl rfl

theorem isWordOf_of_decodeMajor29 (hm : fieldNat w 24 6 = 0x29) (h : decodeMajor29 w = .ok i) : IsWordOf w i := by
  unfold decodeMajor29 at h
  split at h <;> rename_i hf
  · exact isWordOf_of_checked hw (sysC 0x29 0x0 [.fixed 4 12 0, .field 0 4]) h (by simp +contextual [hm, hf]) rfl rfl rfl
  · exact isWordOf_of_checked hw (sysC 0x29 0x1 [.field 9 7, .fixed 4 5 0, .field 0 4]) h (by simp +contextual [hm, hf]) rfl rfl rfl
  · exact isWordOf_of_checked hw (sysC 0x29 0x2 [.field 9 7, .fixed 4 5 0, .field 0 4]) h (by simp +contextual [hm, hf]) rfl rfl rfl
  · exact isWordOf_of_checked hw (sysC 0x29 0x3 [.fixed 0 16 0]) h (by simp +contextual [hm, hf]) rfl rfl rfl
  · exact isWordOf_of_checked hw (sysC 0x29 0x4 [.fixed 0 16 0]) h (by simp +contextual [hm, hf]) rfl rfl rfl
  · exact isWordOf_of_checked hw (sysC 0x29 0x5 [.fixed 4 12 0, .field 0 4]) h (by simp +contextual [hm, hf]) rfl rfl rfl
  · exact isWordOf_of_checked hw (sysC 0x29 0x6 [.field 9 7, .fixed 4 5 0, .field 0 4]) h (by simp +contextual [hm, hf]) rfl rfl rfl
  · exact isWordOf_of_checked hw (sysC 0x29 0x7 [.field 9 7, .fixed 4 5 0, .field 0 4]) h (by simp +contextual [hm, hf]) rfl rfl rfl
  · exact nomatch h

theorem isWordOf_of_decodeMajor2A (hm : fieldNat w 24 6 = 0x2A) (h : decodeMajor2A w = .ok i) : IsWordOf w i := by
  rw [decodeMajor2A] at h
  obtain hf | hf | hf | hf | hf | hf | hf | hf := fn_cases w <;> rw [hf] at h
  · exact isWordOf_of_checked hw (fnC 0x2A 0x0 [.field 14 7, .field 8 6, .fixed 7 1 0, .field 0 7]) h (by simp +contextual [hm, hf]) rfl rfl rfl
  · exact isWordOf_of_checked hw (fnC 0x2A 0x1 [.field 14 7, .field 8 6, .fixed 7 1 0, .field 0 7]) h (by simp +contextual [hm, hf]) rfl rfl rfl
  · exact isWordOf_of_checked hw (fnC 0x2A 0x2 [.field 14 7, .field 8 6, .fixed 7 1 0, .field 0 7]) h (by simp +contextual [hm, hf]) rfl rfl rfl
  · exact isWordOf_of_checked hw (fnC 0x2A 0x3 [.field 14 7, .field 8 6, .fixed 7 1 0, .fixed 0 7 0]) h (by simp +contextual [hm, hf]) rfl rfl rfl
  · exact isWordOf_of_checked hw (fnC 0x2A 0x4 [.field 14 7, .fixed 0 14 0]) h (by simp +contextual [hm, hf]) rfl rfl rfl
  · exact isWordOf_of_checked hw (fnC 0x2A 0x5 [.fixed 14 7 0, .field 8 6, .fixed 7 1 0, .fixed 0 7 0]) h (by simp +contextual [hm, hf]) rfl rfl rfl
  · exact nomatch h
  · exact nomatch h

theorem isWordOf_of_decodeMajor2C (hm : fieldNat w 24 6 = 0x2C) (h : decodeMajor2C w = .ok i) : IsWordOf w i :=
  isWordOf_of_checked hw [.bit 31, .bit 30, .fixed 24 6 0x2C, .field 22 2, .field 19 3, .field 12 7, .field 6 6, .fixed 5 1 0, .field 0 5]
      h (by simp +contextual [hm]) rfl rfl rfl

theorem isWordOf_of_decodeMajor2D (hm : fieldNat w 24 6 = 0x2D) (h : decodeMajor2D w = .ok i) : IsWordOf w i :=
  isWordOf_of_checked hw [.bit 31, .bit 30, .fixed 24 6 0x2D, .field 22 2, .field 19 3, .field 12 7, .field 6 6, .fixed 5 1 0, .field 0 5]
      h (by simp +contextual [hm]) rfl rfl rfl

theorem isWordOf_of_decodeMajor2E (hm : fieldNat w 24 6 = 0x2E) (h : decodeMajor2E w = .ok i) : IsWordOf w i :=
  isWordOf_of_checked hw [.bit 31, .bit 30, .fixed 24 6 0x2E, .field 22 2, .field 19 3, .field 12 7, .field 5 7, .field 0 5]
      h (by simp +contextual [hm]) rfl rfl rfl

theorem isWordOf_of_decodeMajor2F (hm : fieldNat w 24 6 = 0x2F) (h : decodeMajor2F w = .ok i) : IsWordOf w i :=
  isWordOf_of_checked hw [.bit 31, .bit 30, .fixed 24 6 0x2F, .field 22 2, .field 19 3, .field 12 7, .field 5 7, .field 0 5]
      h (by simp +contextual [hm]) rfl rfl rfl

theorem isWordOf_of_decodeMajor30 (hm : fieldNat w 24 6 = 0x30) (h : decodeMajor30 w = .ok i) : IsWordOf w i :=
  isWordOf_of_checked hw [.bit 31, .bit 30, .fixed 24 6 0x30, .field 22 2, .field 19 3, .field 12 7, .field 6 6, .fixed 5 1 0, .field 0 5]
      h (by simp +contextual [hm]) rfl rfl rfl

theorem isWordOf_of_decodeMajor31 (hm : fieldNat w 24 6 = 0x31) (h : decodeMajor31 w = .ok i) : IsWordOf w i := by
  rw [decodeMajor31] at h
  obtain hf | hf | hf | hf | hf | hf | hf | hf := fn_cases w <;> rw [hf] at h
  · exact isWordOf_of_checked hw (fnCU 0x31 0x0 [.field 20 1, .field 18 2, .field 15 3, .field 10 5, .field 6 4, .fixed 5 1 0, .field 0 5])
      h (by simp +contextual [hm, hf]) rfl rfl rfl
  · exact isWordOf_of_checked hw (fnCU 0x31 0x1 [.field 20 1, .field 18 2, .field 15 3, .field 10 5, .field 6 4, .fixed 5 1 0, .field 0 5])
      h (by simp +contextual [hm, hf]) rfl rfl rfl
  · exact isWordOf_of_checked hw (fnCU 0x31 0x2 [.field 20 1, .field 18 2, .field 15 3, .field 10 5, .field 6 4, .fixed 5 1 0, .field 0 5])
      h (by simp +contextual [hm, hf]) rfl rfl rfl
  · exact isWordOf_of_checked hw (fnCU 0x31 0x3 [.field 20 1, .field 18 2, .field 15 3, .field 10 5, .field 6 4, .fixed 5 1 0, .field 0 5])
      h (by simp +contextual [hm, hf]) rfl rfl rfl
  · exact isWordOf_of_checked hw (fnCU 0x31 0x4 [.field 20 1, .field 18 2, .field 15 3, .field 10 5, .field 6 4, .fixed 5 1 0, .field 0 5])
      h (by simp +contextual [hm, hf]) rfl rfl rfl
  · exact isWordOf_of_checked hw (fnCU 0x31 0x5 [.field 20 1, .field 18 2, .field 15 3, .field 10 5, .field 6 4, .fixed 5 1 0, .field 0 5])
      h (by simp +contextual [hm, hf]) rfl rfl rfl
  · exact isWordOf_of_checked hw (fnCU 0x31 0x6 [.field 20 1, .field 18 2, .field 15 3, .field 10 5, .field 6 4, .fixed 5 1 0, .field 0 5])
      h (by simp +contextual [hm, hf]) rfl rfl rfl
  · exact isWordOf_of_checked hw (fnCU 0x31 0x7 [.field 20 1, .field 18 2, .field 15 3, .field 10 5, .field 6 4, .fixed 5 1 0, .field 0 5])
      h (by simp +contextual [hm, hf]) rfl rfl rfl

theorem isWordOf_of_decodeMajor32 (hm : fieldNat w 24 6 = 0x32) (h : decodeMajor32 w = .ok i) : IsWordOf w i := by
  rw [decodeMajor32] at h
  obtain hf | hf | hf | hf | hf | hf | hf | hf := fn_cases w <;> rw [hf] at h
  · exact isWordOf_of_checked hw (fnCU 0x32 0x0 [.field 20 1, .field 18 2, .field 15 3, .field 10 5, .field 6 4, .fixed 5 1 0, .field 0 5])
      h (by simp +contextual [hm, hf]) rfl rfl rfl
  · exact isWordOf_of_checked hw (fnCU 0x32 0x1 [.field 20 1, .field 18 2, .field 15 3, .field 10 5, .field 6 4, .fixed 5 1 0, .field 0 5])
      h (by simp +contextual [hm, hf]) rfl rfl rfl
  · exact isWordOf_of_checked hw (fnCU 0x32 0x2 [.field 20 1, .field 18 2, .field 15 3, .field 10 5, .field 6 4, .fixed 5 1 0, .field 0 5])
      h (by simp +contextual [hm, hf]) rfl rfl rfl
  · exact isWordOf_of_checked hw (fnCU 0x32 0x3 [.field 20 1, .field 18 2, .field 15 3, .field 10 5, .field 6 4, .fixed 5 1 0, .field 0 5])
      h (by simp +contextual [hm, hf]) rfl rfl rfl
  · exact isWordOf_of_checked hw (fnCU 0x32 0x4 [.fixed 20 1 0, .field 18 2, .field 15 3, .field 10 5, .field 6 4, .fixed 5 1 0, .field 0 5])
      h (by simp +contextual [hm, hf]) rfl rfl rfl
  · exact isWordOf_of_checked hw (fnCU 0x32 0x5 [.fixed 20 1 0, .field 18 2, .field 15 3, .field 10 5, .field 6 4, .fixed 5 1 0, .field 0 5])
      h (by simp +contextual [hm, hf]) rfl rfl rfl
  · exact isWordOf_of_checked hw (fnCU 0x32 0x6 [.fixed 20 1 0, .field 18 2, .field 15 3, .field 10 5, .field 6 4, .fixed 5 1 0, .field 0 5])
      h (by simp +contextual [hm, hf]) rfl rfl rfl
  · exact nomatch h

theorem isWordOf_of_decodeMajor33 (hm : fieldNat w 24 6 = 0x33) (h : decodeMajor33 w = .ok i) : IsWordOf w i := by
  rw [decodeMajor33] at h
  obtain hf | hf | hf | hf | hf | hf | hf | hf := fn_cases w <;> rw [hf] at h
  · exact isWordOf_of_checked hw (fnCU 0x33 0x0 [.field 20 1, .fixed 18 2 1, .field 15 3, .field 10 5, .field 6 4, .fixed 5 1 0, .fixed 0 5 0])
      h (by simp +contextual [hm, hf]) rfl rfl rfl
  · exact isWordOf_of_checked hw (fnCU 0x33 0x1 [.field 20 1, .fixed 18 2 2, .field 15 3, .fixed 10 5 0, .field 6 4, .fixed 5 1 0, .field 0 5])
      h (by simp +contextual [hm, hf]) rfl rfl rfl
  · exact isWordOf_of_checked hw (fnCU 0x33 0x2 [.fixed 20 1 0, .field 18 2, .field 15 3, .fixed 0 15 0]) h (by simp +contextual [hm, hf]) rfl rfl rfl
  · exact isWordOf_of_checked hw (fnCU 0x33 0x3 [.fixed 20 1 0, .fixed 18 2 3, .field 15 3, .fixed 0 15 0])
      h (by simp +contextual [hm, hf]) rfl rfl rfl
  · exact isWordOf_of_checked hw (fnCU 0x33 0x4 [.field 20 1, .fixed 18 2 1, .field 15 3, .field 10 5, .field 6 4, .fixed 5 1 0, .fixed 0 5 0])
      h (by simp +contextual [hm, hf]) rfl rfl rfl
  · exact isWordOf_of_checked hw (fnCU 0x33 0x5 [.field 20 1, .field 18 2, .field 15 3, .field 10 5, .field 6 4, .fixed 5 1 0, .field 0 5])
      h (by simp +contextual [hm, hf]) rfl rfl rfl
  · exact nomatch h
  · exact nomatch h

theorem isWordOf_of_decodeMajor34 (hm : fieldNat w 24 6 = 0x34) (h : decodeMajor34 w = .ok i) : IsWordOf w i := by
  rw [decodeMajor34] at h
  obtain hf | hf | hf | hf | hf | hf | hf | hf := fn_cases w <;> rw [hf] at h
  · exact isWordOf_of_checked hw (fnCU 0x34 0x0 [.fixed 14 7 0, .field 8 6, .fixed 7 1 0, .fixed 2 5 0, .field 0 2])
      h (by simp +contextual [hm, hf]) rfl rfl rfl
  · exact isWordOf_of_checked hw (fnCU 0x34 0x1 [.fixed 14 7 0, .field 8 6, .fixed 7 1 0, .fixed 0 7 0]) h (by simp +contextual [hm, hf]) rfl rfl rfl
  · exact isWordOf_of_checked hw (fnCU 0x34 0x2 [.fixed 14 7 0, .field 8 6, .fixed 7 1 0, .fixed 0 7 0]) h (by simp +contextual [hm, hf]) rfl rfl rfl
  · exact isWordOf_of_checked hw (fnCU 0x34 0x3 [.fixed 14 7 0, .field 8 6, .fixed 7 1 0, .field 0 7]) h (by simp +contextual [hm, hf]) rfl rfl rfl
  · exact isWordOf_of_checked hw (fnCU 0x34 0x4 [.fixed 0 21 0]) h (by simp +contextual [hm, hf]) rfl rfl rfl
  · exact isWordOf_of_checked hw (fnCU 0x34 0x5 [.fixed 0 21 0]) h (by simp +contextual [hm, hf]) rfl rfl rfl
  · exact nomatch h
  · exact nomatch h

theorem isWordOf_of_decodeMajor36 (hm : fieldNat w 24 6 = 0x36) (h : decodeMajor36 w = .ok i) : IsWordOf w i := by
  unfold decodeMajor36 at h
  split at h <;> rename_i hf
  · exact isWordOf_of_checked hw [.bit 31, .fixed 30 1 0, .fixed 24 6 0x36, .fixed 22 2 0x0, .field 20 2, .field 13 7, .field 7 6, .fixed 6 1 0, .fixed 0 6 0]
      h (by simp +contextual [hm, hf]) rfl rfl rfl
  · exact isWordOf_of_checked hw [.bit 31, .fixed 30 1 0, .fixed 24 6 0x36, .fixed 22 2 0x1, .field 20 2, .field 14 6, .fixed 13 1 0, .field 6 7, .fixed 0 6 0]
      h (by simp +contextual [hm, hf]) rfl rfl rfl
  · exact isWordOf_of_checked hw [.bit 31, .fixed 30 1 0, .fixed 24 6 0x36, .fixed 22 2 0x2, .field 20 2, .field 14 6, .fixed 13 1 0, .field 7 6, .fixed 6 1 0, .fixed 0 6 0]
      h (by simp +contextual [hm, hf]) rfl rfl rfl
  · exact isWordOf_of_checked hw [.bit 31, .fixed 30 1 0, .fixed 24 6 0x36, .fixed 22 2 0x3, .field 20 2, .field 13 7, .field 6 7, .fixed 0 6 0]
      h (by simp +contextual [hm, hf]) rfl rfl rfl
  · exact nomatch h

theorem isWordOf_of_decodeMajor37 (hm : fieldNat w 24 6 = 0x37) (h : decodeMajor37 w = .ok i) : IsWordOf w i := by
  rw [decodeMajor37] at h
  obtain hf | hf | hf | hf | hf | hf | hf | hf := fn_cases w <;> rw [hf] at h
  · exact isWordOf_of_checked hw (fnC 0x37 0x0 [.fixed 14 7 0, .field 7 7, .field 0 7]) h (by simp +contextual [hm, hf]) rfl rfl rfl
  · exact isWordOf_of_checked hw (fnC 0x37 0x1 [.field 14 7, .fixed 3 11 0, .field 0 3]) h (by simp +contextual [hm, hf]) rfl rfl rfl
  · exact isWordOf_of_checked hw (fnC 0x37 0x2 [.fixed 17 4 0, .field 14 3, .field 7 7, .fixed 0 7 0]) h (by simp +contextual [hm, hf]) rfl rfl rfl
  · exact isWordOf_of_checked hw (fnC 0x37 0x3 [.fixed 14 7 0, .field 7 7, .fixed 0 7 0]) h (by simp +contextual [hm, hf]) rfl rfl rfl
  · exact isWordOf_of_checked hw (fnC 0x37 0x4 [.fixed 14 7 0, .field 7 7, .fixed 0 7 0]) h (by simp +contextual [hm, hf]) rfl rfl rfl
  · exact isWordOf_of_checked hw (fnC 0x37 0x5 [.field 14 7, .fixed 0 14 0]) h (by simp +contextual [hm, hf]) rfl rfl rfl
  · exact nomatch h
  · exact nomatch h

theorem isWordOf_of_decodeMajor38 (hm : fieldNat w 24 6 = 0x38) (h : decodeMajor38 w = .ok i) : IsWordOf w i :=
  isWordOf_of_checked hw [.bit 31, .fixed 30 1 0, .fixed 24 6 0x38, .field 18 6, .field 12 6, .field 6 6, .field 0 6]
      h (by simp +contextual [hm]) rfl rfl rfl

theorem isWordOf_of_decodeMajor39 (hm : fieldNat w 24 6 = 0x39) (h : decodeMajor39 w = .ok i) : IsWordOf w i := by
  rw [decodeMajor39] at h
  obtain hf | hf | hf | hf | hf | hf | hf | hf := fn_cases w <;> rw [hf] at h
  · exact isWordOf_of_checked hw (fnC 0x39 0x0 [.field 14 7, .field 7 7, .fixed 0 7 0]) h (by simp +contextual [hm, hf]) rfl rfl rfl
  · exact isWordOf_of_checked hw (fnC 0x39 0x1 [.field 14 7, .field 10 4, .fixed 7 3 0, .fixed 1 6 0, .field 0 1])
      h (by simp +contextual [hm, hf]) rfl rfl rfl
  · exact isWordOf_of_checked hw (fnC 0x39 0x2 [.fixed 0 21 0]) h (by simp +contextual [hm, hf]) rfl rfl rfl
  · exact isWordOf_of_checked hw (fnC 0x39 0x3 [.fixed 0 21 0]) h (by simp +contextual [hm, hf]) rfl rfl rfl
  · exact isWordOf_of_checked hw (fnC 0x39 0x4 [.fixed 14 7 0, .field 7 7, .fixed 1 6 0, .field 0 1]) h (by simp +contextual [hm, hf]) rfl rfl rfl
  · exact isWordOf_of_checked hw (fnC 0x39 0x5 [.fixed 14 7 0, .field 7 7, .fixed 1 6 0, .field 0 1]) h (by simp +contextual [hm, hf]) rfl rfl rfl
  · exact isWordOf_of_checked hw (fnC 0x39 0x6 [.fixed 14 7 0, .field 7 7, .fixed 0 7 0]) h (by simp +contextual [hm, hf]) rfl rfl rfl
  · exact nomatch h

theorem isWordOf_of_decodeMajor3A (hm : fieldNat w 24 6 = 0x3A) (h : decodeMajor3A w = .ok i) : IsWordOf w i := by
  rw [decodeMajor3A] at h
  obtain hf | hf | hf | hf | hf | hf | hf | hf := fn_cases w <;> rw [hf] at h
  · exact isWordOf_of_checked hw (fnC 0x3A 0x0 [.fixed 15 6 0, .field 14 1, .field 7 7, .field 1 6, .fixed 0 1 0])
      h (by simp +contextual [hm, hf]) rfl rfl rfl
  · exact isWordOf_of_checked hw (fnC 0x3A 0x1 [.fixed 14 7 0, .field 7 7, .field 1 6, .fixed 0 1 0]) h (by simp +contextual [hm, hf]) rfl rfl rfl
  · exact isWordOf_of_checked hw (fnC 0x3A 0x2 [.field 14 7, .field 7 7, .fixed 5 2 0, .field 0 5]) h (by simp +contextual [hm, hf]) rfl rfl rfl
  · exact isWordOf_of_checked hw (fnC 0x3A 0x3 [.field 14 7, .field 7 7, .fixed 5 2 0, .field 0 5]) h (by simp +contextual [hm, hf]) rfl rfl rfl
  · exact isWordOf_of_checked hw (fnC 0x3A 0x4 [.fixed 14 7 0, .field 7 7, .field 0 7]) h (by simp +contextual [hm, hf]) rfl rfl rfl
  · exact isWordOf_of_checked hw (fnC 0x3A 0x5 [.fixed 14 7 0, .field 7 7, .fixed 0 7 0]) h (by simp +contextual [hm, hf]) rfl rfl rfl
  · exact isWordOf_of_checked hw (fnC 0x3A 0x6 [.fixed 14 7 0, .field 7 7, .fixed 0 7 0]) h (by simp +contextual [hm, hf]) rfl rfl rfl
  · exact nomatch h

theorem isWordOf_of_decodeMajor3B (hm : fieldNat w 24 6 = 0x3B) (h : decodeMajor3B w = .ok i) : IsWordOf w i := by
  rw [decodeMajor3B] at h
  obtain hf | hf | hf | hf | hf | hf | hf | hf := fn_cases w <;> rw [hf] at h
  · exact isWordOf_of_checked hw (fnC 0x3B 0x0 [.field 17 4, .fixed 14 3 0, .field 7 7, .fixed 3 4 0, .field 0 3])
      h (by simp +contextual [hm, hf]) rfl rfl rfl
  · exact isWordOf_of_checked hw (fnC 0x3B 0x1 [.field 17 4, .fixed 14 3 0, .field 7 7, .fixed 0 7 0]) h (by simp +contextual [hm, hf]) rfl rfl rfl
  · exact isWordOf_of_checked hw (fnC 0x3B 0x2 [.field 17 4, .fixed 14 3 0, .field 7 7, .field 6 1, .field 5 1, .field 3 2, .field 0 3])
      h (by simp +contextual [hm, hf]) rfl rfl rfl
  · exact isWordOf_of_checked hw (fnC 0x3B 0x3 [.field 17 4, .fixed 14 3 0, .fixed 3 11 0, .field 0 3]) h (by simp +contextual [hm, hf]) rfl rfl rfl
  · exact isWordOf_of_checked hw (fnC 0x3B 0x4 [.field 17 4, .fixed 14 3 0, .field 10 4, .fixed 7 3 0, .fixed 4 3 0, .field 0 4])
      h (by simp +contextual [hm, hf]) rfl rfl rfl
  · exact nomatch h
  · exact nomatch h
  · exact nomatch h

theorem isWordOf_of_decodeMajor3C (hm : fieldNat w 24 6 = 0x3C) (h : decodeMajor3C w = .ok i) : IsWordOf w i := by
  rw [decodeMajor3C] at h
  obtain hf | hf | hf | hf | hf | hf | hf | hf := fn_cases w <;> rw [hf] at h
  · exact isWordOf_of_checked hw (fnC 0x3C 0x0 [.fixed 16 5 0, .field 14 2, .field 7 7, .fixed 0 7 0]) h (by simp +contextual [hm, hf]) rfl rfl rfl
  · exact isWordOf_of_checked hw (fnC 0x3C 0x1 [.fixed 20 1 0, .field 18 2, .field 16 2, .field 14 2, .field 8 6, .fixed 7 1 0, .field 2 5, .fixed 0 2 0])
      h (by simp +contextual [hm, hf]) rfl rfl rfl
  · exact isWordOf_of_checked hw (fnC 0x3C 0x2 [.fixed 4 17 0, .field 0 4]) h (by simp +contextual [hm, hf]) rfl rfl rfl
  · exact isWordOf_of_checked hw (fnC 0x3C 0x3 [.fixed 0 21 0]) h (by simp +contextual [hm, hf]) rfl rfl rfl
  · exact isWordOf_of_checked hw (fnC 0x3C 0x4 [.field 14 7, .fixed 2 12 0, .field 0 2]) h (by simp +contextual [hm, hf]) rfl rfl rfl
  · exact isWordOf_of_checked hw (fnC 0x3C 0x5 [.field 14 7, .fixed 2 12 0, .field 0 2]) h (by simp +contextual [hm, hf]) rfl rfl rfl
  · exact isWordOf_of_checked hw (fnC 0x3C 0x6 [.field 14 7, .fixed 2 12 0, .field 0 2]) h (by simp +contextual [hm, hf]) rfl rfl rfl
  · exact isWordOf_of_checked hw (fnC 0x3C 0x7 [.field 14 7, .fixed 0 14 0]) h (by simp +contextual [hm, hf]) rfl rfl rfl

theorem isWordOf_of_decodeMajor3D (hm : fieldNat w 24 6 = 0x3D) (h : decodeMajor3D w = .ok i) : IsWordOf w i := by
  rw [decodeMajor3D] at h
  obtain hf | hf | hf | hf | hf | hf | hf | hf := fn_cases w <;> rw [hf] at h
  · exact isWordOf_of_checked hw (fnC 0x3D 0x0 [.field 14 7, .field 8 6, .fixed 7 1 0, .field 1 6, .fixed 0 1 0])
      h (by simp +contextual [hm, hf]) rfl rfl rfl
  · exact isWordOf_of_checked hw (fnC 0x3D 0x1 [.field 14 7, .field 8 6, .fixed 7 1 0, .field 1 6, .fixed 0 1 0])
      h (by simp +contextual [hm, hf]) rfl rfl rfl
  · exact isWordOf_of_checked hw (fnC 0x3D 0x2 [.field 15 6, .fixed 14 1 0, .field 8 6, .fixed 7 1 0, .fixed 0 7 0])
      h (by simp +contextual [hm, hf]) rfl rfl rfl
  · exact isWordOf_of_checked hw (fnC 0x3D 0x3 [.field 14 7, .field 8 6, .fixed 7 1 0, .fixed 0 7 0]) h (by simp +contextual [hm, hf]) rfl rfl rfl
  · exact nomatch h
  · exact nomatch h
  · exact nomatch h
  · exact nomatch h

theorem isWordOf_of_decodeMajor3E (hm : fieldNat w 24 6 = 0x3E) (h : decodeMajor3E w = .ok i) : IsWordOf w i := by
  unfold decodeMajor3E at h
  split at h <;> rename_i hf
  · exact isWordOf_of_checked hw (sysC 0x3E 0x0 [.field 9 7, .field 0 9]) h (by simp +contextual [hm, hf]) rfl rfl rfl
  · exact isWordOf_of_checked hw (sysC 0x3E 0x1 [.field 9 7, .field 0 9]) h (by simp +contextual [hm, hf]) rfl rfl rfl
  · exact isWordOf_of_checked hw (sysC 0x3E 0x2 [.fixed 0 16 0]) h (by simp +contextual [hm, hf]) rfl rfl rfl
  · exact isWordOf_of_checked hw (sysC 0x3E 0x3 [.field 9 7, .field 0 9]) h (by simp +contextual [hm, hf]) rfl rfl rfl
  · exact isWordOf_of_checked hw (sysC 0x3E 0x10 [.field 9 7, .fixed 0 9 0]) h (by simp +contextual [hm, hf]) rfl rfl rfl
  · exact isWordOf_of_checked hw (sysC 0x3E 0x11 [.field 9 7, .fixed 0 9 0]) h (by simp +contextual [hm, hf]) rfl rfl rfl
  · exact isWordOf_of_checked hw (sysC 0x3E 0x12 [.field 10 6, .fixed 9 1 0, .fixed 1 8 0, .field 0 1]) h (by simp +contextual [hm, hf]) rfl rfl rfl
  · exact isWordOf_of_checked hw (sysC 0x3E 0x13 [.field 11 5, .fixed 9 2 0, .field 0 9]) h (by simp +contextual [hm, hf]) rfl rfl rfl
  · exact isWordOf_of_checked hw (sysC 0x3E 0x14 [.field 9 7, .fixed 1 8 0, .field 0 1]) h (by simp +contextual [hm, hf]) rfl rfl rfl
  · exact isWordOf_of_checked hw (sysC 0x3E 0x15 [.field 10 6, .fixed 9 1 0, .fixed 0 9 0]) h (by simp +contextual [hm, hf]) rfl rfl rfl
  · exact isWordOf_of_checked hw (sysC 0x3E 0x20 [.field 10 6, .fixed 9 1 0, .fixed 4 5 0, .field 0 4]) h (by simp +contextual [hm, hf]) rfl rfl rfl
  · exact isWordOf_of_checked hw (sysC 0x3E 0x21 [.fixed 9 7 0, .fixed 4 5 0, .field 0 4]) h (by simp +contextual [hm, hf]) rfl rfl rfl
  · exact isWordOf_of_checked hw (sysC 0x3E 0x22 [.fixed 9 7 0, .fixed 4 5 0, .field 0 4]) h (by simp +contextual [hm, hf]) rfl rfl rfl
  · exact isWordOf_of_checked hw (sysC 0x3E 0x23 [.field 9 7, .fixed 4 5 0, .field 0 4]) h (by simp +contextual [hm, hf]) rfl rfl rfl
  · exact isWordOf_of_checked hw (sysC 0x3E 0x30 [.field 9 7, .fixed 3 6 0, .field 0 3]) h (by simp +contextual [hm, hf]) rfl rfl rfl
  · exact isWordOf_of_checked hw (sysC 0x3E 0x31 [.field 9 7, .fixed 0 9 0]) h (by simp +contextual [hm, hf]) rfl rfl rfl
  · exact isWordOf_of_checked hw (sysC 0x3E 0x32 [.field 9 7, .fixed 0 9 0]) h (by simp +contextual [hm, hf]) rfl rfl rfl
  · exact isWordOf_of_checked hw (sysC 0x3E 0x40 [.field 10 6, .fixed 9 1 0, .fixed 5 4 0, .field 0 5]) h (by simp +contextual [hm, hf]) rfl rfl rfl
  · exact isWordOf_of_checked hw (sysC 0x3E 0x41 [.field 10 6, .fixed 9 1 0, .fixed 1 8 0, .field 0 1]) h (by simp +contextual [hm, hf]) rfl rfl rfl
  · exact isWordOf_of_checked hw (sysC 0x3E 0x42 [.fixed 0 16 0]) h (by simp +contextual [hm, hf]) rfl rfl rfl
  · exact nomatch h

/-- Every word that decodes. -/
theorem isWordOf_of_decodeCore (hc : endsChain i = true → fieldNat w 31 1 = 0) (h : decodeCore w = .ok i) : IsWordOf w i := by
  unfold decodeCore at h
  split at h <;> rename_i hm
  · exact isWordOf_of_decodeMajor01 hw hm h
  · exact isWordOf_of_decodeMajor02 hw hm h
  · exact isWordOf_of_decodeMajor03 hw hm h
  · exact isWordOf_of_decodeMajor04 hw hm h
  · exact isWordOf_of_decodeMajor05 hw hm h
  · exact isWordOf_of_decodeMajor06 hw hm h
  · exact isWordOf_of_decodeMajor08 hw hm h
  · exact isWordOf_of_decodeMajor09 hw hm h
  · exact isWordOf_of_decodeMajor0A hw hm h
  · exact isWordOf_of_decodeMajor0B hw hm h
  · exact isWordOf_of_decodeMajor0C hw hm h
  · exact isWordOf_of_decodeMajor0D hw hm h
  · exact isWordOf_of_decodeMajor0E hw hm h
  · exact isWordOf_of_decodeMajor10 hw hm h
  · exact isWordOf_of_decodeMajor11 hw hm h
  · exact isWordOf_of_decodeMajor12 hw hm h
  · exact isWordOf_of_decodeMajor13 hw hm h
  · exact isWordOf_of_decodeMajor14 hw hm h
  · exact isWordOf_of_decodeMajor15 hw hm h
  · exact isWordOf_of_decodeMajor16 hw hm h
  · exact isWordOf_of_decodeMajor17 hw hm h
  · exact isWordOf_of_decodeMajor18 hw hm h
  · exact isWordOf_of_decodeMajor19 hw hm h
  · exact isWordOf_of_decodeMajor1A hw hm h
  · exact isWordOf_of_decodeMajor1B hw hm h
  · exact isWordOf_of_decodeMajor1C hw hm h
  · exact isWordOf_of_decodeMajor1D hw hm h
  · exact isWordOf_of_decodeMajor1E hw hm h
  · exact isWordOf_of_decodeMajor20 hw hm hc h
  · exact isWordOf_of_decodeMajor21 hw hm hc h
  · exact isWordOf_of_decodeMajor22 hw hm hc h
  · exact isWordOf_of_decodeMajor23 hw hm hc h
  · exact isWordOf_of_decodeMajor24 hw hm hc h
  · exact isWordOf_of_decodeMajor25 hw hm h
  · exact isWordOf_of_decodeMajor26 hw hm h
  · exact isWordOf_of_decodeMajor27 hw hm h
  · exact isWordOf_of_decodeMajor29 hw hm h
  · exact isWordOf_of_decodeMajor2A hw hm h
  · exact isWordOf_of_decodeMajor2C hw hm h
  · exact isWordOf_of_decodeMajor2D hw hm h
  · exact isWordOf_of_decodeMajor2E hw hm h
  · exact isWordOf_of_decodeMajor2F hw hm h
  · exact isWordOf_of_decodeMajor30 hw hm h
  · exact isWordOf_of_decodeMajor31 hw hm h
  · exact isWordOf_of_decodeMajor32 hw hm h
  · exact isWordOf_of_decodeMajor33 hw hm h
  · exact isWordOf_of_decodeMajor34 hw hm h
  · exact isWordOf_of_decodeMajor36 hw hm h
  · exact isWordOf_of_decodeMajor37 hw hm h
  · exact isWordOf_of_decodeMajor38 hw hm h
  · exact isWordOf_of_decodeMajor39 hw hm h
  · exact isWordOf_of_decodeMajor3A hw hm h
  · exact isWordOf_of_decodeMajor3B hw hm h
  · exact isWordOf_of_decodeMajor3C hw hm h
  · exact isWordOf_of_decodeMajor3D hw hm h
  · exact isWordOf_of_decodeMajor3E hw hm h
  · exact nomatch h

end

/-- A word that decodes is the word of its instruction: the refusal of a terminator with C = 1 leaves the bit clear. -/
theorem isWordOf_of_decodeWord {w : Word} {i : Instr} (h : decodeWord w = .ok i) : IsWordOf w.toNat i := by
  refine isWordOf_of_decodeCore w.isLt (fun hend => ?_) (decodeCore_of_decodeWord h)
  rw [← bitAt_eq_false]
  by_contra hbit
  simp only [decodeWord, decodeCore_of_decodeWord h, hend, Bool.eq_true_of_not_eq_false hbit, Bool.and_self, if_true] at h
  split at h <;> exact nomatch h

/-- A word encodes an instruction it is the word of. -/
theorem IsWordOf.encode_eq {w : Word} {i : Instr} (h : IsWordOf w.toNat i) : encode i = some w := by
  obtain ⟨hwf, hword⟩ := h
  rw [encode, if_pos (hasWord_of_wellFormed hwf), hword, BitVec.ofNat_toNat, BitVec.setWidth_eq]

/-- Settles O1: the word of each row decodes to the row's instruction (`Laws.roundTrip`). -/
theorem wordRoundTrip : Obligations.WordRoundTrip := fun i hwf =>
  ⟨BitVec.ofNat 32 (encodeNat i), if_pos (hasWord_of_wellFormed hwf), Laws.roundTrip i hwf⟩

/-- Settles O2: the parts of each row's layout make up the whole word. -/
theorem decodedWordsEncode : Obligations.DecodedWordsEncode := fun _ _ h =>
  have hword := isWordOf_of_decodeWord h
  ⟨hword.1, hword.encode_eq⟩

end Sys2Proof
end

section
/-! The checks of every word at issue (O46): what each check finds in a thread, and a word that fails in every undecided thread. -/

namespace Sys2Proof.Machine

/-- A word whose checks find something in every undecided thread has no effect. -/
theorem IsWord.fails {i : Instr} (hi : IsWord i) {s : State} {iss : Issue} {v : Nat → Verdict} (hs : s.issue = some iss)
    (h : ∀ k check, k.info = opInfo i → (∀ e t, k.lead e t = wordLead e t i) → (∀ e t, k.held e t = blocked e t i) →
      ∀ t ∈ iss.members, iss.Undecided t → wordVerdict k check s.before t iss.slot = some (v t)) :
    exec i s = .next (ended (opInfo i).c (failed s iss v)) := by
  obtain ⟨k, hinfo, hlead, hheld, ⟨check, act, he⟩ | ⟨check, act, f, he⟩⟩ := hi
  · rw [he, ← hinfo]
    exact runKind_failed hs (h k check hinfo hlead hheld)
  · rw [he, ← hinfo]
    exact runKindJump_failed hs (h k check hinfo hlead hheld)

section
variable {k : WordKind} {check : Check} {e : State} {t slot : Nat}

theorem wordVerdict_of_not_ready (h : ¬ readyWith e t (k.lead e t) k.info (k.held e t) = true) : wordVerdict k check e t slot = some .notReady :=
  if_pos (by rw [Bool.eq_false_of_not_eq_true h]; rfl)

theorem wordVerdict_of_issueCheck {v : Verdict} (h : readyWith e t (k.lead e t) k.info (k.held e t) = true)
    (hv : issueCheck e.now (k.lead e t) slot k.info = some v) : wordVerdict k check e t slot = some v := by
  simp only [wordVerdict, h, hv, Bool.not_true, Bool.false_eq_true, if_false, Option.orElse_some]

end

section
variable {i : Instr} (hi : IsWord i) {s : State} {iss : Issue} (hs : s.issue = some iss)
include hi hs

/-- A word that is ready in no undecided thread does not issue (07 R134). -/
theorem IsWord.fails_not_ready (h : ∀ t ∈ iss.members, iss.Undecided t →
      ¬ readyWith s.before t (wordLead s.before t i) (opInfo i) (blocked s.before t i) = true) :
    exec i s = .next (ended (opInfo i).c (failed s iss (fun _ => .notReady))) :=
  hi.fails hs fun k check hinfo hlead hheld t ht hu => wordVerdict_of_not_ready (by rw [hinfo, hlead, hheld]; exact h t ht hu)

/-- A word that the checks at issue refuse in every undecided thread. -/
theorem IsWord.fails_issueCheck {v : Nat → Verdict} (h : ∀ t ∈ iss.members, iss.Undecided t →
      readyWith s.before t (wordLead s.before t i) (opInfo i) (blocked s.before t i) = true ∧
      issueCheck s.before.now (wordLead s.before t i) iss.slot (opInfo i) = some (v t)) :
    exec i s = .next (ended (opInfo i).c (failed s iss v)) :=
  hi.fails hs fun k check hinfo hlead hheld t ht hu =>
    wordVerdict_of_issueCheck (by rw [hinfo, hlead, hheld]; exact (h t ht hu).1) (by rw [hinfo, hlead]; exact (h t ht hu).2)

end

section
variable {c : Chip} {l slot : Nat} {o : OpInfo}

/-- The level is checked first (19 R434). -/
theorem issueCheck_of_level (h : ¬ o.least ≤ (c.thread l).level.code) :
    issueCheck c l slot o = some (trapAt slot causePrivilege o.privSub (BitVec.ofNat 32 o.privInfo) 0) :=
  if_pos (Nat.not_le.mp h)

theorem any_out_of_range_iff (n : Nat) : (o.srcs.any (fun s => decide (n ≤ s.reg)) || o.dests.any (fun d => decide (n ≤ d))) = true ↔
    ¬ ((∀ x ∈ o.srcs, x.reg < n) ∧ ∀ d ∈ o.dests, d < n) := by
  simp only [Bool.or_eq_true, List.any_eq_true, decide_eq_true_eq, not_and_or, not_forall, Nat.not_lt, exists_prop]

/-- The registers are checked next (05 R91). -/
theorem issueCheck_of_range (h : o.least ≤ (c.thread l).level.code)
    (hr : ¬ ((∀ x ∈ o.srcs, x.reg < (c.team (c.teamOf l)).regs) ∧ ∀ d ∈ o.dests, d < (c.team (c.teamOf l)).regs)) :
    issueCheck c l slot o = some (trapAt slot causeRange 0 0 0) :=
  (if_neg (Nat.not_lt.mpr h)).trans (if_pos ((any_out_of_range_iff _).mpr hr))

/-- The first source of the lowest subcode is the one found (04 R86). -/
theorem findSome?_code {bad : List Src} {x : Src} (hx : 1 ≤ x.code ∧ x.code ≤ 5)
    (hf : bad.find? (fun y => decide (y.code = x.code)) = some x) (hlow : ∀ y ∈ bad, x.code ≤ y.code) :
    [1, 2, 3, 4, 5].findSome? (fun k => bad.find? (fun y => decide (y.code = k))) = some x := by
  have hnone (k : Nat) (hk : k < x.code) : bad.find? (fun y => decide (y.code = k)) = none := by
    simp only [List.find?_eq_none, decide_eq_true_eq]
    exact fun y hy he => absurd (hlow y hy) (by omega)
  rw [List.findSome?_eq_some_iff]
  have hsplit : [1, 2, 3, 4, 5] = List.range' 1 (x.code - 1) ++ x.code :: List.range' (x.code + 1) (5 - x.code) := by
    obtain ⟨h1, h5⟩ := hx
    generalize x.code = n at h1 h5
    interval_cases n <;> rfl
  refine ⟨_, _, _, hsplit, hf, fun k hk => hnone k ?_⟩
  have := List.mem_range'_1.mp hk
  omega

/-- The tags are checked last (04 R84 to R86). -/
theorem issueCheck_of_format {x : Src} (h : o.least ≤ (c.thread l).level.code)
    (hr : (∀ x ∈ o.srcs, x.reg < (c.team (c.teamOf l)).regs) ∧ ∀ d ∈ o.dests, d < (c.team (c.teamOf l)).regs)
    (hx : 1 ≤ x.code ∧ x.code ≤ 5)
    (hf : (o.srcs.filter (fun y => y.read c l && !y.tagOk c l)).find? (fun y => decide (y.code = x.code)) = some x)
    (hlow : ∀ y ∈ o.srcs.filter (fun y => y.read c l && !y.tagOk c l), x.code ≤ y.code) :
    issueCheck c l slot o = some (trapAt slot causeFormat x.code
      (BitVec.ofNat 32 ((c.reg l x.reg).tag.toNat + 16 * ((x.tags.head?).getD 0).toNat)) 0) := by
  have hin : ¬ _ := mt (any_out_of_range_iff (o := o) _).mp (not_not.mpr hr)
  simp only [issueCheck, if_neg (Nat.not_lt.mpr h), if_neg hin, findSome?_code hx hf hlow]

end

/-- Settles O46: each check is the first that finds something. -/
theorem issueChecks : Obligations.IssueChecks := by
  intro i s iss hwf hs
  have hi := isWord_of_hasWord (hasWord_of_wellFormed hwf)
  refine ⟨hi.fails_not_ready hs, fun h => hi.fails_issueCheck hs fun t ht hu => ?_, fun h => hi.fails_issueCheck hs fun t ht hu => ?_,
    fun x h => hi.fails_issueCheck hs fun t ht hu => ?_⟩
  · obtain ⟨hready, hhigh⟩ := h t ht hu
    exact ⟨hready, issueCheck_of_level hhigh⟩
  · obtain ⟨hready, hhigh, hwithin⟩ := h t ht hu
    exact ⟨hready, issueCheck_of_range hhigh hwithin⟩
  · obtain ⟨hready, hhigh, hwithin, hcode, hfind, hlow⟩ := h t ht hu
    exact ⟨hready, issueCheck_of_format hhigh hwithin hcode hfind hlow⟩

end Sys2Proof.Machine
end

section
/-! Decoding written-out words (O3), and what a step runs (O45). -/

namespace Sys2Proof.Machine

/-- A word whose core is refused. -/
theorem decodeWord_of_decodeCore_error {w : Word} {n : Nat} (h : decodeCore w.toNat = .error n) : decodeWord w = .error (.illegal n) := by
  rw [decodeWord, h]

/-- A major that the opcode map does not list (03 R50). -/
theorem decodeCore_of_reserved {w : Nat} (h : fieldNat w 24 6 ∈ [0x00, 0x07, 0x0F, 0x1F, 0x28, 0x2B, 0x35, 0x3F]) : decodeCore w = .error 1 := by
  simp only [List.mem_cons, List.not_mem_nil, or_false] at h
  rcases h with h | h | h | h | h | h | h | h <;> rw [decodeCore, h] <;> rfl

/-- Settles O3: the written-out words by evaluation, the reserved majors by the table of the decoder. -/
theorem sampleWordsDecode : Obligations.SampleWordsDecode :=
  ⟨⟨by rfl, by rfl, by rfl, by rfl, by rfl, by rfl, by rfl, by rfl⟩, fun _ h => decodeWord_of_decodeCore_error (decodeCore_of_reserved h)⟩

/-! A chain of one word. -/

section
variable {w : Word} {slot : Nat} {i : Instr}

/-- The part that a decoded word becomes. -/
def partOf (w : Word) (slot : Nat) (i : Instr) : Part := { raw := w, slot := slot, word := w, piece := .word i }

theorem rawChain_of_last {e : State} {c : Chip} {k ctx a n : Nat} {lvl : Level} (hw : fetchWord e c k ctx lvl a slot = .ok w)
    (hc : bitAt w.toNat 31 = false) : rawChain e c k ctx lvl (n + 1) a slot = ([(w, slot)], none) := by
  simp [rawChain, hw, hc]

theorem partsAll_of_decodeWord {c : Chip} {t : Nat} (hp : stencilPick c t w 0 = none) (hd : decodeWord w = .ok i) :
    partsAll c t none [(w, slot)] = ([partOf w slot i], []) := by
  simp [partsAll, partsOf, hp, plainPiece, hd, partOf]

theorem brmTargets_of_not_brm (hi : ∀ u n f a b c d, i ≠ .brm u n f a b c d) : brmTargets [partOf w slot i] = none := by
  rw [brmTargets, List.findSome?_eq_none_iff]
  intro p hp
  rw [List.mem_singleton.mp hp]
  simp only [Part.instr?, partOf]
  split
  · rename_i h
    exact absurd (Option.some.inj h) (hi _ _ _ _ _ _ _)
  · rfl

/-- A word by itself with C = 0 breaks none of 03 R38, R52 and R53. -/
theorem judgeChain_of_single {c : Chip} (hc : bitAt w.toNat 31 = false) : judgeChain c [partOf w slot i] [(w, slot)] none none = none := by
  have hfates : chainFates [partOf w slot i] [(w, slot)] none = [] := by
    simp [chainFates, chainFaults, partOf, hc]
  have hclaims : claimFates c (unitParts [partOf w slot i] none) = [] := rfl
  have hillegal : illegalFates (unitParts [partOf w slot i] none) none = [] := rfl
  simp only [judgeChain, hfates, hclaims, hillegal]
  rfl

end

/-- The slot of the word a thread stands at. -/
def slotAt (c : Chip) (t : Nat) : Nat :=
  ((codeBase c (c.ctxOf t) (c.thread t).level (c.thread t).pc.toNat).map (fun b => slotOf b (c.thread t).pc.toNat)).getD 0

section
variable {s : State} {t : Nat} {w : Word} {i : Instr} (hpatched : (s.now.thread t).patched = none) (hentering : (s.now.thread t).entering = false)
  (hw : fetchWord s s.now (s.now.coreOf t) (s.now.ctxOf t) (s.now.thread t).level (s.now.thread t).pc.toNat (slotAt s.now t) = .ok w)
  (hc : bitAt w.toNat 31 = false) (hp : stencilPick s.now t w 0 = none) (hd : decodeWord w = .ok i)
  (hi : ∀ u n f a b c d, i ≠ .brm u n f a b c d)
include hpatched hentering hw hc hp hd hi

/-- The chain at a thread's PC where its word is the chain by itself. -/
theorem fetchChain_of_single : fetchChain s t = { words := [{ instr := i, raw := w, slot := slotAt s.now t }] } := by
  rcases hb : codeBase s.now (s.now.ctxOf t) (s.now.thread t).level (s.now.thread t).pc.toNat with _ | b <;>
    simp only [slotAt, hb, Option.map_none, Option.map_some, Option.getD_none, Option.getD_some] at hw ⊢ <;>
    simp only [fetchChain, hb, rawChain_of_last hw hc, hpatched, partsAll_of_decodeWord hp hd, fetchUnit, brmTargets_of_not_brm hi,
      judgeChain_of_single hc, hentering, Option.isSome_none, Option.map_none, Option.orElse_none, Bool.false_eq_true, if_false] <;>
    rfl

/-- Fetching such a chain touches the page of its word alone. -/
theorem fetchIssue_of_single {iss : Issue} {ms : List Nat} (hm : iss.members = t :: ms) :
    fetchIssue s iss = { s with
      now := if (s.now.thread t).level = .firmware then s.now else touch s s.now (s.now.coreOf t) (s.now.ctxOf t) iss.pc.toNat false
      issue := some { iss with code := some { words := [{ instr := i, raw := w, slot := slotAt s.now t }] } } } := by
  simp only [fetchIssue, hm, List.head?_cons, fetchChain_of_single hpatched hentering hw hc hp hd hi, touchFetch]
  by_cases hf : (s.now.thread t).level = .firmware <;> simp [hf]

end

/-! What a step runs. -/

section
variable {s : State}

theorem step_of_run {i : Instr} {t : State} (h : plan s = .run i t) : step s = exec i t := by rw [step, h]

theorem step_of_done {t : State} (h : plan s = .done t) : step s = .next t := by rw [step, h]

theorem plan_of_fetched {iss : Issue} {f : Fetched} (hs : s.issue = some iss) (hf : iss.code = some f) : plan s = planWord s iss f := by
  rw [plan, hs]
  simp only [hf]

theorem plan_of_unfetched {iss : Issue} (hs : s.issue = some iss) (hf : iss.code = none) : plan s = planFetch s iss := by
  rw [plan, hs]
  simp only [hf]

/-- The released threads' chain is not fetched. -/
theorem grantedIssue_code {iss : Issue} (h : grantedIssue s = some iss) : iss.code = none := by
  unfold grantedIssue at h
  split at h
  · exact nomatch h
  · exact (Option.some.inj h) ▸ rfl

theorem plan_of_granted {iss : Issue} (hs : s.issue = none) (h : grantedIssue s = some iss) :
    plan s = plan { s with issue := some iss } := by
  rw [plan_of_unfetched (s := { s with issue := some iss }) rfl (grantedIssue_code h), plan, hs]
  simp only [h]

theorem grantedIssue_of_nil (h : s.now.granted = []) : grantedIssue s = none := by rw [grantedIssue, h]

section
variable (hs : s.issue = none) (hg : s.now.granted = [])
include hs hg

theorem plan_of_crowded {ln : Nat} (h : crowdedOut s.now = some ln) : plan s = .run (.sliceEviction ln) s := by
  rw [plan, hs]
  simp only [grantedIssue_of_nil hg, h]

variable (hcrowd : crowdedOut s.now = none)
include hcrowd

theorem plan_of_sweep (h : (s.now.sweepUrgent && s.board.sweeps) = true) :
    plan s = .run (if s.now.sweeping then .rebaseSweepComplete else .rebaseSweep) s := by
  rw [plan, hs]
  simp only [grantedIssue_of_nil hg, hcrowd, h, if_true]

variable (hsweep : (s.now.sweepUrgent && s.board.sweeps) = false)
include hsweep

theorem plan_of_agenda {i : Instr} {rest : List Instr} (h : s.agenda = i :: rest) : plan s = .run i (prepare i { s with agenda := rest }) := by
  rw [plan, hs]
  simp only [grantedIssue_of_nil hg, hcrowd, hsweep, h, Bool.false_eq_true, if_false]

theorem plan_of_choice (h : s.agenda = []) : plan s = .run (chosenEvent s) (prepare (chosenEvent s) { s with chosen := s.chosen + 1 }) := by
  rw [plan, hs]
  simp only [grantedIssue_of_nil hg, hcrowd, hsweep, h, Bool.false_eq_true, if_false]

end

end

/-- Settles O45: each clause is one branch of the plan of the next step. -/
theorem stepRunsTheWord : Obligations.StepRunsTheWord := by
  refine ⟨?_, ?_, ?_, ?_, ?_, ?_, ?_, ?_, ?_⟩
  · intro s iss f w hs hf hfault hw
    exact step_of_run ((plan_of_fetched hs hf).trans (by simp only [planWord, hfault, hw]))
  · intro s iss f hs hf hfault hw
    exact step_of_done ((plan_of_fetched hs hf).trans (by simp only [planWord, hfault, hw]))
  · intro s iss f v hs hf hfault
    exact step_of_done ((plan_of_fetched hs hf).trans (by simp only [planWord, hfault]))
  · intro s iss t ms w i th slot hs hf hat hm hpatched hentering hw hc hp hd hi
    refine step_of_run ((plan_of_unfetched hs hf).trans ?_)
    simp only [planFetch, fetchIssue_of_single hpatched hentering hw hc hp hd hi hm, planWord, Option.getD_some, hat, List.getElem?_cons_zero]
    rfl
  · intro s iss hs hg
    rw [step, step, plan_of_granted hs hg]
  · intro s ln hs hg hcrowd
    exact step_of_run (plan_of_crowded hs hg hcrowd)
  · intro s hs hg hcrowd hurgent hsweeps
    exact step_of_run (plan_of_sweep hs hg hcrowd (by rw [hurgent, hsweeps]; rfl))
  · intro s i rest hs hg hcrowd hsweep ha
    exact step_of_run (plan_of_agenda hs hg hcrowd hsweep ha)
  · intro s hs hg hcrowd hsweep ha
    exact step_of_run (plan_of_choice hs hg hcrowd hsweep ha)

end Sys2Proof.Machine
end

section
/-! What a chain that commits leaves as it was (O51), 1: the registers, predicates, masks, levels and PCs. The lines, the homes and what
is in progress at them never touch these, so neither do the waits that a chain's end releases nor the intervals that open. -/

/-! Most proofs here unfold one function of the model each; elaborated side by side they would take a thread each. -/

set_option Elab.async false

namespace Sys2Proof.Machine

/-! What programs see of their threads and groups. -/

/-- A thread's PC, level, registers, predicates and trap words. -/
def Thread.seenPart (t : Thread) : Addr × Level × Sparse Reg × BitVec 8 × TrapWords := (t.pc, t.level, t.regs, t.preds, t.trap)

/-- What the programs see of each thread, and the masks of each group. -/
def Chip.program (c : Chip) : (Nat → Addr × Level × Sparse Reg × BitVec 8 × TrapWords) × (Nat → Sparse Word) :=
  (fun x => (c.thread x).seenPart, fun g => (c.group g).masks)

theorem program_of_tables {c d : Chip} (ht : d.threads = c.threads) (hg : d.groups = c.groups) : d.program = c.program := by
  simp only [Chip.program, Chip.thread, Chip.group, ht, hg]

theorem program_setThread {c : Chip} {t : Nat} {x : Thread} (h : x.seenPart = (c.thread t).seenPart) : (c.setThread t x).program = c.program := by
  refine Prod.ext (funext fun u => ?_) rfl
  simp only [Chip.program, Chip.thread_setThread]
  split
  · rename_i e
    rw [e, h]
  · rfl

theorem program_mapVals {c d : Chip} {f : Nat → Thread → Thread} (ht : d.threads = Sparse.mapVals f c.threads) (hg : d.groups = c.groups)
    (h : ∀ i t, (f i t).seenPart = t.seenPart) : d.program = c.program := by
  refine Prod.ext (funext fun u => ?_) (by simp only [Chip.program, Chip.group, hg])
  simp only [Chip.program, Chip.thread, Sparse.get, ht, Sparse.find?_mapVals]
  cases Sparse.find? c.threads u with
  | none => rfl
  | some t => exact h u t

/-- A loop whose rounds each leave a part of the machine as it is. -/
theorem foldl_keeps {α β : Type} (part : Chip → β) {f : Chip → α → Chip} (h : ∀ c x, part (f c x) = part c) (l : List α) (c : Chip) :
    part (l.foldl f c) = part c :=
  List.foldlRecOn (motive := fun d => part d = part c) l f rfl (fun d hd x _ => (h d x).trans hd)

theorem program_foldl {α : Type} {f : Chip → α → Chip} (h : ∀ c x, (f c x).program = c.program) (l : List α) (c : Chip) :
    (l.foldl f c).program = c.program :=
  foldl_keeps Chip.program h l c

/-! Tables that programs do not see. -/

section
variable (c : Chip)

@[simp] theorem program_setCore (k : Nat) (x : Core) : (c.setCore k x).program = c.program := rfl
@[simp] theorem program_setTeam (k : Nat) (x : Team) : (c.setTeam k x).program = c.program := rfl
@[simp] theorem program_setCluster (k : Nat) (x : Cluster) : (c.setCluster k x).program = c.program := rfl
@[simp] theorem program_setLaunch (k : Nat) (x : Launch) : (c.setLaunch k x).program = c.program := rfl
@[simp] theorem program_setSlice (k : Nat) (x : Slice) : (c.setSlice k x).program = c.program := rfl
@[simp] theorem program_setAccess (k : Nat) (x : Access) : (c.setAccess k x).program = c.program := rfl
@[simp] theorem program_setLine (ln : Nat) (h : HomeLine) : (c.setLine ln h).program = c.program := rfl
@[simp] theorem program_setL1 (k ln : Nat) (l : L1Line) : (c.setL1 k ln l).program = c.program := rfl
@[simp] theorem program_dropL1 (k ln : Nat) : (c.dropL1 k ln).program = c.program := rfl
@[simp] theorem program_requeueLine (k ln : Nat) : (c.requeueLine k ln).program = c.program := rfl
@[simp] theorem program_clockAdvance (k t : Nat) : (c.clockAdvance k t).program = c.program := rfl
@[simp] theorem program_noteWrite (p size : Nat) : (c.noteWrite p size).program = c.program := rfl
@[simp] theorem program_tell (m : Message) : (c.tell m).program = c.program := rfl
@[simp] theorem program_accesses (x : Sparse Access) : ({ c with accesses := x } : Chip).program = c.program := rfl
@[simp] theorem program_hostClk (x : Nat) : ({ c with hostClk := x } : Chip).program = c.program := rfl

@[simp] theorem program_fireGlobal (p size : Nat) : (c.fireGlobal p size).program = c.program := by
  refine program_mapVals (c := c) (f := ?_) ?_ ?_ ?_
  rotate_left
  · unfold Chip.fireGlobal
    dsimp only
    rfl
  · rfl
  · intro i t
    split
    · split <;> rfl
    · rfl

@[simp] theorem program_see (t wts : Nat) : (c.see t wts).program = c.program := by
  unfold Chip.see
  split
  · rfl
  · exact program_setThread rfl

@[simp] theorem program_dropStale (k ln wts : Nat) : (c.dropStale k ln wts).program = c.program := by
  unfold Chip.dropStale
  dsimp only
  split
  · rfl
  · split <;> rfl

@[simp] theorem program_clearPending (k ln : Nat) : (c.clearPending k ln).program = c.program := by
  unfold Chip.clearPending
  split <;> rfl

@[simp] theorem program_wakeBank (p : Nat) : (c.wakeBank p).program = c.program := by
  unfold Chip.wakeBank
  split
  · split <;> rfl
  · rfl

@[simp] theorem program_unarbitrate (id ln : Nat) : (c.unarbitrate id ln).program = c.program := by
  unfold Chip.unarbitrate
  dsimp only
  split <;> rfl

@[simp] theorem program_refuse (id : Nat) (a : Access) : (refuse c id a).program = c.program := by
  unfold refuse
  dsimp only
  split <;> rfl

@[simp] theorem program_commitEarly (k : Nat) : (c.commitEarly k).program = c.program := by
  unfold Chip.commitEarly
  dsimp only
  split <;> rfl

@[simp] theorem program_hold (k p size : Nat) : (c.hold k p size).program = c.program := by
  unfold Chip.hold
  dsimp only
  split
  · exact program_commitEarly _ _
  · rfl

end

/-! Lines at their homes and in an L1. -/

section
variable (e : State) (c : Chip)

@[simp] theorem program_mergeFrom (k ln : Nat) (ws : BitVec 32) : (mergeFrom e c k ln ws).program = c.program := by
  unfold mergeFrom
  dsimp only
  split
  · rfl
  · exact program_foldl program_commitEarly _ _

@[simp] theorem program_writeBack (k ln : Nat) : (writeBack e c k ln).program = c.program := by
  unfold writeBack
  dsimp only
  split
  · rfl
  · split <;> rfl

@[simp] theorem program_grantOwned (k ln ctx : Nat) : (grantOwned e c k ln ctx).program = c.program := rfl

@[simp] theorem program_ownedStore (k th p size data : Nat) : (ownedStore c k th p size data).program = c.program := by
  simp only [ownedStore, program_noteWrite, program_fireGlobal, program_clockAdvance, program_setL1]

@[simp] theorem program_putHome (ln p size data t : Nat) (h : HomeLine) : (putHome c ln p size data t h).program = c.program := by
  simp only [putHome, program_noteWrite, program_fireGlobal, program_setLine]

@[simp] theorem program_storeReply (k ln : Nat) (ws : BitVec 32) (old : HomeLine) (alloc : Bool) :
    (storeReply e c k ln ws old alloc).program = c.program := by
  unfold storeReply
  dsimp only
  split
  · split <;> rfl
  · rfl

@[simp] theorem program_homeStore (k p size data : Nat) (kind : BitVec 2) : (homeStore e c k p size data kind).program = c.program := by
  simp only [homeStore, apply_ite Chip.program, program_storeReply, program_clockAdvance, program_putHome, ite_self]

@[simp] theorem program_splitStore (a : Access) : (splitStore e c a).program = c.program :=
  program_foldl (fun d i => by simp only [apply_ite Chip.program, program_ownedStore, program_homeStore, ite_self]) _ _

@[simp] theorem program_markReleaser (k ln : Nat) : (markReleaser e c k ln).program = c.program := by
  simp only [markReleaser, apply_ite Chip.program, program_setLine, ite_self]

@[simp] theorem program_performStore (id : Nat) (a : Access) : (performStore e c id a).program = c.program := by
  simp only [performStore, apply_ite Chip.program, program_clearPending, program_hold, program_markReleaser, program_ownedStore,
    program_grantOwned, program_splitStore, program_homeStore, program_writeBack, program_accesses, ite_self]

@[simp] theorem program_renewServe (id : Nat) (a : Access) (n : Nat) : (renewServe e c id a n).program = c.program := rfl

@[simp] theorem program_sample (id : Nat) (a : Access) (line : BitVec 1024) (wts : Nat) (poison : Option Nat) :
    (sample c id a line wts poison).program = c.program := by
  simp only [sample, program_setAccess, apply_ite Chip.program, program_clockAdvance, program_foldl (fun d t => program_see d t wts), ite_self]

@[simp] theorem program_hit (id : Nat) (a : Access) (l : L1Line) : (hit c id a l).program = c.program := program_sample _ _ _ _ _ _

@[simp] theorem program_sampleHome (id : Nat) (a : Access) : (sampleHome e c id a).program = c.program :=
  (program_sample _ _ _ _ _ _).trans (program_dropStale _ _ _ _)

@[simp] theorem program_atomicAtHome (id : Nat) (a : Access) (op : RmwOp) : (atomicAtHome e c id a op).program = c.program := by
  unfold atomicAtHome
  dsimp only
  rw [program_setAccess]
  split <;> simp only [apply_ite Chip.program, program_markReleaser, program_homeStore, program_dropStale, program_clockAdvance, ite_self]

/-- A request that goes on, or is held. -/
theorem program_gate {id : Nat} {a : Access} {go : Chip → Chip} (h : ∀ d, (go d).program = d.program) : (gate e c id a go).program = c.program := by
  simp only [gate, apply_ite Chip.program, h, program_setAccess, program_setLine, ite_self]

end

/-! What is in progress at the lines, with answers of any depth that leave the program as it is. -/

namespace Proto

/-! The recursion of `settle`: the equations Lean would generate for it exceed its recursion limit. -/

theorem settle_zero [LineAnswers] : settle 0 = fun _ _ c => c := by
  delta settle
  rfl

theorem settle_succ [LineAnswers] (n : Nat) : settle (n + 1) = settle._f (n + 1) ⟨settle n, (Nat.brecOn.go n settle._f).2⟩ := by
  delta settle
  rfl

section
variable [LineAnswers] (answers : ∀ e c ln, (LineAnswers.answer e c ln).program = c.program)
include answers

theorem program_settle (n : Nat) (e : State) (t : Task) (c : Chip) : (settle n e t c).program = c.program := by
  induction n generalizing t c with
  | zero => rw [settle_zero]
  | succ n ih =>
    rw [settle_succ]
    cases t with dsimp only [settle._f]
    | reclaim ln ws =>
      split
      · rfl
      · simp only [apply_ite Chip.program, ih, program_mergeFrom, ite_self]
    | drain k upto =>
      refine (program_foldl (fun d ln => ?_) _ _).trans (program_setCore _ _ _)
      exact (program_foldl (fun d id => ih _ d) _ _).trans (program_writeBack _ _ _ _)
    | establish id =>
      split
      · split <;> simp only [apply_ite Chip.program, answers, program_wakeBank, ite_self]
      · simp only [ih, program_performStore, apply_ite Chip.program, ite_self]
        split <;> simp only [apply_ite Chip.program, answers, program_wakeBank, ite_self]
    | room k ln =>
      split
      · rfl
      · simp only [ih, program_dropL1, apply_ite Chip.program, ite_self]
    | trim k =>
      split
      · exact ih _ _
      · rfl

theorem program_recallNow (e : State) (c : Chip) (ln : Nat) (ws : BitVec 32) : (recallNow e c ln ws).program = c.program :=
  program_settle answers _ _ _ _

theorem program_drainNow (e : State) (c : Chip) (k : Nat) : (drainNow e c k).program = c.program := program_settle answers _ _ _ _

theorem program_roomNow (e : State) (c : Chip) (k ln : Nat) : (roomNow e c k ln).program = c.program := program_settle answers _ _ _ _

theorem program_trimNow (e : State) (c : Chip) (k : Nat) : (trimNow e c k).program = c.program := program_settle answers _ _ _ _

theorem program_commitNow (e : State) (c : Chip) (team : Nat) : (commitNow e c team).program = c.program := by
  unfold commitNow
  split
  · rw [program_trimNow answers, program_commitEarly]
  · rfl

theorem program_releaseLines (e : State) (c : Chip) (k : Nat) (ths : List Nat) (id : Nat) : (releaseLines e c k ths id).program = c.program :=
  program_trimNow answers _ _ _

theorem program_releaseAt (e : State) (c : Chip) (id : Nat) (a : Access) : (releaseAt e c id a).program = c.program := by
  simp only [releaseAt, apply_ite Chip.program, program_drainNow answers, program_releaseLines answers, program_commitNow answers, ite_self]

theorem program_settleFences (e : State) (c : Chip) (th : Nat) : (settleFences e c th).program = c.program :=
  program_foldl (fun d p => by
    simp only [apply_ite Chip.program, program_clockAdvance, program_releaseAt answers, program_accesses, ite_self]) _ _

theorem program_settleCore (e : State) (c : Chip) (k : Nat) : (settleCore e c k).program = c.program :=
  program_foldl (program_settleFences answers e) _ _

theorem program_promoteLine (e : State) (c : Chip) (ln : Nat) : (promoteLine e c ln).program = c.program := by
  unfold promoteLine
  dsimp only
  split
  · rfl
  · exact program_foldl (program_drainNow answers e) _ _

theorem program_promoteFrom (e : State) (c : Chip) (a : Access) : (promoteFrom e c a).program = c.program := by
  simp only [promoteFrom, apply_ite Chip.program, program_promoteLine answers, ite_self]

theorem program_serveRead (e : State) (c : Chip) (id : Nat) (a : Access) : (serveRead e c id a).program = c.program := by
  unfold serveRead
  extract_lets home fetch
  split
  · rfl
  split
  · rfl
  split
  · rfl
  refine program_gate e c fun d => ?_
  split
  · exact program_promoteFrom answers e d a
  · simp only [apply_ite Chip.program, program_accesses, program_renewServe, program_promoteFrom answers, ite_self]
  · simp only [apply_ite Chip.program, program_sampleHome, program_renewServe, program_promoteFrom answers, ite_self]

theorem program_beforeHold (e : State) (c : Chip) (k ln : Nat) : (beforeHold e c k ln).program = c.program := by
  unfold beforeHold
  split
  · simp only [apply_ite Chip.program, program_writeBack, program_drainNow answers, ite_self]
  · rfl

theorem program_serveStore (e : State) (c : Chip) (id : Nat) (a : Access) : (serveStore e c id a).program = c.program := by
  unfold serveStore
  split
  · rfl
  refine (program_gate e _ fun d => ?_).trans ?_
  · simp only [program_settleCore answers, program_trimNow answers, program_performStore, apply_ite Chip.program, program_roomNow answers, ite_self]
  · simp only [apply_ite Chip.program, program_releaseAt answers, ite_self]

theorem program_atomicInL1 (e : State) (c : Chip) (id : Nat) (a : Access) (op : RmwOp) : (atomicInL1 e c id a op).program = c.program := by
  unfold atomicInL1
  dsimp only
  rw [program_setAccess]
  split <;> simp only [apply_ite Chip.program, program_trimNow answers, program_hold, program_markReleaser, program_ownedStore,
    program_clockAdvance, program_grantOwned, program_roomNow answers, program_beforeHold answers, ite_self]

theorem program_serveGrant (e : State) (c : Chip) (id : Nat) (a : Access) {use : Chip → Chip} (h : ∀ d, (use d).program = d.program) :
    (serveGrant e c id a use).program = c.program := by
  unfold serveGrant
  dsimp only
  split
  · rw [h, program_unarbitrate]
  split
  · exact program_refuse _ _ _
  · exact program_gate e c fun d => by rw [h, program_grantOwned, program_roomNow answers, program_unarbitrate]

theorem program_serveAtomic (e : State) (c : Chip) (id : Nat) (a : Access) (op : RmwOp) : (serveAtomic e c id a op).program = c.program := by
  unfold serveAtomic
  split
  · rfl
  extract_lets c1 done
  have hreleased : c1.program = c.program := by simp only [c1, apply_ite Chip.program, program_releaseAt answers, ite_self]
  split
  · refine (program_serveGrant answers _ _ _ _ fun d => ?_).trans hreleased
    rw [program_settleFences answers, program_atomicInL1 answers, program_promoteFrom answers]
  · refine (program_gate _ _ fun d => ?_).trans hreleased
    rw [program_settleFences answers, program_atomicAtHome, program_promoteFrom answers]

theorem program_serveMates (e : State) (c : Chip) (ids : List Nat) : (serveMates e c ids).program = c.program :=
  program_foldl (fun d i => by
    split
    · split
      · exact program_serveAtomic answers _ _ _ _ _
      · rfl
    · rfl) _ _

theorem program_serveAtomics (e : State) (c : Chip) (id : Nat) (a : Access) (op : RmwOp) : (serveAtomics e c id a op).program = c.program := by
  simp only [serveAtomics, apply_ite Chip.program, program_serveMates answers, program_serveAtomic answers, ite_self]

theorem program_serveBack (e : State) (c : Chip) (id : Nat) (a : Access) (drop : Bool) : (serveBack e c id a drop).program = c.program := by
  rw [serveBack, program_settleFences answers, program_accesses]
  exact program_foldl (fun d ln => by
    simp only [apply_ite Chip.program, program_trimNow answers, program_mergeFrom, program_writeBack, program_settle answers, ite_self]) _ _

theorem program_useOwned (e : State) (c : Chip) (id : Nat) (a : Access) : (useOwned e c id a).program = c.program := by
  unfold useOwned
  split
  · split
    · exact program_hit _ _ _ _
    · rfl
  · rw [program_settleCore answers, program_trimNow answers, program_performStore]
  · rfl

theorem program_serveOwned (e : State) (c : Chip) (id : Nat) (a : Access) : (serveOwned e c id a).program = c.program := by
  unfold serveOwned
  extract_lets ln fetch c1 c2
  split
  · rfl
  split
  · rfl
  have hready : c2.program = c.program := by
    simp only [c2, c1, apply_ite Chip.program, program_beforeHold answers, program_releaseAt answers, ite_self]
  exact (program_serveGrant answers _ _ _ _ (fun d => program_useOwned answers e d id a)).trans hready

theorem program_sendRemote (e : State) (c : Chip) (id : Nat) (a : Access) (dev : Nat) : (sendRemote e c id a dev).program = c.program := by
  simp only [sendRemote, apply_ite Chip.program, program_tell, program_setAccess, program_releaseAt answers, ite_self]

theorem program_serveAs (e : State) (c : Chip) (id : Nat) (a : Access) : (serveAs e c id a).program = c.program := by
  unfold serveAs
  split
  · exact program_sendRemote answers _ _ _ _ _
  split
  · rfl
  split
  · simp only [apply_ite Chip.program, program_serveOwned answers, program_serveRead answers, ite_self]
  · simp only [apply_ite Chip.program, program_serveOwned answers, program_serveStore answers, ite_self]
  · exact program_serveAtomics answers _ _ _ _ _
  · simp only [apply_ite Chip.program, program_serveOwned answers, program_serveRead answers, ite_self]
  · exact program_serveBack answers _ _ _ _ _
  · rfl

theorem program_serveHeld (e : State) (c : Chip) (ln : Nat) (held : List Nat) : (serveHeld e c ln held).program = c.program :=
  program_foldl (fun d id => by
    dsimp only
    split
    · rfl
    split
    · rfl
    split
    · rfl
    have hserved (a : Access) : (serveAs e (d.setAccess id a) id a).program = d.program :=
      (program_serveAs answers _ _ _ _).trans (program_setAccess _ _ _)
    split
    · simp only [apply_ite Chip.program, program_setAccess, program_setLine, hserved, ite_self]
    · exact hserved _) _ _

theorem program_answerRecall (e : State) (c : Chip) (ln : Nat) : (answerRecall e c ln).program = c.program := by
  simp only [answerRecall, apply_ite Chip.program, program_serveHeld answers, program_setLine, program_recallNow answers, ite_self]

theorem program_hostServe (e : State) (c : Chip) (op : BitVec 2) (p size : Nat) (data : BitVec 64) (cache : Bool) :
    (hostServe e c op p size data cache).program = c.program := by
  have hrecall (ws : BitVec 32) := program_recallNow answers e c (lineOf p) ws
  have hreply (d : Chip) (r : Option HostReply) : ({ d with hostReply := r } : Chip).program = d.program := rfl
  simp only [hostServe, apply_ite Chip.program, program_hostClk, program_setLine, program_putHome, hreply, hrecall, ite_self]

theorem program_serveConflict (e : State) (c : Chip) (ln : Nat) : (serveConflict e c ln).program = c.program := by
  unfold serveConflict
  rw [program_setLine]
  refine List.foldlRecOn (motive := fun (s : Chip × Bool × _) => s.1.program = c.program) _ _ rfl fun s hs x _ => ?_
  split
  · exact hs
  · exact (program_hostServe answers _ _ _ _ _ _ _).trans hs

theorem program_answerInvalidation (e : State) (c : Chip) (ln : Nat) : (answerInvalidation e c ln).program = c.program := by
  simp only [answerInvalidation, apply_ite Chip.program, program_serveConflict answers, program_serveHeld answers, program_setLine, ite_self]

theorem program_quietLine (e : State) (c : Chip) (ln : Nat) : (quietLine e c ln).program = c.program := by
  simp only [quietLine, apply_ite Chip.program, program_answerInvalidation answers, program_answerRecall answers, ite_self]

end

end Proto

/-- Answers of every depth leave the program as it is. -/
theorem program_answersAt (n : Nat) (e : State) (c : Chip) (ln : Nat) : (@LineAnswers.answer (answersAt n) e c ln).program = c.program := by
  induction n generalizing e c ln with
  | zero => rfl
  | succ n ih => exact @Proto.program_quietLine (answersAt n) ih e c ln

@[simp] theorem program_trimNow (e : State) (c : Chip) (k : Nat) : (trimNow e c k).program = c.program :=
  @Proto.program_trimNow (answersAt c.depth) (program_answersAt c.depth) e c k

end Sys2Proof.Machine
end

section
/-! What a chain that commits leaves as it was (O51), 2: beside the program, what reads of memory depend on. The moves and waits at a chain's
end keep both; the intervals that then open keep the program, and where no team is in rollback mode none opens. -/

set_option Elab.async false

namespace Sys2Proof.Machine

/-- A team in rollback mode, or whose interval has just opened. -/
def Team.opens (k : Team) : Bool := k.rollback || k.interval.opened

/-- What reads of memory depend on in the machine, and whether an interval may open. -/
def Chip.lines (c : Chip) : Sparse HomeLine × (Nat → Sparse L1Line) × Sparse Slice × Sparse Die × Nat × Bool × Bool :=
  (c.home, fun k => (c.core k).l1, c.slices, c.dies, c.timeBase, c.generation, c.teams.any (fun p => p.2.opens))

/-- What programs and reads of memory see of the machine. -/
def Chip.standing (c : Chip) := (c.program, c.lines)

theorem standing_setThread {c : Chip} {t : Nat} {x : Thread} (h : x.seenPart = (c.thread t).seenPart) : (c.setThread t x).standing = c.standing :=
  Prod.ext (program_setThread h) rfl

/-- A listed value meets what the value at its key meets, where the default does not. -/
theorem any_of_get {ν : Type} {f : ν → Bool} {d : ν} (hd : f d = false) {m : Sparse ν} {k : Nat} (h : f (Sparse.get d m k) = true) :
    m.any (fun p => f p.2) = true := by
  induction m with
  | nil => exact absurd (hd.symm.trans h) Bool.false_ne_true
  | cons p m ih =>
    rw [List.any_cons, Bool.or_eq_true]
    by_cases hk : p.1 = k
    · exact .inl (by simpa [Sparse.get, Sparse.find?, hk] using h)
    · exact .inr (ih (by simpa [Sparse.get, Sparse.find?, hk] using h))

/-- Writing at a key a value that meets what the value there met. -/
theorem any_set {ν : Type} {f : ν → Bool} {d v : ν} (hd : f d = false) {m : Sparse ν} {k : Nat} (h : f v = f (Sparse.get d m k)) :
    (Sparse.set m k v).any (fun p => f p.2) = m.any (fun p => f p.2) := by
  induction m with
  | nil => simpa [Sparse.set, Sparse.get, Sparse.find?, hd] using h
  | cons p m ih =>
    obtain ⟨j, w⟩ := p
    unfold Sparse.set
    split
    · rw [List.any_cons, Bool.or_eq_right_iff_imp]
      exact fun hv => any_of_get hd (h.symm.trans hv)
    · split
      · rename_i hk
        have hw : f v = f w := by simpa [Sparse.get, Sparse.find?, hk] using h
        simp only [List.any_cons, hw]
      · rename_i hk
        rw [List.any_cons, List.any_cons, ih (by simpa [Sparse.get, Sparse.find?, Ne.symm hk] using h)]

theorem lines_setTeam {c : Chip} {k : Nat} {x : Team} (h : x.opens = (c.team k).opens) : (c.setTeam k x).lines = c.lines := by
  have hopens : (c.setTeam k x).teams.any (fun p => p.2.opens) = c.teams.any (fun p => p.2.opens) := any_set (f := Team.opens) (d := {}) rfl h
  simp only [Chip.lines, hopens]
  rfl

theorem standing_setTeam {c : Chip} {k : Nat} {x : Team} (h : x.opens = (c.team k).opens) : (c.setTeam k x).standing = c.standing :=
  Prod.ext rfl (lines_setTeam h)

theorem lines_setCore {c : Chip} {k : Nat} {x : Core} (h : x.l1 = (c.core k).l1) : (c.setCore k x).lines = c.lines := by
  have hl1 : (fun j => ((c.setCore k x).core j).l1) = fun j => (c.core j).l1 := funext fun j => by
    rw [Chip.core_setCore]
    split
    · rename_i e
      rw [e, h]
    · rfl
  simp only [Chip.lines, hl1]
  rfl

theorem standing_setCore {c : Chip} {k : Nat} {x : Core} (h : x.l1 = (c.core k).l1) : (c.setCore k x).standing = c.standing :=
  Prod.ext rfl (lines_setCore h)

theorem standing_foldl {α : Type} {f : Chip → α → Chip} (h : ∀ c x, (f c x).standing = c.standing) (l : List α) (c : Chip) :
    (l.foldl f c).standing = c.standing :=
  foldl_keeps Chip.standing h l c

/-! Moves (07 R138). -/

section
variable (c : Chip)

@[simp] theorem standing_setCroft (k : Nat) (f : Croft) : (c.setCroft k f).standing = c.standing := rfl

@[simp] theorem standing_putPen (p : Nat) (l : List Nat) : (c.putPen p l).standing = c.standing :=
  standing_foldl (fun _ _ => standing_setThread (by rfl)) _ _

@[simp] theorem standing_putFold (k ctx : Nat) (lvl : Level) (pc : Addr) (l : List Nat) : (c.putFold k ctx lvl pc l).standing = c.standing :=
  standing_foldl (fun _ _ => standing_setThread (by rfl)) _ _

@[simp] theorem standing_passPen (k p : Nat) : (c.passPen k p).standing = c.standing := by
  unfold Chip.passPen
  dsimp only
  split
  · rfl
  · split
    · rfl
    · exact standing_putPen _ _ _

@[simp] theorem standing_move (k : Nat) (l : List Nat) (src : Option Nat) (ctx : Nat) (lvl : Level) (pc : Addr) :
    (c.move k l src ctx lvl pc).standing = c.standing := by
  unfold Chip.move
  dsimp only
  split
  · split <;> simp only [apply_ite Chip.standing, standing_passPen, standing_putPen, ite_self]
  · split
    · split <;> simp only [apply_ite Chip.standing, standing_putFold, standing_putPen, standing_setCroft, ite_self]
    · split <;> simp only [standing_putFold, standing_putPen, standing_setCroft]

@[simp] theorem standing_moveAll (l : List Nat) : (c.moveAll l).standing = c.standing :=
  standing_foldl (fun d k => by
    split
    · rfl
    · exact standing_move _ _ _ _ _ _ _) _ _

/-! Waits (07 R139, 13 R282 to R291). -/

@[simp] theorem standing_release (t : Nat) (g : Grant) : (c.release t g).standing = c.standing := by
  unfold Chip.release
  split
  · rfl
  · exact standing_setThread (c := c) (by rfl)

@[simp] theorem standing_commitEarly (k : Nat) : (c.commitEarly k).standing = c.standing := by
  unfold Chip.commitEarly
  dsimp only
  split
  · rfl
  · exact (standing_setTeam (by rfl)).trans (standing_setCore (by rfl))

theorem rollback_commitEarly (k : Nat) : ((c.commitEarly k).team k).rollback = (c.team k).rollback := by
  unfold Chip.commitEarly
  dsimp only
  split
  · rfl
  · simp only [Chip.team, Chip.setTeam, Sparse.get_set_same]

@[simp] theorem standing_closeInterval (k : Nat) : (c.closeInterval k).standing = c.standing := by
  unfold Chip.closeInterval
  split
  · rfl
  · rename_i hmode
    have hroll : ((c.commitEarly k).team k).rollback = true := (rollback_commitEarly c k).trans (by simpa using hmode)
    exact (standing_setTeam (by simp only [Team.opens, hroll, Bool.true_or])).trans (standing_commitEarly c k)

@[simp] theorem standing_arriveAgain (k n t : Nat) (r : WaitRec) : (c.arriveAgain k n t r).standing = c.standing := by
  unfold Chip.arriveAgain
  dsimp only
  split
  · exact (standing_release _ _ _).trans (standing_setTeam (by rfl))
  · exact (standing_setThread (by rfl)).trans (standing_setTeam (by rfl))

@[simp] theorem standing_settleBarrier (k n : Nat) : (c.settleBarrier k n).standing = c.standing := by
  unfold Chip.settleBarrier
  extract_lets team b ws here done b' c1 c2
  have hclosed : c2.standing = c.standing := by
    simp only [c2, c1, apply_ite Chip.standing, standing_closeInterval, ite_self]
    exact standing_setTeam (by rfl)
  split
  · rfl
  · refine (standing_foldl (fun d t => ?_) _ _).trans hclosed
    split
    · simp only [apply_ite Chip.standing, standing_arriveAgain, standing_release, ite_self]
    · rfl

@[simp] theorem standing_releaseAll (l : List Nat) : (c.releaseAll l).standing = c.standing :=
  standing_foldl (fun _ _ => (standing_release _ _ _).trans (standing_setCore (by rfl))) _ _

@[simp] theorem standing_settleCluster (k : Nat) : (c.settleCluster k).standing = c.standing := by
  unfold Chip.settleCluster
  dsimp only
  split
  · rfl
  · exact (standing_releaseAll _ _).trans (standing_foldl standing_closeInterval _ _)

@[simp] theorem standing_settleGrid (k : Nat) : (c.settleGrid k).standing = c.standing := by
  unfold Chip.settleGrid
  dsimp only
  split
  · rfl
  · exact (standing_releaseAll _ _).trans (standing_foldl standing_closeInterval _ _)

@[simp] theorem standing_settleGroup (g : Nat) : (c.settleGroup g).standing = c.standing :=
  standing_foldl (fun d t => by
    split
    · rfl
    · split
      · rfl
      · dsimp only
        split
        · exact standing_foldl (fun _ _ => standing_release _ _ _) _ _
        · rfl) _ _

@[simp] theorem standing_settleWaits (gs : List Nat) : (c.settleWaits gs).standing = c.standing :=
  (standing_foldl standing_settleGrid _ _).trans ((standing_foldl standing_settleCluster _ _).trans
    ((standing_foldl (fun _ t => standing_foldl (fun d n => standing_settleBarrier d t n) _ _) _ _).trans (standing_foldl standing_settleGroup _ _)))

/-! What a chain notes when it ends. -/

@[simp] theorem standing_countDue (gs : List Nat) : (c.countDue gs).standing = c.standing := by
  refine Prod.ext (program_mapVals (c := c) (f := ?_) ?_ ?_ ?_) rfl
  rotate_left
  · unfold Chip.countDue
    dsimp only
    rfl
  · rfl
  · intro i t
    split
    · split <;> rfl
    · rfl

@[simp] theorem standing_issuedNow (t : Nat) : (c.issuedNow t).standing = c.standing := standing_setThread (by rfl)

@[simp] theorem standing_noteTiles (ts : List Nat) (ws : List ChainWord) : (c.noteTiles ts ws).standing = c.standing := rfl

@[simp] theorem standing_noteRegs (ts : List Nat) (ws : List ChainWord) : (c.noteRegs ts ws).standing = c.standing :=
  standing_foldl (fun d t => by
    split
    · rfl
    · exact standing_setThread (by rfl)) _ _

/-- The cores with every plate changed have the lines they had. -/
theorem lines_mapCores {f : Nat → Core → Core} (h : ∀ i k, (f i k).l1 = k.l1) :
    ({ c with cores := Sparse.mapVals f c.cores } : Chip).lines = c.lines := by
  have hl1 : (fun j => (({ c with cores := Sparse.mapVals f c.cores } : Chip).core j).l1) = fun j => (c.core j).l1 := funext fun j => by
    simp only [Chip.core, Sparse.get, Sparse.find?_mapVals]
    cases Sparse.find? c.cores j with
    | none => rfl
    | some k => exact h j k
  simp only [Chip.lines, hl1]

@[simp] theorem standing_consumeEntries (pre : Chip) (ts : List Nat) (ws : List ChainWord) : (c.consumeEntries pre ts ws).standing = c.standing :=
  Prod.ext rfl (lines_mapCores c fun _ _ => rfl)

end

/-! Reads of memory. -/

/-- Machines with the same lines read every byte of one memory alike. -/
theorem peek_of_lines {e e' : State} {c d : Chip} (h : d.lines = c.lines) (hm : e'.mem = e.mem) (hb : e'.board = e.board) (p n : Nat) :
    peek e' d p n = peek e c p n := by
  simp only [Chip.lines, Prod.mk.injEq] at h
  obtain ⟨hhome, hl1, hslices, hdies, hbase, hgen, -⟩ := h
  have htimes : SameTimes c d := ⟨hslices, hdies, hbase, hgen⟩
  have hlines (ln : Nat) : SameLines (ln + 1) c d :=
    ⟨fun m _ => ⟨by rw [hhome], fun k => by simp only [Chip.l1?, congrFun hl1 k, htimes.timed]⟩, htimes⟩
  have hpeek : peekLine e' d = peekLine e c := funext fun ln => (hlines ln).peekLine hm hb (Nat.ne_of_lt ln.lt_succ_self)
  simp only [peek, hhome, hm, hpeek]

/-! The intervals that open (21 R458). -/

/-- Noting the intervals that open changes no memory and no board, opens no chain, and leaves the program as it is. -/
theorem noteIntervals_keeps (s : State) : (noteIntervals s).mem = s.mem ∧ (noteIntervals s).board = s.board ∧ (noteIntervals s).issue = s.issue ∧
    (noteIntervals s).base = s.base ∧ (noteIntervals s).now.program = s.now.program := by
  unfold noteIntervals
  refine List.foldlRecOn (motive := fun t : State => t.mem = s.mem ∧ t.board = s.board ∧ t.issue = s.issue ∧ t.base = s.base ∧
    t.now.program = s.now.program) _ _ ⟨rfl, rfl, rfl, rfl, rfl⟩ fun t ht k _ => ?_
  obtain ⟨hmem, hboard, hissue, hbase, hnow⟩ := ht
  refine ⟨hmem, hboard, hissue, hbase, ?_⟩
  dsimp only
  split
  · rw [program_trimNow, program_setTeam, hnow]
  · rw [program_setTeam, hnow]

/-- Where no listed team's interval has opened there is none to note. -/
theorem noteIntervals_of_lines {s : State} (h : s.now.lines.2.2.2.2.2.2 = false) : noteIntervals s = s := by
  have hdue : Sparse.keysWhere (fun _ t => t.interval.opened) s.now.teams = [] := by
    have hopens : ∀ p ∈ s.now.teams, p.2.opens = false := by simpa [Chip.lines] using h
    rw [Sparse.keysWhere, List.map_eq_nil_iff, List.filter_eq_nil_iff]
    intro p hp
    have := hopens p hp
    simp only [Team.opens, Bool.or_eq_false_iff] at this
    simp [this.2]
  simp only [noteIntervals, hdue, List.filter_nil, List.foldl_nil]

end Sys2Proof.Machine
end

section
/-! A chain that commits (O51), 3: every thread of its issue group goes on behind it, and beside their PCs the program stands; so do reads of
memory where no listed team is in rollback mode or has an interval that opens. The statement O51 asks the latter only of the team that
each number reads, and a state may list a number twice: there it fails. -/

namespace Sys2Proof.Machine

/-- Where a chain without a transfer ends. -/
def Issue.behind (iss : Issue) : Addr :=
  iss.pc + BitVec.ofNat 64 (4 * ((iss.code.getD {}).len + (iss.code.getD {}).targets.length))

section
variable {iss : Issue}

theorem Issue.verdict_of_dead (hd : iss.dead = []) (t : Nat) : iss.verdict t = none := by rw [Issue.verdict, hd]; rfl

theorem Issue.live_of_dead (hd : iss.dead = []) : iss.live = iss.members :=
  List.filter_eq_self.mpr fun t _ => by rw [Issue.verdict_of_dead hd]; rfl

theorem Issue.jump_of_jumps (hj : iss.jumps = []) (t : Nat) : iss.jump t = none := by rw [Issue.jump, hj]; rfl

/-- Outside protected mode no pair is compared (21 R456). -/
theorem successorCheck_of_unguarded {c : Chip} (h : ∀ t ∈ iss.live, c.guarded t = false) : successorCheck c iss = iss := by
  have hbad : iss.live.filter (fun t => c.guarded t && iss.live.contains (t / 2 * 2) && iss.live.contains (t / 2 * 2 + 1) &&
      decide (iss.successor (t / 2 * 2) ≠ iss.successor (t / 2 * 2 + 1))) = [] :=
    List.filter_eq_nil_iff.mpr fun t ht => by simp [h t ht]
  simp only [successorCheck, hbad, List.map_nil, List.append_nil]

/-- A chain in which no thread failed is not executed again. -/
theorem closeChain_of_clean {s : State} (hs : s.issue = some iss) (hd : iss.dead = []) (hg : ∀ t ∈ iss.members, s.now.guarded t = false) :
    closeChain s = commitIssue s iss := by
  have hcheck : successorCheck s.now iss = iss := successorCheck_of_unguarded fun t ht => hg t (Issue.live_of_dead hd ▸ ht)
  simp only [closeChain, hs, hcheck, hd, List.length_nil, lt_self_iff_false, decide_false, List.any_nil, Bool.or_self, Bool.false_and,
    Bool.false_eq_true, if_false]

end

/-! The threads of the issue group. -/

/-- Machine `d` is `c` with the threads of a group gone on to an address: beside their PCs, what programs and reads of memory see stands. -/
def GoneOn (ms : List Nat) (pc : Addr) (c d : Chip) : Prop :=
  (∀ x, (d.thread x).seenPart = if x ∈ ms then (pc, (c.thread x).seenPart.2) else (c.thread x).seenPart) ∧
    (∀ g, (d.group g).masks = (c.group g).masks) ∧ d.lines = c.lines

theorem GoneOn.congr {ms : List Nat} {pc : Addr} {a b c d : Chip} (h : GoneOn ms pc b c) (hb : b.standing = a.standing) (hc : d.standing = c.standing) :
    GoneOn ms pc a d := by
  simp only [Chip.standing, Chip.program, Prod.mk.injEq] at hb hc
  obtain ⟨⟨hbt, hbg⟩, hbl⟩ := hb
  obtain ⟨⟨hct, hcg⟩, hcl⟩ := hc
  obtain ⟨ht, hg, hl⟩ := h
  exact ⟨fun x => by rw [congrFun hct x, ht x, congrFun hbt x], fun g => (congrFun hcg g).trans ((hg g).trans (congrFun hbg g)),
    hcl.trans (hl.trans hbl)⟩

/-- A thread without a transfer commits: it goes on behind the chain. -/
theorem goneOn_commitThread (e : State) {iss : Issue} (hj : iss.jumps = []) (pc : Addr) (c : Chip) (t : Nat) :
    GoneOn [t] pc c (commitThread e iss pc c t) := by
  rw [commitThread, Issue.jump_of_jumps hj]
  refine ⟨fun x => ?_, fun _ => rfl, rfl⟩
  simp only [Chip.thread_setThread, List.mem_singleton]
  split
  · rename_i hx
    rw [hx]
    rfl
  · rfl

theorem GoneOn.cons {ms : List Nat} {t : Nat} {pc : Addr} {a b c : Chip} (h : GoneOn [t] pc a b) (k : GoneOn ms pc b c) : GoneOn (t :: ms) pc a c := by
  obtain ⟨ht, hg, hl⟩ := h
  obtain ⟨kt, kg, kl⟩ := k
  refine ⟨fun x => ?_, fun g => (kg g).trans (hg g), kl.trans hl⟩
  have htail : (b.thread x).seenPart.2 = (a.thread x).seenPart.2 := by
    rw [ht x]
    split <;> rfl
  by_cases hx : x ∈ ms
  · rw [kt x, if_pos hx, if_pos (List.mem_cons_of_mem t hx), htail]
  · simp only [kt x, ht x, List.mem_cons, hx, or_false, List.not_mem_nil, if_false]

theorem goneOn_foldl {f : Chip → Nat → Chip} {pc : Addr} (h : ∀ c t, GoneOn [t] pc c (f c t)) (ms : List Nat) (c : Chip) :
    GoneOn ms pc c (ms.foldl f c) := by
  induction ms generalizing c with
  | nil => exact ⟨fun x => by simp, fun _ => rfl, rfl⟩
  | cons t ms ih => exact (h c t).cons (ih (f c t))

/-! The chain's end. -/

/-- A chain that commits: its threads go on behind it, and then the intervals that open are noted. -/
theorem commitIssue_of_clean {s : State} {iss : Issue} (hd : iss.dead = []) (hj : iss.jumps = []) (hm : iss.members ≠ []) :
    ∃ d, commitIssue s iss = noteIntervals { s with now := d, base := none, issue := none } ∧ GoneOn iss.members iss.behind s.now d := by
  suffices h : ∀ t, t = commitIssue s iss →
      ∃ d, t = noteIntervals { s with now := d, base := none, issue := none } ∧ GoneOn iss.members iss.behind s.now d from h _ rfl
  intro t ht
  have hlive := Issue.live_of_dead hd
  have hempty : iss.members.isEmpty = false := by simpa using hm
  unfold commitIssue at ht
  extract_lets code succ live c1 c2 groups c3 c4 c5 c6 c7 c8 exits movers c9 c10 c11 c12 s1 s2 at ht
  have hc1 : c1.standing = s.now.standing := by
    simp only [c1, live, hlive, hempty, Bool.false_eq_true, if_false]
    rfl
  have hc3 : c3.standing = s.now.standing := by
    simp only [c3, apply_ite Chip.standing, standing_countDue, ite_self]
    exact hc1
  have hc4 : c4.standing = s.now.standing :=
    (standing_foldl (fun c t => by simp only [apply_ite Chip.standing, standing_issuedNow, ite_self]) _ _).trans hc3
  have hgone : GoneOn iss.members iss.behind c4 c5 := by
    simp only [c5, hd, List.find?_nil]
    exact goneOn_foldl (fun c t => goneOn_commitThread s hj iss.behind c t) iss.members c4
  have hc8 : c8.standing = c5.standing := by
    simp only [c8, c7, c6, apply_ite Chip.standing, standing_consumeEntries, standing_noteRegs, standing_noteTiles, ite_self]
  have hexits : exits = [] := by simp only [exits, hj, List.any_nil, Bool.and_false, List.filter_false]
  have hc12 : c12.standing = c5.standing := by
    simp only [c12, c11, c10, c9, hexits, hd, List.foldl_nil, standing_settleWaits, standing_moveAll, hc8]
  refine ⟨c12, ?_, hgone.congr hc4 hc12⟩
  rw [ht]
  simp only [s2, hd, List.foldl_nil, s1]

/-- A chain that ends with no thread failed and no transfer commits as one, outside protected mode (03 R39, 07 R135, R140): its threads go on
behind it, and no other PC, no level, register, predicate, trap word or mask changes. -/
theorem closeChain_commits {s : State} {iss : Issue} (hs : s.issue = some iss) (hd : iss.dead = []) (hj : iss.jumps = []) (hm : iss.members ≠ [])
    (hg : ∀ t ∈ iss.members, s.now.guarded t = false) :
    (closeChain s).issue = none ∧ (closeChain s).base = none ∧ (closeChain s).mem = s.mem ∧ (closeChain s).board = s.board ∧
    (∀ x, ((closeChain s).now.thread x).seenPart =
      if x ∈ iss.members then (iss.behind, (s.now.thread x).seenPart.2) else (s.now.thread x).seenPart) ∧
    ∀ g, ((closeChain s).now.group g).masks = (s.now.group g).masks := by
  obtain ⟨d, hcommit, hthreads, hmasks, -⟩ := commitIssue_of_clean hd hj hm
  obtain ⟨hmem, hboard, hissue, hbase, hprogram⟩ := noteIntervals_keeps { s with now := d, base := none, issue := none }
  rw [closeChain_of_clean hs hd hg, hcommit]
  exact ⟨hissue, hbase, hmem, hboard, fun x => (congrFun (congrArg Prod.fst hprogram) x).trans (hthreads x),
    fun g => (congrFun (congrArg Prod.snd hprogram) g).trans (hmasks g)⟩

/-- Where no listed team is in rollback mode or has an interval that opens, such a chain changes no home and no byte that is read. -/
theorem closeChain_keeps_memory {s : State} {iss : Issue} (hs : s.issue = some iss) (hd : iss.dead = []) (hj : iss.jumps = [])
    (hm : iss.members ≠ []) (hg : ∀ t ∈ iss.members, s.now.guarded t = false)
    (hteams : ∀ p ∈ s.now.teams, p.2.rollback = false ∧ p.2.interval.opened = false) :
    (closeChain s).now.home = s.now.home ∧ ∀ p n, peek (closeChain s) (closeChain s).now p n = peek s s.now p n := by
  obtain ⟨d, hcommit, -, -, hlines⟩ := commitIssue_of_clean hd hj hm
  have hclosed : d.lines.2.2.2.2.2.2 = false := by
    rw [hlines]
    simpa [Chip.lines, Team.opens] using hteams
  rw [closeChain_of_clean hs hd hg, hcommit, noteIntervals_of_lines hclosed]
  exact ⟨congrArg Prod.fst hlines, peek_of_lines hlines rfl rfl⟩

/-! The statement as it stands. -/

/-- A state whose table of teams lists team 0 twice, the second time with an interval that opens. Core 0 has more released lines than
its list holds, and line 0, the oldest, has a dirty word there. -/
def listedTwice : State :=
  { State.reset with
    now := { State.reset.now with
      threads := [(0, { present := true })]
      teams := [(0, { core := some 0 }), (0, { interval := { opened := true } })]
      cores := [(0, { l1 := [(0, { owned := 1, dirty := 1 })], release := List.replicate (Config.releaseLines + 1) 0 })]
      home := [(0, { owner := some 0, owned := 1 })] }
    issue := some { members := [0], pc := 0 } }

theorem Sparse.get_cons {ν : Type} (d : ν) (p : Nat × ν) (m : Sparse ν) (k : Nat) :
    Sparse.get d (p :: m) k = if p.1 = k then p.2 else Sparse.get d m k := by
  simp only [Sparse.get, Sparse.find?]
  split <;> rfl

/-- Closing its chain notes the interval of the second entry, which trims core 0's list: line 0 is written back. -/
theorem home_closeChain_listedTwice : (closeChain listedTwice).now.home.map (fun p => p.2.dirty) = [1] := by decide +kernel

/-- Refutes O51: where a table lists a team twice, the team that its number reads may have no interval that opens while another entry
has one, whose noting writes a released line back to its home. With the condition put on every listed team the statement holds:
`closeChain_commits`, `closeChain_keeps_memory`. -/
theorem not_chainCommits : ¬ Obligations.ChainCommits := by
  intro h
  have hwait (t : Nat) : (listedTwice.now.thread t).waitsOn = none := by
    simp only [listedTwice, Chip.thread, Sparse.get_cons]
    split <;> rfl
  have hquiet (k : Nat) : (listedTwice.now.team k).rollback = false ∧ (listedTwice.now.team k).interval.opened = false := by
    simp only [listedTwice, Chip.team, Sparse.get_cons]
    split <;> exact ⟨rfl, rfl⟩
  obtain ⟨-, -, -, -, -, -, -, -, hkept⟩ := h listedTwice { members := [0], pc := 0 } rfl rfl rfl (List.cons_ne_nil 0 [])
    (fun t ht => by rw [List.mem_singleton.mp ht]; exact ⟨rfl, rfl⟩) hwait
  have hhome := home_closeChain_listedTwice
  rw [(hkept hquiet).1] at hhome
  exact absurd hhome (by decide)

end Sys2Proof.Machine
end

section
/-! The integer words of majors 0x01 and 0x02 (O4): the values that the model computes on words are those that 05 R96 and R97 state on the
integers they stand for. -/

namespace Sys2Proof.Machine

section
variable (x y : Word)

/-- The signed minimum (05 R96). -/
theorem signedMin_eq_ofInt : (if x.sle y then x else y) = BitVec.ofInt 32 (min x.toInt y.toInt) := by
  simp only [min_def, apply_ite (BitVec.ofInt 32), BitVec.ofInt_toInt, BitVec.sle_iff_toInt_le]

/-- The signed maximum (05 R96). -/
theorem signedMax_eq_ofInt : (if y.sle x then x else y) = BitVec.ofInt 32 (max x.toInt y.toInt) := by
  simp only [max_def', apply_ite (BitVec.ofInt 32), BitVec.ofInt_toInt, BitVec.sle_iff_toInt_le]

/-- The unsigned minimum (05 R96). -/
theorem unsignedMin_eq_ofNat : (if x.ule y then x else y) = BitVec.ofNat 32 (min x.toNat y.toNat) := by
  simp only [min_def, apply_ite (BitVec.ofNat 32), BitVec.ofNat_toNat, BitVec.setWidth_eq, BitVec.ule_iff_toNat_le]

/-- The unsigned maximum (05 R96). -/
theorem unsignedMax_eq_ofNat : (if y.ule x then x else y) = BitVec.ofNat 32 (max x.toNat y.toNat) := by
  simp only [max_def', apply_ite (BitVec.ofNat 32), BitVec.ofNat_toNat, BitVec.setWidth_eq, BitVec.ule_iff_toNat_le]

/-- The distance of two signed numbers, which the model takes as a natural number (05 R96). -/
theorem absDiff_eq_ofInt : absDiff x y = BitVec.ofInt 32 |x.toInt - y.toInt| := by
  rw [absDiff, ← Int.natCast_natAbs, BitVec.ofInt_natCast]

/-- The negation, which wraps (05 R96). -/
theorem zero_sub_eq_ofInt : 0 - x = BitVec.ofInt 32 (-x.toInt) := by
  rw [BitVec.ofInt_neg, BitVec.ofInt_toInt, zero_sub]

/-- The low half of the unsigned product, and so of the signed one (05 R97). -/
theorem mul_eq_ofNat : x * y = BitVec.ofNat 32 (x.toNat * y.toNat) := by
  simp only [BitVec.ofNat_mul, BitVec.ofNat_toNat, BitVec.setWidth_eq]

/-- The high half of a number of 64 bits is its quotient by 2^32, rounded down. -/
theorem highHalf_ofInt (n : Int) : (BitVec.ofInt 64 n).extractLsb' 32 32 = BitVec.ofInt 32 (n / 2 ^ 32) := by
  apply BitVec.eq_of_toNat_eq
  simp only [BitVec.extractLsb'_toNat, BitVec.toNat_ofInt, Nat.shiftRight_eq_div_pow]
  omega

/-- The remainder that the model takes from the quotient has the sign of the dividend (04 R83). -/
theorem remS_eq_tmod : remS x y = if y = 0 then x else BitVec.ofInt 32 (x.toInt.tmod y.toInt) := by
  rw [remS, Int.tmod_def, Int.mul_comm]

end

/-- Settles O4: each word is of one of the forms of `Laws.Words`, and its function is the stated one. -/
theorem integerWords : Obligations.IntegerWords := by
  intro c u d a b
  refine ⟨?iadd, ?isub, ?iminS32, ?imaxS32, ?iminN32, ?imaxN32, ?iabsd, ?ineg, ?imul, ?imulhS32, ?imulhN32, ?imad, ?idivS32, ?idivN32,
    ?iremS32, ?iremN32⟩
  case iadd => exact binary_of (exec_iadd c u d a b) rfl fun _ _ => rfl
  case isub => exact binary_of (exec_isub c u d a b) rfl fun _ _ => rfl
  case iminS32 => exact binary_of (exec_iminS32 c u d a b) rfl signedMin_eq_ofInt
  case imaxS32 => exact binary_of (exec_imaxS32 c u d a b) rfl signedMax_eq_ofInt
  case iminN32 => exact binary_of (exec_iminN32 c u d a b) rfl unsignedMin_eq_ofNat
  case imaxN32 => exact binary_of (exec_imaxN32 c u d a b) rfl unsignedMax_eq_ofNat
  case iabsd => exact binary_of (exec_iabsd c u d a b) rfl absDiff_eq_ofInt
  case ineg => exact unary_of (exec_ineg c u d a) rfl zero_sub_eq_ofInt
  case imul => exact binary_of (exec_imul c u d a b) rfl mul_eq_ofNat
  case imulhS32 => exact binary_of (exec_imulhS32 c u d a b) rfl fun _ _ => highHalf_ofInt _
  case imulhN32 => exact binary_of (exec_imulhN32 c u d a b) rfl fun _ _ => rfl
  case imad => exact ternary_of (exec_imad c u d a b) rfl fun z x y => BitVec.add_comm z (x * y)
  case idivS32 => exact binary_of (exec_idivS32 c u d a b) rfl fun _ _ => rfl
  case idivN32 => exact binary_of (exec_idivN32 c u d a b) rfl fun _ _ => rfl
  case iremS32 => exact binary_of (exec_iremS32 c u d a b) rfl remS_eq_tmod
  case iremN32 => exact binary_of (exec_iremN32 c u d a b) rfl fun _ _ => rfl

end Sys2Proof.Machine
end

section
/-! The codec of the float formats (O15): in a format with infinities and full mantissas (04 R66) the value of an encoding that is not NaN,
rounded to the format, gives the encoding back. Said for every such format and mode; F32 under rn is the case that the registers use. -/

namespace Sys2Proof.Machine

/-- A format of the layout of IEEE 754: infinities at the highest exponent field, every encoding below them a number (04 R66). -/
structure Fmt.Ieee (f : Fmt) : Prop where
  hasInf : f.hasInf = true
  two_le_eb : 2 ≤ f.eb
  maxM : f.maxM + 1 = 2 ^ (f.mb + 1)
  maxQ : f.maxQ = 2 ^ f.eb - 2 - f.bias - f.mb

theorem ieee_fmtF32 : fmtF32.Ieee := ⟨rfl, by decide, by decide, by decide⟩

/-- A mantissa and an exponent of the last place that an encoding of the format can have: a hidden bit, or the subnormal spacing. -/
structure Fmt.Fits (f : Fmt) (m : Nat) (q : Int) : Prop where
  mantissa_lt : m < 2 ^ (f.mb + 1)
  spacing_le : 1 - (f.bias : Int) - f.mb ≤ q
  le_maxQ : q ≤ f.maxQ
  normal_or_subnormal : 2 ^ f.mb ≤ m ∨ q = 1 - (f.bias : Int) - f.mb

section
variable {f : Fmt} {m : Nat} {q : Int}

/-- The spacing that rounding takes for a number of the format is the number's own. -/
theorem Fmt.Fits.spacing (h : f.Fits m q) (hm : m ≠ 0) : max (q + Nat.log2 m - f.mb) (1 - (f.bias : Int) - f.mb) = q := by
  obtain ⟨hlt, hle, -, hn | hs⟩ := h
  · have hlog : Nat.log2 m = f.mb := (Nat.log2_eq_iff hm).mpr ⟨hn, hlt⟩
    omega
  · have hlog : Nat.log2 m < f.mb + 1 := (Nat.log2_lt hm).mpr hlt
    omega

/-- A number at its own spacing is not changed by rounding. -/
theorem roundAt_self (mode : Mode) (neg : Bool) : roundAt mode neg m q q = m := by
  simp [roundAt]

/-- A number of the format is not above the largest. -/
theorem Fmt.Fits.not_above (h : f.Fits m q) (hf : f.Ieee) : f.above m q = false := by
  obtain ⟨hlt, -, hq, -⟩ := h
  have hle : m ≤ f.maxM := by have := hf.maxM; omega
  rw [Fmt.above, if_pos hq, decide_eq_false_iff_not, Nat.not_lt]
  exact hle.trans (Nat.le_mul_of_pos_right _ (Nat.two_pow_pos _))

/-- Rounding a number of the format encodes it, whatever the mode (04 R71). -/
theorem Fmt.Fits.roundF_eq (h : f.Fits m q) (hf : f.Ieee) (mode : Mode) (sat neg : Bool) :
    roundF f mode sat (.fin neg m q) = f.encodeFin neg m q := by
  by_cases hm : m = 0
  · subst hm
    simp [roundF, Fmt.encodeFin]
  · simp only [roundF, if_neg hm, h.spacing hm, roundAt_self, h.not_above hf, Bool.false_eq_true, if_false]

/-- The encoding of a number with its hidden bit: the exponent field holds the biased exponent. -/
theorem Fmt.encodeFin_normal (neg : Bool) (m e : Nat) (hm : m < 2 ^ f.mb) :
    f.encodeFin neg (2 ^ f.mb + m) ((e : Int) - f.bias - f.mb) = f.signBits neg + e * 2 ^ f.mb + m := by
  have hne : 2 ^ f.mb + m ≠ 2 ^ (f.mb + 1) := by rw [Nat.pow_succ]; omega
  have he : ((e : Int) - f.bias - f.mb + f.mb + f.bias).toNat = e := by omega
  simp only [Fmt.encodeFin, if_neg (Nat.not_lt.mpr (Nat.le_add_right _ _)), if_neg hne, he, Nat.add_sub_cancel_left]

/-- An encoding is its sign, its exponent field and its mantissa field (04 R66). -/
theorem Fmt.parts (f : Fmt) {x : Nat} (hx : x < 2 ^ (f.eb + f.mb + 1)) :
    f.signBits (bitAt x (f.eb + f.mb)) + fieldNat x f.mb f.eb * 2 ^ f.mb + fieldNat x 0 f.mb = x := by
  have hsign : f.signBits (bitAt x (f.eb + f.mb)) = fieldNat x (f.eb + f.mb) 1 * 2 ^ (f.eb + f.mb) := by
    rw [fieldNat_bit, Fmt.signBits]
    cases bitAt x (f.eb + f.mb) <;> simp [bitNat]
  have htop := Tile.mod_eq_field_add x (f.eb + f.mb) 1
  have hmid := Tile.mod_eq_field_add x f.mb f.eb
  have hlow : fieldNat x 0 f.mb = x % 2 ^ f.mb := by simp [fieldNat]
  rw [Nat.mod_eq_of_lt hx] at htop
  rw [Nat.add_comm f.mb f.eb] at hmid
  rw [hsign, hlow]
  omega

/-- The numbers of exponent field 0, the subnormals and the zeros. -/
theorem Fmt.Ieee.fits_subnormal (hf : f.Ieee) (hm : m < 2 ^ f.mb) : f.Fits m (1 - (f.bias : Int) - f.mb) := by
  have hmax := hf.maxQ
  have heb : (2 : Int) ^ 2 ≤ 2 ^ f.eb := pow_le_pow_right₀ (by decide) hf.two_le_eb
  exact ⟨by rw [Nat.pow_succ]; omega, le_rfl, by omega, .inr rfl⟩

/-- The numbers of the exponent fields between the lowest and the highest. -/
theorem Fmt.Ieee.fits_normal (hf : f.Ieee) {e : Nat} (hm : m < 2 ^ f.mb) (hlow : e ≠ 0) (hhigh : e < 2 ^ f.eb - 1) :
    f.Fits (2 ^ f.mb + m) ((e : Int) - f.bias - f.mb) := by
  have hmax := hf.maxQ
  have he : (e : Int) + 2 ≤ 2 ^ f.eb := by exact_mod_cast (show e + 2 ≤ 2 ^ f.eb by omega)
  exact ⟨by rw [Nat.pow_succ]; omega, by omega, by omega, .inl (Nat.le_add_right _ _)⟩

/-- An infinity keeps its encoding under rn (04 R71). -/
theorem Fmt.Ieee.roundF_inf (hf : f.Ieee) (neg : Bool) :
    roundF f .rn false (.inf neg) = f.signBits neg + (2 ^ f.eb - 1) * 2 ^ f.mb := by
  simp [roundF, Fmt.overflow, Fmt.infBits, hf.hasInf]

/-- The value of an encoding by its exponent field: the subnormals, the infinities and the NaNs, the numbers between. -/
theorem Fmt.Ieee.value_eq (hf : f.Ieee) (x : Nat) : f.value x =
    if fieldNat x f.mb f.eb = 0 then .fin (bitAt x (f.eb + f.mb)) (fieldNat x 0 f.mb) (1 - f.bias - f.mb)
    else if fieldNat x f.mb f.eb = 2 ^ f.eb - 1 then if fieldNat x 0 f.mb = 0 then .inf (bitAt x (f.eb + f.mb)) else .nan
    else .fin (bitAt x (f.eb + f.mb)) (2 ^ f.mb + fieldNat x 0 f.mb) (fieldNat x f.mb f.eb - f.bias - f.mb) := by
  simp only [Fmt.value, hf.hasInf, and_true]
  split_ifs with h0 htop hm hnan
  · rfl
  · rfl
  · rfl
  · exact absurd hnan.1 htop
  · rfl

/-- The value of an encoding that is not NaN, rounded to the format under rn, is the encoding. -/
theorem Fmt.Ieee.roundF_value (hf : f.Ieee) {x : Nat} (hx : x < 2 ^ (f.eb + f.mb + 1)) (hn : (f.value x).isNan = false) :
    roundF f .rn false (f.value x) = x := by
  have hparts := f.parts hx
  have he : fieldNat x f.mb f.eb < 2 ^ f.eb := Nat.mod_lt _ (Nat.two_pow_pos _)
  have hm : fieldNat x 0 f.mb < 2 ^ f.mb := Nat.mod_lt _ (Nat.two_pow_pos _)
  rw [hf.value_eq] at hn ⊢
  split_ifs at hn ⊢ with h0 htop hzero
  · rw [(hf.fits_subnormal hm).roundF_eq hf, Fmt.encodeFin, if_pos hm]
    rwa [h0, Nat.zero_mul] at hparts
  · rw [hf.roundF_inf]
    rwa [htop, hzero, Nat.add_zero] at hparts
  · exact nomatch hn
  · rw [(hf.fits_normal hm h0 (by omega)).roundF_eq hf, Fmt.encodeFin_normal _ _ _ hm, hparts]

end

theorem Val.isNan_iff {v : Val} : v.isNan = true ↔ v = .nan := by
  cases v <;> simp [Val.isNan]

/-- Settles O15: F32 is a format of the layout of IEEE 754, and a NaN is one value, which has one encoding. -/
theorem floatRoundTrip : Obligations.FloatRoundTrip := by
  intro x
  refine ⟨fun hn => ?_, fun hn => ?_⟩
  · rw [toF32, f32, ieee_fmtF32.roundF_value x.isLt hn, BitVec.ofNat_toNat, BitVec.setWidth_eq]
  · rw [Val.isNan_iff.mp hn]
    rfl

end Sys2Proof.Machine
end

section
/-! The integer words of majors 0x03 to 0x05 (O5, O6): shifts and sums that the model computes on words are those that 05 R98 to R101 state on
the integers they stand for, a shift count being taken whole. -/

namespace Sys2Proof.Machine

section
variable {w : Nat}

/-- A left shift is the product by a power of two that the width holds: a count at or above the width leaves nothing of it (05 R101). -/
theorem shiftLeft_eq_ofNat (x : BitVec w) (n : Nat) : shiftLeft x n = BitVec.ofNat w (x.toNat * 2 ^ n) := by
  have hmul (k : Nat) : x <<< k = BitVec.ofNat w (x.toNat * 2 ^ k) :=
    BitVec.eq_of_toNat_eq (by rw [BitVec.toNat_shiftLeft, BitVec.toNat_ofNat, Nat.shiftLeft_eq])
  rw [shiftLeft, ← hmul]
  rcases Nat.le_total n w with hn | hn
  · rw [Nat.min_eq_left hn]
  · rw [Nat.min_eq_right hn, BitVec.shiftLeft_eq_zero hn, BitVec.shiftLeft_eq_zero le_rfl]

/-- A logical right shift is the quotient by a power of two (05 R101). -/
theorem ushiftRight_eq_ofNat (x : BitVec w) (n : Nat) : x >>> n = BitVec.ofNat w (x.toNat / 2 ^ n) := by
  rw [← Nat.shiftRight_eq_div_pow, ← BitVec.toNat_ushiftRight, BitVec.ofNat_toNat, BitVec.setWidth_eq]

/-- An arithmetic right shift is the quotient rounded down (05 R101). -/
theorem sshiftRight_eq_ofInt (x : BitVec w) (n : Nat) : x.sshiftRight n = BitVec.ofInt w (x.toInt / 2 ^ n) := by
  have hdiv : x.toInt / 2 ^ n = (x.sshiftRight n).toInt := by
    rw [BitVec.toInt_sshiftRight, Int.shiftRight_eq_div_pow, Int.natCast_pow, Nat.cast_ofNat]
  rw [hdiv, BitVec.ofInt_toInt]

/-- A signed product added to a word (05 R98). -/
theorem add_ofInt_eq (z : BitVec w) (n : Int) : z + BitVec.ofInt w n = BitVec.ofInt w (n + z.toInt) := by
  rw [BitVec.ofInt_add, BitVec.ofInt_toInt, BitVec.add_comm]

/-- An unsigned product added to a word (05 R98). -/
theorem add_ofNat_eq (z : BitVec w) (n : Nat) : z + BitVec.ofNat w n = BitVec.ofNat w (n + z.toNat) := by
  rw [BitVec.ofNat_add, BitVec.ofNat_toNat, BitVec.setWidth_eq, BitVec.add_comm]

end

section
variable {i : Instr} {c u : Bool}

/-- A meaning that writes one result to a register pair in each thread. -/
theorem does_of_pair {d : Nat} {f g : Chip → Nat → BitVec 64}
    (he : ∀ s, exec i s = runWord i noCheck (perThread u (fun pre l t m => m.writeVV t d (g pre l) tagInt)) s)
    (hc : (opInfo i).c = c) (hfg : ∀ pre l, g pre l = f pre l) :
    Does i c always (perThread u (fun pre l t m => m.writeVV t d (f pre l) tagInt)) :=
  does_of_noCheck he hc (perThread_congr fun pre l t m => by rw [hfg])

end

/-- Settles O5: each word writes one result to its pair, and that result is the stated one. -/
theorem pairWords : Obligations.PairWords := by
  intro c u d a b p q
  refine ⟨?iaddD, ?isubD, ?imulD, ?imadwS32, ?imadwN32, ?shlD, ?shrD, ?sarD⟩
  case iaddD => exact does_of_pair (exec_iaddD c u d a b) rfl fun _ _ => rfl
  case isubD => exact does_of_pair (exec_isubD c u d a b) rfl fun _ _ => rfl
  case imulD => exact does_of_pair (exec_imulD c u d a b) rfl fun _ _ => rfl
  case imadwS32 => exact does_of_pair (exec_imadwS32 c u d p q) rfl fun _ _ => add_ofInt_eq _ _
  case imadwN32 => exact does_of_pair (exec_imadwN32 c u d p q) rfl fun _ _ => add_ofNat_eq _ _
  case shlD => exact does_of_pair (exec_shlD c u d a q) rfl fun _ _ => shiftLeft_eq_ofNat _ _
  case shrD => exact does_of_pair (exec_shrD c u d a q) rfl fun _ _ => ushiftRight_eq_ofNat _ _
  case sarD => exact does_of_pair (exec_sarD c u d a q) rfl fun _ _ => sshiftRight_eq_ofInt _ _

/-- Settles O6: each word is of one of the forms of `Laws.Words`, and its function is the stated one. -/
theorem logicWords : Obligations.LogicWords := by
  intro c u d a b
  refine ⟨?and, ?or, ?xor, ?andn, ?orn, ?xnor, ?not, ?mov, ?shl, ?shr, ?sar, ?rotl, ?popc, ?clz, ?brev, ?ffs⟩
  case and => exact binary_of (exec_and c u d a b) rfl fun _ _ => rfl
  case or => exact binary_of (exec_or c u d a b) rfl fun _ _ => rfl
  case xor => exact binary_of (exec_xor c u d a b) rfl fun _ _ => rfl
  case andn => exact binary_of (exec_andn c u d a b) rfl fun _ _ => rfl
  case orn => exact binary_of (exec_orn c u d a b) rfl fun _ _ => rfl
  case xnor => exact binary_of (exec_xnor c u d a b) rfl fun _ _ => rfl
  case not => exact unary_of (exec_not c u d a) rfl fun _ => rfl
  case mov => exact does_of_noCheck (exec_mov c u d a) rfl rfl
  case shl => exact binary_of (exec_shl c u d a b) rfl fun x y => shiftLeft_eq_ofNat x y.toNat
  case shr => exact binary_of (exec_shr c u d a b) rfl fun x y => ushiftRight_eq_ofNat x y.toNat
  case sar => exact binary_of (exec_sar c u d a b) rfl fun x y => sshiftRight_eq_ofInt x y.toNat
  case rotl => exact binary_of (exec_rotl c u d a b) rfl fun _ _ => rfl
  case popc => exact unary_of (exec_popc c u d a) rfl fun _ => rfl
  case clz => exact unary_of (exec_clz c u d a) rfl fun _ => rfl
  case brev => exact unary_of (exec_brev c u d a) rfl fun _ => rfl
  case ffs => exact unary_of (exec_ffs c u d a) rfl fun _ => rfl

end Sys2Proof.Machine
end

section
/-! The bits that the words of majors 0x05 and 0x06 count and move (O7 to O9; 05 R100, R102): what a search, a union of words or a sum of
powers of two over a range gives, and then each function of the model by its bits. -/

namespace Sys2Proof.Machine

/-- A search through a range finds its first number that passes. -/
theorem findIdx?_range_eq_some {p : Nat → Bool} {n j : Nat} :
    (List.range n).findIdx? p = some j ↔ j < n ∧ p j = true ∧ ∀ k < j, p k = false := by
  simp [List.findIdx?_eq_some_iff_getElem, and_left_comm]

/-- Bits of words united one after the other. -/
theorem getLsbD_foldl_or {w : Nat} (f : Nat → BitVec w) (l : List Nat) (r : BitVec w) (k : Nat) :
    (l.foldl (fun r j => r ||| f j) r).getLsbD k = (r.getLsbD k || l.any fun j => (f j).getLsbD k) := by
  induction l generalizing r with
  | nil => simp
  | cons j l ih => rw [List.foldl_cons, ih, BitVec.getLsbD_or, List.any_cons, Bool.or_assoc]

/-- Of words united over a range one alone has a given bit. -/
theorem getLsbD_foldl_or_range {w : Nat} (f : Nat → BitVec w) {n m k : Nat} (hm : m < n) (h : ∀ j, j ≠ m → (f j).getLsbD k = false) :
    ((List.range n).foldl (fun r j => r ||| f j) 0).getLsbD k = (f m).getLsbD k := by
  rw [getLsbD_foldl_or, BitVec.ofNat_eq_ofNat, BitVec.getLsbD_zero, Bool.false_or, Bool.eq_iff_iff, List.any_eq_true]
  constructor
  · rintro ⟨j, -, hj⟩
    obtain rfl : j = m := by_contra fun hne => by simp [h j hne] at hj
    exact hj
  · exact fun hk => ⟨m, List.mem_range.mpr hm, hk⟩

/-- The number whose bits below a length are given, as a sum of powers of two. -/
def sumBits (p : Nat → Bool) (len : Nat) : Nat := (List.range len).foldl (fun n j => if p j then n + 2 ^ j else n) 0

theorem sumBits_succ (p : Nat → Bool) (len : Nat) : sumBits p (len + 1) = sumBits p len + if p len then 2 ^ len else 0 := by
  simp only [sumBits, List.range_succ, List.foldl_append, List.foldl_cons, List.foldl_nil]
  split <;> rfl

theorem sumBits_lt (p : Nat → Bool) (len : Nat) : sumBits p len < 2 ^ len := by
  induction len with
  | zero => exact Nat.one_pos
  | succ len ih =>
    rw [sumBits_succ, Nat.pow_succ]
    split <;> omega

/-- Each bit added is above the sum of those before it. -/
theorem testBit_sumBits (p : Nat → Bool) (len j : Nat) : (sumBits p len).testBit j = (decide (j < len) && p j) := by
  induction len with
  | zero => simp [sumBits]
  | succ len ih =>
    have htop : (if p len then 2 ^ len else 0 : Nat) = 2 ^ len * (p len).toNat := by cases p len <;> simp
    rw [sumBits_succ, htop, Nat.add_comm, Nat.testBit_two_pow_mul_add _ (sumBits_lt p len), ih]
    rcases Nat.lt_trichotomy j len with hj | rfl | hj
    · simp [hj, hj.trans (Nat.lt_succ_self len)]
    · cases p j <;> simp
    · simp [hj.asymm, hj.not_ge, Nat.testBit_bool_toNat, Nat.sub_ne_zero_of_lt hj]

/-! Bit counts (05 R100). -/

theorem popCount_eq_card (x : Word) : popCount x = (Finset.univ.filter (fun j : Fin 32 => x.getLsbD j = true)).card := by
  rw [popCount, ← List.toFinset_card_of_nodup (List.nodup_range.filter _), List.toFinset_filter, List.toFinset_range, Finset.card_filter,
    Finset.card_filter, Fin.sum_univ_eq_sum_range fun j => if x.getLsbD j = true then 1 else 0]

theorem leadingZeros_zero : leadingZeros 0 = 32 := by decide

/-- CLZ of a word with a highest 1 bit: the bits above it are zero. -/
theorem leadingZeros_of_ne_zero {x : Word} (hx : x ≠ 0) : leadingZeros x = 31 - Nat.log2 x.toNat := by
  have hn : x.toNat ≠ 0 := fun h => hx (BitVec.eq_of_toNat_eq h)
  have hlog : Nat.log2 x.toNat < 32 := (Nat.log2_lt hn).mpr x.isLt
  have hfind : (List.range 32).findIdx? (fun j => x.getLsbD (31 - j)) = some (31 - Nat.log2 x.toNat) := by
    refine findIdx?_range_eq_some.mpr ⟨by omega, ?_, fun k hk => ?_⟩
    · rw [show 31 - (31 - Nat.log2 x.toNat) = Nat.log2 x.toNat by omega]
      exact Nat.testBit_log2 hn
    · exact Nat.testBit_lt_two_pow (Nat.lt_log2_self.trans_le (Nat.pow_le_pow_right Nat.two_pos (by omega)))
  rw [leadingZeros, hfind, Option.getD_some]

/-- The word that BREV unites for a bit: the bit at its mirror. -/
def mirrored (x : Word) (j : Nat) : Word := if x.getLsbD j then BitVec.ofNat 32 (2 ^ (31 - j)) else 0

theorem bitReverse_eq (x : Word) : bitReverse x = (List.range 32).foldl (fun r j => r ||| mirrored x j) 0 := by
  unfold bitReverse mirrored
  congr 1
  funext r j
  split
  · rfl
  · exact BitVec.or_zero.symm

theorem getLsbD_mirrored (x : Word) (k : Nat) {j : Nat} (hj : j < 32) :
    (mirrored x k).getLsbD j = (x.getLsbD k && decide (31 - k = j)) := by
  unfold mirrored
  cases x.getLsbD k with
  | false => exact BitVec.getLsbD_zero
  | true => rw [if_pos rfl, BitVec.getLsbD_ofNat, Nat.testBit_two_pow, decide_eq_true hj]

/-- BREV moves bit j to bit 31 − j. -/
theorem getLsbD_bitReverse (x : Word) {j : Nat} (hj : j < 32) : (bitReverse x).getLsbD (31 - j) = x.getLsbD j := by
  have hother (k : Nat) (hk : k ≠ j) : (mirrored x k).getLsbD (31 - j) = false := by
    rw [getLsbD_mirrored x k (by omega), Bool.and_eq_false_iff, decide_eq_false_iff_not]
    rcases Nat.lt_or_ge k 32 with hlt | hge
    · exact .inr (by omega)
    · exact .inl (BitVec.getLsbD_of_ge x k hge)
  rw [bitReverse_eq, getLsbD_foldl_or_range _ hj hother, getLsbD_mirrored x j (by omega), decide_eq_true rfl, Bool.and_true]

theorem findFirst_zero : findFirst 0 = BitVec.allOnes 32 := by decide

theorem findFirst_of_first {x : Word} {j : Nat} (hj : j < 32) (h : x.getLsbD j = true) (hlow : ∀ k < j, x.getLsbD k = false) :
    findFirst x = BitVec.ofNat 32 j := by
  rw [findFirst, findIdx?_range_eq_some.mpr ⟨hj, h, hlow⟩]

/-- Settles O7: POPC counts through a finite set, CLZ and FFS search, and BREV unites one bit for each bit of its operand. -/
theorem bitCounts : Obligations.BitCounts := by
  intro x
  refine ⟨popCount_eq_card x, ?_, fun j => getLsbD_bitReverse x, ?_, fun j => findFirst_of_first⟩
  · split_ifs with hx
    · rw [hx, leadingZeros_zero]
    · exact leadingZeros_of_ne_zero hx
  · rintro rfl
    exact findFirst_zero

/-! Bit fields (05 R102). -/

theorem testBit_fieldNat (x lo len j : Nat) : (fieldNat x lo len).testBit j = (decide (j < len) && x.testBit (lo + j)) := by
  rw [fieldNat, Nat.testBit_mod_two_pow, Nat.testBit_div_two_pow, Nat.add_comm]

theorem fieldLen_le (y : Word) : fieldLen y ≤ 32 := Nat.min_le_right _ _

/-- Bit `j` of the field that BFX reads: beyond bit 31 the sign or 0. -/
def fieldBit (signed : Bool) (x y : Word) (j : Nat) : Bool :=
  if fieldPos y + j ≤ 31 then x.getLsbD (fieldPos y + j) else signed && x.getLsbD 31

theorem fieldBit_signed (x y : Word) (j : Nat) : fieldBit true x y j = x.getLsbD (min 31 (fieldPos y + j)) := by
  unfold fieldBit
  split
  · next h => rw [Nat.min_eq_right h]
  · next h => rw [Nat.min_eq_left (by omega), Bool.true_and]

theorem fieldBit_unsigned (x y : Word) (j : Nat) : fieldBit false x y j = (decide (fieldPos y + j ≤ 31) && x.getLsbD (fieldPos y + j)) := by
  unfold fieldBit
  split <;> simp [*]

theorem fieldExtract_of_empty (signed : Bool) (x : Word) {y : Word} (h : fieldLen y = 0) : fieldExtract signed x y = 0 := if_pos h

theorem fieldExtract_unsigned (x y : Word) : fieldExtract false x y = BitVec.ofNat 32 (sumBits (fieldBit false x y) (fieldLen y)) := by
  by_cases h : fieldLen y = 0
  · rw [fieldExtract_of_empty _ _ h, h]; rfl
  · exact if_neg h

theorem fieldExtract_signed (x : Word) {y : Word} (h : fieldLen y ≠ 0) :
    fieldExtract true x y = BitVec.ofInt 32 (signedNat (sumBits (fieldBit true x y) (fieldLen y)) (fieldLen y)) := if_neg h

/-- A number of `len` bits as one of two's complement, extended to a word. -/
theorem ofInt_signedNat {f len : Nat} (hlen : 0 < len) (hf : f < 2 ^ len) (w : Nat) :
    BitVec.ofInt w (signedNat f len) = (BitVec.ofNat len f).signExtend w := by
  have hmsb : (BitVec.ofNat len f).msb = bitAt f (len - 1) := by
    rw [BitVec.msb_eq_getLsbD_last, BitVec.getLsbD_ofNat, decide_eq_true (by omega), Bool.true_and, Nat.testBit_eq_decide_div_mod_eq]
    rfl
  have hint : signedNat f len = (BitVec.ofNat len f).toInt := by
    rw [signedNat, BitVec.toInt_eq_msb_cond, BitVec.toNat_ofNat, Nat.mod_eq_of_lt hf, hmsb, Nat.cast_pow, Nat.cast_ofNat]
  rw [hint, BitVec.signExtend]

theorem getLsbD_fieldExtract_unsigned (x y : Word) {j : Nat} (hj : j < 32) :
    (fieldExtract false x y).getLsbD j = (decide (j < fieldLen y) && fieldBit false x y j) := by
  rw [fieldExtract_unsigned, BitVec.getLsbD_ofNat, testBit_sumBits, decide_eq_true hj, Bool.true_and]

/-- BFX.s32 repeats the field's top bit above the field. -/
theorem getLsbD_fieldExtract_signed (x : Word) {y : Word} {j : Nat} (hj : j < 32) (h : 0 < fieldLen y) :
    (fieldExtract true x y).getLsbD j = fieldBit true x y (min j (fieldLen y - 1)) := by
  rw [fieldExtract_signed x h.ne', ofInt_signedNat h (sumBits_lt _ _), BitVec.getLsbD_signExtend, decide_eq_true hj, Bool.true_and]
  split
  · next hlow => rw [Nat.min_eq_left (by omega), BitVec.getLsbD_ofNat, testBit_sumBits, decide_eq_true hlow, Bool.true_and, Bool.true_and]
  · next hhigh =>
    have htop : decide (fieldLen y - 1 < fieldLen y) = true := decide_eq_true (by omega)
    rw [Nat.min_eq_right (by omega), BitVec.msb_eq_getLsbD_last, BitVec.getLsbD_ofNat, testBit_sumBits, htop, Bool.true_and, Bool.true_and]

/-- The bits that BFI replaces. -/
def fieldMask (y : Word) : Word := BitVec.ofNat 32 ((2 ^ fieldLen y - 1) * 2 ^ fieldPos y)

theorem getLsbD_fieldMask (y : Word) {j : Nat} (hj : j < 32) :
    (fieldMask y).getLsbD j = decide (fieldPos y ≤ j ∧ j < fieldPos y + fieldLen y) := by
  rw [fieldMask, BitVec.getLsbD_ofNat, Nat.testBit_mul_two_pow, Nat.testBit_two_pow_sub_one, decide_eq_true hj, Bool.true_and, ← Bool.decide_and]
  exact decide_eq_decide.mpr (by omega)

/-- BFI replaces exactly the field's bits. -/
theorem getLsbD_fieldInsert (z x y : Word) {j : Nat} (hj : j < 32) : (fieldInsert z x y).getLsbD j =
    if fieldPos y ≤ j ∧ j < fieldPos y + fieldLen y then x.getLsbD (j - fieldPos y) else z.getLsbD j := by
  have hinsert : fieldInsert z x y = (z &&& ~~~fieldMask y) ||| ((x <<< fieldPos y) &&& fieldMask y) := rfl
  have hmask := getLsbD_fieldMask y hj
  rw [hinsert, BitVec.getLsbD_or, BitVec.getLsbD_and, BitVec.getLsbD_and, BitVec.getLsbD_not, BitVec.getLsbD_shiftLeft, hmask]
  split <;> simp [*]

/-! Bytes permuted (05 R102). -/

/-- A source byte of PERM: bytes 0 to 3 of the operand, 4 to 7 of the old destination. -/
def sourceByte (z x : Word) (n : Nat) : Nat := if n % 8 < 4 then elem x 8 (n % 4) else elem z 8 (n % 4)

/-- Byte `j` of the result of PERM: the byte that its selector names, or that byte's sign in every bit. -/
def permutedByte (z x y : Word) (j : Nat) : Nat :=
  let n := fieldNat y.toNat (4 * j) 4
  if 8 ≤ n then (if 128 ≤ sourceByte z x n then 255 else 0) else sourceByte z x n

theorem permute_eq (z x y : Word) : permute z x y =
    (List.range 4).foldl (fun r j => r ||| BitVec.ofNat 32 (permutedByte z x y j * 2 ^ (8 * j))) 0 := rfl

theorem sourceByte_lt (z x : Word) (n : Nat) : sourceByte z x n < 256 := by
  unfold sourceByte
  split <;> exact Nat.mod_lt _ (by decide)

theorem testBit_sourceByte (z x : Word) (n : Nat) {j : Nat} (hj : j < 8) :
    (sourceByte z x n).testBit j = (if n % 8 < 4 then x else z).getLsbD (8 * (n % 4) + j) := by
  unfold sourceByte
  split <;> rw [elem, testBit_fieldNat, decide_eq_true hj, Bool.true_and] <;> rfl

theorem permutedByte_lt (z x y : Word) (j : Nat) : permutedByte z x y j < 2 ^ 8 := by
  have h := sourceByte_lt z x (fieldNat y.toNat (4 * j) 4)
  simp only [permutedByte]
  split_ifs <;> omega

theorem testBit_permutedByte (z x y : Word) (k : Nat) {j : Nat} (hj : j < 8) : (permutedByte z x y k).testBit j =
    let n := fieldNat y.toNat (4 * k) 4
    let src := if n % 8 < 4 then x else z
    if 8 ≤ n then src.getLsbD (8 * (n % 4) + 7) else src.getLsbD (8 * (n % 4) + j) := by
  simp only [permutedByte]
  generalize fieldNat y.toNat (4 * k) 4 = n
  have hlt := sourceByte_lt z x n
  split
  · have hsign : (sourceByte z x n).testBit 7 = decide (128 ≤ sourceByte z x n) := by
      rw [Nat.testBit_eq_decide_div_mod_eq]
      exact decide_eq_decide.mpr (by omega)
    rw [← testBit_sourceByte z x n (by decide), hsign]
    split
    · next h => rw [decide_eq_true h, ← decide_eq_true hj, ← Nat.testBit_two_pow_sub_one]
    · next h => rw [decide_eq_false h, Nat.zero_testBit]
  · exact testBit_sourceByte z x n hj

/-- A byte at its place has no bit outside the place. -/
theorem getLsbD_placedByte {b k j : Nat} (hb : b < 2 ^ 8) (hj : j < 32) :
    (BitVec.ofNat 32 (b * 2 ^ (8 * k))).getLsbD j = (decide (k = j / 8) && b.testBit (j % 8)) := by
  rw [BitVec.getLsbD_ofNat, Nat.testBit_mul_two_pow, decide_eq_true hj, Bool.true_and]
  rcases Nat.lt_trichotomy k (j / 8) with hlt | rfl | hgt
  · rw [Nat.testBit_lt_two_pow (hb.trans_le (Nat.pow_le_pow_right Nat.two_pos (by omega))), decide_eq_false hlt.ne, Bool.and_false, Bool.false_and]
  · rw [show j - 8 * (j / 8) = j % 8 by omega, decide_eq_true (by omega), decide_eq_true rfl]
  · rw [decide_eq_false (by omega), decide_eq_false hgt.ne', Bool.false_and, Bool.false_and]

/-- PERM by its bytes. -/
theorem getLsbD_permute (z x y : Word) {j : Nat} (hj : j < 32) :
    (permute z x y).getLsbD j = (permutedByte z x y (j / 8)).testBit (j % 8) := by
  have hother (k : Nat) (hk : k ≠ j / 8) : (BitVec.ofNat 32 (permutedByte z x y k * 2 ^ (8 * k))).getLsbD j = false := by
    rw [getLsbD_placedByte (permutedByte_lt z x y k) hj, decide_eq_false hk, Bool.false_and]
  rw [permute_eq, getLsbD_foldl_or_range _ (by omega) hother, getLsbD_placedByte (permutedByte_lt ..) hj, decide_eq_true rfl, Bool.true_and]

/-- Settles O9: the bits of each function, with `fieldBit` and `permutedByte` read out. The name stands apart from the decoder's `fieldBits`. -/
theorem Integer.fieldBits : Obligations.FieldBits := by
  intro z x y j hj
  refine ⟨?empty, ?unsigned, ?signed, ?aboveUnsigned, ?aboveSigned, ?insert, ?permute⟩
  case empty => exact fun h => ⟨fieldExtract_of_empty _ _ h, fieldExtract_of_empty _ _ h⟩
  case unsigned =>
    intro h
    rw [getLsbD_fieldExtract_unsigned x y hj, decide_eq_true h, Bool.true_and, fieldBit_unsigned]
  case signed =>
    intro h
    rw [getLsbD_fieldExtract_signed x hj (Nat.zero_lt_of_lt h), Nat.min_eq_left (by omega), fieldBit_signed]
  case aboveUnsigned =>
    intro h
    rw [getLsbD_fieldExtract_unsigned x y hj, decide_eq_false (Nat.not_lt.mpr h), Bool.false_and]
  case aboveSigned =>
    intro h0 h
    rw [getLsbD_fieldExtract_signed x hj h0, getLsbD_fieldExtract_signed x (by omega) h0, Nat.min_self, Nat.min_eq_right (by omega)]
  case insert => exact getLsbD_fieldInsert z x y hj
  case permute => rw [getLsbD_permute z x y hj, testBit_permutedByte z x y _ (Nat.mod_lt j (by decide))]

/-! The words of major 0x06. -/

/-- SHF takes the low word of the pair of the operands shifted right (05 R102). -/
theorem funnel_eq_ofNat (z x y : Word) : funnel z x y = BitVec.ofNat 32 ((z.toNat * 2 ^ 32 + x.toNat) / 2 ^ (y.toNat % 32)) := by
  apply BitVec.eq_of_toNat_eq
  rw [funnel, BitVec.extractLsb'_toNat, Nat.shiftRight_zero, BitVec.toNat_ushiftRight, BitVec.toNat_append,
    ← Nat.shiftLeft_add_eq_or_of_lt x.isLt, Nat.shiftLeft_eq, Nat.shiftRight_eq_div_pow, BitVec.toNat_ofNat]

/-- Settles O8: each word is of one of the forms of `Laws.Words`, and its function is the stated one. -/
theorem fieldWords : Obligations.FieldWords := by
  intro c u d a b
  refine ⟨?bfxS32, ?bfxN32, ?bfi, ?perm, ?shf, ?iaddsS32, ?isubsS32, ?iaddsN32⟩
  case bfxS32 => exact binary_of (exec_bfxS32 c u d a b) rfl fun _ _ => rfl
  case bfxN32 => exact binary_of (exec_bfxN32 c u d a b) rfl fun _ _ => rfl
  case bfi => exact ternary_of (exec_bfi c u d a b) rfl fun _ _ _ => rfl
  case perm => exact ternary_of (exec_perm c u d a b) rfl fun _ _ _ => rfl
  case shf => exact ternary_of (exec_shf c u d a b) rfl funnel_eq_ofNat
  case iaddsS32 => exact binary_of (exec_iaddsS32 c u d a b) rfl fun _ _ => rfl
  case isubsS32 => exact binary_of (exec_isubsS32 c u d a b) rfl fun _ _ => rfl
  case iaddsN32 => exact binary_of (exec_iaddsN32 c u d a b) rfl fun _ _ => rfl

end Sys2Proof.Machine
end

section
/-! The words of majors 0x08 to 0x17 (O10 to O12): immediates are sign-extended (05 R103); compares and predicates (05 R106 to R109); masks
(05 R110, R111). -/

namespace Sys2Proof.Machine

/-- The shift that a SHFI names, its count taken whole but for ROTL (05 R103). -/
theorem shiftImm_eq (sc : BitVec 2) (x : Word) (n : Nat) : shiftImm sc x n =
    if sc = 0 then BitVec.ofNat 32 (x.toNat * 2 ^ n) else if sc = 1 then BitVec.ofNat 32 (x.toNat / 2 ^ n)
    else if sc = 2 then BitVec.ofInt 32 (x.toInt / 2 ^ n) else x.rotateLeft (n % 32) := by
  rw [shiftImm, shiftLeft_eq_ofNat, ushiftRight_eq_ofNat, sshiftRight_eq_ofInt, rotate]

/-- MOVHI sets the upper 17 bits and keeps the lower 15 (05 R104). -/
theorem moveHigh_eq_ofNat (z : Word) (imm : BitVec 17) : moveHigh z imm = BitVec.ofNat 32 (imm.toNat * 2 ^ 15 + z.toNat % 2 ^ 15) := by
  have hlow : z.toNat % 2 ^ 15 < 2 ^ 15 := Nat.mod_lt _ (Nat.two_pow_pos 15)
  apply BitVec.eq_of_toNat_eq
  rw [moveHigh, BitVec.toNat_append, BitVec.extractLsb'_toNat, Nat.shiftRight_zero, ← Nat.shiftLeft_add_eq_or_of_lt hlow, Nat.shiftLeft_eq,
    BitVec.toNat_ofNat]
  omega

/-- Settles O10: each word is of one of the forms of `Laws.Words`, and its function is the stated one. -/
theorem immediateWords : Obligations.ImmediateWords := by
  intro c u d a p q imm sc n wide
  refine ⟨?iaddi, ?andi, ?ori, ?xori, ?imuli, ?shfi, ?leai, ?movi, ?movhi, ?kld⟩
  case iaddi => exact unary_of (exec_iaddi c u d a imm) rfl fun _ => rfl
  case andi => exact unary_of (exec_andi c u d a imm) rfl fun _ => rfl
  case ori => exact unary_of (exec_ori c u d a imm) rfl fun _ => rfl
  case xori => exact unary_of (exec_xori c u d a imm) rfl fun _ => rfl
  case imuli => exact unary_of (exec_imuli c u d a imm) rfl fun _ => rfl
  case shfi => exact unary_of (exec_shfi c u d a sc n) rfl fun x => shiftImm_eq sc x n.toNat
  case leai => exact does_of_noCheck (exec_leai c u p q imm) rfl rfl
  case movi => exact does_of_noCheck (exec_movi c u d wide) rfl rfl
  case movhi => exact unary_of (exec_movhi c u d wide) rfl fun z => moveHigh_eq_ofNat z wide
  case kld => exact does_of_noCheck (exec_kld c u d imm) rfl rfl

section
variable (x y : Word)

/-- The conditions of ISETP, in the order of their codes (05 R107). -/
theorem condInt_values :
    condInt 0 x y = decide (x = y) ∧ condInt 1 x y = decide (x ≠ y) ∧ condInt 2 x y = decide (x.toInt < y.toInt) ∧
    condInt 3 x y = decide (x.toInt ≤ y.toInt) ∧ condInt 4 x y = decide (x.toNat < y.toNat) ∧ condInt 5 x y = decide (x.toNat ≤ y.toNat) ∧
    condInt 6 x y = decide (x &&& y ≠ 0) ∧ condInt 7 x y = decide (x &&& y = 0) :=
  ⟨rfl, (decide_not ..).symm, rfl, rfl, rfl, rfl, (decide_not ..).symm, rfl⟩

/-- The combine operations, in the order of their codes (05 R106). -/
theorem combine_values (q b : Bool) : combine 0 q b = b ∧ combine 1 q b = (q && b) ∧ combine 2 q b = (q || b) ∧ combine 3 q b = (q != b) :=
  ⟨rfl, rfl, rfl, rfl⟩
end

section
variable {x y : Word}

/-- With a NaN the operands are unordered: EQ, NE, LT, LE and OD fail, UN, NEU and LTU hold (05 R107). -/
theorem condFloat_of_unordered (h : ((f32 x).isNan || (f32 y).isNan) = true) :
    condFloat 0 x y = false ∧ condFloat 1 x y = false ∧ condFloat 2 x y = false ∧ condFloat 3 x y = false ∧
    condFloat 4 x y = true ∧ condFloat 5 x y = false ∧ condFloat 6 x y = true ∧ condFloat 7 x y = true := by
  simp [condFloat, h]

/-- Without a NaN a condition that admits the unordered case is the ordered one, and NE is the opposite of EQ (05 R107). -/
theorem condFloat_of_ordered (h : ((f32 x).isNan || (f32 y).isNan) = false) :
    condFloat 4 x y = false ∧ condFloat 5 x y = true ∧ condFloat 6 x y = condFloat 1 x y ∧ condFloat 7 x y = condFloat 2 x y ∧
    condFloat 1 x y = (!condFloat 0 x y) := by
  simp [condFloat, h]
end

/-- SELP copies the bits and the tag of the register that its predicate selects (05 R109). -/
theorem does_selp (c u : Bool) (d a b : BitVec 7) (p : BitVec 3) : Does (.selp c u d a b p) c always (perThread u (fun pre l t m =>
    if pre.p l p.toNat = true then m.writeV t d.toNat (pre.v l a.toNat) (pre.reg l a.toNat).tag
    else m.writeV t d.toNat (pre.v l b.toNat) (pre.reg l b.toNat).tag)) := by
  refine does_of_noCheck (exec_selp c u d a b p) rfl (perThread_congr fun pre l t m => ?_)
  split <;> rfl

/-- Settles O11: each word is of one of the forms of `Laws.Words`, and the conditions and combine operations are those of 05 R106 and R107. -/
theorem predicateWords : Obligations.PredicateWords := by
  refine ⟨fun c u f e p q r d a b k => ?words, fun x y q b => ?conditions⟩
  case words =>
    refine ⟨?isetp, ?fsetp, ?pand, ?por, ?pxor, ?pnot, ?pset, ?p2v, ?v2p, ?selp⟩
    case isetp => exact predicate_of (exec_isetp c u f e p a b) rfl fun _ _ => rfl
    case fsetp => exact predicate_of (exec_fsetp c u f e p a b) rfl fun _ _ => rfl
    case pand => exact predicate_of (exec_pand c u p q r) rfl fun _ _ => rfl
    case por => exact predicate_of (exec_por c u p q r) rfl fun _ _ => rfl
    case pxor => exact predicate_of (exec_pxor c u p q r) rfl fun _ _ => rfl
    case pnot => exact predicate_of (exec_pnot c u p q) rfl fun _ _ => rfl
    case pset => exact predicate_of (exec_pset c u p k) rfl fun _ _ => rfl
    case p2v => exact does_of_noCheck (exec_p2v c u d) rfl rfl
    case v2p => exact does_of_noCheck (exec_v2p c u a) rfl rfl
    case selp => exact does_selp c u d a b p
  case conditions =>
    obtain ⟨h0, h1, h2, h3, h4, h5, h6, h7⟩ := condInt_values x y
    obtain ⟨hset, hand, hor, hxor⟩ := combine_values q b
    exact ⟨h0, h1, h2, h3, h4, h5, h6, h7, hset, hand, hor, hxor, condFloat_of_unordered, condFloat_of_ordered⟩

/-- Settles O12: each word writes its mask, or its register in each active thread, once for each group. -/
theorem maskWords : Obligations.MaskWords := by
  intro c u d a b v
  refine ⟨?mand, ?mor, ?mxor, ?mnot, ?mfromv, ?mself, ?mtov, ?mpopc⟩
  case mand => exact does_of_noCheck (exec_mand c u d a b) rfl rfl
  case mor => exact does_of_noCheck (exec_mor c u d a b) rfl rfl
  case mxor => exact does_of_noCheck (exec_mxor c u d a b) rfl rfl
  case mnot => exact does_of_noCheck (exec_mnot c u d a) rfl rfl
  case mfromv => exact does_of_noCheck (exec_mfromv c u d v) rfl rfl
  case mself => exact does_of_noCheck (exec_mself c u d) rfl rfl
  case mtov => exact does_of_noCheck (exec_mtov c u v a) rfl rfl
  case mpopc => exact does_of_noCheck (exec_mpopc c u v a) rfl rfl

end Sys2Proof.Machine
end

section
/-! The floating words of majors 0x18 to 0x1B (O13): the functions that 06 R112 and R115 to R122 state of the values of F32 words. -/

namespace Sys2Proof.Machine

section
variable (z x y : Word)

/-- FMA adds the addend to the product; both signs are kept (06 R116). -/
theorem fused_add : fused false false z x y = toF32 (((f32 x).mul (f32 y)).add (f32 z)) := rfl

/-- FMS subtracts the addend from the product (06 R116). -/
theorem fused_sub : fused false true z x y = toF32 (((f32 x).mul (f32 y)).add (f32 z).negate) := rfl

/-- FNMA negates the sum of the product and the addend, term by term (06 R116). -/
theorem fused_negate_sub : fused true true z x y = toF32 (((f32 x).mul (f32 y)).negate.add (f32 z).negate) := rfl

/-- FNMS subtracts the product from the addend (06 R116). -/
theorem fused_negate_add : fused true false z x y = toF32 (((f32 x).mul (f32 y)).negate.add (f32 z)) := rfl

end

/-- Settles O13: each word is of one of the forms of `Laws.Words`, and its function is the stated one. -/
theorem floatWords : Obligations.FloatWords := by
  intro c u d a b
  refine ⟨?fadd, ?fsub, ?fmul, ?fdiv, ?fsqrt, ?fmin, ?fmax, ?fabs, ?fneg, ?fcpsgn, ?fma, ?fms, ?fnma, ?fnms, ?frcp, ?frsq, ?fsqrta, ?fex2,
    ?flg2, ?fsinp, ?fcosp, ?ftanh, ?frintRn, ?frintRz, ?frintRd, ?frintRu, ?fclass, ?fscalb⟩
  case fadd => exact binary_of (exec_fadd c u d a b) rfl fun _ _ => rfl
  case fsub => exact binary_of (exec_fsub c u d a b) rfl fun _ _ => rfl
  case fmul => exact binary_of (exec_fmul c u d a b) rfl fun _ _ => rfl
  case fdiv => exact binary_of (exec_fdiv c u d a b) rfl fun _ _ => rfl
  case fsqrt => exact unary_of (exec_fsqrt c u d a) rfl fun _ => rfl
  case fmin => exact binary_of (exec_fmin c u d a b) rfl fun _ _ => rfl
  case fmax => exact binary_of (exec_fmax c u d a b) rfl fun _ _ => rfl
  case fabs => exact unary_of (exec_fabs c u d a) rfl fun _ => rfl
  case fneg => exact unary_of (exec_fneg c u d a) rfl fun _ => rfl
  case fcpsgn => exact binary_of (exec_fcpsgn c u d a b) rfl fun _ _ => rfl
  case fma => exact ternary_of (exec_fma c u d a b) rfl fused_add
  case fms => exact ternary_of (exec_fms c u d a b) rfl fused_sub
  case fnma => exact ternary_of (exec_fnma c u d a b) rfl fused_negate_sub
  case fnms => exact ternary_of (exec_fnms c u d a b) rfl fused_negate_add
  case frcp => exact unary_of (exec_frcp c u d a) rfl fun _ => rfl
  case frsq => exact unary_of (exec_frsq c u d a) rfl fun _ => rfl
  case fsqrta => exact unary_of (exec_fsqrta c u d a) rfl fun _ => rfl
  case fex2 => exact unary_of (exec_fex2 c u d a) rfl fun _ => rfl
  case flg2 => exact unary_of (exec_flg2 c u d a) rfl fun _ => rfl
  case fsinp => exact unary_of (exec_fsinp c u d a) rfl fun _ => rfl
  case fcosp => exact unary_of (exec_fcosp c u d a) rfl fun _ => rfl
  case ftanh => exact unary_of (exec_ftanh c u d a) rfl fun _ => rfl
  case frintRn => exact unary_of (exec_frintRn c u d a) rfl fun _ => rfl
  case frintRz => exact unary_of (exec_frintRz c u d a) rfl fun _ => rfl
  case frintRd => exact unary_of (exec_frintRd c u d a) rfl fun _ => rfl
  case frintRu => exact unary_of (exec_frintRu c u d a) rfl fun _ => rfl
  case fclass => exact unary_of (exec_fclass c u d a) rfl fun _ => rfl
  case fscalb => exact binary_of (exec_fscalb c u d a b) rfl fun _ _ => rfl

end Sys2Proof.Machine
end

section
/-! The conversions and the packed words of majors 0x1C to 0x1E (O14): the functions that 06 R123 to R130 state. -/

namespace Sys2Proof.Machine

section
variable (z x y : Word)

/-- DOT4.s8 adds to the signed addend and wraps (06 R129). -/
theorem dotWord_signed : dotWord true z x y = BitVec.ofInt 32 (z.toInt + dotInt true x y) := by
  rw [dotWord, BitVec.ofInt_add, BitVec.ofInt_toInt]

/-- DOT4.n8 adds to the unsigned addend and wraps (06 R129). -/
theorem dotWord_unsigned : dotWord false z x y = BitVec.ofInt 32 (z.toNat + dotInt false x y) := by
  rw [dotWord, BitVec.ofInt_add, BitVec.ofInt_natCast, BitVec.ofNat_toNat, BitVec.setWidth_eq]

end

/-- Settles O14: each word is of one of the forms of `Laws.Words`, and its function is the stated one. -/
theorem packedWords : Obligations.PackedWords := by
  intro c u sc r j d a b
  refine ⟨?cvt, ?pkbf, ?pke4Lo, ?pke4Hi, ?pke5Lo, ?pke5Hi, ?pkpsLo, ?pkpsHi, ?unpk, ?dot2Bf16, ?dot4E4m3, ?dot4E5m2, ?dot4Ps8, ?dot4S8,
    ?dot4N8, ?hadd2Bf16, ?hmul2Bf16⟩
  case cvt => exact does_of_noCheck (exec_cvt c u sc r d a b) rfl rfl
  case pkbf => exact binary_of (exec_pkbf c u d a b) rfl fun _ _ => rfl
  case pke4Lo => exact binary_of (exec_pke4Lo c u d a b) rfl fun _ _ => rfl
  case pke4Hi => exact ternary_of (exec_pke4Hi c u d a b) rfl fun _ _ _ => rfl
  case pke5Lo => exact binary_of (exec_pke5Lo c u d a b) rfl fun _ _ => rfl
  case pke5Hi => exact ternary_of (exec_pke5Hi c u d a b) rfl fun _ _ _ => rfl
  case pkpsLo => exact binary_of (exec_pkpsLo c u d a b) rfl fun _ _ => rfl
  case pkpsHi => exact ternary_of (exec_pkpsHi c u d a b) rfl fun _ _ _ => rfl
  case unpk => exact does_of_noCheck (exec_unpk c u d a j) rfl rfl
  case dot2Bf16 => exact ternary_of (exec_dot2Bf16 c u d a b) rfl fun _ _ _ => rfl
  case dot4E4m3 => exact ternary_of (exec_dot4E4m3 c u d a b) rfl fun _ _ _ => rfl
  case dot4E5m2 => exact ternary_of (exec_dot4E5m2 c u d a b) rfl fun _ _ _ => rfl
  case dot4Ps8 => exact ternary_of (exec_dot4Ps8 c u d a b) rfl fun _ _ _ => rfl
  case dot4S8 => exact ternary_of (exec_dot4S8 c u d a b) rfl dotWord_signed
  case dot4N8 => exact ternary_of (exec_dot4N8 c u d a b) rfl dotWord_unsigned
  case hadd2Bf16 => exact binary_of (exec_hadd2Bf16 c u d a b) rfl fun _ _ => rfl
  case hmul2Bf16 => exact binary_of (exec_hmul2Bf16 c u d a b) rfl fun _ _ => rfl

end Sys2Proof.Machine
end

section
/-! The forms of words that the statements about control, spawning, collectives and cache control share (O16 to O21, O31). -/

namespace Sys2Proof.Machine

/-- A word without a check of its own that transfers control. -/
theorem jumps_of_noCheck {i : Instr} {c : Bool} {act : Act} {f : State → List Nat → Nat → Option Jump}
    (he : ∀ s, exec i s = runJump i noCheck act f s) (hc : (opInfo i).c = c) : Jumps i c always act f :=
  jumps_of_runJump he hc fun _ _ _ _ => rfl

/-- What a word does, its effect written in another way. -/
theorem does_congr {i : Instr} {c : Bool} {own : State → Nat → Prop} {act act' : Act} (h : ∀ e all live m, act e all live m = act' e all live m)
    (hd : Does i c own act) : Does i c own act' := by
  obtain rfl : act = act' := funext fun e => funext fun all => funext fun live => funext (h e all live)
  exact hd

/-- Two effects made once for each visible thread, or once for the group, are one where their functions are. -/
theorem once_congr {u : Bool} {f g : State → Nat → List Nat → Chip → Chip} (h : ∀ e t takers m, f e t takers m = g e t takers m) : once u f = once u g := by
  obtain rfl : f = g := funext fun e => funext fun t => funext fun takers => funext (h e t takers)
  rfl

/-- An effect made once for each visible thread, where one visible thread is alone. -/
theorem once_of_alone (f : State → Nat → List Nat → Chip → Chip) {e : State} (all : List Nat) {t : Nat} (m : Chip) (h : e.now.visible t = true) :
    once false f e all [t] m = f e t [t] m := by
  simp [once, h]

/-- An address has a bit above the address space where it is not below the space's end (11 R238). -/
theorem above_space_iff (n : Nat) : n / 2 ^ 55 ≠ 0 ↔ 2 ^ 55 ≤ n := by
  rw [Nat.div_ne_zero_iff]
  exact and_iff_right (Nat.two_pow_pos 55).ne'

end Sys2Proof.Machine
end


section
/-! Transfers of control and pacing (O16, O18; 07 R144 to R149, R155): what the check of an indirect target finds, and where a packet, a branch's
offsets and the word behind a chain lie. -/

namespace Sys2Proof.Machine

section
variable {target : Chip → Nat → Addr} {e : State} {l : Nat} (slot : Nat)

/-- A target that enters no chain and can be read passes (07 R144). -/
theorem targetCheck_of_goodTarget (h : goodTarget target e l) : targetCheck target e l slot = none := by
  obtain ⟨hgood, hopen⟩ := h
  simp only [targetCheck, hgood, hopen, Option.map_none]

/-- A bad target is a CHAIN_FAULT (07 R144). -/
theorem targetCheck_of_badTarget {k : Nat}
    (h : badTarget e e.now (e.now.coreOf l) (e.now.ctxOf l) (e.now.thread l).level (target e.now l) = some k) :
    targetCheck target e l slot = some (.trap causeChain ((e.issue.map Issue.raw).getD 0) (BitVec.ofNat 32 (slot + 16 * k))
      ((target e.now l).extractLsb' 0 32) ((target e.now l).extractLsb' 32 32)) := by
  simp only [targetCheck, h]

/-- A target whose chain cannot be read yet holds the transfer (17 R372). -/
theorem targetCheck_of_targetHeld {va : Nat}
    (h : badTarget e e.now (e.now.coreOf l) (e.now.ctxOf l) (e.now.thread l).level (target e.now l) = none)
    (hheld : targetHeld e e.now (e.now.coreOf l) (e.now.ctxOf l) (e.now.thread l).level (target e.now l) = some va) :
    targetCheck target e l slot = some (.hold va) := by
  simp only [targetCheck, h, hheld, Option.map_some]

end

section
variable {s : State} {iss : Issue} {code : Fetched} {t0 t1 : Word} (hs : s.issue = some iss) (hc : iss.code = some code)
include hs hc

/-- The target of an offset counts packets from the one that holds the chain, 4 bytes a slot before its first word (03 R35, 07 R146, R147). -/
theorem packetTarget_of_chain {w : ChainWord} (hw : code.words[0]? = some w) {n : Nat} (off : BitVec n) :
    packetTarget s off = iss.pc - BitVec.ofNat 64 (4 * w.slot) + BitVec.ofInt 64 (12 * off.toInt) := by
  simp only [packetTarget, hs, Option.map_some, Option.getD_some, Issue.packet, hc, hw]

/-- The offsets of a branch unit are the fields of its two target words, high field first (07 R146). -/
theorem branchOffset_toNat (ht : code.targets = [t0, t1]) :
    (branchOffset s 0).toNat = t0.toNat / 2 ^ 12 % 2 ^ 12 ∧ (branchOffset s 1).toNat = t0.toNat % 2 ^ 12 ∧
    (branchOffset s 2).toNat = t1.toNat / 2 ^ 12 % 2 ^ 12 ∧ (branchOffset s 3).toNat = t1.toNat % 2 ^ 12 := by
  simp [branchOffset, hs, hc, ht, Nat.shiftRight_eq_div_pow]

end

/-- Settles O16: each word is of the form `Jumps`, an indirect one where its target passes the check. -/
theorem transferWords : Obligations.TransferWords := by
  refine ⟨fun u n f w x y z imm d a => ?words, fun s iss code w t0 t1 imm hs hc hw ht => ?places⟩
  case words =>
    refine ⟨?brm, ?jmp, ?call, ?jmpr, ?callr, ?ret, ?exit⟩
    case brm => exact jumps_of_runJump (exec_brm u n f w x y z) rfl fun e l slot h => if_neg h
    case jmp => exact jumps_of_noCheck (exec_jmp u imm) rfl
    case call => exact jumps_of_noCheck (exec_call u d imm) rfl
    case jmpr => exact jumps_of_runJump (exec_jmpr a) rfl fun _ _ slot => targetCheck_of_goodTarget slot
    case callr => exact jumps_of_runJump (exec_callr d a) rfl fun _ _ slot => targetCheck_of_goodTarget slot
    case ret => exact jumps_of_runJump (exec_ret a) rfl fun _ _ slot => targetCheck_of_goodTarget slot
    case exit => exact jumps_of_noCheck exec_exit rfl
  case places =>
    obtain ⟨h0, h1, h2, h3⟩ := branchOffset_toNat hs hc ht
    exact ⟨packetTarget_of_chain hs hc hw imm, h0, h1, h2, h3, by simp only [Issue.next, hc, Option.getD_some]⟩

/-- RESUME in continuation, with an FPC that passes the check of a target (07 R155). -/
theorem jumps_resume (c : Bool) : Jumps (.resume c) c (fun e l => (e.now.thread l).cont = true ∧ goodTarget (fun m x => (m.thread x).fpc) e l)
    noEffect (fun e _ t => some (.resume (e.now.thread t).fpc)) :=
  jumps_of_runJump (exec_resume c) rfl fun e l slot ⟨hcont, hgood⟩ => by
    rw [hcont]
    exact targetCheck_of_goodTarget slot hgood

/-- RESUME outside continuation (07 R155). -/
theorem fails_resume (c : Bool) : Fails (.resume c) c (fun e l => (e.now.thread l).cont = false) (fun _ _ slot => trapAt slot causeHandle 2 0 0) :=
  fails_of_runJump (exec_resume c) rfl fun e l slot hcont => by
    rw [hcont]
    rfl

/-- Settles O18: each word is its effect without a check of its own, but RESUME, which is checked for continuation and its target. -/
theorem pacingWords : Obligations.PacingWords := by
  intro c a d
  refine ⟨?nop, ?pause, ?yield, ?ffence, ?clkrd, jumps_resume c, fails_resume c⟩
  case nop => exact does_of_noCheck (exec_nop c) rfl rfl
  case pause => exact does_of_noCheck (exec_pause c a) rfl rfl
  case yield => exact does_of_noCheck (exec_yield c) rfl rfl
  case ffence => exact does_of_noCheck (exec_ffence c) rfl rfl
  case clkrd => exact does_of_noCheck (exec_clkrd c d) rfl rfl

end Sys2Proof.Machine
end

section
/-! Words whose own effect is a trap (O17; 07 R144, R146, R154, 19 R425): what of a machine the entry of a trap reads, which nothing between a
chain's failure and that entry changes; then the chain of a thread alone that traps, and the words that trap. -/

namespace Sys2Proof.Machine

/-! What a fetch reads: memory, the board, and of the machine no thread, group or team. -/

/-- A state's memory and board by themselves. -/
def State.bare (e : State) : State := { State.reset with mem := e.mem, board := e.board }

/-- A machine without its threads, groups and teams, its order stamps and its released threads. -/
def Chip.rest (c : Chip) : Chip := { c with threads := [], groups := [], teams := [], stamp := 0, granted := [] }

section
variable (e : State) (c : Chip)

theorem peek_bare (p n : Nat) : peek e.bare c.rest p n = peek e c p n := rfl

theorem coreView_bare (k p n : Nat) : coreView e.bare c.rest k p n = coreView e c k p n := rfl

theorem line_bare (ln : Nat) : c.rest.line e.bare ln = c.line e ln := rfl

theorem chunkPoison_bare (p : Nat) : chunkPoison e.bare c.rest p = chunkPoison e c p := rfl

theorem poisonAt_bare (p n : Nat) : poisonAt e.bare c.rest p n = poisonAt e c p n := by
  have hl1 : c.rest.l1? = c.l1? := rfl
  simp only [poisonAt, line_bare, chunkPoison_bare, hl1]
  rfl

theorem walk_bare (ctx va : Nat) : walk e.bare c.rest ctx va = walk e c ctx va := by
  have hctx : c.rest.ctx = c.ctx := rfl
  have htable : tableOk e.bare = tableOk e := rfl
  have hleaf : leafOk e.bare = leafOk e := rfl
  simp only [walk, hctx, htable, hleaf, peek_bare, poisonAt_bare]

theorem translate_bare (k ctx : Nat) (lvl : Level) (va : Nat) (kind : AccKind) :
    translate e.bare c.rest k ctx lvl va kind = translate e c k ctx lvl va kind := by
  have htlb : c.rest.tlbFind = c.tlbFind := rfl
  simp only [translate, htlb, walk_bare]

theorem badTarget_bare (k ctx : Nat) (lvl : Level) (pc : Addr) : badTarget e.bare c.rest k ctx lvl pc = badTarget e c k ctx lvl pc := by
  have hslot : c.rest.slot = c.slot := rfl
  have hregion : c.rest.region? = c.region? := rfl
  simp only [badTarget, codeWord, hslot, hregion, translate_bare, coreView_bare]

end

/-- What the entry of a thread's trap reads of the machine (19 R425, R426): what a fetch reads, where the thread is, its level and whether it is
in continuation. -/
def Chip.trapView (c : Chip) (t : Nat) : Chip × Nat × Nat × Level × Bool :=
  (c.rest, c.ctxOf t, c.coreOf t, (c.thread t).level, (c.thread t).cont)

/-! What leaves the view of a trap as it is. -/

section
variable (c : Chip) (t : Nat)

theorem trapView_setThread {u : Nat} {x : Thread} (hlevel : x.level = (c.thread u).level) (hcont : x.cont = (c.thread u).cont) :
    (c.setThread u x).trapView t = c.trapView t := by
  simp only [Chip.trapView, Chip.thread_setThread]
  split
  · rename_i h
    rw [h, hlevel, hcont]
    rfl
  · rfl

theorem trapView_setTeam {k : Nat} {x : Team} (h : x.ctx = (c.team k).ctx) : (c.setTeam k x).trapView t = c.trapView t := by
  have hctx : (c.setTeam k x).ctxOf t = c.ctxOf t := by
    refine (congrArg Team.ctx (Chip.team_setTeam c k (c.teamOf t) x)).trans ?_
    split
    · rename_i hk
      rw [h, ← hk]
      rfl
    · rfl
  exact congrArg (fun n => ((c.trapView t).1, n, (c.trapView t).2.2)) hctx

theorem trapView_setGroup {k : Nat} {x : Group} (hteam : x.team = (c.group k).team) (hcroft : x.croft = (c.group k).croft) :
    (c.setGroup k x).trapView t = c.trapView t := by
  have hplace : ((c.setGroup k x).group (groupOf t)).team = (c.group (groupOf t)).team ∧
      ((c.setGroup k x).group (groupOf t)).croft = (c.group (groupOf t)).croft := by
    rw [Chip.group_setGroup]
    split
    · rename_i hk
      rw [hk]
      exact ⟨hteam, hcroft⟩
    · exact ⟨rfl, rfl⟩
  simp only [Chip.trapView, Chip.ctxOf, Chip.teamOf, Chip.coreOf, Chip.croftOf, hplace]
  rfl

@[simp] theorem trapView_issuedNow (u : Nat) : (c.issuedNow u).trapView t = c.trapView t := trapView_setThread c t rfl rfl

@[simp] theorem trapView_ungrant (u : Nat) (ws : List ChainWord) : (c.ungrant u ws).trapView t = c.trapView t :=
  foldl_keeps (Chip.trapView · t) (fun d g => by
    split
    · dsimp only
      split
      · exact trapView_setTeam _ _ rfl
      · rfl
    · rfl) _ _

@[simp] theorem trapView_tellFurrow (u n : Nat) : (c.tellFurrow u n).trapView t = c.trapView t := by
  unfold Chip.tellFurrow
  dsimp only
  split
  · exact trapView_setGroup c t rfl rfl
  · rfl

@[simp] theorem trapView_afterTrap (u cause : Nat) (i : Option Instr) : (afterTrap c u cause i).trapView t = c.trapView t := by
  unfold afterTrap
  split <;> simp only [apply_ite (Chip.trapView · t), trapView_tellFurrow, ite_self]

end

/-- Whether a trap is refused is settled by what its entry reads (19 R426). -/
theorem trapRefused_of_trapView {e e' : State} {c d : Chip} {t : Nat} (hstate : e'.bare = e.bare) (hview : d.trapView t = c.trapView t) (pc : Addr) :
    trapRefused e' d t pc = trapRefused e c t pc := by
  simp only [Chip.trapView, Prod.mk.injEq] at hview
  obtain ⟨hrest, hctx, hcore, hlevel, -⟩ := hview
  have hvector : d.ctx (d.ctxOf t) = c.ctx (c.ctxOf t) := by
    rw [hctx]
    show d.rest.ctx (c.ctxOf t) = c.rest.ctx (c.ctxOf t)
    rw [hrest]
  have htarget (k ctx : Nat) (lvl : Level) (va : Addr) : badTarget e' d k ctx lvl va = badTarget e c k ctx lvl va := by
    rw [← badTarget_bare e' d, ← badTarget_bare e c, hstate, hrest]
  unfold trapRefused
  dsimp only
  rw [hvector, htarget, hctx, hcore, hlevel]

/-- A cause without an error record is not charged to a rollback (19 R427, 21 R460). -/
theorem rollsBack_of_recordSource {cause : Nat} (h : recordSource cause = none) (c : Chip) (t : Nat) : rollsBack c t cause = false := by
  unfold recordSource at h
  split at h
  · exact nomatch h
  · split at h
    · exact nomatch h
    · simp [rollsBack, *]

/-- With no stencil slot loaded no slot takes a word. -/
theorem stencilPick_of_nil {c : Chip} (h : c.slots = []) (t : Nat) (w : Word) (cause : Nat) : stencilPick c t w cause = none := by
  have hempty (k : Nat) : (c.slot k).state = .empty := by
    rw [Chip.slot, h]
    rfl
  simp [stencilPick, hempty]

/-! The chain of a thread alone that traps. -/

/-- Nothing stands between a thread and the trap it takes at `pc`: it is below firmware level, its vector is not refused (19 R426), and no
stencil slot is loaded. -/
def TakesTrap (e : State) (c : Chip) (t : Nat) (pc : Addr) : Prop :=
  (c.thread t).level ≠ .firmware ∧ trapRefused e c t pc = false ∧ c.slots = []

/-- In machine `d` a thread stands as its trap in machine `c` leaves it (19 R425). -/
def StandsTrapped (c d : Chip) (t : Nat) (pc : Addr) (cause : Nat) (i0 i1 i2 i3 : Word) : Prop :=
  (d.thread t).level = .supervisor ∧ (d.thread t).pc = (c.ctx (c.ctxOf t)).trapvec ∧
    (d.thread t).trap = { pc := pc, cause := trapCauseWord cause (c.thread t).level (c.thread t).cont, info0 := i0, info1 := i1, info2 := i2, info3 := i3 }

section
variable {e e' : State} {b c d d' : Chip} {t : Nat} {pc : Addr}

theorem TakesTrap.congr (h : TakesTrap e b t pc) (hstate : e'.bare = e.bare) (hview : c.trapView t = b.trapView t) : TakesTrap e' c t pc := by
  obtain ⟨hlevel, haccepted, hslots⟩ := h
  refine ⟨?_, (trapRefused_of_trapView hstate hview pc).trans haccepted, (congrArg (fun v => v.1.slots) hview).trans hslots⟩
  rwa [show (c.thread t).level = (b.thread t).level from congrArg (fun v => v.2.2.2.1) hview]

theorem StandsTrapped.congr {cause : Nat} {i0 i1 i2 i3 : Word} (h : StandsTrapped c d t pc cause i0 i1 i2 i3) (hview : c.trapView t = b.trapView t)
    (hseen : (d'.thread t).seenPart = (d.thread t).seenPart) : StandsTrapped b d' t pc cause i0 i1 i2 i3 := by
  obtain ⟨hlevel, hpc, htrap⟩ := h
  have hctxs : c.ctxs = b.ctxs := congrArg (fun v => v.1.ctxs) hview
  simp only [Chip.trapView, Prod.mk.injEq] at hview
  obtain ⟨-, hctx, -, hviewlevel, hcont⟩ := hview
  simp only [Thread.seenPart, Prod.mk.injEq] at hseen
  obtain ⟨hseenpc, hseenlevel, -, -, hseentrap⟩ := hseen
  refine ⟨hseenlevel.trans hlevel, hseenpc.trans (hpc.trans ?_), hseentrap.trans (htrap.trans ?_)⟩
  · rw [Chip.ctx, Chip.ctx, hctxs, hctx]
  · rw [hviewlevel, hcont]

end

section
variable {s : State} {iss : Issue} {t idx cause : Nat} {i0 i1 i2 i3 : Word} (hrecord : recordSource cause = none)
include hrecord

/-- A thread whose chain ends in a trap enters it, with the view of the machine it had: no stencil slot takes its word. -/
theorem failThread_trap {c : Chip} (hslots : c.slots = []) : ∃ d, d.trapView t = c.trapView t ∧
    failThread s iss c t idx (.trap cause i0 i1 i2 i3) = enterTrap s d t iss.pc iss.pc cause i0 i1 i2 i3 := by
  have hview (i : Option Instr) : (afterTrap (c.ungrant t (iss.code.getD {}).words) t cause i).trapView t = c.trapView t := by
    rw [trapView_afterTrap, trapView_ungrant]
  have hpick (w : Word) : stencilPick (c.ungrant t (iss.code.getD {}).words) t w cause = none :=
    stencilPick_of_nil ((congrArg (fun v => v.1.slots) (trapView_ungrant c t t (iss.code.getD {}).words)).trans hslots) _ _ _
  refine ⟨_, hview ((if (iss.code.getD {}).fault.isSome then none else (iss.code.getD {}).words[idx]?).map (·.instr)), ?_⟩
  simp only [failThread, softOrHold, rollsBack_of_recordSource hrecord, hpick, ite_self]
  rfl

theorem standsTrapped_enterTrap {c : Chip} {pc ret : Addr} (h : TakesTrap s c t pc) :
    StandsTrapped c (enterTrap s c t pc ret cause i0 i1 i2 i3) t ret cause i0 i1 i2 i3 := by
  obtain ⟨hlevel, haccepted, -⟩ := h
  simp only [StandsTrapped, enterTrap, if_neg hlevel, haccepted, hrecord, Bool.false_eq_true, if_false, Chip.thread_setThread_same, and_self]

variable (hs : s.issue = some iss) (hmembers : iss.members = [t]) (hdead : iss.dead = [(t, idx, .trap cause i0 i1 i2 i3)])
include hmembers hdead

/-- The chain of a thread alone that traps: the thread enters its trap, and of what programs see no more changes. -/
theorem commitIssue_of_trap (hslots : (s.base.getD s.now).slots = []) :
    ∃ c d, c.trapView t = (s.base.getD s.now).trapView t ∧ commitIssue s iss = noteIntervals { s with now := d, base := none, issue := none } ∧
      d.program = (enterTrap s c t iss.pc iss.pc cause i0 i1 i2 i3).program := by
  have hverdict : iss.verdict t = some (.trap cause i0 i1 i2 i3) := by simp [Issue.verdict, hdead]
  have hlive : iss.live = [] := by simp [Issue.live, hmembers, hverdict]
  suffices h : ∀ u, u = commitIssue s iss → ∃ c d, c.trapView t = (s.base.getD s.now).trapView t ∧
      u = noteIntervals { s with now := d, base := none, issue := none } ∧
      d.program = (enterTrap s c t iss.pc iss.pc cause i0 i1 i2 i3).program from h _ rfl
  intro u hu
  unfold commitIssue at hu
  extract_lets code succ live c1 c2 groups c3 c4 c5 c6 c7 c8 exits movers c9 c10 c11 c12 s1 s2 at hu
  have hc4 : c4 = c2.issuedNow t := by
    simp [c4, c3, live, hlive, hmembers, hverdict]
  have hview : c4.trapView t = (s.base.getD s.now).trapView t := by
    rw [hc4, trapView_issuedNow]
    simp only [c2, c1, live, hlive]
    rfl
  obtain ⟨c, hc, hfail⟩ := failThread_trap (s := s) (iss := iss) (t := t) (idx := idx) (i0 := i0) (i1 := i1) (i2 := i2) (i3 := i3) (c := c4)
    hrecord ((congrArg (fun v => v.1.slots) hview).trans hslots)
  have hc5 : c5 = enterTrap s c t iss.pc iss.pc cause i0 i1 i2 i3 := by
    rw [← hfail]
    simp [c5, hmembers, hdead]
  have hc8 : c8.standing = c5.standing := by
    simp only [c8, c7, c6, apply_ite Chip.standing, standing_consumeEntries, standing_noteRegs, standing_noteTiles, ite_self]
  have hexits : exits = [] := by simp only [exits, live, hlive, List.filter_nil]
  have hc12 : c12.standing = c5.standing := by
    simp only [c12, c11, c10, c9, hexits, hdead, List.foldl_nil, List.foldl_cons, standing_settleWaits, standing_moveAll, hc8]
  refine ⟨c, c12, hc.trans hview, ?_, (congrArg Prod.fst hc12).trans (by rw [hc5]; rfl)⟩
  rw [hu]
  simp only [s2, hdead, List.foldl_cons, List.foldl_nil, rollsBack_of_recordSource hrecord, Bool.and_false, Bool.false_eq_true, if_false, s1]

include hs in
/-- Such a chain closes with the thread as its trap leaves it. -/
theorem closeChain_of_trap (htakes : TakesTrap s.before s.before.now t iss.pc) :
    (closeChain s).issue = none ∧ StandsTrapped s.before.now (closeChain s).now t iss.pc cause i0 i1 i2 i3 := by
  have hlive : iss.live = [] := by simp [Issue.live, Issue.verdict, hmembers, hdead]
  have hclose : closeChain s = commitIssue s iss := by
    have hpairs : successorCheck s.now iss = iss := successorCheck_of_unguarded fun x hx => by simp [hlive] at hx
    simp only [closeChain, hs, hpairs, hlive, List.isEmpty_nil, Bool.not_true, Bool.and_false, Bool.false_eq_true, if_false]
  obtain ⟨c, d, hview, hcommit, hprogram⟩ := commitIssue_of_trap hrecord hmembers hdead htakes.2.2
  obtain ⟨-, -, hissue, -, hnoted⟩ := noteIntervals_keeps { s with now := d, base := none, issue := none }
  have hentered : StandsTrapped c (enterTrap s c t iss.pc iss.pc cause i0 i1 i2 i3) t iss.pc cause i0 i1 i2 i3 :=
    standsTrapped_enterTrap hrecord (htakes.congr rfl hview)
  rw [hclose, hcommit]
  exact ⟨hissue, hentered.congr hview (congrFun (congrArg Prod.fst (hnoted.trans hprogram)) t)⟩

end

/-- A thread alone in its issue group executes a word with C = 0 whose effect is such a trap: it then stands as the trap leaves it. -/
theorem exec_of_trap {i : Instr} {v : State → Nat → Nat → Verdict} (hfails : Fails i false always v) {s : State} {iss : Issue} {t cause : Nat}
    {i0 i1 i2 i3 : Word} (hs : s.issue = some iss) (hmembers : iss.members = [t]) (hdead : iss.dead = []) (hlead : wordLead s.before t i = t)
    (hrun : CanRun s.before t t (opInfo i)) (hblocked : blocked s.before t i = false) (hv : v s.before t iss.slot = .trap cause i0 i1 i2 i3)
    (hrecord : recordSource cause = none) (htakes : TakesTrap s.before s.before.now t iss.pc) :
    ∃ s', exec i s = .next s' ∧ s'.issue = none ∧ StandsTrapped s.before.now s'.now t iss.pc cause i0 i1 i2 i3 := by
  have hexec := hfails s iss hs fun x hx _ => by
    obtain rfl : x = t := by simpa [hmembers] using hx
    rw [hlead]
    exact ⟨hrun, hblocked, trivial⟩
  have hundecided : iss.undecided = [t] := by
    rw [Issue.undecided, hmembers, List.filter_eq_self]
    intro x _
    rw [Issue.verdict_of_dead hdead]
  have hnoted : iss.dead.filter (fun d => !iss.undecided.contains d.1) ++
      iss.undecided.map (fun x => (x, iss.at_, v s.before (wordLead s.before x i) iss.slot)) = [(t, iss.at_, .trap cause i0 i1 i2 i3)] := by
    simp only [hdead, hundecided, List.filter_nil, List.nil_append, List.map_cons, List.map_nil, hlead, hv]
  have hissue : (failed s iss (fun x => v s.before (wordLead s.before x i) iss.slot)).issue = some _ := rfl
  simp only [ended, Bool.false_eq_true, if_false] at hexec
  have hclosed := closeChain_of_trap hrecord hissue hmembers hnoted (htakes.congr rfl rfl)
  exact ⟨_, hexec, hclosed⟩

/-! The words. -/

theorem fails_bkpt (c : Bool) : Fails (.bkpt c) c always (fun _ _ slot => trapAt slot causeBreak 0 0 0) :=
  fails_of_runWord (exec_bkpt c) rfl fun _ _ _ _ => rfl

theorem fails_tgt (g h : BitVec 12) : Fails (.tgt g h) false always
    (fun e _ slot => .trap causeChain ((e.issue.map Issue.raw).getD 0) (BitVec.ofNat 32 (slot + 16 * 5)) 0 0) :=
  fails_of_runWord (exec_tgt g h) rfl fun _ _ _ _ => rfl

/-- The words that transfer to the address in a pair have one check, of that address (07 R144, R148). -/
theorem indirect_fails (d a : BitVec 6) {i : Instr} (hi : i ∈ [Instr.jmpr a, .callr d a, .ret a]) {own : State → Nat → Prop}
    {v : State → Nat → Nat → Verdict} (h : ∀ e l slot, own e l → targetCheck (fun m l => m.vv l (2 * a.toNat)) e l slot = some (v e l slot)) :
    Fails i false own v := by
  simp only [List.mem_cons, List.not_mem_nil, or_false] at hi
  rcases hi with rfl | rfl | rfl
  · exact fails_of_runJump (exec_jmpr a) rfl h
  · exact fails_of_runJump (exec_callr d a) rfl h
  · exact fails_of_runJump (exec_ret a) rfl h

/-- Settles O17: TRAP is of the form `Jumps`, the other words fail in their own check; and the chain of a thread alone that fails so is followed
to the entry of its trap. -/
theorem trappingWords : Obligations.TrappingWords := by
  refine ⟨?alone, fun c u n w x y z b d a g h k => ⟨?trap, fails_bkpt c, fails_tgt g h, ?brm, fun i hi => ⟨?bad, fun va => ?held⟩⟩⟩
  case alone =>
    intro i g h cause sub t p raw s iss e th hi hs hmembers hdead _ _ _ hrun hblocked hlevel haccepted hslots
    rcases hi with ⟨rfl, rfl, rfl, rfl⟩ | ⟨rfl, rfl, rfl, rfl⟩
    · exact exec_of_trap (fails_bkpt false) hs hmembers hdead rfl hrun hblocked rfl rfl ⟨hlevel, haccepted, hslots⟩
    · exact exec_of_trap (fails_tgt g h) hs hmembers hdead rfl hrun hblocked (by rw [State.before, hs]; rfl) rfl ⟨hlevel, haccepted, hslots⟩
  case trap => exact jumps_of_noCheck (exec_trap c b) rfl
  case brm => exact fails_of_runJump (exec_brm u n 2 w x y z) rfl fun e l slot h => if_pos ⟨h, rfl⟩
  case bad => exact indirect_fails d a hi fun e l slot => targetCheck_of_badTarget (target := fun m l => m.vv l (2 * a.toNat)) slot
  case held => exact indirect_fails d a hi fun e l slot ⟨hgood, hheld⟩ => targetCheck_of_targetHeld slot hgood hheld

end Sys2Proof.Machine
end

section
/-! Spawning (O19; 07 R151, R152): the bin that takes a placement, and what `spawnOne` does with one and without. -/

namespace Sys2Proof.Machine

/-- A bin that opens for a thread's team and an entry, its timer set (07 R151). -/
def Chip.newBin (m : Chip) (t : Nat) (entry : Addr) : Bin :=
  { team := m.teamOf t, entry := entry, timer := (m.ctx (m.ctxOf t)).bintime, closed := decide ((m.ctx (m.ctxOf t)).bintime = 0) }

/-- The bin that takes a placement of a thread, with its number: the open one of its team and the entry, else the lowest free one, which opens. -/
def Chip.binFor (m : Chip) (t : Nat) (entry : Addr) : Option (Nat × Bin) :=
  match List.find? (fun p : Nat × Bin => p.2.opens (m.teamOf t) entry) (m.core (m.coreOf t)).bins with
  | some p => some p
  | none => ((List.range Config.bins).find? (fun i => (Sparse.find? (m.core (m.coreOf t)).bins i).isNone)).map (fun i => (i, m.newBin t entry))

section
variable {m : Chip} {t i : Nat} {x : Bin} {entry : Addr}

theorem binFor_of_open (h : List.find? (fun p : Nat × Bin => p.2.opens (m.teamOf t) entry) (m.core (m.coreOf t)).bins = some (i, x)) :
    m.binFor t entry = some (i, x) := by
  rw [Chip.binFor, h]

variable (hshut : ∀ p ∈ (m.core (m.coreOf t)).bins, p.2.opens (m.teamOf t) entry = false)
include hshut

/-- With no bin open for a thread the lowest free one is taken. -/
theorem binFor_of_shut : m.binFor t entry =
    ((List.range Config.bins).find? (fun i => (Sparse.find? (m.core (m.coreOf t)).bins i).isNone)).map (fun i => (i, m.newBin t entry)) := by
  have hnone : List.find? (fun p : Nat × Bin => p.2.opens (m.teamOf t) entry) (m.core (m.coreOf t)).bins = none :=
    List.find?_eq_none.mpr fun p hp => by simp [hshut p hp]
  rw [Chip.binFor, hnone]

theorem binFor_of_full (hfull : ∀ i < Config.bins, (Sparse.find? (m.core (m.coreOf t)).bins i).isSome = true) : m.binFor t entry = none := by
  rw [binFor_of_shut hshut, Option.map_eq_none_iff, List.find?_eq_none]
  intro i hi
  have := hfull i (List.mem_range.mp hi)
  simpa [Option.isSome_iff_ne_none] using this

theorem binFor_of_free (hi : i < Config.bins) (hfree : Sparse.find? (m.core (m.coreOf t)).bins i = none)
    (hfirst : ∀ j < i, (Sparse.find? (m.core (m.coreOf t)).bins j).isSome = true) : m.binFor t entry = some (i, m.newBin t entry) := by
  have hlow : (List.range Config.bins).find? (fun i => (Sparse.find? (m.core (m.coreOf t)).bins i).isNone) = some i := by
    rw [List.find?_range_eq_some]
    refine ⟨by rw [hfree]; rfl, List.mem_range.mpr hi, fun j hj => ?_⟩
    rw [Bool.not_eq_true', Option.isNone_eq_false_iff]
    exact hfirst j hj
  rw [binFor_of_shut hshut, hlow, Option.map_some]

end

/-- A bin with an argument and the level of its thread added, in protected mode for its shadow too (07 R151, R152, 21 R456; log entry 23). -/
def Bin.placed (x : Bin) (fast : Bool) (m : Chip) (t : Nat) (arg : Word) : Bin :=
  let mine := (arg, (m.thread t).level)
  let args := x.args ++ (if m.guarded t = true then [mine, mine] else [mine])
  { x with args := args, closed := x.closed || fast || decide (32 ≤ args.length), hurried := x.hurried || fast }

section
variable (fast : Bool) {entry : Nat → Addr} (arg : Nat → Word) (r : Nat) (e : State) {t : Nat} {m : Chip}

/-- A misaligned entry, or one outside the address space, gives status 1 (07 R151). -/
theorem spawnOne_of_bad_entry (h : (entry t).toNat % 4 ≠ 0 ∨ 2 ^ 55 ≤ (entry t).toNat) :
    spawnOne fast entry arg r e t [t] m = m.writeV t r 1 tagInt :=
  if_pos (by rwa [above_space_iff])

variable (haligned : (entry t).toNat % 4 = 0) (hspace : (entry t).toNat < 2 ^ 55)
include haligned hspace

/-- Without a bin to place in, a good entry gives status 2; with one the argument is placed there, the thread's earlier stores are released and
the status is 0 (07 R151, 10 R220). -/
theorem spawnOne_of_good_entry : spawnOne fast entry arg r e t [t] m = match m.binFor t (entry t) with
    | none => m.writeV t r 2 tagInt
    | some (i, x) =>
      (releaseLines e (m.setCore (m.coreOf t) { m.core (m.coreOf t) with
        bins := Sparse.set (m.core (m.coreOf t)).bins i (x.placed fast m t (arg t)) }) (m.coreOf t) [t] m.nextId).writeV t r 0 tagInt := by
  have hgood : ¬ ((entry t).toNat % 4 ≠ 0 ∨ (entry t).toNat / 2 ^ 55 ≠ 0) := by
    rw [above_space_iff, not_or, not_not, not_le]
    exact ⟨haligned, hspace⟩
  unfold spawnOne
  exact if_neg hgood

end

/-- Settles O19: the words are `spawnOne` once for each visible thread, and the bin found says what that does. -/
theorem spawnWords : Obligations.SpawnWords := by
  intro c d b a
  have hspawn := does_of_noCheck (exec_spawn c d a b) rfl rfl
  have hspawnf := does_of_noCheck (exec_spawnf c d a b) rfl rfl
  refine ⟨hspawn, hspawnf, fun fast entry arg r e t m => ⟨spawnOne_of_bad_entry fast arg r e, fun haligned hspace hshut hfull => ?full⟩, ?alone⟩
  case full => rw [spawnOne_of_good_entry fast arg r e haligned hspace, binFor_of_full hshut hfull]
  case alone =>
    intro fast s iss t i x w e m bins entry time mine args y hruns hmembers hdead hvisible haligned hspace hbin
    have hfound : m.binFor t entry = some (i, x) := by
      rcases hbin with hopen | ⟨hshut, hi, hfree, hfirst, rfl⟩
      · exact binFor_of_open hopen
      · exact binFor_of_free hshut hi hfree hfirst
    have hlive : iss.live = [t] := (Issue.live_of_dead hdead).trans hmembers
    have hword : Does w c always (once false (fun e t takers m =>
        spawnOne fast (fun x => e.now.vv x (2 * a.toNat)) (fun x => e.now.v x b.toNat) d.toNat e t takers m)) := by
      cases fast with
      | false => exact hspawn
      | true => exact hspawnf
    have hplaced := spawnOne_of_good_entry fast (entry := fun x => e.now.vv x (2 * a.toNat)) (m := m) (fun x => e.now.v x b.toNat) d.toNat e
      haligned hspace
    rw [hfound] at hplaced
    rw [hword s iss hruns, hlive, once_of_alone _ _ _ hvisible, hplaced]
    rfl

end Sys2Proof.Machine
end

section
/-! When a collective completes and when it waits (O20; 07 R139, R156, 15 R351). -/

namespace Sys2Proof.Machine

/-- A word whose meaning is `collective` takes its result once its participants have arrived or where it is alone, and waits otherwise. -/
theorem collective_of {i : Instr} {c : Bool} {m d : Nat} (he : ∀ s, exec i s = collective i m d s) (hc : (opInfo i).c = c) :
    Collective i c m d := by
  constructor
  · refine does_congr (fun e _ live x => ?effect) (does_of_runWord he hc fun e l slot h => ?passes)
    case effect =>
      congr 1
      funext x t
      cases e.grantOf t <;> rfl
    case passes =>
      rcases hg : e.grantOf l with _ | g
      · have hunnamed := h.resolve_left (by simp [hg])
        simp only [hunnamed, Bool.false_eq_true, if_false]
      · rfl
  · exact fails_of_runWord he hc fun e l slot ⟨hgrant, hnamed⟩ => by simp only [hgrant, hnamed, if_true]

/-- Settles O20: each of the words is a `collective`. -/
theorem collectiveWords : Obligations.CollectiveWords := by
  intro c d a q p n td ta m
  refine ⟨?shflIdx, ?shflXor, ?shflUp, ?shflDn, ?voteAll, ?voteAny, ?ballot, ?matchLanes, ?radd, ?rminS32, ?rmaxS32, ?rminN32, ?rand, ?ror, ?rxor,
    ?rfadd, ?ttrn⟩
  case shflIdx => exact collective_of (exec_shflIdx c d a m) rfl
  case shflXor => exact collective_of (exec_shflXor c d a m) rfl
  case shflUp => exact collective_of (exec_shflUp c d a m) rfl
  case shflDn => exact collective_of (exec_shflDn c d a m) rfl
  case voteAll => exact collective_of (exec_voteAll c q n p m) rfl
  case voteAny => exact collective_of (exec_voteAny c q n p m) rfl
  case ballot => exact collective_of (exec_ballot c d n p m) rfl
  case matchLanes => exact collective_of (exec_matchLanes c d a m) rfl
  case radd => exact collective_of (exec_radd c d a m) rfl
  case rminS32 => exact collective_of (exec_rminS32 c d a m) rfl
  case rmaxS32 => exact collective_of (exec_rmaxS32 c d a m) rfl
  case rminN32 => exact collective_of (exec_rminN32 c d a m) rfl
  case rand => exact collective_of (exec_rand c d a m) rfl
  case ror => exact collective_of (exec_ror c d a m) rfl
  case rxor => exact collective_of (exec_rxor c d a m) rfl
  case rfadd => exact collective_of (exec_rfadd c d a m) rfl
  case ttrn => exact collective_of (exec_ttrn c td ta m) rfl

end Sys2Proof.Machine
end


section
/-! What a collective gives its participants (O21; 07 R159 to R161): the participant on a lane, masks of participants by their bits, and reductions. -/

namespace Sys2Proof.Machine

section
variable {m : Chip} {ps : List Nat}

/-- A participant alone on its lane is the one that the lane names. -/
theorem partOn_laneBit {x : Nat} (hx : x ∈ ps) (halone : ∀ y ∈ ps, m.laneBit y = m.laneBit x → y = x) (hlane : m.laneBit x < 32) :
    partOn m ps (m.laneBit x) = some x := by
  have hfind : (ps.find? (fun p => decide ((m.laneBit p : Int) = m.laneBit x))).isSome = true :=
    List.find?_isSome.mpr ⟨x, hx, decide_eq_true rfl⟩
  obtain ⟨y, hy⟩ := Option.isSome_iff_exists.mp hfind
  have hsame : m.laneBit y = m.laneBit x := by simpa using List.find?_some hy
  rw [partOn, if_pos (by omega), hy, halone y (List.mem_of_find?_eq_some hy) hsame]

/-- A lane outside the group, or one that no participant stands on, names none. -/
theorem partOn_eq_none {l : Int} (h : l < 0 ∨ 31 < l ∨ ∀ x ∈ ps, (m.laneBit x : Int) ≠ l) : partOn m ps l = none := by
  unfold partOn
  split
  · have hnone := (h.resolve_left (by omega)).resolve_left (by omega)
    exact List.find?_eq_none.mpr fun x hx => by simpa using hnone x hx
  · rfl

/-- A bit of a mask of participants (07 R160). -/
theorem getLsbD_lanesWhere (f : Nat → Bool) {j : Nat} (hj : j < 32) :
    (lanesWhere m ps f).getLsbD j = true ↔ ∃ x ∈ ps, m.laneBit x = j ∧ f x = true := by
  have hbit (x : Nat) : (BitVec.ofNat 32 (2 ^ m.laneBit x)).getLsbD j = decide (m.laneBit x = j) := by
    rw [BitVec.getLsbD_ofNat, Nat.testBit_two_pow, decide_eq_true hj, Bool.true_and]
  simp only [lanesWhere, Chip.maskOfThreads, getLsbD_foldl_or, hbit, BitVec.ofNat_eq_ofNat, BitVec.getLsbD_zero, Bool.false_or, List.any_eq_true,
    List.mem_filter, decide_eq_true_eq, and_assoc, and_comm (a := f _ = true)]

end

/-! Reductions (07 R161): what a fold over words keeps. -/

/-- Bits of words met one after the other. -/
theorem getLsbD_foldl_and {w : Nat} (f : Nat → BitVec w) (l : List Nat) (r : BitVec w) (k : Nat) :
    (l.foldl (fun r j => r &&& f j) r).getLsbD k = (r.getLsbD k && l.all fun j => (f j).getLsbD k) := by
  induction l generalizing r with
  | nil => simp
  | cons j l ih => rw [List.foldl_cons, ih, BitVec.getLsbD_and, List.all_cons, Bool.and_assoc]

/-- A bit of words added bit by bit tells whether an odd number of them have it. -/
theorem getLsbD_foldl_xor {w : Nat} (f : Nat → BitVec w) (l : List Nat) (r : BitVec w) (k : Nat) :
    (l.foldl (fun r j => r ^^^ f j) r).getLsbD k = (r.getLsbD k ^^ decide ((l.filter fun j => (f j).getLsbD k).length % 2 = 1)) := by
  induction l generalizing r with
  | nil => simp
  | cons j l ih =>
    rw [List.foldl_cons, ih, BitVec.getLsbD_xor, Bool.xor_assoc, List.filter_cons]
    congr 1
    cases (f j).getLsbD k with
    | false => simp
    | true =>
      rw [if_pos rfl, List.length_cons, Bool.true_xor, ← decide_not]
      exact decide_eq_decide.mpr (by omega)

/-- A fold that keeps of two values the one whose key is not above the other's gives a value of the list whose key is not above any. -/
theorem foldl_least {α β : Type} [LinearOrder β] (key : α → β) {f : α → α → α} (hf : ∀ x y, f x y = if key x ≤ key y then x else y) (x : α)
    (xs : List α) : xs.foldl f x ∈ x :: xs ∧ ∀ y ∈ x :: xs, key (xs.foldl f x) ≤ key y := by
  induction xs generalizing x with
  | nil => simp
  | cons z zs ih =>
    obtain ⟨hmem, hleast⟩ := ih (f x z)
    have hfirst : (f x z = x ∨ f x z = z) ∧ key (f x z) ≤ key x ∧ key (f x z) ≤ key z := by
      rw [hf]
      split
      · rename_i h
        exact ⟨.inl rfl, le_rfl, h⟩
      · rename_i h
        exact ⟨.inr rfl, (not_le.mp h).le, le_rfl⟩
    obtain ⟨hone, hx, hz⟩ := hfirst
    have hbelow := hleast (f x z) List.mem_cons_self
    rw [List.foldl_cons]
    refine ⟨?_, ?_⟩
    · rcases List.mem_cons.mp hmem with h | h
      · rw [h]
        rcases hone with h | h <;> simp [h]
      · exact List.mem_cons_of_mem _ (List.mem_cons_of_mem _ h)
    · intro y hy
      rcases List.mem_cons.mp hy with rfl | hy
      · exact hbelow.trans hx
      · rcases List.mem_cons.mp hy with rfl | hy
        · exact hbelow.trans hz
        · exact hleast y (List.mem_cons_of_mem _ hy)

section
variable {m : Chip} {ps : List Nat} {a : Nat} {f : Word → Word → Word}

/-- A reduction by an operation with a neutral word folds from that word. -/
theorem reduceV_eq_foldl {u : Word} (hu : ∀ x, f u x = x) (hps : ps ≠ [] ∨ u = 0) : reduceV m ps a f = ps.foldl (fun w p => f w (m.v p a)) u := by
  cases ps with
  | nil => exact (hps.resolve_left (· rfl)).symm
  | cons p qs => simp only [reduceV, List.map_cons, List.foldl_cons, List.foldl_map, hu]

/-- A reduction that keeps the word with the least key gives that of a participant. -/
theorem reduceV_least {β : Type} [LinearOrder β] (key : Word → β) (hf : ∀ x y, f x y = if key x ≤ key y then x else y) (hps : ps ≠ []) :
    ∃ x ∈ ps, reduceV m ps a f = m.v x a ∧ ∀ y ∈ ps, key (m.v x a) ≤ key (m.v y a) := by
  cases ps with
  | nil => exact absurd rfl hps
  | cons p qs =>
    obtain ⟨hmem, hleast⟩ := foldl_least key hf (m.v p a) (qs.map fun q => m.v q a)
    rw [← List.map_cons (f := fun q => m.v q a)] at hmem hleast
    obtain ⟨x, hx, he⟩ := List.mem_map.mp hmem
    refine ⟨x, hx, he.symm, fun y hy => ?_⟩
    rw [he]
    exact hleast _ (List.mem_map_of_mem hy)

end

/-- Settles O21: a shuffle reads the participant on a lane, a vote asks all or any, a mask is read bit by bit, and a reduction is a fold. -/
theorem collectiveResults : Obligations.CollectiveResults := by
  intro m set t c d a q p n k ps src res
  have hfield (x : Word) : fieldNat x.toNat 0 5 = x.toNat % 32 := by simp [fieldNat]
  refine ⟨fun x => partOn_laneBit, fun l => partOn_eq_none, ?idx, ?lanexor, rfl, rfl, ?all, ?any, ?ballot, ?lanes, ?radd, rfl, fun hps => ?reduced⟩
  case idx =>
    rw [← hfield]
    rfl
  case lanexor =>
    rw [← hfield]
    rfl
  case all =>
    simp only [res, collectiveResult, Grant.flag.injEq, List.all_eq_true]
    rfl
  case any =>
    simp only [res, collectiveResult, Grant.flag.injEq, List.any_eq_true]
    rfl
  case ballot => exact ⟨_, rfl, fun j hj => getLsbD_lanesWhere _ hj⟩
  case lanes =>
    refine ⟨_, rfl, fun j hj => (getLsbD_lanesWhere _ hj).trans ?_⟩
    simp only [beq_iff_eq]
    rfl
  case radd =>
    refine congrArg (Grant.value · tagInt) ((reduceV_eq_foldl BitVec.zero_add (.inr rfl)).trans ?_)
    rw [List.sum_eq_foldl, List.foldl_map]
    rfl
  case reduced =>
    have hleast {β : Type} [LinearOrder β] {f : Word → Word → Word} (key : Word → β) (hf : ∀ x y, f x y = if key x ≤ key y then x else y) :=
      reduceV_least (m := m) (a := a.toNat) key hf hps
    have hfold {f : Word → Word → Word} {u : Word} (hu : ∀ x, f u x = x) := reduceV_eq_foldl (m := m) (a := a.toNat) hu (.inl hps)
    refine ⟨?mins, ?maxs, ?minn, ?and, ?or, ?exclusive⟩
    case mins =>
      obtain ⟨x, hx, he, hy⟩ := hleast BitVec.toInt fun _ _ => rfl
      exact ⟨x, hx, congrArg (Grant.value · tagInt) he, hy⟩
    case maxs =>
      obtain ⟨x, hx, he, hy⟩ := hleast (fun w => OrderDual.toDual w.toInt) fun _ _ => rfl
      exact ⟨x, hx, congrArg (Grant.value · tagInt) he, hy⟩
    case minn =>
      obtain ⟨x, hx, he, hy⟩ := hleast BitVec.toNat fun _ _ => rfl
      exact ⟨x, hx, congrArg (Grant.value · tagInt) he, hy⟩
    case and =>
      refine ⟨_, congrArg (Grant.value · tagInt) (hfold fun _ => BitVec.allOnes_and), fun j hj => ?_⟩
      rw [getLsbD_foldl_and, BitVec.getLsbD_allOnes, decide_eq_true hj, Bool.true_and, List.all_eq_true]
    case or =>
      refine ⟨_, congrArg (Grant.value · tagInt) (hfold (u := 0) fun _ => BitVec.zero_or), fun j hj => ?_⟩
      rw [getLsbD_foldl_or, BitVec.ofNat_eq_ofNat, BitVec.getLsbD_zero, Bool.false_or, List.any_eq_true]
    case exclusive =>
      refine ⟨_, congrArg (Grant.value · tagInt) (hfold (u := 0) fun _ => BitVec.zero_xor), fun j hj => ?_⟩
      rw [getLsbD_foldl_xor, BitVec.ofNat_eq_ofNat, BitVec.getLsbD_zero, Bool.false_xor]

end Sys2Proof.Machine
end

section
/-! Cache control and the stash window (O31; 11 R249, R250). -/

namespace Sys2Proof.Machine

/-- Settles O31: each word is its effect without a check of its own, but STASH.MAP, which is checked for its address and its descriptor. -/
theorem cacheWords : Obligations.CacheWords := by
  intro c u a h b fetch window
  refine ⟨?pref, ?renew, ?flush, ?inval, ?map, ?wb, ?drop, ?misaligned, ?descriptor⟩
  case pref => exact does_of_noCheck (exec_pref c u a h) rfl rfl
  case renew =>
    refine does_of_noCheck (exec_renew c a) rfl (once_congr fun e t takers m => ?_)
    simp only [above_space_iff]
    split
    · rfl
    · cases translate e m (m.coreOf t) (m.ctxOf t) (m.thread t).level (e.now.vv t (2 * a.toNat)).toNat .read with
      | ok p far dev =>
        cases far with
        | true => rfl
        | false => exact if_congr (by rw [Bool.and_eq_true, Bool.not_eq_true']) rfl rfl
      | fault cause sub info => rfl
      | serve => rfl
      | migrating => rfl
  case flush => exact does_of_noCheck (exec_flush c u a) rfl rfl
  case inval => exact does_of_noCheck (exec_inval c u a) rfl rfl
  case map =>
    exact does_of_runWord (exec_stashMap c u a b) rfl fun e l slot ⟨haligned, hspace, hwindow⟩ =>
      (if_neg (not_not.mpr haligned)).trans ((if_neg (not_not.mpr (Nat.div_eq_of_lt hspace))).trans
        (if_neg (mt Option.isNone_iff_eq_none.mp (Option.isSome_iff_ne_none.mp hwindow))))
  case wb => exact does_of_noCheck (exec_stashWb c u) rfl rfl
  case drop => exact does_of_noCheck (exec_stashDrop c u) rfl rfl
  case misaligned => exact fails_of_runWord (exec_stashMap c u a b) rfl fun e l slot h => if_pos h
  case descriptor =>
    exact fails_of_runWord (exec_stashMap c u a b) rfl fun e l slot ⟨haligned, hspace, hwindow⟩ =>
      (if_neg (not_not.mpr haligned)).trans ((if_neg (not_not.mpr (Nat.div_eq_of_lt hspace))).trans
        (if_pos (Option.isNone_iff_eq_none.mpr hwindow)))

end Sys2Proof.Machine
end

section
/-! Status words (O41, O42; 08 R180, 19 R429, R430): what SRD and SWR do, and what a write of a status word leaves to read and leaves as it was. -/

namespace Sys2Proof.Machine

/-- Protected mode compares every register that SWR reads (21 R456). -/
theorem pairData_swr (c : Bool) (d : BitVec 7) (imm : BitVec 9) : pairData (.swr c d imm) = (infoSwr c d imm).srcs.map (·.reg) := by
  have hdata : ∀ x ∈ (infoSwr c d imm).srcs, decide (x.code ≠ 1) = true := by simp [infoSwr]
  exact congrArg (List.map _) (List.filter_eq_self.mpr hdata)

/-- Settles O41: neither word has a check of its own. The name stands apart from the operands' `statusWords`. -/
theorem System.statusWords : Obligations.StatusWords := by
  intro c d imm
  constructor
  · exact does_of_runKind (exec_srd c d imm) ⟨rfl, fun _ _ => rfl, fun _ _ _ => rfl, fun _ _ _ _ => rfl⟩ rfl fun _ _ _ _ => rfl
  · refine does_of_runKind (exec_swr c d imm) ⟨rfl, fun _ _ => rfl, fun _ _ _ => rfl, fun pre l slot h => ?pair⟩ rfl fun _ _ _ _ => rfl
    rwa [pairCheck, pairData_swr] at h

/-! What a write leaves as it was. -/

/-- Machine `d` differs from `c` in no thread but `t`, and there in no register and neither in the level nor in the PC. -/
def OtherWords (t : Nat) (c d : Chip) : Prop :=
  (∀ u, u ≠ t → d.thread u = c.thread u) ∧
    (d.thread t).regs = (c.thread t).regs ∧ (d.thread t).level = (c.thread t).level ∧ (d.thread t).pc = (c.thread t).pc

section
variable {t : Nat} {c : Chip}

theorem otherWords_refl : OtherWords t c c := ⟨fun _ _ => rfl, rfl, rfl, rfl⟩

theorem otherWords_setTeam (k : Nat) (x : Team) : OtherWords t c (c.setTeam k x) := otherWords_refl

theorem otherWords_setCtx (k : Nat) (x : Ctx) : OtherWords t c (c.setCtx k x) := otherWords_refl

theorem otherWords_setThread {x : Thread} (hregs : x.regs = (c.thread t).regs) (hlevel : x.level = (c.thread t).level)
    (hpc : x.pc = (c.thread t).pc) : OtherWords t c (c.setThread t x) := by
  refine ⟨fun u hu => ?_, ?_⟩
  · rw [Chip.thread_setThread, if_neg hu]
  · rw [Chip.thread_setThread_same]
    exact ⟨hregs, hlevel, hpc⟩

/-- A status word is of the thread, of its team or of its context. -/
theorem otherWords_statusWrite (a : Nat) (v : BitVec 64) : OtherWords t c (statusWrite c t a v) := by
  simp only [statusWrite, apply_ite (OtherWords t c), otherWords_refl, otherWords_setTeam, otherWords_setCtx, otherWords_setThread, ite_self]

end

section
variable {m : Chip} {t a : Nat} {v : BitVec 64}

theorem Chip.teamOf_setTeam (c : Chip) (k u : Nat) (x : Team) : (c.setTeam k x).teamOf u = c.teamOf u := rfl

/-- Of the user words only BARTIMEOUT and CONTVEC can be written (08 R180). -/
theorem statusWrite_readOnly (h : a < 0x100 ∧ a ≠ 0x012 ∧ a ≠ 0x022) : statusWrite m t a v = m := by
  obtain ⟨huser, htimeout, hcontvec⟩ := h
  have habove {b : Nat} (hb : 0x100 ≤ b) : a ≠ b := by omega
  simp [statusWrite, huser, htimeout, hcontvec, habove]

/-! The words kept per context that may be written (19 R429). -/

theorem statusWrite_context : ∀ a ∈ contextWords, statusWrite m t a v = m.setCtx (m.ctxOf t) ((m.ctx (m.ctxOf t)).write a v) := by
  simp [contextWords, statusWrite]

theorem statusRead_context : ∀ a ∈ contextWords, statusRead m t a = (m.ctx (m.ctxOf t)).word a := by
  simp [contextWords, statusRead]

/-- Such a word reads as its context holds it. -/
theorem statusRead_statusWrite_context (ha : a ∈ contextWords) :
    statusRead (statusWrite m t a v) t a = ((m.ctx (m.ctxOf t)).write a v).word a := by
  rw [statusRead_context a ha, statusWrite_context a ha]
  exact congrArg (Ctx.word · a) (Sparse.get_set_same _ _ _ _)

/-- The words of 64 bits that hold what is written: the vector, the bases and the lengths. -/
theorem word_write_whole {x : Ctx} : ∀ a ∈ [0x100, 0x140, 0x160, 0x164, 0x167, 0x183, 0x184, 0x18A, 0x18B], (x.write a v).word a = v := by
  simp [Ctx.write, Ctx.word]

end

/-- TRAPCAUSE as a write leaves it: its low ten bits as written, the flag above them kept (19 R424, R429). -/
theorem getLsbD_trapCause (cause : Word) (v : BitVec 64) (j : Nat) :
    (((cause &&& 0x400) ||| (v.setWidth 32 &&& 0x3FF)).setWidth 64).getLsbD j = if j < 10 then v.getLsbD j else (cause &&& 0x400).getLsbD j := by
  have hten : (0x3FF : Word).getLsbD j = decide (j < 10) := by
    rw [show (0x3FF : Word) = BitVec.ofNat 32 (2 ^ 10 - 1) from rfl, BitVec.getLsbD_ofNat, Nat.testBit_two_pow_sub_one, ← Bool.decide_and]
    exact decide_eq_decide.mpr (by omega)
  have hflag : (0x400 : Word).getLsbD j = decide (j = 10) := by
    rw [show (0x400 : Word) = BitVec.ofNat 32 (2 ^ 10) from rfl, BitVec.getLsbD_ofNat, Nat.testBit_two_pow, ← Bool.decide_and]
    exact decide_eq_decide.mpr (by omega)
  simp only [BitVec.getLsbD_setWidth, BitVec.getLsbD_or, BitVec.getLsbD_and, hten, hflag]
  by_cases hj : j < 10
  · simp [hj, show j < 64 by omega, show j < 32 by omega, show j ≠ 10 by omega]
  · simp [hj]
    omega

/-- Settles O42: a word of the thread or its team reads as its field was written, a word of the context as `Ctx.write` leaves it. -/
theorem statusWordsReadBack : Obligations.StatusWordsReadBack := by
  intro m t v wr rd
  have hcontext {a : Nat} {w : BitVec 64} (ha : a ∈ contextWords) (hw : ((m.ctx (m.ctxOf t)).write a v).word a = w) : rd a = w :=
    (statusRead_statusWrite_context ha).trans hw
  have hfield (k : Nat) : fieldNat v.toNat 0 k = v.toNat % 2 ^ k := by simp [fieldNat]
  refine ⟨?trappc, ?info, ?cause, ?whole, ?leaselen, ?fairlim, ?pagelease, ?bintime, ?ckptrate, ?others, ?own, ?readOnly⟩
  case trappc => simp [rd, wr, statusRead, statusWrite]
  case info => simp [rd, wr, statusRead, statusWrite, Chip.team_setTeam, Chip.teamOf_setTeam]
  case cause =>
    intro j
    refine Eq.trans ?_ (getLsbD_trapCause _ v j)
    simp [rd, wr, statusRead, statusWrite]
  case whole =>
    refine List.forall_mem_cons.mpr ⟨?contvec, fun a ha => hcontext ?word ?kept⟩
    case contvec => simp [rd, wr, statusRead, statusWrite, Chip.team_setTeam, Chip.teamOf_setTeam]
    case word =>
      revert a
      decide
    case kept => exact word_write_whole a ha
  case leaselen => exact hcontext (by decide) (congrArg (BitVec.ofNat 64 <| max 1 ·) (hfield 8))
  case fairlim => exact hcontext (by decide) (congrArg (BitVec.ofNat 64 <| max 1 ·) (hfield 16))
  case pagelease => exact hcontext (by decide) (congrArg (BitVec.ofNat 64 <| max 1 ·) (hfield 16))
  case bintime => exact hcontext (by decide) (congrArg (BitVec.ofNat 64) (hfield 16))
  case ckptrate => exact hcontext (by decide) (congrArg (BitVec.ofNat 64 <| min 400 ·) (hfield 10))
  case others => exact fun a => (otherWords_statusWrite a v).1
  case own => exact fun a => (otherWords_statusWrite a v).2
  case readOnly =>
    have huser : ∀ a ∈ [0x000, 0x001, 0x002, 0x003, 0x004, 0x005, 0x006, 0x007, 0x008, 0x009, 0x00A, 0x00B, 0x010, 0x011, 0x020, 0x021],
        a < 0x100 ∧ a ≠ 0x012 ∧ a ≠ 0x022 := by decide
    exact fun a ha => statusWrite_readOnly (huser a ha)

end Sys2Proof.Machine
end

section
/-! The events of the steward, of stops and saves, and of checkpoints (O57; 08 R182 to R184, 09 R185 to R195, 18 R392 to R421): what each does
where its condition is met. -/

namespace Sys2Proof.Machine

/-- An event that changes the machine's tables as `g` says, where the stated tables are those. -/
theorem happens_of_tables {i : Instr} {own : State → Prop} {f g : State → Chip} (he : ∀ s, exec i s = event g s)
    (h : ∀ s, own s → g s = f s) : Happens i own (fun s => { s with now := f s }) :=
  happens_of_event he fun s ho => by rw [h s ho]

/-- An event that happens under a weaker condition, or whose change is written in another way. -/
theorem happens_congr {i : Instr} {own own' : State → Prop} {f f' : State → State} (h : Happens i own f) (hown : ∀ s, own' s → own s)
    (hf : ∀ s, own' s → f s = f' s) : Happens i own' f' :=
  fun s hs ho => (h s hs (hown s ho)).trans (congrArg Host.Outcome.next (hf s ho))

/-! Requests (18 R391). -/

@[simp] theorem Chip.ctx_setCtx_same (c : Chip) (k : Nat) (x : Ctx) : (c.setCtx k x).ctx k = x := Sparse.get_set_same _ _ _ _

/-- With no request waiting none is served. -/
theorem nextRequest_of_nil {e : State} {c : Chip} {ctx : Nat} (h : (c.ctx ctx).requests = []) : nextRequest e c ctx = c := by
  simp only [nextRequest, serveRequests, h]

/-! Threads that wait again leave the contexts as they are (18 R395). -/

section
variable (c : Chip)

theorem ctxs_foldl_setThread (f : Chip → Nat → Thread) (l : List Nat) : (l.foldl (fun c t => c.setThread t (f c t)) c).ctxs = c.ctxs :=
  foldl_keeps Chip.ctxs (f := fun c t => c.setThread t (f c t)) (fun _ _ => rfl) l c

theorem ctxs_putPen (p : Nat) (l : List Nat) : (c.putPen p l).ctxs = c.ctxs := ctxs_foldl_setThread c _ l

theorem ctxs_putFold (k ctx : Nat) (lvl : Level) (pc : Addr) (l : List Nat) : (c.putFold k ctx lvl pc l).ctxs = c.ctxs :=
  ctxs_foldl_setThread _ _ l

theorem ctxs_setCroft (k : Nat) (f : Croft) : (c.setCroft k f).ctxs = c.ctxs := rfl

theorem ctxs_passPen (k p : Nat) : (c.passPen k p).ctxs = c.ctxs := by
  unfold Chip.passPen
  dsimp only
  split
  · rfl
  · split
    · rfl
    · exact ctxs_putPen _ _ _

theorem ctxs_move (k : Nat) (l : List Nat) (src : Option Nat) (ctx : Nat) (lvl : Level) (pc : Addr) :
    (c.move k l src ctx lvl pc).ctxs = c.ctxs := by
  unfold Chip.move
  dsimp only
  split
  · split <;> simp only [apply_ite Chip.ctxs, ctxs_passPen, ctxs_putPen, ite_self]
  · split
    · split <;> simp only [apply_ite Chip.ctxs, ctxs_putFold, ctxs_putPen, ctxs_setCroft, ite_self]
    · split <;> simp only [ctxs_putFold, ctxs_putPen, ctxs_setCroft]

theorem ctxs_moveAll (l : List Nat) : (c.moveAll l).ctxs = c.ctxs :=
  foldl_keeps Chip.ctxs (fun d k => by
    split
    · rfl
    · exact ctxs_move _ _ _ _ _ _ _) _ _

theorem ctxs_restartWaits (l : List Nat) : (c.restartWaits l).ctxs = c.ctxs :=
  (ctxs_moveAll _ _).trans (ctxs_foldl_setThread c _ _)

@[simp] theorem Chip.ctx_restartWaits (l : List Nat) (k : Nat) : (c.restartWaits l).ctx k = c.ctx k := by
  simp only [Chip.ctx, ctxs_restartWaits]

end

/-! Queues and launches (09 R189 to R195). -/

/-- A record that can be read is taken, and what the steward reads of its queue is accessed (09 R191). -/
theorem happens_stewardTake (ctx q : Nat) (c : Chip) (k : Queue) (r p : Nat) : Happens (.stewardTake ctx q)
    (fun s => (Sparse.find? s.now.ctxs ctx).isSome = true ∧ (s.now.ctx ctx).served = true ∧
      enableQueue s (syncQueue s (stewardTouch s s.now ctx [(s.now.ctx ctx).table + 8 * q]) ctx q) ctx q = c ∧
      Sparse.find? (c.ctx ctx).queues q = some k ∧ k.state ≠ .disabled ∧ k.state ≠ .faulted ∧ takeWaits s c ctx k = false ∧
      (deviceRead s c ctx (k.header + 0x10)).isSome = true ∧ nextRecord s c ctx k = some r ∧ r ≠ 0 ∧ deviceRead s c ctx r = some p ∧
      badRecordAddr s c ctx r = false)
    (fun s => { s with now := takeRecord s (stewardTouch s c ctx (queueReads s c ctx k.header)) ctx q k r p }) := by
  refine happens_of_tables (exec_stewardTake ctx q) fun s hown => ?_
  obtain ⟨hctx, hserved, hc, hk, hon, hsound, hwaits, hheader, hnext, hr, hp, hgood⟩ := hown
  obtain ⟨r, rfl⟩ := Nat.exists_eq_succ_of_ne_zero hr
  have hctx' : (Sparse.find? s.now.ctxs ctx).isNone = false := by simpa using hctx
  have hheader' : (deviceRead s c ctx (k.header + 0x10)).isNone = false := by simpa using hheader
  simp [hctx', hserved, hc, hk, hon, hsound, hwaits, hheader', hnext, hp, hgood]

/-- A launch is ready once every word it waits for is done, or, where it proceeds all the same, done or killed (09 R189, R191). -/
theorem happens_dependencesMet_met (n : Nat) (l : Launch) : Happens (.dependencesMet n)
    (fun s => Sparse.find? s.now.launches n = some l ∧ l.state = .pending ∧
      ∀ a ∈ l.afters, wordState s s.now l.ctx a = 0 ∨ (l.proceed = true ∧ wordState s s.now l.ctx a = 2))
    (fun s => { s with now := settleQueue s (readyLaunch s s.now n l) l.ctx l.qix }) := by
  refine happens_of_tables (exec_dependencesMet n) fun s hown => ?_
  obtain ⟨hl, hpending, hmet⟩ := hown
  have hnone : (!l.proceed && (l.afters.map (wordState s s.now l.ctx)).contains 2) = false := by
    cases hproceed : l.proceed with
    | true => rfl
    | false =>
      have hzero : ∀ a ∈ l.afters, wordState s s.now l.ctx a ≠ 2 := by
        intro a ha hkilled
        obtain hdone | ⟨hproceeds, -⟩ := hmet a ha
        · omega
        · exact Bool.false_ne_true (hproceed.symm.trans hproceeds)
      simpa using hzero
  have hall : (l.afters.map (wordState s s.now l.ctx)).all (fun x => decide (x = 0) || decide (x = 2)) = true := by
    simpa using fun a ha => (hmet a ha).imp_right And.right
  simp only [hl, hpending, hnone, hall, ne_eq, not_true_eq_false, if_false, if_true, Bool.false_eq_true]

/-- A launch that does not proceed past a killed one is killed with it (09 R191, R193). -/
theorem happens_dependencesMet_killed (n : Nat) (l : Launch) : Happens (.dependencesMet n)
    (fun s => Sparse.find? s.now.launches n = some l ∧ l.state = .pending ∧ l.proceed = false ∧ doneWaits s s.now l.ctx l.doneAddr = false ∧
      ∃ a ∈ l.afters, wordState s s.now l.ctx a = 2)
    (fun s => { s with now := settleQueue s (killLaunch s s.now n 11) l.ctx l.qix }) := by
  refine happens_of_tables (exec_dependencesMet n) fun s hown => ?_
  obtain ⟨hl, hpending, hproceed, hwaits, hbad⟩ := hown
  have hsome : (l.afters.map (wordState s s.now l.ctx)).contains 2 = true := by simpa using hbad
  simp only [hl, hpending, hproceed, hsome, hwaits, ne_eq, not_true_eq_false, Bool.not_false, Bool.and_self, if_false, if_true,
    Bool.false_eq_true]

/-- The first ready head that has room is placed, and no other (09 R194). -/
theorem placeCluster_of_room {e : State} {c d : Chip} {h : Nat × Nat × Launch} {rest : List (Nat × Nat × Launch)}
    (hheads : c.readyHeads = h :: rest) (hroom : placeNext e c h.2.1 = some d) :
    placeCluster e c =
      let y := d.ctx h.2.2.ctx
      let d' := if y.state = .loaded then d.setCtx h.2.2.ctx { y with state := .running } else d
      settleQueue e { d' with turn := h.1 } h.2.2.ctx h.2.2.qix := by
  simp only [placeCluster, hheads, List.foldl_cons, hroom, Bool.false_eq_true, if_false]
  rw [List.foldl_fixed']
  exact fun _ => if_pos rfl

/-! Marks (18 R415, R416). -/

/-- A mark that is due is asked for, or passed over while a checkpoint is staged. -/
theorem happens_automaticMark (ctx : Nat) : Happens (.automaticMark ctx)
    (fun s => s.board.split.getLsbD 1 = false ∧ (s.now.ctx ctx).state = .running ∧ (s.now.ctx ctx).ckptint ≠ 0 ∧
      (s.now.ctx ctx).ckptint.toNat ≤ (s.now.ctx ctx).sinceMark ∧
      ∀ r ∈ (s.now.ctx ctx).requests ++ (s.now.ctx ctx).current.toList, ∀ f, r ≠ .mark f)
    (fun s =>
      let c := if (s.now.ctx ctx).staged then s.now.setCtx ctx { s.now.ctx ctx with sinceMark := 0 } else postRequest s s.now ctx (.mark false)
      { s with now := c }) := by
  refine happens_of_tables (exec_automaticMark ctx) fun s hown => if_neg ?_
  obtain ⟨hsplit, hstate, hint, hdue, hunasked⟩ := hown
  rintro (h | h | h | h | h)
  · exact Bool.false_ne_true (hsplit.symm.trans h)
  · exact h hstate
  · exact hint h
  · exact Nat.not_lt.mpr hdue h
  · obtain ⟨r, hr, hmark⟩ := List.any_eq_true.mp h
    cases r with
    | mark f => exact hunasked _ hr f rfl
    | _ => exact Bool.false_ne_true hmark

/-- A mark is staged, or fails for want of room, and its context runs again; it holds parts alone only where neither the request nor a new
base asks for the whole (18 R415 to R417). -/
theorem leaves_markStagingComplete (ctx : Nat) (f : Bool) : Leaves (.markStagingComplete ctx)
    (fun s => (s.now.ctx ctx).state = .stopped ∧ (s.now.ctx ctx).current = some (.mark f) ∧ (s.now.ctx ctx).requests = [])
    (fun s t => (t.now.ctx ctx).state = .running ∧ (t.now.ctx ctx).current = none ∧ (t.now.ctx ctx).sinceMark = 0 ∧ t.mem = s.mem ∧
      ∃ k, Sparse.find? (t.now.ctx ctx).ckpts (s.now.ctx ctx).ckptseq.toNat = some k ∧ (k.state = .staged ∨ k.state = .failed) ∧
        k.floor = (s.now.ctx ctx).floor ∧ (k.full = false → f = false ∧ (s.now.ctx ctx).ckptFresh = false)) := by
  refine leaves_of_eventS (exec_markStagingComplete ctx) fun s hown => ?_
  obtain ⟨hstate, hcurrent, hrequests⟩ := hown
  simp only [hstate, hcurrent]
  rw [nextRequest_of_nil (by simp [hrequests])]
  simp only [Chip.ctx_restartWaits, Chip.ctx_setCtx_same, true_and]
  refine ⟨_, Sparse.find?_set_same _ _ _, ite_eq_or_eq _ _ _, rfl, fun hfull => ?_⟩
  cases hwhole : f || (s.now.ctx ctx).ckptFresh || !(s.now.ctx ctx).ckpts.any (fun p => p.2.full && decide (p.2.state = .complete)) with
  | true => simp [hwhole] at hfull
  | false =>
    simp only [Bool.or_eq_false_iff] at hwhole
    exact hwhole.1

/-- Settles O57: each clause is one branch of its event, and with no request waiting none follows it. -/
theorem stewardAndContextEvents : Obligations.StewardAndContextEvents := by
  intro ctx q n
  dsimp only
  refine ⟨⟨?enable, ?take⟩, ?depend, ?place, ?retire, ?quiescent, ?save, ?preempt, ?move, ?automatic, ?staged, ?stream⟩
  case enable =>
    refine happens_of_tables (exec_queueEnableChange ctx q) fun s hctx => if_neg ?_
    rw [Option.isNone_iff_eq_none]
    exact Option.isSome_iff_ne_none.mp hctx
  case take => exact happens_stewardTake ctx q
  case depend => exact fun l => ⟨happens_dependencesMet_met n l, happens_dependencesMet_killed n l⟩
  case place =>
    refine fun h rest c => happens_of_eventS exec_clusterPlacement fun s hown => ?_
    rw [placeCluster_of_room hown.1 hown.2]
  case retire =>
    intro core
    refine happens_of_eventS (exec_teamRetirement n) fun s hown => ?_
    obtain ⟨hcore, hdone, hwaits⟩ := hown
    simp only [hcore, hdone, hwaits, Bool.not_false, Bool.and_self, if_true]
  case quiescent =>
    refine ⟨?saves, fun f => ?marks, ?stops⟩
    case saves =>
      refine happens_of_tables (exec_contextQuiescent ctx) fun s hown => ?_
      obtain ⟨⟨hstate, hquiet⟩, hcurrent⟩ := hown
      simp [hstate, hquiet, hcurrent]
    case marks =>
      refine happens_of_tables (exec_contextQuiescent ctx) fun s hown => ?_
      obtain ⟨⟨hstate, hquiet⟩, hcurrent⟩ := hown
      simp [hstate, hquiet, hcurrent]
    case stops =>
      refine leaves_of_event (exec_contextQuiescent ctx) fun s hown => ⟨?_, rfl⟩
      obtain ⟨⟨hstate, hquiet⟩, hcurrent, hrequests⟩ := hown
      simp [hstate, hquiet, hcurrent, hrequests, nextRequest_of_nil, Ctx.result]
  case save =>
    constructor
    · refine happens_of_tables (exec_saveComplete ctx) fun s hown => ?_
      obtain ⟨⟨hstate, hquiet⟩, hfits⟩ := hown
      simp [hstate, hquiet, hfits, Ctx.result]
    · refine leaves_of_event (exec_saveComplete ctx) fun s hown => ?_
      obtain ⟨⟨hstate, hquiet⟩, hfits, hrequests⟩ := hown
      simp [hstate, hquiet, hfits, hrequests, nextRequest_of_nil, Ctx.result]
  case preempt =>
    refine fun p => ⟨fun s hs hown => ?reported, fun s hs hown hnowhere => ?nowhere⟩
    case reported =>
      obtain ⟨⟨hp, hquiet⟩, hfirst, hlast⟩ := hown
      simp [exec_preemptReport, execPreemptReport, hs, hp, hquiet, hfirst, hlast]
    case nowhere =>
      obtain ⟨hp, hquiet⟩ := hown
      simp [exec_preemptReport, execPreemptReport, hs, hp, hquiet, hnowhere]
  case move =>
    refine fun d => ⟨?_, ?_⟩
    · refine happens_of_tables (exec_moveTransferDone ctx true) fun s hown => ?_
      obtain ⟨hstate, hcurrent, hidle⟩ := hown
      simp [hstate, hcurrent, hidle]
    · refine leaves_of_event (exec_moveTransferDone ctx false) fun s hown => ?_
      obtain ⟨⟨hstate, hcurrent, hidle⟩, hrequests⟩ := hown
      simp [hstate, hcurrent, hidle, hrequests, nextRequest_of_nil, Ctx.result]
  case automatic =>
    refine ⟨happens_congr (happens_automaticMark ctx) (fun _ h => h.1) fun s hown => ?posted,
      happens_congr (happens_automaticMark ctx) (fun _ h => h.1) fun s hown => ?skipped⟩
    case posted => simp only [hown.2, Bool.false_eq_true, if_false]
    case skipped => simp only [hown.2, if_true]
  case staged => exact leaves_markStagingComplete ctx
  case stream =>
    refine fun seq k va => ⟨?page, ?starts, ?released, ?complete⟩
    case page =>
      refine happens_of_tables (exec_checkpointStream ctx) fun s hown => ?_
      obtain ⟨⟨hrate, hstreaming⟩, hpage⟩ := hown
      simp [hrate, hstreaming, hpage]
    case starts =>
      refine happens_of_tables (exec_checkpointStream ctx) fun s hown => ?_
      obtain ⟨hrate, hstreaming, hstaged⟩ := hown
      simp [hrate, hstreaming, hstaged]
    case released =>
      refine happens_of_tables (exec_copyOnWriteRelease ctx va) fun s hown => ?_
      obtain ⟨⟨hrate, hstreaming⟩, hpage⟩ := hown
      simp [hrate, hstreaming, hpage]
    case complete =>
      refine leaves_of_event (exec_checkpointComplete ctx) fun s hown => ?_
      obtain ⟨hstreaming, hdone, hrequests⟩ := hown
      simp [hstreaming, hdone, hrequests, nextRequest_of_nil]

end Sys2Proof.Machine
end

section
/-! The words of queues (O40; 09 R196 to R200): when an append and a view of the steward pass their checks, and what they trap with. -/

namespace Sys2Proof.Machine

/-- What a word does where its check finds nothing, its effect written in another way. -/
theorem does_of_check {i : Instr} {c : Bool} {own : State → Nat → Prop} {check : Check} {act act' : Act}
    (he : ∀ s, exec i s = runWord i check act' s) (hc : (opInfo i).c = c) (ho : ∀ e l slot, own e l → check e l slot = none)
    (ha : act' = act) : Does i c own act := by
  subst ha
  exact does_of_runWord he hc ho

/-! Addresses of records and headers (09 R200). -/

/-- An address has the form of a record's and a header's: a multiple of 128 in the address space. -/
def PlaceForm (x : BitVec 64) : Prop := x.toNat % 128 = 0 ∧ x.toNat < 2 ^ 55

theorem queueAddressBad_iff (x : BitVec 64) : queueAddressBad x = true ↔ ¬ PlaceForm x := by
  rw [queueAddressBad, Bool.or_eq_true, decide_eq_true_iff, decide_eq_true_iff, above_space_iff, PlaceForm, not_and_or, not_lt]

theorem queueAddressBad_eq_false_iff (x : BitVec 64) : queueAddressBad x = false ↔ PlaceForm x := by
  rw [← Bool.not_eq_true, queueAddressBad_iff, not_not]

/-! The checks of an append, in their order (09 R197). -/

section
variable {e : State} {t slot : Nat} {record header : BitVec 64}

theorem appendVerdict_of_bad_record (h : ¬ PlaceForm record) : appendVerdict e t slot record header = some (queueTrap slot 1 record) :=
  if_pos ((queueAddressBad_iff record).mpr h)

variable (hrecord : PlaceForm record)
include hrecord

theorem appendVerdict_of_bad_header (h : ¬ PlaceForm header) : appendVerdict e t slot record header = some (queueTrap slot 2 header) := by
  simp only [appendVerdict, (queueAddressBad_eq_false_iff record).mpr hrecord, (queueAddressBad_iff header).mpr h, Bool.false_eq_true,
    if_false, if_true]

/-- Where both addresses are good, translate as a store's do and nothing holds them, an append meets no check. -/
theorem appendVerdict_none (hheader : PlaceForm header) (hfree : appendWaits e t record = false ∧ appendWaits e t header = false)
    (hreach : transVerdict e t slot record true = none ∧ transVerdict e t slot header true = none) :
    appendVerdict e t slot record header = none := by
  simp only [appendVerdict, (queueAddressBad_eq_false_iff record).mpr hrecord, (queueAddressBad_eq_false_iff header).mpr hheader, hreach,
    hfree, Option.orElse_none, Bool.or_self, Bool.false_eq_true, if_false]

end

/-! The checks of the words: of LAUNCH and QPUSH with the record at `a` and the header at `b`, of KSTAT and QSTAT with the address at `a`. -/

def appendCheck (a b : BitVec 6) : Check := fun e t slot => appendVerdict e t slot (e.now.vv t (2 * a.toNat)) (e.now.vv t (2 * b.toNat))

def viewCheck (a : BitVec 6) : Check := fun e t slot =>
  if queueAddressBad (e.now.vv t (2 * a.toNat)) then some (queueTrap slot 3 (e.now.vv t (2 * a.toNat))) else none

theorem viewCheck_none {a : BitVec 6} {e : State} {t slot : Nat} (h : PlaceForm (e.now.vv t (2 * a.toNat))) : viewCheck a e t slot = none :=
  if_neg (Bool.eq_false_iff.mp ((queueAddressBad_eq_false_iff _).mpr h))

section
variable {i : Instr} {c : Bool} {act : Act} {a b : BitVec 6}

/-- A word with the checks of an append traps with subcode 1 for its record, and for its header with 2 where the record is good. -/
theorem fails_of_appendCheck (he : ∀ s, exec i s = runWord i (appendCheck a b) act s) (hc : (opInfo i).c = c) :
    Fails i c (fun e t => ¬ PlaceForm (e.now.vv t (2 * a.toNat))) (fun e t slot => queueTrap slot 1 (e.now.vv t (2 * a.toNat))) ∧
    Fails i c (fun e t => PlaceForm (e.now.vv t (2 * a.toNat)) ∧ ¬ PlaceForm (e.now.vv t (2 * b.toNat)))
      (fun e t slot => queueTrap slot 2 (e.now.vv t (2 * b.toNat))) :=
  ⟨fails_of_runWord he hc fun _ _ _ h => appendVerdict_of_bad_record h,
    fails_of_runWord he hc fun _ _ _ ⟨hrecord, h⟩ => appendVerdict_of_bad_header hrecord h⟩

theorem fails_of_viewCheck (he : ∀ s, exec i s = runWord i (viewCheck a) act s) (hc : (opInfo i).c = c) :
    Fails i c (fun e t => ¬ PlaceForm (e.now.vv t (2 * a.toNat))) (fun e t slot => queueTrap slot 3 (e.now.vv t (2 * a.toNat))) :=
  fails_of_runWord he hc fun _ _ _ h => if_pos ((queueAddressBad_iff _).mpr h)

end

/-- Settles O40: LAUNCH and QPUSH are checked as an append and do what it answers; KSTAT and QSTAT are checked for their address alone. -/
theorem queueWords : Obligations.QueueWords := by
  intro c d p a b
  dsimp only
  refine ⟨?launch, ?qpush, ?kstat, ?qstat, ?badAppend, ?badView⟩
  case launch =>
    refine does_of_check (exec_launch c d a b) rfl
      (fun e t slot ⟨hrecord, hheader, hfree, hreach⟩ => appendVerdict_none hrecord hheader hfree (hreach slot))
      (once_congr fun e t takers m => ?_)
    dsimp only [appendEarly]
    generalize append e _ t _ _ = answer
    obtain ⟨enabled, m⟩ := answer
    cases enabled with
    | true => rfl
    | false => rfl
  case qpush =>
    exact does_of_check (exec_qpush c d a b) rfl
      (fun e t slot ⟨hrecord, hheader, hfree, hreach⟩ => appendVerdict_none hrecord hheader hfree (hreach slot))
      (once_congr fun e t takers m => by dsimp only [appendEarly])
  case kstat =>
    refine does_of_check (exec_kstat c p a) rfl (fun e t slot h => viewCheck_none h) (perThread_congr fun pre l t m => ?_)
    cases pre.heldLaunch (pre.ctxOf l) (pre.vv l (2 * a.toNat)).toNat with
    | some x => simp only [Option.map_some, Option.getD_some]
    | none => simp only [Option.map_none, Option.getD_none]
  case qstat => exact does_of_runWord (exec_qstat c d a) rfl fun e t slot h => viewCheck_none h
  case badAppend =>
    exact List.forall_mem_cons.mpr ⟨fails_of_appendCheck (exec_launch c d a b) rfl,
      List.forall_mem_singleton.mpr (fails_of_appendCheck (exec_qpush c d a b) rfl)⟩
  case badView =>
    exact List.forall_mem_cons.mpr ⟨fails_of_viewCheck (exec_kstat c p a) rfl,
      List.forall_mem_singleton.mpr (fails_of_viewCheck (exec_qstat c d a) rfl)⟩

end Sys2Proof.Machine
end

section
/-! What the events at the homes rest on: words written to memory one after another, a line set at its home, recalls where no store is
posted, evictions, host accesses, walks, and intervals that commit early (10 R227, 12 R255, R263, R277 to R281, 17 R371, 21 R459). -/

namespace Sys2Proof.Machine

/-! Words written to memory (01 R5). -/

/-- A byte of a word reads as that word was written, or as before. -/
theorem Memory.read_writeWords (base : Nat) (v : Nat → Nat) (l : List Nat) {m : Memory} (h : m.wf = true) (i : Nat) {r : Nat} (hr : r < 4) :
    Memory.read (l.foldl (fun m i => Memory.writeN m (base + 4 * i) 4 (v i)) m) (base + 4 * i + r) =
      if i ∈ l then BitVec.ofNat 8 (v i / 256 ^ r) else Memory.read m (base + 4 * i + r) := by
  induction l generalizing m with
  | nil => simp
  | cons j l ih =>
    rw [List.foldl_cons, ih (Memory.wf_writeN _ _ _ h)]
    by_cases hl : i ∈ l
    · simp only [hl, if_true, List.mem_cons, or_true]
    · rw [if_neg hl, Memory.read_writeN _ _ _ _ h]
      by_cases hj : i = j
      · subst hj
        rw [if_pos (by omega), if_pos List.mem_cons_self, show base + 4 * i + r - (base + 4 * i) = r by omega]
      · rw [if_neg (by omega), if_neg (by simp [hj, hl])]

/-- Bytes outside the words written read as before. -/
theorem Memory.read_writeWords_other {base n p : Nat} (v : Nat → Nat) {l : List Nat} (hl : ∀ i ∈ l, i < n) {m : Memory} (h : m.wf = true)
    (hp : p < base ∨ base + 4 * n ≤ p) : Memory.read (l.foldl (fun m i => Memory.writeN m (base + 4 * i) 4 (v i)) m) p = Memory.read m p := by
  induction l generalizing m with
  | nil => rfl
  | cons j l ih =>
    have hj := hl j List.mem_cons_self
    rw [List.foldl_cons, ih (fun i hi => hl i (List.mem_cons_of_mem _ hi)) (Memory.wf_writeN _ _ _ h), Memory.read_writeN_other h (by omega)]

/-- A byte of a word of a line is that byte of the line. -/
theorem byte_of_getBytes (d : BitVec 1024) (i : Nat) {r : Nat} (hr : r < 4) :
    BitVec.ofNat 8 (getBytes d (4 * i) 4 / 256 ^ r) = BitVec.ofNat 8 (d.toNat / 2 ^ (8 * (4 * i + r))) := by
  rw [getBytes, show (256 : Nat) ^ r = 2 ^ (8 * r) by rw [pow_mul]; rfl]
  refine BitVec.eq_of_getLsbD_eq fun k hk => ?_
  have hin : k + 8 * r < 8 * 4 := by omega
  have hat : k + 8 * r + 8 * (4 * i) = k + 8 * (4 * i + r) := by omega
  simp only [BitVec.getLsbD_ofNat, Nat.testBit_div_two_pow, Nat.testBit_mod_two_pow, hk, hin, hat, decide_true, Bool.true_and]

/-! Who owns a line (12 R260 to R264). -/

/-- A line just set at its home reads as set. -/
theorem Chip.line_setLine_same (c : Chip) (e : State) (ln : Nat) (h : HomeLine) : (c.setLine ln h).line e ln =
    { h with gen := c.generation, poison := if lostHome e c (128 * ln) then allWords else h.poison } := by
  have hf : Sparse.find? (c.setLine ln h).home ln = some { h with gen := c.generation } := Sparse.find?_set_same _ _ _
  have ht : ∀ t, (c.setLine ln h).timeOf c.generation t = t := c.timeOf_current
  simp only [Chip.line, hf, ht]
  rfl

/-- Who owns words of a line at its home, and which. -/
def Chip.ownership (c : Chip) (ln : Nat) : Option Nat × BitVec 32 := ((Sparse.get {} c.home ln).owner, (Sparse.get {} c.home ln).owned)

theorem Chip.line_ownership (c : Chip) (e : State) (ln : Nat) : ((c.line e ln).owner, (c.line e ln).owned) = c.ownership ln := by
  unfold Chip.line Chip.ownership Sparse.get
  cases Sparse.find? c.home ln <;> rfl

/-- What a recall without posted stores must leave as it is: the accesses and who owns which words. -/
def Chip.holding (c : Chip) : Sparse Access × (Nat → Option Nat × BitVec 32) := (c.accesses, c.ownership)

/-- Machines that hold alike own alike. -/
theorem line_of_holding {c d : Chip} (h : d.holding = c.holding) (e : State) (ln : Nat) :
    (d.line e ln).owner = (c.line e ln).owner ∧ (d.line e ln).owned = (c.line e ln).owned := by
  have howners : d.ownership ln = c.ownership ln := congrFun (congrArg Prod.snd h) ln
  rw [← d.line_ownership e, ← c.line_ownership e] at howners
  exact Prod.ext_iff.mp howners

theorem ownership_setLine (c : Chip) (ln n : Nat) (h : HomeLine) :
    (c.setLine ln h).ownership n = if n = ln then (h.owner, h.owned) else c.ownership n := by
  unfold Chip.ownership Chip.setLine
  rw [Sparse.get_set]
  split <;> rfl

theorem holding_setLine {c : Chip} (e : State) {ln : Nat} {h : HomeLine} (howner : h.owner = (c.line e ln).owner) (howned : h.owned = (c.line e ln).owned) :
    (c.setLine ln h).holding = c.holding := by
  refine Prod.ext rfl (funext fun n => ?_)
  dsimp only [Chip.holding]
  rw [ownership_setLine, howner, howned, c.line_ownership]
  split
  · rename_i hn
    rw [hn]
  · rfl

theorem holding_setL1 (c : Chip) (k ln : Nat) (l : L1Line) : (c.setL1 k ln l).holding = c.holding := rfl

/-- Writing words back changes no owner. -/
theorem holding_writeBack (e : State) (c : Chip) (k ln : Nat) : (writeBack e c k ln).holding = c.holding := by
  unfold writeBack
  dsimp only
  split
  · rfl
  · split
    · rfl
    · exact (holding_setL1 _ _ _ _).trans (holding_setLine e rfl rfl)

/-- Without a store among the accesses no core has a posted store to drain. -/
theorem drainable_nil {c : Chip} (h : ∀ p ∈ c.accesses, p.2.op ≠ .store) (k ln : Nat) : c.drainable k ln = [] := by
  have hposted : c.postedOn k ln = [] := by
    rw [Chip.postedOn, Chip.accessesWhere, Sparse.keysWhere, List.map_eq_nil_iff, List.filter_eq_nil_iff]
    intro p hp
    simp [Chip.posted, Access.early, h p hp]
  rw [Chip.drainable, hposted, List.filter_nil]

theorem ownership_commitEarly (c : Chip) (k : Nat) : (c.commitEarly k).ownership = c.ownership := by
  unfold Chip.commitEarly
  dsimp only
  split <;> rfl

theorem accesses_commitEarly (c : Chip) (k : Nat) : (c.commitEarly k).accesses = c.accesses := by
  unfold Chip.commitEarly
  dsimp only
  split <;> rfl

/-- Words recalled from their owner are owned no more. -/
theorem mergeFrom_owned {e : State} {c : Chip} {k ln : Nat} (ws : BitVec 32) (h : (c.line e ln).owner = some k) :
    ((mergeFrom e c k ln ws).line e ln).owned = (c.line e ln).owned &&& ~~~(ws &&& (c.line e ln).owned) := by
  have hown := congrArg Prod.snd ((mergeFrom e c k ln ws).line_ownership e ln)
  refine hown.trans ?_
  rw [mergeFrom, if_neg (not_not.mpr h), foldl_keeps Chip.ownership ownership_commitEarly]
  exact congrArg Prod.snd ((ownership_setLine c ln ln _).trans (if_pos rfl))

/-- A merge makes no access a store. -/
theorem mergeFrom_stores {e : State} {c : Chip} (k ln : Nat) (ws : BitVec 32) (h : ∀ p ∈ c.accesses, p.2.op ≠ .store) :
    ∀ p ∈ (mergeFrom e c k ln ws).accesses, p.2.op ≠ .store := by
  unfold mergeFrom
  dsimp only
  split
  · exact h
  · rw [foldl_keeps Chip.accesses accesses_commitEarly]
    intro p hp
    obtain ⟨q, hq, rfl⟩ := List.mem_map.mp hp
    dsimp only
    split
    · split <;> exact h q hq
    · exact h q hq

namespace Proto
section
variable [LineAnswers]

/-- A recall of a line that no core owns has nothing to do. -/
theorem settle_reclaim_unowned (n : Nat) {e : State} {c : Chip} {ln : Nat} (ws : BitVec 32) (h : (c.line e ln).owner = none) :
    settle n e (.reclaim ln ws) c = c := by
  cases n with
  | zero => rw [settle_zero]
  | succ n =>
    rw [settle_succ]
    dsimp only [settle._f]
    rw [h]

/-- A release list within its size needs no trimming. -/
theorem settle_trim_within (n : Nat) {e : State} {c : Chip} {k : Nat} (h : (c.core k).release.length ≤ Config.releaseLines) :
    settle n e (.trim k) c = c := by
  have hover : c.overList k = [] := by rw [Chip.overList, Nat.sub_eq_zero_of_le h, List.take_zero]
  cases n with
  | zero => rw [settle_zero]
  | succ n =>
    rw [settle_succ]
    dsimp only [settle._f]
    rw [hover]
    rfl

/-- A drain without posted stores writes words back, and takes none from their owners. -/
theorem holding_drain (n : Nat) {e : State} {c : Chip} (h : ∀ p ∈ c.accesses, p.2.op ≠ .store) (k : Nat) (upto : Option Nat) :
    (settle n e (.drain k upto) c).holding = c.holding := by
  cases n with
  | zero => rw [settle_zero]
  | succ n =>
    rw [settle_succ]
    dsimp only [settle._f]
    refine List.foldlRecOn (motive := fun d : Chip => d.holding = c.holding) _ _ rfl fun d hd ln _ => ?_
    have hsame : d.accesses = c.accesses := congrArg Prod.fst hd
    rw [drainable_nil (fun p hp => h p (hsame ▸ hp)), List.foldl_nil, holding_writeBack, hd]

theorem holding_trim (n : Nat) {e : State} {c : Chip} (h : ∀ p ∈ c.accesses, p.2.op ≠ .store) (k : Nat) :
    (settle n e (.trim k) c).holding = c.holding := by
  cases n with
  | zero => rw [settle_zero]
  | succ n =>
    rw [settle_succ]
    dsimp only [settle._f]
    split
    · exact holding_drain n h k _
    · rfl

/-- A recall takes the words it names from their owner (12 R263). -/
theorem settle_reclaim_owned (n : Nat) {e : State} {c : Chip} {ln : Nat} (ws : BitVec 32) (hfree : (c.line e ln).owner = none → (c.line e ln).owned = 0)
    (h : ∀ p ∈ c.accesses, p.2.op ≠ .store) : ((settle (n + 1) e (.reclaim ln ws) c).line e ln).owned &&& ws = 0 := by
  cases howner : (c.line e ln).owner with
  | none => simp [settle_reclaim_unowned (n + 1) ws howner, hfree howner]
  | some k =>
    rw [settle_succ]
    dsimp only [settle._f]
    rw [howner]
    dsimp only
    split
    · rename_i hnone
      exact hnone
    · have hdrain := holding_drain n (e := e) h k (some ln)
      generalize settle n e (.drain k (some ln)) c = d at hdrain
      have haccesses : d.accesses = c.accesses := congrArg Prod.fst hdrain
      have hstores : ∀ p ∈ d.accesses, p.2.op ≠ .store := haccesses ▸ h
      have hd : (d.line e ln).owner = some k := (line_of_holding hdrain e ln).1.trans howner
      have htrim := holding_trim n (e := e) (mergeFrom_stores k ln ws (e := e) hstores) k
      rw [(line_of_holding htrim e ln).2, mergeFrom_owned ws hd]
      ext i
      simp only [BitVec.getElem_and, BitVec.getElem_not]
      cases ws[i] <;> simp

end
end Proto

/-- A recall of a line that no core owns does nothing. -/
theorem recallNow_unowned {e : State} {c : Chip} {ln : Nat} (ws : BitVec 32) (h : (c.line e ln).owner = none) : recallNow e c ln ws = c :=
  @Proto.settle_reclaim_unowned (answersAt c.depth) c.depth e c ln ws h

/-! Evictions (12 R255, R281). -/

/-- The eviction of a line with no owner recalls nothing: the line is cleaned, its slice takes its lease, and it is gone. -/
theorem evictLine_unowned {s : State} {ln : Nat} {h : HomeLine} (hf : Sparse.find? s.now.home ln = some h) (hbusy : h.busy = false)
    (hreleasers : h.releasers = []) (hconflict : h.conflict = []) (howner : h.owner = none) :
    evictLine s ln =
      let t := cleanLine s ln
      let x := t.now.sliceAt (sliceOf ln)
      let c := t.now.setSlice (sliceOf ln) { x with memts := max x.memts (t.now.line t ln).rts }
      { t with now := { c with home := Sparse.erase c.home ln } } := by
  obtain ⟨-, hline, -⟩ := Chip.line_of_find (e := s) hf
  have hrecall : recallNow s s.now ln allWords = s.now := recallNow_unowned _ (hline.trans howner)
  simp only [evictLine, hf, hbusy, hreleasers, hconflict, List.isEmpty_nil, Bool.not_true, Bool.or_false, Bool.false_eq_true, if_false, if_true, hrecall]

/-- Every byte of the dirty words of a cleaned line is in memory, and every other byte is as it was. -/
theorem read_cleanLine {s : State} (hwf : s.mem.wf = true) (ln : Nat) :
    (∀ j < 128, Memory.read (cleanLine s ln).mem (128 * ln + j) =
      if (s.now.line s ln).dirty.getLsbD (j / 4) = true then BitVec.ofNat 8 ((s.now.line s ln).data.toNat / 2 ^ (8 * j))
      else Memory.read s.mem (128 * ln + j)) ∧
    ∀ p, p / 128 ≠ ln → Memory.read (cleanLine s ln).mem p = Memory.read s.mem p := by
  have hwords : ∀ i ∈ (List.range 32).filter (fun i => (s.now.line s ln).dirty.getLsbD i), i < 32 := fun i hi =>
    List.mem_range.mp (List.mem_of_mem_filter hi)
  refine ⟨fun j hj => ?_, fun p hp => Memory.read_writeWords_other (n := 32) _ hwords hwf (by omega)⟩
  have hr : j % 4 < 4 := Nat.mod_lt _ (by decide)
  have hin : j / 4 < 32 := by omega
  have h := Memory.read_writeWords (128 * ln) (fun i => getBytes (s.now.line s ln).data (4 * i) 4)
    ((List.range 32).filter (fun i => (s.now.line s ln).dirty.getLsbD i)) hwf (j / 4) hr
  rw [show 128 * ln + 4 * (j / 4) + j % 4 = 128 * ln + j by omega, byte_of_getBytes _ _ hr, Nat.div_add_mod] at h
  refine h.trans ?_
  simp only [List.mem_filter, List.mem_range, hin, true_and]

/-- A slice just set reads as set, where its time is of the machine's generation. -/
theorem Chip.sliceAt_setSlice_same (c : Chip) (k : Nat) (x : Slice) (h : x.gen = c.generation) : (c.setSlice k x).sliceAt k = x := by
  have hf : Sparse.find? (c.setSlice k x).slices k = some x := Sparse.find?_set_same _ _ _
  have ht : (c.setSlice k x).timeOf x.gen x.memts = x.memts := if_pos h
  simp only [Chip.sliceAt, hf, ht]
  rw [show (c.setSlice k x).generation = x.gen from h.symm]

theorem Chip.sliceAt_gen (c : Chip) (k : Nat) : (c.sliceAt k).gen = c.generation := by
  unfold Chip.sliceAt
  split <;> rfl

/-- Cleaning a line leaves its times. -/
theorem rts_cleanLine (s : State) (ln : Nat) : ((cleanLine s ln).now.line (cleanLine s ln) ln).rts = (s.now.line s ln).rts :=
  (congrArg HomeLine.rts (Chip.line_setLine_same s.now (cleanLine s ln) ln { s.now.line s ln with dirty := 0 }) :)

/-- A line with no owner leaves its slice: its dirty words are in memory, and its lease in the slice's time. -/
theorem leaves_sliceEviction (ln : Nat) (h : HomeLine) : Leaves (.sliceEviction ln)
    (fun s => Sparse.find? s.now.home ln = some h ∧ h.busy = false ∧ h.releasers = [] ∧ h.conflict = [] ∧ h.owner = none ∧ s.mem.wf = true)
    (fun s t => Sparse.find? t.now.home ln = none ∧
      (t.now.sliceAt (sliceOf ln)).memts = max (s.now.sliceAt (sliceOf ln)).memts (s.now.line s ln).rts ∧
      (∀ j < 128, Memory.read t.mem (128 * ln + j) =
        if h.dirty.getLsbD (j / 4) = true then BitVec.ofNat 8 (h.data.toNat / 2 ^ (8 * j)) else Memory.read s.mem (128 * ln + j)) ∧
      (∀ p, p / 128 ≠ ln → Memory.read t.mem p = Memory.read s.mem p)) := by
  refine leaves_of_eventS (exec_sliceEviction ln) fun s hown => ?_
  obtain ⟨hf, hbusy, hreleasers, hconflict, howner, hwf⟩ := hown
  obtain ⟨hdata, -, -, -, -, -, -, -, hdirty⟩ := Chip.line_of_find (e := s) hf
  obtain ⟨hline, hother⟩ := read_cleanLine hwf ln
  rw [hdata, hdirty] at hline
  rw [evictLine_unowned hf hbusy hreleasers hconflict howner]
  refine ⟨Sparse.find?_erase_same _ _, ?_, hline, hother⟩
  have hslice := Chip.sliceAt_setSlice_same (cleanLine s ln).now (sliceOf ln)
    { (cleanLine s ln).now.sliceAt (sliceOf ln) with
      memts := max ((cleanLine s ln).now.sliceAt (sliceOf ln)).memts ((cleanLine s ln).now.line (cleanLine s ln) ln).rts }
    (Chip.sliceAt_gen _ _)
  rw [← rts_cleanLine]
  exact congrArg Slice.memts hslice

/-! The host (10 R227, 12 R277 to R280). -/

/-- A host access may be performed at once: it names an aligned place of device memory, whose line is at rest and whose page no device has
checked out or shares, and it need not wait. -/
def HostReady (s : State) (op : BitVec 2) (addr size : Nat) : Prop :=
  op ≠ 3 ∧ (size ∈ [1, 2, 4, 8] ∧ addr % size = 0 ∧ deviceMemory s addr = true ∧ s.now.bankWaking addr = false) ∧
    ((s.now.line s (lineOf addr)).busy = false ∧ (s.now.line s (lineOf addr)).conflict = []) ∧
    recallFrame s s.now addr = s.now ∧ (op ≠ 0 → demoteFrame s s.now addr = s.now) ∧ Proto.hostWaits s s.now op addr = false

theorem HomeLine.busy_eq_false {h : HomeLine} : h.busy = false ↔ h.state ≠ .recalling ∧ h.state ≠ .invalidating ∧ h.held = [] := by
  simp [HomeLine.busy, and_assoc]

/-- A line at rest has nothing to answer (12 R256). -/
theorem quietLine_rest {e : State} {c : Chip} {ln : Nat} (hbusy : (c.line e ln).busy = false) (hconflict : (c.line e ln).conflict = []) :
    quietLine e c ln = c := by
  obtain ⟨-, hstate, hheld⟩ := HomeLine.busy_eq_false.mp hbusy
  unfold quietLine Proto.quietLine Proto.answerRecall
  rw [if_neg (by simp [hstate, hconflict]), if_pos (.inr (.inl hheld))]

/-- A host access that may be performed at once is. -/
theorem exec_hostMemAccess_ready {s : State} {op : BitVec 2} {addr size : Nat} (data : BitVec 64) (cache : Bool) (hs : s.issue = none)
    (h : HostReady s op addr size) :
    exec (.hostMemAccess op addr size data cache) s = .next { s with now := hostServe s s.now op addr size data cache } := by
  obtain ⟨hop, ⟨hsize, halign, hdevice, hbank⟩, ⟨hbusy, hconflict⟩, hframe, hdemote, hwaits⟩ := h
  have hok : (!(decide (op = 3)) && [1, 2, 4, 8].contains size && decide (addr % size = 0) && deviceMemory s addr && !s.now.bankWaking addr) = true := by
    rw [List.contains_iff_mem.mpr hsize, hdevice, hbank, decide_eq_false hop, decide_eq_true halign]
    rfl
  have hshare : (if (true && decide (op ≠ 0)) = true then demoteFrame s s.now addr else s.now) = s.now := by
    split
    · rename_i hwrite
      exact hdemote (of_decide_eq_true hwrite)
    · rfl
  obtain ⟨-, hstate, -⟩ := HomeLine.busy_eq_false.mp hbusy
  rw [exec_hostMemAccess, execHostMemAccess, event, hs]
  dsimp only
  rw [hok, if_pos rfl, hframe, hshare, if_neg (by decide), if_neg (by simp [hstate, hconflict]), hwaits, if_neg (by decide),
    quietLine_rest hbusy hconflict, hbusy, if_neg (by decide)]

/-- The line that a write at its home leaves. -/
theorem line_putHome (e : State) (c : Chip) (ln p size v t : Nat) (h : HomeLine) :
    let l := (putHome c ln p size v t h).line e ln
    l.owner = h.owner ∧ l.data = putBytes h.data (p % 128) size v ∧ l.wts = t ∧ l.rts = t := by
  have hset := Chip.line_setLine_same c e ln { h with
    wts := t, rts := t, data := putBytes h.data (p % 128) size v, dirty := h.dirty ||| maskOf p size
    poison := h.poison &&& ~~~wholeMask p size, exclusive := h.exclusive || isHost p, hshare := false }
  exact ⟨(congrArg HomeLine.owner hset :), (congrArg HomeLine.data hset :), (congrArg HomeLine.wts hset :), (congrArg HomeLine.rts hset :)⟩

section
variable {e : State} {c : Chip} {addr : Nat} (size : Nat) (data : BitVec 64) (cache : Bool) (howner : (c.line e (lineOf addr)).owner = none)
include howner

/-- A host write of a line that no core owns: the write at its home, later than all the host has written and than every lease. -/
theorem hostServe_write_eq : hostServe e c 1 addr size data cache =
    let h := c.line e (lineOf addr)
    let t := max c.hostClk (h.rts + 1)
    let d := putHome { c with hostReply := none } (lineOf addr) addr size (data.toNat % 2 ^ (8 * size)) t h
    { d.setLine (lineOf addr) { d.line e (lineOf addr) with hshare := h.hshare } with hostClk := t } := by
  have hrecall : ∀ ws, @Proto.recallNow (answersAt c.depth) e c (lineOf addr) ws = c := fun ws => recallNow_unowned ws howner
  simp only [hostServe, Proto.hostServe, hrecall]
  rfl

/-- A host read of a line that no core owns: its bytes are the answer, and the line is shared with the host where it may cache it. -/
theorem hostServe_read_eq : hostServe e c 0 addr size data cache =
    let h := c.line e (lineOf addr)
    let answer : HostReply := { addr := addr, size := size, value := BitVec.ofNat 64 (getBytes h.data (addr % 128) size), poison := poisonAt e c addr size }
    let d := if cache = true then c.setLine (lineOf addr) { h with hshare := true } else c
    { d with hostReply := some answer, hostClk := max c.hostClk h.wts } := by
  have hrecall : ∀ ws, @Proto.recallNow (answersAt c.depth) e c (lineOf addr) ws = c := fun ws => recallNow_unowned ws howner
  simp only [hostServe, Proto.hostServe, hrecall]
  cases cache <;> rfl

/-- The line that a host write leaves, and the other lines, which stand. -/
theorem line_hostServe_write :
    let d := hostServe e c 1 addr size data cache
    let t := max c.hostClk ((c.line e (lineOf addr)).rts + 1)
    SameLines (lineOf addr) c d ∧ (d.line e (lineOf addr)).owner = none ∧
      (d.line e (lineOf addr)).data = putBytes (c.line e (lineOf addr)).data (addr % 128) size (data.toNat % 2 ^ (8 * size)) ∧
      (d.line e (lineOf addr)).wts = t ∧ (d.line e (lineOf addr)).rts = t ∧ d.hostClk = t := by
  rw [hostServe_write_eq size data cache howner]
  generalize c.line e (lineOf addr) = h at howner ⊢
  dsimp only
  generalize max c.hostClk (h.rts + 1) = t
  have hsame : SameLines (lineOf addr) c (putHome { c with hostReply := none } (lineOf addr) addr size (data.toNat % 2 ^ (8 * size)) t h) :=
    .trans (sameLines_of rfl rfl (.refl _)) (sameLines_putHome _ _ _ _ _ _ _)
  obtain ⟨hwowner, hwdata, hwwts, hwrts⟩ := line_putHome e { c with hostReply := none } (lineOf addr) addr size (data.toNat % 2 ^ (8 * size)) t h
  generalize putHome { c with hostReply := none } (lineOf addr) addr size (data.toNat % 2 ^ (8 * size)) t h = w at *
  have hd := Chip.line_setLine_same w e (lineOf addr) { w.line e (lineOf addr) with hshare := h.hshare }
  exact ⟨(hsame.trans (sameLines_setLine _ _ _)).trans (sameLines_of rfl rfl (.refl _)), (congrArg HomeLine.owner hd :).trans (hwowner.trans howner),
    (congrArg HomeLine.data hd :).trans hwdata, (congrArg HomeLine.wts hd :).trans hwwts, (congrArg HomeLine.rts hd :).trans hwrts, rfl⟩

/-- A host write writes its bytes and the times of its line; every other byte stands. -/
theorem hostServe_write (hs : 0 < size) (hp : addr % 128 + size ≤ 128) :
    let d := hostServe e c 1 addr size data cache
    let t := max c.hostClk ((c.line e (lineOf addr)).rts + 1)
    peek e d addr size = data.toNat % 2 ^ (8 * size) ∧ (∀ q, q < addr ∨ addr + size ≤ q → peek e d q 1 = peek e c q 1) ∧
      (d.line e (lineOf addr)).wts = t ∧ (d.line e (lineOf addr)).rts = t ∧ d.hostClk = t := by
  obtain ⟨hother, hdowner, hdata, htimes⟩ := line_hostServe_write size data cache howner
  obtain ⟨hnew, hold⟩ := peek_of_put (e := e) (e' := e) rfl rfl hs hp hother hdowner howner hdata
  exact ⟨hnew.trans (Nat.mod_mod _ _), hold, htimes⟩

/-- A host read answers with the bytes of the line and changes none. -/
theorem hostServe_read (hs : 0 < size) (hp : addr % 128 + size ≤ 128) :
    let d := hostServe e c 0 addr size data cache
    let h := c.line e (lineOf addr)
    d.hostReply = some { addr := addr, size := size, value := BitVec.ofNat 64 (peek e c addr size), poison := poisonAt e c addr size } ∧
      d.hostClk = max c.hostClk h.wts ∧ (d.line e (lineOf addr)).hshare = (cache || h.hshare) ∧ ∀ q, peek e d q 1 = peek e c q 1 := by
  rw [hostServe_read_eq size data cache howner, peek_eq _ _ hs hp, peekLine_unowned howner]
  refine ⟨rfl, rfl, ?_⟩
  cases cache with
  | false => exact ⟨rfl, fun q => rfl⟩
  | true =>
    have hd := Chip.line_setLine_same c e (lineOf addr) { c.line e (lineOf addr) with hshare := true }
    refine ⟨(congrArg HomeLine.hshare hd :), fun q => peek_congr one_pos (by omega) ?_⟩
    by_cases hq : lineOf q = lineOf addr
    · rw [hq, peekLine_unowned howner]
      exact (peekLine_unowned ((congrArg HomeLine.owner hd :).trans howner)).trans (congrArg HomeLine.data hd :)
    · exact (sameLines_setLine (lineOf addr) c { c.line e (lineOf addr) with hshare := true }).peekLine rfl rfl hq

end

/-- An aligned place of a size that divides the size of a line lies within one. -/
theorem within_line {addr size : Nat} (hsize : size ∈ [1, 2, 4, 8]) (halign : addr % size = 0) : 0 < size ∧ addr % 128 + size ≤ 128 := by
  simp only [List.mem_cons, List.not_mem_nil, or_false] at hsize
  obtain rfl | rfl | rfl | rfl := hsize <;> omega

/-! The surveyor (17 R371). -/

/-- A walk that ends at a leaf whose page can be reached leaves its entry, and no other of the page, in the TLB of the core. -/
theorem tlbFind_walk (c : Chip) (k ctx va x : Nat) {level : Nat} (hstate : ¬ (Pte.state x = 2 ∨ Pte.state x = 5 ∨ Pte.state x = 6)) :
    (((c.tlbEvict k ctx va).tlbFill k ctx va x level).tlbFind k ctx va).map (·.entry.toNat) = some (x % 2 ^ 64) := by
  have hgone : (c.tlbEvict k ctx va).tlbFind k ctx va = none := by
    rw [Chip.tlbFind, Chip.tlbEvict, Chip.core_setCore, if_pos rfl, List.find?_eq_none]
    intro t ht
    obtain ⟨-, hother⟩ := List.mem_filter.mp ht
    exact Bool.eq_false_iff.mp ((Bool.not_eq_true' _).mp hother)
  have hspan : 0 < (if level = 2 then 8192 else 1 : Nat) := by split <;> decide
  rw [Chip.tlbFill, if_neg hstate, hgone]
  dsimp only
  generalize (if level = 2 then 8192 else 1 : Nat) = span at hspan
  have hfrom : va / 65536 / span * span ≤ va / 65536 := Nat.div_mul_le_self _ _
  have hto : va / 65536 < va / 65536 / span * span + span := by
    have hnext := Nat.lt_mul_div_succ (va / 65536) hspan
    rwa [Nat.mul_comm, Nat.add_one_mul] at hnext
  simp [Chip.tlbFind, Chip.core_setCore, hfrom, hto]

/-- Filling a TLB changes its core alone. -/
theorem cores_tlbFill (c : Chip) (k ctx va x level : Nat) : { c.tlbFill k ctx va x level with cores := [] } = { c with cores := [] } := by
  unfold Chip.tlbFill
  split
  · rfl
  · split <;> rfl

theorem leaves_surveyorWalk (core ctx va x p level : Nat) : Leaves (.surveyorWalk core ctx va)
    (fun s => core < Config.cores ∧ va < 2 ^ 55 ∧ (Sparse.find? s.now.ctxs ctx).isSome = true ∧ walk s s.now ctx va = .leaf x p level ∧ (level = 2 ∨ level = 3) ∧
      Pte.state x ≠ 2 ∧ Pte.state x ≠ 5 ∧ Pte.state x ≠ 6)
    (fun s t => (t.now.tlbFind core ctx va).map (·.entry.toNat) = some (x % 2 ^ 64) ∧ { t.now with cores := [] } = { s.now with cores := [] } ∧ t.mem = s.mem) := by
  refine leaves_of_event (exec_surveyorWalk core ctx va) fun s hown => ?_
  obtain ⟨hcore, hva, hctx, hwalk, -, hchecked, hserved, hfailed⟩ := hown
  have hgo : ¬ (Config.cores ≤ core ∨ 2 ^ 55 ≤ va ∨ (Sparse.find? s.now.ctxs ctx).isNone = true) := by
    rintro (h | h | h)
    · exact Nat.not_lt.mpr h hcore
    · exact Nat.not_lt.mpr h hva
    · rw [Option.isNone_iff_eq_none.mp h] at hctx
      exact Bool.false_ne_true hctx
  have hstate : ¬ (Pte.state x = 2 ∨ Pte.state x = 5 ∨ Pte.state x = 6) := by simp [hchecked, hserved, hfailed]
  simp only [if_neg hgo, hwalk]
  exact ⟨tlbFind_walk _ _ _ _ _ hstate, cores_tlbFill (s.now.tlbEvict core ctx va) core ctx va x level, trivial⟩

/-! Intervals that commit early (21 R459). -/

section
variable {c : Chip} {k core : Nat} (hcore : (c.team k).core = some core)
include hcore

/-- The lines of the words that an interval holds follow those already listed. -/
theorem release_commitEarly : ((c.commitEarly k).core core).release = (c.core core).release ++
    ((c.team k).interval.held.map (fun w => w / 32)).dedup.filter (fun l => !(c.core core).release.contains l) := by
  simp only [Chip.commitEarly, hcore]
  exact congrArg Core.release ((Chip.core_setCore c core core _).trans (if_pos rfl))

theorem interval_commitEarly : ((c.commitEarly k).team k).interval = { (c.team k).interval with early := true, held := [] } := by
  simp only [Chip.commitEarly, hcore]
  exact congrArg Team.interval ((Chip.team_setTeam _ k k _).trans (if_pos rfl))

/-- Where the release list has room for the lines of the words held, committing early drains nothing. -/
theorem commitNow_of_room {e : State} (hroom : (c.core core).release.length + (c.team k).interval.held.length ≤ Config.releaseLines) :
    commitNow e c k = c.commitEarly k := by
  have hlines : (((c.team k).interval.held.map (fun w => w / 32)).dedup.filter (fun l => !(c.core core).release.contains l)).length ≤
      (c.team k).interval.held.length :=
    calc _ ≤ ((c.team k).interval.held.map (fun w => w / 32)).dedup.length := List.length_filter_le _ _
      _ ≤ ((c.team k).interval.held.map (fun w => w / 32)).length := (List.dedup_sublist _).length_le
      _ = (c.team k).interval.held.length := List.length_map _
  have hshort : ((c.commitEarly k).core core).release.length ≤ Config.releaseLines := by
    rw [release_commitEarly hcore, List.length_append]
    exact (Nat.add_le_add_left hlines _).trans hroom
  unfold commitNow Proto.commitNow
  rw [hcore]
  exact @Proto.settle_trim_within (answersAt c.depth) _ e _ core hshort

/-- The line of every word held is listed once the interval commits. -/
theorem mem_release_commitEarly {w : Nat} (hw : w ∈ (c.team k).interval.held) : w / 32 ∈ ((c.commitEarly k).core core).release := by
  rw [release_commitEarly hcore, List.mem_append]
  by_cases hold : w / 32 ∈ (c.core core).release
  · exact .inl hold
  · exact .inr (List.mem_filter.mpr ⟨List.mem_dedup.mpr (List.mem_map_of_mem hw), by simpa using hold⟩)

end

end Sys2Proof.Machine
end

section
/-! The events at the homes and of waiting words (O55). -/

namespace Sys2Proof.Machine

/-- A woken wait whose word can be read again is armed again with what it reads, and released where the condition holds. -/
theorem rereadWait_read {s : State} {t pair b : Nat} {r : WaitRec} {cond : WaitCond} {x : Word} (hparts : waitParts r.word = some (cond, pair, b))
    (hverdict : watchVerdict s t r.slot (s.now.vv t pair) = none) (haway : watchAway s s.now t (s.now.vv t pair) = false)
    (hstalls : watchStalls s s.now t (s.now.vv t pair) = false)
    (hread : watchRead s (armWatch s s.now t (s.now.vv t pair)) t (s.now.vv t pair) = (x, none)) :
    rereadWait s t r =
      let m := armWatch s s.now t (s.now.vv t pair)
      let c := m.nextFree (watchRemote s m t (s.now.vv t pair))
      if cond.holds x (c.v t b) = true then { s with now := c.release t (.value x tagRaw) }
      else { s with now := c.setThread t { c.thread t with place := .waiting { r with seen := x } } } := by
  simp only [rereadWait, hparts, hverdict, haway, hstalls, hread, Option.isSome_none, Bool.or_false, Bool.false_eq_true, if_false]

/-- A wake reaches a thread that waits and whose word can be read again (13 R298). -/
theorem happens_watchFire (th : Nat) (r : WaitRec) (cond : WaitCond) (pair b : Nat) (x : Word) : Happens (.watchFire th)
    (fun s => (s.now.thread th).waitsOn = some r ∧ (s.now.thread th).watch.fired = true ∧ s.now.mayRun (s.now.teamOf th) = true ∧
      waitParts r.word = some (cond, pair, b) ∧ watchVerdict s th r.slot (s.now.vv th pair) = none ∧ watchAway s s.now th (s.now.vv th pair) = false ∧
      watchStalls s s.now th (s.now.vv th pair) = false ∧
      watchRead s (armWatch s s.now th (s.now.vv th pair)) th (s.now.vv th pair) = (x, none))
    (fun s =>
      let m := armWatch s s.now th (s.now.vv th pair)
      let c := m.nextFree (watchRemote s m th (s.now.vv th pair))
      if cond.holds x (c.v th b) = true then { s with now := c.release th (.value x tagRaw) }
      else { s with now := c.setThread th { c.thread th with place := .waiting { r with seen := x } } }) := by
  refine happens_of_eventS (exec_watchFire th) fun s hown => ?_
  obtain ⟨hwaits, hfired, hrun, hparts, hverdict, haway, hstalls, hread⟩ := hown
  simp only [hwaits, hfired, hrun, Bool.true_or, Bool.and_self, if_true]
  exact rereadWait_read hparts hverdict haway hstalls hread

/-- Settles O55: a recall takes the words it names, as without a posted store nothing that it waits for gives words to an owner; each event does
what its one branch says where its condition is met. -/
theorem homeEvents : Obligations.HomeEvents := by
  refine ⟨fun e m ln ws hfree hstores _ => @Proto.settle_reclaim_owned (answersAt m.depth) _ e m ln ws hfree hstores, fun ln h => ?_⟩
  dsimp only
  refine ⟨?recalled, leaves_sliceEviction ln h, ?host, ?invalidated, ?idle, ?served, ?snooped, leaves_surveyorWalk, ?woken, ?limit, ?early⟩
  case recalled =>
    refine happens_of_tables (exec_recallLine ln) fun s hown => ?_
    obtain ⟨rfl, hstate, hheld, hdrained⟩ := hown
    exact if_neg (by simp [hstate, hheld, hdrained])
  case host =>
    refine fun addr size data cache => ⟨fun s hs hown => ?write, fun s hs hown => ?read⟩
    case write =>
      obtain ⟨⟨hsize, halign, hdevice, hbank, hbusy, hconflict, howner, hframe⟩, hdemote, hheld, hfits⟩ := hown
      obtain ⟨hpos, hwithin⟩ := within_line hsize halign
      have hwaits : Proto.hostWaits s s.now 1 addr = false := by simp [Proto.hostWaits, hheld, hfits]
      obtain ⟨hnew, hold, hwts, hrts, hclk⟩ := hostServe_write size data cache howner hpos hwithin
      exact ⟨_, exec_hostMemAccess_ready data cache hs
        ⟨by decide, ⟨hsize, halign, hdevice, hbank⟩, ⟨hbusy, hconflict⟩, hframe, fun _ => hdemote, hwaits⟩, hnew, hold, hwts, hrts, hclk⟩
    case read =>
      obtain ⟨hsize, halign, hdevice, hbank, hbusy, hconflict, howner, hframe⟩ := hown
      obtain ⟨hpos, hwithin⟩ := within_line hsize halign
      obtain ⟨hreply, hclk, hshare, hpeek⟩ := hostServe_read size data cache howner hpos hwithin
      exact ⟨_, exec_hostMemAccess_ready data cache hs
        ⟨by decide, ⟨hsize, halign, hdevice, hbank⟩, ⟨hbusy, hconflict⟩, hframe, fun h => absurd rfl h, rfl⟩, hreply, hclk, rfl, hshare, hpeek⟩
  case invalidated =>
    refine happens_of_tables (exec_backInvalidationResponse ln) fun s hown => ?_
    obtain ⟨rfl, hstate⟩ := hown
    simp only [answerInvalidation, Proto.answerInvalidation, hstate, ne_eq, not_true_eq_false, if_false, List.isEmpty_iff]
  case idle =>
    intro e c hempty
    simp only [serveConflict, Proto.serveConflict, hempty, List.foldl_nil]
  case served =>
    intro e c x hone hready
    simp only [serveConflict, Proto.serveConflict, hone, List.foldl_cons, List.foldl_nil, hready, Bool.or_false, Bool.false_eq_true, if_false]
    rfl
  case snooped =>
    refine fun inval => happens_of_eventS (exec_hostSnoop ln inval) fun s hown => ?_
    obtain ⟨hf, hhost, hbusy⟩ := hown
    simp only [hf, hhost, hbusy, Bool.not_true, Bool.false_eq_true, if_false]
  case woken =>
    exact fun th r cond pair b x =>
      ⟨happens_congr (happens_watchFire th r cond pair b x) (fun _ h => h.1) fun s hown => if_pos hown.2,
        happens_congr (happens_watchFire th r cond pair b x) (fun _ h => h.1) fun s hown => if_neg (Bool.eq_false_iff.mp hown.2)⟩
  case limit =>
    refine fun th r limit => happens_of_tables (exec_waitLimitExpiry th) fun s hown => ?_
    obtain ⟨hwaits, hkind, hlimit, hpassed, hrun⟩ := hown
    simp only [hwaits, hkind]
    exact if_pos ⟨hlimit, hpassed, hrun⟩
  case early =>
    refine fun k core => ⟨happens_of_tables (exec_committedEarly k) fun s hown => ?_, leaves_of_event (exec_committedEarly k) fun s hown => ?_⟩
    · obtain ⟨hrollback, hearly, hheld, -⟩ := hown
      exact if_pos (by simp [hrollback, hearly, hheld])
    · obtain ⟨⟨hrollback, hearly, hheld, hcore⟩, hroom⟩ := hown
      rw [if_pos (by simp [hrollback, hearly, hheld]), commitNow_of_room hcore hroom, interval_commitEarly hcore]
      exact ⟨rfl, rfl, fun w hw => mem_release_commitEarly hcore hw⟩

end Sys2Proof.Machine
end

section
/-! The memory words (O26 to O30; 11 R236 to R248): what the checks of a global and of a team-local access find, and each word by its check and
its effect. -/

namespace Sys2Proof.Machine

/-! Global accesses (11 R238, R239). -/

/-- The check of a word that makes a global access at `ea`. -/
def globalCheck (ea : Chip → Nat → BitVec 64) (size : Nat) (write : Bool) : Check := fun e t slot => globalVerdict e t slot (ea e.now t) size write

/-- A global access that may be made meets no check. -/
theorem globalVerdict_none {e : State} {t slot size : Nat} {ea : BitVec 64} {write : Bool} (h : Reachable e t ea size write) :
    globalVerdict e t slot ea size write = none := by
  obtain ⟨haligned, hspace, p, far, dev, htrans⟩ := h
  simp only [globalVerdict, transVerdict, haligned, Nat.div_eq_of_lt hspace, htrans, ne_eq, not_true_eq_false, if_false]

/-- An access of a good form meets what its translation reports. -/
theorem globalVerdict_formed {e : State} {t slot size : Nat} {ea : BitVec 64} {write : Bool} (haligned : ea.toNat % size = 0) (hspace : ea.toNat < 2 ^ 55) :
    globalVerdict e t slot ea size write = transVerdict e t slot ea write :=
  (if_neg (not_not.mpr haligned)).trans (if_neg (not_not.mpr (Nat.div_eq_of_lt hspace)))

/-- A page that is to be served soft-faults a thread that may take the fault, and holds another. -/
theorem pageVerdict_serve (m : Chip) (t va : Nat) : pageVerdict m t va false = if m.maySoft t = true then .soft va else .hold va := by
  simp only [pageVerdict, Bool.not_false, Bool.true_or, Bool.and_true]

/-- The information words of a global access: those of a write have its bit, but for an uncorrectable error (11 R239). -/
def accessTrap (ea : Chip → Nat → BitVec 64) (write : Bool) (cause sub : Nat) (i0 : Word) (e : State) (l slot : Nat) : Verdict :=
  .trap cause i0 (BitVec.ofNat 32 (slot + 16 * sub + (if write = true ∧ cause ≠ causeUncorrectable then 256 else 0)))
    ((ea e.now l).extractLsb' 0 32) ((ea e.now l).extractLsb' 32 32)

theorem memTrap_eq (ea : Chip → Nat → BitVec 64) (write : Bool) (cause sub : Nat) (i0 : Word) (e : State) (l slot : Nat) :
    memTrap slot cause sub write i0 (ea e.now l) = accessTrap ea write cause sub i0 e l slot := by
  simp only [memTrap, accessTrap, Bool.and_eq_true, decide_eq_true_eq]

section
variable {i : Instr} {c : Bool} {ea : Chip → Nat → BitVec 64} {size : Nat} {write : Bool} {act : Act}

/-- A word that makes a global access has its effect where the access may be made. -/
theorem does_of_globalCheck (he : ∀ s, exec i s = runWord i (globalCheck ea size write) act s) (hc : (opInfo i).c = c) :
    Does i c (fun e l => Reachable e l (ea e.now l) size write) act :=
  does_of_runWord he hc fun _ _ _ h => globalVerdict_none h

/-- A word that makes a global access at `ea`, and what it does where the access may not be made, in the order of the checks. -/
def FaultsGlobally (i : Instr) (c : Bool) (ea : Chip → Nat → BitVec 64) (size : Nat) (write : Bool) : Prop :=
  let good := fun (e : State) (l : Nat) => (ea e.now l).toNat % size = 0 ∧ (ea e.now l).toNat < 2 ^ 55
  Fails i c (fun e l => (ea e.now l).toNat % size ≠ 0) (accessTrap ea write causeAlign 0 0) ∧
  Fails i c (fun e l => (ea e.now l).toNat % size = 0 ∧ 2 ^ 55 ≤ (ea e.now l).toNat) (accessTrap ea write causeAccess 1 0) ∧
  (∀ cause sub i0, Fails i c (fun e l => good e l ∧ threadTrans e e.now l (ea e.now l) write = .fault cause sub i0) (accessTrap ea write cause sub i0)) ∧
  Fails i c (fun e l => good e l ∧ threadTrans e e.now l (ea e.now l) write = .serve) (fun e l _ =>
    if e.now.maySoft l = true then .soft (ea e.now l).toNat else .hold (ea e.now l).toNat) ∧
  Fails i c (fun e l => good e l ∧ threadTrans e e.now l (ea e.now l) write = .migrating) (fun e l _ => pageVerdict e.now l (ea e.now l).toNat true)

theorem faultsGlobally_of_globalCheck (he : ∀ s, exec i s = runWord i (globalCheck ea size write) act s) (hc : (opInfo i).c = c) :
    FaultsGlobally i c ea size write := by
  have hformed {x : Trans} {v : State → Nat → Nat → Verdict}
      (hv : ∀ e l slot, threadTrans e e.now l (ea e.now l) write = x → transVerdict e l slot (ea e.now l) write = some (v e l slot)) :
      Fails i c (fun e l => ((ea e.now l).toNat % size = 0 ∧ (ea e.now l).toNat < 2 ^ 55) ∧ threadTrans e e.now l (ea e.now l) write = x) v :=
    fails_of_runWord he hc fun e l slot ⟨⟨haligned, hspace⟩, hx⟩ => (globalVerdict_formed haligned hspace).trans (hv e l slot hx)
  refine ⟨?misaligned, ?above, fun cause sub i0 => ?fault, ?serve, ?migrating⟩
  case misaligned => exact fails_of_runWord he hc fun e l slot h => (if_pos h).trans (congrArg some (memTrap_eq ea write causeAlign 0 0 e l slot))
  case above =>
    exact fails_of_runWord he hc fun e l slot ⟨haligned, habove⟩ => (if_neg (not_not.mpr haligned)).trans
      ((if_pos ((above_space_iff _).mpr habove)).trans (congrArg some (memTrap_eq ea write causeAccess 1 0 e l slot)))
  case fault => exact hformed fun e l slot h => by rw [transVerdict, h, ← memTrap_eq]
  case serve => exact hformed fun e l slot h => by rw [transVerdict, h, ← pageVerdict_serve]
  case migrating => exact hformed fun e l slot h => by rw [transVerdict, h]

end

/-! The atomics (11 R244). -/

theorem wideRegs_eq (w : BitVec 1) : wideRegs w = wideBytes w / 4 := by
  revert w
  decide

section
variable {i : Instr} {c u promote : Bool} {op : RmwOp} {w : BitVec 1} {order : BitVec 2} {scope : BitVec 3} {d a b : Nat}
  (he : ∀ s, exec i s = atomic i u op w order scope promote d a b s) (hc : (opInfo i).c = c)
include he hc

/-- An atomic makes its request where it may reach its address, with the operand, or with the new value behind the compare value. -/
theorem does_of_atomic : Does i c (fun e l => Reachable e l (e.now.vv l (2 * a)) (wideBytes w) true) (once u (fun e x takers m =>
    let first := regsValue e.now x b (wideBytes w / 4)
    let second := regsValue e.now x (b + wideBytes w / 4) (wideBytes w / 4)
    request e m x takers { rmwReq op (wideBytes w) d order scope (if op = .cas then second else first) first with promote := promote }
      (e.now.vv x (2 * a)))) := by
  rw [← wideRegs_eq]
  exact does_of_globalCheck (ea := fun m x => m.vv x (2 * a)) he hc

theorem faultsGlobally_of_atomic : FaultsGlobally i c (fun m x => m.vv x (2 * a)) (wideBytes w) true := faultsGlobally_of_globalCheck he hc

end

/-! Team-local accesses (11 R236, R238, R239, R250). -/

section
variable {e : State} {l slot size : Nat} {base : Word} {off : Int} {write : Bool}

/-- A team-local access that may be made meets no check. -/
theorem localVerdict_reachable {space : Space} (h : LocalReachable e l space base off size write) : localVerdict e l slot space base off size write = none := by
  cases space with
  | loc => exact localVerdict_none h Space.noConfusion
  | rmt => exact localVerdict_none h Space.noConfusion
  | stash =>
    obtain ⟨haligned, hpos, w, hw, hwithin, htouch, hreach⟩ := h
    have hwindow : ¬ (128 * w.lines : Int) < off + size := by omega
    simp only [localVerdict, haligned, Int.not_lt.mpr hpos, hw, hwindow, htouch, globalVerdict_none hreach, ne_eq, not_true_eq_false, if_false,
      Option.orElse_none]

theorem localVerdict_misaligned {space : Space} (h : off % size ≠ 0) :
    localVerdict e l slot space base off size write = some (localTrap slot causeAlign 0 write off) := by
  cases space <;> exact if_pos h

/-- An offset of a team's own memory or a sibling's is within its size. -/
theorem localVerdict_outside {space : Space} (hspace : space ≠ .stash) (haligned : off % size = 0)
    (h : off < 0 ∨ ((e.now.team (e.now.teamOf l)).spad : Int) < off + size) :
    localVerdict e l slot space base off size write = some (localTrap slot causeAccess 4 write off) := by
  cases space with
  | loc => exact (if_neg (not_not.mpr haligned)).trans (if_pos h)
  | rmt => exact (if_neg (not_not.mpr haligned)).trans (if_pos h)
  | stash => exact absurd rfl hspace

theorem localVerdict_inWindow (haligned : off % size = 0) (hpos : 0 ≤ off) (hwithin : off + size ≤ (e.now.team (e.now.teamOf l)).spad)
    (h : (e.now.team (e.now.teamOf l)).inWindow off.toNat size = true) :
    localVerdict e l slot .loc base off size write = some (localTrap slot causeAccess 7 write off) :=
  (if_neg (not_not.mpr haligned)).trans ((if_neg (by omega)).trans (if_pos h))

/-- A position names a team of the cluster where it lies within it and its other bits are zero. -/
def Sited (m : Chip) (l : Nat) (base : Word) : Prop :=
  rmtZero base = true ∧ rmtX base < (m.team (m.teamOf l)).clw ∧ rmtY base < (m.team (m.teamOf l)).clh

theorem not_sited_iff (m : Chip) (l : Nat) (base : Word) : ¬ Sited m l base ↔
    (!rmtZero base) = true ∨ (m.team (m.teamOf l)).clw ≤ rmtX base ∨ (m.team (m.teamOf l)).clh ≤ rmtY base := by
  rw [Sited, not_and_or, not_and_or, not_lt, not_lt, Bool.not_eq_true, Bool.not_eq_true']

theorem localVerdict_unsited (haligned : off % size = 0) (hpos : 0 ≤ off) (hwithin : off + size ≤ (e.now.team (e.now.teamOf l)).spad)
    (h : ¬ Sited e.now l base) : localVerdict e l slot .rmt base off size write = some (localTrap slot causeAccess 5 write off) :=
  (if_neg (not_not.mpr haligned)).trans ((if_neg (by omega)).trans (if_pos ((not_sited_iff _ _ _).mp h)))

theorem localVerdict_retired (haligned : off % size = 0) (hpos : 0 ≤ off) (hwithin : off + size ≤ (e.now.team (e.now.teamOf l)).spad)
    (hsited : Sited e.now l base) (h : e.now.sibling l (rmtX base) (rmtY base) = none) :
    localVerdict e l slot .rmt base off size write = some (localTrap slot causeAccess 14 write off) :=
  (if_neg (not_not.mpr haligned)).trans ((if_neg (by omega)).trans
    ((if_neg fun hbad => (not_sited_iff _ _ _).mpr hbad hsited).trans (if_pos (Option.isNone_iff_eq_none.mpr h))))

theorem localVerdict_stash_below (haligned : off % size = 0) (h : off < 0) :
    localVerdict e l slot .stash base off size write = some (localTrap slot causeAccess 4 write off) :=
  (if_neg (not_not.mpr haligned)).trans (if_pos h)

theorem localVerdict_stash_beyond (haligned : off % size = 0) (hpos : 0 ≤ off)
    (h : ∀ w, (e.now.team (e.now.teamOf l)).stash = some w → (128 * w.lines : Nat) < off + size) :
    localVerdict e l slot .stash base off size write = some (localTrap slot causeAccess 6 write off) := by
  refine (if_neg (not_not.mpr haligned)).trans ((if_neg (not_lt.mpr hpos)).trans ?_)
  cases hw : (e.now.team (e.now.teamOf l)).stash with
  | none => rfl
  | some w => exact if_pos (by have := h w hw; omega)

end

/-- The check of LDS and STS. -/
def localCheck (t : BitVec 2) (z : BitVec 3) (w : BitVec 7) (o : BitVec 5) (write : Bool) : Check := fun e l slot =>
  localVerdict e l slot (spaceOf t) (e.now.v l w.toNat) (stsOffset t z w o e.now l) (sizeBytes z) write

section
variable {i : Instr} {c : Bool} {t : BitVec 2} {z : BitVec 3} {w : BitVec 7} {o : BitVec 5} {write : Bool} {act act' : Act}

/-- A team-local access has its effect where it may be made. -/
theorem does_of_localCheck (he : ∀ s, exec i s = runWord i (localCheck t z w o write) act' s) (hc : (opInfo i).c = c) (ha : act' = act) :
    Does i c (fun e l => LocalReachable e l (spaceOf t) (e.now.v l w.toNat) (stsOffset t z w o e.now l) (sizeBytes z) write) act :=
  does_of_check he hc (fun _ _ _ h => localVerdict_reachable h) ha

/-- What a word that makes a team-local access does where the access may not be made, in the order of the checks of its space. -/
def FaultsLocally (i : Instr) (c : Bool) (t : BitVec 2) (z : BitVec 3) (w : BitVec 7) (o : BitVec 5) (write : Bool) : Prop :=
  let n := sizeBytes z
  let off := fun (e : State) (l : Nat) => stsOffset t z w o e.now l
  let team := fun (e : State) (l : Nat) => e.now.team (e.now.teamOf l)
  let base := fun (e : State) (l : Nat) => e.now.v l w.toNat
  let inside := fun (e : State) (l : Nat) => off e l % n = 0 ∧ 0 ≤ off e l ∧ off e l + n ≤ (team e l).spad
  let trap := fun (cause sub : Nat) (e : State) (l slot : Nat) => localTrap slot cause sub write (off e l)
  Fails i c (fun e l => off e l % n ≠ 0) (trap causeAlign 0) ∧
  (t = 0 ∨ t = 1 → Fails i c (fun e l => off e l % n = 0 ∧ (off e l < 0 ∨ (team e l).spad < off e l + n)) (trap causeAccess 4)) ∧
  (t = 0 → Fails i c (fun e l => inside e l ∧ (team e l).inWindow (off e l).toNat n = true) (trap causeAccess 7)) ∧
  (t = 1 → Fails i c (fun e l => inside e l ∧ ¬ Sited e.now l (base e l)) (trap causeAccess 5)) ∧
  (t = 1 → Fails i c (fun e l => inside e l ∧ Sited e.now l (base e l) ∧ e.now.sibling l (rmtX (base e l)) (rmtY (base e l)) = none) (trap causeAccess 14)) ∧
  (t = 2 → Fails i c (fun e l => off e l % n = 0 ∧ off e l < 0) (trap causeAccess 4)) ∧
  (t = 2 → Fails i c (fun e l => off e l % n = 0 ∧ 0 ≤ off e l ∧
    ∀ x, (team e l).stash = some x → (128 * x.lines : Nat) < off e l + n) (trap causeAccess 6))

theorem faultsLocally_of_localCheck (he : ∀ s, exec i s = runWord i (localCheck t z w o write) act s) (hc : (opInfo i).c = c) :
    FaultsLocally i c t z w o write := by
  refine ⟨?misaligned, fun ht => ?outside, fun ht => ?window, fun ht => ?unsited, fun ht => ?retired, fun ht => ?below, fun ht => ?beyond⟩
  case misaligned => exact fails_of_runWord he hc fun e l slot h => localVerdict_misaligned h
  case outside =>
    have hspace : spaceOf t ≠ .stash := by rcases ht with rfl | rfl <;> decide
    exact fails_of_runWord he hc fun e l slot ⟨haligned, h⟩ => localVerdict_outside hspace haligned h
  case window =>
    subst ht
    exact fails_of_runWord he hc fun e l slot ⟨⟨haligned, hpos, hwithin⟩, h⟩ => localVerdict_inWindow haligned hpos hwithin h
  case unsited =>
    subst ht
    exact fails_of_runWord he hc fun e l slot ⟨⟨haligned, hpos, hwithin⟩, h⟩ => localVerdict_unsited haligned hpos hwithin h
  case retired =>
    subst ht
    exact fails_of_runWord he hc fun e l slot ⟨⟨haligned, hpos, hwithin⟩, hsited, h⟩ => localVerdict_retired haligned hpos hwithin hsited h
  case below =>
    subst ht
    exact fails_of_runWord he hc fun e l slot ⟨haligned, h⟩ => localVerdict_stash_below haligned h
  case beyond =>
    subst ht
    exact fails_of_runWord he hc fun e l slot ⟨haligned, hpos, h⟩ => localVerdict_stash_beyond haligned hpos h

end

/-! The words. -/

/-- Settles O26: each word is its access and its effect, the effect of LDS and STS by space. -/
theorem loadStoreWords : Obligations.LoadStoreWords := by
  intro c u t z f d w b o n ea ea4 off
  have hoff : off = stsOffset t z w o := funext fun m => funext fun l => (stsOffset_eq t z w o m l).symm
  clear_value off
  subst hoff
  refine ⟨?ld, ?st, ?ldf, ?lds, ?sts⟩
  case ld => exact does_of_globalCheck (ea := ea) (exec_ld c u t z d b o) rfl
  case st => exact does_of_globalCheck (ea := ea) (exec_st c u t z d b o) rfl
  case ldf => exact does_of_globalCheck (ea := ea4) (exec_ldf c u t f d b o) rfl
  case lds =>
    refine does_of_localCheck (exec_lds c u t z d w o) rfl (once_congr fun e x takers m => ?_)
    unfold stsOffset
    cases spaceOf t <;> rfl
  case sts =>
    refine does_of_localCheck (exec_sts c u t z d w o) rfl (once_congr fun e x takers m => ?_)
    unfold stsOffset
    cases spaceOf t <;> rfl

/-- Settles O27: each word is an `atomic`. -/
theorem atomicWords : Obligations.AtomicWords := by
  intro c u w r sc d a b n does
  exact ⟨does_of_atomic (exec_atomAdd c u w r sc d a b) rfl, does_of_atomic (exec_atomMinS32 c u w r sc d a b) rfl,
    does_of_atomic (exec_atomMaxS32 c u w r sc d a b) rfl, does_of_atomic (exec_atomMinN32 c u w r sc d a b) rfl,
    does_of_atomic (exec_atomMaxN32 c u w r sc d a b) rfl, does_of_atomic (exec_atomAnd c u w r sc d a b) rfl,
    does_of_atomic (exec_atomOr c u w r sc d a b) rfl, does_of_atomic (exec_atomXor c u w r sc d a b) rfl,
    does_of_atomic (exec_atomxXchg c u w r sc d a b) rfl, does_of_atomic (exec_atomxCas c u w r sc d a b) rfl,
    does_of_atomic (exec_atomxIncw c u w r sc d a b) rfl, does_of_atomic (exec_atomxDecw c u w r sc d a b) rfl,
    does_of_atomic (w := 0) (exec_atomxFaddF32 c u r sc d a b) rfl, does_of_atomic (w := 0) (exec_atomxFminF32 c u r sc d a b) rfl,
    does_of_atomic (w := 0) (exec_atomxFmaxF32 c u r sc d a b) rfl, does_of_atomic (exec_atomp c u w r sc d a b) rfl⟩

/-- Settles O28: the acquire loads and the release store make a global access; the fences have no check of their own. -/
theorem syncWords : Obligations.SyncWords := by
  intro c u w r sc d a b n ea
  refine ⟨?lda, ?ldap, ?stl, ?fence, ?fenceSc⟩
  case lda => exact does_of_globalCheck (ea := ea) (exec_lda c u w sc d a) rfl
  case ldap => exact does_of_globalCheck (ea := ea) (exec_ldap c u w sc d a) rfl
  case stl => exact does_of_globalCheck (ea := ea) (exec_stl c u w sc a b) rfl
  case fence => exact does_of_noCheck (exec_fence c u r sc) rfl rfl
  case fenceSc => exact does_of_noCheck (exec_fenceSc c u sc) rfl rfl

/-- Settles O29: each word makes a global access, and fails as its checks do. -/
theorem accessFaults : Obligations.AccessFaults := by
  intro c u t z f d b o w r sc x y a at_ n
  change ∀ p ∈ (_ : List (Instr × (Chip → Nat → BitVec 64) × Nat × Bool)), FaultsGlobally p.1 c p.2.1 p.2.2.1 p.2.2.2
  simp only [List.forall_mem_cons]
  exact ⟨faultsGlobally_of_globalCheck (exec_ld c u t z d b o) rfl, faultsGlobally_of_globalCheck (exec_st c u t z d b o) rfl,
    faultsGlobally_of_globalCheck (exec_ldf c u t f d b o) rfl, faultsGlobally_of_globalCheck (exec_lda c u w sc x a) rfl,
    faultsGlobally_of_globalCheck (exec_ldap c u w sc x a) rfl, faultsGlobally_of_globalCheck (exec_stl c u w sc a y) rfl,
    faultsGlobally_of_atomic (exec_atomAdd c u w r sc x a y) rfl, faultsGlobally_of_atomic (exec_atomMinS32 c u w r sc x a y) rfl,
    faultsGlobally_of_atomic (exec_atomMaxS32 c u w r sc x a y) rfl, faultsGlobally_of_atomic (exec_atomMinN32 c u w r sc x a y) rfl,
    faultsGlobally_of_atomic (exec_atomMaxN32 c u w r sc x a y) rfl, faultsGlobally_of_atomic (exec_atomAnd c u w r sc x a y) rfl,
    faultsGlobally_of_atomic (exec_atomOr c u w r sc x a y) rfl, faultsGlobally_of_atomic (exec_atomXor c u w r sc x a y) rfl,
    faultsGlobally_of_atomic (exec_atomxXchg c u w r sc x a y) rfl, faultsGlobally_of_atomic (exec_atomxCas c u w r sc x a y) rfl,
    faultsGlobally_of_atomic (exec_atomxIncw c u w r sc x a y) rfl, faultsGlobally_of_atomic (exec_atomxDecw c u w r sc x a y) rfl,
    faultsGlobally_of_atomic (exec_atomxFaddF32 c u r sc x a y) rfl, faultsGlobally_of_atomic (exec_atomxFminF32 c u r sc x a y) rfl,
    faultsGlobally_of_atomic (exec_atomxFmaxF32 c u r sc x a y) rfl, faultsGlobally_of_atomic (exec_atomp c u w r sc x a y) rfl,
    List.forall_mem_nil _⟩

/-- Settles O30: both words make a team-local access, and fail as its checks do. -/
theorem localFaults : Obligations.LocalFaults := by
  intro c u t z d w o n off team base inside sited
  have hoff : off = fun e l => stsOffset t z w o e.now l := by
    have hrmt : decide (spaceOf t = .rmt) = decide (t = 1) := by
      revert t
      decide
    funext e l
    rw [stsOffset, hrmt]
  clear_value off
  subst hoff
  exact List.forall_mem_cons.mpr ⟨faultsLocally_of_localCheck (exec_lds c u t z d w o) rfl,
    List.forall_mem_singleton.mpr (faultsLocally_of_localCheck (exec_sts c u t z d w o) rfl)⟩

end Sys2Proof.Machine
end

section
/-! The values that atomics store (O33; 11 R244). -/

namespace Sys2Proof.Machine

section
variable {n : Nat} {x y : BitVec n}

/-- A word read with its sign. -/
theorem signedNat_toNat (x : BitVec n) : signedNat x.toNat n = x.toInt := by
  have hmsb : x.msb = bitAt x.toNat (n - 1) := by
    rw [BitVec.msb_eq_getLsbD_last, ← BitVec.testBit_toNat, Nat.testBit_eq_decide_div_mod_eq]
    rfl
  rw [signedNat, BitVec.toInt_eq_msb_cond, hmsb, Nat.cast_pow, Nat.cast_ofNat]

variable (hpos : 0 < n)
include hpos

theorem toNat_succ_of_lt (h : x < y) : (x + 1).toNat = x.toNat + 1 := by
  have hfits : x.toNat + 1 < 2 ^ n := Nat.lt_of_le_of_lt h y.isLt
  rw [BitVec.toNat_add, BitVec.ofNat_eq_ofNat, BitVec.toNat_one hpos, Nat.mod_eq_of_lt hfits]

theorem toNat_pred (h : x ≠ 0) : (x - 1).toNat = x.toNat - 1 := by
  have hone : (1 : BitVec n).toNat = 1 := BitVec.toNat_one hpos
  have hx : x.toNat ≠ 0 := mt (BitVec.toNat_inj (y := 0)).mp h
  rw [BitVec.toNat_sub_of_le (BitVec.le_def.mpr (by omega)), hone]

end

/-- Settles O33: an operation on the numbers of two words is the operation on the words. -/
theorem readModifyWriteResults : Obligations.ReadModifyWriteResults := by
  intro n o y c hn f
  have hpos : 0 < n := by omega
  refine ⟨congrArg some (BitVec.toNat_add o y).symm, ?minS, ?maxS, ?minU, ?maxU, congrArg some (BitVec.toNat_and o y).symm,
    congrArg some (BitVec.toNat_or o y).symm, congrArg some (BitVec.toNat_xor o y).symm, rfl, if_congr BitVec.toNat_inj rfl rfl, ?incw, ?decw⟩
  all_goals
    rw [apply_ite BitVec.toNat]
    refine congrArg some ?_
  case minS => rw [← signedNat_toNat, ← signedNat_toNat]
  case maxS => rw [← signedNat_toNat, ← signedNat_toNat]
  case minU => exact min_def _ _
  case maxU => exact (max_comm _ _).trans (max_def _ _)
  case incw => exact ite_congr rfl (fun _ => rfl) fun h => (toNat_succ_of_lt hpos (BitVec.not_le.mp h)).symm
  case decw =>
    exact ite_congr (congrArg (· ∨ y < o) (propext (BitVec.toNat_inj (y := 0)))) (fun _ => rfl) fun h => (toNat_pred hpos fun hzero => h (.inl hzero)).symm

end Sys2Proof.Machine
end

section
/-! The words on handles and counters (O35; 11 R241, 14 R303, R304, R312, R313). -/

namespace Sys2Proof.Machine

/-! A batch that is closed (14 R303). -/

section
variable (c : Chip) (t : Nat) (lvl : Level) (scope : BitVec 3)

theorem closeBatch_id : (c.closeBatch t lvl scope).1 = (c.openBatchOf t lvl).1 := by
  unfold Chip.closeBatch
  dsimp only
  split <;> rfl

/-- No batch of the level is open then. -/
theorem closeBatch_none_open : Sparse.find? ((c.closeBatch t lvl scope).2.thread t).openBatch lvl.code = none := by
  unfold Chip.closeBatch
  dsimp only
  split <;> simp [Chip.setBatch, Chip.tickStamp, Chip.thread]

theorem openBatchOf_coreOf (u : Nat) : (c.openBatchOf t lvl).2.coreOf u = c.coreOf u := by
  unfold Chip.openBatchOf
  split <;> rfl

theorem closeBatch_coreOf (u : Nat) : (c.closeBatch t lvl scope).2.coreOf u = c.coreOf u := by
  rw [← openBatchOf_coreOf c t lvl]
  unfold Chip.closeBatch
  dsimp only
  split <;> rfl

theorem closeBatch_committed {b : Batch} (h : Sparse.find? (c.closeBatch t lvl scope).2.batches (c.openBatchOf t lvl).1 = some b) :
    b.scope = scope ∧ b.committed.isSome = true := by
  unfold Chip.closeBatch at h
  dsimp only at h
  split at h
  · obtain rfl := Option.some.inj ((Sparse.find?_set_same _ _ _).symm.trans h)
    exact ⟨rfl, rfl⟩
  · rename_i hnone
    exact nomatch hnone.symm.trans h

end

/-- A batch noted as the one that a handle names. -/
def Chip.nameBatch (c : Chip) (id h : Nat) : Chip :=
  match Sparse.find? c.batches id with
  | some b => c.setBatch id { b with handle := some h }
  | none => c

theorem threads_nameBatch (c : Chip) (id h : Nat) : (c.nameBatch id h).threads = c.threads := by
  unfold Chip.nameBatch
  split <;> rfl

theorem handles_nameBatch (c : Chip) (id h : Nat) : (c.nameBatch id h).handles = c.handles := by
  unfold Chip.nameBatch
  split <;> rfl

theorem find?_nameBatch (c : Chip) (id h : Nat) :
    Sparse.find? (c.nameBatch id h).batches id = (Sparse.find? c.batches id).map fun b => { b with handle := some h } := by
  unfold Chip.nameBatch
  cases hb : Sparse.find? c.batches id with
  | none => exact hb
  | some b => exact Sparse.find?_set_same _ _ _

/-- What CPY.COMMIT does: the batch closed, a handle of it taken, and the handle given to the registers. -/
def commitEffect (d : BitVec 7) (sc : BitVec 3) (_ : State) (t : Nat) (takers : List Nat) (m : Chip) : Chip :=
  let closed := m.closeBatch t (m.thread t).level sc
  let taken := closed.2.newHandle (closed.2.coreOf t) (.batch closed.1)
  takers.foldl (fun m x => m.setReg x d.toNat (handleReg taken.1)) (taken.2.nameBatch closed.1 taken.1)

/-- A commit of a thread alone: its register, the handle taken and the batch closed name each other. -/
theorem commitEffect_alone (d : BitVec 7) (sc : BitVec 3) (e : State) (x : Nat) (m : Chip) :
    let id := (m.openBatchOf x (m.thread x).level).1
    let m' := commitEffect d sc e x [x] m
    ∃ h, m'.reg x d.toNat = handleReg h ∧ Sparse.find? m'.handles h = some { core := m.coreOf x, of := .batch id } ∧
      Sparse.find? (m'.thread x).openBatch (m.thread x).level.code = none ∧
      ∀ b, Sparse.find? m'.batches id = some b → b.scope = sc ∧ b.committed.isSome = true ∧ b.handle = some h := by
  dsimp only [commitEffect, List.foldl_cons, List.foldl_nil]
  have hopen := closeBatch_none_open m x (m.thread x).level sc
  have hcommitted := fun b => closeBatch_committed (b := b) m x (m.thread x).level sc
  rw [← closeBatch_id m x (m.thread x).level sc] at hcommitted ⊢
  rw [← closeBatch_coreOf m x (m.thread x).level sc x]
  generalize m.closeBatch x (m.thread x).level sc = closed at *
  refine ⟨closed.2.nextId, (Chip.reg_setReg _ _ _ _ _ _).trans (if_pos ⟨rfl, rfl⟩), ?handle, ?opened, fun b hb => ?batch⟩
  case handle =>
    refine (congrArg (Sparse.find? · _) (handles_nameBatch _ _ _)).trans ?_
    exact Sparse.find?_set_same _ _ _
  case opened =>
    rw [Chip.setReg, Chip.thread_setThread_same, Chip.thread, threads_nameBatch]
    exact hopen
  case batch =>
    obtain ⟨b', hb', rfl⟩ := Option.map_eq_some_iff.mp ((find?_nameBatch _ _ _).symm.trans hb)
    obtain ⟨hscope, hset⟩ := hcommitted b' hb'
    exact ⟨hscope, hset, rfl⟩

/-- Settles O35: no word has a check of its own, and WAITC is held by what its counters say. -/
theorem handleWords : Obligations.HandleWords := by
  intro c d a p sc l k n t
  refine ⟨⟨commitEffect d sc, does_of_noCheck (exec_cpyCommit c d sc) rfl rfl, commitEffect_alone d sc⟩, ?htest, ?hcancel, ?hwait, ?cntrd, ?waitc, ?held⟩
  case htest => exact does_of_noCheck (exec_htest c p a) rfl rfl
  case hcancel => exact does_of_noCheck (exec_hcancel c a) rfl rfl
  case hwait => exact does_of_noCheck (exec_hwait c a) rfl rfl
  case cntrd => exact does_of_noCheck (exec_cntrd c d) rfl rfl
  case waitc => exact does_of_noCheck (exec_waitc c l k n t) rfl rfl
  case held =>
    intro e x
    simp only [blocked, Bool.or_eq_false_iff, decide_eq_false_iff_not, not_lt, and_assoc]

end Sys2Proof.Machine
end

section
/-! What a request leaves in the machine (O32; 11 R237, R240). -/

namespace Sys2Proof.Machine

/-! Room in an L1 (02 R22). -/

/-- An L1 with room for a line gives none up. -/
theorem Proto.settle_room [LineAnswers] (n : Nat) {e : State} {c : Chip} {k ln : Nat} (h : c.victim k ln = none) : settle n e (.room k ln) c = c := by
  cases n with
  | zero => rw [settle_zero]
  | succ n =>
    rw [settle_succ]
    dsimp only [settle._f]
    rw [h]

/-- A posted store of a line that its core's L1 has room for is noted in that L1 alone. -/
theorem markPosted_of_room {e : State} {c : Chip} {a : Access} (h : c.victim a.core (lineOf a.phys) = none) :
    { c.markPosted e a with cores := [] } = { c with cores := [] } := by
  have hroom : roomNow e c a.core (lineOf a.phys) = c := @Proto.settle_room (answersAt c.depth) _ e c _ _ h
  unfold Chip.markPosted
  dsimp only
  rw [hroom]
  split
  · rfl
  · split
    · rfl
    · split <;> rfl

/-! Registers that wait (11 R240). -/

/-- A register that waits for an access. -/
def Reg.awaiting (r : Reg) (id : Nat) : Reg := { r with wait := some (.access id), poison := none }

theorem reg_foldl_awaiting (ts : List Nat) (c : Chip) (n id x k : Nat) :
    (ts.foldl (fun c t => c.setReg t n ((c.reg t n).awaiting id)) c).reg x k = if x ∈ ts ∧ k = n then (c.reg x k).awaiting id else c.reg x k := by
  induction ts generalizing c with
  | nil => simp
  | cons t ts ih =>
    rw [List.foldl_cons, ih, Chip.reg_setReg]
    by_cases hx : x = t
    · subst hx
      by_cases hk : k = n
      · subst hk
        simp [Reg.awaiting]
      · simp [hk]
    · simp [hx]

/-- The registers from the first on wait, in every thread that receives the data, and no other. -/
theorem reg_markPending (c : Chip) (takers : List Nat) (dest id n x k : Nat) :
    (c.markPending takers dest id n).reg x k = if x ∈ takers ∧ dest ≤ k ∧ k < dest + n then (c.reg x k).awaiting id else c.reg x k := by
  induction n with
  | zero => exact (if_neg (by omega)).symm
  | succ n ih =>
    refine (reg_foldl_awaiting takers _ (dest + n) id x k).trans ?_
    rw [ih]
    by_cases hx : x ∈ takers
    · simp only [hx, true_and]
      by_cases hk : k = dest + n
      · rw [if_pos hk, if_neg (by omega), if_pos (by omega)]
      · rw [if_neg hk]
        exact if_congr (by omega) rfl rfl
    · simp only [hx, false_and, if_false]

theorem markPending_tables (c : Chip) (takers : List Nat) (dest id n : Nat) :
    ((c.markPending takers dest id n).accesses, (c.markPending takers dest id n).nextId) = (c.accesses, c.nextId) := by
  induction n with
  | zero => rfl
  | succ n ih =>
    have hset (c : Chip) (t : Nat) : ((c.setReg t (dest + n) ((c.reg t (dest + n)).awaiting id)).accesses, (c.setReg t (dest + n)
        ((c.reg t (dest + n)).awaiting id)).nextId) = (c.accesses, c.nextId) := rfl
    exact (foldl_keeps (fun c : Chip => (c.accesses, c.nextId)) hset takers _).trans ih

/-! The request. -/

/-- The access that a near request of this device enters in the table. -/
def nearAccess (e : State) (m m0 : Chip) (t : Nat) (takers : List Nat) (a : Access) (ea : BitVec 64) (p : Nat) : Access :=
  { a with
    th := t, core := m.coreOf t, ctx := m.ctxOf t, va := ea.toNat, phys := p, stage := .issued, clk := (m0.core (m.coreOf t)).clk, takers := takers
    issue := e.now.nextId, dev := none, slot := (e.issue.map Issue.slot).getD 0 }

/-- A request at an address that translates near on this device, outside rollback mode: its access enters the table and its registers wait. -/
theorem request_near {e : State} {m : Chip} {t : Nat} {takers : List Nat} {a : Access} {ea : BitVec 64} {p : Nat}
    (htrans : threadTrans e m t ea a.writes = .ok p false none) :
    let m0 := touch e m (m.coreOf t) (m.ctxOf t) ea.toNat a.writes
    let b := nearAccess e m m0 t takers a ea p
    (m0.team (m0.teamOf t)).rollback = false →
    request e m t takers a ea =
      ((({ m0 with nextId := m0.nextId + 1 }.setAccess m0.nextId b).markPosted e b).markPending takers a.dest m0.nextId a.count) := by
  intro m0 b hrollback
  have hdev : (if (a.writes || !leaseGood e p) = true then (none : Option Nat) else none) = none := ite_self _
  unfold request
  rw [htrans]
  dsimp only
  rw [hdev]
  simp only [Option.isSome_none, Bool.false_and, Bool.false_eq_true, if_false]
  exact congrArg (fun d => Chip.markPending (Chip.markPosted e d b) takers a.dest m0.nextId a.count)
    (if_neg fun h => Bool.false_ne_true (hrollback.symm.trans (Bool.and_eq_true_iff.mp h).1))

/-- Settles O32: the access enters the table, the L1 notes a posted store, and the registers wait. -/
theorem requestEntersTable : Obligations.RequestEntersTable := by
  intro e m t takers a ea p htrans m0 m' hrollback hroom
  have hreq : m' = _ := request_near htrans hrollback
  clear_value m'
  subst hreq
  let b := nearAccess e m m0 t takers a ea p
  let c := { m0 with nextId := m0.nextId + 1 }.setAccess m0.nextId b
  have hposted : { c.markPosted e b with cores := [] } = { c with cores := [] } := markPosted_of_room hroom
  have htables := markPending_tables (c.markPosted e b) takers a.dest m0.nextId a.count
  have hreg := reg_markPending (c.markPosted e b) takers a.dest m0.nextId a.count
  have hthreads : (c.markPosted e b).threads = m0.threads := (congrArg Chip.threads hposted :)
  simp only [Chip.reg, Chip.thread, hthreads] at hreg
  exact ⟨(congrArg Prod.fst htables).trans (congrArg Chip.accesses hposted), fun x hx n hfirst hlast => (hreg x n).trans (if_pos ⟨hx, hfirst, hlast⟩),
    fun x n hout => (hreg x n).trans (if_neg fun ⟨hx, hfirst, hlast⟩ => hout.elim (· hx) (by omega)), (congrArg Prod.snd htables).trans (congrArg Chip.nextId hposted)⟩

end Sys2Proof.Machine
end

section
/-! Requests at a line at rest (11 R240 to R245, 12 R256 to R265, R276): what the copies and clocks of the cores are no part of, and what a
request does at a home where nothing is in progress, no core owns a word and no host copy is left. -/

namespace Sys2Proof.Machine

/-! What the copies and clocks of the cores are no part of. -/

/-- The outstanding accesses but for how far each has come. -/
def Chip.requests (c : Chip) : Sparse Access := Sparse.mapVals (fun _ a => { a with stage := .issued }) c.accesses

/-- The homes with their times, the outstanding accesses but for how far each has come, and the release lists. -/
def Chip.beyondCopies (c : Chip) : (Sparse HomeLine × Sparse Slice × Sparse Die × Nat × Bool) × Sparse Access × (Nat → List Nat) :=
  ((c.home, c.slices, c.dies, c.timeBase, c.generation), c.requests, fun k => (c.core k).release)

theorem beyondCopies_setCore {c : Chip} {k : Nat} {x : Core} (h : x.release = (c.core k).release) : (c.setCore k x).beyondCopies = c.beyondCopies := by
  refine Prod.ext rfl (Prod.ext rfl (funext fun j => ?_))
  dsimp only [Chip.beyondCopies]
  rw [Chip.core_setCore]
  split
  · rename_i hj
    rw [h, hj]
  · rfl

theorem beyondCopies_clockAdvance (c : Chip) (k t : Nat) : (c.clockAdvance k t).beyondCopies = c.beyondCopies := beyondCopies_setCore rfl

theorem beyondCopies_setL1 (c : Chip) (k ln : Nat) (l : L1Line) : (c.setL1 k ln l).beyondCopies = c.beyondCopies := beyondCopies_setCore rfl

theorem beyondCopies_see (c : Chip) (t wts : Nat) : (c.see t wts).beyondCopies = c.beyondCopies := by
  unfold Chip.see
  split <;> rfl

/-- A request that asks again is the same request. -/
theorem requests_requeue (c : Chip) (f : Access → Bool) : (c.requeue f).requests = c.requests := by
  refine (List.map_map ..).trans (List.map_congr_left fun p _ => ?_)
  dsimp only [Function.comp_apply]
  split
  · split <;> rfl
  · rfl

theorem beyondCopies_requeueLine (c : Chip) (k ln : Nat) : (c.requeueLine k ln).beyondCopies = c.beyondCopies :=
  Prod.ext rfl (Prod.ext (requests_requeue _ _) rfl)

theorem beyondCopies_storeReply (e : State) (c : Chip) (k ln : Nat) (ws : BitVec 32) (old : HomeLine) (alloc : Bool) :
    (storeReply e c k ln ws old alloc).beyondCopies = c.beyondCopies := by
  unfold storeReply
  dsimp only
  split
  · split
    · rw [beyondCopies_setL1, beyondCopies_requeueLine]
    · exact beyondCopies_requeueLine _ _ _
  · rw [beyondCopies_setL1, beyondCopies_requeueLine]

theorem beyondCopies_clearPending (c : Chip) (k ln : Nat) : (c.clearPending k ln).beyondCopies = c.beyondCopies := by
  unfold Chip.clearPending
  split
  · rfl
  · exact beyondCopies_setL1 _ _ _ _

theorem beyondCopies_dropStale (c : Chip) (k ln wts : Nat) : (c.dropStale k ln wts).beyondCopies = c.beyondCopies := by
  unfold Chip.dropStale
  dsimp only
  split
  · exact beyondCopies_requeueLine _ _ _
  · split
    · exact beyondCopies_requeueLine _ _ _
    · rw [beyondCopies_setL1, beyondCopies_requeueLine]

section
variable {c d : Chip} (h : d.beyondCopies = c.beyondCopies)
include h

theorem sameTimes_of_beyondCopies : SameTimes c d := by
  simp only [Chip.beyondCopies, Prod.mk.injEq] at h
  obtain ⟨⟨-, hslices, hdies, hbase, hgen⟩, -⟩ := h
  exact ⟨hslices, hdies, hbase, hgen⟩

/-- Lines are read from the homes, their times and memory alone. -/
theorem line_of_beyondCopies {e e' : State} (hm : e'.mem = e.mem) (hb : e'.board = e.board) (ln : Nat) : d.line e' ln = c.line e ln := by
  have htimes := sameTimes_of_beyondCopies h
  have hhome : d.home = c.home := congrArg (·.1.1) h
  have hdie : d.die = c.die := by
    funext k
    simp only [Chip.die, htimes.2.1]
  have hpoison : chunkPoison e' d = chunkPoison e c := by
    funext p
    simp only [chunkPoison, hdie, hb]
  simp only [Chip.line, hhome, lostHome, hpoison, memts, htimes.1, htimes.2.2.1, htimes.2.2.2, htimes.timeOf, htimes.sliceAt, fillPoison, hm]
  rfl

theorem requests_of_beyondCopies : d.requests = c.requests := congrArg (·.2.1) h

theorem release_of_beyondCopies (k : Nat) : (d.core k).release = (c.core k).release := congrFun (congrArg (·.2.2) h) k

end

/-! Fences (11 R247). -/

/-- No access of a thread or of a core is a fence. -/
def Chip.Fenceless (c : Chip) (th k : Nat) : Prop := ∀ p ∈ c.accesses, p.2.th = th ∨ p.2.core = k → p.2.op ≠ .fence

section
variable {c : Chip} {th k : Nat}

theorem Chip.Fenceless.of_requests (hc : c.Fenceless th k) {d : Chip} (h : d.requests = c.requests) : d.Fenceless th k := by
  intro p hp
  have hmem : (p.1, { p.2 with stage := .issued }) ∈ c.requests := h ▸ List.mem_map_of_mem hp
  obtain ⟨q, hq, heq⟩ := List.mem_map.mp hmem
  have hth : q.2.th = p.2.th := congrArg (·.2.th) heq
  have hcore : q.2.core = p.2.core := congrArg (·.2.core) heq
  have hop : q.2.op = p.2.op := congrArg (·.2.op) heq
  rw [← hth, ← hcore, ← hop]
  exact hc q hq

theorem Chip.Fenceless.erase (hc : c.Fenceless th k) (id : Nat) : { c with accesses := Sparse.erase c.accesses id }.Fenceless th k :=
  fun p hp => hc p (List.mem_of_mem_filter hp)

theorem Sparse.mem_set {ν : Type} {m : Sparse ν} {k : Nat} {v : ν} {p : Nat × ν} (h : p ∈ Sparse.set m k v) : p = (k, v) ∨ p ∈ m := by
  induction m with
  | nil => exact .inl (List.mem_singleton.mp h)
  | cons q t ih =>
    obtain ⟨j, w⟩ := q
    rw [Sparse.set] at h
    split at h
    · exact List.mem_cons.mp h
    · split at h
      · exact (List.mem_cons.mp h).imp_right (List.mem_cons_of_mem _)
      · obtain rfl | ht := List.mem_cons.mp h
        · exact .inr List.mem_cons_self
        · exact (ih ht).imp_right (List.mem_cons_of_mem _)

theorem Chip.Fenceless.setAccess (hc : c.Fenceless th k) (id : Nat) {a : Access} (ha : a.op ≠ .fence) : (c.setAccess id a).Fenceless th k := by
  intro p hp
  obtain rfl | hold := Sparse.mem_set hp
  · exact fun _ => ha
  · exact hc p hold

variable [LineAnswers]

theorem Proto.settleFences_idle (hc : c.Fenceless th k) (e : State) : Proto.settleFences e c th = c := by
  have hnone : c.accesses.filter (fun p => decide (p.2.th = th) && decide (p.2.op = .fence)) = [] :=
    List.filter_eq_nil_iff.mpr fun p hp => by simpa using fun h => hc p hp (.inl h)
  rw [Proto.settleFences, hnone, List.foldl_nil]

theorem Proto.settleCore_idle (hc : c.Fenceless th k) (e : State) : Proto.settleCore e c k = c := by
  have hnone : c.accesses.filter (fun p => decide (p.2.core = k) && decide (p.2.op = .fence)) = [] :=
    List.filter_eq_nil_iff.mpr fun p hp => by simpa using fun h => hc p hp (.inr h)
  rw [Proto.settleCore, hnone, List.map_nil, List.dedup_nil, List.foldl_nil]

end

/-! A write at an unowned home (12 R258). -/

/-- What is read of a line at its home: its owner, its data and its times. -/
def HomeLine.face (h : HomeLine) : Option Nat × BitVec 1024 × Nat × Nat := (h.owner, h.data, h.wts, h.rts)

theorem face_markReleaser (e : State) (c : Chip) (k ln : Nat) : ((markReleaser e c k ln).line e ln).face = (c.line e ln).face := by
  unfold markReleaser
  split
  · rfl
  · exact (congrArg HomeLine.face (Chip.line_setLine_same c e ln _) :)

theorem sameLines_markReleaser (e : State) (c : Chip) (k ln : Nat) : SameLines ln c (markReleaser e c k ln) := by
  unfold markReleaser
  split
  · exact .refl _ _
  · exact sameLines_setLine _ _ _

theorem requests_markReleaser (e : State) (c : Chip) (k ln : Nat) : (markReleaser e c k ln).requests = c.requests := by
  unfold markReleaser
  split <;> rfl

theorem release_markReleaser (e : State) (c : Chip) (k ln j : Nat) : ((markReleaser e c k ln).core j).release = (c.core j).release := by
  unfold markReleaser
  split <;> rfl

/-- A store at an unowned home and the mark of its core there. -/
def writeAtHome (e : State) (c : Chip) (k p size v : Nat) (kind : BitVec 2) : Chip := markReleaser e (homeStore e c k p size v kind) k (lineOf p)

section
variable (e : State) (c : Chip) (k p size v : Nat) (kind : BitVec 2)

theorem sameLines_writeAtHome : SameLines (lineOf p) c (writeAtHome e c k p size v kind) :=
  (sameLines_homeStore e c k p size v kind).trans (sameLines_markReleaser _ _ _ _)

/-- A store at its home reaches the homes as a write there does. -/
theorem beyondCopies_homeStore : (homeStore e c k p size v kind).beyondCopies =
    (putHome c (lineOf p) p size v (max (c.core k).clk ((c.line e (lineOf p)).rts + 1)) (c.line e (lineOf p))).beyondCopies := by
  unfold homeStore
  dsimp only
  split
  · exact beyondCopies_clockAdvance _ _ _
  · rw [beyondCopies_storeReply, beyondCopies_clockAdvance]

/-- The line it leaves: its bytes written, later than every lease (12 R258). -/
theorem face_writeAtHome {e' : State} (hm : e'.mem = e.mem) (hb : e'.board = e.board) : ((writeAtHome e c k p size v kind).line e' (lineOf p)).face =
    let t := max (c.core k).clk ((c.line e (lineOf p)).rts + 1)
    ((c.line e (lineOf p)).owner, putBytes (c.line e (lineOf p)).data (p % 128) size v, t, t) := by
  rw [line_of_beyondCopies rfl hm hb, writeAtHome, face_markReleaser, line_of_beyondCopies (beyondCopies_homeStore e c k p size v kind) rfl rfl]
  obtain ⟨howner, hdata, hwts, hrts⟩ := line_putHome e c (lineOf p) p size v (max (c.core k).clk ((c.line e (lineOf p)).rts + 1)) (c.line e (lineOf p))
  rw [HomeLine.face, howner, hdata, hwts, hrts]

theorem requests_writeAtHome : (writeAtHome e c k p size v kind).requests = c.requests :=
  (requests_markReleaser _ _ _ _).trans ((requests_of_beyondCopies (beyondCopies_homeStore e c k p size v kind)).trans rfl)

theorem release_writeAtHome (j : Nat) : ((writeAtHome e c k p size v kind).core j).release = (c.core j).release :=
  (release_markReleaser _ _ _ _ _).trans ((release_of_beyondCopies (beyondCopies_homeStore e c k p size v kind) j).trans rfl)

end

end Sys2Proof.Machine
end

section
/-! Requests served at a line at rest, and data that comes back (11 R240 to R245, 12 R257 to R265, R276). -/

namespace Sys2Proof.Machine

/-! What a request meets at its home. -/

/-- Nothing is in progress at a line, no core owns a word of it and no host copy is left. -/
def HomeLine.AtRest (h : HomeLine) : Prop := h.busy = false ∧ h.hshare = false ∧ h.owner = none

/-- A request as it is sent, with its core's clock as it stands (12 R257). -/
def Access.sentFrom (a : Access) (c : Chip) : Access := { a with clk := (c.core a.core).clk }

section
variable {e : State} {c : Chip} {id : Nat} {a : Access}

theorem wantedWords_unowned (h : (c.line e (lineOf a.phys)).owner = none) : wantedWords e c a = 0 := by
  simp only [wantedWords, h]

/-- A request goes on at a line at rest. -/
theorem gate_atRest (h : (c.line e (lineOf a.phys)).AtRest) (go : Chip → Chip) : gate e c id a go = go c := by
  obtain ⟨hbusy, hshare, howner⟩ := h
  simp only [gate, wantedWords_unowned howner, hbusy, hshare, ne_eq, not_true_eq_false, Bool.false_and, Bool.false_eq_true, if_false]

theorem not_promoteWaits (h : a.promote = false) : promoteWaits e c a = false := by
  simp only [promoteWaits, h, Bool.false_and]

theorem not_releaseWaits (h : a.isRel = false) : releaseWaits e c a = false := by
  simp only [releaseWaits, h, Bool.false_and]

theorem Access.unordered (h : a.order = 0) : a.isAcq = false ∧ a.isRel = false := by
  simp [Access.isAcq, Access.isRel, h]

/-- A store that does not take its line owned is held by no interval. -/
theorem not_heldStore (h : c.storesOwned a = false) : c.heldStore a = false := by
  rw [Chip.storesOwned, Bool.and_eq_false_iff] at h
  obtain hhost | hnone := h
  · simp only [Chip.heldStore, hhost, Bool.and_false, Bool.false_and]
  · exact (Bool.or_eq_false_iff.mp hnone).2

/-! A store at its home (12 R258). -/

/-- The machine after a store that is performed at its home. -/
def storeAtHome (e : State) (c : Chip) (id : Nat) (a : Access) : Chip :=
  (writeAtHome e { c with accesses := Sparse.erase c.accesses id } a.core a.phys a.size a.data.toNat a.kind).clearPending a.core (lineOf a.phys)

theorem performStore_atHome (howner : (c.line e (lineOf a.phys)).owner = none) (howns : c.storesOwned a = false) :
    performStore e c id a = storeAtHome e c id a := by
  have hnot : ∀ p, ¬ ((c.line e (lineOf a.phys)).owner = some a.core ∧ p) := fun p h => nomatch howner.symm.trans h.1
  simp only [performStore, not_heldStore howns, howns, hnot, Bool.false_eq_true, if_false]
  rfl

theorem requests_storeAtHome : (storeAtHome e c id a).requests = { c with accesses := Sparse.erase c.accesses id }.requests :=
  (requests_of_beyondCopies (beyondCopies_clearPending _ _ _)).trans (requests_writeAtHome ..)

theorem release_storeAtHome (k : Nat) : ((storeAtHome e c id a).core k).release = (c.core k).release :=
  (release_of_beyondCopies (beyondCopies_clearPending _ _ _) k).trans (release_writeAtHome ..)

theorem sameLines_storeAtHome : SameLines (lineOf a.phys) c (storeAtHome e c id a) :=
  (sameLines_of rfl rfl (.refl _) : SameLines _ c { c with accesses := Sparse.erase c.accesses id }).trans
    ((sameLines_writeAtHome ..).trans (sameLines_clearPending _ _ _))

theorem face_storeAtHome {e' : State} (hm : e'.mem = e.mem) (hb : e'.board = e.board) : ((storeAtHome e c id a).line e' (lineOf a.phys)).face =
    let t := max (c.core a.core).clk ((c.line e (lineOf a.phys)).rts + 1)
    ((c.line e (lineOf a.phys)).owner, putBytes (c.line e (lineOf a.phys)).data (a.phys % 128) a.size a.data.toNat, t, t) := by
  rw [storeAtHome, line_of_beyondCopies (beyondCopies_clearPending _ _ _) hm hb, face_writeAtHome _ _ _ _ _ _ _ rfl rfl]
  rfl

theorem find?_storeAtHome : Sparse.find? (storeAtHome e c id a).accesses id = none := by
  have h : Sparse.find? (storeAtHome e c id a).requests id = none := by
    rw [requests_storeAtHome, Chip.requests, Sparse.find?_mapVals, Sparse.find?_erase_same]
    rfl
  rwa [Chip.requests, Sparse.find?_mapVals, Option.map_eq_none_iff] at h

/-! An atomic at its home (11 R245). -/

/-- What an atomic leaves at its home where it writes a value, and where it writes none. -/
def atomicWrite (e : State) (c : Chip) (a : Access) : Option Nat → Chip
  | some v => writeAtHome e c a.core a.phys a.size v 3
  | none => c.dropStale a.core (lineOf a.phys) (c.line e (lineOf a.phys)).wts

theorem requests_atomicWrite (new : Option Nat) : (atomicWrite e c a new).requests = c.requests := by
  cases new with
  | some v => exact requests_writeAtHome ..
  | none => exact requests_of_beyondCopies (beyondCopies_dropStale ..)

/-- An atomic that orders nothing is performed at its home: its access is back with the old value. -/
theorem atomicAtHome_unordered (op : RmwOp) (h : a.isAcq = false) : ∃ poison, atomicAtHome e c id a op =
    let o := getBytes (c.line e (lineOf a.phys)).data (a.phys % 128) a.size
    (atomicWrite e c a (op.apply (8 * a.size) o (a.data.toNat % 2 ^ (8 * a.size)) a.compare.toNat)).setAccess id
      { a with stage := .returned, result := BitVec.ofNat 256 o, poison := poison } := by
  simp only [atomicAtHome, Access.result?, h, Bool.false_eq_true, if_false]
  generalize op.apply _ _ _ _ = new
  cases new with
  | some v => exact ⟨_, rfl⟩
  | none => exact ⟨_, rfl⟩

theorem getBytes_lt (d : BitVec 1024) (off size : Nat) : getBytes d off size < 2 ^ (8 * size) := Nat.mod_lt _ (by positivity)

theorem sameLines_dropStale (c : Chip) (k ln wts : Nat) : SameLines ln c (c.dropStale k ln wts) := by
  unfold Chip.dropStale
  dsimp only
  split
  · exact sameLines_requeueLine _ _ _ _
  · split
    · exact sameLines_requeueLine _ _ _ _
    · exact (sameLines_requeueLine _ _ _ _).trans (sameLines_setL1 _ _ _ _)

/-- The bytes of an atomic at an unowned home: those it writes, or the old ones; every other byte stands. -/
theorem peek_atomicWrite {e' : State} (hm : e'.mem = e.mem) (hb : e'.board = e.board) (howner : (c.line e (lineOf a.phys)).owner = none) (hs : 0 < a.size)
    (hp : a.phys % 128 + a.size ≤ 128) (new : Option Nat) :
    peek e' (atomicWrite e c a new) a.phys a.size = (new.getD (peek e c a.phys a.size)) % 2 ^ (8 * a.size) ∧
      ∀ q, q < a.phys ∨ a.phys + a.size ≤ q → peek e' (atomicWrite e c a new) q 1 = peek e c q 1 := by
  cases new with
  | some v =>
    have hface := face_writeAtHome e c a.core a.phys a.size v 3 hm hb
    exact peek_of_put hm hb hs hp (sameLines_writeAtHome ..) ((congrArg Prod.fst hface).trans howner) howner (congrArg (·.2.1) hface)
  | none =>
    have hline := line_of_beyondCopies (beyondCopies_dropStale c a.core (lineOf a.phys) (c.line e (lineOf a.phys)).wts) hm hb (lineOf a.phys)
    have hsame : ∀ p n, 0 < n → p % 128 + n ≤ 128 → peek e' (atomicWrite e c a none) p n = peek e c p n := fun p n hn h => peek_congr hn h (by
      by_cases hl : lineOf p = lineOf a.phys
      · rw [hl, peekLine_unowned howner]
        exact (peekLine_unowned ((congrArg HomeLine.owner hline).trans howner)).trans (congrArg HomeLine.data hline)
      · exact (sameLines_dropStale ..).peekLine hm hb hl)
    refine ⟨(hsame _ _ hs hp).trans ?_, fun q _ => hsame q 1 one_pos (by omega)⟩
    rw [Option.getD_none, peek_eq _ _ hs hp, Nat.mod_eq_of_lt (getBytes_lt _ _ _)]

/-! A renewal at its home, and its reply (12 R257). -/

/-- The line and the reply that a renewal leaves. -/
theorem renewServe_leaves {e' : State} (leaselen : Nat) :
    let h := c.line e (lineOf a.phys)
    let r := renewEnd a h leaselen
    let d := renewServe e c id a leaselen
    (d.line e' (lineOf a.phys)).rts = max h.rts r ∧ (d.line e' (lineOf a.phys)).wts = h.wts ∧ ∃ data, Sparse.find? d.accesses id = some
      { a with stage := .reply h.wts r data (if h.owner = some a.core then allWords else ~~~h.owned) } ∧ ∀ x, data = some x → x = h.data := by
  intro h r d
  have hline := Chip.line_setLine_same c e' (lineOf a.phys) { h with rts := max h.rts r }
  refine ⟨(congrArg HomeLine.rts hline :), (congrArg HomeLine.wts hline :), _, Sparse.find?_set_same _ _ _, fun x hx => ?_⟩
  exact (Option.some.inj (Option.ite_none_left_eq_some.mp hx).2).symm

/-- A copy just set reads as set, its times those of the current base. -/
theorem l1?_setL1_same (k ln : Nat) (l : L1Line) : (c.setL1 k ln l).l1? k ln =
    some { l with gen := c.generation, pending := c.pendingWords k ln &&& ~~~l.owned } := by
  have ht : ∀ t, (c.setL1 k ln l).timeOf c.generation t = t := c.timeOf_current
  rw [Chip.l1?, Chip.setL1, Chip.core_setCore, if_pos rfl, Sparse.find?_set_same, Option.map_some]
  simp only [Chip.timed]
  exact congrArg some (by rw [← Chip.setL1, ht, ht, ht]; rfl)

theorem l1?_see (t wts k ln : Nat) : (c.see t wts).l1? k ln = c.l1? k ln := by
  unfold Chip.see
  split <;> rfl

theorem l1?_clockAdvance (j t k ln : Nat) : (c.clockAdvance j t).l1? k ln = c.l1? k ln := by
  simp only [Chip.l1?, Chip.clockAdvance, Chip.core_setCore]
  split
  · rename_i h
    rw [h]
    rfl
  · rfl

/-- A load that is performed leaves the copies. -/
theorem l1?_sample (line : BitVec 1024) (wts : Nat) (poison : Option Nat) (k ln : Nat) : (sample c id a line wts poison).l1? k ln = c.l1? k ln := by
  unfold sample
  split
  · exact l1?_clockAdvance _ _ _ _
  · exact foldl_keeps (fun c : Chip => c.l1? k ln) (fun d t => l1?_see t wts k ln) _ _

theorem clk_clockAdvance (k t : Nat) : ((c.clockAdvance k t).core k).clk = min (2 ^ 48 - 1) (max (c.core k).clk t) := by
  rw [Chip.clockAdvance, Chip.core_setCore, if_pos rfl]

/-- The clock of a core whose load is performed where it has met the time already. -/
theorem clk_sample (line : BitVec 1024) (wts t : Nat) (poison : Option Nat) (h : (c.core a.core).clk = min (2 ^ 48 - 1) (max t wts)) :
    ((sample c id a line wts poison).core a.core).clk = (c.core a.core).clk := by
  unfold sample
  split
  · refine (clk_clockAdvance _ _).trans ?_
    rw [h]
    omega
  · exact foldl_keeps (fun c : Chip => (c.core a.core).clk) (fun d t => by unfold Chip.see; split <;> rfl) _ _

theorem mergeWords_none (old new : BitVec 1024) : mergeWords old new 0 = old := by
  have hbits : wordBits 0 = 0 := rfl
  rw [mergeWords, hbits, BitVec.ofNat_eq_ofNat, BitVec.not_zero, BitVec.and_allOnes, BitVec.and_zero, BitVec.or_zero]

/-- The reply of a renewal for a copy that owns no word: the core's clock has met the write time, and the copy has the times of the reply, and
its words where it brings data. -/
theorem renewReply_copy (hkind : a.kind ≠ 2) (howned : ((c.l1? a.core (lineOf a.phys)).getD {}).owned = 0) (wts rts : Nat)
    (data : Option (BitVec 1024)) (valid : BitVec 32) :
    let d := renewReply e c a wts rts data valid
    (d.core a.core).clk = min (2 ^ 48 - 1) (max (c.core a.core).clk wts) ∧
      ∃ l, d.l1? a.core (lineOf a.phys) = some l ∧ l.wts = wts ∧ l.rts = rts ∧ ∀ x, data = some x → l.valid = valid ∧ l.data = x := by
  unfold renewReply
  dsimp only
  generalize (c.l1? a.core (lineOf a.phys)).getD {} = l at howned ⊢
  rw [if_neg (fun h => hkind h.1), howned]
  refine ⟨?_, _, l1?_setL1_same _ _ _, ?_⟩
  · refine (congrArg Core.clk ((Chip.core_setCore ..).trans (if_pos rfl))).trans ?_
    exact clk_clockAdvance _ _
  · cases data with
    | none => exact ⟨rfl, rfl, fun x h => nomatch h⟩
    | some x =>
      refine ⟨rfl, rfl, fun y h => ?_⟩
      obtain rfl := Option.some.inj h
      exact ⟨BitVec.or_zero, mergeWords_none _ _⟩

/-! A grant (12 R261, R276). -/

theorem grantOwned_ownership {e' : State} (hm : e'.mem = e.mem) (hb : e'.board = e.board) (k ln ctx : Nat) :
    ((grantOwned e c k ln ctx).line e' ln).owner = some k ∧ ((grantOwned e c k ln ctx).line e' ln).owned = allWords := by
  have hset : (grantOwned e c k ln ctx).beyondCopies =
      (c.setLine ln { c.line e ln with owner := some k, owned := allWords, state := .owned }).beyondCopies := by
    refine (beyondCopies_setL1 ..).trans ?_
    rw [beyondCopies_requeueLine, beyondCopies_clockAdvance]
  rw [line_of_beyondCopies hset hm hb]
  have hline := Chip.line_setLine_same c e ln { c.line e ln with owner := some k, owned := allWords, state := .owned }
  exact ⟨(congrArg HomeLine.owner hline :), (congrArg HomeLine.owned hline :)⟩

theorem line_sample {e' : State} (hm : e'.mem = e.mem) (hb : e'.board = e.board) (line : BitVec 1024) (wts : Nat) (poison : Option Nat) (ln : Nat) :
    (sample c id a line wts poison).line e' ln = c.line e ln := by
  unfold sample
  have hclock : (if a.isAcq = true then c.clockAdvance a.core wts else a.takers.foldl (fun c t => c.see t wts) c).beyondCopies = c.beyondCopies := by
    split
    · exact beyondCopies_clockAdvance ..
    · exact foldl_keeps Chip.beyondCopies (fun d t => beyondCopies_see d t wts) _ _
  exact line_of_beyondCopies hclock hm hb ln

theorem victim_unarbitrate (ln k n : Nat) : (c.unarbitrate id ln).victim k n = c.victim k n := by
  unfold Chip.unarbitrate
  dsimp only
  split <;> rfl

/-- The head of an arbiter waits behind no entry of it. -/
theorem not_aheadFor_head {ln : Nat} (h : (c.slice (sliceOf ln)).persistent.head? = some id) : c.aheadFor id ln = false := by
  have hmem : id ∈ (c.slice (sliceOf ln)).persistent := List.mem_of_mem_head? h
  simp only [Chip.aheadFor, h, List.contains_iff_mem.mpr hmem, if_true, ne_eq, not_true_eq_false, decide_false]

end

end Sys2Proof.Machine
end

section
/-! The events of outstanding accesses (O54; 11 R240 to R246, 12 R257 to R265, R276, 20 R449). -/

namespace Sys2Proof.Machine

/-! Requests served at a line at rest. -/

namespace Proto
section
variable [LineAnswers] {e : State} {c : Chip} {id : Nat} {a : Access}

/-- A request of this device that is issued and goes on is served with its core's clock as it stands. -/
theorem serve_issued (hf : Sparse.find? c.accesses id = some a) (hstage : a.stage = .issued) (hgo : c.mayGo a = true) :
    serve e c id = serveAs e c id (a.sentFrom c) := by
  rw [serve, hf]
  exact if_neg (by simp [hstage, hgo])

section
variable (hdev : a.dev = none) (hbank : c.bankWaking a.phys = false)
include hdev hbank

theorem serveAs_load (hop : a.op = .load) : serveAs e c id a = if c.wantsOwned a = true then serveOwned e c id a else serveRead e c id a := by
  simp only [serveAs, hdev, hbank, hop, Bool.false_eq_true, if_false]

theorem serveAs_store (hop : a.op = .store) : serveAs e c id a = if c.wantsOwned a = true then serveOwned e c id a else serveStore e c id a := by
  simp only [serveAs, hdev, hbank, hop, Bool.false_eq_true, if_false]

theorem serveAs_rmw {op : RmwOp} (hop : a.op = .rmw op) : serveAs e c id a = serveAtomics e c id a op := by
  simp only [serveAs, hdev, hbank, hop, Bool.false_eq_true, if_false]

end

variable (hrest : (c.line e (lineOf a.phys)).AtRest)
include hrest

/-- A leased read at a line at rest is a renewal. -/
theorem serveRead_lease (hop : a.op = .load) (hkind : a.kind ≠ 3) (hhost : isHost a.phys = false) (hpromote : a.promote = false)
    (hacq : a.isAcq = true → c.mayPerform id a = true) (hfits : c.timeFits (requestTime e c a) = true) :
    serveRead e c id a = renewServe e c id a (c.ctx a.ctx).leaselen := by
  have hperform : (a.isAcq && !c.mayPerform id a) = false := by
    cases h : a.isAcq with
    | false => rfl
    | true => rw [hacq h]; rfl
  simp only [serveRead, hop, hkind, hhost, not_promoteWaits hpromote, hfits, gate_atRest hrest, promoteFrom, hpromote, hperform, decide_false, Bool.or_self,
    Bool.false_or, Bool.not_false, Bool.and_true, Bool.not_true, Bool.and_false, Bool.false_eq_true, if_false]

/-- A store that takes no line owned is performed at a home at rest. -/
theorem serveStore_atHome (hown : c.storesOwned a = false) (horder : a.order = 0) (hperform : c.mayPerform id a = true)
    (hheld : writeHeld e c a.phys = false) (hfits : c.timeFits (requestTime e c a) = true) (hroom : c.victim a.core (lineOf a.phys) = none)
    (hrelease : (c.core a.core).release.length ≤ Config.releaseLines) (hfences : c.Fenceless a.th a.core) :
    serveStore e c id a = storeAtHome e c id a := by
  obtain ⟨-, hrel⟩ := Access.unordered horder
  have hmade : (if isHost a.phys = true then c else roomNow e c a.core (lineOf a.phys)) = c := by
    rw [roomNow, settle_room _ hroom, ite_self]
  have htrim : trimNow e (storeAtHome e c id a) a.core = storeAtHome e c id a := settle_trim_within _ (by rw [release_storeAtHome]; exact hrelease)
  have hidle : (storeAtHome e c id a).Fenceless a.th a.core := (hfences.erase id).of_requests requests_storeAtHome
  simp only [serveStore, hperform, hheld, hfits, not_releaseWaits hrel, hrel, gate_atRest hrest, hmade, performStore_atHome hrest.2.2 hown, htrim,
    settleCore_idle hidle, Bool.not_true, Bool.or_self, Bool.false_eq_true, if_false]

/-- An atomic alone at its place, with no order, is performed at a home at rest. -/
theorem serveAtomics_atHome (op : RmwOp) (hown : c.wantsOwned a = false) (hop : a.op = .rmw op) (horder : a.order = 0) (hpromote : a.promote = false)
    (hmates : c.mates id a = []) (hperform : c.mayPerform id a = true) (hheld : writeHeld e c a.phys = false)
    (hfits : c.timeFits (requestTime e c a) = true) (hfences : c.Fenceless a.th a.core) :
    serveAtomics e c id a op = atomicAtHome e c id a op := by
  obtain ⟨hacq, hrel⟩ := Access.unordered horder
  have hidle : (atomicAtHome e c id a op).Fenceless a.th a.core := by
    obtain ⟨poison, heq⟩ := atomicAtHome_unordered (e := e) (c := c) (id := id) op hacq
    rw [heq]
    exact (hfences.of_requests (requests_atomicWrite _)).setAccess id (by simp [hop])
  simp only [serveAtomics, hmates, serveMates, serveAtomic, atomicWaits, hperform, hheld, hfits, not_releaseWaits hrel, not_promoteWaits hpromote, hrel, hown,
    promoteFrom, hpromote, gate_atRest hrest, settleFences_idle hidle, List.any_nil, List.foldl_nil, Bool.not_true, Bool.or_self, Bool.false_eq_true, if_false]

/-- An owned load is granted a line at rest for which its core's L1 has room, and performed there. -/
theorem serveOwned_grant (hop : a.op = .load) (hrel : a.isRel = false) (hperform : c.mayPerform id a = true) (hahead : c.aheadFor id (lineOf a.phys) = false)
    (hroom : c.victim a.core (lineOf a.phys) = none) :
    ∃ l, serveOwned e c id a = hit (grantOwned e (c.unarbitrate id (lineOf a.phys)) a.core (lineOf a.phys) a.ctx) id a l := by
  have ⟨hbusy, _, howner⟩ := hrest
  have hnot : ¬ ((c.line e (lineOf a.phys)).owner = some a.core ∧ maskOf a.phys a.size &&& ~~~(c.line e (lineOf a.phys)).owned = 0) :=
    fun h => nomatch howner.symm.trans h.1
  have hmade : roomNow e (c.unarbitrate id (lineOf a.phys)) a.core (lineOf a.phys) = c.unarbitrate id (lineOf a.phys) :=
    settle_room _ ((victim_unarbitrate _ _ _).trans hroom)
  have hwrites : a.writes = false := by simp only [Access.writes, hop]
  have hheld : c.heldStore a = false := by simp [Chip.heldStore, hop]
  obtain ⟨l, hl⟩ : ∃ l, (grantOwned e (c.unarbitrate id (lineOf a.phys)) a.core (lineOf a.phys) a.ctx).l1? a.core (lineOf a.phys) = some l :=
    ⟨_, l1?_setL1_same ..⟩
  refine ⟨l, ?_⟩
  simp only [serveOwned, hop, hperform, hwrites, hrel, hheld, serveGrant, hnot, hbusy, hahead, gate_atRest hrest, hmade, useOwned, hl, Bool.not_true,
    Bool.not_false, Bool.and_false, Bool.false_and, Bool.or_self, Bool.false_eq_true, if_false]

end

/-- The reply of a renewal reaches a core whose L1 has room for the line and owns no word of it. -/
theorem takeReply_copy [LineAnswers] {e : State} {c : Chip} {id : Nat} {a : Access} (hop : a.op = .load) (hkind : a.kind ≠ 2)
    (hroom : c.victim a.core (lineOf a.phys) = none) (howned : ∀ l, c.l1? a.core (lineOf a.phys) = some l → l.owned = 0)
    (wts rts : Nat) {data : Option (BitVec 1024)} (hdata : data = none → (c.l1? a.core (lineOf a.phys)).isSome = true) (valid : BitVec 32) :
    let d := takeReply e c id a wts rts data valid
    let w := max c.timeBase wts
    (d.core a.core).clk = min (2 ^ 48 - 1) (max (c.core a.core).clk w) ∧
      ∃ l, d.l1? a.core (lineOf a.phys) = some l ∧ l.wts = w ∧ l.rts = max c.timeBase rts ∧ ∀ x, data = some x → l.valid = valid ∧ l.data = x := by
  have hmade : roomNow e c a.core (lineOf a.phys) = c := settle_room _ hroom
  have hfound : (data.isNone && (c.l1? a.core (lineOf a.phys)).isNone) = false := by
    cases data with
    | some x => rfl
    | none => simpa using hdata rfl
  have hnone : ((c.l1? a.core (lineOf a.phys)).getD {}).owned = 0 := by
    cases h : c.l1? a.core (lineOf a.phys) with
    | none => rfl
    | some l => exact howned l h
  obtain ⟨hclk, hcopy⟩ := renewReply_copy (e := e) hkind hnone (max c.timeBase wts) (max c.timeBase rts) data valid
  simp only [takeReply, hfound, hkind, hmade, hop, Bool.false_eq_true, if_false]
  generalize renewReply e c a (max c.timeBase wts) (max c.timeBase rts) data valid = d at hclk hcopy
  split
  · rw [clk_sample _ _ _ _ hclk, l1?_sample]
    exact ⟨hclk, hcopy⟩
  · exact ⟨hclk, hcopy⟩

end Proto

end Sys2Proof.Machine
end

section
/-! The events of outstanding accesses (O54; 11 R240 to R246, 12 R257 to R265, R276, 20 R449). -/

namespace Sys2Proof.Machine

/-! Data that comes back (11 R240). -/

theorem mem_waitingFor {c : Chip} {id : Nat} {a : Access} {x : Nat × Nat × Nat} (h : x ∈ c.waitingFor id a) : x.2.1 = a.dest + x.2.2 := by
  obtain ⟨t, -, hx⟩ := List.mem_flatMap.mp h
  obtain ⟨j, -, hj⟩ := List.mem_filterMap.mp hx
  obtain ⟨-, heq⟩ := Option.ite_none_right_eq_some.mp hj
  rw [← Option.some.inj heq]

/-- Each of some registers that is written its word of an access's data, or held it already, holds it. -/
theorem reg_foldl_writeV (a : Access) (l : List (Nat × Nat × Nat)) (hl : ∀ x ∈ l, x.2.1 = a.dest + x.2.2) (t j : Nat) (c : Chip)
    (h : (t, a.dest + j, j) ∈ l ∨ c.reg t (a.dest + j) = { bits := a.word j, tag := a.tag }) :
    (l.foldl (fun c x => c.writeV x.1 x.2.1 (a.word x.2.2) a.tag) c).reg t (a.dest + j) = { bits := a.word j, tag := a.tag } := by
  induction l generalizing c with
  | nil => exact h.resolve_left (List.not_mem_nil)
  | cons x l ih =>
    refine ih (fun y hy => hl y (List.mem_cons_of_mem _ hy)) _ ?_
    have hx := hl x List.mem_cons_self
    rw [Chip.reg_writeV]
    by_cases hsame : t = x.1 ∧ a.dest + j = x.2.1
    · rw [if_pos hsame, show x.2.2 = j by omega]
      exact .inr rfl
    · rw [if_neg hsame]
      refine h.imp_left fun hmem => (List.mem_cons.mp hmem).resolve_left fun heq => hsame ?_
      rw [← heq]
      exact ⟨rfl, rfl⟩

/-- Data that is not poisoned: the access is gone, and each register that waited for it holds its word. -/
theorem deliver_writes {a : Access} (hpoison : a.poison = none) (c : Chip) (id : Nat) :
    Sparse.find? (c.deliver id a).accesses id = none ∧ ∀ x ∈ c.waitingFor id a,
      (c.deliver id a).reg x.1 x.2.1 = { bits := a.word x.2.2, tag := a.tag, wait := none, poison := none } := by
  unfold Chip.deliver
  rw [hpoison]
  refine ⟨Sparse.find?_erase_same _ _, fun ⟨t, n, j⟩ hx => ?_⟩
  obtain rfl : n = a.dest + j := mem_waitingFor hx
  exact reg_foldl_writeV a _ (fun y hy => mem_waitingFor hy) t j c (.inl hx)

theorem giveData_unpoisoned {a : Access} (hpoison : a.poison = none) (s : State) (id : Nat) :
    giveData s id a = { s with now := settleFences s (s.now.deliver id a) a.th } := by
  simp only [giveData, hpoison]

/-! Requests. -/

/-- A request event serves its access, which is issued and goes on, as its core's clock stands. -/
theorem leaves_of_request {i : Instr} {sort : Chip → Access → Bool} {id : Nat} {a : Access} {own : State → Prop} {post : State → State → Prop}
    (he : ∀ s, exec i s = requestEvent sort id s)
    (hmeets : ∀ s, own s → Sparse.find? s.now.accesses id = some a ∧ a.stage = .issued ∧ s.now.mayGo a = true ∧ sort s.now a = true)
    (h : ∀ s, own s → post s { s with now := @Proto.serveAs (answersAt s.now.depth) s s.now id (a.sentFrom s.now) }) : Leaves i own post :=
  leaves_of_event he fun s ho => by
    obtain ⟨hf, hstage, hgo, hsort⟩ := hmeets s ho
    have hserve : serve s s.now id = @Proto.serveAs (answersAt s.now.depth) s s.now id (a.sentFrom s.now) :=
      @Proto.serve_issued (answersAt s.now.depth) _ _ _ _ hf hstage hgo
    simp only [hf, hsort, if_true, hserve]
    exact h s ho

/-- A writing access goes on. -/
theorem mayGo_of_storing {c : Chip} {a : Access} (h : a.storing = true) : c.mayGo a = true := by
  simp only [Chip.mayGo, h, Bool.or_true, Bool.true_or]

/-- An aligned place of the size of an access lies within a line. -/
theorem access_within_line {addr size : Nat} (hsize : size ∈ [1, 2, 4, 8, 16]) (halign : addr % size = 0) : 0 < size ∧ addr % 128 + size ≤ 128 := by
  simp only [List.mem_cons, List.not_mem_nil, or_false] at hsize
  obtain rfl | rfl | rfl | rfl | rfl := hsize <;> omega

theorem persistent_sliceAt (c : Chip) (k : Nat) : (c.sliceAt k).persistent = (c.slice k).persistent := by
  unfold Chip.sliceAt Chip.slice Sparse.get
  cases Sparse.find? c.slices k <;> rfl

theorem teams_seeAfar (c : Chip) (a : Access) (t : Nat) : (c.seeAfar a).team ((c.seeAfar a).teamOf t) = c.team (c.teamOf t) := by
  unfold Chip.seeAfar
  dsimp only
  split
  · rfl
  · exact foldl_keeps (fun c : Chip => c.team (c.teamOf t)) (fun d x => by unfold Chip.see; split <;> rfl) _ _

/-- An owned load that its home grants the line is performed there. -/
theorem hit_granted {e e' : State} (hm : e'.mem = e.mem) (hb : e'.board = e.board) (c : Chip) (id : Nat) (a : Access) (l : L1Line) :
    let d := hit (grantOwned e c a.core (lineOf a.phys) a.ctx) id a l
    (d.line e' (lineOf a.phys)).owner = some a.core ∧ (d.line e' (lineOf a.phys)).owned = allWords ∧
      ∃ b, Sparse.find? d.accesses id = some b ∧ b.stage = .returned := by
  intro d
  have hline : d.line e' (lineOf a.phys) = (grantOwned e c a.core (lineOf a.phys) a.ctx).line e (lineOf a.phys) := line_sample hm hb _ _ _ _
  obtain ⟨howner, howned⟩ := grantOwned_ownership (e := e) (c := c) rfl rfl a.core (lineOf a.phys) a.ctx
  rw [hline]
  exact ⟨howner, howned, _, Sparse.find?_set_same _ _ _, rfl⟩

end Sys2Proof.Machine
end

section
/-! The events of outstanding accesses, each where its conditions hold (O54). -/

namespace Sys2Proof.Machine

/-- An outstanding access whose line nothing holds: what the events at the home ask of it. -/
def Access.Undisturbed (a : Access) (id : Nat) (s : State) : Prop :=
  Sparse.find? s.now.accesses id = some a ∧ (s.now.line s (lineOf a.phys)).AtRest ∧ a.dev = none ∧ s.now.bankWaking a.phys = false ∧
    s.now.timeFits (requestTime s s.now (a.sentFrom s.now)) = true

/-- The team of an access's thread has its core, or the access waits for no team. -/
def Access.Arrived (a : Access) (s : State) : Prop := a.detached = true ∨ (s.now.team (s.now.teamOf a.th)).core.isSome = true

theorem Access.Arrived.returns {a : Access} {s : State} (h : a.Arrived s) : (!a.detached && (s.now.team (s.now.teamOf a.th)).core.isNone) = false := by
  obtain h | h := h
  · simp [h]
  · rw [Option.isSome_iff_exists] at h
    obtain ⟨k, h⟩ := h
    simp [h]

section
variable (id : Nat) (a : Access)

/-! Data that comes back. -/

theorem happens_loadDataReturn_returned :
    Happens (.loadDataReturn id) (fun s => Sparse.find? s.now.accesses id = some a ∧ a.stage = .returned ∧ a.Arrived s) (fun s => giveData s id a) :=
  happens_of_eventS (exec_loadDataReturn id) fun s ⟨hf, hstage, harr⟩ => by
    simp only [hf, hstage, harr.returns, Bool.false_eq_true, if_false]

theorem happens_loadDataReturn_remote :
    Happens (.loadDataReturn id) (fun s => Sparse.find? s.now.accesses id = some a ∧ a.op = .load ∧ a.stage = .remote ∧ a.Arrived s ∧
        s.board.routeLost = false ∧ s.now.mayPerform id a = true) (fun s => remoteData s id a) :=
  happens_of_eventS (exec_loadDataReturn id) fun s ⟨hf, hop, hstage, harr, hroute, hperform⟩ => by
    simp only [hf, hop, hstage, harr.returns, hroute, hperform, decide_true, Bool.not_false, Bool.and_self, Bool.false_eq_true, if_false, if_true]

theorem happens_homeStore_remote :
    Happens (.homeStore id) (fun s => Sparse.find? s.now.accesses id = some a ∧ a.op = .store ∧ a.stage = .remote ∧ a.poison = none ∧
        s.board.routeLost = false ∧ s.now.mayPerform id a = true)
      (fun s => { s with now := settleFences s { s.now with accesses := Sparse.erase s.now.accesses id } a.th }) :=
  happens_of_tables (exec_homeStore id) fun s ⟨hf, hop, hstage, hpoison, hroute, hperform⟩ => by
    simp only [hf, hop, hstage, hpoison, hroute, hperform, Option.isNone_none, decide_true, Bool.not_false, Bool.and_self, if_true]

theorem happens_routeFailure :
    Happens (.routeFailure id) (fun s => Sparse.find? s.now.accesses id = some a ∧ a.stage = .remote ∧ s.board.routeLost = true ∧ a.op ≠ .store ∧ a.op ≠ .ecall)
      (fun s => giveData s id { a with stage := .returned, poison := some 1 }) :=
  happens_of_eventS (exec_routeFailure id) fun s ⟨hf, hstage, hroute, hstore, hecall⟩ => by
    simp only [hf, hstage, hroute, ne_eq, not_true_eq_false, Bool.true_eq_false, or_self, if_false]

/-- A reply for a thread whose team has its core, or that waits for no team, is data that comes back. -/
theorem giveReply_arrived {s : State} (h : a.Arrived s) (data : BitVec 64) :
    giveReply s id a data = giveData s id { a with stage := .returned, result := data.setWidth 256, poison := none } := by
  simp only [giveReply, Bool.and_comm _ (!a.detached), h.returns, Bool.false_eq_true, if_false]

theorem happens_remoteAtomicReply (op : RmwOp) (data : BitVec 64) :
    Happens (.remoteAtomicReply id data) (fun s => Sparse.find? s.now.accesses id = some a ∧ a.op = .rmw op ∧ a.stage = .remote ∧ a.Arrived s ∧
        s.now.mayPerform id a = true)
      (fun s =>
        let c := if (s.now.team (s.now.teamOf a.th)).core.isSome = true then s.now.seeAfar a else s.now
        { s with now := settleFences { s with now := c } (c.deliver id { a with
          stage := .returned, poison := none, result := (BitVec.ofNat 64 (data.toNat % 2 ^ (8 * a.size))).setWidth 256 }) a.th }) :=
  happens_of_eventS (exec_remoteAtomicReply id data) fun s ⟨hf, hop, hstage, harr, hperform⟩ => by
    have hsees : a.Arrived { s with now := if (s.now.team (s.now.teamOf a.th)).core.isSome = true then s.now.seeAfar a else s.now } := by
      refine harr.imp_right fun h => ?_
      dsimp only
      rwa [if_pos h, teams_seeAfar]
    simp only [hf, hop, hstage, hperform, Bool.not_true, Bool.false_eq_true, if_false]
    exact (giveReply_arrived id a hsees _).trans (giveData_unpoisoned rfl _ _)

theorem happens_ecallAnswer (answer : BitVec 32) :
    Happens (.ecallAnswer id answer) (fun s => Sparse.find? s.now.accesses id = some a ∧ a.op = .ecall ∧ a.Arrived s)
      (fun s => { s with now := settleFences s (s.now.deliver id { a with
        stage := .returned, poison := none, result := (answer.setWidth 64).setWidth 256 }) a.th }) :=
  happens_of_eventS (exec_ecallAnswer id answer) fun s ⟨hf, hop, harr⟩ => by
    simp only [hf, hop, if_true]
    exact (giveReply_arrived id a harr _).trans (giveData_unpoisoned rfl _ _)

/-! Renewals (12 R257). -/

theorem leaves_renewRequest :
    Leaves (.renewRequest id) (fun s => a.Undisturbed id s ∧ a.op = .load ∧ (a.kind = 0 ∨ a.kind = 2) ∧ isHost a.phys = false ∧ a.promote = false ∧
        a.stage = .issued ∧ s.now.mayGo a = true ∧ (a.isAcq = true → s.now.mayPerform id a = true))
      (fun s t =>
        let h := s.now.line s (lineOf a.phys)
        let r := max (s.now.core a.core).clk h.wts + (s.now.ctx a.ctx).leaselen
        (t.now.line t (lineOf a.phys)).rts = max h.rts r ∧ (t.now.line t (lineOf a.phys)).wts = h.wts ∧
          ∃ d, Sparse.find? t.now.accesses id = some { a.sentFrom s.now with stage := .reply h.wts r d (~~~h.owned) } ∧ ∀ x, d = some x → x = h.data) := by
  have howned : ∀ s : State, (a.kind = 0 ∨ a.kind = 2) → a.op = .load → s.now.wantsOwned a = false := fun s hkind hop => by
    obtain h | h := hkind <;> simp [Chip.wantsOwned, hop, h]
  refine leaves_of_request (a := a) (exec_renewRequest id) ?_ ?_
  · rintro s ⟨⟨hf, -⟩, hop, hkind, -, -, hstage, hgo, -⟩
    exact ⟨hf, hstage, hgo, by simp only [howned s hkind hop, hop, Bool.not_false, Bool.and_self]⟩
  · rintro s ⟨⟨-, hrest, hdev, hbank, hfits⟩, hop, hkind, hhost, hpromote, -, -, hacq⟩
    have hkind3 : a.kind ≠ 3 := by
      rintro h
      rw [h] at hkind
      exact absurd hkind (by decide)
    have hshared : ¬ s.now.wantsOwned (a.sentFrom s.now) = true := Bool.eq_false_iff.mp (howned s hkind hop)
    have hread := @Proto.serveRead_lease (answersAt s.now.depth) s s.now id (a.sentFrom s.now) hrest hop hkind3 hhost hpromote hacq hfits
    rw [@Proto.serveAs_load (answersAt s.now.depth) s s.now id (a.sentFrom s.now) hdev hbank hop, if_neg hshared, hread]
    obtain ⟨hrts, hwts, d, hfind, hdata⟩ := renewServe_leaves (e := s) (c := s.now) (id := id) (a := a.sentFrom s.now)
      (e' := { s with now := renewServe s s.now id (a.sentFrom s.now) (s.now.ctx a.ctx).leaselen }) (s.now.ctx a.ctx).leaselen
    refine ⟨hrts, hwts, d, ?_, hdata⟩
    have hunowned : ¬ (s.now.line s (lineOf (a.sentFrom s.now).phys)).owner = some (a.sentFrom s.now).core := fun h => nomatch hrest.2.2.symm.trans h
    refine hfind.trans ?_
    rw [if_neg hunowned]
    rfl

theorem leaves_renewReply (wts rts : Nat) (d : Option (BitVec 1024)) (v : BitVec 32) :
    Leaves (.renewReply id) (fun s => Sparse.find? s.now.accesses id = some a ∧ a.op = .load ∧ a.kind = 0 ∧ a.stage = .reply wts rts d v ∧
        s.now.victim a.core (lineOf a.phys) = none ∧ (∀ l, s.now.l1? a.core (lineOf a.phys) = some l → l.owned = 0) ∧
        (d = none → (s.now.l1? a.core (lineOf a.phys)).isSome = true))
      (fun s t =>
        let w := max s.now.timeBase wts
        (t.now.core a.core).clk = min (2 ^ 48 - 1) (max (s.now.core a.core).clk w) ∧
          ∃ l, t.now.l1? a.core (lineOf a.phys) = some l ∧ l.wts = w ∧ l.rts = max s.now.timeBase rts ∧ ∀ x, d = some x → l.valid = v ∧ l.data = x) :=
  leaves_of_event (exec_renewReply id) fun s ⟨hf, hop, hkind, hstage, hroom, howned, hdata⟩ => by
    simp only [hf, hstage]
    exact @Proto.takeReply_copy (answersAt s.now.depth) s s.now id a hop (by rw [hkind]; decide) hroom howned wts rts d hdata v

/-! Stores and atomics at a home (11 R245, 12 R258). -/

theorem peek_setAccess (e : State) (c : Chip) (n : Nat) (b : Access) (p size : Nat) : peek e (c.setAccess n b) p size = peek e c p size :=
  peek_of_sameLines rfl rfl (.refl _) rfl rfl p size

/-- The lone write of an unordered access to a line that nothing holds. -/
def Access.WritesAlone (a : Access) (id : Nat) (s : State) : Prop :=
  a.Undisturbed id s ∧ s.now.wantsOwned a = false ∧ a.order = 0 ∧ a.stage = .issued ∧ s.now.mayPerform id a = true ∧
    writeHeld s s.now a.phys = false ∧ s.now.Fenceless a.th a.core

theorem leaves_homeStore :
    Leaves (.homeStore id) (fun s => a.WritesAlone id s ∧ a.op = .store ∧ (a.size ∈ [1, 2, 4, 8, 16] ∧ a.phys % a.size = 0) ∧
        (s.now.core a.core).release.length ≤ Config.releaseLines ∧ s.now.victim a.core (lineOf a.phys) = none)
      (fun s t => peek t t.now a.phys a.size = a.data.toNat % 2 ^ (8 * a.size) ∧
        (∀ q, q < a.phys ∨ a.phys + a.size ≤ q → peek t t.now q 1 = peek s s.now q 1) ∧ Sparse.find? t.now.accesses id = none ∧ t.mem = s.mem ∧
        (t.now.line t (lineOf a.phys)).wts = max (s.now.core a.core).clk ((s.now.line s (lineOf a.phys)).rts + 1) ∧
        (t.now.line t (lineOf a.phys)).rts = (t.now.line t (lineOf a.phys)).wts) := by
  refine leaves_of_event (exec_homeStore id) ?_
  rintro s ⟨⟨⟨hf, hrest, hdev, hbank, hfits⟩, hwants, horder, hstage, hperform, hheld, hfences⟩, hop, ⟨hsize, halign⟩, hrelease, hroom⟩
  have howns : s.now.storesOwned a = false := by rwa [Chip.wantsOwned, hop] at hwants
  have hstoring : a.storing = true := by simp only [Access.storing, hop]
  have hserve : serve s s.now id = storeAtHome s s.now id (a.sentFrom s.now) := by
    have hshared : ¬ s.now.wantsOwned (a.sentFrom s.now) = true := Bool.eq_false_iff.mp hwants
    refine (@Proto.serve_issued (answersAt s.now.depth) _ _ _ _ hf hstage (mayGo_of_storing hstoring)).trans ?_
    rw [@Proto.serveAs_store (answersAt s.now.depth) s s.now id (a.sentFrom s.now) hdev hbank hop, if_neg hshared]
    exact @Proto.serveStore_atHome (answersAt s.now.depth) s s.now id (a.sentFrom s.now) hrest howns horder hperform hheld hfits hroom hrelease hfences
  simp only [hf, hstage, hwants, hstoring, hserve, reduceCtorEq, if_false, Bool.not_false, Bool.and_self, if_true]
  obtain ⟨hpos, hwithin⟩ := access_within_line hsize halign
  have hface := face_storeAtHome (e := s) (c := s.now) (id := id) (a := a.sentFrom s.now)
    (e' := { s with now := storeAtHome s s.now id (a.sentFrom s.now) }) rfl rfl
  simp only [HomeLine.face, Prod.mk.injEq] at hface
  obtain ⟨howner, hdata, hwts, hrts⟩ := hface
  obtain ⟨hbytes, hothers⟩ := peek_of_put (e := s) (e' := { s with now := storeAtHome s s.now id (a.sentFrom s.now) }) rfl rfl hpos hwithin
    (sameLines_storeAtHome (e := s) (id := id) (a := a.sentFrom s.now)) (howner.trans hrest.2.2) hrest.2.2 hdata
  exact ⟨hbytes, hothers, find?_storeAtHome, trivial, hwts, hrts.trans hwts.symm⟩

theorem leaves_homeAtomic (op : RmwOp) :
    Leaves (.homeAtomic id) (fun s => a.WritesAlone id s ∧ a.op = .rmw op ∧ a.promote = false ∧ (a.size ∈ [1, 2, 4, 8, 16] ∧ a.phys % a.size = 0) ∧
        s.now.mates id a = [])
      (fun s t =>
        let old := peek s s.now a.phys a.size
        let new := op.apply (8 * a.size) old (a.data.toNat % 2 ^ (8 * a.size)) a.compare.toNat
        peek t t.now a.phys a.size = (new.getD old) % 2 ^ (8 * a.size) ∧
          (∀ q, q < a.phys ∨ a.phys + a.size ≤ q → peek t t.now q 1 = peek s s.now q 1) ∧
          ∃ b, Sparse.find? t.now.accesses id = some b ∧ b.stage = .returned ∧ b.result = BitVec.ofNat 256 old) := by
  refine leaves_of_request (a := a) (exec_homeAtomic id) ?_ ?_
  · rintro s ⟨⟨⟨hf, -⟩, -, -, hstage, -⟩, hop, -⟩
    refine ⟨hf, hstage, ?_, by simp only [hop]⟩
    simp only [Chip.mayGo, Access.writes, hop, Bool.or_true, Bool.true_or]
  · rintro s ⟨⟨⟨-, hrest, hdev, hbank, hfits⟩, hwants, horder, -, hperform, hheld, hfences⟩, hop, hpromote, ⟨hsize, halign⟩, hmates⟩
    obtain ⟨hpos, hwithin⟩ := access_within_line hsize halign
    obtain ⟨poison, hatomic⟩ := atomicAtHome_unordered (e := s) (c := s.now) (id := id) (a := a.sentFrom s.now) op (Access.unordered horder).1
    have hserve := @Proto.serveAtomics_atHome (answersAt s.now.depth) s s.now id (a.sentFrom s.now) hrest op hwants hop horder hpromote hmates hperform hheld
      hfits hfences
    have hold : peek s s.now a.phys a.size = getBytes (s.now.line s (lineOf a.phys)).data (a.phys % 128) a.size := by
      rw [peek_eq _ _ hpos hwithin, peekLine_unowned hrest.2.2]
    have hwrote := fun e' hm hb => peek_atomicWrite (e := s) (e' := e') hm hb hrest.2.2 hpos hwithin
      (op.apply (8 * a.size) (peek s s.now a.phys a.size) (a.data.toNat % 2 ^ (8 * a.size)) a.compare.toNat)
    rw [@Proto.serveAs_rmw (answersAt s.now.depth) s s.now id (a.sentFrom s.now) hdev hbank op hop, hserve, hatomic]
    simp only [peek_setAccess]
    rw [hold] at hwrote ⊢
    obtain ⟨hbytes, hothers⟩ := hwrote _ rfl rfl
    exact ⟨hbytes, hothers, _, Sparse.find?_set_same _ _ _, rfl, rfl⟩

/-! Grants (12 R261, R276). -/

/-- An owned load that may be performed and asks for a line that nothing holds, its core's L1 having room. -/
def Access.MayOwn (a : Access) (id : Nat) (s : State) : Prop :=
  a.Undisturbed id s ∧ a.op = .load ∧ s.now.wantsOwned a = true ∧ a.isRel = false ∧ a.stage = .issued ∧ s.now.mayGo a = true ∧
    s.now.mayPerform id a = true ∧ s.now.victim a.core (lineOf a.phys) = none

/-- What a grant leaves: the core owns the whole line, and the access has its value. -/
def Access.Granted (a : Access) (id : Nat) (t : State) : Prop :=
  (t.now.line t (lineOf a.phys)).owner = some a.core ∧ (t.now.line t (lineOf a.phys)).owned = allWords ∧
    ∃ b, Sparse.find? t.now.accesses id = some b ∧ b.stage = .returned

variable {id a}

/-- The home grants an owned load, behind no other request of the arbiter, its line. -/
theorem serve_granted {s : State} (h : a.MayOwn id s) (hahead : s.now.aheadFor id (lineOf a.phys) = false) :
    a.Granted id { s with now := serve s s.now id } := by
  obtain ⟨⟨hf, hrest, hdev, hbank, -⟩, hop, hwants, hrel, hstage, hgo, hperform, hroom⟩ := h
  obtain ⟨l, hgrant⟩ := @Proto.serveOwned_grant (answersAt s.now.depth) s s.now id (a.sentFrom s.now) hrest hop hrel hperform hahead hroom
  have hserve : serve s s.now id = hit (grantOwned s (s.now.unarbitrate id (lineOf a.phys)) a.core (lineOf a.phys) a.ctx) id (a.sentFrom s.now) l := by
    refine (@Proto.serve_issued (answersAt s.now.depth) _ _ _ _ hf hstage hgo).trans ?_
    rw [@Proto.serveAs_load (answersAt s.now.depth) s s.now id (a.sentFrom s.now) hdev hbank hop]
    exact (if_pos hwants).trans hgrant
  rw [hserve]
  exact hit_granted (e := s) rfl rfl _ id (a.sentFrom s.now) l

variable (id a)

theorem leaves_ownedRequest :
    Leaves (.ownedRequest id) (fun s => a.MayOwn id s ∧ s.now.aheadFor id (lineOf a.phys) = false) (fun _ t => a.Granted id t) :=
  leaves_of_event (exec_ownedRequest id) fun s ⟨hmay, hahead⟩ => by
    have hgranted := serve_granted hmay hahead
    obtain ⟨⟨hf, -⟩, hop, hwants, -⟩ := hmay
    simpa only [hf, hwants, hop, Bool.and_self, if_true] using hgranted

theorem leaves_persistentRequest :
    Leaves (.persistentRequest (sliceOf (lineOf a.phys)))
      (fun s => a.MayOwn id s ∧ (s.now.slice (sliceOf (lineOf a.phys))).persistent.head? = some id) (fun _ t => a.Granted id t) :=
  leaves_of_event (exec_persistentRequest _) fun s ⟨hmay, hhead⟩ => by
    have hgranted := serve_granted hmay (not_aheadFor_head hhead)
    obtain ⟨⟨hf, -⟩, -⟩ := hmay
    obtain ⟨rest, hrest⟩ : ∃ rest, (s.now.slice (sliceOf (lineOf a.phys))).persistent = id :: rest := List.head?_eq_some_iff.mp hhead
    simpa only [persistent_sliceAt, hrest, hf] using hgranted

end

/-- Settles O54: each event is the step of the protocol that its conditions leave, at a line at rest. (`accessEvents` names a function of the model.) -/
theorem accessEvents_hold : Obligations.AccessEvents := by
  intro id a ln at_ sent quiet room alone sized only old arrived granted
  have hquiet : ∀ s, at_ s → quiet s → a.Undisturbed id s := fun s hf ⟨hbusy, hhost, howner, hdev, hbank, hfits⟩ =>
    ⟨hf, ⟨hbusy, hhost, howner⟩, hdev, hbank, hfits⟩
  refine ⟨happens_loadDataReturn_returned id a, fun hpoison s => giveData_unpoisoned hpoison s id, fun hpoison m => deliver_writes hpoison m id, ?renewal,
    leaves_renewReply id a, ?store, happens_homeStore_remote id a, fun op => ?atomic, ?owned, ?persistent, happens_remoteAtomicReply id a,
    happens_ecallAnswer id a, happens_loadDataReturn_remote id a, happens_routeFailure id a⟩
  case renewal =>
    intro s hs ⟨hf, hop, hkind, hhost, hpromote, hstage, hgo, hacq, hq⟩
    exact leaves_renewRequest id a s hs ⟨hquiet s hf hq, hop, hkind, hhost, hpromote, hstage, hgo, hacq⟩
  case store =>
    intro s hs ⟨hf, hop, hwants, horder, hstage, hsized, hperform, hheld, hrelease, hq, hroom, halone⟩
    exact leaves_homeStore id a s hs ⟨⟨hquiet s hf hq, hwants, horder, hstage, hperform, hheld, halone⟩, hop, hsized, hrelease, hroom⟩
  case atomic =>
    intro s hs ⟨hf, hop, hwants, horder, hpromote, hstage, hsized, hperform, hheld, hmates, hq, halone⟩
    exact leaves_homeAtomic id a op s hs ⟨⟨hquiet s hf hq, hwants, horder, hstage, hperform, hheld, halone⟩, hop, hpromote, hsized, hmates⟩
  case owned =>
    intro s hs ⟨hf, hop, hwants, hrel, hstage, hgo, hperform, hahead, hq, hroom⟩
    exact leaves_ownedRequest id a s hs ⟨⟨hquiet s hf hq, hop, hwants, hrel, hstage, hgo, hperform, hroom⟩, hahead⟩
  case persistent =>
    intro s hs ⟨hf, hop, hwants, hrel, hstage, hgo, hperform, hhead, hq, hroom⟩
    exact leaves_persistentRequest id a s hs ⟨⟨hquiet s hf hq, hop, hwants, hrel, hstage, hgo, hperform, hroom⟩, hhead⟩

end Sys2Proof.Machine
end

section
/-! The state after reset (O49): each clause reads a field of the reset state, whose tables are empty. -/

namespace Sys2Proof.Machine

/-- Settles O49: every table of the reset state is empty, so each entry of it is the default one. -/
theorem resetState : Obligations.ResetState := by
  refine ⟨?sound, rfl, rfl, rfl, fun t => ⟨rfl, rfl, rfl⟩, fun t r => ⟨rfl, rfl, rfl⟩, fun k => ⟨rfl, rfl⟩, rfl, rfl, fun d => ⟨rfl, rfl⟩,
    fun i => rfl, fun p => ?port, rfl, rfl, rfl, ?context, ?team⟩
  case sound => simp [State.Sound, State.reset, Memory.wf, Memory.wfFrom]
  case port => rfl
  case context =>
    rintro x rfl
    exact ⟨rfl, rfl, rfl, rfl, rfl, rfl, rfl, rfl, rfl, rfl, rfl⟩
  case team =>
    rintro k rfl
    exact ⟨rfl, rfl, rfl⟩

end Sys2Proof.Machine
end

section
/-! Named barriers (O22, O24; 13 R284 to R288): the check of a barrier's index, of a second arrival and of the phase, and the completion of a
phase; and the wide barriers (O23; 13 R289 to R291). -/

namespace Sys2Proof.Machine

/-- The thread's team has declared the barrier (13 R288). -/
def HasBar (n : Nat) (e : State) (l : Nat) : Prop := n < (e.now.team (e.now.teamOf l)).barriers

section
variable {e : State} {l n : Nat} (slot : Nat)

theorem barIndex_of_declared (h : HasBar n e l) : barIndex e l slot n = none := if_neg (Nat.not_le.mpr h)

theorem barIndex_of_not_declared (h : ¬ HasBar n e l) : barIndex e l slot n = some (trapAt slot causeAccess 9 (BitVec.ofNat 32 n) 0) :=
  if_pos (Nat.not_lt.mp h)

theorem barTwice_of_mem (i : Instr) (h : l ∈ (e.now.bar l n).arrived) :
    barTwice e l slot n i = some (waitFor e slot (.barrier n true) (e.now.bar l n).phase i false) :=
  if_pos (List.contains_iff_mem.mpr h)

theorem barTwice_of_not_mem (i : Instr) (h : l ∉ (e.now.bar l n).arrived) : barTwice e l slot n i = none :=
  if_neg fun hc => h (List.contains_iff_mem.mp hc)

/-- The index is checked first: a declared barrier is checked further. -/
theorem barIndex_orElse (h : HasBar n e l) (v : Option Verdict) : (barIndex e l slot n).orElse (fun _ => v) = v := by
  rw [barIndex_of_declared slot h, Option.orElse_none]

end

/-- A word that checks the index of its barrier first traps where the team has not declared it (13 R288). -/
theorem fails_of_barIndex {i : Instr} {c : Bool} {act : Act} {n : BitVec 4} {rest : Check}
    (he : ∀ s, exec i s = runWord i (fun e l slot => (barIndex e l slot n.toNat).orElse (fun _ => rest e l slot)) act s) (hc : (opInfo i).c = c) :
    Fails i c (fun e l => ¬ HasBar n.toNat e l) (fun _ _ slot => trapAt slot causeAccess 9 (BitVec.ofNat 32 n.toNat) 0) :=
  fails_of_runWord he hc fun e l slot h => by rw [barIndex_of_not_declared slot h, Option.orElse_some]

/-- Settles O22: below the declared number each word goes by its grant, the arrivals and the phase. -/
theorem namedBarrierWords : Obligations.NamedBarrierWords := by
  intro c d n has twice waits
  refine ⟨?sync, ?syncWaits, ?syncTwice, ?arv, ?arvTwice, ?wait, ?waitWaits, ?test, ?set, ?undeclared⟩
  case sync =>
    refine does_of_runWord (exec_barSync c n) rfl fun e l slot ⟨hhas, hgrant⟩ => ?_
    obtain ⟨g, hg⟩ := Option.isSome_iff_exists.mp hgrant
    simp only [barIndex_orElse slot (show HasBar n.toNat e l from hhas), hg]
  case syncWaits =>
    refine fails_of_runWord (exec_barSync c n) rfl fun e l slot ⟨hhas, hgrant, hfirst⟩ => ?_
    simp only [barIndex_orElse slot (show HasBar n.toNat e l from hhas), hgrant, barTwice_of_not_mem slot _ hfirst, Option.orElse_none, waits]
  case syncTwice =>
    refine fails_of_runWord (exec_barSync c n) rfl fun e l slot ⟨⟨hhas, hsecond⟩, hgrant⟩ => ?_
    simp only [barIndex_orElse slot (show HasBar n.toNat e l from hhas), hgrant, barTwice_of_mem slot _ hsecond, Option.orElse_some, waits]
  case arv =>
    refine does_of_check (exec_barArv c d n) rfl (fun e l slot ⟨hhas, hmay⟩ => ?_) ?_
    · rw [barIndex_orElse slot hhas]
      rcases hg : e.grantOf l with _ | g
      · exact barTwice_of_not_mem slot _ (hmay.resolve_left (by simp [hg]))
      · rfl
    · rfl
  case arvTwice =>
    refine fails_of_runWord (exec_barArv c d n) rfl fun e l slot ⟨⟨hhas, hsecond⟩, hgrant⟩ => ?_
    simp only [barIndex_orElse slot (show HasBar n.toNat e l from hhas), hgrant, barTwice_of_mem slot _ hsecond, waits]
  case wait =>
    refine does_of_runWord (exec_barWait c d n) rfl fun e l slot ⟨hhas, hmay⟩ => ?_
    rw [barIndex_orElse slot hhas]
    rcases hg : e.grantOf l with _ | g
    · exact if_neg (hmay.resolve_left (by simp [hg]))
    · rfl
  case waitWaits =>
    refine fails_of_runWord (exec_barWait c d n) rfl fun e l slot ⟨hhas, hgrant, hphase⟩ => ?_
    simp only [barIndex_orElse slot (show HasBar n.toNat e l from hhas), hgrant, hphase, if_true, waits]
  case test => exact does_of_runWord (exec_barTest c d n) rfl fun e l slot hhas => barIndex_of_declared slot hhas
  case set =>
    refine does_of_check (exec_barSet c d n) rfl (fun e l slot hhas => barIndex_of_declared slot hhas) (perThread_congr fun pre l t m => ?_)
    simp only [List.isEmpty_iff]
  case undeclared =>
    intro i hi
    simp only [List.mem_cons, List.not_mem_nil, or_false] at hi
    rcases hi with rfl | rfl | rfl | rfl | rfl
    · exact fails_of_barIndex (exec_barSync c n) rfl
    · exact fails_of_barIndex (exec_barArv c d n) rfl
    · exact fails_of_barIndex (exec_barWait c d n) rfl
    · exact fails_of_runWord (exec_barTest c d n) rfl fun e l slot => barIndex_of_not_declared slot
    · exact fails_of_runWord (exec_barSet c d n) rfl fun e l slot => barIndex_of_not_declared slot

/-- Settles O23: each word goes on with its grant, and else waits or fails as its launch and mask say. -/
theorem wideBarrierWords : Obligations.WideBarrierWords := by
  intro c n grid
  refine ⟨?clu, ?cluWaits, ?grid, ?gridWaits, ?gridFails, ?gsync, ?gsyncWaits⟩
  case clu =>
    refine does_of_runWord (exec_barClu c) rfl fun e l slot hgrant => ?_
    obtain ⟨g, hg⟩ := Option.isSome_iff_exists.mp hgrant
    simp only [hg]
  case cluWaits => exact fails_of_runWord (exec_barClu c) rfl fun e l slot hgrant => by simp only [hgrant]
  case grid =>
    refine does_of_runWord (exec_barGrid c) rfl fun e l slot ⟨hco, hgrant⟩ => ?_
    obtain ⟨g, hg⟩ := Option.isSome_iff_exists.mp hgrant
    simp only [grid] at hco
    simp only [hco, hg, Bool.not_true, Bool.false_eq_true, if_false]
  case gridWaits =>
    refine fails_of_runWord (exec_barGrid c) rfl fun e l slot ⟨hco, hgrant⟩ => ?_
    simp only [grid] at hco
    simp only [hco, hgrant, Bool.not_true, Bool.false_eq_true, if_false, grid]
  case gridFails =>
    refine fails_of_runWord (exec_barGrid c) rfl fun e l slot hco => ?_
    simp only [grid] at hco
    simp only [hco, Bool.not_false, if_true]
  case gsync =>
    refine does_of_runWord (exec_gsync c n) rfl fun e l slot hmay => ?_
    rcases hg : e.grantOf l with _ | g
    · exact if_neg (Bool.eq_false_iff.mp (hmay.resolve_left (by simp [hg])))
    · rfl
  case gsyncWaits => exact fails_of_runWord (exec_gsync c n) rfl fun e l slot ⟨hgrant, hnamed⟩ => by simp only [hgrant, hnamed, if_true]

/-! The completion of a phase (13 R285). -/

/-- The barrier `n` of a team, and the same in the next phase: no arrival, and a pending count taken. -/
def Chip.teamBar (m : Chip) (team n : Nat) : Barrier := Sparse.get {} (m.team team).bars n

def Barrier.nextPhase (b : Barrier) : Barrier := { phase := b.phase + 1, arrived := [], count := b.pend.getD b.count, pend := none }

/-- Which thread waits for the barrier. -/
def Chip.waitsForBar (m : Chip) (team n i : Nat) (r : WaitRec) : Bool :=
  decide (m.teamOf i = team) && (match r.kind with | .barrier k _ => decide (k = n) | _ => false)

/-- All that a phase needs have arrived: each counted thread and some visible one, or in count mode the count (13 R285). -/
def Chip.PhaseFull (m : Chip) (team n : Nat) : Prop :=
  if (m.teamBar team n).count = 0 then
    (∀ t ∈ m.counted [team], t ∈ (m.teamBar team n).arrived) ∧ ∃ t ∈ (m.teamBar team n).arrived, m.visible t = true
  else (m.teamBar team n).count ≤ ((m.teamBar team n).arrived.filter m.visible).length

/-- Outside rollback mode a team has no interval to close (21 R457). -/
theorem closeInterval_of_no_rollback {m : Chip} {team : Nat} (h : (m.team team).rollback = false) : m.closeInterval team = m := by
  simp only [Chip.closeInterval, h, Bool.not_false, if_true]

section
variable {m : Chip} {team n : Nat}

/-- The team's machine with its barrier in the next phase. -/
def Chip.phasePassed (m : Chip) (team n : Nat) : Chip :=
  m.setTeam team { m.team team with bars := Sparse.set (m.team team).bars n (m.teamBar team n).nextPhase }

/-- The test that settles a barrier, by whether no thread waits for it. -/
def Chip.phaseTest (m : Chip) (team n : Nat) (unawaited : Bool) : Bool :=
  if (m.teamBar team n).count = 0 then
    (m.counted [team]).all (fun t => (m.teamBar team n).arrived.contains t) && (!((m.teamBar team n).arrived.filter m.visible).isEmpty || !unawaited)
  else decide ((m.teamBar team n).count ≤ ((m.teamBar team n).arrived.filter m.visible).length)

/-- With no thread waiting, the test says whether the phase is full. -/
theorem phaseTest_iff : m.phaseTest team n true = true ↔ m.PhaseFull team n := by
  simp only [Chip.phaseTest, Chip.PhaseFull]
  split <;> simp

/-- Settling a barrier: the next phase where the test holds, an interval closed in all mode, and each waiting thread served. -/
theorem settleBarrier_eq (m : Chip) (team n : Nat) : ∃ serveWaiter : Chip → Nat → Chip, m.settleBarrier team n =
    if !m.phaseTest team n (m.waiters (m.waitsForBar team n)).isEmpty then m
    else (m.waiters (m.waitsForBar team n)).foldl serveWaiter
      (if (m.teamBar team n).count = 0 then (m.phasePassed team n).closeInterval team else m.phasePassed team n) :=
  ⟨_, rfl⟩

/-- With no thread waiting, settling a barrier takes the next phase where this one is full, and else changes nothing. -/
theorem settleBarrier_of_no_waiters (hwaiters : m.waiters (m.waitsForBar team n) = []) (hrollback : (m.team team).rollback = false) :
    (¬ m.PhaseFull team n → m.settleBarrier team n = m) ∧ (m.PhaseFull team n → m.settleBarrier team n = m.phasePassed team n) := by
  obtain ⟨serveWaiter, hsettle⟩ := settleBarrier_eq m team n
  have hteam : ((m.phasePassed team n).team team).rollback = false := by rw [Chip.phasePassed, Chip.team_setTeam, if_pos rfl, hrollback]
  rw [hwaiters, List.isEmpty_nil, List.foldl_nil, closeInterval_of_no_rollback hteam, ite_self] at hsettle
  rw [hsettle, ← phaseTest_iff]
  cases m.phaseTest team n true <;> simp

end

/-- Settles O24: with no thread waiting, completion changes the barrier's own record alone. -/
theorem barrierCompletion : Obligations.BarrierCompletion := by
  intro m team n b waits full hwaiters hrollback
  obtain ⟨hnot, hpassed⟩ := settleBarrier_of_no_waiters hwaiters hrollback
  refine ⟨hnot, fun hfull => ?_⟩
  rw [hpassed hfull, Chip.phasePassed, Chip.team_setTeam, if_pos rfl]
  exact ⟨Sparse.get_set_same _ _ _ _, fun j hj => Sparse.get_set_other _ _ _ hj, fun u hu => by rw [Chip.team_setTeam, if_neg hu], rfl⟩

end Sys2Proof.Machine
end

section
/-! Copy words and CPY.FLAG (O34; 14 R302, R306, R307, R310): the open batch of a thread, the element that one copy word of a thread alone
appends to it, and the steps of the check of a flag's offset. -/

namespace Sys2Proof.Machine

/-! The open batch of a level (14 R302). -/

section
variable (c : Chip) (t : Nat) (lvl : Level)

/-- The batch that a level has open, or the empty one that is opened for it. -/
def Chip.openBatchRec : Option Batch :=
  match Sparse.find? (c.thread t).openBatch lvl.code with
  | some id => Sparse.find? c.batches id
  | none => some { th := t, level := lvl }

variable {c t lvl} in
/-- The elements of an open batch; a batch newly opened has none. -/
theorem openBatchRec_elems {b : Batch} (h : c.openBatchRec t lvl = some b) :
    b.elems = (match Sparse.find? (c.thread t).openBatch lvl.code with
      | some id => ((Sparse.find? c.batches id).map (·.elems)).getD []
      | none => []) := by
  unfold Chip.openBatchRec at h
  split at h
  · simp only [*, Option.map_some, Option.getD_some]
  · cases h
    simp only [*]

theorem openBatchOf_listed : Sparse.find? ((c.openBatchOf t lvl).2.thread t).openBatch lvl.code = some (c.openBatchOf t lvl).1 := by
  unfold Chip.openBatchOf
  split
  · assumption
  · simp

theorem openBatchOf_batch : Sparse.find? (c.openBatchOf t lvl).2.batches (c.openBatchOf t lvl).1 = c.openBatchRec t lvl := by
  unfold Chip.openBatchOf Chip.openBatchRec
  split <;> simp [*, Chip.setBatch]

theorem openBatchOf_level (u : Nat) : ((c.openBatchOf t lvl).2.thread u).level = (c.thread u).level := by
  unfold Chip.openBatchOf
  split
  · rfl
  · rw [Chip.thread_setThread]
    split
    · subst u
      rfl
    · rfl

theorem openBatchOf_keeps : (c.openBatchOf t lvl).2.teams = c.teams ∧ (c.openBatchOf t lvl).2.groups = c.groups := by
  unfold Chip.openBatchOf
  split <;> exact ⟨rfl, rfl⟩

end

/-- An element added to a batch. -/
def Chip.appendElem (c : Chip) (id : Nat) (x : Elem) : Chip :=
  match Sparse.find? c.batches id with
  | some b => c.setBatch id { b with elems := b.elems ++ [x] }
  | none => c

theorem appendElem_keeps (c : Chip) (id : Nat) (x : Elem) :
    (c.appendElem id x).teams = c.teams ∧ (c.appendElem id x).groups = c.groups ∧ (c.appendElem id x).threads = c.threads := by
  unfold Chip.appendElem
  split <;> exact ⟨rfl, rfl, rfl⟩

theorem appendElem_of_batch {c : Chip} {id : Nat} {b : Batch} (x : Elem) (h : Sparse.find? c.batches id = some b) :
    Sparse.find? (c.appendElem id x).batches id = some { b with elems := b.elems ++ [x] } := by
  simp only [Chip.appendElem, h, Chip.setBatch, Sparse.find?_set_same]

/-! Copy words (14 R306). -/

/-- The bytes of an element, by the size field of its word. -/
def copySize (z : BitVec 2) : Nat := if z = 0 then 4 else if z = 1 then 8 else 16

section
variable {i : Instr} {c : Bool} {kind z : BitVec 2} {src dst : Chip → Nat → CpyEnd}

/-- The element of a thread, in a transfer unit. -/
def copyElem (kind z : BitVec 2) (src dst : Chip → Nat → CpyEnd) (e : State) (t unit : Nat) : Elem :=
  { kind := kind, size := copySize z, src := (src e.now t).bits, dst := (dst e.now t).bits, unit := unit }

/-- A thread alone appends its element, of a new unit, to the open batch of its level; in rollback mode a write to global memory then
commits the interval. -/
theorem copyWord_alone (he : ∀ s, exec i s = copyWord i kind z src dst s) : ∃ act : Act,
    (∀ s, exec i s = runWord i (fun e t slot => cpyVerdict e.now t slot (copySize z) (src e.now t) (dst e.now t)) act s) ∧
    ∀ (e : State) (t : Nat) (m : Chip), e.now.visible t = true →
      let o := m.fresh.2.openBatchOf t (m.thread t).level
      let d := o.2.appendElem o.1 (copyElem kind z src dst e t m.nextId)
      act e [t] [t] m =
        if (d.team (d.teamOf t)).rollback && (decide (kind = 1) || decide (kind = 2)) then commitNow e d (d.teamOf t) else d := by
  refine ⟨_, he, fun e t m hvisible => ?_⟩
  simp only [List.filter_cons, hvisible, if_true, List.filter_nil, List.foldl_cons, List.foldl_nil, List.find?_nil]
  rfl

/-- A copy word whose operands pass appends one element, of its operands, to the thread's open batch. -/
theorem does_copyWord (he : ∀ s, exec i s = copyWord i kind z src dst s) (hc : (opInfo i).c = c) : ∃ act : Act,
    Does i c (fun e l => ∀ slot, cpyVerdict e.now l slot (copySize z) (src e.now l) (dst e.now l) = none) act ∧
    ∀ (e : State) (t : Nat) (m : Chip), e.now.visible t = true → (m.team (m.teamOf t)).rollback = false →
      (∀ id, Sparse.find? (m.thread t).openBatch (m.thread t).level.code = some id → (Sparse.find? m.batches id).isSome = true) →
      ∃ id b u, Sparse.find? ((act e [t] [t] m).thread t).openBatch (m.thread t).level.code = some id ∧
        Sparse.find? (act e [t] [t] m).batches id = some b ∧
        b.elems = (match Sparse.find? (m.thread t).openBatch (m.thread t).level.code with
          | some i => ((Sparse.find? m.batches i).map (·.elems)).getD []
          | none => []) ++ [{ kind := kind, size := copySize z, src := (src e.now t).bits, dst := (dst e.now t).bits, unit := u }] := by
  obtain ⟨act, hword, halone⟩ := copyWord_alone he
  refine ⟨act, does_of_runWord hword hc fun e l slot h => h slot, fun e t m hvisible hrollback hlisted => ?_⟩
  obtain ⟨b, hb⟩ : ∃ b, m.fresh.2.openBatchRec t (m.thread t).level = some b := by
    unfold Chip.openBatchRec
    split
    · exact Option.isSome_iff_exists.mp (hlisted _ ‹_›)
    · exact ⟨_, rfl⟩
  have hlisted' := openBatchOf_listed m.fresh.2 t (m.thread t).level
  have hbatch := (openBatchOf_batch m.fresh.2 t (m.thread t).level).trans hb
  obtain ⟨hteams, hgroups⟩ := openBatchOf_keeps m.fresh.2 t (m.thread t).level
  have hact := halone e t m hvisible
  dsimp only at hact
  generalize m.fresh.2.openBatchOf t (m.thread t).level = o at hact hlisted' hbatch hteams hgroups
  obtain ⟨hteams', hgroups', hthreads⟩ := appendElem_keeps o.2 o.1 (copyElem kind z src dst e t m.nextId)
  have happended := appendElem_of_batch (copyElem kind z src dst e t m.nextId) hbatch
  generalize o.2.appendElem o.1 (copyElem kind z src dst e t m.nextId) = d at hact hteams' hgroups' hthreads happended
  have hteam : d.team (d.teamOf t) = m.team (m.teamOf t) := by
    simp only [Chip.team, Chip.teamOf, Chip.group, hteams', hgroups', hteams, hgroups]
    rfl
  rw [hteam, hrollback, Bool.false_and, if_neg Bool.false_ne_true] at hact
  rw [hact]
  refine ⟨o.1, _, m.nextId, ?_, happended, congrArg (· ++ [_]) (openBatchRec_elems hb)⟩
  rw [Chip.thread, hthreads]
  exact hlisted'

end

/-! CPY.FLAG (14 R307, R310). -/

/-- The check of a flag's offset: as that of a destination of 4 bytes in the team's memory. -/
def flagCheck (x : BitVec 7) : Check := fun e t slot => [1, 3, 5].findSome? fun n =>
  ((CpyEnd.loc (e.now.v t x.toNat).toNat).fails e.now t 4 n).map fun f =>
    memTrap slot f.1 f.2 true 0 (CpyEnd.loc (e.now.v t x.toNat).toNat).address

section
variable (x : BitVec 7) (e : State) (l slot : Nat)

theorem flagCheck_eq : flagCheck x e l slot =
    if (e.now.v l x.toNat).toNat % 4 ≠ 0 then some (memTrap slot causeAlign 0 true 0 (BitVec.ofNat 64 (e.now.v l x.toNat).toNat))
    else if (e.now.team (e.now.teamOf l)).spad < (e.now.v l x.toNat).toNat + 4 then
      some (memTrap slot causeAccess 4 true 0 (BitVec.ofNat 64 (e.now.v l x.toNat).toNat))
    else if (e.now.team (e.now.teamOf l)).inWindow (e.now.v l x.toNat).toNat 4 = true then
      some (memTrap slot causeAccess 7 true 0 (BitVec.ofNat 64 (e.now.v l x.toNat).toNat))
    else none := by
  have haddr : (CpyEnd.loc (e.now.v l x.toNat).toNat).address.toNat = (e.now.v l x.toNat).toNat := by
    simp only [CpyEnd.address, BitVec.toNat_ofNat]
    omega
  simp only [flagCheck, List.findSome?_cons, List.findSome?_nil, CpyEnd.fails, haddr]
  split_ifs <;> rfl

end

/-- Settles O34: each copy word is a `copyWord`, and CPY.FLAG goes by the steps of its check. -/
theorem copyWords : Obligations.CopyWords := by
  intro c z d a x y n glob loc rmt
  refine ⟨fun p hp => ?copies, ?flag, ?misaligned, ?beyond⟩
  case copies =>
    simp only [List.mem_cons, List.not_mem_nil, or_false] at hp
    rcases hp with rfl | rfl | rfl | rfl
    · exact does_copyWord (exec_cpyG2s c z x a) rfl
    · exact does_copyWord (exec_cpyS2g c z d y) rfl
    · exact does_copyWord (exec_cpyG2g c z d a) rfl
    · exact does_copyWord (exec_cpyS2s c z x y) rfl
  case flag =>
    refine does_of_check (check := flagCheck x) (exec_cpyFlag c x y) rfl (fun e l slot ⟨haligned, hwithin, hwindow⟩ => ?_) (once_congr fun e t takers m => ?_)
    · rw [flagCheck_eq, if_neg (not_not.mpr haligned), if_neg (Nat.not_lt.mpr hwithin), if_neg (Bool.eq_false_iff.mp hwindow)]
    · rfl
  case misaligned =>
    exact fails_of_runWord (check := flagCheck x) (exec_cpyFlag c x y) rfl fun e l slot h => by rw [flagCheck_eq, if_pos h]
  case beyond =>
    exact fails_of_runWord (check := flagCheck x) (exec_cpyFlag c x y) rfl fun e l slot ⟨haligned, hbeyond⟩ => by
      rw [flagCheck_eq, if_neg (not_not.mpr haligned), if_pos hbeyond]

end Sys2Proof.Machine
end

section
/-! The sub-ops of major 0x3E: TRET and ECALL (O43; 19 R432, R433, 22 R470), and the requests (O44; 18 R390, 19 R431, R434 to R436). -/

namespace Sys2Proof.Machine

/-- The kind of a sub-op fits its instruction where it names the same operands, lead and hold and compares no pair. -/
theorem WordKind.fits_of {i : Instr} {k : WordKind} (hinfo : k.info = opInfo i) (hlead : ∀ e t, k.lead e t = wordLead e t i)
    (hheld : ∀ e t, k.held e t = blocked e t i) (hpair : ∀ c t slot, k.pair c t slot = none) : k.Fits i :=
  ⟨hinfo, hlead, fun e t h => (hheld e t).trans h, fun c t slot _ => hpair c t slot⟩

/-- What a word that transfers control does, where each thread goes written in another way. -/
theorem jumps_congr {i : Instr} {c : Bool} {own : State → Nat → Prop} {act : Act} {f g : State → List Nat → Nat → Option Jump}
    (h : ∀ e all t, f e all t = g e all t) (hj : Jumps i c own act f) : Jumps i c own act g := by
  obtain rfl : f = g := funext fun e => funext fun all => funext (h e all)
  exact hj

/-! TRET (19 R432). -/

theorem tret_fits (c : Bool) : WordKind.Fits { info := infoTret c } (.tret c) :=
  WordKind.fits_of rfl (fun _ _ => rfl) (fun _ _ => rfl) fun _ _ _ => rfl

theorem ecall_fits (c : Bool) (d : BitVec 7) (imm : BitVec 9) :
    WordKind.Fits { info := infoEcall c d, held := fun e t => ecallBlocked e t } (.ecall c d imm) :=
  WordKind.fits_of rfl (fun _ _ => rfl) (fun _ _ => rfl) fun _ _ _ => rfl

section
variable {e : State} {l : Nat} (slot : Nat)

/-- A return above the thread's own level fails (19 R432). -/
theorem tretCheck_of_above (h : (e.now.thread l).level.code < (trapReturn (e.now.thread l)).1) : tretCheck e l slot = some (privTrap slot 4 2) :=
  if_pos (.inl h)

/-- A return to a level at most its own passes, to a target that the level may take, or where the routine raises a cause. -/
theorem tretCheck_none (hlevel : (trapReturn (e.now.thread l)).1 ≤ (e.now.thread l).level.code)
    (hopen : raiseOf (e.now.thread l) = none →
      openTarget e l ((levelOf (trapReturn (e.now.thread l)).1).getD .user) (trapReturn (e.now.thread l)).2) : tretCheck e l slot = none := by
  have hcode : (e.now.thread l).level.code ≤ 2 := by cases (e.now.thread l).level <;> decide
  have hlow : ¬ ((e.now.thread l).level.code < (trapReturn (e.now.thread l)).1 ∨ (trapReturn (e.now.thread l)).1 = 3) := by omega
  rcases hraise : raiseOf (e.now.thread l) with _ | k
  · obtain ⟨hgood, hheld⟩ := hopen hraise
    simp only [tretCheck, hlow, hraise, hgood, hheld, Option.isSome_none, Bool.false_eq_true, if_false, Option.map_none]
  · simp only [tretCheck, hlow, hraise, Option.isSome_some, if_false, if_true]

end

/-- A chain whose thread returns leaves it at its level and PC, and closes the firmware batch that is open (14 R302, 19 R432). -/
theorem commitThread_ret (e : State) {iss : Issue} (succ : Addr) (m : Chip) {t : Nat} {lvl : Level} {pc : Addr} (h : iss.jump t = some (.ret lvl pc)) :
    commitThread e iss succ m t = (m.setThread t { m.thread t with
      grants := [], patched := none, held := none, entering := false, lastIssue := m.stamp, level := lvl, pc := pc }).closeFirmware t := by
  simp only [commitThread, h]

/-- Settles O43: TRET by the level its words hold, ECALL by the thread's own level. -/
theorem trapReturnWords : Obligations.TrapReturnWords := by
  intro c d imm back level
  refine ⟨?ret, ?commit, fun th => rfl, ?above, ?ecall, ?firmware⟩
  case ret =>
    refine jumps_congr (fun e all t => ?_)
      (jumps_of_runKindJump (exec_tret c) (tret_fits c) rfl fun e l slot ⟨hlevel, hopen⟩ => tretCheck_none slot hlevel hopen)
    rcases hraise : raiseOf (e.now.thread t) with _ | k
    · simp only [hraise]
      rfl
    · simp only [hraise]
      rfl
  case commit =>
    intro e iss succ m t lvl pc hjump y
    rw [commitThread_ret e succ m hjump, Chip.closeFirmware, Chip.thread_setThread_same]
  case above => exact fails_of_runKindJump (exec_tret c) (tret_fits c) rfl fun e l slot h => tretCheck_of_above slot h
  case ecall => exact jumps_of_runKindJump (exec_ecall c d imm) (ecall_fits c d imm) rfl fun e l slot h => if_neg h
  case firmware => exact fails_of_runKindJump (exec_ecall c d imm) (ecall_fits c d imm) rfl fun e l slot h => if_pos h

/-! The requests (18 R390). -/

section
variable {i : Instr} {o : OpInfo} {c : Bool}

/-- The kind of a sub-op with no hold of its own. -/
theorem plain_fits (ho : o = opInfo i) (hlead : ∀ e t, t = wordLead e t i) (hfree : ∀ e t, blocked e t i = false) : WordKind.Fits { info := o } i :=
  WordKind.fits_of ho hlead (fun e t => (hfree e t).symm) fun _ _ _ => rfl

/-- A request is posted once for each visible thread (18 R390). -/
theorem posts_of_requestWord {f g : State → Nat → Chip → Chip} (he : ∀ s, exec i s = requestWord o f s) (hk : WordKind.Fits { info := o } i)
    (hc : (opInfo i).c = c) (hf : ∀ e t m, f e t m = g e t m) : Does i c always (once false (fun e t _ m => g e t m)) := by
  obtain rfl : f = g := funext fun e => funext fun t => funext (hf e t)
  exact does_of_runKind he hk hc fun _ _ _ _ => rfl

end

section
variable {e : State} {l : Nat} (slot op : Nat) {reg : Nat}

/-- A supervisor may name its own context alone, firmware any (19 R434). -/
theorem ctxCheck_none (h : (e.now.thread l).level = .supervisor → namedCtx e.now l (e.now.v l reg) = e.now.ctxOf l) : ctxCheck reg op e l slot = none :=
  if_neg fun ⟨hlevel, hother⟩ => hother (h hlevel)

theorem ctxCheck_of_other (h : (e.now.thread l).level = .supervisor ∧ namedCtx e.now l (e.now.v l reg) ≠ e.now.ctxOf l) :
    ctxCheck reg op e l slot = some (privTrap slot 5 op) := if_pos h

end

/-- Settles O44: every sub-op posts, reads or sets without a check of its own, but for those that name a context and for ERRQ.SET. -/
theorem requestWords : Obligations.RequestWords := by
  intro c d p k f w sc pst imm l posts v dies named base
  have hmark : WordKind.Fits { info := infoCkptMark c d } (.ckptMark c d f) := plain_fits rfl (fun _ _ => rfl) fun _ _ => rfl
  have hstat : WordKind.Fits { info := infoCkptStat c p } (.ckptStat c p) := plain_fits rfl (fun _ _ => rfl) fun _ _ => rfl
  refine ⟨?stop, ?save, ?rst, ?preempt, ?mark, ?stat, ?load, ?arm, ?disarm, ?qry, ?pstate, ?park, ?unpark, ?errq, ?inv, ?fence, ?markOther, ?statOther⟩
  case stop => exact posts_of_requestWord (exec_ctxStop c d) (plain_fits rfl (fun _ _ => rfl) fun _ _ => rfl) rfl fun _ _ _ => rfl
  case save => exact posts_of_requestWord (exec_ctxSave c d) (plain_fits rfl (fun _ _ => rfl) fun _ _ => rfl) rfl fun _ _ _ => rfl
  case rst => exact posts_of_requestWord (exec_ctxRst c p f) (plain_fits rfl (fun _ _ => rfl) fun _ _ => rfl) rfl fun _ _ _ => rfl
  case preempt => exact posts_of_requestWord (exec_preempt c k imm) (plain_fits rfl (fun _ _ => rfl) fun _ _ => rfl) rfl fun _ _ _ => rfl
  case mark => exact does_of_runKind (exec_ckptMark c d f) hmark rfl fun e t slot h => ctxCheck_none slot 0x14 h
  case stat =>
    refine does_congr (fun e all live m => ?_) (does_of_runKind (exec_ckptStat c p) hstat rfl fun e t slot h => ctxCheck_none slot 0x15 h)
    refine congrFun (congrFun (congrFun (congrFun (perThread_congr fun pre x t m => ?_) e) all) live) m
    simp only [namedCtx]
    cases Sparse.find? _ _ <;> rfl
  case load => exact posts_of_requestWord (exec_patchLoad c p sc) (plain_fits rfl (fun _ _ => rfl) fun _ _ => rfl) rfl fun _ _ _ => rfl
  case arm => exact posts_of_requestWord (exec_patchArm c sc) (plain_fits rfl (fun _ _ => rfl) fun _ _ => rfl) rfl fun _ _ _ => rfl
  case disarm => exact posts_of_requestWord (exec_patchDisarm c sc) (plain_fits rfl (fun _ _ => rfl) fun _ _ => rfl) rfl fun _ _ _ => rfl
  case qry =>
    exact does_of_runKind (exec_patchQry c d sc) (plain_fits rfl (fun _ _ => rfl) fun _ _ => rfl) rfl fun _ _ _ _ => rfl
  case pstate => exact posts_of_requestWord (exec_pstateSet c d pst) (plain_fits rfl (fun _ _ => rfl) fun _ _ => rfl) rfl fun _ _ _ => rfl
  case park => exact posts_of_requestWord (exec_park c d) (plain_fits rfl (fun _ _ => rfl) fun _ _ => rfl) rfl fun _ _ _ => rfl
  case unpark => exact posts_of_requestWord (exec_unpark c d) (plain_fits rfl (fun _ _ => rfl) fun _ _ => rfl) rfl fun _ _ _ => rfl
  case errq =>
    refine does_of_runKind (exec_errqSet c p l) (plain_fits rfl (fun _ _ => rfl) fun _ _ => rfl) rfl fun e t slot h => ?_
    by_cases hoff : e.now.vv t (2 * p.toNat) = 0 ∨ l = 0
    · exact if_pos hoff
    · obtain ⟨haligned, hspace⟩ := h (fun h0 => hoff (.inl h0)) fun h0 => hoff (.inr h0)
      exact (if_neg hoff).trans ((if_neg (not_not.mpr haligned)).trans (if_neg (not_not.mpr (Nat.div_eq_of_lt hspace))))
  case inv =>
    exact does_of_runKind (exec_tlbInv c p w) (WordKind.fits_of rfl (fun _ _ => rfl) (fun _ _ => rfl) fun _ _ _ => rfl) rfl fun _ _ _ _ => rfl
  case fence =>
    exact does_of_runKind (exec_fenceTlb c) (WordKind.fits_of rfl (fun _ _ => rfl) (fun _ _ => rfl) fun _ _ _ => rfl) rfl fun _ _ _ _ => rfl
  case markOther => exact fails_of_runKind (exec_ckptMark c d f) hmark rfl fun e t slot h => ctxCheck_of_other slot 0x14 h
  case statOther => exact fails_of_runKind (exec_ckptStat c p) hstat rfl fun e t slot h => ctxCheck_of_other slot 0x15 h

end Sys2Proof.Machine
end

section
/-! Taking a trap (O47; 19 R425 to R427, 22 R470): when the vector refuses the entry, and what each of the three ways leaves. -/

namespace Sys2Proof.Machine

section
variable (e : State) (c : Chip) (t : Nat) (pc ret : Addr) (cause : Nat) (i0 i1 i2 i3 : Word)

/-- The vector of a thread's context refuses a trap of the chain at `pc` (19 R426). -/
def VectorRefuses : Prop :=
  let vec := (c.ctx (c.ctxOf t)).trapvec
  vec = 0 ∨ 2 ^ 55 ≤ vec.toNat ∨ badTarget e c (c.coreOf t) (c.ctxOf t) .supervisor vec ≠ none ∨ ((c.thread t).level = .supervisor ∧ pc = vec)

theorem trapRefused_iff : trapRefused e c t pc = true ↔ VectorRefuses e c t pc := by
  simp only [trapRefused, VectorRefuses, Bool.or_eq_true, Bool.and_eq_true, decide_eq_true_eq, Option.isSome_iff_ne_none, or_assoc]
  rw [above_space_iff]

/-- The machine with a thread standing where its trap puts it: its trap words, supervisor level and the vector (19 R425). -/
def Chip.trapTaken (m : Chip) (ctx : Nat) : Chip :=
  m.setThread t { m.thread t with
    trap := { pc := ret, cause := trapCauseWord cause (m.thread t).level (m.thread t).cont, info0 := i0, info1 := i1, info2 := i2, info3 := i3 }
    level := .supervisor, pc := (m.ctx ctx).trapvec, grants := [], patched := none, held := none, entering := false }

/-- The error record of a trap, before its source is named (19 R437). -/
def Chip.trapRecord : ErrRec :=
  { c.threadRec t cause (fieldNat i1.toNat 4 4) 1 ret.toNat (recordAddr cause (fieldNat i1.toNat 4 4) (i2.toNat + 2 ^ 32 * i3.toNat)) i0 i1 i2 i3 with
    imprecise := decide (cause = causeUncorrectable ∧ fieldNat i0.toNat 0 9 ≠ 0) }

variable {e c t pc}

/-- A trap is entered below firmware level where the vector takes it: with an error record for the causes that write one, without any other
change for the rest. -/
theorem enterTrap_taken (hlevel : (c.thread t).level ≠ .firmware) (haccepts : ¬ VectorRefuses e c t pc) :
    enterTrap e c t pc ret cause i0 i1 i2 i3 =
      Chip.trapTaken t ret cause i0 i1 i2 i3 (match recordSource cause with
        | some s => errorRecord e c (c.ctxOf t) { c.trapRecord t ret cause i0 i1 i2 i3 with source := s }
        | none => c) (c.ctxOf t) := by
  have haccepted : trapRefused e c t pc = false := Bool.eq_false_iff.mpr (mt (trapRefused_iff e c t pc).mp haccepts)
  simp only [enterTrap, if_neg hlevel, haccepted, Bool.false_eq_true, if_false]
  rfl

/-- A routine's own trap kills its context (22 R470). -/
theorem enterTrap_firmware (hlevel : (c.thread t).level = .firmware) :
    enterTrap e c t pc ret cause i0 i1 i2 i3 = kill e c (c.ctxOf t) cause { c.trapRecord t ret cause i0 i1 i2 i3 with source := 8 } :=
  if_pos hlevel

/-- A refused trap kills its context (19 R426). -/
theorem enterTrap_refused (hlevel : (c.thread t).level ≠ .firmware) (hrefuses : VectorRefuses e c t pc) :
    enterTrap e c t pc ret cause i0 i1 i2 i3 = kill e c (c.ctxOf t) cause { c.trapRecord t ret cause i0 i1 i2 i3 with source := 7 } :=
  (if_neg hlevel).trans (if_pos ((trapRefused_iff e c t pc).mpr hrefuses))

end

/-- Which causes write a record at their entry (19 R427). -/
theorem recordSource_eq_none {cause : Nat} (hun : cause ≠ causeUncorrectable) (hmis : cause ≠ causeMismatch) : recordSource cause = none :=
  (if_neg hun).trans (if_neg hmis)

theorem recordSource_of_recorded {cause : Nat} (h : cause = causeUncorrectable ∨ cause = causeMismatch) : ∃ k, recordSource cause = some k := by
  rcases h with rfl | rfl
  · exact ⟨6, rfl⟩
  · exact ⟨1, rfl⟩

/-- Settles O47: the entry is taken, with or without a record, or the context is killed. -/
theorem trapEntry : Obligations.TrapEntry := by
  intro e c t pc ret cause i0 i1 i2 i3 th vec entered refused taken
  refine ⟨?plain, ?recorded, ?killed⟩
  case plain =>
    intro hlevel haccepts hun hmis
    have h := enterTrap_taken ret cause i0 i1 i2 i3 hlevel haccepts
    rw [recordSource_eq_none hun hmis] at h
    exact h
  case recorded =>
    intro hlevel haccepts hcause
    have h := enterTrap_taken ret cause i0 i1 i2 i3 hlevel haccepts
    obtain ⟨k, hk⟩ := recordSource_of_recorded hcause
    rw [hk] at h
    exact ⟨_, rfl, rfl, rfl, h⟩
  case killed =>
    intro hkills
    by_cases hlevel : (c.thread t).level = .firmware
    · exact ⟨_, rfl, rfl, enterTrap_firmware ret cause i0 i1 i2 i3 hlevel⟩
    · exact ⟨_, rfl, rfl, enterTrap_refused ret cause i0 i1 i2 i3 hlevel (hkills.resolve_left hlevel)⟩

end Sys2Proof.Machine
end

section
/-! The words of the press, of plates and of tiles (O36 to O38; 15 R324 to R350): what entering a queue leaves in the tables, the checks of a
plate's entry, and a plate at rest. -/

namespace Sys2Proof.Machine

/-! Counted entries and handles. -/

section
variable (c : Chip) (t id : Nat)

theorem reg_countTile (u k : Nat) : (c.countTile t id).reg u k = c.reg u k := by
  by_cases h : u = t
  · subst h
    simp [Chip.reg, Chip.countTile]
  · simp [Chip.reg, Chip.countTile, Chip.thread_setThread, h]

/-- Counting an entry for each of some threads changes no table but that of the threads. -/
theorem countTiles_keeps {β : Type} (part : Chip → β) (hpart : ∀ (c : Chip) t x, part (c.setThread t x) = part c) (takers : List Nat) :
    part (takers.foldl (fun c t => c.countTile t id) c) = part c :=
  foldl_keeps part (fun c t => hpart c t _) takers c

end

/-! The press queue (15 R322, R324). -/

section
variable (m : Chip) (takers : List Nat) (q : PressEntry)

theorem enterPress_press : Sparse.find? (m.enterPress takers q).2.press (m.enterPress takers q).1 = some q := by
  have h := countTiles_keeps (m.fresh.2.setPress m.nextId q) m.nextId Chip.press (fun _ _ _ => rfl) takers
  exact (congrArg (Sparse.find? · m.nextId) h).trans (Sparse.find?_set_same _ _ _)

theorem enterPress_coreOf (t : Nat) : (m.enterPress takers q).2.coreOf t = m.coreOf t :=
  countTiles_keeps (m.fresh.2.setPress m.nextId q) m.nextId (fun c => c.coreOf t) (fun _ _ _ => rfl) takers

end

/-- An entry of the queue given its handle. -/
def Chip.linkPress (c : Chip) (id h : Nat) : Chip :=
  match Sparse.find? c.press id with
  | some q => c.setPress id { q with handle := some h }
  | none => c

/-- Publications consumed by the issue that joins them (15 R329). -/
def Chip.consumePubs (c : Chip) (pubs : List Nat) : Chip :=
  { c with pubs := Sparse.mapVals (fun k p => if pubs.contains k then { p with consumed := true } else p) c.pubs }

section
variable {c : Chip} {id : Nat} (h : Nat)

theorem linkPress_handles (c : Chip) (id : Nat) : (c.linkPress id h).handles = c.handles := by
  unfold Chip.linkPress
  split <;> rfl

theorem linkPress_press {q : PressEntry} (hq : Sparse.find? c.press id = some q) :
    Sparse.find? (c.linkPress id h).press id = some { q with handle := some h } := by
  simp only [Chip.linkPress, hq, Chip.setPress_press, Sparse.find?_set_same]

end

/-! MX.ISSUE (15 R324). -/

section
variable (d a : BitVec 7)

/-- The entry of an issue: its block is copied, and a quad issue takes the publications of its groups. -/
def issueEntry (e : State) (l : Nat) (m : Chip) : PressEntry :=
  let b := blockAt e.now (m.teamOf l) (e.now.v l a.toNat).toNat
  { newEntry e m l .issue with block := b, off := (e.now.v l a.toNat).toNat, pubs := if blkQuad b then quadPubs m (m.teamOf l) b else [] }

/-- An issue: its entry joins the queue, and each register that receives the result holds its handle. -/
def mxIssueEffect (e : State) (l : Nat) (takers : List Nat) (m : Chip) : Chip :=
  let o := m.enterPress takers (issueEntry a e l m)
  let n := o.2.newHandle (o.2.coreOf l) (.press o.1)
  takers.foldl (fun m t => m.setReg t d.toNat (handleReg n.1)) ((n.2.linkPress o.1 n.1).consumePubs (issueEntry a e l m).pubs)

theorem does_mxIssue (c : Bool) : Does (.mxIssue c d a) c (fun e l => ∀ slot, issueVerdict (.mxIssue c d a) a.toNat e l slot = none)
    (groupOnce (mxIssueEffect d a)) :=
  does_of_check (exec_mxIssue c d a) rfl (fun _ _ slot h => h slot) rfl

/-- What an issue with one taker leaves: the register holds the handle of the entry, which stands in the queue with its copy of the block. -/
theorem mxIssueEffect_alone (e : State) (l : Nat) (m : Chip) : ∃ id h, (mxIssueEffect d a e l [l] m).reg l d.toNat = handleReg h ∧
    Sparse.find? (mxIssueEffect d a e l [l] m).handles h = some { core := m.coreOf l, of := .press id } ∧
    Sparse.find? (mxIssueEffect d a e l [l] m).press id = some { issueEntry a e l m with handle := some h } := by
  have hentry := enterPress_press m [l] (issueEntry a e l m)
  have hcore := enterPress_coreOf m [l] (issueEntry a e l m) l
  unfold mxIssueEffect
  dsimp only
  generalize m.enterPress [l] (issueEntry a e l m) = o at hentry hcore ⊢
  refine ⟨o.1, (o.2.newHandle (o.2.coreOf l) (.press o.1)).1, ?register, ?handle, ?entry⟩
  case register => exact (Chip.reg_setReg _ _ _ _ _ _).trans (if_pos ⟨rfl, rfl⟩)
  case handle =>
    rw [← hcore]
    exact (congrArg (Sparse.find? · _) (linkPress_handles _ _ _)).trans (Sparse.find?_set_same _ _ _)
  case entry => exact linkPress_press _ hentry

end

/-! MX.READY (15 R329). -/

/-- The registers of the tiles that a publication names, in a thread. -/
def readyRegs (a : BitVec 4) (q : BitVec 1) (e : State) (t : Nat) : List Reg := (List.range (8 * readyTiles q)).map (fun j => e.now.reg t (8 * a.toNat + j))

/-- A publication that the threads join: a range other than the one it began with leaves it one that no issue matches. -/
def Publication.join (p : Publication) (a : BitVec 4) (q : BitVec 1) (e : State) (t h : Nat) (takers : List Nat) : Publication :=
  { p with
    count := if p.first = a.toNat ∧ p.count = readyTiles q then readyTiles q else 0
    lanes := (p.lanes ++ takers.map laneOf).dedup
    tags := takers.foldl (fun x y => Sparse.set x (laneOf y) ((readyRegs a q e y).map (·.tag))) p.tags
    vals := takers.foldl (fun x y => Sparse.set x (laneOf y) ((readyRegs a q e y).map (·.bits))) p.vals
    handles := Sparse.set p.handles h (laneOf t) }

/-- The publication that a group has open, or a new one that begins with these tiles. -/
def Chip.beginPub (m : Chip) (a : BitVec 4) (q : BitVec 1) (e : State) (t : Nat) : Nat × Publication × Chip :=
  match m.openPub (groupOf t) with
  | some (id, p) => (id, p, m)
  | none => (m.nextId, { group := groupOf t, first := a.toNat, count := readyTiles q, level := (e.now.thread t).level }, m.fresh.2)

theorem beginPub_coreOf (m : Chip) (a : BitVec 4) (q : BitVec 1) (e : State) (t : Nat) : (m.beginPub a q e t).2.2.coreOf t = m.coreOf t := by
  unfold Chip.beginPub
  split <;> rfl

/-- MX.READY: the group's publication with the thread's tiles, and a counted handle of it in the threads that receive one. -/
def mxReadyEffect (d : BitVec 7) (a : BitVec 4) (q : BitVec 1) (e : State) (t : Nat) (takers : List Nat) (m : Chip) : Chip :=
  let b := m.beginPub a q e t
  let n := b.2.2.newHandle (b.2.2.coreOf t) (.publication b.1 (laneOf t))
  takers.foldl (fun m x => (m.setReg x d.toNat (handleReg n.1)).countTile x n.1) (n.2.setPub b.1 (b.2.1.join a q e t n.1 takers))

theorem does_mxReady (c : Bool) (d : BitVec 7) (a : BitVec 4) (q : BitVec 1) : Does (.mxReady c d a q) c always (once false (mxReadyEffect d a q)) := by
  refine does_of_noCheck (exec_mxReady c d a q) rfl (once_congr fun e t takers m => ?_)
  unfold mxReadyEffect Chip.beginPub
  cases hopen : m.openPub (groupOf t) <;> simp only [hopen, Publication.join] <;> rfl

/-- A thread alone that begins a publication leaves its own tiles in it. -/
theorem join_begun (a : BitVec 4) (q : BitVec 1) (e : State) (t h : Nat) (m : Chip) (hnone : m.openPub (groupOf t) = none) :
    (m.beginPub a q e t).2.1.join a q e t h [t] = {
      group := groupOf t, first := a.toNat, count := readyTiles q, level := (e.now.thread t).level, lanes := [laneOf t],
      tags := [(laneOf t, (List.range (8 * readyTiles q)).map (fun j => (e.now.reg t (8 * a.toNat + j)).tag))],
      vals := [(laneOf t, (List.range (8 * readyTiles q)).map (fun j => (e.now.reg t (8 * a.toNat + j)).bits))],
      handles := [(h, laneOf t)], consumed := false } := by
  simp only [Chip.beginPub, hnone, Publication.join, and_self, if_true, List.foldl_cons, List.foldl_nil, readyRegs, List.map_map, List.map_cons,
    List.map_nil, List.nil_append]
  rfl

/-- What MX.READY of a thread alone leaves: its register holds a handle of the publication, which counts its lane. -/
theorem mxReadyEffect_alone (d : BitVec 7) (a : BitVec 4) (q : BitVec 1) (e : State) (t : Nat) (m : Chip) : ∃ h,
    (mxReadyEffect d a q e t [t] m).reg t d.toNat = handleReg h ∧
    Sparse.find? (mxReadyEffect d a q e t [t] m).handles h = some { core := m.coreOf t, of := .publication (m.beginPub a q e t).1 (laneOf t) } ∧
    Sparse.find? (mxReadyEffect d a q e t [t] m).pubs (m.beginPub a q e t).1 = some ((m.beginPub a q e t).2.1.join a q e t h [t]) := by
  have hcore := beginPub_coreOf m a q e t
  unfold mxReadyEffect
  dsimp only [List.foldl_cons, List.foldl_nil]
  generalize m.beginPub a q e t = b at hcore ⊢
  refine ⟨(b.2.2.newHandle (b.2.2.coreOf t) (.publication b.1 (laneOf t))).1, ?register, ?handle, Sparse.find?_set_same _ _ _⟩
  case register => exact (reg_countTile _ _ _ _ _).trans ((Chip.reg_setReg _ _ _ _ _ _).trans (if_pos ⟨rfl, rfl⟩))
  case handle =>
    rw [← hcore]
    exact Sparse.find?_set_same _ _ _

/-- Settles O36: an issue and a publication by what they leave in the tables, MX.QUIESCE by the entries that hold it. -/
theorem pressWords : Obligations.PressWords := by
  intro c d a ra q
  refine ⟨⟨_, does_mxIssue d a c, fun e l m => ?issue⟩, ?misaligned, ⟨_, does_mxReady c d ra q, fun e t m => ?ready⟩,
    does_of_noCheck (exec_mxCancel c) rfl rfl, does_of_noCheck (exec_mxQuiesce c) rfl rfl, fun e t => ?holds⟩
  case issue =>
    obtain ⟨id, h, hregister, hhandle, hentry⟩ := mxIssueEffect_alone d a e l m
    exact ⟨id, h, hregister, hhandle, _, hentry, rfl, rfl, rfl, rfl, rfl, rfl⟩
  case misaligned =>
    refine fails_of_runWord (exec_mxIssue c d a) rfl fun e l slot h => ?_
    have hbad : (decide ((e.now.v l a.toNat).toNat % 64 ≠ 0) || (e.now.team (e.now.teamOf l)).badRange (e.now.v l a.toNat).toNat 64) = true := by
      simp [h]
    exact (if_pos hbad).trans (by rw [BitVec.ofNat_toNat, BitVec.setWidth_eq])
  case ready =>
    obtain ⟨h, hregister, hhandle, hpub⟩ := mxReadyEffect_alone d ra q e t m
    exact ⟨_, h, _, hregister, hhandle, hpub, List.mem_dedup.mpr (List.mem_append_right _ List.mem_cons_self), join_begun ra q e t h m⟩
  case holds => simp [blocked, Chip.unquiet]

end Sys2Proof.Machine
end

section
/-! The words of plates (O37; 15 R334, R343, R344, R346, R347): the checks of a plate's number and owner, and each word by its check and its
effect. -/

namespace Sys2Proof.Machine

/-- Two effects made once for each group are one where their functions are. -/
theorem groupOnce_congr {f g : State → Nat → List Nat → Chip → Chip} (h : ∀ e t takers m, f e t takers m = g e t takers m) : groupOnce f = groupOnce g := by
  obtain rfl : f = g := funext fun e => funext fun t => funext fun takers => funext (h e t takers)
  rfl

/-- The number of a plate that a word names in its register. -/
def plateNo (a : BitVec 7) (e : State) (t : Nat) : Nat := (e.now.v t a.toNat).toNat

/-- The plate is one of the team's (15 R334). -/
def HasPlate (a : BitVec 7) (e : State) (t : Nat) : Prop := plateNo a e t < (e.now.team (e.now.teamOf t)).plates

/-- Its tag is the team's own at the thread's level (15 R334). -/
def OwnsPlate (a : BitVec 7) (e : State) (t : Nat) : Prop := e.now.plateValid (e.now.teamOf t) (plateNo a e t) (e.now.thread t).level = true

/-- The check of a word that names a plate of the team, and of one that names a plate its level owns. -/
def rangeCheck (a : BitVec 7) : Check := fun e t slot => plateRange e.now (e.now.teamOf t) slot (plateNo a e t)

def ownerCheck (a : BitVec 7) : Check := fun e t slot => plateOf e.now t slot (plateNo a e t)

/-- The trap of a number at or above the team's plates, and of a plate that is not owned. -/
def rangeTrap (a : BitVec 7) (e : State) (t slot : Nat) : Verdict := trapAt slot causePlateRange 0 (BitVec.ofNat 32 (plateNo a e t)) 0

section
variable {a : BitVec 7} {e : State} {t : Nat} (slot : Nat)

theorem rangeCheck_none (h : HasPlate a e t) : rangeCheck a e t slot = none := if_neg (Nat.not_le.mpr h)

theorem rangeCheck_of_beyond (h : ¬ HasPlate a e t) : rangeCheck a e t slot = some (rangeTrap a e t slot) := if_pos (Nat.not_lt.mp h)

theorem ownerCheck_of_beyond (h : ¬ HasPlate a e t) : ownerCheck a e t slot = some (rangeTrap a e t slot) :=
  congrArg (Option.orElse · _) (rangeCheck_of_beyond slot h)

/-- The owner is checked of a plate of the team. -/
theorem ownerCheck_of_plate (h : HasPlate a e t) : ownerCheck a e t slot =
    if e.now.plateValid (e.now.teamOf t) (plateNo a e t) (e.now.thread t).level = true then none
    else some (plateFault e.now (e.now.teamOf t) slot 1 (plateNo a e t)) := by
  have hrange := rangeCheck_none slot h
  simp only [rangeCheck] at hrange
  simp only [ownerCheck, plateOf, hrange, Option.orElse_none]

theorem ownerCheck_none (h : HasPlate a e t ∧ OwnsPlate a e t) : ownerCheck a e t slot = none :=
  (ownerCheck_of_plate slot h.1).trans (if_pos h.2)

theorem ownerCheck_of_unowned (h : HasPlate a e t) (hown : ¬ (HasPlate a e t ∧ OwnsPlate a e t)) :
    ownerCheck a e t slot = some (plateFault e.now (e.now.teamOf t) slot 1 (plateNo a e t)) :=
  (ownerCheck_of_plate slot h).trans (if_neg fun hvalid => hown ⟨h, hvalid⟩)

end

/-! Words that enter the queue (15 R343, R347). -/

section
variable {i : Instr} {c : Bool} {a : BitVec 7} {make : State → Chip → Nat → PressEntry}

/-- The entry that a queued word makes, naming its plate. -/
def queuedEffect (a : BitVec 7) (make : State → Chip → Nat → PressEntry) : Act :=
  groupOnce (fun e t takers m => (m.enterPress takers { make e m t with plate := plateNo a e t }).2)

/-- A queued word with no check but its plate's enters the queue where its level owns the plate; else it traps for the number, or for the owner. -/
theorem queuedWord_spec (he : ∀ s, exec i s = queuedWord i a.toNat noCheck make s) (hc : (opInfo i).c = c) :
    Does i c (fun e t => HasPlate a e t ∧ OwnsPlate a e t) (queuedEffect a make) ∧
    Fails i c (fun e t => ¬ HasPlate a e t) (rangeTrap a) ∧
    Fails i c (fun e t => HasPlate a e t ∧ ¬ (HasPlate a e t ∧ OwnsPlate a e t))
      (fun e t slot => plateFault e.now (e.now.teamOf t) slot 1 (plateNo a e t)) := by
  have hword : ∀ s, exec i s = runWord i (ownerCheck a) (queuedEffect a make) s := he
  exact ⟨does_of_runWord hword hc fun _ _ slot => ownerCheck_none slot, fails_of_runWord hword hc fun _ _ slot => ownerCheck_of_beyond slot,
    fails_of_runWord hword hc fun _ _ slot ⟨hplate, hown⟩ => ownerCheck_of_unowned slot hplate hown⟩

/-- A queued word between a plate and memory, at an address that may be reached. -/
theorem does_plateMemory {kind : PressKind} {b : BitVec 6} {int write : Bool} (he : ∀ s, exec i s = plateMemory i kind a.toNat b.toNat int write s)
    (hc : (opInfo i).c = c) :
    Does i c (fun e t => Reachable e t (e.now.vv t (2 * b.toNat)) 4096 write ∧ HasPlate a e t ∧ OwnsPlate a e t)
      (groupOnce (fun e t takers m =>
        let ea := e.now.vv t (2 * b.toNat)
        let q := platePlace e m t ea write
        let m := if write = true ∧ (q.2.team (q.2.teamOf t)).rollback = true then commitNow e q.2 (q.2.teamOf t) else q.2
        (m.enterPress takers { newEntry e m t kind with plate := plateNo a e t, int := int, addr := ea.toNat, phys := q.1 }).2)) := by
  refine does_of_check he hc (fun e t slot ⟨hreach, hown⟩ => ?check) (groupOnce_congr fun e t takers m => ?effect)
  case check =>
    simp only [plateAddress, globalVerdict_none hreach, Option.orElse_none]
    exact ownerCheck_none slot hown
  case effect =>
    simp only [Bool.and_eq_true]
    rfl

end

/-! Owner tags and spill slots (15 R346). -/

/-- The level at which a team's own entry owns the plate it is connected to. -/
def Chip.ownLevel (m : Chip) (team n : Nat) : Option Nat :=
  match (m.plateOfTeam team n).owner with
  | some o => if o.team = team ∧ o.entry = n then some o.level.code else none
  | none => none

theorem ownLevel_of_owner {m : Chip} {team n : Nat} {o : PlateOwner} (h : (m.plateOfTeam team n).owner = some o) (hown : o.team = team ∧ o.entry = n) :
    m.ownLevel team n = some o.level.code := by
  simp only [Chip.ownLevel, h, hown, and_self, if_true]

/-- The check of PL.RST: the plate is one that the team's own entry owns. -/
def restoreCheck (a : BitVec 7) : Check := fun e t slot => (rangeCheck a e t slot).orElse fun _ =>
  if (e.now.ownLevel (e.now.teamOf t) (plateNo a e t)).isNone then some (plateFault e.now (e.now.teamOf t) slot 1 (plateNo a e t)) else none

/-- The check of PL.CLAIM: a plate that is owned has the tag it asks for. -/
def claimCheck (a : BitVec 7) (lvl : Level) : Check := fun e t slot => (rangeCheck a e t slot).orElse fun _ =>
  match (e.now.plateOfTeam (e.now.teamOf t) (plateNo a e t)).owner with
  | none => none
  | some o => if o = e.now.tagOf (e.now.teamOf t) (plateNo a e t) lvl then none else some (plateFault e.now (e.now.teamOf t) slot 2 (plateNo a e t))

section
variable {a : BitVec 7} {e : State} {t : Nat} (slot : Nat) (hplate : HasPlate a e t)
include hplate

theorem restoreCheck_none {o : PlateOwner} (ho : (e.now.plateOfTeam (e.now.teamOf t) (plateNo a e t)).owner = some o)
    (hown : o.team = e.now.teamOf t ∧ o.entry = plateNo a e t) : restoreCheck a e t slot = none := by
  simp [restoreCheck, rangeCheck_none slot hplate, ownLevel_of_owner ho hown]

theorem claimCheck_none {lvl : Level} (htag : ∀ o, (e.now.plateOfTeam (e.now.teamOf t) (plateNo a e t)).owner = some o →
    o = e.now.tagOf (e.now.teamOf t) (plateNo a e t) lvl) : claimCheck a lvl e t slot = none := by
  simp only [claimCheck, rangeCheck_none slot hplate, Option.orElse_none]
  split
  · rfl
  · exact if_pos (htag _ ‹_›)

end

/-- PL.RST reads back what the slot of that level holds, where it holds the entry. -/
def plRstEffect (a : BitVec 7) (e : State) (t : Nat) (_ : List Nat) (m : Chip) : Chip :=
  match m.ownLevel (m.teamOf t) (plateNo a e t) with
  | some l => if (m.team (m.teamOf t)).spilled.contains (spillKey l (plateNo a e t)) then restorePlate e m (m.teamOf t) (plateNo a e t) l else m
  | none => m

/-- The level that PL.CLAIM names. -/
def claimLevel (l : BitVec 1) : Level := if l = 1 then .supervisor else .user

/-- Settles O37: the queued words by `queuedWord` and `plateMemory`, the others by the check of their plate's number and tag. -/
theorem plateWords : Obligations.PlateWords := by
  intro c a v b f l num mine owned enters moved
  obtain ⟨hzero, hzeroRange, hzeroOwner⟩ := queuedWord_spec (exec_plZero c a f) rfl
  obtain ⟨hfree, hfreeRange, hfreeOwner⟩ := queuedWord_spec (exec_plFree c a) rfl
  obtain ⟨hscale, hscaleRange, hscaleOwner⟩ := queuedWord_spec (exec_plScale c a v) rfl
  refine ⟨hzero, hfree, hscale, does_plateMemory (exec_plLd c f a b) rfl, does_plateMemory (exec_plSt c a b) rfl, ?claim, ?save,
    ⟨plRstEffect a, ?rst, ?restores⟩, ?range, ?owner⟩
  case claim => exact does_of_check (check := claimCheck a (claimLevel l)) (exec_plClaim c a l) rfl (fun _ _ slot ⟨hmine, htag⟩ => claimCheck_none slot hmine htag) rfl
  case save => exact does_of_check (exec_plSave c a) rfl (fun _ _ slot => rangeCheck_none slot) rfl
  case rst =>
    exact does_of_check (check := restoreCheck a) (exec_plRst c a) rfl (fun _ _ slot ⟨hmine, _, ho, hown⟩ => restoreCheck_none slot hmine ho hown) rfl
  case restores =>
    intro e t takers m o ho hteam hentry
    simp only [plRstEffect, plateNo, ownLevel_of_owner ho ⟨hteam, hentry⟩, List.contains_iff_mem, num]
  case range =>
    intro i hi
    simp only [List.mem_cons, List.not_mem_nil, or_false] at hi
    rcases hi with rfl | rfl | rfl | rfl | rfl | rfl
    · exact hzeroRange
    · exact hfreeRange
    · exact hscaleRange
    · exact fails_of_runWord (exec_plClaim c a l) rfl fun e t slot h => congrArg (Option.orElse · _) (rangeCheck_of_beyond slot h)
    · exact fails_of_runWord (exec_plSave c a) rfl fun e t slot h => rangeCheck_of_beyond slot h
    · exact fails_of_runWord (exec_plRst c a) rfl fun e t slot h => congrArg (Option.orElse · _) (rangeCheck_of_beyond slot h)
  case owner =>
    intro i hi
    simp only [List.mem_cons, List.not_mem_nil, or_false] at hi
    rcases hi with rfl | rfl | rfl
    · exact hzeroOwner
    · exact hfreeOwner
    · exact hscaleOwner

end Sys2Proof.Machine
end

section
/-! The words of tiles (O38; 15 R347, R349, R350): a plate at rest, which an access leaves as it is but for the note of its use, and the moves
between a tile and team-local memory. -/

namespace Sys2Proof.Machine

/-! A plate of a team (15 R334, R344). -/

/-- No unresolved entry names the plate, and none has left it unconsumed. -/
def Chip.PlateQuiet (m : Chip) (team n : Nat) : Prop :=
  (∀ p ∈ m.press, p.2.team = team → n ∉ p.2.plates) ∧ (m.plateOfTeam team n).left = none

section
variable (m : Chip) (team n : Nat)

theorem disturb_of_quiet (h : m.PlateQuiet team n) : m.disturb team n = m := by
  obtain ⟨hunnamed, hleft⟩ := h
  have hhit : m.press.any (fun p => decide (p.2.team = team) && p.2.plates.contains n) = false := by
    simpa using fun id q hq => hunnamed (id, q) hq
  simp only [Chip.disturb, hhit, hleft, Option.isSome_none, Bool.false_eq_true, if_false]

/-- Where the team's entry is connected to a plate, that plate is changed and its use noted. -/
theorem plateOfTeam_onPlate (f : Plate → Plate) : (m.onPlate team n f).plateOfTeam team n = m.plateOfTeam team n ∨
    ∃ u, (m.onPlate team n f).plateOfTeam team n = { f (m.plateOfTeam team n) with used := u } := by
  unfold Chip.onPlate
  rcases hp : m.physical team n with _ | p
  · exact .inl rfl
  · right
    refine ⟨m.stamp, ?_⟩
    have hconnected : (m.setPlate (m.coreOfTeam team) p { f (m.plate (m.coreOfTeam team) p) with used := m.stamp }).physical team n = some p := hp
    simp only [Chip.plateOfTeam, hconnected, hp]
    show (Chip.plate _ (m.coreOfTeam team) p) = _
    rw [Chip.plate, Chip.setPlate, Chip.core_setCore, if_pos rfl, Sparse.get_set_same]

/-- A plate that is read is left as it was but for the note of its use. -/
theorem plateOfTeam_used : ∃ u, (m.onPlate team n id).plateOfTeam team n = { m.plateOfTeam team n with used := u } := by
  rcases plateOfTeam_onPlate m team n id with h | h
  · exact ⟨_, h⟩
  · exact h

theorem onPlate_press (f : Plate → Plate) : (m.onPlate team n f).press = m.press := by
  unfold Chip.onPlate
  split <;> rfl

theorem onPlate_laneBit (f : Plate → Plate) (t : Nat) : (m.onPlate team n f).laneBit t = m.laneBit t := by
  unfold Chip.onPlate
  split <;> rfl

variable {m team n}

/-- A change that keeps what has left a plate keeps it at rest. -/
theorem plateQuiet_onPlate {f : Plate → Plate} (h : m.PlateQuiet team n) (hf : ∀ p, (f p).left = p.left) : (m.onPlate team n f).PlateQuiet team n := by
  obtain ⟨hunnamed, hleft⟩ := h
  refine ⟨by rwa [onPlate_press], ?_⟩
  rcases plateOfTeam_onPlate m team n f with hp | ⟨u, hp⟩
  · rw [hp, hleft]
  · rw [hp]
    exact (hf _).trans hleft

end

/-! PL.RD, PL.WR and TCVT in one thread (15 R347, R350). -/

section
variable (d a : BitVec 7) (k : BitVec 5) (td : BitVec 4) (h sc : BitVec 1) (r : BitVec 2) (f : BitVec 3) (e : State) (m : Chip) (t : Nat)

/-- A plate's element where it holds no poison, else a free value with the poison consumed (21 R454), written to a register. -/
def Chip.takeElement (m : Chip) (e : State) (t n reg : Nat) (poisoned : Bool) (x : Word) (tag : Tag) : Chip :=
  if poisoned then (m.freeValue.2.consume t ((e.issue.map Issue.slot).getD 0) 4 n).writeV t reg (m.freeValue.1.setWidth 32) tag
  else m.writeV t reg x tag

/-- PL.RD. -/
def plRdEffect : Chip :=
  let team := m.teamOf t
  let n := plateNo a e t
  let y := (m.disturb team n).onPlate team n id
  let p := y.plateOfTeam team n
  y.takeElement e t n d.toNat (p.poison.contains (plateIndex y t k)) (Sparse.get 0 p.elems (plateIndex y t k)) (if p.int then tagInt else tagF32)

/-- PL.WR. -/
def plWrEffect : Chip :=
  let team := m.teamOf t
  let n := plateNo a e t
  let j := plateIndex m t k
  (m.onPlate team n (fun p => { p with
    wrote := true, elems := Sparse.set p.elems j (e.now.v t d.toNat), poison := p.poison.filter (· != j) })).disturb team n

/-- TCVT. -/
def tcvtEffect : Chip :=
  let team := m.teamOf t
  let n := plateNo a e t
  let y := (m.disturb team n).onPlate team n id
  let p := y.plateOfTeam team n
  (List.range 8).foldl (fun x j => x.takeElement e t n (8 * td.toNat + j) (tilePoison p (y.laneBit t) f h.toNat j)
    (tileWord p (y.laneBit t) f (modeOf r) (decide (sc = 1)) h.toNat j) (f.setWidth 4 + 2)) y

/-- Words that depend on the row of a thread are those of the row it had at first: writing registers does not move a thread. -/
theorem foldl_writeV_row {row : Nat} (reg : Nat → Nat) (w : Nat → Nat → Word) (tag : Tag) (l : List Nat) (m : Chip) (hrow : m.laneBit t = row) :
    l.foldl (fun x j => x.writeV t (reg j) (w (x.laneBit t) j) tag) m = l.foldl (fun x j => x.writeV t (reg j) (w row j) tag) m := by
  induction l generalizing m with
  | nil => rfl
  | cons j js ih =>
    rw [List.foldl_cons, List.foldl_cons, hrow]
    exact ih _ hrow

section
variable {a e m t} (hquiet : m.PlateQuiet (m.teamOf t) (plateNo a e t))
include hquiet

theorem plRdEffect_of_quiet (hgood : plateIndex m t k ∉ (m.plateOfTeam (m.teamOf t) (plateNo a e t)).poison) :
    plRdEffect d a k e m t = (m.onPlate (m.teamOf t) (plateNo a e t) id).writeV t d.toNat
      (Sparse.get 0 (m.plateOfTeam (m.teamOf t) (plateNo a e t)).elems (plateIndex m t k))
      (if (m.plateOfTeam (m.teamOf t) (plateNo a e t)).int = true then tagInt else tagF32) := by
  obtain ⟨u, hused⟩ := plateOfTeam_used m (m.teamOf t) (plateNo a e t)
  have hindex : plateIndex (m.onPlate (m.teamOf t) (plateNo a e t) id) t k = plateIndex m t k := by
    rw [plateIndex, onPlate_laneBit, plateIndex]
  simp only [plRdEffect, disturb_of_quiet _ _ _ hquiet, hused, hindex, Chip.takeElement, List.contains_iff_mem, hgood, if_false]

theorem plWrEffect_of_quiet : plWrEffect d a k e m t = m.onPlate (m.teamOf t) (plateNo a e t) (fun p => { p with
    wrote := true, elems := Sparse.set p.elems (plateIndex m t k) (e.now.v t d.toNat), poison := p.poison.filter (· != plateIndex m t k) }) :=
  disturb_of_quiet _ _ _ (plateQuiet_onPlate hquiet fun _ => rfl)

theorem tcvtEffect_of_quiet (hgood : (m.plateOfTeam (m.teamOf t) (plateNo a e t)).poison = []) :
    tcvtEffect a td h sc r f e m t = (List.range 8).foldl (fun x j => x.writeV t (8 * td.toNat + j)
      (tileWord (m.plateOfTeam (m.teamOf t) (plateNo a e t)) (m.laneBit t) f (modeOf r) (decide (sc = 1)) h.toNat j) (f.setWidth 4 + 2))
      (m.onPlate (m.teamOf t) (plateNo a e t) id) := by
  obtain ⟨u, hused⟩ := plateOfTeam_used m (m.teamOf t) (plateNo a e t)
  have hclean (row j : Nat) : tilePoison { m.plateOfTeam (m.teamOf t) (plateNo a e t) with used := u } row f h.toNat j = false := by
    simp [tilePoison, hgood]
  simp only [tcvtEffect, disturb_of_quiet _ _ _ hquiet, hused, onPlate_laneBit, Chip.takeElement, hclean, Bool.false_eq_true, if_false]
  rfl

end

end

/-! TLD and TST (15 R349). -/

section
variable (td : BitVec 4) (a : BitVec 7) (f : BitVec 3) (e : State) (t : Nat) (takers : List Nat) (m : Chip)

theorem locVerdict_none {off : Nat} {base : Word} {size : Nat} {write : Bool} (slot : Nat) (h : LocalReachable e t .loc base off size write) :
    locVerdict (e.now.team (e.now.teamOf t)) slot off size write = none :=
  localVerdict_reachable (slot := slot) h

/-- The access of a local read, performed as it is made: its data, and the threads that receive it. -/
theorem localRead_access (team off size space : Nat) (x : Access) :
    ∃ y, Sparse.find? (localRead e m t takers team off size space x).2.accesses (localRead e m t takers team off size space x).1 = some y ∧
      y.stage = .returned ∧ y.dest = x.dest ∧ y.count = x.count ∧ y.takers = takers ∧ y.tag = x.tag ∧ y.result = x.result := by
  unfold localRead
  exact ⟨_, (congrArg (Sparse.find? · _) (congrArg Prod.fst (markPending_tables _ _ _ _ _))).trans (Sparse.find?_set_same _ _ _),
    rfl, rfl, rfl, rfl, rfl, rfl⟩

/-- The access of a tile's eight registers, with 32 bytes of a team's memory. -/
def tileRead (team off : Nat) : Access :=
  { op := .tile, dest := 8 * td.toNat, count := 8, tag := f.setWidth 4 + 2, result := BitVec.ofNat 256 (m.readLocal team off 32) }

/-- TLD: the words of the tile stand returned as one counted access. -/
def tldEffect : Chip :=
  let x := localRead e m t takers (m.teamOf t) (plateNo a e t) 32 0 (tileRead td f m (m.teamOf t) (plateNo a e t))
  takers.foldl (fun m y => m.countTile y x.1) x.2

/-- TST: the bytes are written, and a counted entry that is already over. -/
def tstEffect : Chip :=
  let y := m.writeLocal (m.teamOf t) (plateNo a e t) 32 (regsValue e.now t (8 * td.toNat) 8)
  takers.foldl (fun m x => m.countTile x y.nextId) y.fresh.2

end

/-- Settles O38: each word by its check, and by its effect at a plate at rest or in the tables. -/
theorem tileWords : Obligations.TileWords := by
  intro c d a k td h sc r f num owned quiet
  refine ⟨⟨plRdEffect d a k, ?rd, fun e m t hquiet hgood => plRdEffect_of_quiet d k hquiet hgood⟩,
    ⟨plWrEffect d a k, ?wr, fun e m t hquiet => plWrEffect_of_quiet d k hquiet⟩, ⟨tldEffect td a f, ?tld, fun e t takers m => ?returned⟩,
    ⟨tstEffect td a, ?tst, fun e t takers m => ?written⟩,
    ⟨tcvtEffect a td h sc r f, ?tcvt, ?converted⟩, ?tzero⟩
  case rd => exact does_of_check (check := ownerCheck a) (exec_plRd c d a k) rfl (fun _ _ slot => ownerCheck_none slot) rfl
  case wr => exact does_of_check (check := ownerCheck a) (exec_plWr c d a k) rfl (fun _ _ slot => ownerCheck_none slot) rfl
  case tld => exact does_of_check (exec_tld c td a f) rfl (fun e l slot => locVerdict_none e l slot) rfl
  case returned =>
    obtain ⟨y, hy, hfields⟩ := localRead_access e t takers m (m.teamOf t) (plateNo a e t) 32 0 (tileRead td f m (m.teamOf t) (plateNo a e t))
    exact ⟨_, y, (congrArg (Sparse.find? · _) (countTiles_keeps _ _ Chip.accesses (fun _ _ _ => rfl) takers)).trans hy, hfields⟩
  case tst => exact does_of_check (exec_tst c td a) rfl (fun e l slot => locVerdict_none e l slot) rfl
  case written => exact countTiles_keeps _ _ Chip.teams (fun _ _ _ => rfl) takers
  case tcvt => exact does_of_check (check := ownerCheck a) (exec_tcvt c td a h sc r f) rfl (fun _ _ slot => ownerCheck_none slot) rfl
  case converted =>
    intro e m t p hquiet hgood
    exact (tcvtEffect_of_quiet td h sc r f hquiet hgood).trans (foldl_writeV_row t (fun j => 8 * td.toNat + j)
      (fun row j => tileWord p row f (modeOf r) (decide (sc = 1)) h.toNat j) _ _ _ (onPlate_laneBit _ _ _ _ _)).symm
  case tzero => exact does_of_noCheck (exec_tzero c td f) rfl rfl

end Sys2Proof.Machine
end

section
/-! The words of the plough and of its furrows (O39; 16 R359 to R364): a head entry that is there is given, and taken by QPOP. -/

namespace Sys2Proof.Machine

/-! QPOP and QPEEK (16 R362, R364). -/

section
variable {e : State} {t n : Nat} (slot : Nat)

theorem popVerdict_none (h : (e.now.furrow t n).entries ≠ []) : popVerdict n e t slot = none :=
  if_pos (by simpa using h)

/-- A lane that is empty for good (16 R362). -/
theorem popVerdict_of_empty (h : (e.now.furrow t n).entries = []) (hfault : (e.now.furrow t n).fault = none) :
    popVerdict n e t slot = some (trapAt slot causeAccess 11 (BitVec.ofNat 32 n) 0) := by
  simp only [popVerdict, h, hfault, List.isEmpty_nil, Bool.not_true, Bool.false_eq_true, if_false]

end

section
variable {i : Instr} {c : Bool} {d n : Nat} {keep : Bool}

/-- The head entry of a lane that has one, and that no press operation names: it is written, and leaves the lane unless it is kept. -/
theorem popWord_head (he : ∀ s, exec i s = popWord i d n keep s) : ∃ act : State → Chip → Nat → Chip,
    (∀ s, exec i s = runWord i (popVerdict n) (fun e _ live m => live.foldl (act e) m) s) ∧
    ∀ e m t, (e.now.furrow t n).entries ≠ [] → e.now.furrowNamed (groupOf t) n = false →
      act e m t = (m.onPlough (groupOf t) (fun p => p.setLane n (laneOf t)
        { e.now.furrow t n with entries := (e.now.furrow t n).entries.drop (if keep then 0 else 1) })).writeV t d
          ((e.now.furrow t n).entries.headD 0) tagRaw := by
  refine ⟨_, he, fun e m t hentries hunnamed => ?_⟩
  have hempty : (e.now.furrow t n).entries.isEmpty = false := by simpa using hentries
  simp only [hempty, hunnamed, Bool.false_eq_true, if_false]
  cases keep <;> rfl

/-- A pop gives the head entry of a lane, and fails on one that is empty for good. -/
theorem popWord_spec (he : ∀ s, exec i s = popWord i d n keep s) (hc : (opInfo i).c = c) :
    (∃ act : State → Chip → Nat → Chip,
      Does i c (fun e t => (e.now.furrow t n).entries ≠ []) (fun e _ live m => live.foldl (act e) m) ∧ ∀ e m t,
        (e.now.furrow t n).entries ≠ [] → e.now.furrowNamed (groupOf t) n = false →
        act e m t = (m.onPlough (groupOf t) (fun p => p.setLane n (laneOf t)
          { e.now.furrow t n with entries := (e.now.furrow t n).entries.drop (if keep then 0 else 1) })).writeV t d
            ((e.now.furrow t n).entries.headD 0) tagRaw) ∧
    Fails i c (fun e t => (e.now.furrow t n).entries = [] ∧ (e.now.furrow t n).fault = none)
      (fun _ _ slot => trapAt slot causeAccess 11 (BitVec.ofNat 32 n) 0) := by
  obtain ⟨act, hword, hhead⟩ := popWord_head he
  exact ⟨⟨act, does_of_runWord hword hc fun _ _ slot => popVerdict_none slot, hhead⟩,
    fails_of_runWord hword hc fun _ _ slot ⟨hentries, hfault⟩ => popVerdict_of_empty slot hentries hfault⟩

end

/-- Settles O39: each word is its effect without a check of its own, but QPOP and QPEEK, which are checked for an entry. -/
theorem ploughWords : Obligations.PloughWords := by
  intro c l t z q n a d s b m
  refine ⟨?loop, does_of_noCheck (exec_plwStrm c t z q s b) rfl rfl, does_of_noCheck (exec_plwGo c m) rfl rfl, does_of_noCheck (exec_plwStop c) rfl rfl,
    ?qlen, does_of_noCheck (exec_plwStat c d) rfl rfl, fun p hp => ?pops⟩
  case loop =>
    refine does_of_noCheck (exec_plwLoop c l a) rfl (groupOnce_congr fun e t takers m => ?_)
    simp only [fieldNat, Nat.pow_zero, Nat.div_one]
  case qlen =>
    refine does_of_noCheck (exec_qlen c d n) rfl (perThread_congr fun pre i x y => ?_)
    simp only [Bool.and_eq_true, List.isEmpty_iff]
  case pops =>
    simp only [List.mem_cons, List.not_mem_nil, or_false] at hp
    rcases hp with rfl | rfl
    · exact popWord_spec (exec_qpop c d n) rfl
    · exact popWord_spec (exec_qpeek c d n) rfl

end Sys2Proof.Machine
end

section
/-! The events of errors, of barriers that time out, of the press and of the plough (O59; 13 R292, R293, 15 R330, R344, 16 R364, 21 R450 to
R462): what each does where its condition is met. -/

namespace Sys2Proof.Machine

/-! Waits that time out or join (13 R293, 15 R330, R353). -/

/-- A thread that waits, with those that wait on the same phase or instance, of whom one has waited its TIMEOUT out. -/
def WaitedOut (s : State) (th t : Nat) (r q : WaitRec) : Prop :=
  (s.now.thread th).waitsOn = some r ∧ s.now.earliest (s.now.coWaiters th r) = some (t, q) ∧ q.timeout ≠ 0 ∧ q.timeout ≤ q.waited ∧
    s.now.mayRun (s.now.teamOf th) = true

theorem WaitedOut.past {s : State} {th t : Nat} {r q : WaitRec} (h : WaitedOut s th t r q) :
    ¬ (q.timeout = 0 ∨ q.waited < q.timeout ∨ s.now.mayRun (s.now.teamOf th) = false) := by
  obtain ⟨-, -, hset, hpast, hrun⟩ := h
  rintro (h | h | h)
  · exact hset h
  · exact Nat.not_lt.mpr hpast h
  · exact Bool.false_ne_true (h.symm.trans hrun)

/-- With the quad of the wait not complete, every waiter of the phase raises the time-out, after its one error record. -/
theorem happens_barrierTimeout_raised (th t : Nat) (r q : WaitRec) (kind index arrived expected : Nat) : Happens (.barrierTimeout th)
    (fun s => WaitedOut s th t r q ∧ ¬ (r.kind = .quad ∧ 4 ≤ s.now.joined th r) ∧
      s.now.waitInfo th r (s.now.coWaiters th r) = (kind, index, arrived, expected))
    (fun s => { s with
      now := (s.now.coWaiters th r).foldl (timeoutThread s kind index (min arrived 65535 + 65536 * min expected 65535))
        (errorRecord s s.now (s.now.ctxOf t) (s.now.threadRec t causeTimeout kind 2 (s.now.thread t).pc.toNat 0 0 (BitVec.ofNat 32 (q.slot + 16 * kind))
          (BitVec.ofNat 32 index) (BitVec.ofNat 32 (min arrived 65535 + 65536 * min expected 65535)))) }) := by
  refine happens_of_tables (exec_barrierTimeout th) fun s hown => ?_
  obtain ⟨hwait, hopen, hinfo⟩ := hown
  have hpast := hwait.past
  obtain ⟨hwaits, hearliest, -⟩ := hwait
  simp only [hwaits, hearliest, if_neg hpast, if_neg hopen, hinfo]

/-- A complete quad goes on in spite of the time-out. -/
theorem happens_barrierTimeout_joined (th t : Nat) (r q : WaitRec) : Happens (.barrierTimeout th)
    (fun s => WaitedOut s th t r q ∧ r.kind = .quad ∧ 4 ≤ s.now.joined th r)
    (fun s => { s with now := (s.now.coWaiters th r).foldl (fun c t => c.release t .joined) s.now }) := by
  refine happens_of_tables (exec_barrierTimeout th) fun s hown => ?_
  obtain ⟨hwait, hjoined⟩ := hown
  have hpast := hwait.past
  obtain ⟨hwaits, hearliest, -⟩ := hwait
  simp only [hwaits, hearliest, if_neg hpast, if_pos hjoined]

theorem happens_quadJoin (th : Nat) (r : WaitRec) : Happens (.quadJoin th)
    (fun s => (s.now.thread th).waitsOn = some r ∧ r.kind = .quad ∧ 4 ≤ s.now.joined th r ∧ s.now.mayRun (s.now.teamOf th) = true)
    (fun s => { s with now := (s.now.coWaiters th r).foldl (fun c t => c.release t .joined) s.now }) := by
  refine happens_of_tables (exec_quadJoin th) fun s hown => ?_
  obtain ⟨hwaits, hjoined⟩ := hown
  simp only [hwaits, if_pos hjoined]

/-! The press (15 R331, R344). -/

/-- An entry that is resolved is no longer in its queue. -/
theorem Chip.find?_press_resolvePress (c : Chip) (n : Nat) (q : PressEntry) (status : Nat) :
    Sparse.find? (c.resolvePress n q status).press n = none := by
  unfold Chip.resolvePress
  dsimp only
  cases q.handle <;> exact Sparse.find?_erase_same _ _

theorem leaves_pressEntryResolve (n : Nat) (q : PressEntry) : Leaves (.pressEntryResolve n)
    (fun s => Sparse.find? s.now.press n = some q ∧ (s.now.team q.team).core.isSome = true ∧ (q.ended = true ∨ q.cancel = true ∨ q.fault.isSome = true))
    (fun s t => t = { s with now := s.now.resolvePress n q q.status } ∧ Sparse.find? t.now.press n = none) := by
  refine leaves_of_event (exec_pressEntryResolve n) fun s hown => ?_
  obtain ⟨hfind, hcore, hover⟩ := hown
  have hplaced : (s.now.team q.team).core.isNone = false := by simpa using hcore
  have hleaves : (q.ended || q.cancel || q.fault.isSome) = true := by simpa [or_assoc] using hover
  simp only [hfind, hplaced, hleaves, if_true, Bool.false_eq_true, if_false, true_and]
  exact Chip.find?_press_resolvePress _ _ _ _

/-! Fences of field dies (21 R461). -/

@[simp] theorem Chip.die_setDie_same (c : Chip) (d : Nat) (x : Die) : (c.setDie d x).die d = x := Sparse.get_set_same _ _ _ _

/-- A die that is fenced: its state, with nothing that waits, and no byte of memory or word of the board other than before. -/
theorem fenceDie_of_open {s : State} {d : Nat} (hd : d < 4) (hopen : (s.now.die d).state ≠ .fenced) :
    ((fenceDie s d).now.die d).state = .fenced ∧ ((fenceDie s d).now.die d).fencing = false ∧ (fenceDie s d).mem = s.mem ∧
      (fenceDie s d).board = s.board := by
  have hgo : ¬ (3 < d ∨ (s.now.die d).state = .fenced) := not_or.mpr ⟨by omega, hopen⟩
  simp only [fenceDie, if_neg hgo, Chip.die_setDie_same, and_self]

/-- A condition that fences a die at once, where no host triages it. -/
theorem fenceOrWait_fences {s : State} {d : Nat} (hd : d < 4) (hopen : (s.now.die d).state ≠ .fenced) (hsplit : s.board.split.getLsbD 4 = false) :
    fenceOrWait s d = fenceDie s d := by
  have hgo : ¬ (3 < d ∨ (s.now.die d).state = .fenced) := not_or.mpr ⟨by omega, hopen⟩
  simp only [fenceOrWait, if_neg hgo, hsplit, Bool.false_eq_true, if_false]

/-- A condition whose fence waits for the host (23 R482). -/
theorem fenceOrWait_waits {s : State} {d : Nat} (hd : d < 4) (hopen : (s.now.die d).state ≠ .fenced) (hsplit : s.board.split.getLsbD 4 = true) :
    fenceOrWait s d = { s with now := s.now.setDie d { s.now.die d with fencing := true } } := by
  have hgo : ¬ (3 < d ∨ (s.now.die d).state = .fenced) := not_or.mpr ⟨by omega, hopen⟩
  simp only [fenceOrWait, if_neg hgo, hsplit, if_true]

/-- The two events that ask for a fence. -/
theorem exec_of_fenceEvent {n : Nat} {i : Instr} (hi : i ∈ [Instr.dieFence n, .heartbeatLoss n]) (s : State) :
    exec i s = eventS (fun s => fenceOrWait s n) s := by
  simp only [List.mem_cons, List.not_mem_nil, or_false] at hi
  obtain rfl | rfl := hi
  · rfl
  · rfl

/-! Errors (21 R450 to R460). -/

/-- The error due to a thread outside protected mode is its own alone. -/
theorem Chip.pairOf_of_unguarded {c : Chip} {t : Nat} (h : c.guarded t = false) : c.pairOf t = [t] := by
  simp only [Chip.pairOf, h, Bool.false_eq_true, if_false]

theorem happens_uncorrectable (th : Nat) (d : ErrorDue) : Happens (.uncorrectable th)
    (fun s => (s.now.thread th).due = some d ∧ s.now.mayRun (s.now.teamOf th) = true ∧ s.now.guarded th = false)
    (fun s => poisonTrap s th d.slot d.subcode d.addr (min d.since 256)) := by
  refine happens_of_eventS (exec_uncorrectable th) fun s hown => ?_
  obtain ⟨hdue, hrun, halone⟩ := hown
  simp only [hdue, hrun, Chip.pairOf_of_unguarded halone, Bool.not_true, Bool.false_eq_true, if_false, List.foldl_cons, List.foldl_nil]

/-- Settles O59: each clause is one branch of its event. -/
theorem errorAndPressEvents : Obligations.ErrorAndPressEvents := by
  intro k n th
  refine ⟨?corrected, ?bad, ?register, happens_uncorrectable th, ?rollback, ?fence, ?triage, ?barn, ?standby, fun _ => rfl, ?waits, ?step,
    leaves_pressEntryResolve n, ?plough⟩
  case corrected =>
    refine happens_of_eventS (exec_scrub k n false) fun s hown => ?_
    have harray : ¬ (10 ≤ k ∨ k = 4) := by omega
    simp only [if_neg harray, Bool.false_eq_true, if_false]
  case bad =>
    refine happens_of_eventS (exec_scrub k n true) fun s hown => ?_
    simp only [if_true, if_neg hown]
  case register =>
    intro s hactive
    simp only [scrubBad, if_pos hactive]
    rfl
  case rollback =>
    refine happens_of_eventS (exec_rollback k) fun s hown => ?_
    obtain ⟨hlive, hmode, hcore, hclean, hrolled⟩ := hown
    simp only [hlive, hmode, hcore, hclean, hrolled, decide_true, Bool.not_false, Bool.and_self, if_true]
  case fence =>
    refine fun i hi => ⟨leaves_of_eventS (exec_of_fenceEvent hi) fun s hown => ?_, happens_of_eventS (exec_of_fenceEvent hi) fun s hown => ?_⟩
    · obtain ⟨hn, hopen, hsplit⟩ := hown
      rw [fenceOrWait_fences hn hopen hsplit]
      exact ⟨rfl, fenceDie_of_open hn hopen⟩
    · obtain ⟨hn, hopen, hsplit⟩ := hown
      exact fenceOrWait_waits hn hopen hsplit
  case triage =>
    refine leaves_of_eventS (exec_triageTimeout n) fun s hown => ?_
    obtain ⟨hn, hopen, hwaiting⟩ := hown
    rw [if_pos hwaiting]
    exact ⟨rfl, (fenceDie_of_open hn hopen).1⟩
  case barn => exact happens_of_eventS (exec_barnDieFence n) fun _ _ => rfl
  case standby =>
    refine happens_of_eventS exec_standbyFailure fun s hown => ?_
    obtain ⟨hfenced, hrunning⟩ := hown
    simp [hfenced, hrunning]
  case waits =>
    intro r t q kind index arrived expected
    refine ⟨happens_congr (happens_barrierTimeout_raised th t r q kind index arrived expected) (fun s hown => ?_) fun _ _ => rfl,
      happens_congr (happens_barrierTimeout_joined th t r q) (fun s hown => ?_) fun _ _ => rfl, happens_quadJoin th r⟩
    · obtain ⟨hwaits, hearliest, hset, hpast, hrun, hopen, hinfo⟩ := hown
      exact ⟨⟨hwaits, hearliest, hset, hpast, hrun⟩, hopen, hinfo⟩
    · obtain ⟨hwaits, hearliest, hset, hpast, hrun, hjoined⟩ := hown
      exact ⟨⟨hwaits, hearliest, hset, hpast, hrun⟩, hjoined⟩
  case step => exact happens_of_event (exec_pressTileStep k n) fun s hn => by simp only [if_neg hn]
  case plough =>
    refine happens_of_event (exec_ploughElementRead k n) fun s hown => ?_
    obtain ⟨hresident, hn, hrun⟩ := hown
    simp only [hresident, hn, hrun, decide_true, Bool.and_self, if_true]

end Sys2Proof.Machine
end

section
/-! The events of the links, of power and of stencil slots (O58; 20 R440, R444 to R448, 22 R474, 23 R476 to R483): what each does where its
condition is met. -/

namespace Sys2Proof.Machine

/-! Domain time (20 R447). -/

/-- A port once the master has sent its time-sync flit: unchanged where it carries no traffic. -/
def syncedPort (b : Board) (i : Nat) : Port :=
  if (b.port i).carries then
    (b.port i).send [(flitHeader 0 b.device i (Sparse.get 0 b.sendSeq i) 7 false true, BitVec.ofNat 384 b.dtick)]
  else b.port i

/-- Sending the time-sync flit of one port: the step of TIME_SYNC_SEND. -/
def syncPort (s : State) (i : Nat) : State :=
  if (s.board.port i).carries then
    let h := flitHeader 0 s.board.device i (Sparse.get 0 s.board.sendSeq i) 7 false true
    let t := s.setPort i ((s.board.port i).send [(h, BitVec.ofNat 384 s.board.dtick)])
    { t with board := { t.board with sendSeq := Sparse.set t.board.sendSeq i ((Sparse.get 0 s.board.sendSeq i + 1) % 2 ^ 16) } }
  else s

theorem now_syncPort (s : State) (i : Nat) : (syncPort s i).now = s.now := by
  unfold syncPort
  split
  · rfl
  · rfl

theorem port_syncPort_same (s : State) (i : Nat) : (syncPort s i).board.port i = syncedPort s.board i := by
  unfold syncPort syncedPort
  split
  · exact Sparse.get_set_same _ _ _ _
  · rfl

theorem port_syncPort_other (s : State) {i j : Nat} (h : i ≠ j) : (syncPort s j).board.port i = s.board.port i := by
  unfold syncPort
  split
  · exact Sparse.get_set_other _ _ _ h
  · rfl

/-- What the flit of another port is made of stays as it is. -/
theorem flit_syncPort_other (s : State) {i j : Nat} (h : i ≠ j) :
    (syncPort s j).board.device = s.board.device ∧ (syncPort s j).board.dtick = s.board.dtick ∧
      Sparse.get 0 (syncPort s j).board.sendSeq i = Sparse.get 0 s.board.sendSeq i := by
  unfold syncPort
  split
  · exact ⟨rfl, rfl, Sparse.get_set_other _ _ _ h⟩
  · exact ⟨rfl, rfl, rfl⟩

/-- What a port sends does not depend on what the others have sent. -/
theorem syncedPort_syncPort_other (s : State) {i j : Nat} (h : i ≠ j) : syncedPort (syncPort s j).board i = syncedPort s.board i := by
  obtain ⟨hdevice, hdtick, hseq⟩ := flit_syncPort_other s h
  simp only [syncedPort, port_syncPort_other s h, hdevice, hdtick, hseq]

theorem port_syncPorts_of_not_mem {i : Nat} (s : State) (l : List Nat) (h : i ∉ l) : (l.foldl syncPort s).board.port i = s.board.port i :=
  List.foldlRecOn (motive := fun t => t.board.port i = s.board.port i) l syncPort rfl fun t ht _ hj =>
    (port_syncPort_other t (ne_of_mem_of_not_mem hj h).symm).trans ht

/-- Each port of the list sends its own flit once. -/
theorem port_syncPorts_of_mem {i : Nat} {l : List Nat} (hl : l.Nodup) (h : i ∈ l) (s : State) :
    (l.foldl syncPort s).board.port i = syncedPort s.board i := by
  induction l generalizing s with
  | nil => exact absurd h List.not_mem_nil
  | cons j l ih =>
    obtain ⟨hj, hl⟩ := List.nodup_cons.mp hl
    rw [List.foldl_cons]
    by_cases hij : i = j
    · subst hij
      rw [port_syncPorts_of_not_mem _ _ hj, port_syncPort_same]
    · rw [ih hl (List.mem_of_ne_of_mem hij h), syncedPort_syncPort_other s hij]

/-- The flits of one TIME_SYNC_SEND. -/
def syncPorts (s : State) : State := (List.range 16).foldl syncPort s

theorem now_syncPorts (s : State) : (syncPorts s).now = s.now :=
  List.foldlRecOn (motive := fun t => t.now = s.now) _ syncPort rfl fun t ht i _ => (now_syncPort t i).trans ht

theorem port_syncPorts (s : State) {i : Nat} (h : i < 16) : (syncPorts s).board.port i = syncedPort s.board i :=
  port_syncPorts_of_mem List.nodup_range (List.mem_range.mpr h) s

/-- TIME_SYNC_SEND where the time has come. -/
def sendSync (s : State) : State := { syncPorts s with board := { (syncPorts s).board with sinceSync := 0 } }

theorem now_sendSync (s : State) : (sendSync s).now = s.now := by simp only [sendSync, now_syncPorts]

theorem port_sendSync (s : State) {i : Nat} (h : i < 16) : (sendSync s).board.port i = syncedPort s.board i := by
  rw [← port_syncPorts s h]
  simp only [sendSync, Board.port]

theorem exec_timeSyncSend_ports (s : State) : exec .timeSyncSend s =
    eventS (fun s => if s.board.master ≠ some s.board.device ∨ s.board.sinceSync < 1024 then s else sendSync s) s := by
  rw [exec_timeSyncSend]
  unfold execTimeSyncSend sendSync syncPorts
  generalize List.range 16 = l
  rfl

theorem leaves_timeSyncSend : Leaves .timeSyncSend (fun s => s.board.master = some s.board.device ∧ 1024 ≤ s.board.sinceSync)
    (fun s t => t.board.sinceSync = 0 ∧ t.now = s.now ∧ ∀ i < 16, t.board.port i = syncedPort s.board i) := by
  refine leaves_of_eventS exec_timeSyncSend_ports fun s hown => ?_
  obtain ⟨hmaster, hdue⟩ := hown
  rw [if_neg (not_or.mpr ⟨not_not.mpr hmaster, Nat.not_lt.mpr hdue⟩)]
  exact ⟨rfl, now_sendSync s, fun i hi => port_sendSync s hi⟩

/-! Flits (20 R444 to R446, R448). -/

theorem happens_flitReceive_taken (p : Nat) (h : BitVec 64) (pay : BitVec 384) : Happens (.flitReceive p h pay true)
    (fun s => p < 16 ∧ (s.board.port p).carries = true ∧ flitKind h ≤ 7 ∧ fieldNat h.toNat 60 4 = 0 ∧ flitDst h = s.board.device)
    (fun s => takeFlit s h pay) := by
  refine happens_of_eventS (exec_flitReceive p h pay true) fun s hown => ?_
  obtain ⟨hp, hcarries, hkind, hzero, hdst⟩ := hown
  have hport : ¬ 15 < p := by omega
  have hkind' : ¬ 7 < flitKind h := by omega
  simp [hport, hcarries, hkind', hzero, hdst]

/-- A flit of a reserved kind, with a bit set that must be zero, or of another device is counted and dropped. -/
theorem happens_flitReceive_dropped (p : Nat) (h : BitVec 64) (pay : BitVec 384) : Happens (.flitReceive p h pay true)
    (fun s => p < 16 ∧ (s.board.port p).carries = true ∧ (7 < flitKind h ∨ fieldNat h.toNat 60 4 ≠ 0 ∨ flitDst h ≠ s.board.device))
    (fun s => s.setPort p { s.board.port p with dropped := min 255 ((s.board.port p).dropped + 1) }) := by
  refine happens_of_eventS (exec_flitReceive p h pay true) fun s hown => ?_
  obtain ⟨hp, hcarries, hbad⟩ := hown
  have hport : ¬ 15 < p := by omega
  simp [hport, hcarries, if_pos hbad]

/-- An unordered flow takes each sequence number once. -/
theorem takeFlit_of_seen {s : State} {h : BitVec 64} (pay : BitVec 384) (hloose : flitOrdered h = false)
    (hseen : (Sparse.get {} s.board.flows (flowKey h)).seen.contains (flitSeq h) = true) : takeFlit s h pay = s := by
  simp only [takeFlit, hloose, Bool.false_eq_true, if_false, if_pos hseen]

/-- A message of kind 4 wakes the threads that watch the word it names. -/
theorem actOn_of_wake {s : State} {m : Message} (h : m.kind = 4) : actOn s m = { s with now := s.now.fireGlobal (copyBase m.peer + m.addr) 4 } := by
  simp only [actOn, h]

/-- The flit that is a message of its own. -/
theorem deliverOrdered_of_whole {s : State} {h : BitVec 64} {pay : BitVec 384} {f : Flow} (hf : Sparse.get {} s.board.flows (flowKey h) = f)
    (hlast : flitLast h = true) (hfirst : f.parts = []) :
    deliverOrdered s h pay = actOn { s with board := { s.board with flows := Sparse.set s.board.flows (flowKey h) f } } (messageOf h [pay]) := by
  have hempty : { f with parts := [] } = f := by rw [← hfirst]
  simp only [deliverOrdered, hf, if_pos hlast, hempty, hfirst, List.nil_append]

theorem happens_flitReplay (p : Nat) : Happens (.flitReplay p) (fun s => (s.board.port p).carries = true ∧ (s.board.port p).replay ≠ [])
    (fun s => s.setPort p { s.board.port p with wire := (s.board.port p).wire ++ (s.board.port p).replay.take 1 }.replayed) := by
  refine happens_of_eventS (exec_flitReplay p) fun s hown => ?_
  obtain ⟨hcarries, hsent⟩ := hown
  simp [hcarries, hsent]

/-- The port whose oldest flit is on the line again (20 R448): the eighth replay in a row starts training. -/
theorem Port.replayed_of_lt (p : Port) (h : p.inRow < 7) : { p with wire := p.wire ++ p.replay.take 1 }.replayed =
    { p with wire := p.wire ++ p.replay.take 1, replays := min 65535 (p.replays + 1), inRow := p.inRow + 1 } :=
  if_pos (by simpa using Nat.succ_lt_succ h)

theorem Port.replayed_of_le (p : Port) (h : 7 ≤ p.inRow) : { p with wire := p.wire ++ p.replay.take 1 }.replayed =
    { p with wire := p.wire ++ p.replay.take 1, replays := min 65535 (p.replays + 1), state := .training, lanes := 0, inRow := 0 } :=
  if_neg (by simpa using Nat.succ_le_succ h)

/-! The states of ports (20 R440, R448). -/

/-- The range of port 17 with its expanders found, or with none. -/
def expanded (p bytes : Nat) (s : State) : State := if p = 17 then { s with board := { s.board with expander := bytes } } else s

theorem port_expanded (p bytes i : Nat) (s : State) : (expanded p bytes s).board.port i = s.board.port i := by
  unfold expanded
  split
  · rfl
  · rfl

/-- A width that a port trains to: of the host and the expander port one of three. -/
def widthFits (p n : Nat) : Prop := 16 ≤ p → n = 16 ∨ n = 8 ∨ n = 4

/-- Training that ends at a width the port may take, at full or at a smaller width. -/
theorem happens_trainingSuccess (p n : Nat) (state : PortState)
    (h : (n = fullLanes p ∧ state = .up) ∨ (n ≠ fullLanes p ∧ 0 < n ∧ 2 * n ≤ fullLanes p ∧ state = .degraded)) : Happens (.trainingSuccess p n)
    (fun s => p ≤ 17 ∧ (s.board.port p).state = .training ∧ widthFits p n)
    (fun s => (expanded p (Config.expanderBytes % 2 ^ 46) s).setPort p { s.board.port p with state := state, lanes := n, inRow := 0 }) := by
  refine happens_of_eventS (exec_trainingSuccess p n) fun s hown => ?_
  obtain ⟨hp, htraining, hwidth⟩ := hown
  have hexpands : (p = 17 ∧ (s.board.port p).state = .training ∧ (n = 16 ∨ n = 8 ∨ n = 4)) ↔ p = 17 :=
    ⟨And.left, fun h17 => ⟨h17, htraining, hwidth (by omega)⟩⟩
  have hgo : ¬ (17 < p ∨ (s.board.port p).state ≠ .training ∨ (16 ≤ p ∧ n ≠ 16 ∧ n ≠ 8 ∧ n ≠ 4)) := by
    rintro (hout | hother | ⟨hwide, h16, h8, h4⟩)
    · omega
    · exact hother htraining
    · obtain h | h | h := hwidth hwide
      · exact h16 h
      · exact h8 h
      · exact h4 h
  dsimp only
  rw [if_neg hgo]
  simp only [hexpands]
  obtain ⟨hfull, rfl⟩ | ⟨hpart, hsome, hhalf, rfl⟩ := h
  · rw [if_pos hfull]
    rfl
  · rw [if_neg hpart, if_pos ⟨hsome, hhalf⟩]
    rfl

theorem happens_trainingSuccess_unlisted (p n : Nat) : Happens (.trainingSuccess p n) (fun _ => 16 ≤ p ∧ n ∉ [16, 8, 4]) (fun s => s) := by
  refine happens_of_eventS (exec_trainingSuccess p n) fun s hown => ?_
  obtain ⟨hp, hn⟩ := hown
  simp only [List.mem_cons, List.not_mem_nil, or_false, not_or] at hn
  obtain ⟨h16, h8, h4⟩ := hn
  simp [hp, h16, h8, h4]

theorem happens_trainingTimeout (p : Nat) : Happens (.trainingTimeout p) (fun s => (s.board.port p).state = .training)
    (fun s => (expanded p 0 s).setPort p { s.board.port p with state := .down, lanes := 0 }) :=
  happens_of_eventS (exec_trainingTimeout p) fun _ hown => if_pos hown

theorem happens_trainingRetry (p : Nat) : Happens (.trainingRetry p)
    (fun s => (s.board.port p).state = .down ∧ (p ≠ 16 ∨ 0 ∉ s.board.barnFenced)) (fun s => s.setPort p { s.board.port p with state := .training }) := by
  refine happens_of_eventS (exec_trainingRetry p) fun s hown => if_pos ?_
  obtain ⟨hdown, hfree⟩ := hown
  simpa [hdown, imp_iff_not_or] using hfree

/-! Power (23 R475 to R481). -/

@[simp] theorem Chip.die_setDie_other (c : Chip) {d i : Nat} (x : Die) (h : i ≠ d) : (c.setDie d x).die i = c.die i :=
  Sparse.get_set_other _ _ _ h

/-- A die's share: a parked or fenced die's is its floor. -/
def shareOf (s : State) (d n : Nat) : Nat := if (s.now.die d).state = .parked ∨ (s.now.die d).state = .fenced then Config.dieFloor else n

/-- The shares that REEVE_SHARE gives the four dies. -/
def sharesOf (s : State) (a b c e : Nat) : List Nat := [shareOf s 0 a, shareOf s 1 b, shareOf s 2 c, shareOf s 3 e]

/-- The dies take their shares. -/
def giveShares (l : List Nat) (c : Chip) : Chip := (List.range 4).foldl (fun c d => c.setDie d { c.die d with share := l.getD d 0 }) c

theorem share_giveShares (l : List Nat) (c : Chip) {d : Nat} (h : d < 4) : ((giveShares l c).die d).share = l.getD d 0 := by
  have hrange : List.range 4 = [0, 1, 2, 3] := rfl
  interval_cases d <;> simp [giveShares, hrange]

theorem exec_reeveShare_shares (avg : BitVec 11) (a b c e : Nat) (s : State) : exec (.reeveShare avg a b c e) s = eventS (fun s =>
    if 1024 < (sharesOf s a b c e).sum ∨ s.board.ceiling < avg.toNat then s
    else { s with now := giveShares (sharesOf s a b c e) s.now, board := { s.board with avg := avg, ceiling := s.board.watts } }) s :=
  (exec_reeveShare avg a b c e s).trans rfl

theorem leaves_reeveShare (avg : BitVec 11) (a b c e : Nat) : Leaves (.reeveShare avg a b c e)
    (fun s => shareOf s 0 a + shareOf s 1 b + shareOf s 2 c + shareOf s 3 e ≤ 1024 ∧ avg.toNat ≤ s.board.ceiling)
    (fun s t => t.board = { s.board with avg := avg, ceiling := s.board.watts } ∧ (t.now.die 0).share = shareOf s 0 a ∧
      (t.now.die 1).share = shareOf s 1 b ∧ (t.now.die 2).share = shareOf s 2 c ∧ (t.now.die 3).share = shareOf s 3 e) := by
  refine leaves_of_eventS (exec_reeveShare_shares avg a b c e) fun s hown => ?_
  obtain ⟨hsum, havg⟩ := hown
  have hgo : ¬ (1024 < (sharesOf s a b c e).sum ∨ s.board.ceiling < avg.toNat) := by
    simp only [sharesOf, List.sum_cons, List.sum_nil]
    omega
  rw [if_neg hgo]
  exact ⟨rfl, share_giveShares _ _ (by decide), share_giveShares _ _ (by decide), share_giveShares _ _ (by decide), share_giveShares _ _ (by decide)⟩

/-- The cores of a die whose arrays lose power: empty, the others unchanged. -/
def emptiedCores (ks : List Nat) (c : Chip) : Chip :=
  { c with cores := Sparse.mapVals (fun k (y : Core) => if ks.contains k then { y with l1 := [], plates := [] } else y) c.cores }

theorem core_emptiedCores_of_mem {ks : List Nat} {k : Nat} (c : Chip) (h : k ∈ ks) :
    ((emptiedCores ks c).core k).l1 = [] ∧ ((emptiedCores ks c).core k).plates = [] := by
  simp only [Chip.core, emptiedCores, Sparse.get, Sparse.find?_mapVals]
  cases Sparse.find? c.cores k with
  | none => exact ⟨rfl, rfl⟩
  | some y => simp [h]

theorem core_emptiedCores_of_not_mem {ks : List Nat} {k : Nat} (c : Chip) (h : k ∉ ks) : (emptiedCores ks c).core k = c.core k := by
  simp only [Chip.core, emptiedCores, Sparse.get, Sparse.find?_mapVals]
  cases Sparse.find? c.cores k with
  | none => rfl
  | some y => simp [h]

theorem leaves_wakeComplete (d : Nat) : Leaves (.wakeComplete d) (fun s => (s.now.die d).state = .waking ∧ (s.now.die d).banks = [])
    (fun s t => t.now.die d = { s.now.die d with state := .running } ∧ (∀ k ∈ coresOfDie d, (t.now.core k).l1 = [] ∧ (t.now.core k).plates = []) ∧
      (∀ k, k ∉ coresOfDie d → t.now.core k = s.now.core k) ∧ t.mem = s.mem) := by
  refine leaves_of_event (exec_wakeComplete d) fun s hown => ?_
  obtain ⟨hwaking, hbanks⟩ := hown
  dsimp only
  rw [if_neg (not_or.mpr ⟨not_not.mpr hwaking, not_not.mpr hbanks⟩)]
  exact ⟨Chip.die_setDie_same _ _ _, fun k hk => core_emptiedCores_of_mem s.now hk, fun k hk => core_emptiedCores_of_not_mem s.now hk, rfl⟩

/-! The self-test (23 R482, R483). -/

/-- A self-test that finds failed units ends in the safe state, every die fenced. -/
theorem leaves_powerOnSelfTest_failed {w : BitVec 32} (n : Nat) (hw : w ≠ 0) : Leaves (.powerOnSelfTest w n) (fun _ => True)
    (fun s t => t.board.safe = true ∧ t.board.failedUnits = w ∧ (∀ i < 4, (t.now.die i).state = .fenced) ∧ t.mem = s.mem) := by
  refine leaves_of_eventS (exec_powerOnSelfTest w n) fun s _ => ?_
  dsimp only
  rw [if_neg hw]
  refine ⟨rfl, rfl, fun i hi => ?_, rfl⟩
  have hrange : List.range 4 = [0, 1, 2, 3] := rfl
  interval_cases i <;> simp [hrange]

/-! Stencil slots (22 R474). -/

/-- A load that is under way ends as its checks say. -/
theorem finishLoad_of_passes {s : State} {n : Nat} {v : Option Bool} (hloading : (s.now.slot n).state = .loading)
    (hchecks : checkLoad s n (s.now.slot n) v = .passes) :
    finishLoad s n v = { s with now := s.now.setSlot n (imageSlot s (s.now.slot n).image) } := by
  simp [finishLoad, hloading, hchecks]

theorem finishLoad_of_fails {s : State} {n r : Nat} {v : Option Bool} (hloading : (s.now.slot n).state = .loading)
    (hchecks : checkLoad s n (s.now.slot n) v = .fails r) :
    finishLoad s n v = { s with
      now := loadRecords s (s.now.setSlot n { state := .failed, reason := r, image := (s.now.slot n).image }) n r (imagePatchid s (s.now.slot n).image) } := by
  simp [finishLoad, hloading, hchecks]

theorem happens_patchArmComplete (n : Nat) : Happens (.patchArmComplete n)
    (fun s => (s.now.slot n).state = .loaded ∧ (s.now.slot n).arming = true)
    (fun s => { s with now := (s.now.setSlot n { s.now.slot n with state := .armed, arming := false }).discardAll }) :=
  happens_of_tables (exec_patchArmComplete n) fun _ hown => if_pos hown

theorem happens_drainComplete (n : Nat) : Happens (.drainComplete n)
    (fun s => (s.now.slot n).state = .draining ∧ s.now.slotBusy n = false)
    (fun s => { s with now := s.now.setSlot n { s.now.slot n with state := .loaded } }) :=
  happens_of_tables (exec_drainComplete n) fun _ hown => if_pos hown

/-- Settles O58: each clause is one branch of its event. -/
theorem linkAndPowerEvents : Obligations.LinkAndPowerEvents := by
  intro p d n
  dsimp only
  refine ⟨?syncSend, ?syncReceive, ?syncLoss, fun h pay => ⟨happens_flitReceive_taken p h pay, happens_flitReceive_dropped p h pay, ?spoilt,
      fun s => takeFlit_of_seen pay, fun s m => actOn_of_wake, fun s f => deliverOrdered_of_whole⟩, ?replay, ?replayEnds, ⟨?full, ?part,
      happens_trainingSuccess_unlisted p n, happens_trainingTimeout p⟩, happens_trainingRetry p, ?retrain, leaves_reeveShare, ?pstate, ?park, ?bank,
    leaves_wakeComplete d, ?passed, fun w => leaves_powerOnSelfTest_failed n, ?loaded, ?failed, ?verify, happens_patchArmComplete n,
    happens_drainComplete n⟩
  case syncSend =>
    intro s hs hown
    obtain ⟨t, ht, hsince, hnow, hports⟩ := leaves_timeSyncSend s hs hown
    refine ⟨t, ht, hsince, hnow, fun i hi => ?_⟩
    rw [hports i hi, syncedPort]
    split
    · rfl
    · rfl
  case syncReceive =>
    refine fun v delay => happens_of_eventS (exec_timeSyncReceive v delay) fun s hown => if_neg ?_
    exact not_or.mpr hown
  case syncLoss =>
    refine happens_of_eventS exec_syncLossTimeout fun s hown => if_neg ?_
    exact not_or.mpr ⟨Nat.not_lt.mpr hown.1, hown.2⟩
  case spoilt => exact happens_of_eventS (exec_flitReceive p h pay false) fun s _ => if_pos (.inr (.inr rfl))
  case replay =>
    refine happens_congr (happens_flitReplay p) (fun s hown => ⟨hown.1, hown.2.1⟩) fun s hown => ?_
    exact congrArg (s.setPort p) (Port.replayed_of_lt _ hown.2.2)
  case replayEnds =>
    refine happens_congr (happens_flitReplay p) (fun s hown => ⟨hown.1, hown.2.1⟩) fun s hown => ?_
    exact congrArg (s.setPort p) (Port.replayed_of_le _ hown.2.2)
  case full =>
    intro s hs hown
    obtain ⟨hp, htraining, hfull, hwidth⟩ := hown
    exact happens_trainingSuccess p n .up (.inl ⟨hfull, rfl⟩) s hs ⟨hp, htraining, hwidth⟩
  case part =>
    intro s hs hown
    obtain ⟨hp, htraining, hsome, hhalf, hwidth⟩ := hown
    exact happens_trainingSuccess p n .degraded (.inr ⟨by omega, hsome, hhalf, rfl⟩) s hs ⟨hp, htraining, hwidth⟩
  case retrain => exact happens_of_eventS (exec_linkRetrain p) fun _ hown => if_pos hown
  case pstate =>
    refine fun k => happens_of_tables (exec_pstateTransition d) fun s hown => ?_
    simp only [hown]
  case park => exact happens_of_eventS (exec_parkComplete d) fun _ hown => if_neg (not_not.mpr hown)
  case bank => exact happens_of_tables (exec_bankReady d n) fun _ hown => if_pos hown
  case passed => exact leaves_of_eventS (exec_powerOnSelfTest 0 n) fun _ _ => ⟨rfl, rfl, rfl, rfl⟩
  case loaded => exact happens_of_eventS (exec_patchLoadComplete n) fun _ hown => finishLoad_of_passes hown.1 hown.2
  case failed => exact fun r => happens_of_eventS (exec_patchLoadComplete n) fun _ hown => finishLoad_of_fails hown.1 hown.2
  case verify =>
    refine happens_of_eventS (exec_verifyTimeout n) fun s hown => ?_
    obtain ⟨-, hassisted, hnone⟩ := hown
    simp [hassisted, hnone]

end Sys2Proof.Machine
end

section
/-! The events of the carter, of the page service and of the drover (O56; 14 R303 to R318, 17 R372 to R384, R490): what each does where its
condition is met. -/

namespace Sys2Proof.Machine

/-! The carter sends and performs elements (14 R305, R308). -/

/-- A value found in a table is listed there. -/
theorem Sparse.mem_of_find? {ν : Type} {m : Sparse ν} {k : Nat} {v : ν} (h : Sparse.find? m k = some v) : (k, v) ∈ m := by
  induction m with
  | nil => exact absurd h (by simp [Sparse.find?])
  | cons p m ih =>
    obtain ⟨j, w⟩ := p
    by_cases hj : j = k
    · simp only [Sparse.find?, if_pos hj, Option.some.injEq] at h
      simp [hj, h]
    · simp only [Sparse.find?, if_neg hj] at h
      exact List.mem_cons_of_mem _ (ih h)

/-- A unit's turn at one element of a batch, by their numbers. -/
def sendTurn (e : State) (unit : Nat) (c : Chip) (q : Nat × Nat) : Chip :=
  match Sparse.find? c.batches q.1 with
  | none => c
  | some b => match b.elems[q.2]? with
    | some x => if x.unit = unit && c.maySend b x then sendElem e c q.1 q.2 b x else c
    | none => c

theorem exec_carterTransferUnit_turns (unit : Nat) (s : State) : exec (.carterTransferUnit unit) s =
    event (fun e => (e.now.batches.flatMap (fun p => (List.range p.2.elems.length).map (fun i => (p.1, i)))).foldl (sendTurn e unit) e.now) s :=
  exec_carterTransferUnit unit s

theorem sendTurn_of_mine {e : State} {c : Chip} {b : Batch} {x : Elem} {unit id i : Nat} (hfind : Sparse.find? c.batches id = some b)
    (helem : b.elems[i]? = some x) (hunit : x.unit = unit) (hsend : c.maySend b x = true) : sendTurn e unit c (id, i) = sendElem e c id i b x := by
  simp only [sendTurn, hfind, helem, hunit, hsend, decide_true, Bool.and_self, if_true]

theorem sendTurn_of_other {c : Chip} {unit : Nat} (e : State) (h : ∀ p ∈ c.batches, ∀ y ∈ p.2.elems, y.unit ≠ unit) (q : Nat × Nat) :
    sendTurn e unit c q = c := by
  unfold sendTurn
  split
  · rfl
  · rename_i b hb
    split
    · rename_i x hx
      have hother : x.unit ≠ unit := h _ (Sparse.mem_of_find? hb) x (List.mem_of_getElem? hx)
      simp [hother]
    · rfl

/-- A unit with the only element of the only batch sends it. -/
theorem happens_carterTransferUnit (id unit : Nat) (b : Batch) (x : Elem) : Happens (.carterTransferUnit unit)
    (fun s => s.now.batches = [(id, b)] ∧ b.elems = [x] ∧ x.unit = unit ∧ s.now.maySend b x = true)
    (fun s => { s with now := sendElem s s.now id 0 b x }) := by
  refine happens_of_tables (exec_carterTransferUnit_turns unit) fun s hown => ?_
  obtain ⟨hbatches, helems, hunit, hsend⟩ := hown
  have hturns : s.now.batches.flatMap (fun p => (List.range p.2.elems.length).map (fun i => (p.1, i))) = [(id, 0)] := by
    rw [hbatches, List.flatMap_singleton, helems]
    rfl
  have hfind : Sparse.find? s.now.batches id = some b := by simp [hbatches, Sparse.find?]
  rw [hturns]
  exact sendTurn_of_mine hfind (by rw [helems]; rfl) hunit hsend

/-- A unit that no element is of sends nothing. -/
theorem happens_carterTransferUnit_none (unit : Nat) : Happens (.carterTransferUnit unit)
    (fun s => ∀ p ∈ s.now.batches, ∀ y ∈ p.2.elems, y.unit ≠ unit) (fun s => s) := by
  refine happens_of_event (exec_carterTransferUnit_turns unit) fun s hown => ?_
  rw [List.foldl_fixed' (sendTurn_of_other s hown)]

/-- An element between team-local ends takes its bytes from the source. -/
theorem sendElem_of_local {e : State} {c : Chip} {b : Batch} {x : Elem} {k off k' off' : Nat} (id i : Nat)
    (htarget : targetSpot e c b x = .local_ k' off') (hsource : sourceSpot e c b x = .local_ k off) (hgood : (c.team k).poisonedAt off x.size = false) :
    sendElem e c id i b x =
      c.setBatch id (b.setElem i (fun y => { y with sent := true, data := some (BitVec.ofNat 128 (c.readLocal k off x.size)) })) := by
  simp only [sendElem, htarget, hsource, hgood, Bool.false_eq_true, if_false]

/-- An element whose data is at hand is performed. -/
theorem happens_copyElement (id i : Nat) (b : Batch) (x : Elem) (d : BitVec 128) : Happens (.copyElement id i)
    (fun s => (Sparse.find? s.now.batches id = some b ∧ b.elems[i]? = some x) ∧ x.sent = true ∧ x.done = false ∧ x.data = some d ∧
      (s.now.team (s.now.teamOf b.th)).core.isSome = true)
    (fun s => { s with now := landElem s s.now id i b x d }) := by
  refine happens_of_tables (exec_copyElement id i) fun s hown => ?_
  obtain ⟨⟨hfind, helem⟩, hsent, hopen, hdata, hplaced⟩ := hown
  have hmay : s.now.maySend b x = false := by simp [Chip.maySend, hsent]
  simp only [hfind, helem, hmay, Bool.false_eq_true, if_false, hdata, hopen, hplaced, Bool.not_false, Bool.and_self, if_true]

/-- An element with a team-local destination is written there. -/
theorem landElem_of_local {e : State} {c : Chip} {b : Batch} {x : Elem} {k off id : Nat} (i : Nat) (d : BitVec 128)
    (htarget : targetSpot e c b x = .local_ k off) (hfind : Sparse.find? c.batches id = some b) :
    landElem e c id i b x d =
      ((c.writeLocal k off x.size d.toNat).stampLocal k (c.coreOf b.th)).setBatch id (b.setElem i (fun y => { y with done := true, data := none })) := by
  have hbatches : ((c.writeLocal k off x.size d.toNat).stampLocal k (c.coreOf b.th)).batches = c.batches := rfl
  simp only [landElem, htarget, hbatches, hfind]

/-! A batch resolves (14 R303, R305, R311). -/

/-- A change of every value that leaves the default as it is. -/
theorem Sparse.get_mapVals {ν : Type} {d : ν} {f : Nat → ν → ν} {k : Nat} (h : f k d = d) (m : Sparse ν) :
    Sparse.get d (Sparse.mapVals f m) k = f k (Sparse.get d m k) := by
  simp only [Sparse.get, Sparse.find?_mapVals]
  cases Sparse.find? m k with
  | none => exact h.symm
  | some v => rfl

theorem Chip.thread_resolve (c : Chip) (h : Nat) (status : Word) (t : Nat) : (c.resolve h status).thread t = (c.thread t).resolve h status :=
  Sparse.get_mapVals (f := fun _ (x : Thread) => x.resolve h status) rfl c.threads

/-- A register once a handle has resolved: it holds the status where it referred to the handle. -/
theorem Chip.reg_resolve (c : Chip) (h : Nat) (status : Word) (t r : Nat) : (c.resolve h status).reg t r =
    if (c.reg t r).wait = some (.handle h) then { c.reg t r with bits := status, tag := tagHandle, wait := none } else c.reg t r := by
  rw [Chip.reg, Chip.thread_resolve]
  exact Sparse.get_mapVals (f := fun _ (q : Reg) => if q.wait = some (.handle h) then { q with bits := status, tag := tagHandle, wait := none } else q)
    rfl (c.thread t).regs

theorem reg_of_program {c d : Chip} (h : d.program = c.program) (t r : Nat) : d.reg t r = c.reg t r := by
  have hthread : (d.thread t).seenPart = (c.thread t).seenPart := congrArg (fun p => p.1 t) h
  have hregs : (d.thread t).regs = (c.thread t).regs := congrArg (fun p => p.2.2.1) hthread
  simp only [Chip.reg, hregs]

theorem program_fireLocal (c : Chip) (team off size : Nat) : (c.fireLocal team off size).program = c.program := by
  refine program_mapVals (c := c) (f := ?_) ?_ ?_ ?_
  rotate_left
  · unfold Chip.fireLocal
    dsimp only
    rfl
  · rfl
  · intro i t
    split
    · split
      · rfl
      · rfl
    · rfl

theorem program_writeLocal (c : Chip) (team off size data : Nat) : (c.writeLocal team off size data).program = c.program :=
  (program_fireLocal _ _ _ _).trans rfl

@[simp] theorem program_releaseAt (e : State) (c : Chip) (id : Nat) (a : Access) : (releaseAt e c id a).program = c.program :=
  @Proto.program_releaseAt (answersAt c.depth) (program_answersAt c.depth) e c id a

/-- The release of a batch that resolves. -/
def batchRelease (e : State) (c : Chip) (b : Batch) : Chip :=
  match (c.team (c.teamOf b.th)).core with
  | some k => releaseAt e c c.nextId { th := b.th, core := k, op := .fence, scope := b.scope }
  | none => c

/-- The flag of a batch that resolves. -/
def batchFlag (c : Chip) (b : Batch) : Chip :=
  match b.flag with
  | some (off, v) => if b.status = 0 then c.writeLocal (c.teamOf b.th) off 4 v.toNat else c
  | none => c

theorem program_batchRelease (e : State) (c : Chip) (b : Batch) : (batchRelease e c b).program = c.program := by
  unfold batchRelease
  split
  · exact program_releaseAt _ _ _ _
  · rfl

theorem program_batchFlag (c : Chip) (b : Batch) : (batchFlag c b).program = c.program := by
  unfold batchFlag
  split
  · split
    · exact program_writeLocal _ _ _ _ _
    · rfl
  · rfl

/-- The machine that has released a batch, written its flag, and taken it off the table. -/
def closedBatch (e : State) (c : Chip) (id : Nat) (b : Batch) : Chip :=
  let d := batchFlag (batchRelease e c b) b
  { d with batches := Sparse.erase d.batches id }

theorem reg_closedBatch (e : State) (c : Chip) (id : Nat) (b : Batch) (t r : Nat) : (closedBatch e c id b).reg t r = c.reg t r :=
  reg_of_program (d := closedBatch e c id b) ((program_batchFlag _ b).trans (program_batchRelease e c b)) t r

theorem resolveBatch_eq (e : State) (c : Chip) (id : Nat) (b : Batch) : resolveBatch e c id b =
    b.handle.elim (closedBatch e c id b) (fun h => (closedBatch e c id b).resolve h (BitVec.ofNat 32 b.status)) := by
  unfold resolveBatch
  cases b.handle with
  | none => rfl
  | some h => rfl

/-- The batch is gone, and every register that referred to its handle holds its status. -/
theorem leaves_batchResolve (id : Nat) (b : Batch) : Leaves (.batchResolve id)
    (fun s => Sparse.find? s.now.batches id = some b ∧ b.settled = true ∧ s.now.batchFirst b = true ∧
      (s.now.team (s.now.teamOf b.th)).core.isSome = true)
    (fun s t => Sparse.find? t.now.batches id = none ∧ t.mem = s.mem ∧
      ∀ h, b.handle = some h → ∀ t' r, (s.now.reg t' r).wait = some (.handle h) →
        t.now.reg t' r = { s.now.reg t' r with bits := BitVec.ofNat 32 b.status, tag := tagHandle, wait := none }) := by
  refine leaves_of_event (exec_batchResolve id) fun s hown => ?_
  obtain ⟨hfind, hsettled, hfirst, hplaced⟩ := hown
  simp only [hfind, hsettled, hfirst, hplaced, Bool.and_self, if_true, true_and, resolveBatch_eq]
  constructor
  · cases b.handle with
    | none => exact Sparse.find?_erase_same _ _
    | some h => exact Sparse.find?_erase_same _ _
  · intro h hh t r hwait
    rw [hh, Option.elim_some, Chip.reg_resolve, reg_closedBatch, if_pos hwait]

/-! Elements of saved teams (14 R317, R318). -/

theorem happens_remapWrite (id i : Nat) (b : Batch) (x : Elem) (d : BitVec 128) : Happens (.remapWrite id i)
    (fun s => (Sparse.find? s.now.batches id = some b ∧ b.elems[i]? = some x) ∧ x.done = false ∧ x.data = some d ∧
      s.now.cores.any (fun k => k.2.remap.contains (s.now.teamOf b.th)) = true)
    (fun s =>
      let c := noteLate s (landElem s s.now id i b x d) (s.now.teamOf b.th) b x
      let c := (resolveLate s c.batches.length c b.th).freeRemap (s.now.teamOf b.th)
      { s with now := refreshImage s c (c.ctxOf b.th) }) := by
  refine happens_of_tables (exec_remapWrite id i) fun s hown => ?_
  obtain ⟨⟨hfind, helem⟩, hopen, hdata, hremap⟩ := hown
  simp only [hfind, helem, hdata, hopen, hremap, Bool.not_true, Bool.or_self, Bool.false_eq_true, if_false]

/-- An element that the saved team's time-out has caught is sent again. -/
def undoneElem (y : Elem) : Elem :=
  if (y.sent && !y.done && (decide (y.kind = 0) || decide (y.kind = 3))) = true then { y with sent := false, data := none } else y

theorem happens_remapTimeout (team : Nat) : Happens (.remapTimeout team)
    (fun s => (s.now.team team).core = none ∧ s.now.cores.any (fun k => k.2.remap.contains team) = true)
    (fun s =>
      let c := { s.now with batches := Sparse.mapVals (fun _ (b : Batch) => if s.now.teamOf b.th = team then { b with elems := b.elems.map undoneElem } else b) s.now.batches }
      { s with now := refreshImage s (c.freeRemap team) (s.now.team team).ctx }) := by
  refine happens_of_tables (exec_remapTimeout team) fun s hown => if_neg ?_
  obtain ⟨hsaved, hremap⟩ := hown
  simp only [hsaved, hremap, Option.isSome_none, Bool.not_true, Bool.or_self, Bool.false_eq_true, not_false_eq_true]

/-! Held threads (17 R372, R377, R378). -/

/-- A thread that soft-faults stands at its team's continuation vector, its chain and the page's service recorded. -/
theorem thread_enterSoftFault (c : Chip) (t : Nat) (pc : Addr) (va : Nat) : ∃ h, (enterSoftFault c t pc va).thread t =
    { c.thread t with
      fpc := pc, fhandle := handleReg h, cont := true, held := none, grants := [], patched := none, pc := (c.team (c.teamOf t)).contvec } := by
  unfold enterSoftFault
  dsimp only
  split
  · exact ⟨_, Chip.thread_setThread_same _ _ _⟩
  · exact ⟨_, Chip.thread_setThread_same _ _ _⟩

theorem onlyMoved_leave (c : Chip) (t : Nat) (p : Place) : OnlyMoved c (c.leave t p) := by
  unfold Chip.leave
  dsimp only
  split
  · exact (onlyMoved_setPlace c t p).trans (onlyMoved_passPen _ _ _)
  · exact (onlyMoved_setPlace c t p).trans (onlyMoved_setCroft _ _ _)
  · exact onlyMoved_setPlace c t p

/-- A thread that moves leaves the fold, takes its level and PC, and joins a pen or the fold. -/
theorem moveThread_eq (c : Chip) (t : Nat) (lvl : Level) (pc : Addr) : ∃ d k ctx, OnlyMoved c d ∧
    c.moveThread t lvl pc = (d.setThread t { d.thread t with pc := pc, level := lvl }).move k [t] (c.penOfThread t) ctx lvl pc := by
  unfold Chip.moveThread
  dsimp only
  split
  · exact ⟨_, _, _, onlyMoved_leave c t _, rfl⟩
  · exact ⟨_, _, _, .refl c, rfl⟩

/-- A thread that moves stands at the level and PC, all else of it but its place as before. -/
theorem thread_moveThread (c : Chip) (t : Nat) (lvl : Level) (pc : Addr) :
    { (c.moveThread t lvl pc).thread t with place := .exited } = { c.thread t with place := .exited, pc := pc, level := lvl } := by
  obtain ⟨d, k, ctx, ⟨-, -, hleft⟩, hmove⟩ := moveThread_eq c t lvl pc
  obtain ⟨-, -, hmoved⟩ := onlyMoved_move (d.setThread t { d.thread t with pc := pc, level := lvl }) k [t] (c.penOfThread t) ctx lvl pc
  rw [hmove, hmoved t, Chip.thread_setThread_same]
  exact congrArg (fun x : Thread => { x with pc := pc, level := lvl }) (hleft t)

/-- A held thread whose page's time is up. -/
structure HeldLong (s : State) (th va n : Nat) (w : Word × Nat) : Prop where
  held : (s.now.thread th).held = some (va, n)
  word : (s.now.thread th).heldWord = some w
  late : (s.now.ctx (s.now.ctxOf th)).holdlim ≤ n ∧ heldPage s s.now th = true ∧ s.now.maySoft th = true ∧ s.now.mayRun (s.now.teamOf th) = true

/-- Where the continuation vector lies on a page that is held for fetch (17 R372). -/
def heldVector (s : State) (th : Nat) : Option Nat :=
  targetHeld s s.now (s.now.coreOf th) (s.now.ctxOf th) (s.now.thread th).level (s.now.team (s.now.teamOf th)).contvec

/-- A bad vector traps, and one on a held page lets the thread wait. -/
theorem holdLimit_of_bad (th va n k : Nat) (w : Word × Nat) : Happens (.holdLimitExpiry th)
    (fun s => HeldLong s th va n w ∧ badContinuation s s.now th = some k)
    (fun s =>
      let vec := (s.now.team (s.now.teamOf th)).contvec
      let pc := (s.now.thread th).pc
      { s with now := takeTrap s s.now th pc pc causeChain w.1 (BitVec.ofNat 32 (w.2 + 16 * k)) (vec.extractLsb' 0 32) (vec.extractLsb' 32 32) }) := by
  refine happens_of_tables (exec_holdLimitExpiry th) fun s hown => ?_
  obtain ⟨⟨hheld, hword, hlate⟩, hbad⟩ := hown
  simp only [hheld, hword, if_pos hlate, hbad]

theorem holdLimit_of_away (th va n : Nat) (w : Word × Nat) : Happens (.holdLimitExpiry th)
    (fun s => HeldLong s th va n w ∧ badContinuation s s.now th = none ∧ (heldVector s th).isSome = true) (fun s => s) := by
  refine happens_of_event (exec_holdLimitExpiry th) fun s hown => ?_
  obtain ⟨⟨hheld, hword, hlate⟩, hgood, haway⟩ := hown
  simp only [heldVector] at haway
  simp only [hheld, hword, if_pos hlate, hgood, if_pos haway]

/-- Without a word held, only a fetch is, and it stalls on. -/
theorem holdLimit_of_fetch (th : Nat) : Happens (.holdLimitExpiry th) (fun s => (s.now.thread th).heldWord = none) (fun s => s) := by
  refine happens_of_event (exec_holdLimitExpiry th) fun s hword => ?_
  cases hheld : (s.now.thread th).held with
  | none => simp only [hheld]
  | some h => simp only [hheld, hword]

/-- Else the thread soft-faults. -/
theorem holdLimit_leaves (th va n : Nat) (w : Word × Nat) : Leaves (.holdLimitExpiry th)
    (fun s => HeldLong s th va n w ∧ badContinuation s s.now th = none ∧ heldVector s th = none)
    (fun s t =>
      let y := t.now.thread th
      y.fpc = (s.now.thread th).pc ∧ y.cont = true ∧ y.pc = (s.now.team (s.now.teamOf th)).contvec ∧ y.level = (s.now.thread th).level ∧ y.held = none ∧
        y.fhandle.tag = tagHandle ∧ ∃ h, y.fhandle.wait = some (.handle h)) := by
  refine leaves_of_event (exec_holdLimitExpiry th) fun s hown => ?_
  obtain ⟨⟨hheld, hword, hlate⟩, hgood, haway⟩ := hown
  have hhere : ¬ (targetHeld s s.now (s.now.coreOf th) (s.now.ctxOf th) (s.now.thread th).level (s.now.team (s.now.teamOf th)).contvec).isSome = true :=
    Option.not_isSome_iff_eq_none.mpr haway
  simp only [hheld, hword, if_pos hlate, hgood, if_neg hhere]
  obtain ⟨h, hfault⟩ := thread_enterSoftFault s.now th (s.now.thread th).pc va
  have hmoved := thread_moveThread (enterSoftFault s.now th (s.now.thread th).pc va) th ((enterSoftFault s.now th (s.now.thread th).pc va).thread th).level
    ((enterSoftFault s.now th (s.now.thread th).pc va).thread th).pc
  simp only [hfault] at hmoved ⊢
  exact ⟨congrArg Thread.fpc hmoved, congrArg Thread.cont hmoved, congrArg Thread.pc hmoved, (congrArg Thread.level hmoved :), congrArg Thread.held hmoved,
    congrArg (fun y : Thread => y.fhandle.tag) hmoved, h, congrArg (fun y : Thread => y.fhandle.wait) hmoved⟩

/-! The page-fault service (17 R490). -/

theorem happens_pageFaultService_recalled (ctx va : Nat) : Happens (.pageFaultService ctx va)
    (fun s => demanded s s.now ctx va = true ∧ pageAway s s.now ctx va = true) (fun s => { s with now := touch s s.now 0 ctx va false }) := by
  refine happens_of_tables (exec_pageFaultService ctx va) fun s hown => ?_
  obtain ⟨hdemanded, haway⟩ := hown
  simp only [hdemanded, haway, Bool.not_true, Bool.false_eq_true, if_false, if_true]

theorem happens_pageFaultService_served (ctx va : Nat) : Happens (.pageFaultService ctx va)
    (fun s => demanded s s.now ctx va = true ∧ pageAway s s.now ctx va = false ∧ s.board.split.getLsbD 0 = false)
    (fun s => { s with now := servePage s s.now ctx va }) := by
  refine happens_of_tables (exec_pageFaultService ctx va) fun s hown => ?_
  obtain ⟨hdemanded, hhere, hsplit⟩ := hown
  simp only [hdemanded, hhere, hsplit, Bool.not_true, Bool.false_eq_true, if_false]

theorem happens_pageFaultService_watched (ctx va : Nat) : Happens (.pageFaultService ctx va)
    (fun s => demanded s s.now ctx va = true ∧ pageAway s s.now ctx va = false ∧ s.board.split.getLsbD 0 = true)
    (fun s => { s with now := watchPage s s.now ctx va }) := by
  refine happens_of_tables (exec_pageFaultService ctx va) fun s hown => ?_
  obtain ⟨hdemanded, hhere, hsplit⟩ := hown
  simp only [hdemanded, hhere, hsplit, Bool.not_true, Bool.false_eq_true, if_false, if_true]

section
variable {e : State} {c : Chip} {ctx va y a l : Nat} (hwalk : walk e c ctx va = .leaf y a l)
include hwalk

/-- A near page is there, and one that is bad cannot be. -/
theorem servePage_near (hstate : Pte.state y = 0) : servePage e c ctx va = c.resolvePage ctx va 0 := by
  simp only [servePage, hwalk, hstate]

theorem servePage_bad (hstate : Pte.state y = 6) : servePage e c ctx va = c.resolvePage ctx va serviceFailed := by
  simp only [servePage, hwalk, hstate]

/-- With a frame at hand an absent page is filled and a far one comes near. -/
theorem servePage_absent {f : Nat} {c' : Chip} (hl : l = 3) (hfree : c.poolBusy ctx = false) (hframe : takeFrame e 1024 c ctx = (some f, c'))
    (hstate : Pte.state y = 5) (hdemand : bitAt y 11 = true) : servePage e c ctx va = fillPage e c' ctx va y a f := by
  simp [servePage, hwalk, hstate, hl, hdemand, hfree, hframe]

theorem servePage_far {f : Nat} {c' : Chip} (hl : l = 3) (hfree : c.poolBusy ctx = false) (hframe : takeFrame e 1024 c ctx = (some f, c'))
    (hstate : Pte.state y = 1) (hmoves : bitAt y 12 = false) :
    servePage e c ctx va = startMigration e c' ctx (va / 65536 * 65536) f none (some f) := by
  simp [servePage, hwalk, hstate, hl, hmoves, hfree, hframe]

end

/-! The drover (17 R373 to R375, R383, R384). -/

/-- The migration of a leaf's page, as it starts. -/
def migrationFor (ctx va y a target : Nat) (ring pool : Option Nat) : Migration :=
  { ctx := ctx, va := va, entryAt := a, source := Pte.frame y, target := target, toNear := isHbm target, ring := ring, pool := pool, fromState := Pte.state y }

/-- Where the barn die has room, the entry migrates and leaves every TLB. -/
theorem startMigration_of_room {e : State} {c : Chip} {ctx va y a target : Nat} {ring pool : Option Nat} (hleaf : pageLeaf e c ctx va = some (y, a))
    (hroom : (c.migrations.filter (fun q => decide (q.barn = (migrationFor ctx va y a target ring pool).barn))).length < Config.migrations)
    (hcow : c.cowHeld (migrationFor ctx va y a target ring pool).source = false) :
    startMigration e c ctx va target ring pool =
      let c := (agentWrite e c none a 8 (Pte.withState y 2)).shoot ctx (some va)
      { c with migrations := c.migrations ++ [migrationFor ctx va y a target ring pool] } := by
  simp only [startMigration, hleaf]
  refine if_neg (not_or.mpr ⟨Nat.not_le.mpr hroom, ?_⟩)
  exact Bool.eq_false_iff.mp hcow

/-- The next record of a context's ring, which the drover can read. -/
structure NextCommand (s : State) (ctx p : Nat) : Prop where
  waiting : (s.now.ctx ctx).drvTaken ≠ (s.now.ctx ctx).drvqtail
  alive : (s.now.ctx ctx).state ≠ .killed
  kept : (s.now.ctx ctx).state ≠ .retired
  readable : deviceRead s s.now ctx ((s.now.ctx ctx).ring + 16 * ((s.now.ctx ctx).drvTaken.toNat % 256)) = some p

/-- The record is taken off the ring. -/
def takenCommand (s : State) (ctx : Nat) (c : Chip) : Chip :=
  let c := touch s c 0 ctx ((s.now.ctx ctx).ring + 16 * ((s.now.ctx ctx).drvTaken.toNat % 256)) false
  c.setCtx ctx { c.ctx ctx with drvTaken := (s.now.ctx ctx).drvTaken + 1 }

/-- What the record asks for. -/
def nextCommand (s : State) (ctx p : Nat) : Command := readCommand s s.now ctx (peek s s.now p 8) (peek s s.now (p + 8) 8)

/-- The state of the machine once the record at `p` that reads as `k` has been acted on. -/
def afterCommand (s : State) (ctx p : Nat) (k : Command) : Chip :=
  let c := s.now
  let n := (c.ctx ctx).drvTaken.toNat
  let va := peek s c p 8
  let op := peek s c (p + 8) 8 % 4
  match k with
  | .wait => c
  | .done => completeRecord s (takenCommand s ctx c) ctx n (recordWord op 0 0 1)
  | .refuse st => completeRecord s (takenCommand s ctx c) ctx n (recordWord op 0 st 2)
  | .migrate frame =>
    let d := startMigration s c ctx va frame (some n) none
    if d.migrations.length = c.migrations.length then c else takenCommand s ctx d
  | .checkOut y a =>
    let base := copyBase (Pte.dev y) + Pte.frame y
    let c := agentWrite s (checkOutPage s (takenCommand s ctx c) base) none a 8 (Pte.withState y 4)
    completeRecord s ((c.shoot ctx (some va)).tell (bulk (Pte.dev y) opCheckout (Pte.frame y))) ctx n (recordWord op 0 0 1)
  | .giveBack y a =>
    let base := copyBase (Pte.dev y) + Pte.frame y
    if c.frameBusy base then c
    else
      let c := agentWrite s (giveUpPage s (takenCommand s ctx c) (Pte.dev y) base (Pte.frame y)) none a 8 (Pte.withState y 3)
      completeRecord s ((c.shoot ctx (some va)).tell (bulk (Pte.dev y) opReturn (Pte.frame y))) ctx n (recordWord op 0 0 1)

/-- The drover acts on the record that it can read. -/
theorem happens_droverCommand (ctx p : Nat) (k : Command) : Happens (.droverCommand ctx) (fun s => NextCommand s ctx p ∧ nextCommand s ctx p = k)
    (fun s => { s with now := afterCommand s ctx p k }) := by
  refine happens_of_tables (exec_droverCommand ctx) fun s hown => ?_
  obtain ⟨⟨hwaiting, halive, hkept, hreadable⟩, hread⟩ := hown
  have hgo : ¬ ((s.now.ctx ctx).drvTaken = (s.now.ctx ctx).drvqtail ∨ (s.now.ctx ctx).state = .killed ∨ (s.now.ctx ctx).state = .retired) :=
    not_or.mpr ⟨hwaiting, not_or.mpr ⟨halive, hkept⟩⟩
  dsimp only
  rw [if_neg hgo, ← hread]
  simp only [hreadable]
  rfl

theorem happens_migration (ctx va : Nat) (m : Migration) : Happens (.migration ctx va)
    (fun s => s.now.migrationOf ctx va = some m ∧ m.copied = false ∧ s.now.frameBusy m.source = false)
    (fun s =>
      let s := movePage s m.source m.target
      { s with now := { s.now with migrations := s.now.migrations.map (fun k => if k = m then { k with copied := true } else k) } }) := by
  refine happens_of_eventS (exec_migration ctx va) fun s hown => ?_
  obtain ⟨hfind, hcopied, hidle⟩ := hown
  simp only [hfind, hcopied, hidle, Bool.or_self, Bool.false_eq_true, if_false]

theorem happens_migrationComplete (ctx va : Nat) (m : Migration) : Happens (.migrationComplete ctx va)
    (fun s => s.now.migrationOf ctx va = some m ∧ m.copied = true) (fun s => { s with now := endMigration s s.now m }) := by
  refine happens_of_tables (exec_migrationComplete ctx va) fun s hown => ?_
  obtain ⟨hfind, hcopied⟩ := hown
  simp only [hfind, hcopied, if_true]

/-- A far page that has been used often enough comes near. -/
theorem happens_farPagePromotion (ctx va y a f : Nat) (c : Chip) : Happens (.farPagePromotion ctx va)
    (fun s => pageLeaf s s.now ctx va = some (y, a) ∧ (s.now.ctx ctx).drvcount = true ∧ Sparse.get 0 (s.now.ctx ctx).farCount (va / 65536) ≠ 0 ∧
      16 * (s.now.ctx ctx).drvthresh ≤ Sparse.get 0 (s.now.ctx ctx).farCount (va / 65536) ∧ Pte.state y = 1 ∧ s.now.poolBusy ctx = false ∧
      takeFrame s 1024 s.now ctx = (some f, c))
    (fun s => { s with now := startMigration s c ctx (va / 65536 * 65536) f none (some f) }) := by
  refine happens_of_tables (exec_farPagePromotion ctx va) fun s hown => ?_
  obtain ⟨hleaf, hcounts, hused, hoften, hfar, hfree, hframe⟩ := hown
  have hmoves : (!(s.now.ctx ctx).drvcount || decide (Sparse.get 0 (s.now.ctx ctx).farCount (va / 65536) = 0) ||
      decide (Sparse.get 0 (s.now.ctx ctx).farCount (va / 65536) < 16 * (s.now.ctx ctx).drvthresh) || decide (Pte.state y ≠ 1) ||
      s.now.poolBusy ctx) = false := by
    simp [hcounts, hused, Nat.not_lt.mpr hoften, hfar, hfree]
  simp only [hleaf, hmoves, hframe, Bool.false_eq_true, if_false]

/-- The last lease on a page ends, and what waited for it goes on. -/
theorem happens_pageLeaseEnd (page n : Nat) : Happens (.pageLeaseEnd page)
    (fun s => Sparse.find? s.board.leasesGranted page = some n ∧ n ≤ s.board.dtick)
    (fun s =>
      let s := { s with board := { s.board with leasesGranted := Sparse.erase s.board.leasesGranted page } }
      serveInbox { s with now := flushDeferred s s.now }) := by
  refine happens_of_eventS (exec_pageLeaseEnd page) fun s hown => ?_
  obtain ⟨hfind, hended⟩ := hown
  simp only [hfind, if_neg (Nat.not_lt.mpr hended)]

/-- Settles O56: each clause is one branch of its event, and a batch that resolves changes no register but those that refer to it. -/
theorem copyAndPageEvents : Obligations.CopyAndPageEvents := by
  intro id i ctx va th team unit b x d m
  dsimp only
  refine ⟨happens_carterTransferUnit id unit b x, happens_carterTransferUnit_none unit, ?sends, happens_copyElement id i b x d, ?lands,
    leaves_batchResolve id b, happens_remapWrite id i b x d, happens_remapTimeout team, ?held, happens_pageFaultService_recalled ctx va,
    happens_pageFaultService_served ctx va, happens_pageFaultService_watched ctx va, ?serves, ?starts, ?commands, happens_migration ctx va m,
    happens_migrationComplete ctx va m, fun y a f c => happens_farPagePromotion ctx va y a f c, fun page n => happens_pageLeaseEnd page n⟩
  case sends => exact fun e c k off k' off' => sendElem_of_local id i
  case lands => exact fun e c k off => landElem_of_local i d
  case held =>
    intro n w
    refine ⟨fun s hs hown => ?_, fun k s hs hown => ?_, holdLimit_of_fetch th, fun s hs hown => ?_⟩
    · obtain ⟨⟨hheld, hword, hlate⟩, haway⟩ := hown
      exact holdLimit_of_away th va n w s hs ⟨⟨hheld, hword, hlate⟩, haway⟩
    · obtain ⟨⟨hheld, hword, hlate⟩, hbad⟩ := hown
      exact holdLimit_of_bad th va n k w s hs ⟨⟨hheld, hword, hlate⟩, hbad⟩
    · obtain ⟨⟨hheld, hword, hlate⟩, hgood⟩ := hown
      exact holdLimit_leaves th va n w s hs ⟨⟨hheld, hword, hlate⟩, hgood⟩
  case serves =>
    exact fun e c y a l hwalk => ⟨servePage_near hwalk, servePage_bad hwalk, fun f c' hl hfree hframe =>
      ⟨servePage_absent hwalk hl hfree hframe, servePage_far hwalk hl hfree hframe⟩⟩
  case starts => exact fun e c y a target ring pool hleaf hroom hcow => startMigration_of_room hleaf hroom hcow
  case commands =>
    intro p
    have hacts : ∀ k s, s.issue = none → ((s.now.ctx ctx).drvTaken ≠ (s.now.ctx ctx).drvqtail ∧ (s.now.ctx ctx).state ≠ .killed ∧
        (s.now.ctx ctx).state ≠ .retired ∧
        deviceRead s s.now ctx ((s.now.ctx ctx).ring + 16 * ((s.now.ctx ctx).drvTaken.toNat % 256)) = some p) → nextCommand s ctx p = k →
        exec (.droverCommand ctx) s = .next { s with now := afterCommand s ctx p k } := by
      rintro k s hs ⟨hwaiting, halive, hkept, hreadable⟩ hread
      exact happens_droverCommand ctx p k s hs ⟨⟨hwaiting, halive, hkept, hreadable⟩, hread⟩
    refine ⟨fun s hs hown => hacts _ s hs hown.1 hown.2, fun s hs hown => hacts _ s hs hown.1 hown.2, fun f s hs hown => ?migrates,
      fun y a => ⟨fun s hs hown => hacts _ s hs hown.1 hown.2, fun s hs hown => ?givesBack⟩, fun st s hs hown => hacts _ s hs hown.1 hown.2⟩
    case migrates =>
      obtain ⟨hhere, hread, hstarted⟩ := hown
      rw [hacts _ s hs hhere hread]
      simp only [afterCommand, if_neg hstarted]
      rfl
    case givesBack =>
      obtain ⟨hhere, hread, hidle⟩ := hown
      rw [hacts _ s hs hhere hread]
      simp only [afterCommand, hidle, Bool.false_eq_true, if_false]
      rfl

end Sys2Proof.Machine
end
